-- ==== Sys2Proof/Word.lean ====
section
/-! DEFINITION. The widths the spec names: bytes, 32-bit registers (R57), 64-bit registers and times (R57, R133). -/

namespace Sys2Proof

/-- One byte of memory or of a packet. -/
abbrev Byte := BitVec 8
/-- A 32-bit register (R57). -/
abbrev Word := BitVec 32
/-- A 64-bit register (R57); a 32-bit register is held in the low half. -/
abbrev Dword := BitVec 64

/-- Ceiling of `a / b`. -/
def ceilDiv (a b : Nat) : Nat := (a + b - 1) / b

/-- `a + b`, held at `cap`: the saturating counts of the register tables. -/
def satAdd (cap a b : Nat) : Nat := min cap (a + b)

end Sys2Proof
end

