-- ==== Sys2Proof/Config.lean ====
section
/-! DEFINITION. What no rule of the spec fixes: free values (values the spec calls undefined or does not state) and
what the standards and the firmware settle without the spec, as constants without a body, so that nothing can be proved of one
value of them. -/

namespace Sys2Proof.Config

/-- The n-th value the spec leaves open (log 4): State.free counts the draws. -/
opaque free : Nat → Nat
/-- The n-th byte string the spec leaves open (log 4), counted with the draws of `free`. -/
opaque freeBytes : Nat → List Byte
/-- The fixed Quirum derivation of a private key from the unique device secret and a label, which the spec does not give (R550, log 6). -/
opaque deriveKey : Nat → Nat → Nat
/-- The answer of the management complex firmware to a message whose content the spec does not give (R44, log 7). -/
opaque firmwareReply : List Byte → List Byte
/-- Quirum's Vendor ID (R391), which the spec does not give (log 18). -/
opaque vendorId : Nat
/-- Device number of the virtual bridge of a downstream port on its partition's upstream secondary bus, which the spec does not give (log 30). -/
opaque bridgeDev : Nat → Nat
/-- Place in configuration space of the n-th capability register that the model gives contents, which the spec does not give (log 30). -/
opaque capReg : Nat → Nat
/-- A register of a capability structure that the model does not name stands at the place in configuration space (log 30). -/
opaque capHeld : Nat → Bool
/-- Header and data credits that a port's ingress part of a class (0 posted, 1 non-posted, 2 completion) and size in cells advertises, which R117 leaves
to PCI Express (log 66). -/
opaque creditsOf : Nat → Nat → Nat × Nat
/-- FEC bytes of a flit's bytes 0 to 249, as PCI Express 7.0 defines them (R275, log 61). -/
opaque flitFec : List Byte → List Byte
/-- Header and prefix bytes of a TLP in the FLIT-mode format of PCI Express 7.0 (R295), from its fields as numbers (log 61). -/
opaque tlpHeader : List Nat → List Byte
/-- The parity field of a flit whose other bytes allow none that meets R276 and R277 together (log 73). -/
opaque flitParity : List Byte → Nat
/-- The value type that the DMTF format gives measurement block i (R561), which the spec does not state (log 51). -/
opaque measureType : Nat → Nat

end Sys2Proof.Config
end

