-- ==== Sys2Proof/Syntax.lean ====
section
/-! DEFINITION. The packets that commands carry, and Instr: one constructor for each row of spec/opcode_table.json. -/

namespace Sys2Proof

/-- What a transaction layer packet asks or answers (R85, R312, Table 10.10). Messages are split by their routing;
`cxlRd` and `cxlWr` are CXL.mem MemRd and MemWr (R349). -/
inductive TlpKind where
  | mrd | mwr | atomic | dmwr | io | cfg
  | msgId | msgRoot | msgBroadcast | msgLocal
  | cxlRd | cxlWr
  | cpl
  deriving DecidableEq, Repr

/-- Completion status: Successful Completion, Unsupported Request, Completer Abort, Request Retry Status. -/
inductive CplStatus where
  | sc | ur | ca | rrs
  deriving DecidableEq, Repr

/-- The AtomicOps of R327. -/
inductive AtomicOp where
  | fetchAdd | swap | cas
  deriving DecidableEq, Repr

/-- Outcome of an error-correcting code over stored or carried data (R39, R119, R124). -/
inductive Ecc where
  | ok | corrected | uncorrectable
  deriving DecidableEq, Repr

/-- One packet as received or sent. `addr` is the address, or the target ID of an ID-routed packet; `len` the bytes it
names; `mask` its byte enables (empty: all enabled); `data` its payload; `hdr` its header and prefix bytes (R23); `xlat` the Address Type of a memory request (0 untranslated, 2 translated); `ide` the IDE stream that
protects it (0 the link stream, 1 + i selective stream i: R243). A completion carries its Completer ID `cid` and `count`, the bytes of the answer that it
and those after it bring, and its Lower Address `low` (R359). `typ1` tells a Type 1 configuration request from a Type 0 one (R96), `locked` a locked read (R11). -/
structure Tlp where
  kind : TlpKind
  rid : Nat
  tag : Nat
  pasid : Option Nat
  tc : Nat
  addr : Nat
  len : Nat
  mask : List Bool
  data : List Byte
  hdr : Nat
  ro : Bool
  ido : Bool
  poisoned : Bool
  op : AtomicOp
  status : CplStatus
  xlat : Nat := 0
  ide : Option Nat := none
  cid : Nat := 0
  count : Nat := 0
  low : Nat := 0
  typ1 : Bool := true
  locked : Bool := false
  deriving DecidableEq, Repr

/-- Who sends a register access (R54, R63, R78): the host of a partition, the management complex, the debug port,
a tenant through the BARs of its virtual function. -/
inductive Requester where
  | host (part : Nat)
  | mgmt
  | debug
  | tenant (inst : Nat)
  deriving DecidableEq, Repr

/-- Sparse store: key and value pairs in rising key order; a key that is not listed holds its default. -/
abbrev Store (α : Type) := List (Nat × α)

/-- Fabric header of Table 8.10, without the fields that repeat the packet's own. -/
structure FabHdr where
  kind : Nat
  ro : Bool
  sync : Bool
  replay : Bool
  dst : Nat
  cls : Nat
  cellar : Nat
  src : Nat
  part : Nat
  aux : Nat
  tseq : Nat
  pbar : Nat
  deriving DecidableEq, Repr

/-- A gate entry (Table 5.7): kind 0 SCHED, 1 REPAIR, 2 OPEN. -/
structure GateEntry where
  start : Nat
  len : Nat
  kind : Nat
  queue : Nat
  deriving DecidableEq, Repr

/-- A STREAMS entry (Table 5.6). -/
structure StreamDesc where
  sched : Bool
  ing : Nat
  pmax : Nat
  offset : Nat
  cells : Nat
  deriving DecidableEq, Repr

/-- A stream that is not scheduled. -/
def StreamDesc.off : StreamDesc := { sched := false, ing := 0, pmax := 0, offset := 0, cells := 0 }

/-- A placed spill burst (Table 5.9): tick, Cellar, queue, direction (1: HBM to SRAM), cells. -/
structure SpillSlot where
  start : Nat
  cellar : Nat
  queue : Nat
  dir : Nat
  cells : Nat
  deriving DecidableEq, Repr

/-- A placed DMA burst (Table 5.9): tick, channel of the Cellar, engine (1: write), bytes in units of 256. -/
structure DmaSlot where
  start : Nat
  chan : Nat
  eng : Nat
  len : Nat
  deriving DecidableEq, Repr

/-- A schedule image as its header and sections say (chapter 5): what the executor and the selections use. -/
structure Vintage where
  number : Nat
  home : Nat
  kind : Nat
  role : Nat
  triggers : Nat
  rank : Nat
  target : Nat
  cycle : Nat
  digest : Nat
  plan : Store Nat
  streams : Store StreamDesc
  gates : Store (List GateEntry)
  spine : Store (List (Nat × Nat))
  spill : List SpillSlot
  dma : Store (List DmaSlot)
  reserved : Bool := false
  deriving DecidableEq, Repr

/-- A register that a host writes by a configuration request in a function of its partition: the command, window, bus number,
Multicast, ACS, ARI and DPC registers of a virtual bridge (R90, R96, R105, R108, R242), the subordinate bus number of the services bridge (R392), the
BARs, SR-IOV VF BARs, Command, Device Control, MSI-X and AER registers of the services endpoint and its functions (R69, R391 to R395), the Slot Status bits a
host clears (R519, R531), and the HDM decoders of a CXL.mem port (R349). -/
inductive CfgReg where
  | memBase | memLimit | pfBase | pfLimit | memEnable
  | priBus | secBus | subBus | redirect | mcBase | mcShift | mcEnable
  | acs | egressVec | mcNum | mcReceive | mcBlock | mcBlockUntr | mcOverlay | ariForward | dpcControl | bridgeMaster | bridgeAerStatus | bridgeAerMask | bridgeAerSeverity
  | svcSubBus | pfMemEnable | vfMemEnable | msixControl | vfMsixControl (vf : Nat)
  | bar0 | bar2 | bar4 | vfBar0 | vfBar2 | functionRid | busMaster | maxRead | maxPayload | cplTimeout
  | aerCorMask | aerUncMask | aerStatus
  | slotStatus
  | hdmBase (i : Nat) | hdmSize (i : Nat) | hdmOffset (i : Nat)
  deriving DecidableEq, Repr

/-- A register whose writes are held (R92, R379). -/
inductive HeldField where
  | base | limit | attr | wr
  deriving DecidableEq, Repr

/-- A register of a channel's transfer set (R428). -/
inductive DmaReg where
  | src | dst | count | xctl
  deriving DecidableEq, Repr

/-- A lane error event (Table 7.7): 65,536 corrected symbols, a flit or a TLP that failed its check with errors located on the
lane, a framing, block or symbol error, loss of lock on this lane alone, on every lane of its link in the same tick (R262), the return of lock, and a
receive error that no lane is charged with (R257). -/
inductive LaneEvent where
  | symbols | flit | framing | lockLost | linkLost | lockBack | uncharged
  deriving DecidableEq, Repr

/-- Stream key of a covered write (R491). -/
structure StreamKey where
  part : Nat
  rid : Nat
  pasid : Option Nat
  deriving DecidableEq, Repr

/-- A mirror record (Table 14.3): kind 1 COPY, 2 MARK, 3 COMMIT, 4 LEDGER, 5 BLOCK. `window` is absent for 0xFFFF;
`region` is 0 for the shared window and 1 for the translation tables; `entries` are the key, L and LOSTN of a LEDGER; `grp` is the
write of the model it was made for, no field of the record. -/
structure MirRec where
  kind : Nat
  key : StreamKey
  window : Option Nat
  wseq : Nat
  addr : Nat
  len : Nat
  vi : Option Nat
  gen : Nat
  idem : Bool
  shared : Bool
  mask : List Bool
  data : List Byte
  region : Nat
  cseq : Nat
  epoch : Nat
  time : Nat
  entries : List (StreamKey × Nat × Nat)
  grp : Nat
  deriving DecidableEq, Repr

/-- A control message of a CTRL flit (Tables 8.4 and 14.4). -/
inductive CtrlMsg where
  | credit (p np cpl : Nat)
  | nak (seq : Nat)
  | hello (fdid port : Nat) (phyDsp follow echo : Bool) (width ident : Nat)
  | linkReq (width cause tag : Nat)
  | linkGo (width tag : Nat)
  | timeReq (t1 : Nat)
  | timeRsp (t1 t2 t3 : Nat)
  | swapTick (tick vintage cls port : Nat)
  | role (role : Nat) (takeOk resyncReq : Bool) (vintage epoch : Nat)
  | armReport (tick vintage : Nat)
  | yield (cause : Nat)
  | resync (ended : Bool)
  | mctp (body : List Byte)
  deriving DecidableEq, Repr

/-- One entry of a TACK (R300): FCLASS, source Cellar, RESYNC, ACKD. -/
structure TackEntry where
  cls : Nat
  cellar : Nat
  resync : Bool
  ackd : Nat
  deriving DecidableEq, Repr

/-- One slot's part of Limder's sample (R518, R525): current and output voltage in 10 mA and 10 mV, and whether the main gate is at GATE_OK. -/
structure SlotMeas where
  slot : Nat
  cur : Nat
  vout : Nat
  gateOk : Bool
  deriving DecidableEq, Repr

/-- What a module's FRU record yields (R538): the three Board Info fields, each with its type/length byte, and INS_RATED, HRS_RATED, INS_BASE and
HRS_BASE of the life MultiRecord where it has one. -/
structure FruRead where
  mfr : List Byte
  part : List Byte
  serial : List Byte
  life : Option (Nat × Nat × Nat × Nat)
  deriving DecidableEq, Repr

/-- A firmware copy as the boot ROM reads it from the boot flash, whose place the spec does not give (R549): signing key and signature, SHA-384, VERSION,
security version, and the Quirum keys it asks to revoke (Table 16.1). -/
structure FwCopy where
  key : List Byte
  sig : List Byte
  hash : Nat
  version : Nat
  svn : Nat
  revoke : List Nat
  deriving DecidableEq, Repr

/-- What FLASHPROG does at a boot flash address (R549): read, program, erase. -/
inductive FlashOp where
  | read (n : Nat)
  | program (data : List Byte)
  | erase (n : Nat)
  deriving DecidableEq, Repr

/-- A step of IDE_KM for a stream of a port (R243): its keys are programmed, it starts to use them, it stops. -/
inductive IdeAct where
  | program | go | stop
  deriving DecidableEq, Repr

/-- An SPDM request (R558, R560, R561): measurement `index` (0xFF: all), a vendor-defined request with a code that Table 16.5 does not list, or another
request, as bytes. `ide` is a step of IDE_KM within a session; on a downstream port, whose keys the management complex establishes as requester (R243), the
module's answer to it. -/
inductive SpdmReq where
  | measure (index : Nat) (body : List Byte)
  | vendor (code : Nat)
  | ide (port stream : Nat) (act : IdeAct)
  | other (body : List Byte)
  deriving DecidableEq, Repr

/-- What a module or peer answered to its attestation (R562, R564): whether its chain is well formed, SHA-384 of its root, whether every signature verifies,
SHA-384 of its slot 0 chain (for a peer its CERT_HASH), and of its measurement blocks. -/
structure AttReply where
  chainOk : Bool
  root : Nat
  sigsOk : Bool
  chain : Nat
  meas : Nat
  deriving DecidableEq, Repr

/-- What a boot step takes from outside the model (Table 19.6): the stored certificates (subject key and SHA-384 of the identity certificate, subject key of
the debug certificate), the firmware copies, the configuration bytes with the register values and the HBM region map (region, base, size) they spell. -/
structure BootInfo where
  cert : Option (Nat × Nat)
  dbgCert : Option Nat
  copyA : Option FwCopy
  copyB : Option FwCopy
  config : List Byte
  loads : List (Nat × Dword)
  regions : List (Nat × Nat × Nat)
  deriving DecidableEq, Repr

/-- What a margin scan found on one lane of a port (R577): lane number within the port, eye height in mV, eye width in 1/128 UI. -/
structure LaneEye where
  lane : Nat
  eh : Nat
  ew : Nat
  deriving DecidableEq, Repr

/-- How the reception of a completion ended: good, bad as the link gives it (R115), or with a failed check of its selective IDE stream (R244). -/
inductive TlpEnd where
  | good
  | bad
  | ideFail
  deriving DecidableEq, Repr

/-- The end of the link-down actions of an FFL or mirror port (R294), with the streams of which a copy to be replayed cannot be read (R302). -/
structure LinkCleanup where
  port : Nat
  unread : List Nat
  deriving DecidableEq, Repr

/-- The commands: one constructor for each row of spec/opcode_table.json, in its order, named after it. Operands name
the port, Cellar, channel or entry the row acts on, and carry what comes from outside (packets, register data,
measurements, outcomes of error-correcting codes). -/
inductive Instr where
  | cellarHoldReq (who : Requester) (c : Nat)
  | cellarGateReq (who : Requester) (c : Nat)
  | cellarRunReq (who : Requester) (c : Nat)
  | cellarModeReached (c : Nat)
  | registerWrite (who : Requester) (off : Nat) (wide : Bool) (be : Nat) (data : Dword)
  | rcRead (who : Requester) (off : Nat) (wide : Bool)
  | lowWordRead (who : Requester) (off : Nat)
  | pageLockWrite (who : Requester) (page : Nat)
  | glbSealWrite (who : Requester)
  | intForceWrite (who : Requester) (page : Nat) (bits : Nat)
  | fltForceWrite (who : Requester) (page : Nat) (bits : Nat)
  | fltAckWrite (who : Requester) (page : Nat) (bits : Nat)
  | tlpReceive (port : Nat) (tlp : Tlp) (acc : List Nat) (ideFail : Bool) (bad : Bool)
  | completionReceive (port : Nat) (tlp : Tlp) (acc : List Nat) (ended : TlpEnd)
  | mctpReceive (body : List Byte)
  | bridgeConfigWrite (port : Nat) (reg : CfgReg) (value : Nat)
  | secondaryBusReset (part : Nat)
  | winFieldWrite (who : Requester) (w : Nat) (field : HeldField) (value : Dword)
  | winRouteWrite (who : Requester) (w : Nat) (value : Word)
  | fwdEptDataAccess (who : Requester) (value : Option Word)
  | ingressOrderPass (ing : Nat) (cls : Nat)
  | spineSlot (src : Nat) (dst : Nat) (half : Nat) (ecc : Ecc)
  | cellEgressArrive (queue : Nat) (ecc : Ecc)
  | flitPeriodStart (port : Nat) (ecc : Ecc)
  | nonflitStartOpportunity (port : Nat) (ecc : Ecc)
  | repairItemDue (port : Nat) (item : Nat)
  | repairWaitExpire (port : Nat)
  | tlpDllAck (port : Nat) (count : Nat)
  | fcUpdateReceive (port : Nat) (cls : Nat) (headers : Nat) (units : Nat)
  | policerRelease (port : Nat) (cls : Nat)
  | shaperParamWrite (who : Requester) (off : Nat) (value : Word)
  | queueSnapshot (page : Nat)
  | queueStallDetect (queue : Nat)
  | spillPlacedBurst (index : Nat)
  | spillBeBurst (back : Bool)
  | spillBurstDone (ecc : List Ecc)
  | schLoad (who : Requester) (slot : Nat)
  | schLoadDone (slot : Nat)
  | loadCompletionTimeout
  | schHold (who : Requester) (slot : Nat)
  | schRelease (who : Requester) (slot : Nat)
  | schArm (who : Requester) (slot : Nat)
  | shadowFillDone
  | schDisarm (who : Requester) (slot : Nat)
  | schBadCmd (who : Requester) (code : Nat) (slot : Nat)
  | armPairCheck
  | armedSwap
  | fallbackSwap
  | laneErrorEvent (lane : Nat) (ev : LaneEvent)
  | laneScoreDecay
  | laneRetireWrite (who : Requester) (c : Nat) (lanes : Nat)
  | lnkRetrain (who : Requester) (port : Nat)
  | lnkRestore (who : Requester) (port : Nat)
  | lnkDisableSet (who : Requester) (port : Nat)
  | lnkDisableClear (who : Requester) (port : Nat)
  | portRecoveryEntry (port : Nat)
  | portL0Entry (port : Nat) (rate : Nat) (width : Nat) (low : Bool) (cxl : Bool) (rev : Bool) (failed : List Nat)
  | derateWindowEnd (port : Nat)
  | dlDown (port : Nat)
  | lockLossTimeout (port : Nat)
  | linkDownCleanupDone (port : Nat)
  | dpcTrigger (port : Nat)
  | dpcExit (port : Nat)
  | hotResetReceived (port : Nat)
  | fflFlitDecide (port : Nat) (flit : List Byte)
  | fflCreditReceive (port : Nat) (p : Nat) (np : Nat) (cpl : Nat)
  | fflNakReceive (port : Nat) (seq : Nat)
  | fflHelloReceive (port : Nat) (fdid : Nat) (peerPort : Nat) (echo : Bool) (width : Nat) (ident : Nat)
  | fflLinkreqReceive (port : Nat) (width : Nat) (tag : Nat)
  | fflLinkgoReceive (port : Nat) (width : Nat) (tag : Nat)
  | fflTimeReqReceive (port : Nat) (t1 : Nat) (acc : Nat)
  | fflTimeRspReceive (port : Nat) (t1 : Nat) (t2 : Nat) (t3 : Nat) (acc : Nat)
  | fflSwaptickReceive (port : Nat) (tick : Nat) (vintage : Nat) (cls : Nat) (peerPort : Nat)
  | fflMctpReceive (port : Nat) (body : List Byte)
  | fflReplayTimeout (port : Nat)
  | fflHelloInterval (port : Nat)
  | fflHelloTimeout (port : Nat)
  | fflUpkeepTimer (port : Nat)
  | fflTimeIntTimer (port : Nat)
  | fflLinkreqTimeout (port : Nat)
  | fflReqCmd (who : Requester) (port : Nat) (width : Nat)
  | fflLockLossTimeout (port : Nat)
  | fflLinkDownCleanupDone (done : LinkCleanup)
  | fabricPacketReceive (port : Nat) (hdr : FabHdr) (tlp : Tlp)
  | tackReceive (port : Nat) (hdr : FabHdr) (entries : List TackEntry)
  | tackDelayExpire (key : Nat)
  | e2eTimeout (key : Nat) (ecc : Ecc)
  | replayStoreWritten (key : Nat)
  | frtCompletionTimeout (entry : Nat)
  | swEntryCommit (index : Nat) (ecc : Ecc)
  | swSerialize (index : Nat) (ecc : Ecc)
  | fenceRead (port : Nat) (rid : Nat) (tag : Nat) (pasid : Option Nat) (inst : Nat)
  | fenceDmwr (port : Nat) (rid : Nat) (tag : Nat) (pasid : Option Nat) (inst : Nat)
  | fenceComplete (index : Nat)
  | prefetchFillDone (block : Nat)
  | prefetchHoldExpire (block : Nat)
  | orphanReap (port : Nat) (rid : Nat) (tag : Nat)
  | liveReap (port : Nat) (rid : Nat) (tag : Nat)
  | accHeldWrite (who : Requester) (slot : Nat) (field : HeldField) (value : Dword)
  | accRdWrite (who : Requester) (slot : Nat) (value : Word)
  | debugPortAccess (off : Nat) (wide : Bool) (data : Option Dword)
  | vimBindD0Write (who : Requester) (value : Word)
  | vimBindD1Write (who : Requester) (value : Word)
  | ttuWalkReadDone (walk : Nat) (ecc : Ecc)
  | ttuInvGo (who : Requester) (value : Word)
  | ttuInvEffect
  | ttuInvDone
  | vfFlr (inst : Nat)
  | vimResetWrite (who : Requester) (inst : Nat)
  | vfEnableChange (part : Nat) (enable : Bool) (num : Nat)
  | pfFlr (part : Nat)
  | heldResetEffect (inst : Nat)
  | instanceResetEnd (inst : Nat)
  | dmaGo (who : Requester) (chan : Nat)
  | dmaStop (who : Requester) (chan : Nat) (go : Bool)
  | dmaPaceWrite (who : Requester) (chan : Nat) (req : Bool)
  | dmaShadowWrite (who : Requester) (chan : Nat) (reg : DmaReg) (value : Dword)
  | dmaPlacedBurst (c : Nat) (index : Nat) (ecc : Ecc) (word : Nat)
  | dmaBeBurst (c : Nat) (eng : Nat) (ecc : Ecc) (word : Nat)
  | dmaBurstEnd (c : Nat) (eng : Nat)
  | dmaListFetchDone (chan : Nat)
  | dmaXferComplete (chan : Nat)
  | leesRecordMake
  | pinPulseEnd
  | pinRearm (who : Requester)
  | pinDriveWrite (who : Requester) (level : Bool)
  | pinModeWrite (who : Requester) (mode : Bool)
  | logRdWrite (who : Requester) (lees : Bool) (rd : Nat)
  | mirRoleReceive (m : Nat) (role : Nat) (takeOk : Bool) (resyncReq : Bool) (vintage : Nat) (epoch : Nat)
  | mirArmreportReceive (m : Nat) (tick : Nat) (vintage : Nat)
  | mirYieldReceive (m : Nat) (cause : Nat)
  | mirResyncMsgReceive (m : Nat) (ended : Bool)
  | mirCopyReceive (m : Nat) (body : MirRec)
  | mirCommitReceive (m : Nat) (body : MirRec)
  | mirLedgerReceive (m : Nat) (body : MirRec)
  | mirBlockReceive (m : Nat) (body : MirRec)
  | roleInterval
  | seekTimeout
  | ledgerEpochEnd
  | heartbeatLoss
  | hbOutToggle
  | mirSwitchover (who : Requester)
  | switchoverDrained
  | mirTake (who : Requester)
  | mirTakeForce (who : Requester)
  | mirResyncCmd (who : Requester)
  | mirBadCmd (who : Requester) (code : Nat)
  | resyncBlockSend
  | resyncTimeout
  | presenceConfirm (slot : Nat) (level : Bool) (ok : Bool)
  | rearmWindowEnd (slot : Nat)
  | slotPowerControlWrite (port : Nat) (on : Bool) (ok : Bool)
  | slotSample (va : Nat) (vb : Nat) (meas : List SlotMeas) (ok : Bool)
  | prechgTimeout (slot : Nat)
  | gateTimeout (slot : Nat) (ok : Bool)
  | holdoffEnd (slot : Nat)
  | perstReleaseTimer (slot : Nat)
  | mainFetOpenDelay (slot : Nat)
  | retryClearTimer (slot : Nat)
  | feedSwitchBbmEnd (slot : Nat) (ok : Bool)
  | feedReturnTimer (slot : Nat)
  | fruReadDone (slot : Nat) (fru : Option FruRead)
  | lifeCountWritten (slot : Nat) (ok : Bool)
  | slotOnHourWrite (slot : Nat) (ok : Bool)
  | spcClrLatch (who : Requester) (slot : Nat)
  | spcService (who : Requester) (slot : Nat)
  | spcConnReset (who : Requester) (slot : Nat)
  | limderLinkFail
  | limderLinkRestore
  | getBook (bootNo : Nat) (start : Nat) (room : Nat)
  | getNonce
  | provisionOwner (blk : List Byte)
  | revokeOwner (blk : List Byte)
  | provisionDbgauth (blk : List Byte)
  | revokeDbgauth (blk : List Byte)
  | commitSvn (blk : List Byte)
  | debugToken (token : List Byte)
  | dbgtoken (token : List Byte)
  | flashprog (addr : Nat) (op : FlashOp)
  | bootsts
  | spdmRequest (req : SpdmReq)
  | checkpointTimer
  | checkpointMade
  | bookFlashWritten (ok : Bool)
  | attestOutcome (port : Nat) (reply : Option AttReply)
  | attestTimeout (port : Nat)
  | truAttRedo (who : Requester) (port : Nat)
  | plannerPass
  | marginScanDone (port : Nat) (lanes : Option (List LaneEye))
  | monitorSample (mons : List (Nat × Nat))
  | ageApply (who : Requester)
  | ageDiscard (who : Requester)
  | ageScanNow (who : Requester) (port : Nat)
  | ageUnretire (who : Requester) (lane : Nat)
  | ageStateHourly (ok : Bool)
  | ageMonthlyRecord (ok : Bool)
  | avsTargetWrite (who : Requester) (mv : Nat)
  | pmuCounterWrite (who : Requester) (c : Nat) (j : Nat) (wide : Bool) (value : Dword)
  | pmuEvtWrite (who : Requester) (c : Nat) (j : Nat) (value : Word)
  | pmuGsnapGo (who : Requester) (c : Nat)
  | pmuSnapshotTick
  | pmuSaClr (who : Requester) (c : Nat) (half : Nat) (ports : Nat)
  | traceRecordWrite (c : Nat)
  | samplePendingTimeout
  | ringRdWrite (who : Requester) (c : Nat) (rd : Nat)
  | pllUnlock
  | pllRelock
  | pllLockTimeout
  | timeSample (ptm : Option (Nat × Nat))
  | ptmInterval
  | tsrcLostTimeout
  | powerGateReq (who : Requester) (d : Nat)
  | powerWakeReq (who : Requester) (d : Nat)
  | powerDomainGated (d : Nat)
  | powerDomainWoken (d : Nat)
  | supplySample (core : Nat) (rails : List (Nat × Nat))
  | supplyWarnEnd
  | vddAonRise
  | qporNAssert
  | powerUpResetEnd
  | qwarmNAssert
  | rstCmdWarm (who : Requester)
  | warmResetStart
  | rstCmdMgmt (who : Requester)
  | mgmtWatchdogExpire
  | firmwareActivate
  | rstPartGo (who : Requester) (part : Nat)
  | partResetBusyEnd (part : Nat)
  | bootStepDone (info : BootInfo)
  | managementComplexRelease (copyA : Option FwCopy) (copyB : Option FwCopy)
  | pairHbInEdge (level : Bool)
  | ageLdataRead (who : Requester)
  | bar2WriteCommit
  | partnerL0pL1Request (port : Nat) (low : Bool)
  deriving DecidableEq, Repr

end Sys2Proof
end

