-- ==== Sys2Proof/Decode.lean ====
section
/-! DEFINITION. Words of the command table. spec/opcode_table.json gives no row any bit field, so no word spells a command. -/

namespace Sys2Proof

/-- The command that a word of the table spells: none, for the table gives no bits to any row. -/
def decodeTableWord (_nbits _w : Nat) : Option Instr := none

end Sys2Proof
end

