-- ==== Sys2Proof/Machine/RegMap.lean ====
section
/-! DEFINITION. The register catalogue: every register of the spec's tables with its place, width, reset value and
fields, and every field by the name REGISTER.FIELD the spec gives it. Written from the register tables of spec/. -/

namespace Sys2Proof.Machine

/-- Access codes of Table 0.3 (RSV bits are the bits no field names). -/
inductive Acc where
  | ro | rw | rws | w1c | w1s | wo | rc
  deriving DecidableEq, Repr

/-- What a write of a value outside a field's range does: where the field's table states a range, such a write
leaves the field unchanged. `special` fields have a rule of their own (their command decides). -/
inductive WRule where
  | any
  | range (lo hi : Nat)
  | sizeLog
  | special
  deriving DecidableEq, Repr

/-- One field of a register (R3: `hi` and `lo` are bit numbers). -/
structure FieldDef where
  hi : Nat
  lo : Nat
  acc : Acc
  rule : WRule
  deriving DecidableEq, Repr

/-- One register, or `count` registers `stride` bytes apart, of a page type. -/
structure RegDef where
  off : Nat
  stride : Nat
  count : Nat
  wide : Bool
  reset : Nat
  flds : List FieldDef
  deriving DecidableEq, Repr

/-- A field by its place: register offset, stride of its copies, high bit, low bit. -/
structure FRef where
  off : Nat
  stride : Nat
  hi : Nat
  lo : Nat
  deriving DecidableEq, Repr

/-- Page types of Table 2.7, with the device-wide schedule set (Table 5.14), the snapshot set of block 0x60
(Table 18.4) and the instance control page (Table 9.3) as page types of their own. -/
inductive PageKind where
  | glb | clk | rst | pwr | spn | fwd | spl | acc | flt | tru | age | mir | vim | win | vimi
  | cel | buf | sch | qsh | lnk | ffl | ftx | dma | dmac | ttu | pmuc | pmut | pmua
  | hbmc | hbmm | spc | spcs | mgt | mgtm | ic
  deriving DecidableEq, Repr

/-- Field of bits `hi` to `lo` with an access code and no range. -/
def fd (hi lo : Nat) (acc : Acc) : FieldDef := ⟨hi, lo, acc, .any⟩

/-- Field of bits `hi` to `lo` that a write outside `a` to `b` leaves unchanged. -/
def fr (hi lo : Nat) (acc : Acc) (a b : Nat) : FieldDef := ⟨hi, lo, acc, .range a b⟩

/-- The `n` like fields of `w` bits, `bs` bits apart, of a packed register. -/
def packed (n bs w : Nat) (acc : Acc) (rule : WRule) : List FieldDef :=
  (List.range n).map fun j => ⟨bs * j + w - 1, bs * j, acc, rule⟩

/-! ## Fields by name -/

/-! Common header of every page (Table 2.2 to 2.3) -/

def PAGE_ID.TYPE : FRef := ⟨0x0, 0, 31, 16⟩
def PAGE_ID.INDEX : FRef := ⟨0x0, 0, 10, 0⟩
def PAGE_VER.MAJOR : FRef := ⟨0x4, 0, 15, 8⟩
def PAGE_VER.MINOR : FRef := ⟨0x4, 0, 7, 0⟩
def PAGE_CAP.SPECIFIC : FRef := ⟨0x8, 0, 31, 16⟩
def PAGE_CAP.NINT : FRef := ⟨0x8, 0, 15, 8⟩
def PAGE_CAP.NFLT : FRef := ⟨0x8, 0, 7, 0⟩
def PAGE_CTL.INT_DEST : FRef := ⟨0xC, 0, 28, 24⟩
def PAGE_CTL.FORCE_NOESC : FRef := ⟨0xC, 0, 11, 11⟩
def PAGE_CTL.INT_VEC : FRef := ⟨0xC, 0, 10, 0⟩
def PAGE_STS.PRESENT : FRef := ⟨0x10, 0, 31, 31⟩
def PAGE_STS.FLT_PEND : FRef := ⟨0x10, 0, 1, 1⟩
def PAGE_STS.INT_PEND : FRef := ⟨0x10, 0, 0, 0⟩
def PAGE_LOCK.SECURE : FRef := ⟨0x14, 0, 2, 2⟩
def PAGE_LOCK.SEALED : FRef := ⟨0x14, 0, 1, 1⟩
def PAGE_LOCK.LOCK : FRef := ⟨0x14, 0, 0, 0⟩
def FLT_SEV.SEV : FRef := ⟨0x50, 4, 2, 0⟩
def INT_CAUSE.BITS : FRef := ⟨0x20, 0, 31, 0⟩
def INT_MASK.BITS : FRef := ⟨0x24, 0, 31, 0⟩
def INT_FORCE.BITS : FRef := ⟨0x28, 0, 31, 0⟩
def FLT_CAUSE.BITS : FRef := ⟨0x40, 0, 31, 0⟩
def FLT_MASK.BITS : FRef := ⟨0x44, 0, 31, 0⟩
def FLT_FORCE.BITS : FRef := ⟨0x48, 0, 31, 0⟩
def FLT_ACK.BITS : FRef := ⟨0x4C, 0, 31, 0⟩

/-! GLB registers -/

def GLB_CEL_CTL.C3_MODE : FRef := ⟨0x200, 0, 7, 6⟩
def GLB_CEL_CTL.C2_MODE : FRef := ⟨0x200, 0, 5, 4⟩
def GLB_CEL_CTL.C1_MODE : FRef := ⟨0x200, 0, 3, 2⟩
def GLB_CEL_CTL.C0_MODE : FRef := ⟨0x200, 0, 1, 0⟩
def GLB_CEL_STS.OFFHIT : FRef := ⟨0x204, 0, 19, 16⟩
def GLB_CEL_STS.REFUSED : FRef := ⟨0x204, 0, 15, 12⟩
def GLB_CEL_STS.EMPTY : FRef := ⟨0x204, 0, 11, 8⟩
def GLB_CEL_STS.C3_STATE : FRef := ⟨0x204, 0, 7, 6⟩
def GLB_CEL_STS.C2_STATE : FRef := ⟨0x204, 0, 5, 4⟩
def GLB_CEL_STS.C1_STATE : FRef := ⟨0x204, 0, 3, 2⟩
def GLB_CEL_STS.C0_STATE : FRef := ⟨0x204, 0, 1, 0⟩
def GLB_DEV_ID.PART : FRef := ⟨0x80, 0, 31, 16⟩
def GLB_DEV_ID.STEPPING : FRef := ⟨0x80, 0, 15, 8⟩
def GLB_DEV_ID.VARIANT : FRef := ⟨0x80, 0, 7, 0⟩
def GLB_SEAL.SEAL : FRef := ⟨0xC0, 0, 0, 0⟩
def GLB_PEND_SUM.PEND : FRef := ⟨0x400, 4, 31, 0⟩

/-! CLK registers -/

def CLK_STS.PLL_LOCK : FRef := ⟨0x80, 0, 31, 31⟩
def CLK_STS.LOCKED : FRef := ⟨0x80, 0, 30, 30⟩
def CLK_STS.HOLDOVER : FRef := ⟨0x80, 0, 29, 29⟩
def CLK_STS.MIRROR : FRef := ⟨0x80, 0, 28, 28⟩
def CLK_TSRC.MODE : FRef := ⟨0x84, 0, 31, 30⟩
def CLK_TSRC.INT : FRef := ⟨0x84, 0, 23, 16⟩
def CLK_TSRC.PORT : FRef := ⟨0x84, 0, 13, 8⟩
def CLK_GAIN.KP : FRef := ⟨0x88, 0, 23, 16⟩
def CLK_GAIN.KI : FRef := ⟨0x88, 0, 7, 0⟩
def CLK_TRIM.TRIM : FRef := ⟨0x8C, 0, 31, 0⟩
def CLK_THETA.THETA : FRef := ⟨0x90, 0, 63, 0⟩
def CLK_PTM_OFS.OFS : FRef := ⟨0x98, 0, 63, 0⟩
def CLK_CNT.SAMPLES : FRef := ⟨0xA0, 0, 31, 16⟩
def CLK_CNT.STEPS : FRef := ⟨0xA0, 0, 15, 0⟩

/-! RST registers -/

def RST_CMD.WARM : FRef := ⟨0x80, 0, 31, 31⟩
def RST_CMD.MGMT : FRef := ⟨0x80, 0, 30, 30⟩
def RST_PART.GO : FRef := ⟨0x84, 0, 31, 31⟩
def RST_PART.PART : FRef := ⟨0x84, 0, 4, 0⟩
def RST_STS.CAUSE : FRef := ⟨0x88, 0, 31, 28⟩
def RST_STS.AON_KEPT : FRef := ⟨0x88, 0, 27, 27⟩
def RST_STS.WARMS : FRef := ⟨0x88, 0, 15, 8⟩
def RST_STS.MGMTS : FRef := ⟨0x88, 0, 7, 0⟩
def RST_PSTS.BUSY : FRef := ⟨0x100, 4, 31, 31⟩
def RST_PSTS.LOST_POSTED : FRef := ⟨0x100, 4, 23, 0⟩

/-! PWR registers -/

def PWR_GATE.GATE : FRef := ⟨0x80, 4, 31, 0⟩
def PWR_STS.GATED : FRef := ⟨0x90, 4, 31, 0⟩
def PWR_REFUSED.REFUSED : FRef := ⟨0xA0, 4, 31, 0⟩
def PWR_SUPPLY.WARN : FRef := ⟨0xB0, 0, 31, 31⟩
def PWR_SUPPLY.WARNS : FRef := ⟨0xB0, 0, 23, 16⟩
def PWR_SUPPLY.MIN_MV : FRef := ⟨0xB0, 0, 15, 0⟩
def PWR_LEVEL.WARN_MV : FRef := ⟨0xB4, 0, 31, 16⟩
def PWR_LEVEL.RESET_MV : FRef := ⟨0xB4, 0, 15, 0⟩

/-! FWD registers -/

def FWD_CTL.FAB_EN : FRef := ⟨0x80, 0, 8, 8⟩
def FWD_CTL.FDID : FRef := ⟨0x80, 0, 3, 0⟩
def FWD_EPT_IDX.AUTOINC : FRef := ⟨0xA0, 0, 31, 31⟩
def FWD_EPT_IDX.EP : FRef := ⟨0xA0, 0, 11, 0⟩
def FWD_EPT_DATA.KIND : FRef := ⟨0xA4, 0, 31, 28⟩
def FWD_EPT_DATA.PART : FRef := ⟨0xA4, 0, 20, 16⟩
def FWD_EPT_DATA.PORT : FRef := ⟨0xA4, 0, 5, 0⟩
def FWD_FDT.PRI_EN : FRef := ⟨0x100, 4, 31, 31⟩
def FWD_FDT.ALT_EN : FRef := ⟨0x100, 4, 30, 30⟩
def FWD_FDT.ALT : FRef := ⟨0x100, 4, 13, 8⟩
def FWD_FDT.PRI : FRef := ⟨0x100, 4, 5, 0⟩
def FWD_MCG_MASK.PORTS : FRef := ⟨0x200, 16, 63, 0⟩
def FWD_MCG_CTL.EN : FRef := ⟨0x208, 16, 31, 31⟩
def FWD_MCG_CTL.PART : FRef := ⟨0x208, 16, 28, 24⟩
def FWD_MCG_CTL.FDMASK : FRef := ⟨0x208, 16, 15, 0⟩
def FWD_MISS_ADDR.ADDR : FRef := ⟨0x88, 0, 63, 0⟩
def FWD_MISS_INFO.VALID : FRef := ⟨0x90, 0, 31, 31⟩
def FWD_MISS_INFO.PART : FRef := ⟨0x90, 0, 28, 24⟩
def FWD_MISS_INFO.PORT : FRef := ⟨0x90, 0, 21, 16⟩
def FWD_MISS_INFO.CAUSE : FRef := ⟨0x90, 0, 7, 4⟩
def FWD_MISS_INFO.REQ : FRef := ⟨0x90, 0, 3, 0⟩
def FWD_UPIDEM.PARTS : FRef := ⟨0xD8, 0, 23, 0⟩
def FWD_PF_CTL.EN : FRef := ⟨0xD0, 0, 31, 31⟩
def FWD_PF_CTL.HOLD : FRef := ⟨0xD0, 0, 11, 0⟩
def FWD_PF_CNT.HITS : FRef := ⟨0xD4, 0, 31, 16⟩
def FWD_PF_CNT.DISCARDS : FRef := ⟨0xD4, 0, 15, 0⟩
def FWD_REAP_CTL.LIVE_T : FRef := ⟨0xC0, 0, 31, 16⟩
def FWD_REAP_CTL.ORPHAN_T : FRef := ⟨0xC0, 0, 15, 0⟩
def FWD_REAP_CNT0.ORPHAN : FRef := ⟨0xC4, 0, 31, 16⟩
def FWD_REAP_CNT0.LIVE : FRef := ⟨0xC4, 0, 15, 0⟩
def FWD_REAP_CNT1.ORPHAN_CPL : FRef := ⟨0xC8, 0, 31, 16⟩
def FWD_REAP_CNT1.TAG_WAIT : FRef := ⟨0xC8, 0, 15, 0⟩

/-! SPL registers -/

def SPL_CTL.EN : FRef := ⟨0x80, 0, 0, 0⟩
def SPL_QUOTA.UNITS : FRef := ⟨0x90, 4, 6, 0⟩

/-! ACC registers -/

def ACC_BASE.ADDR : FRef := ⟨0x80, 24, 63, 6⟩
def ACC_LIMIT.ADDR : FRef := ⟨0x88, 24, 63, 6⟩
def ACC_LIMIT.ONES : FRef := ⟨0x88, 24, 5, 0⟩
def ACC_RD.EN : FRef := ⟨0x90, 24, 31, 31⟩
def ACC_RD.PARTS : FRef := ⟨0x90, 24, 23, 0⟩
def ACC_WR.PARTS : FRef := ⟨0x94, 24, 23, 0⟩
def ACC_ERR_ADDR0.ADDR : FRef := ⟨0xA00, 0, 63, 0⟩
def ACC_ERR_ADDR1.ADDR : FRef := ⟨0xA08, 0, 63, 0⟩
def ACC_ERR_INFO.VALID : FRef := ⟨0xA10, 0, 31, 31⟩
def ACC_ERR_INFO.PART : FRef := ⟨0xA10, 0, 28, 24⟩
def ACC_ERR_INFO.PORT : FRef := ⟨0xA10, 0, 21, 16⟩
def ACC_ERR_INFO.SLOT : FRef := ⟨0xA10, 0, 14, 8⟩
def ACC_ERR_INFO.CLASS : FRef := ⟨0xA10, 0, 7, 6⟩
def ACC_ERR_INFO.CAUSE : FRef := ⟨0xA10, 0, 5, 4⟩
def ACC_ERR_INFO.REQ : FRef := ⟨0xA10, 0, 3, 0⟩
def ACC_DBG_STS.UNLOCKED : FRef := ⟨0xA20, 0, 31, 31⟩
def ACC_DBG_STS.SECURE_SCOPE : FRef := ⟨0xA20, 0, 30, 30⟩
def ACC_DBG_CNT.DENIED : FRef := ⟨0xA24, 0, 31, 0⟩

/-! FLT registers -/

def FLT_CTL.PIN_MODE : FRef := ⟨0x80, 0, 31, 31⟩
def FLT_CTL.PIN_THR : FRef := ⟨0x80, 0, 30, 28⟩
def FLT_CTL.ESC_HOLD : FRef := ⟨0x80, 0, 15, 0⟩
def FLT_PIN.ASSERTED : FRef := ⟨0x84, 0, 31, 31⟩
def FLT_PIN.OWNED : FRef := ⟨0x84, 0, 30, 30⟩
def FLT_PIN.REARM : FRef := ⟨0x84, 0, 29, 29⟩
def FLT_PIN.DRIVE : FRef := ⟨0x84, 0, 28, 28⟩
def FLT_PIN.PULSE_W : FRef := ⟨0x84, 0, 15, 0⟩
def FLT_STATE.DEV_FATAL : FRef := ⟨0x88, 0, 31, 31⟩
def FLT_STATE.PART_FATAL : FRef := ⟨0x88, 0, 23, 0⟩
def FLT_FIRST_T.TIME : FRef := ⟨0x90, 0, 63, 0⟩
def FLT_FIRST.VALID : FRef := ⟨0x98, 0, 31, 31⟩
def FLT_FIRST.REAL : FRef := ⟨0x98, 0, 30, 30⟩
def FLT_FIRST.FORCED : FRef := ⟨0x98, 0, 29, 29⟩
def FLT_FIRST.ESCALATED : FRef := ⟨0x98, 0, 28, 28⟩
def FLT_FIRST.CLASS : FRef := ⟨0x98, 0, 26, 24⟩
def FLT_FIRST.PART : FRef := ⟨0x98, 0, 20, 16⟩
def FLT_FIRST.SOURCE : FRef := ⟨0x98, 0, 15, 0⟩
def FLT_FL_PTR.WR : FRef := ⟨0xA0, 0, 25, 16⟩
def FLT_FL_PTR.RD : FRef := ⟨0xA0, 0, 9, 0⟩
def FLT_FL_DROP.COUNT : FRef := ⟨0xA4, 0, 31, 0⟩
def FLT_FL_IDX.ENTRY : FRef := ⟨0xA8, 0, 9, 0⟩
def FLT_FL_DATA.WORD : FRef := ⟨0xB0, 4, 31, 0⟩
def FLT_LL_PTR.WR : FRef := ⟨0xC0, 0, 27, 16⟩
def FLT_LL_PTR.RD : FRef := ⟨0xC0, 0, 11, 0⟩
def FLT_LL_DROP.COUNT : FRef := ⟨0xC4, 0, 31, 0⟩
def FLT_LL_IDX.RECORD : FRef := ⟨0xC8, 0, 11, 0⟩
def FLT_LL_SEQ.RSEQ : FRef := ⟨0xCC, 0, 31, 0⟩
def FLT_LL_DATA.WORD : FRef := ⟨0x100, 4, 31, 0⟩
def FLT_CNT.ENTRIES : FRef := ⟨0x180, 4, 31, 0⟩

/-! TRU registers -/

def TRU_BOOT_STS.DEBUG : FRef := ⟨0x80, 0, 31, 31⟩
def TRU_BOOT_STS.SECURE_SCOPE : FRef := ⟨0x80, 0, 30, 30⟩
def TRU_BOOT_STS.BOOT_FAIL : FRef := ⟨0x80, 0, 29, 29⟩
def TRU_BOOT_STS.CERT_OK : FRef := ⟨0x80, 0, 28, 28⟩
def TRU_BOOT_STS.REPLACED : FRef := ⟨0x80, 0, 27, 27⟩
def TRU_BOOT_STS.FW_COPY : FRef := ⟨0x80, 0, 26, 25⟩
def TRU_BOOT_STS.SVN : FRef := ⟨0x80, 0, 22, 16⟩
def TRU_BOOT_STS.DBG_LEFT : FRef := ⟨0x80, 0, 10, 0⟩
def TRU_BOOTNO.BOOT_NO : FRef := ⟨0x84, 0, 31, 0⟩
def TRU_BSEQ.NEXT : FRef := ⟨0x88, 0, 31, 0⟩
def TRU_BOOK_STS.UNCOVERED : FRef := ⟨0x8C, 0, 28, 16⟩
def TRU_BOOK_STS.HELD : FRef := ⟨0x8C, 0, 12, 0⟩
def TRU_CP_CTL.CP_INT : FRef := ⟨0x90, 0, 12, 0⟩
def TRU_ATT_CTL.ATT_T : FRef := ⟨0x94, 0, 15, 0⟩
def TRU_ATT_REDO.GO : FRef := ⟨0x98, 0, 31, 31⟩
def TRU_ATT_REDO.PORT : FRef := ⟨0x98, 0, 5, 0⟩
def TRU_ANCHOR_EN.EN : FRef := ⟨0x9C, 0, 7, 0⟩
def TRU_ATTMODE.MODE : FRef := ⟨0xA0, 4, 1, 0⟩
def TRU_ATTSTS.STS : FRef := ⟨0xB0, 4, 1, 0⟩
def TRU_ANCHOR.DIGEST : FRef := ⟨0x100, 4, 31, 0⟩

/-! AGE registers -/

def AGE_CTL.MODE : FRef := ⟨0x80, 0, 31, 30⟩
def AGE_CTL.PLAN_GATE : FRef := ⟨0x80, 0, 29, 29⟩
def AGE_CTL.SCAN_EN : FRef := ⟨0x80, 0, 28, 28⟩
def AGE_CTL.RET_MAX : FRef := ⟨0x80, 0, 27, 26⟩
def AGE_CTL.SCAN_INT : FRef := ⟨0x80, 0, 15, 8⟩
def AGE_CTL.PLAN_INT : FRef := ⟨0x80, 0, 7, 0⟩
def AGE_AVS.TARGET : FRef := ⟨0x84, 0, 31, 16⟩
def AGE_AVS.CEIL : FRef := ⟨0x84, 0, 15, 0⟩
def AGE_SLACK_THR.SLACK_LO : FRef := ⟨0x88, 0, 31, 16⟩
def AGE_SLACK_THR.SLACK_CRIT : FRef := ⟨0x88, 0, 15, 0⟩
def AGE_EYE_THR.EQ_LO : FRef := ⟨0x8C, 0, 23, 16⟩
def AGE_EYE_THR.DR_LO : FRef := ⟨0x8C, 0, 15, 8⟩
def AGE_EYE_THR.DR_MIN : FRef := ⟨0x8C, 0, 7, 0⟩
def AGE_CMD.APPLY : FRef := ⟨0x90, 0, 31, 31⟩
def AGE_CMD.DISCARD : FRef := ⟨0x90, 0, 30, 30⟩
def AGE_CMD.SCAN_NOW : FRef := ⟨0x90, 0, 29, 29⟩
def AGE_CMD.UNRETIRE : FRef := ⟨0x90, 0, 28, 28⟩
def AGE_CMD.LANE : FRef := ⟨0x90, 0, 27, 20⟩
def AGE_CMD.PORT : FRef := ⟨0x90, 0, 5, 0⟩
def AGE_PROP.VALID : FRef := ⟨0x94, 0, 31, 31⟩
def AGE_PROP.ACTION : FRef := ⟨0x94, 0, 30, 28⟩
def AGE_PROP.NOFIT : FRef := ⟨0x94, 0, 27, 27⟩
def AGE_PROP.PORT : FRef := ⟨0x94, 0, 21, 16⟩
def AGE_PROP.LANES : FRef := ⟨0x94, 0, 15, 0⟩
def AGE_STS.PASS_BUSY : FRef := ⟨0x98, 0, 31, 31⟩
def AGE_STS.SCAN_BUSY : FRef := ⟨0x98, 0, 30, 30⟩
def AGE_STS.SCAN_PORT : FRef := ⟨0x98, 0, 21, 16⟩
def AGE_STS.WARN24 : FRef := ⟨0x98, 0, 7, 0⟩
def AGE_MON.TEMP : FRef := ⟨0x100, 4, 31, 24⟩
def AGE_MON.SLACK : FRef := ⟨0x100, 4, 15, 0⟩
def AGE_LIDX.AUTOINC : FRef := ⟨0x140, 0, 31, 31⟩
def AGE_LIDX.LANE : FRef := ⟨0x140, 0, 7, 0⟩
def AGE_LDATA.VALID : FRef := ⟨0x144, 0, 31, 31⟩
def AGE_LDATA.REEQ : FRef := ⟨0x144, 0, 30, 30⟩
def AGE_LDATA.MR : FRef := ⟨0x144, 0, 23, 16⟩
def AGE_LDATA.EH : FRef := ⟨0x144, 0, 15, 8⟩
def AGE_LDATA.EW : FRef := ⟨0x144, 0, 7, 0⟩
def AGE_CNT.AVS : FRef := ⟨0x150, 0, 31, 24⟩
def AGE_CNT.REEQ : FRef := ⟨0x150, 0, 23, 16⟩
def AGE_CNT.RETIRE : FRef := ⟨0x150, 0, 15, 8⟩
def AGE_CNT.DERATE : FRef := ⟨0x150, 0, 7, 0⟩

/-! MIR registers -/

def MIR_CFG.BOUND : FRef := ⟨0x80, 0, 31, 31⟩
def MIR_CFG.SEAT : FRef := ⟨0x80, 0, 30, 30⟩
def MIR_CFG.AUTO_TAKE : FRef := ⟨0x80, 0, 29, 29⟩
def MIR_CFG.ALONE : FRef := ⟨0x80, 0, 28, 28⟩
def MIR_CFG.SEEK_T : FRef := ⟨0x80, 0, 15, 0⟩
def MIR_PARTNER.IDENT : FRef := ⟨0x88, 0, 63, 0⟩
def MIR_PMIRROR.PARTS : FRef := ⟨0x90, 0, 23, 0⟩
def MIR_PSYNC.PARTS : FRef := ⟨0x94, 0, 23, 0⟩
def MIR_TMR.ROLE_INT : FRef := ⟨0x98, 0, 23, 16⟩
def MIR_TMR.HB_LOSS : FRef := ⟨0x98, 0, 15, 0⟩
def MIR_EPOCH.LEN : FRef := ⟨0x9C, 0, 8, 0⟩
def MIR_RESYNC.RSHARE : FRef := ⟨0xA0, 0, 6, 0⟩
def MIR_CMD.CMD : FRef := ⟨0xA4, 0, 31, 28⟩
def MIR_CMDRES.DONE : FRef := ⟨0xA8, 0, 31, 31⟩
def MIR_CMDRES.RESULT : FRef := ⟨0xA8, 0, 7, 0⟩
def MIR_STS.ROLE : FRef := ⟨0xB0, 0, 31, 30⟩
def MIR_STS.PSTATE : FRef := ⟨0xB0, 0, 29, 28⟩
def MIR_STS.TAKE_OK : FRef := ⟨0xB0, 0, 27, 27⟩
def MIR_STS.MP0_UP : FRef := ⟨0xB0, 0, 26, 26⟩
def MIR_STS.MP1_UP : FRef := ⟨0xB0, 0, 25, 25⟩
def MIR_STS.PEER_HB : FRef := ⟨0xB0, 0, 24, 24⟩
def MIR_STS.RESYNC_PCT : FRef := ⟨0xB0, 0, 6, 0⟩
def MIR_PVIN.VINTAGE : FRef := ⟨0xB4, 0, 31, 0⟩
def MIR_LEDGER.EPOCH : FRef := ⟨0xB8, 0, 31, 0⟩
def MIR_OCC.TXQ : FRef := ⟨0xBC, 0, 26, 16⟩
def MIR_OCC.STREAMS : FRef := ⟨0xBC, 0, 13, 0⟩
def MIR_CSEQ.CSEQ : FRef := ⟨0xD8, 0, 63, 0⟩
def MIR_RACK_T.TIME : FRef := ⟨0xC0, 0, 63, 0⟩
def MIR_RACK_INFO.VALID : FRef := ⟨0xC8, 0, 31, 31⟩
def MIR_RACK_INFO.CAUSE : FRef := ⟨0xC8, 0, 25, 24⟩
def MIR_RACK_INFO.YCAUSE : FRef := ⟨0xC8, 0, 23, 16⟩
def MIR_RACK_INFO.BROKEN : FRef := ⟨0xC8, 0, 15, 0⟩
def MIR_RACK_CNT.RECORDS : FRef := ⟨0xCC, 0, 31, 16⟩
def MIR_RACK_CNT.LOSTN : FRef := ⟨0xCC, 0, 15, 0⟩
def MIR_RACK_REPLAY.WRITES : FRef := ⟨0xD0, 0, 31, 0⟩
def MIR_LRETIRE.LANES : FRef := ⟨0xE0, 0, 7, 0⟩
def MIR_FFL_STS.STATE : FRef := ⟨0x404, 256, 31, 28⟩
def MIR_FFL_STS.LDOWN : FRef := ⟨0x404, 256, 27, 27⟩
def MIR_FFL_STS.REQ_PEND : FRef := ⟨0x404, 256, 26, 26⟩
def MIR_FFL_STS.LD_CAUSE : FRef := ⟨0x404, 256, 25, 24⟩
def MIR_FFL_PEER.VALID : FRef := ⟨0x408, 256, 31, 31⟩
def MIR_FFL_PEER.FDID : FRef := ⟨0x408, 256, 19, 16⟩
def MIR_FFL_PEER.PORT : FRef := ⟨0x408, 256, 13, 8⟩
def MIR_FFL_PEER_ID.IDENT : FRef := ⟨0x410, 256, 63, 0⟩
def MIR_FFL_SEQ.NS : FRef := ⟨0x418, 256, 31, 20⟩
def MIR_FFL_SEQ.LAST_ACK : FRef := ⟨0x418, 256, 19, 8⟩
def MIR_FFL_RSEQ.ER : FRef := ⟨0x41C, 256, 31, 20⟩
def MIR_FFL_RSEQ.HELD : FRef := ⟨0x41C, 256, 19, 10⟩
def MIR_FFL_CTL.REQ : FRef := ⟨0x420, 256, 31, 31⟩
def MIR_FFL_CTL.WIDTH : FRef := ⟨0x420, 256, 4, 0⟩
def MIR_FFL_TMR.REPLAY_MAX : FRef := ⟨0x424, 256, 31, 28⟩
def MIR_FFL_TMR.REPLAY_T : FRef := ⟨0x424, 256, 15, 0⟩
def MIR_FFL_TMR2.TIME_INT : FRef := ⟨0x428, 256, 23, 16⟩
def MIR_FFL_TMR2.UPKEEP_INT : FRef := ⟨0x428, 256, 7, 0⟩
def MIR_FFL_DOWN_T.US : FRef := ⟨0x42C, 256, 15, 0⟩
def MIR_FFL_CNT0.CRC_BAD : FRef := ⟨0x430, 256, 31, 16⟩
def MIR_FFL_CNT0.NAK_TX : FRef := ⟨0x430, 256, 15, 0⟩
def MIR_FFL_CNT1.NAK_RX : FRef := ⟨0x434, 256, 31, 16⟩
def MIR_FFL_CNT1.RESEND : FRef := ⟨0x434, 256, 15, 0⟩
def MIR_FFL_CNT2.TIMER : FRef := ⟨0x438, 256, 31, 16⟩
def MIR_FFL_CNT2.DUP : FRef := ⟨0x438, 256, 15, 0⟩
def MIR_FFL_CNT3.WIN_STALL : FRef := ⟨0x43C, 256, 31, 16⟩
def MIR_FFL_CNT3.LD_OWN : FRef := ⟨0x43C, 256, 15, 8⟩
def MIR_FFL_CNT3.LD_TRANSIT : FRef := ⟨0x43C, 256, 7, 0⟩
def MIR_LERR_CTL.AUTO_RETIRE : FRef := ⟨0x480, 256, 31, 31⟩
def MIR_LERR_CTL.THR : FRef := ⟨0x480, 256, 23, 16⟩
def MIR_LERR_CTL.DECAY : FRef := ⟨0x480, 256, 15, 8⟩
def MIR_LERR_CTL.REQ_WIN : FRef := ⟨0x480, 256, 7, 0⟩
def MIR_LERR0.SCORE : FRef := ⟨0x490, 4, 31, 24⟩
def MIR_LERR0.REEQ : FRef := ⟨0x490, 4, 23, 16⟩
def MIR_LERR0.EVENTS : FRef := ⟨0x490, 4, 15, 0⟩
def MIR_LERR1.SCORE : FRef := ⟨0x590, 4, 31, 24⟩
def MIR_LERR1.REEQ : FRef := ⟨0x590, 4, 23, 16⟩
def MIR_LERR1.EVENTS : FRef := ⟨0x590, 4, 15, 0⟩

/-! VIM registers -/

def VIM_BIND_IDX.AUTOINC : FRef := ⟨0x200, 0, 31, 31⟩
def VIM_BIND_IDX.ENTRY : FRef := ⟨0x200, 0, 11, 0⟩
def VIM_BIND_D0.EN : FRef := ⟨0x204, 0, 31, 31⟩
def VIM_BIND_D0.PORT : FRef := ⟨0x204, 0, 29, 24⟩
def VIM_BIND_D0.RID : FRef := ⟨0x204, 0, 15, 0⟩
def VIM_BIND_D1.PASID : FRef := ⟨0x208, 0, 31, 12⟩
def VIM_BIND_D1.PASID_EN : FRef := ⟨0x208, 0, 11, 11⟩
def VIM_BIND_D1.VI : FRef := ⟨0x208, 0, 10, 0⟩
def VIM_PALLOC.COUNT : FRef := ⟨0x100, 4, 24, 16⟩
def VIM_PALLOC.BASE : FRef := ⟨0x100, 4, 10, 0⟩
def VIM_PXLAT.SIZE_LOG : FRef := ⟨0x180, 4, 31, 28⟩
def VIM_PXLAT.BASE : FRef := ⟨0x180, 4, 14, 0⟩
def TTU_INV_CTL.GO : FRef := ⟨0x300, 0, 31, 31⟩
def TTU_INV_CTL.RANGE : FRef := ⟨0x300, 0, 30, 30⟩
def TTU_INV_CTL.VI : FRef := ⟨0x300, 0, 10, 0⟩
def TTU_INV_ADDR.ADDR : FRef := ⟨0x308, 0, 63, 12⟩
def TTU_INV_ADDR.SIZE_LOG : FRef := ⟨0x308, 0, 5, 0⟩
def TTU_INV_STS.BUSY : FRef := ⟨0x310, 0, 31, 31⟩
def TTU_INV_STS.DONE : FRef := ⟨0x310, 0, 30, 30⟩
def TTU_INV_STS.REFUSED : FRef := ⟨0x310, 0, 29, 29⟩
def VIM_CNT.STALE : FRef := ⟨0x320, 0, 31, 16⟩
def VIM_CNT.RESETS : FRef := ⟨0x320, 0, 15, 0⟩

/-! WIN registers -/

def WIN_BASE.ADDR : FRef := ⟨0x80, 24, 63, 12⟩
def WIN_LIMIT.ADDR : FRef := ⟨0x88, 24, 63, 12⟩
def WIN_LIMIT.ONES : FRef := ⟨0x88, 24, 11, 0⟩
def WIN_ROUTE.KIND : FRef := ⟨0x90, 24, 31, 28⟩
def WIN_ROUTE.PART : FRef := ⟨0x90, 24, 24, 20⟩
def WIN_ROUTE.TARGET : FRef := ⟨0x90, 24, 19, 0⟩
def WIN_ATTR.PREFETCH : FRef := ⟨0x94, 24, 31, 31⟩
def WIN_ATTR.NPW : FRef := ⟨0x94, 24, 30, 30⟩
def WIN_ATTR.IDEM : FRef := ⟨0x94, 24, 29, 29⟩
def WIN_ATTR.ORD : FRef := ⟨0x94, 24, 28, 28⟩
def WIN_ATTR.VIEW : FRef := ⟨0x94, 24, 27, 26⟩
def WIN_ATTR.SWAP : FRef := ⟨0x94, 24, 25, 24⟩
def WIN_ATTR.PFSZ : FRef := ⟨0x94, 24, 23, 22⟩

/-! VIMI registers -/

def VIM_ICTL.RESET : FRef := ⟨0x800, 32, 31, 31⟩
def VIM_ICTL.TRANS : FRef := ⟨0x800, 32, 30, 30⟩
def VIM_ICTL.STATE : FRef := ⟨0x800, 32, 29, 28⟩
def VIM_ICTL.DRAINED : FRef := ⟨0x800, 32, 27, 27⟩
def VIM_ICTL.GEN : FRef := ⟨0x800, 32, 21, 16⟩
def VIM_ICTL.PART : FRef := ⟨0x800, 32, 4, 0⟩
def VIM_IROOT.ADDR : FRef := ⟨0x808, 32, 63, 12⟩
def VIM_ICHAN.CELLAR : FRef := ⟨0x810, 32, 31, 30⟩
def VIM_ICHAN.FIRST : FRef := ⟨0x810, 32, 23, 16⟩
def VIM_ICHAN.COUNT : FRef := ⟨0x810, 32, 4, 0⟩

/-! CEL registers -/

def CEL_LRETIRE.LANES : FRef := ⟨0x100, 0, 39, 0⟩
def CEL_LANESTS.LOCK : FRef := ⟨0x200, 4, 31, 31⟩
def CEL_LANESTS.RETIRED : FRef := ⟨0x200, 4, 30, 30⟩
def CEL_LANESTS.PARKED : FRef := ⟨0x200, 4, 29, 29⟩
def CEL_LANESTS.UNUSED : FRef := ⟨0x200, 4, 28, 28⟩
def CEL_LANESTS.PORT : FRef := ⟨0x200, 4, 13, 8⟩

/-! BUF registers -/

def BUF_POOL.ING_K : FRef := ⟨0x80, 0, 4, 0⟩
def BUF_QLIM.MAX : FRef := ⟨0x200, 4, 27, 16⟩
def BUF_QLIM.MIN : FRef := ⟨0x200, 4, 11, 0⟩
def BUF_QOCC.SPILLING : FRef := ⟨0x600, 4, 31, 31⟩
def BUF_QOCC.CELLS : FRef := ⟨0x600, 4, 16, 0⟩
def BUF_QSPILL.EN : FRef := ⟨0x400, 4, 31, 31⟩
def BUF_QSPILL.CAP : FRef := ⟨0x400, 4, 15, 0⟩

/-! SCH registers -/

def SCH_STS.ACTIVE : FRef := ⟨0x80, 0, 31, 31⟩
def SCH_VINTAGE.NUMBER : FRef := ⟨0x84, 0, 31, 0⟩
def SCH_CYCLE.LEN : FRef := ⟨0x88, 0, 20, 0⟩
def SCH_EPOCH.E : FRef := ⟨0x90, 0, 63, 0⟩
def SCH_NOW.TIME : FRef := ⟨0x98, 0, 63, 0⟩
def SCH_CYCPOS.TICK : FRef := ⟨0xA0, 0, 20, 0⟩
def SCH_BEONLY.PORTS : FRef := ⟨0xA4, 0, 15, 0⟩
def SCH_SLIP_T.TIME : FRef := ⟨0xA8, 0, 63, 0⟩
def SCH_SLIP_INFO.VALID : FRef := ⟨0xB0, 0, 31, 31⟩
def SCH_SLIP_INFO.SWAP : FRef := ⟨0xB0, 0, 20, 20⟩
def SCH_SLIP_INFO.PORT : FRef := ⟨0xB0, 0, 19, 16⟩
def SCH_SLIP_INFO.QUEUE : FRef := ⟨0xB0, 0, 6, 0⟩
def SCH_PORTCFG.FPER_PLAN : FRef := ⟨0x100, 4, 29, 24⟩
def SCH_PORTCFG.SLIP_MAX : FRef := ⟨0x100, 4, 19, 16⟩
def SCH_PORTCFG.RP_WAIT : FRef := ⟨0x100, 4, 9, 0⟩
def SCH_PORTSTS.STOLEN : FRef := ⟨0x140, 4, 31, 20⟩
def SCH_PORTSTS.PEAK : FRef := ⟨0x140, 4, 19, 16⟩
def SCH_PORTSTS.SLIP : FRef := ⟨0x140, 4, 15, 12⟩
def SCH_PORTSTS.FPER : FRef := ⟨0x140, 4, 5, 0⟩
def SCH_CONF.LATE : FRef := ⟨0x200, 4, 31, 24⟩
def SCH_CONF.EXCESS : FRef := ⟨0x200, 4, 23, 16⟩
def SCH_CONF.DISPLACED : FRef := ⟨0x200, 4, 15, 8⟩
def SCH_CONF.BLOCKED : FRef := ⟨0x200, 4, 7, 0⟩
def SCH_IMG_SRC.ADDR : FRef := ⟨0x800, 0, 63, 0⟩
def SCH_IMG_SRCCTL.PART : FRef := ⟨0x808, 0, 28, 24⟩
def SCH_IMG_SRCCTL.KIND : FRef := ⟨0x808, 0, 1, 0⟩
def SCH_IMG_LEN.BYTES : FRef := ⟨0x80C, 0, 25, 0⟩
def SCH_IMG_CMD.CMD : FRef := ⟨0x810, 0, 31, 28⟩
def SCH_IMG_CMD.SLOT : FRef := ⟨0x810, 0, 2, 0⟩
def SCH_IMG_RES.BUSY : FRef := ⟨0x814, 0, 31, 31⟩
def SCH_IMG_RES.DONE : FRef := ⟨0x814, 0, 30, 30⟩
def SCH_IMG_RES.SLOT : FRef := ⟨0x814, 0, 26, 24⟩
def SCH_IMG_RES.CMD : FRef := ⟨0x814, 0, 19, 16⟩
def SCH_IMG_RES.RESULT : FRef := ⟨0x814, 0, 7, 0⟩
def SCH_ARM_T.TIME : FRef := ⟨0x818, 0, 63, 0⟩
def SCH_ARM_CTL.PAIR : FRef := ⟨0x820, 0, 0, 0⟩
def SCH_SLOTSTS.STATE : FRef := ⟨0x824, 0, 2, 0⟩
def SCH_HOME.VALID : FRef := ⟨0x828, 0, 31, 31⟩
def SCH_HOME.SLOT : FRef := ⟨0x828, 0, 2, 0⟩
def SCH_POLICY.SIG_REQ : FRef := ⟨0x830, 0, 0, 0⟩
def SCH_FBCTL.FB_EN : FRef := ⟨0x834, 0, 31, 31⟩
def SCH_FBCTL.LEAD : FRef := ⟨0x834, 0, 9, 0⟩
def SCH_EVT.VALID : FRef := ⟨0x838, 0, 31, 31⟩
def SCH_EVT.CLASS : FRef := ⟨0x838, 0, 27, 24⟩
def SCH_EVT.PORT : FRef := ⟨0x838, 0, 21, 16⟩
def SCH_EVT.OUTCOME : FRef := ⟨0x838, 0, 9, 8⟩
def SCH_EVT.SLOT : FRef := ⟨0x838, 0, 2, 0⟩
def SCH_SLOTVIN.VINTAGE : FRef := ⟨0x840, 4, 31, 0⟩
def SCH_FB_T.TIME : FRef := ⟨0x860, 0, 63, 0⟩
def SCH_STRM_A.SCHED : FRef := ⟨0x400, 8, 31, 31⟩
def SCH_STRM_A.ING_PORT : FRef := ⟨0x400, 8, 30, 25⟩
def SCH_STRM_A.OFFSET : FRef := ⟨0x400, 8, 20, 0⟩
def SCH_STRM_B.CELLS : FRef := ⟨0x404, 8, 28, 8⟩
def SCH_STRM_B.PMAX : FRef := ⟨0x404, 8, 4, 0⟩

/-! QSH registers -/

def QSH_SAMP.EN : FRef := ⟨0x80, 0, 31, 31⟩
def QSH_SAMP.EXP : FRef := ⟨0x80, 0, 4, 0⟩
def QSH_SNAP_T.TIME : FRef := ⟨0x88, 0, 63, 0⟩
def QSH_SNAP_SEQ.SEQ : FRef := ⟨0x90, 0, 31, 0⟩
def QSH_STALL_CTL.LIMIT : FRef := ⟨0x94, 0, 15, 0⟩
def QSH_STALL_INFO.VALID : FRef := ⟨0x98, 0, 31, 31⟩
def QSH_STALL_INFO.QUEUE : FRef := ⟨0x98, 0, 5, 0⟩
def QSH_QCFG.PRIO : FRef := ⟨0x100, 4, 26, 24⟩
def QSH_QCFG.WEIGHT : FRef := ⟨0x100, 4, 23, 16⟩
def QSH_SRATE.SHAPE_EN : FRef := ⟨0x200, 8, 31, 31⟩
def QSH_SRATE.RATE : FRef := ⟨0x200, 8, 16, 0⟩
def QSH_SBURST.BURST : FRef := ⟨0x204, 8, 11, 0⟩
def QSH_TOK.TOKENS : FRef := ⟨0x400, 4, 31, 0⟩
def QSH_DEPTH.CELLS : FRef := ⟨0x500, 4, 23, 0⟩
def QSH_DPEAK.PEAK : FRef := ⟨0x600, 4, 23, 0⟩
def QSH_DLYPEAK.NS : FRef := ⟨0x700, 4, 31, 0⟩
def QSH_SNAPD.CELLS : FRef := ⟨0x800, 4, 23, 0⟩
def QSH_SNAPA.AGE : FRef := ⟨0x900, 4, 31, 0⟩
def QSH_PRATE.EN : FRef := ⟨0xA00, 8, 31, 31⟩
def QSH_PRATE.RATE : FRef := ⟨0xA00, 8, 16, 0⟩
def QSH_PBURST.BURST : FRef := ⟨0xA04, 8, 11, 0⟩
def QSH_PTOK.TOKENS : FRef := ⟨0xA80, 4, 31, 0⟩
def QSH_PSTS.P_HOLD : FRef := ⟨0xAC0, 4, 31, 31⟩
def QSH_PSTS.NP_HOLD : FRef := ⟨0xAC0, 4, 30, 30⟩
def QSH_PSTS.HOLDS : FRef := ⟨0xAC0, 4, 15, 0⟩

/-! LNK registers -/

def LNK_CFG.EN : FRef := ⟨0x80, 0, 31, 31⟩
def LNK_CFG.ROLE : FRef := ⟨0x80, 0, 30, 29⟩
def LNK_CFG.CXL_EN : FRef := ⟨0x80, 0, 28, 28⟩
def LNK_CFG.PART : FRef := ⟨0x80, 0, 24, 20⟩
def LNK_CFG.LANE0 : FRef := ⟨0x80, 0, 13, 8⟩
def LNK_CFG.WIDTH : FRef := ⟨0x80, 0, 6, 4⟩
def LNK_CFG.MAXRATE : FRef := ⟨0x80, 0, 2, 0⟩
def LNK_SLOT.HP_EN : FRef := ⟨0x84, 0, 31, 31⟩
def LNK_SLOT.SLOT : FRef := ⟨0x84, 0, 5, 0⟩
def LNK_STS.UP : FRef := ⟨0x90, 0, 31, 31⟩
def LNK_STS.FLIT : FRef := ⟨0x90, 0, 30, 30⟩
def LNK_STS.DERATED : FRef := ⟨0x90, 0, 29, 29⟩
def LNK_STS.CXL : FRef := ⟨0x90, 0, 28, 28⟩
def LNK_STS.STATE : FRef := ⟨0x90, 0, 27, 24⟩
def LNK_STS.LDOWN : FRef := ⟨0x90, 0, 23, 23⟩
def LNK_STS.RATE : FRef := ⟨0x90, 0, 18, 16⟩
def LNK_STS.WIDTH : FRef := ⟨0x90, 0, 12, 8⟩
def LNK_STS.REVERSED : FRef := ⟨0x90, 0, 7, 7⟩
def LNK_CTL.RETRAIN : FRef := ⟨0x88, 0, 31, 31⟩
def LNK_CTL.RESTORE : FRef := ⟨0x88, 0, 30, 30⟩
def LNK_CTL.DISABLE : FRef := ⟨0x88, 0, 29, 29⟩
def LNK_LERR_CTL.AUTO_RETIRE : FRef := ⟨0xA0, 0, 31, 31⟩
def LNK_LERR_CTL.THR : FRef := ⟨0xA0, 0, 23, 16⟩
def LNK_LERR_CTL.DECAY : FRef := ⟨0xA0, 0, 15, 8⟩
def LNK_LERR_CTL.REQ_WIN : FRef := ⟨0xA0, 0, 7, 0⟩
def LNK_LERR.SCORE : FRef := ⟨0x100, 4, 31, 24⟩
def LNK_LERR.REEQ : FRef := ⟨0x100, 4, 23, 16⟩
def LNK_LERR.EVENTS : FRef := ⟨0x100, 4, 15, 0⟩
def LNK_DERATE.AUTO : FRef := ⟨0x98, 0, 31, 31⟩
def LNK_DERATE.THR : FRef := ⟨0x98, 0, 23, 16⟩
def LNK_DERATE.WINS : FRef := ⟨0x98, 0, 15, 8⟩
def LNK_DERATE.CAP : FRef := ⟨0x98, 0, 2, 0⟩
def LNK_DOWN_T.US : FRef := ⟨0x94, 0, 15, 0⟩
def LNK_LDSTS.DOWNS : FRef := ⟨0xB0, 0, 31, 16⟩
def LNK_LDCNT0.NP_CA : FRef := ⟨0xB4, 0, 31, 16⟩
def LNK_LDCNT0.POSTED : FRef := ⟨0xB4, 0, 15, 0⟩
def LNK_LDCNT1.CPL : FRef := ⟨0xB8, 0, 31, 16⟩
def LNK_LDCNT1.ING : FRef := ⟨0xB8, 0, 15, 0⟩
def LNK_IDE.LINK_SEC : FRef := ⟨0xC0, 0, 31, 31⟩
def LNK_IDE.SEL_SEC : FRef := ⟨0xC0, 0, 15, 8⟩
def LNK_IDE.SEL_INSEC : FRef := ⟨0xC0, 0, 7, 0⟩

/-! FFL registers -/

def FFL_CFG.PHY_DSP : FRef := ⟨0x80, 0, 31, 31⟩
def FFL_CFG.TIME_FOLLOW : FRef := ⟨0x80, 0, 30, 30⟩
def FFL_STS.STATE : FRef := ⟨0x84, 0, 31, 28⟩
def FFL_STS.LDOWN : FRef := ⟨0x84, 0, 27, 27⟩
def FFL_STS.REQ_PEND : FRef := ⟨0x84, 0, 26, 26⟩
def FFL_STS.LD_CAUSE : FRef := ⟨0x84, 0, 25, 24⟩
def FFL_PEER.VALID : FRef := ⟨0x88, 0, 31, 31⟩
def FFL_PEER.FDID : FRef := ⟨0x88, 0, 19, 16⟩
def FFL_PEER.PORT : FRef := ⟨0x88, 0, 13, 8⟩
def FFL_PEER_ID.IDENT : FRef := ⟨0x90, 0, 63, 0⟩
def FFL_SEQ.NS : FRef := ⟨0x98, 0, 31, 20⟩
def FFL_SEQ.LAST_ACK : FRef := ⟨0x98, 0, 19, 8⟩
def FFL_RSEQ.ER : FRef := ⟨0x9C, 0, 31, 20⟩
def FFL_RSEQ.HELD : FRef := ⟨0x9C, 0, 19, 10⟩
def FFL_CTL.REQ : FRef := ⟨0xA0, 0, 31, 31⟩
def FFL_CTL.WIDTH : FRef := ⟨0xA0, 0, 4, 0⟩
def FFL_TMR.REPLAY_MAX : FRef := ⟨0xA4, 0, 31, 28⟩
def FFL_TMR.REPLAY_T : FRef := ⟨0xA4, 0, 15, 0⟩
def FFL_TMR2.TIME_INT : FRef := ⟨0xA8, 0, 23, 16⟩
def FFL_TMR2.UPKEEP_INT : FRef := ⟨0xA8, 0, 7, 0⟩
def FFL_DOWN_T.US : FRef := ⟨0xAC, 0, 15, 0⟩
def FFL_CNT0.CRC_BAD : FRef := ⟨0xB0, 0, 31, 16⟩
def FFL_CNT0.NAK_TX : FRef := ⟨0xB0, 0, 15, 0⟩
def FFL_CNT1.NAK_RX : FRef := ⟨0xB4, 0, 31, 16⟩
def FFL_CNT1.RESEND : FRef := ⟨0xB4, 0, 15, 0⟩
def FFL_CNT2.TIMER : FRef := ⟨0xB8, 0, 31, 16⟩
def FFL_CNT2.DUP : FRef := ⟨0xB8, 0, 15, 0⟩
def FFL_CNT3.WIN_STALL : FRef := ⟨0xBC, 0, 31, 16⟩
def FFL_CNT3.LD_OWN : FRef := ⟨0xBC, 0, 15, 8⟩
def FFL_CNT3.LD_TRANSIT : FRef := ⟨0xBC, 0, 7, 0⟩

/-! FTX registers -/

def FTX_CTL.E2E_MAX : FRef := ⟨0x80, 0, 27, 24⟩
def FTX_CTL.ACK_DELAY : FRef := ⟨0x80, 0, 23, 16⟩
def FTX_CTL.E2E_TIMEOUT : FRef := ⟨0x80, 0, 15, 0⟩
def FTX_STS.FULL : FRef := ⟨0x84, 0, 31, 31⟩
def FTX_STS.USED : FRef := ⟨0x84, 0, 19, 0⟩
def FTX_FRT.INUSE : FRef := ⟨0x88, 0, 12, 0⟩
def FTX_SIDX.DIR : FRef := ⟨0x90, 0, 6, 6⟩
def FTX_SIDX.FDID : FRef := ⟨0x90, 0, 5, 2⟩
def FTX_SIDX.FCLASS : FRef := ⟨0x90, 0, 1, 0⟩
def FTX_SDATA0.NEXT : FRef := ⟨0x94, 0, 31, 0⟩
def FTX_SDATA1.OLDEST : FRef := ⟨0x98, 0, 31, 0⟩
def FTX_SDATA2.SYNC : FRef := ⟨0x9C, 0, 31, 31⟩
def FTX_SDATA2.TMO : FRef := ⟨0x9C, 0, 27, 24⟩
def FTX_SDATA2.PEND : FRef := ⟨0x9C, 0, 23, 0⟩
def FTX_BRK.VALID : FRef := ⟨0xA0, 0, 31, 31⟩
def FTX_BRK.CAUSE : FRef := ⟨0xA0, 0, 29, 28⟩
def FTX_BRK.LOST : FRef := ⟨0xA0, 0, 15, 0⟩
def FTX_BRKID.FDID : FRef := ⟨0xA4, 0, 5, 2⟩
def FTX_BRKID.FCLASS : FRef := ⟨0xA4, 0, 1, 0⟩
def FTX_CNT0.TMO : FRef := ⟨0xB0, 0, 31, 16⟩
def FTX_CNT0.BROKEN : FRef := ⟨0xB0, 0, 15, 0⟩
def FTX_CNT1.DUP : FRef := ⟨0xB4, 0, 31, 16⟩
def FTX_CNT1.AHEAD : FRef := ⟨0xB4, 0, 15, 0⟩
def FTX_CNT2.HELD : FRef := ⟨0xB8, 0, 31, 16⟩
def FTX_CNT2.RESYNC : FRef := ⟨0xB8, 0, 15, 0⟩

/-! DMA registers -/

def DMA_ENG_STS.RD_BUSY : FRef := ⟨0x80, 0, 31, 31⟩
def DMA_ENG_STS.WR_BUSY : FRef := ⟨0x80, 0, 30, 30⟩
def DMA_ENG_STS.STAGED : FRef := ⟨0x80, 0, 10, 0⟩
def DMA_CNT0.PLACED : FRef := ⟨0x84, 0, 31, 16⟩
def DMA_CNT0.UNUSED : FRef := ⟨0x84, 0, 15, 0⟩
def DMA_CNT1.LATE : FRef := ⟨0x88, 0, 31, 16⟩
def DMA_CNT1.XFERS : FRef := ⟨0x88, 0, 15, 0⟩
def DMA_ERR_ADDR.ADDR : FRef := ⟨0x90, 0, 63, 0⟩
def DMA_ERR_INFO.VALID : FRef := ⟨0x98, 0, 31, 31⟩
def DMA_ERR_INFO.CHANNEL : FRef := ⟨0x98, 0, 23, 16⟩
def DMA_ERR_INFO.STATUS : FRef := ⟨0x98, 0, 11, 8⟩
def DMA_ERR_INFO.ENGINE : FRef := ⟨0x98, 0, 0, 0⟩
def DMA_CHCFG.SCHED : FRef := ⟨0x400, 4, 31, 31⟩
def DMA_CHCFG.PRIO : FRef := ⟨0x400, 4, 30, 30⟩
def DMA_CHCFG.PART : FRef := ⟨0x400, 4, 20, 16⟩
def DMA_CHCFG.MAXLEN : FRef := ⟨0x400, 4, 14, 10⟩
def DMA_CHCFG.STAGE : FRef := ⟨0x400, 4, 8, 0⟩
def DMA_RATE.EN : FRef := ⟨0x800, 8, 31, 31⟩
def DMA_RATE.RATE : FRef := ⟨0x800, 8, 16, 0⟩
def DMA_RBURST.BURST : FRef := ⟨0x804, 8, 6, 0⟩

/-! DMAC registers -/

def DMA_SRC.ADDR : FRef := ⟨0x100, 96, 63, 0⟩
def DMA_DST.ADDR : FRef := ⟨0x108, 96, 63, 0⟩
def DMA_COUNT.BYTES : FRef := ⟨0x110, 96, 31, 0⟩
def DMA_XCTL.SRC_SG : FRef := ⟨0x114, 96, 31, 31⟩
def DMA_XCTL.DST_SG : FRef := ⟨0x114, 96, 30, 30⟩
def DMA_XCTL.PACED : FRef := ⟨0x114, 96, 29, 29⟩
def DMA_XCTL.INT_EN : FRef := ⟨0x114, 96, 28, 28⟩
def DMA_CMD.STOP : FRef := ⟨0x118, 96, 1, 1⟩
def DMA_CMD.GO : FRef := ⟨0x118, 96, 0, 0⟩
def DMA_PACE.REQ : FRef := ⟨0x11C, 96, 0, 0⟩
def DMA_STS.STATE : FRef := ⟨0x120, 96, 31, 30⟩
def DMA_STS.PENDING : FRef := ⟨0x120, 96, 29, 29⟩
def DMA_STS.DONE : FRef := ⟨0x120, 96, 28, 28⟩
def DMA_STS.STATUS : FRef := ⟨0x120, 96, 19, 16⟩
def DMA_DONEB.BYTES : FRef := ⟨0x124, 96, 31, 0⟩
def DMA_LOSTC.COUNT : FRef := ⟨0x128, 96, 23, 0⟩
def DMA_PROG.BYTES : FRef := ⟨0x12C, 96, 31, 0⟩

/-! TTU registers -/

def TTU_OCC.VALID : FRef := ⟨0x80, 0, 16, 0⟩
def TTU_CNT0.HITS : FRef := ⟨0x84, 0, 31, 16⟩
def TTU_CNT0.MISSES : FRef := ⟨0x84, 0, 15, 0⟩
def TTU_CNT1.RESTARTS : FRef := ⟨0x88, 0, 31, 16⟩
def TTU_CNT1.FAULTS : FRef := ⟨0x88, 0, 15, 0⟩
def TTU_ERR_ADDR.ADDR : FRef := ⟨0x90, 0, 63, 0⟩
def TTU_ERR_INFO.VALID : FRef := ⟨0x98, 0, 31, 31⟩
def TTU_ERR_INFO.VI : FRef := ⟨0x98, 0, 26, 16⟩
def TTU_ERR_INFO.PORT : FRef := ⟨0x98, 0, 13, 8⟩
def TTU_ERR_INFO.CAUSE : FRef := ⟨0x98, 0, 3, 0⟩

/-! PMUC registers -/

def PMU_OVF.OVF : FRef := ⟨0x80, 0, 31, 0⟩
def PMU_CTR.COUNT : FRef := ⟨0x100, 4, 31, 0⟩
def PMU_EVT.CHAIN : FRef := ⟨0x180, 4, 31, 31⟩
def PMU_EVT.PORT : FRef := ⟨0x180, 4, 20, 16⟩
def PMU_EVT.TCMASK : FRef := ⟨0x180, 4, 15, 8⟩
def PMU_EVT.EVENT : FRef := ⟨0x180, 4, 7, 0⟩
def PMU_SCTR.COUNT : FRef := ⟨0x200, 4, 31, 0⟩
def PMU_GSNAP.GO : FRef := ⟨0x800, 0, 31, 31⟩
def PMU_SNAP_T.TIME : FRef := ⟨0x808, 0, 63, 0⟩
def PMU_SNAP_SEQ.SEQ : FRef := ⟨0x810, 0, 31, 0⟩

/-! PMUT registers -/

def PMU_RING_CTL.EN : FRef := ⟨0x80, 0, 31, 31⟩
def PMU_RING_CTL.MODE : FRef := ⟨0x80, 0, 30, 30⟩
def PMU_RING_WR.WR : FRef := ⟨0x84, 0, 23, 0⟩
def PMU_RING_RD.RD : FRef := ⟨0x88, 0, 23, 0⟩
def PMU_RING_LOST.LOST : FRef := ⟨0x8C, 0, 31, 0⟩
def PMU_SMPCFG.EN : FRef := ⟨0x100, 16, 31, 31⟩
def PMU_SMPCFG.ING : FRef := ⟨0x100, 16, 29, 24⟩
def PMU_SMPCFG.EGR : FRef := ⟨0x100, 16, 22, 16⟩
def PMU_SMPCFG.TCMASK : FRef := ⟨0x100, 16, 15, 8⟩
def PMU_SMPCFG.KMASK : FRef := ⟨0x100, 16, 4, 0⟩
def PMU_SMPINT.INTERVAL : FRef := ⟨0x104, 16, 23, 0⟩
def PMU_SMPSEQ.MSEQ : FRef := ⟨0x108, 16, 31, 0⟩
def PMU_SMPSKIP.SKIP : FRef := ⟨0x10C, 16, 31, 16⟩
def PMU_SMPSKIP.OVERLAP : FRef := ⟨0x10C, 16, 15, 0⟩

/-! PMUA registers -/

def PMU_SA_CLR.CLR : FRef := ⟨0x80, 0, 7, 0⟩
def PMU_SA_DELIV.COUNT : FRef := ⟨0x100, 64, 63, 0⟩
def PMU_SA_REPAIR.COUNT : FRef := ⟨0x108, 64, 63, 0⟩
def PMU_SA_WASTED.COUNT : FRef := ⟨0x110, 64, 63, 0⟩
def PMU_SA_FSTARVE.COUNT : FRef := ⟨0x118, 64, 63, 0⟩
def PMU_SA_BBLOCK.COUNT : FRef := ⟨0x120, 64, 63, 0⟩
def PMU_SA_OWNED.COUNT : FRef := ⟨0x128, 64, 63, 0⟩
def PMU_SA_OWNDLV.COUNT : FRef := ⟨0x130, 64, 63, 0⟩
def PMU_SA_OFFLINE.TICKS : FRef := ⟨0x138, 64, 63, 0⟩
def PMU_SA_SHADOW.COUNT : FRef := ⟨0x400, 8, 63, 0⟩

/-! HBMM registers -/

def HBM_SW_OCC.RES : FRef := ⟨0x200, 0, 29, 16⟩
def HBM_SW_OCC.SWB : FRef := ⟨0x200, 0, 12, 0⟩
def HBM_SW_CNT0.FWD : FRef := ⟨0x204, 0, 31, 16⟩
def HBM_SW_CNT0.SWAIT : FRef := ⟨0x204, 0, 15, 0⟩
def HBM_SW_CNT1.CS_OK : FRef := ⟨0x208, 0, 31, 16⟩
def HBM_SW_CNT1.CS_LOST : FRef := ⟨0x208, 0, 15, 0⟩
def HBM_SW_CNT2.RES_SET : FRef := ⟨0x20C, 0, 31, 16⟩
def HBM_SW_CNT2.RES_EVICT : FRef := ⟨0x20C, 0, 15, 0⟩
def HBM_SW_ERR_ADDR.ADDR : FRef := ⟨0x210, 0, 63, 0⟩
def HBM_SW_ERR_INFO.VALID : FRef := ⟨0x218, 0, 31, 31⟩
def HBM_SW_ERR_INFO.PART : FRef := ⟨0x218, 0, 28, 24⟩
def HBM_SW_ERR_INFO.PORT : FRef := ⟨0x218, 0, 21, 16⟩
def HBM_SW_ERR_INFO.CAUSE : FRef := ⟨0x218, 0, 3, 0⟩

/-! SPC registers -/

def SPC_CTL.PC_PCT : FRef := ⟨0x80, 0, 31, 24⟩
def SPC_CTL.BBM : FRef := ⟨0x80, 0, 23, 16⟩
def SPC_CTL.RETURN_T : FRef := ⟨0x80, 0, 15, 0⟩
def SPC_BUDGET.USED : FRef := ⟨0x84, 4, 31, 16⟩
def SPC_BUDGET.BUDGET : FRef := ⟨0x84, 4, 15, 0⟩
def SPC_FEEDSTS.A_GOOD : FRef := ⟨0x90, 0, 31, 31⟩
def SPC_FEEDSTS.B_GOOD : FRef := ⟨0x90, 0, 30, 30⟩
def SPC_FEEDSTS.VA : FRef := ⟨0x90, 0, 27, 16⟩
def SPC_FEEDSTS.VB : FRef := ⟨0x90, 0, 11, 0⟩
def SPC_FEEDLIM.UV : FRef := ⟨0x94, 0, 27, 16⟩
def SPC_FEEDLIM.OV : FRef := ⟨0x94, 0, 11, 0⟩
def SPC_STS.LINK_UP : FRef := ⟨0x98, 0, 31, 31⟩
def SPC_STS.SUPPLY_HOLD : FRef := ⟨0x98, 0, 30, 30⟩
def SPC_STS.FATAL_HOLD : FRef := ⟨0x98, 0, 29, 29⟩

/-! SPCS registers -/

def SPC_SCFG.EN : FRef := ⟨0x80, 0, 31, 31⟩
def SPC_SCFG.AUTO_ON : FRef := ⟨0x80, 0, 30, 30⟩
def SPC_SCFG.ALT_EN : FRef := ⟨0x80, 0, 29, 29⟩
def SPC_SCFG.PRI_FEED : FRef := ⟨0x80, 0, 28, 28⟩
def SPC_SCFG.RETURN : FRef := ⟨0x80, 0, 27, 27⟩
def SPC_SCFG.FRU_REQ : FRef := ⟨0x80, 0, 26, 26⟩
def SPC_SCFG.PRIO : FRef := ⟨0x80, 0, 25, 24⟩
def SPC_SCFG.INRUSH : FRef := ⟨0x80, 0, 23, 16⟩
def SPC_SCFG.I_RATED : FRef := ⟨0x80, 0, 11, 0⟩
def SPC_BRK.TRIP : FRef := ⟨0x84, 0, 31, 16⟩
def SPC_BRK.RE_ARM : FRef := ⟨0x84, 0, 15, 0⟩
def SPC_LIM.IFAST : FRef := ⟨0x88, 0, 27, 16⟩
def SPC_LIM.COOL : FRef := ⟨0x88, 0, 11, 0⟩
def SPC_TMR.RETRY_MAX : FRef := ⟨0x8C, 0, 31, 28⟩
def SPC_TMR.RETRY_T : FRef := ⟨0x8C, 0, 27, 16⟩
def SPC_TMR.PRECHG_T_MAX : FRef := ⟨0x8C, 0, 15, 8⟩
def SPC_TMR.GATE_T_MAX : FRef := ⟨0x8C, 0, 7, 0⟩
def SPC_SSTS.STATE : FRef := ⟨0x90, 0, 31, 28⟩
def SPC_SSTS.PRESENT : FRef := ⟨0x90, 0, 27, 27⟩
def SPC_SSTS.FEED : FRef := ⟨0x90, 0, 26, 26⟩
def SPC_SSTS.LATCH : FRef := ⟨0x90, 0, 25, 25⟩
def SPC_SSTS.FRU_OK : FRef := ⟨0x90, 0, 24, 24⟩
def SPC_SSTS.RETRY : FRef := ⟨0x90, 0, 23, 20⟩
def SPC_SSTS.WAIT : FRef := ⟨0x90, 0, 13, 8⟩
def SPC_SSTS.LAST_TRIP : FRef := ⟨0x90, 0, 3, 0⟩
def SPC_HEAT.H : FRef := ⟨0x94, 0, 31, 0⟩
def SPC_MEAS.I : FRef := ⟨0x98, 0, 27, 16⟩
def SPC_MEAS.VOUT : FRef := ⟨0x98, 0, 11, 0⟩
def SPC_CMD.CLR_LATCH : FRef := ⟨0x9C, 0, 31, 31⟩
def SPC_CMD.SERVICE : FRef := ⟨0x9C, 0, 30, 30⟩
def SPC_CMD.CONN_RESET : FRef := ⟨0x9C, 0, 29, 29⟩
def SPC_TRIPS.TRIPS : FRef := ⟨0xA0, 0, 31, 16⟩
def SPC_TRIPS.SWITCHES : FRef := ⟨0xA0, 0, 15, 0⟩
def SPC_MATE.RATED : FRef := ⟨0xB0, 0, 31, 16⟩
def SPC_MATE.COUNT : FRef := ⟨0xB0, 0, 15, 0⟩
def SPC_MODINS.COUNT : FRef := ⟨0xB4, 0, 31, 0⟩
def SPC_MODHRS.HOURS : FRef := ⟨0xB8, 0, 31, 0⟩
def SPC_LIFE_STS.FLAGS : FRef := ⟨0xBC, 0, 5, 0⟩

/-! IC registers -/

def FENCE.LOST : FRef := ⟨0x100, 0, 31, 31⟩
def FENCE.COUNT : FRef := ⟨0x100, 0, 23, 0⟩
def FENCE_LAST.LOST : FRef := ⟨0x104, 0, 31, 31⟩
def FENCE_LAST.DMWR : FRef := ⟨0x104, 0, 30, 30⟩
def FENCE_LAST.COUNT : FRef := ⟨0x104, 0, 23, 0⟩
def IC_ID.GEN : FRef := ⟨0x80, 0, 27, 22⟩
def IC_ID.STATE : FRef := ⟨0x80, 0, 21, 16⟩
def IC_ID.VI : FRef := ⟨0x80, 0, 10, 0⟩

/-! ## Registers by page type -/

/-- Registers of the common header (R65). -/
def regsHDR : List RegDef :=
  [⟨0x0, 0, 1, false, 0x0, [fd 31 16 .ro, fd 10 0 .ro]⟩,
   ⟨0x4, 0, 1, false, 0x100, [fd 15 8 .ro, fd 7 0 .ro]⟩,
   ⟨0x8, 0, 1, false, 0x0, [fd 31 16 .ro, fd 15 8 .ro, fd 7 0 .ro]⟩,
   ⟨0xC, 0, 1, false, 0x1F000000, [fd 28 24 .rw, fd 11 11 .rw, fd 10 0 .rw]⟩,
   ⟨0x10, 0, 1, false, 0x0, [fd 31 31 .ro, fd 1 1 .ro, fd 0 0 .ro]⟩,
   ⟨0x14, 0, 1, false, 0x0, [fd 2 2 .ro, fd 1 1 .ro, fd 0 0 .w1s]⟩,
   ⟨0x50, 4, 4, false, 0x0, packed 8 4 3 .rws (.range 0 4)⟩,
   ⟨0x20, 0, 1, false, 0x0, [fd 31 0 .w1c]⟩,
   ⟨0x24, 0, 1, false, 0xFFFFFFFF, [fd 31 0 .rw]⟩,
   ⟨0x28, 0, 1, false, 0x0, [fd 31 0 .wo]⟩,
   ⟨0x40, 0, 1, false, 0x0, [fd 31 0 .ro]⟩,
   ⟨0x44, 0, 1, false, 0x0, [fd 31 0 .rws]⟩,
   ⟨0x48, 0, 1, false, 0x0, [fd 31 0 .wo]⟩,
   ⟨0x4C, 0, 1, false, 0x0, [fd 31 0 .wo]⟩]

/-- Registers of the GLB page type. -/
def regsGLB : List RegDef :=
  [⟨0x200, 0, 1, false, 0x0, [⟨7, 6, .rw, .special⟩, ⟨5, 4, .rw, .special⟩, ⟨3, 2, .rw, .special⟩, ⟨1, 0, .rw, .special⟩]⟩,
   ⟨0x204, 0, 1, false, 0xF00, [fd 19 16 .w1c, fd 15 12 .w1c, fd 11 8 .ro, fd 7 6 .ro, fd 5 4 .ro, fd 3 2 .ro, fd 1 0 .ro]⟩,
   ⟨0x80, 0, 1, false, 0x91602102, [fd 31 16 .ro, fd 15 8 .ro, fd 7 0 .ro]⟩,
   ⟨0xC0, 0, 1, false, 0x0, [fd 0 0 .w1s]⟩,
   ⟨0x400, 4, 64, false, 0x0, [fd 31 0 .ro]⟩]

/-- Registers of the CLK page type. -/
def regsCLK : List RegDef :=
  [⟨0x80, 0, 1, false, 0x0, [fd 31 31 .ro, fd 30 30 .ro, fd 29 29 .ro, fd 28 28 .ro]⟩,
   ⟨0x84, 0, 1, false, 0xA0000, [fr 31 30 .rws 0 2, fr 23 16 .rws 1 255, fd 13 8 .rws]⟩,
   ⟨0x88, 0, 1, false, 0x100001, [fd 23 16 .rws, fd 7 0 .rws]⟩,
   ⟨0x8C, 0, 1, false, 0x0, [fd 31 0 .ro]⟩,
   ⟨0x90, 0, 1, true, 0x0, [fd 63 0 .ro]⟩,
   ⟨0x98, 0, 1, true, 0x0, [fd 63 0 .rws]⟩,
   ⟨0xA0, 0, 1, false, 0x0, [fd 31 16 .rc, fd 15 0 .rc]⟩]

/-- Registers of the RST page type. -/
def regsRST : List RegDef :=
  [⟨0x80, 0, 1, false, 0x0, [fd 31 31 .wo, fd 30 30 .wo]⟩,
   ⟨0x84, 0, 1, false, 0x0, [fd 31 31 .wo, fd 4 0 .wo]⟩,
   ⟨0x88, 0, 1, false, 0x0, [fd 31 28 .ro, fd 27 27 .ro, fd 15 8 .ro, fd 7 0 .ro]⟩,
   ⟨0x100, 4, 24, false, 0x0, [fd 31 31 .ro, fd 23 0 .ro]⟩]

/-- Registers of the PWR page type. -/
def regsPWR : List RegDef :=
  [⟨0x80, 4, 3, false, 0x0, [fd 31 0 .rw]⟩,
   ⟨0x90, 4, 3, false, 0x0, [fd 31 0 .ro]⟩,
   ⟨0xA0, 4, 3, false, 0x0, [fd 31 0 .w1c]⟩,
   ⟨0xB0, 0, 1, false, 0x0, [fd 31 31 .ro, fd 23 16 .rc, fd 15 0 .ro]⟩,
   ⟨0xB4, 0, 1, false, 0x2C102A3, [fd 31 16 .ro, fd 15 0 .ro]⟩]

/-- Registers of the FWD page type. -/
def regsFWD : List RegDef :=
  [⟨0x80, 0, 1, false, 0x0, [fd 8 8 .rws, fd 3 0 .rws]⟩,
   ⟨0xA0, 0, 1, false, 0x0, [fd 31 31 .rw, fd 11 0 .rw]⟩,
   ⟨0xA4, 0, 1, false, 0x0, [fd 31 28 .rws, fd 20 16 .rws, fd 5 0 .rws]⟩,
   ⟨0x100, 4, 16, false, 0x0, [fd 31 31 .rws, fd 30 30 .rws, fd 13 8 .rws, fd 5 0 .rws]⟩,
   ⟨0x200, 16, 64, true, 0x0, [fd 63 0 .rws]⟩,
   ⟨0x208, 16, 64, false, 0x0, [fd 31 31 .rws, fd 28 24 .rws, fd 15 0 .rws]⟩,
   ⟨0x88, 0, 1, true, 0x0, [fd 63 0 .ro]⟩,
   ⟨0x90, 0, 1, false, 0x0, [fd 31 31 .w1c, fd 28 24 .ro, fd 21 16 .ro, fd 7 4 .ro, fd 3 0 .ro]⟩,
   ⟨0xD8, 0, 1, false, 0x0, [fd 23 0 .rws]⟩,
   ⟨0xD0, 0, 1, false, 0x8000007D, [fd 31 31 .rws, fr 11 0 .rws 1 4095]⟩,
   ⟨0xD4, 0, 1, false, 0x0, [fd 31 16 .rc, fd 15 0 .rc]⟩,
   ⟨0xC0, 0, 1, false, 0x10003E8, [fd 31 16 .rws, fr 15 0 .rws 16 65535]⟩,
   ⟨0xC4, 0, 1, false, 0x0, [fd 31 16 .rc, fd 15 0 .rc]⟩,
   ⟨0xC8, 0, 1, false, 0x0, [fd 31 16 .rc, fd 15 0 .rc]⟩]

/-- Registers of the SPL page type. -/
def regsSPL : List RegDef :=
  [⟨0x80, 0, 1, false, 0x0, [fd 0 0 .rws]⟩,
   ⟨0x90, 4, 4, false, 0x0, [fd 6 0 .rws]⟩]

/-- Registers of the ACC page type. -/
def regsACC : List RegDef :=
  [⟨0x80, 24, 96, true, 0x0, [fd 63 6 .rws]⟩,
   ⟨0x88, 24, 96, true, 0x3F, [fd 63 6 .rws, fd 5 0 .ro]⟩,
   ⟨0x90, 24, 96, false, 0x0, [fd 31 31 .rws, fd 23 0 .rws]⟩,
   ⟨0x94, 24, 96, false, 0x0, [fd 23 0 .rws]⟩,
   ⟨0xA00, 0, 1, true, 0x0, [fd 63 0 .ro]⟩,
   ⟨0xA08, 0, 1, true, 0x0, [fd 63 0 .ro]⟩,
   ⟨0xA10, 0, 1, false, 0x0, [fd 31 31 .w1c, fd 28 24 .ro, fd 21 16 .ro, fd 14 8 .ro, fd 7 6 .ro, fd 5 4 .ro, fd 3 0 .ro]⟩,
   ⟨0xA20, 0, 1, false, 0x0, [fd 31 31 .ro, fd 30 30 .ro]⟩,
   ⟨0xA24, 0, 1, false, 0x0, [fd 31 0 .rc]⟩]

/-- Registers of the FLT page type. -/
def regsFLT : List RegDef :=
  [⟨0x80, 0, 1, false, 0x200003E8, [fd 31 31 .rws, fr 30 28 .rws 0 4, fd 15 0 .rws]⟩,
   ⟨0x84, 0, 1, false, 0xA, [fd 31 31 .ro, fd 30 30 .ro, fd 29 29 .wo, fd 28 28 .rw, fr 15 0 .rws 10 65535]⟩,
   ⟨0x88, 0, 1, false, 0x0, [fd 31 31 .ro, fd 23 0 .ro]⟩,
   ⟨0x90, 0, 1, true, 0x0, [fd 63 0 .ro]⟩,
   ⟨0x98, 0, 1, false, 0x0, [fd 31 31 .w1c, fd 30 30 .ro, fd 29 29 .ro, fd 28 28 .ro, fd 26 24 .ro, fd 20 16 .ro, fd 15 0 .ro]⟩,
   ⟨0xA0, 0, 1, false, 0x0, [fd 25 16 .ro, ⟨9, 0, .rw, .special⟩]⟩,
   ⟨0xA4, 0, 1, false, 0x0, [fd 31 0 .rc]⟩,
   ⟨0xA8, 0, 1, false, 0x0, [fd 9 0 .rw]⟩,
   ⟨0xB0, 4, 4, false, 0x0, [fd 31 0 .ro]⟩,
   ⟨0xC0, 0, 1, false, 0x0, [fd 27 16 .ro, ⟨11, 0, .rw, .special⟩]⟩,
   ⟨0xC4, 0, 1, false, 0x0, [fd 31 0 .rc]⟩,
   ⟨0xC8, 0, 1, false, 0x0, [fd 11 0 .rw]⟩,
   ⟨0xCC, 0, 1, false, 0x0, [fd 31 0 .ro]⟩,
   ⟨0x100, 4, 16, false, 0x0, [fd 31 0 .ro]⟩,
   ⟨0x180, 4, 5, false, 0x0, [fd 31 0 .rc]⟩]

/-- Registers of the TRU page type. -/
def regsTRU : List RegDef :=
  [⟨0x80, 0, 1, false, 0x0, [fd 31 31 .ro, fd 30 30 .ro, fd 29 29 .ro, fd 28 28 .ro, fd 27 27 .ro, fd 26 25 .ro, fd 22 16 .ro, fd 10 0 .ro]⟩,
   ⟨0x84, 0, 1, false, 0x0, [fd 31 0 .ro]⟩,
   ⟨0x88, 0, 1, false, 0x0, [fd 31 0 .ro]⟩,
   ⟨0x8C, 0, 1, false, 0x0, [fd 28 16 .ro, fd 12 0 .ro]⟩,
   ⟨0x90, 0, 1, false, 0x64, [fr 12 0 .rws 1 6000]⟩,
   ⟨0x94, 0, 1, false, 0x7D0, [fr 15 0 .rws 100 65535]⟩,
   ⟨0x98, 0, 1, false, 0x0, [fd 31 31 .wo, fd 5 0 .wo]⟩,
   ⟨0x9C, 0, 1, false, 0x0, [fd 7 0 .rws]⟩,
   ⟨0xA0, 4, 4, false, 0x0, packed 16 2 2 .rws (.range 0 2)⟩,
   ⟨0xB0, 4, 4, false, 0x0, packed 16 2 2 .ro (.any)⟩,
   ⟨0x100, 4, 96, false, 0x0, [fd 31 0 .rws]⟩]

/-- Registers of the AGE page type. -/
def regsAGE : List RegDef :=
  [⟨0x80, 0, 1, false, 0xB400180A, [fr 31 30 .rws 0 2, fd 29 29 .rws, fd 28 28 .rws, fd 27 26 .rws, fr 15 8 .rws 1 255, fr 7 0 .rws 1 255]⟩,
   ⟨0x84, 0, 1, false, 0x2EE0352, [⟨31, 16, .rws, .special⟩, fr 15 0 .rws 680 850]⟩,
   ⟨0x88, 0, 1, false, 0x28000F, [fd 31 16 .rws, fd 15 0 .rws]⟩,
   ⟨0x8C, 0, 1, false, 0x967864, [fd 23 16 .rws, fd 15 8 .rws, fd 7 0 .rws]⟩,
   ⟨0x90, 0, 1, false, 0x0, [fd 31 31 .wo, fd 30 30 .wo, fd 29 29 .wo, fd 28 28 .wo, fd 27 20 .wo, fd 5 0 .wo]⟩,
   ⟨0x94, 0, 1, false, 0x0, [fd 31 31 .ro, fd 30 28 .ro, fd 27 27 .ro, fd 21 16 .ro, fd 15 0 .ro]⟩,
   ⟨0x98, 0, 1, false, 0x0, [fd 31 31 .ro, fd 30 30 .ro, fd 21 16 .ro, fd 7 0 .ro]⟩,
   ⟨0x100, 4, 8, false, 0x0, [fd 31 24 .ro, fd 15 0 .ro]⟩,
   ⟨0x140, 0, 1, false, 0x0, [fd 31 31 .rw, fr 7 0 .rw 0 167]⟩,
   ⟨0x144, 0, 1, false, 0x0, [fd 31 31 .ro, fd 30 30 .ro, fd 23 16 .ro, fd 15 8 .ro, fd 7 0 .ro]⟩,
   ⟨0x150, 0, 1, false, 0x0, [fd 31 24 .rc, fd 23 16 .rc, fd 15 8 .rc, fd 7 0 .rc]⟩]

/-- Registers of the MIR page type. -/
def regsMIR : List RegDef :=
  [⟨0x80, 0, 1, false, 0x300003E8, [fd 31 31 .rws, fd 30 30 .rws, fd 29 29 .rws, fd 28 28 .rws, fr 15 0 .rws 1 65535]⟩,
   ⟨0x88, 0, 1, true, 0x0, [fd 63 0 .rws]⟩,
   ⟨0x90, 0, 1, false, 0x0, [fd 23 0 .rws]⟩,
   ⟨0x94, 0, 1, false, 0x0, [fd 23 0 .rws]⟩,
   ⟨0x98, 0, 1, false, 0xA0064, [fr 23 16 .rws 1 255, fr 15 0 .rws 20 65535]⟩,
   ⟨0x9C, 0, 1, false, 0x4, [fr 8 0 .rws 1 256]⟩,
   ⟨0xA0, 0, 1, false, 0x8, [fr 6 0 .rw 1 64]⟩,
   ⟨0xA4, 0, 1, false, 0x0, [fd 31 28 .wo]⟩,
   ⟨0xA8, 0, 1, false, 0x0, [fd 31 31 .w1c, fd 7 0 .ro]⟩,
   ⟨0xB0, 0, 1, false, 0x0, [fd 31 30 .ro, fd 29 28 .ro, fd 27 27 .ro, fd 26 26 .ro, fd 25 25 .ro, fd 24 24 .ro, fd 6 0 .ro]⟩,
   ⟨0xB4, 0, 1, false, 0x0, [fd 31 0 .ro]⟩,
   ⟨0xB8, 0, 1, false, 0x0, [fd 31 0 .ro]⟩,
   ⟨0xBC, 0, 1, false, 0x0, [fd 26 16 .ro, fd 13 0 .ro]⟩,
   ⟨0xD8, 0, 1, true, 0x0, [fd 63 0 .ro]⟩,
   ⟨0xC0, 0, 1, true, 0x0, [fd 63 0 .ro]⟩,
   ⟨0xC8, 0, 1, false, 0x0, [fd 31 31 .w1c, fd 25 24 .ro, fd 23 16 .ro, fd 15 0 .ro]⟩,
   ⟨0xCC, 0, 1, false, 0x0, [fd 31 16 .ro, fd 15 0 .ro]⟩,
   ⟨0xD0, 0, 1, false, 0x0, [fd 31 0 .ro]⟩,
   ⟨0xE0, 0, 1, false, 0x0, [fd 7 0 .w1s]⟩,
   ⟨0x404, 256, 2, false, 0x0, [fd 31 28 .ro, fd 27 27 .ro, fd 26 26 .ro, fd 25 24 .ro]⟩]
  ++ [⟨0x408, 256, 2, false, 0x0, [fd 31 31 .ro, fd 19 16 .ro, fd 13 8 .ro]⟩,
   ⟨0x410, 256, 2, true, 0x0, [fd 63 0 .ro]⟩,
   ⟨0x418, 256, 2, false, 0xFFF00, [fd 31 20 .ro, fd 19 8 .ro]⟩,
   ⟨0x41C, 256, 2, false, 0x0, [fd 31 20 .ro, fd 19 10 .ro]⟩,
   ⟨0x420, 256, 2, false, 0x0, [fd 31 31 .wo, fd 4 0 .wo]⟩,
   ⟨0x424, 256, 2, false, 0x8000007D, [fr 31 28 .rws 1 15, fr 15 0 .rws 16 4000]⟩,
   ⟨0x428, 256, 2, false, 0xA0010, [fr 23 16 .rws 1 255, fr 7 0 .rws 1 255]⟩,
   ⟨0x42C, 256, 2, false, 0x7D0, [fr 15 0 .rws 16 64000]⟩,
   ⟨0x430, 256, 2, false, 0x0, [fd 31 16 .rc, fd 15 0 .rc]⟩,
   ⟨0x434, 256, 2, false, 0x0, [fd 31 16 .rc, fd 15 0 .rc]⟩,
   ⟨0x438, 256, 2, false, 0x0, [fd 31 16 .rc, fd 15 0 .rc]⟩,
   ⟨0x43C, 256, 2, false, 0x0, [fd 31 16 .rc, fd 15 8 .rc, fd 7 0 .rc]⟩,
   ⟨0x480, 256, 2, false, 0x80206403, [fd 31 31 .rws, fr 23 16 .rws 1 255, fr 15 8 .rws 1 255, fr 7 0 .rws 1 255]⟩,
   ⟨0x490, 4, 4, false, 0x0, [fd 31 24 .ro, fd 23 16 .rc, fd 15 0 .rc]⟩,
   ⟨0x590, 4, 4, false, 0x0, [fd 31 24 .ro, fd 23 16 .rc, fd 15 0 .rc]⟩]

/-- Registers of the VIM page type. -/
def regsVIM : List RegDef :=
  [⟨0x200, 0, 1, false, 0x0, [fd 31 31 .rw, fd 11 0 .rw]⟩,
   ⟨0x204, 0, 1, false, 0x0, [fd 31 31 .rw, fd 29 24 .rw, fd 15 0 .rw]⟩,
   ⟨0x208, 0, 1, false, 0x0, [fd 31 12 .rw, fd 11 11 .rw, fd 10 0 .rw]⟩,
   ⟨0x100, 4, 24, false, 0x0, [fr 24 16 .rws 0 256, fd 10 0 .rws]⟩,
   ⟨0x180, 4, 24, false, 0xF0000000, [⟨31, 28, .rws, .sizeLog⟩, fd 14 0 .rws]⟩,
   ⟨0x300, 0, 1, false, 0x0, [fd 31 31 .wo, fd 30 30 .wo, fd 10 0 .wo]⟩,
   ⟨0x308, 0, 1, true, 0x0, [fd 63 12 .rw, fr 5 0 .rw 0 27]⟩,
   ⟨0x310, 0, 1, false, 0x0, [fd 31 31 .ro, fd 30 30 .w1c, fd 29 29 .w1c]⟩,
   ⟨0x320, 0, 1, false, 0x0, [fd 31 16 .rc, fd 15 0 .rc]⟩]

/-- Registers of the WIN page type. -/
def regsWIN : List RegDef :=
  [⟨0x80, 24, 128, true, 0x0, [fd 63 12 .rws]⟩,
   ⟨0x88, 24, 128, true, 0xFFF, [fd 63 12 .rws, fd 11 0 .ro]⟩,
   ⟨0x90, 24, 128, false, 0x0, [fd 31 28 .rws, fd 24 20 .rws, fd 19 0 .rws]⟩,
   ⟨0x94, 24, 128, false, 0x0, [fd 31 31 .rws, fd 30 30 .rws, fd 29 29 .rws, fd 28 28 .rws, fr 27 26 .rws 0 2, fd 25 24 .rws, fd 23 22 .rws]⟩]

/-- Registers of the VIMI page type. -/
def regsVIMI : List RegDef :=
  [⟨0x800, 32, 64, false, 0x800001F, [fd 31 31 .w1s, fd 30 30 .rw, fd 29 28 .ro, fd 27 27 .ro, fd 21 16 .ro, fd 4 0 .ro]⟩,
   ⟨0x808, 32, 64, true, 0x0, [fd 63 12 .rw]⟩,
   ⟨0x810, 32, 64, false, 0x0, [fd 31 30 .rw, fd 23 16 .rw, fr 4 0 .rw 0 16]⟩]

/-- Registers of the CEL page type. -/
def regsCEL : List RegDef :=
  [⟨0x100, 0, 1, true, 0x0, [fd 39 0 .w1s]⟩,
   ⟨0x200, 4, 40, false, 0x10003F00, [fd 31 31 .ro, fd 30 30 .ro, fd 29 29 .ro, fd 28 28 .ro, fd 13 8 .ro]⟩]

/-- Registers of the BUF page type. -/
def regsBUF : List RegDef :=
  [⟨0x80, 0, 1, false, 0x8, [fr 4 0 .rws 2 16]⟩,
   ⟨0x200, 4, 128, false, 0x1000004, [fd 27 16 .rws, fd 11 0 .rws]⟩,
   ⟨0x600, 4, 128, false, 0x0, [fd 31 31 .ro, fd 16 0 .ro]⟩,
   ⟨0x400, 4, 128, false, 0x0, [fd 31 31 .rws, fd 15 0 .rws]⟩]

/-- Registers of the SCH page type. -/
def regsSCH : List RegDef :=
  [⟨0x80, 0, 1, false, 0x0, [fd 31 31 .ro]⟩,
   ⟨0x84, 0, 1, false, 0x0, [fd 31 0 .ro]⟩,
   ⟨0x88, 0, 1, false, 0x0, [fd 20 0 .ro]⟩,
   ⟨0x90, 0, 1, true, 0x0, [fd 63 0 .ro]⟩,
   ⟨0x98, 0, 1, true, 0x0, [fd 63 0 .ro]⟩,
   ⟨0xA0, 0, 1, false, 0x0, [fd 20 0 .ro]⟩,
   ⟨0xA4, 0, 1, false, 0x0, [fd 15 0 .ro]⟩,
   ⟨0xA8, 0, 1, true, 0x0, [fd 63 0 .ro]⟩,
   ⟨0xB0, 0, 1, false, 0x0, [fd 31 31 .w1c, fd 20 20 .ro, fd 19 16 .ro, fd 6 0 .ro]⟩,
   ⟨0x100, 4, 16, false, 0x80020, [fd 29 24 .ro, fd 19 16 .rws, fd 9 0 .rws]⟩,
   ⟨0x140, 4, 16, false, 0x0, [fd 31 20 .rc, fd 19 16 .rc, fd 15 12 .ro, fd 5 0 .ro]⟩,
   ⟨0x200, 4, 128, false, 0x0, [fd 31 24 .rc, fd 23 16 .rc, fd 15 8 .rc, fd 7 0 .rc]⟩,
   ⟨0x800, 0, 1, true, 0x0, [fd 63 0 .rw]⟩,
   ⟨0x808, 0, 1, false, 0x0, [fd 28 24 .rw, fd 1 0 .rw]⟩,
   ⟨0x80C, 0, 1, false, 0x0, [fd 25 0 .rw]⟩,
   ⟨0x810, 0, 1, false, 0x0, [fd 31 28 .wo, fd 2 0 .wo]⟩,
   ⟨0x814, 0, 1, false, 0x0, [fd 31 31 .ro, fd 30 30 .w1c, fd 26 24 .ro, fd 19 16 .ro, fd 7 0 .ro]⟩,
   ⟨0x818, 0, 1, true, 0x0, [fd 63 0 .rw]⟩,
   ⟨0x820, 0, 1, false, 0x0, [fd 0 0 .rw]⟩,
   ⟨0x824, 0, 1, false, 0x0, packed 8 4 3 .ro (.any)⟩]
  ++ [⟨0x828, 0, 1, false, 0x0, [fd 31 31 .ro, fd 2 0 .ro]⟩,
   ⟨0x830, 0, 1, false, 0x1, [fd 0 0 .rws]⟩,
   ⟨0x834, 0, 1, false, 0x8000000A, [fd 31 31 .rws, fr 9 0 .rws 5 1000]⟩,
   ⟨0x838, 0, 1, false, 0x0, [fd 31 31 .w1c, fd 27 24 .ro, fd 21 16 .ro, fd 9 8 .ro, fd 2 0 .ro]⟩,
   ⟨0x840, 4, 8, false, 0x0, [fd 31 0 .ro]⟩,
   ⟨0x860, 0, 1, true, 0x0, [fd 63 0 .ro]⟩,
   ⟨0x400, 8, 128, false, 0x0, [fd 31 31 .ro, fd 30 25 .ro, fd 20 0 .ro]⟩,
   ⟨0x404, 8, 128, false, 0x0, [fd 28 8 .ro, fd 4 0 .ro]⟩]

/-- Registers of the QSH page type. -/
def regsQSH : List RegDef :=
  [⟨0x80, 0, 1, false, 0x14, [fd 31 31 .rw, fr 4 0 .rw 10 30]⟩,
   ⟨0x88, 0, 1, true, 0x0, [fd 63 0 .ro]⟩,
   ⟨0x90, 0, 1, false, 0x0, [fd 31 0 .ro]⟩,
   ⟨0x94, 0, 1, false, 0x3E8, [fd 15 0 .rw]⟩,
   ⟨0x98, 0, 1, false, 0x0, [fd 31 31 .w1c, fd 5 0 .ro]⟩,
   ⟨0x100, 4, 64, false, 0x10000, [fd 26 24 .rws, fr 23 16 .rws 1 255]⟩,
   ⟨0x200, 8, 64, false, 0x0, [fd 31 31 .rws, fr 16 0 .rws 0 65536]⟩,
   ⟨0x204, 8, 64, false, 0x12, [fr 11 0 .rws 1 4095]⟩,
   ⟨0x400, 4, 64, false, 0x120000, [fd 31 0 .ro]⟩,
   ⟨0x500, 4, 64, false, 0x0, [fd 23 0 .ro]⟩,
   ⟨0x600, 4, 64, false, 0x0, [fd 23 0 .rc]⟩,
   ⟨0x700, 4, 64, false, 0x0, [fd 31 0 .rc]⟩,
   ⟨0x800, 4, 64, false, 0x0, [fd 23 0 .ro]⟩,
   ⟨0x900, 4, 64, false, 0x0, [fd 31 0 .ro]⟩,
   ⟨0xA00, 8, 16, false, 0x0, [fd 31 31 .rws, fr 16 0 .rws 0 65536]⟩,
   ⟨0xA04, 8, 16, false, 0x40, [fr 11 0 .rws 1 4095]⟩,
   ⟨0xA80, 4, 16, false, 0x400000, [fd 31 0 .ro]⟩,
   ⟨0xAC0, 4, 8, false, 0x0, [fd 31 31 .ro, fd 30 30 .ro, fd 15 0 .rc]⟩]

/-- Registers of the LNK page type. -/
def regsLNK : List RegDef :=
  [⟨0x80, 0, 1, false, 0x6, [fd 31 31 .rws, fr 30 29 .rws 0 2, fd 28 28 .rws, fd 24 20 .rws, fd 13 8 .rws, fr 6 4 .rws 0 4, fr 2 0 .rws 0 6]⟩,
   ⟨0x84, 0, 1, false, 0x0, [fd 31 31 .rws, fd 5 0 .rws]⟩,
   ⟨0x90, 0, 1, false, 0x0, [fd 31 31 .ro, fd 30 30 .ro, fd 29 29 .ro, fd 28 28 .ro, fd 27 24 .ro, fd 23 23 .ro, fd 18 16 .ro, fd 12 8 .ro, fd 7 7 .ro]⟩,
   ⟨0x88, 0, 1, false, 0x0, [fd 31 31 .wo, fd 30 30 .wo, fd 29 29 .rw]⟩,
   ⟨0xA0, 0, 1, false, 0x80206403, [fd 31 31 .rws, fr 23 16 .rws 1 255, fr 15 8 .rws 1 255, fr 7 0 .rws 1 255]⟩,
   ⟨0x100, 4, 16, false, 0x0, [fd 31 24 .ro, fd 23 16 .rc, fd 15 0 .rc]⟩,
   ⟨0x98, 0, 1, false, 0x80400306, [fd 31 31 .rws, fr 23 16 .rws 1 255, fr 15 8 .rws 1 255, fd 2 0 .ro]⟩,
   ⟨0x94, 0, 1, false, 0x7D0, [fr 15 0 .rws 16 64000]⟩,
   ⟨0xB0, 0, 1, false, 0x0, [fd 31 16 .rc]⟩,
   ⟨0xB4, 0, 1, false, 0x0, [fd 31 16 .rc, fd 15 0 .rc]⟩,
   ⟨0xB8, 0, 1, false, 0x0, [fd 31 16 .rc, fd 15 0 .rc]⟩,
   ⟨0xC0, 0, 1, false, 0x0, [fd 31 31 .ro, fd 15 8 .ro, fd 7 0 .w1c]⟩]

/-- Registers of the FFL page type. -/
def regsFFL : List RegDef :=
  [⟨0x80, 0, 1, false, 0x0, [fd 31 31 .rws, fd 30 30 .rws]⟩,
   ⟨0x84, 0, 1, false, 0x0, [fd 31 28 .ro, fd 27 27 .ro, fd 26 26 .ro, fd 25 24 .ro]⟩,
   ⟨0x88, 0, 1, false, 0x0, [fd 31 31 .ro, fd 19 16 .ro, fd 13 8 .ro]⟩,
   ⟨0x90, 0, 1, true, 0x0, [fd 63 0 .ro]⟩,
   ⟨0x98, 0, 1, false, 0xFFF00, [fd 31 20 .ro, fd 19 8 .ro]⟩,
   ⟨0x9C, 0, 1, false, 0x0, [fd 31 20 .ro, fd 19 10 .ro]⟩,
   ⟨0xA0, 0, 1, false, 0x0, [fd 31 31 .wo, fd 4 0 .wo]⟩,
   ⟨0xA4, 0, 1, false, 0x8000007D, [fr 31 28 .rws 1 15, fr 15 0 .rws 16 4000]⟩,
   ⟨0xA8, 0, 1, false, 0xA0010, [fr 23 16 .rws 1 255, fr 7 0 .rws 1 255]⟩,
   ⟨0xAC, 0, 1, false, 0x7D0, [fr 15 0 .rws 16 64000]⟩,
   ⟨0xB0, 0, 1, false, 0x0, [fd 31 16 .rc, fd 15 0 .rc]⟩,
   ⟨0xB4, 0, 1, false, 0x0, [fd 31 16 .rc, fd 15 0 .rc]⟩,
   ⟨0xB8, 0, 1, false, 0x0, [fd 31 16 .rc, fd 15 0 .rc]⟩,
   ⟨0xBC, 0, 1, false, 0x0, [fd 31 16 .rc, fd 15 8 .rc, fd 7 0 .rc]⟩]

/-- Registers of the FTX page type. -/
def regsFTX : List RegDef :=
  [⟨0x80, 0, 1, false, 0x8080032, [fr 27 24 .rws 1 15, fr 23 16 .rws 1 255, fr 15 0 .rws 1 10000]⟩,
   ⟨0x84, 0, 1, false, 0x0, [fd 31 31 .ro, fd 19 0 .ro]⟩,
   ⟨0x88, 0, 1, false, 0x0, [fd 12 0 .ro]⟩,
   ⟨0x90, 0, 1, false, 0x0, [fd 6 6 .rw, fd 5 2 .rw, fd 1 0 .rw]⟩,
   ⟨0x94, 0, 1, false, 0x0, [fd 31 0 .ro]⟩,
   ⟨0x98, 0, 1, false, 0x0, [fd 31 0 .ro]⟩,
   ⟨0x9C, 0, 1, false, 0x0, [fd 31 31 .ro, fd 27 24 .ro, fd 23 0 .ro]⟩,
   ⟨0xA0, 0, 1, false, 0x0, [fd 31 31 .w1c, fd 29 28 .ro, fd 15 0 .ro]⟩,
   ⟨0xA4, 0, 1, false, 0x0, [fd 5 2 .ro, fd 1 0 .ro]⟩,
   ⟨0xB0, 0, 1, false, 0x0, [fd 31 16 .rc, fd 15 0 .rc]⟩,
   ⟨0xB4, 0, 1, false, 0x0, [fd 31 16 .rc, fd 15 0 .rc]⟩,
   ⟨0xB8, 0, 1, false, 0x0, [fd 31 16 .rc, fd 15 0 .rc]⟩]

/-- Registers of the DMA page type. -/
def regsDMA : List RegDef :=
  [⟨0x80, 0, 1, false, 0x0, [fd 31 31 .ro, fd 30 30 .ro, fd 10 0 .ro]⟩,
   ⟨0x84, 0, 1, false, 0x0, [fd 31 16 .rc, fd 15 0 .rc]⟩,
   ⟨0x88, 0, 1, false, 0x0, [fd 31 16 .rc, fd 15 0 .rc]⟩,
   ⟨0x90, 0, 1, true, 0x0, [fd 63 0 .ro]⟩,
   ⟨0x98, 0, 1, false, 0x0, [fd 31 31 .w1c, fd 23 16 .ro, fd 11 8 .ro, fd 0 0 .ro]⟩,
   ⟨0x400, 4, 256, false, 0x1F4004, [fd 31 31 .rws, fd 30 30 .rws, fd 20 16 .rws, fr 14 10 .rws 1 16, fr 8 0 .rws 0 256]⟩,
   ⟨0x800, 8, 256, false, 0x0, [fd 31 31 .rws, fr 16 0 .rws 0 65536]⟩,
   ⟨0x804, 8, 256, false, 0x10, [fr 6 0 .rws 1 64]⟩]

/-- Registers of the DMAC page type. -/
def regsDMAC : List RegDef :=
  [⟨0x100, 96, 32, true, 0x0, [fd 63 0 .rw]⟩,
   ⟨0x108, 96, 32, true, 0x0, [fd 63 0 .rw]⟩,
   ⟨0x110, 96, 32, false, 0x0, [fd 31 0 .rw]⟩,
   ⟨0x114, 96, 32, false, 0x0, [fd 31 31 .rw, fd 30 30 .rw, fd 29 29 .rw, fd 28 28 .rw]⟩,
   ⟨0x118, 96, 32, false, 0x0, [fd 1 1 .wo, fd 0 0 .wo]⟩,
   ⟨0x11C, 96, 32, false, 0x0, [fd 0 0 .rw]⟩,
   ⟨0x120, 96, 32, false, 0x0, [fd 31 30 .ro, fd 29 29 .ro, fd 28 28 .w1c, fd 19 16 .ro]⟩,
   ⟨0x124, 96, 32, false, 0x0, [fd 31 0 .ro]⟩,
   ⟨0x128, 96, 32, false, 0x0, [fd 23 0 .ro]⟩,
   ⟨0x12C, 96, 32, false, 0x0, [fd 31 0 .ro]⟩]

/-- Registers of the TTU page type. -/
def regsTTU : List RegDef :=
  [⟨0x80, 0, 1, false, 0x0, [fd 16 0 .ro]⟩,
   ⟨0x84, 0, 1, false, 0x0, [fd 31 16 .rc, fd 15 0 .rc]⟩,
   ⟨0x88, 0, 1, false, 0x0, [fd 31 16 .rc, fd 15 0 .rc]⟩,
   ⟨0x90, 0, 1, true, 0x0, [fd 63 0 .ro]⟩,
   ⟨0x98, 0, 1, false, 0x0, [fd 31 31 .w1c, fd 26 16 .ro, fd 13 8 .ro, fd 3 0 .ro]⟩]

/-- Registers of the PMUC page type. -/
def regsPMUC : List RegDef :=
  [⟨0x80, 0, 1, false, 0x0, [fd 31 0 .w1c]⟩,
   ⟨0x100, 4, 32, false, 0x0, [fd 31 0 .rw]⟩,
   ⟨0x180, 4, 32, false, 0x1F0000, [fd 31 31 .rw, fd 20 16 .rw, fd 15 8 .rw, fd 7 0 .rw]⟩,
   ⟨0x200, 4, 32, false, 0x0, [fd 31 0 .ro]⟩,
   ⟨0x800, 0, 1, false, 0x0, [fd 31 31 .wo]⟩,
   ⟨0x808, 0, 1, true, 0x0, [fd 63 0 .ro]⟩,
   ⟨0x810, 0, 1, false, 0x0, [fd 31 0 .ro]⟩]

/-- Registers of the PMUT page type. -/
def regsPMUT : List RegDef :=
  [⟨0x80, 0, 1, false, 0x0, [fd 31 31 .rw, fd 30 30 .rw]⟩,
   ⟨0x84, 0, 1, false, 0x0, [fd 23 0 .ro]⟩,
   ⟨0x88, 0, 1, false, 0x0, [⟨23, 0, .rw, .special⟩]⟩,
   ⟨0x8C, 0, 1, false, 0x0, [fd 31 0 .rc]⟩,
   ⟨0x100, 16, 4, false, 0x3F7FFF1F, [fd 31 31 .rw, fd 29 24 .rw, fd 22 16 .rw, fd 15 8 .rw, fd 4 0 .rw]⟩,
   ⟨0x104, 16, 4, false, 0x400, [fr 23 0 .rw 1 16777215]⟩,
   ⟨0x108, 16, 4, false, 0x0, [fd 31 0 .ro]⟩,
   ⟨0x10C, 16, 4, false, 0x0, [fd 31 16 .rc, fd 15 0 .rc]⟩]

/-- Registers of the PMUA page type. -/
def regsPMUA : List RegDef :=
  [⟨0x80, 0, 1, false, 0x0, [fd 7 0 .wo]⟩,
   ⟨0x100, 64, 8, true, 0x0, [fd 63 0 .ro]⟩,
   ⟨0x108, 64, 8, true, 0x0, [fd 63 0 .ro]⟩,
   ⟨0x110, 64, 8, true, 0x0, [fd 63 0 .ro]⟩,
   ⟨0x118, 64, 8, true, 0x0, [fd 63 0 .ro]⟩,
   ⟨0x120, 64, 8, true, 0x0, [fd 63 0 .ro]⟩,
   ⟨0x128, 64, 8, true, 0x0, [fd 63 0 .ro]⟩,
   ⟨0x130, 64, 8, true, 0x0, [fd 63 0 .ro]⟩,
   ⟨0x138, 64, 8, true, 0x0, [fd 63 0 .ro]⟩,
   ⟨0x400, 8, 64, true, 0x0, [fd 63 0 .ro]⟩]

/-- Registers of the HBMM page type. -/
def regsHBMM : List RegDef :=
  [⟨0x200, 0, 1, false, 0x0, [fd 29 16 .ro, fd 12 0 .ro]⟩,
   ⟨0x204, 0, 1, false, 0x0, [fd 31 16 .rc, fd 15 0 .rc]⟩,
   ⟨0x208, 0, 1, false, 0x0, [fd 31 16 .rc, fd 15 0 .rc]⟩,
   ⟨0x20C, 0, 1, false, 0x0, [fd 31 16 .rc, fd 15 0 .rc]⟩,
   ⟨0x210, 0, 1, true, 0x0, [fd 63 0 .ro]⟩,
   ⟨0x218, 0, 1, false, 0x0, [fd 31 31 .w1c, fd 28 24 .ro, fd 21 16 .ro, fd 3 0 .ro]⟩]

/-- Registers of the SPC page type. -/
def regsSPC : List RegDef :=
  [⟨0x80, 0, 1, false, 0x5A0203E8, [fr 31 24 .rws 50 99, fr 23 16 .rws 1 255, fr 15 0 .rws 1 65535]⟩,
   ⟨0x84, 4, 2, false, 0x64, [fd 31 16 .ro, fd 15 0 .rws]⟩,
   ⟨0x90, 0, 1, false, 0x0, [fd 31 31 .ro, fd 30 30 .ro, fd 27 16 .ro, fd 11 0 .ro]⟩,
   ⟨0x94, 0, 1, false, 0x41A0546, [fd 27 16 .rws, fd 11 0 .rws]⟩,
   ⟨0x98, 0, 1, false, 0x80000000, [fd 31 31 .ro, fd 30 30 .ro, fd 29 29 .ro]⟩]

/-- Registers of the SPCS page type. -/
def regsSPCS : List RegDef :=
  [⟨0x80, 0, 1, false, 0x0, [fd 31 31 .rws, fd 30 30 .rws, fd 29 29 .rws, fd 28 28 .rws, fd 27 27 .rws, fd 26 26 .rws, fd 25 24 .rws, fd 23 16 .rws, fd 11 0 .rws]⟩,
   ⟨0x84, 0, 1, false, 0x4E2007D0, [fd 31 16 .rws, fd 15 0 .rws]⟩,
   ⟨0x88, 0, 1, false, 0x7D0000A, [fd 27 16 .rws, fd 11 0 .rws]⟩,
   ⟨0x8C, 0, 1, false, 0x30643214, [fd 31 28 .rws, fr 27 16 .rws 1 4095, fr 15 8 .rws 1 255, fr 7 0 .rws 1 255]⟩,
   ⟨0x90, 0, 1, false, 0x0, [fd 31 28 .ro, fd 27 27 .ro, fd 26 26 .ro, fd 25 25 .ro, fd 24 24 .ro, fd 23 20 .ro, fd 13 8 .ro, fd 3 0 .ro]⟩,
   ⟨0x94, 0, 1, false, 0x0, [fd 31 0 .ro]⟩,
   ⟨0x98, 0, 1, false, 0x0, [fd 27 16 .ro, fd 11 0 .ro]⟩,
   ⟨0x9C, 0, 1, false, 0x0, [fd 31 31 .wo, fd 30 30 .wo, fd 29 29 .wo]⟩,
   ⟨0xA0, 0, 1, false, 0x0, [fd 31 16 .rc, fd 15 0 .rc]⟩,
   ⟨0xB0, 0, 1, false, 0xFA0000, [fd 31 16 .rws, fd 15 0 .ro]⟩,
   ⟨0xB4, 0, 1, false, 0x0, [fd 31 0 .ro]⟩,
   ⟨0xB8, 0, 1, false, 0x0, [fd 31 0 .ro]⟩,
   ⟨0xBC, 0, 1, false, 0x0, [fd 5 0 .ro]⟩]

/-- Registers of the IC page type. -/
def regsIC : List RegDef :=
  [⟨0x100, 0, 1, false, 0x0, [fd 31 31 .rc, fd 23 0 .rc]⟩,
   ⟨0x104, 0, 1, false, 0x0, [fd 31 31 .ro, fd 30 30 .ro, fd 23 0 .ro]⟩,
   ⟨0x80, 0, 1, false, 0x0, [fd 27 22 .ro, fd 21 16 .ro, fd 10 0 .ro]⟩]

/-- The block registers of a page type (the common header apart). -/
def pageRegs : PageKind → List RegDef
  | .glb => regsGLB
  | .clk => regsCLK
  | .rst => regsRST
  | .pwr => regsPWR
  | .spn => []
  | .fwd => regsFWD
  | .spl => regsSPL
  | .acc => regsACC
  | .flt => regsFLT
  | .tru => regsTRU
  | .age => regsAGE
  | .mir => regsMIR
  | .vim => regsVIM
  | .win => regsWIN
  | .vimi => regsVIMI
  | .cel => regsCEL
  | .buf => regsBUF
  | .sch => regsSCH
  | .qsh => regsQSH
  | .lnk => regsLNK
  | .ffl => regsFFL
  | .ftx => regsFTX
  | .dma => regsDMA
  | .dmac => regsDMAC
  | .ttu => regsTTU
  | .pmuc => regsPMUC
  | .pmut => regsPMUT
  | .pmua => regsPMUA
  | .hbmc => []
  | .hbmm => regsHBMM
  | .spc => regsSPC
  | .spcs => regsSPCS
  | .mgt => []
  | .mgtm => []
  | .ic => regsIC

/-- Type code of a page type (Table 2.7). -/
def PageKind.typeCode : PageKind → Nat
  | .glb => 0x0001
  | .clk => 0x0002
  | .rst => 0x0003
  | .pwr => 0x0004
  | .spn => 0x0005
  | .fwd => 0x0006
  | .spl => 0x0007
  | .acc => 0x0008
  | .flt => 0x0009
  | .tru => 0x000A
  | .age => 0x000B
  | .mir => 0x000C
  | .vim => 0x000D
  | .win => 0x000E
  | .vimi => 0x000F
  | .cel => 0x0101
  | .buf => 0x0102
  | .sch => 0x0103
  | .qsh => 0x0104
  | .lnk => 0x0105
  | .ffl => 0x0106
  | .ftx => 0x0107
  | .dma => 0x0108
  | .dmac => 0x0109
  | .ttu => 0x010A
  | .pmuc => 0x010B
  | .pmut => 0x010B
  | .pmua => 0x010B
  | .hbmc => 0x0201
  | .hbmm => 0x0202
  | .spc => 0x0301
  | .spcs => 0x0302
  | .mgt => 0x0401
  | .mgtm => 0x0402
  | .ic => 0x0000

/-- Reset class (0 for S0 to 4 for S4) of each fault source of a page type, bit 0 first: the fault source tables of
every chapter. Bit 31, PAGE_ACCESS, is S0 (R72). -/
def PageKind.faults : PageKind → List Nat
  | .glb => [0]
  | .clk => [4, 1, 0]
  | .rst => []
  | .pwr => [1, 0, 2]
  | .spn => [1, 2]
  | .fwd => [0, 1, 1, 2, 1, 1, 1, 1, 1]
  | .spl => [0, 1, 1, 2]
  | .acc => [1, 1, 1, 1, 0]
  | .flt => [2, 1, 1]
  | .tru => [2, 1, 1, 1, 2, 1, 2, 1, 1, 1, 1]
  | .age => [0, 1, 1, 2, 1]
  | .mir => [2, 1, 1, 2, 2, 1, 1, 1, 2, 0, 3, 1, 1, 1, 0]
  | .vim => [1, 1, 0]
  | .win => []
  | .vimi => []
  | .cel => []
  | .buf => [1, 2, 0]
  | .sch => [1, 1, 0, 1, 2, 0, 1, 0, 1, 1]
  | .qsh => [1]
  | .lnk => [1, 1, 1, 1, 2, 2, 0, 2]
  | .ffl => [0, 1, 2, 1, 1, 0]
  | .ftx => [1, 2, 1]
  | .dma => [1, 0, 1, 2]
  | .dmac => []
  | .ttu => [1, 1, 1, 2]
  | .pmuc => []
  | .pmut => [0]
  | .pmua => []
  | .hbmc => []
  | .hbmm => [1, 2, 1, 1, 0]
  | .spc => [2, 1]
  | .spcs => [2, 2, 2, 2, 2, 1, 2, 1, 0, 1]
  | .mgt => []
  | .mgtm => []
  | .ic => []

/-- Number of interrupt causes of a page type (PAGE_CAP.NINT). -/
def PageKind.nint : PageKind → Nat
  | .qsh => 1
  | .flt => 6
  | .pmuc => 1
  | .pmut => 1
  | .glb | .clk | .rst | .pwr | .spn | .fwd | .spl | .acc | .tru | .age | .mir | .vim | .win | .vimi | .cel | .buf
  | .sch | .lnk | .ffl | .ftx | .dma | .dmac | .ttu | .pmua | .hbmc | .hbmm | .spc | .spcs | .mgt | .mgtm | .ic => 0

end Sys2Proof.Machine
end

