-- ==== Sys2Proof/Machine/State.lean ====
section
/-! DEFINITION. The state of the FLR9160-H2 as plain data: every register, table, buffer, queue, timer and pin the spec
names, the queue of waiting commands, the faults and refusals a step may end in, and the state after power-up reset. -/

namespace Sys2Proof.Machine

/-- The reasons a step stops with a fault. -/
inductive Fault where
  /-- Raised by a meaning whose command meets a configuration or use that the spec says gives an undefined result
  (R9 and the undefined cases of each chapter); `rule` is the number of that rule. Safe: the part may do anything there,
  and the model does nothing. -/
  | undefinedResult (rule : Nat)
  deriving DecidableEq, Repr

/-- The reasons a step is refused. -/
inductive Refusal where
  /-- Raised by the dispatcher for a command whose meaning is not modelled. Safe: nothing is claimed of it. -/
  | notModelled (mnemonic : String)
  deriving DecidableEq, Repr

/-! ## Time and output -/

/-- What leaves the package or is returned to the sender of a command, in the order it happened (newest first). The kind of `aerPort` is the
error a port reports as PCI Express prescribes: 0 Unsupported Request, 1 Unexpected Completion, 2 ACS Violation, 3 MC Blocked TLP, 4 Surprise
Down. -/
inductive Output where
  | regRead (off : Nat) (data : Dword)
  | msix (part vec : Nat)
  | vfMsix (inst vec : Nat)
  | aer (part kind : Nat)
  | aerPort (port kind : Nat)
  | tlp (port : Nat) (pkt : Tlp)
  | nullified (port : Nat)
  | upkeep (port : Nat)
  | replayed (port : Nat)
  | fflData (port seq ack : Nat) (sop eop null resend : Bool)
  | flit (port : Nat) (bytes : List Byte)
  | fflPkt (port : Nat) (hdr : FabHdr) (tlp : Tlp)
  | mirror (port : Nat) (body : MirRec)
  | ctrl (port nseq ack : Nat) (msgs : List CtrlMsg)
  | fcInit (port cls headers units : Nat)
  | fcUpdate (port cls headers units : Nat)
  | spdm (body : List Byte)
  | mctp (body : List Byte)
  | jtag (data : Nat)
  | declined (port : Nat)
  | accepted (port : Nat)
  | ptm (port : Nat)
  deriving DecidableEq, Repr

/-! ## Fault collection (chapter 13) -/

/-- One firing of a fault source in the cycle of a command (R457, R458): source number, partition (31 none), device
port (63 none). -/
structure Firing where
  src : Nat
  part : Nat
  port : Nat
  real : Bool
  forced : Bool
  deriving DecidableEq, Repr

/-- A fault log entry (Table 13.4). -/
structure LogEntry where
  time : Nat
  src : Nat
  prog : Nat
  eff : Nat
  first : Bool
  same : Bool
  real : Bool
  forced : Bool
  esc : Bool
  part : Nat
  port : Nat
  rep : Nat
  seq : Nat
  deriving DecidableEq, Repr

/-- The collector's memory of a source's last entry (R460, R474): model tick, partition, effective class, and the log
position while the entry was stored. -/
structure LastEntry where
  tick : Nat
  part : Nat
  eff : Nat
  pos : Option Nat
  deriving DecidableEq, Repr

/-- A Lees Log record (Table 13.7); `pasid`, `vi`, `chan`, `fdid` are absent where their valid bits are clear. -/
structure LeesRec where
  time : Nat
  addr : Nat
  wseq : Nat
  count : Nat
  rid : Nat
  port : Nat
  part : Nat
  pasid : Option Nat
  vi : Option Nat
  gen : Nat
  reason : Nat
  chan : Option Nat
  cellar : Nat
  fdid : Option Nat
  summary : Bool
  nofence : Bool
  length : Nat
  src : Nat
  rseq : Nat
  deriving DecidableEq, Repr

/-- Who issued a request (R312); `block` is the services endpoint of a partition acting for a block of the 9160. -/
inductive Initiator where
  | port (p rid : Nat) (pasid : Option Nat)
  | fabric (fdid cellar part rid : Nat)
  | cxl (p : Nat)
  | chan (c : Nat)
  | block (part : Nat)
  deriving DecidableEq, Repr

/-- The instance an initiator is bound to (R313, R402): the binding entry that bound it, the instance, the generation
carried. -/
structure Bound where
  entry : Option Nat
  vi : Nat
  gen : Nat
  deriving DecidableEq, Repr

/-- A write that failed later and still waits for its Lees Log record (R471): the record without its time and number,
the writer, its binding, the writers of a summary, for a DMA write its channel, transfer number and transfer offset; `early` says that it never
passed the ingress ordering point (R331). -/
structure LateWrite where
  body : LeesRec
  ini : Initiator
  bound : Option Bound
  others : List (Initiator × Option Bound)
  order : Nat
  dma : Option (Nat × Nat × Nat)
  early : Bool := false
  deriving DecidableEq, Repr

/-- Fault collector (chapter 13). The logs are keyed by ring position; their pointers are registers. -/
structure FltSt where
  log : Store LogEntry
  seq : Nat
  last : Store LastEntry
  aer : Store Nat
  lees : Store LeesRec
  late : List LateWrite
  pulseEnd : Option Nat
  deriving DecidableEq, Repr

/-! ## Packets (chapters 3, 4, 6, 9, 10) -/

/-- Where a packet is going (R85, Table 3.4). -/
inductive Route where
  | port (p : Nat)
  | shared (hbm : Nat)
  | fabric (fea : Nat)
  | mcast (g : Nat)
  | bar (part bar off : Nat)
  | vfBar (inst bar off : Nat)
  | none
  deriving DecidableEq, Repr

/-- Mark of a packet of a scheduled stream (R143 to R147). `inWin m i` is in contract, first cell (m, i). -/
inductive Mark where
  | best
  | inWin (m i : Nat)
  | late
  | excess
  | displaced
  | blocked
  deriving DecidableEq, Repr

/-- Where a packet is: waiting for a translation walk, in the ingress buffer before the ordering point, committed to
an egress queue (on the spine or local turn, stored or spilled), or waiting for the shared window engine. -/
inductive Place where
  | walk
  | ingress
  | egress
  | window
  deriving DecidableEq, Repr

/-- The attributes of the window a request won (R355 to R357); all zero where it won none. -/
structure Attr where
  win : Option Nat
  prefetch : Bool
  npw : Bool
  idem : Bool
  strict : Bool
  view : Nat
  swap : Nat
  pfsz : Nat
  deriving DecidableEq, Repr

/-- Owner of a request, who gets its completion (R97, R264, R362, R365, R304): the requester itself, an NPW write, the parts of
a split request (R376), a prefetch block, a fabric request table entry, a DMA read by channel and transfer number with its transfer offset, a
scatter-gather list read (side 0 source, 1 destination), a LOAD read by the image offset of its first byte. -/
inductive Owner where
  | requester
  | npw (pkt : Nat)
  | split (req : Nat)
  | prefetch (blk : Nat)
  | fabric (entry : Nat)
  | dma (chan xfer off : Nat)
  | dmaList (chan xfer side : Nat)
  | load (off : Nat)
  deriving DecidableEq, Repr

/-- A packet the 9160 holds. `ing` is the ingress device port (63: none), `cell0` the Cellar it entered, `acc` the
acceptance tick of each cell (R141), `entered` the half-tick in which each cell entered its path or local turn,
`arrived` and `left` count cells at the egress and past it, `spill` that it went to the spill part
with `spilled` cells not yet back in SRAM and `spillBusy` cells written so far, `poison` the fault source that found a cell poisoned, `d1` the tick its first
cell left, `queue` the
global egress queue 128c + q, `forbidden` says that a part of the request was refused (R376), `group` is shared by the
packets of one write, `held` has a bit for each cause of a wait that has been counted; `ideBad` says that the check of the selective IDE stream that protects it failed (R244); `ebase` and `elen` are the element of a DMA request (R435), its own bytes otherwise. -/
structure Packet where
  id : Nat
  tlp : Tlp
  orig : Nat
  ing : Nat
  cell0 : Nat
  ini : Initiator
  part : Nat
  bound : Option Bound
  wseq : Option Nat
  route : Route
  attr : Attr
  forbidden : Bool
  fab : Option FabHdr
  acc : List Nat
  ncell : Nat
  place : Place
  queue : Nat
  ordTick : Nat
  order : Nat
  cut : Bool
  entered : List Nat
  arrived : Nat
  left : Nat
  spill : Bool
  spilled : Nat
  spillBusy : Nat
  poison : Option Nat
  d1 : Nat
  mark : Mark
  bad : Bool
  group : Nat
  held : Nat
  ideBad : Bool := false
  skip : Nat := 0
  walk : Option Nat := none
  cfgCpl : Bool := false
  sample : Option Nat
  owner : Owner
  ebase : Nat
  elen : Nat
  reqAddr : Nat := 0
  reqLen : Nat := 0
  mcSeen : List (Nat × List Nat) := []
  taint : Bool := false
  deriving DecidableEq, Repr


/-- A posted write sent as DMWrs (R362, R363): its packet, DMWrs not yet completed, and whether one failed. -/
structure NpwWrite where
  id : Nat
  pkt : Packet
  left : Nat
  failed : Bool
  deriving DecidableEq, Repr

/-- One entry of a port's non-posted tracker (R264, R359, R367): Requester ID and tag as sent, the request, model ticks of
its creation and of its becoming an orphan, and for a request of a block the completion data that have come so far and whether a part of them was poisoned. -/
structure TrkEntry where
  port : Nat
  rid : Nat
  tag : Nat
  pkt : Packet
  born : Nat
  orphan : Option Nat
  got : List Byte := []
  poison : Bool := false
  deriving DecidableEq, Repr

/-- A posted write that is not yet resolved for fences (R332): `left` end points still to be performed, whether it
is a covered write of the mirror (R493), whether its loss is already being recorded, and for a DMA write
its channel, transfer number and transfer offset. `pkt` is the packet's group. -/
structure OpenWrite where
  pkt : Nat
  ini : Initiator
  wseq : Nat
  order : Nat
  left : Nat
  mirrored : Bool
  lost : Bool
  dma : Option (Nat × Nat × Nat)
  deriving DecidableEq, Repr

/-- A fence that has passed the ordering point and not completed (R330 to R335), with the offset and length of the access in the control page. -/
structure FenceOp where
  ini : Initiator
  entry : Option Nat
  inst : Nat
  part : Nat
  ing : Nat
  dmwr : Bool
  rid : Nat
  tag : Nat
  order : Nat
  tc : Nat := 0
  ro : Bool := false
  ido : Bool := false
  off : Nat := 0x100
  len : Nat := 4
  deriving DecidableEq, Repr

/-- One entry of the shared window write buffer (R319): a granule of 64 B with the bytes written, and the write it is part
of. -/
structure SwEntry where
  gran : Nat
  bytes : List (Option Byte)
  ini : Initiator
  bound : Option Bound
  wseq : Nat
  order : Nat
  cellar : Nat
  ing : Nat
  part : Nat
  strict : Bool
  pkt : Nat
  poisoned : Bool
  src : Packet
  deriving DecidableEq, Repr

/-- A reservation (R337), oldest first in its list. -/
structure Reservation where
  ini : Initiator
  gran : Nat
  vi : Nat
  gen : Nat
  deriving DecidableEq, Repr

/-- A block of a Cellar's prefetch store (R364 to R366). `data` is absent while the block is fetched, `result` is
what its fetch brought, `cid` the Completer ID with it, `valid` says that no write has touched it (R366); `got` lists the
offset and length of each read served; `waiting` the requests that wait for it. -/
structure PfBlock where
  id : Nat
  cellar : Nat
  win : Nat
  part : Nat
  port : Nat
  base : Nat
  size : Nat
  data : Option (List Byte)
  result : Option (CplStatus × List Byte × Bool)
  cid : Nat
  valid : Bool
  born : Nat
  got : List (Nat × Nat)
  waiting : List Packet
  deriving DecidableEq, Repr

/-! ## Partitions, instances, translation (chapter 11) -/

/-- What a host programs in its partition's Felura Services Endpoint and what its function records (R391 to R396,
R467): BAR bases (absent: 0), Memory Space Enable of the function and of its VFs, SR-IOV, the subordinate bus number of the services bridge (R392), Bus Master
Enable, Max sizes, the words of the MSI-X table, its pending bits, MSI-X Enable and Function Mask, AER masks and status. -/
structure PartSt where
  bar0 : Option Nat
  bar2 : Option Nat
  bar4 : Option Nat
  vfBar0 : Option Nat
  vfBar2 : Option Nat
  pfRid : Nat
  vfEnable : Bool
  numVfs : Nat
  busMaster : Bool
  maxRead : Nat
  maxPay : Nat
  cplTimeout : Nat
  msix : Store Word
  msixPending : List Nat
  msixEn : Bool := false
  msixMask : Bool := false
  memEn : Bool := false
  vfMemEn : Bool := false
  svcSub : Nat := 0
  aerCorMask : Bool
  aerUncMask : Bool
  aerCor : Bool
  aerUnc : Bool
  dvsecIdx : Nat
  deriving DecidableEq, Repr

/-- A partition before its host programs it (PRESUMED: the PCI Express resets; log 12). -/
def PartSt.init : PartSt :=
  { bar0 := none, bar2 := none, bar4 := none, vfBar0 := none, vfBar2 := none, pfRid := 0, vfEnable := false,
    numVfs := 0, busMaster := false, maxRead := 512, maxPay := 128, cplTimeout := 50000000, msix := [],
    msixPending := [], aerCorMask := false, aerUncMask := false, aerCor := false, aerUnc := false, dvsecIdx := 0 }

/-- An entry of the binding table (Tables 11.4, 11.5) with the count of R472 kept beside it. -/
structure BindEntry where
  d0 : Word
  d1 : Word
  lost : Nat
  deriving DecidableEq, Repr

/-- An instance (R411 to R416): life state of VIM_ICTL.STATE, generation, a held reset, the tick in which RESETTING
ends, whether it goes ABSENT when the reset is over, and the words of its VF's MSI-X table with its pending bits, MSI-X Enable and Function Mask. -/
structure InstSt where
  stt : Nat
  gen : Nat
  heldReset : Bool
  heldHot : Bool := false
  endTick : Nat
  toAbsent : Bool
  msix : Store Word
  pend : List Nat
  msixEn : Bool := false
  msixMask : Bool := false
  deriving DecidableEq, Repr

/-- An instance after power-up reset: ABSENT, generation 0. -/
def InstSt.init : InstSt := { stt := 0, gen := 0, heldReset := false, endTick := 0, toAbsent := false, msix := [], pend := [] }

/-- A cached leaf of a TTU slice (R406); the most recently used entry stands first in its list. -/
structure TtuEntry where
  vi : Nat
  gen : Nat
  shift : Nat
  page : Nat
  leaf : Dword
  deriving DecidableEq, Repr

/-- A running walk (R407): table slice offset to be read next, level, the
restart mark of R410, and whether it is such a restart. -/
structure Walk where
  id : Nat
  cellar : Nat
  vi : Nat
  gen : Nat
  part : Nat
  addr : Nat
  level : Nat
  table : Nat
  restart : Bool
  again : Bool
  deriving DecidableEq, Repr

/-- An invalidation accepted and not yet done (R410); `go` is the next packet identifier at its GO. -/
structure Inval where
  vi : Nat
  range : Bool
  addr : Nat
  sizeLog : Nat
  part : Nat
  effected : Bool
  go : Nat
  deriving DecidableEq, Repr

/-- A write through a physical function's BAR2 not yet committed (R410). -/
structure Bar2Write where
  part : Nat
  hbm : Nat
  data : List (Option Byte)
  pkt : Nat
  born : Nat
  deriving DecidableEq, Repr

/-! ## Ports, lanes and schedule (chapters 4 to 8) -/

/-- What a host programs in the virtual bridge of a port: its windows, Memory Space Enable and bus numbers (R90, R96), ACS controls (bit 0 Source
Validation, 1 Translation Blocking, 2 P2P Request Redirect, 3 P2P Completion Redirect, 4 Upstream Forwarding, 5 P2P Egress Control, 6 Direct
Translated P2P: R108) with the Egress Control Vector, the Multicast capability (R105: base, index position, enable, MC_Num_Group, MC_Receive,
MC_Block_All, MC_Block_Untranslated, MC_Overlay_BAR), ARI Forwarding and DPC Completion Control as Unsupported Request (R242, R265), Bus Master Enable, the AER Uncorrectable Error Status, Mask and
Severity registers (R242), and the HDM
decoders of an upstream CXL port (R349: base, size, offset). -/
structure BridgeCfg where
  memBase : Nat
  memLimit : Nat
  pfBase : Nat
  pfLimit : Nat
  memEn : Bool
  priBus : Nat
  secBus : Nat
  subBus : Nat
  acs : Nat
  egressVec : Nat
  mcBase : Nat
  mcShift : Nat
  mcEn : Bool
  mcNum : Nat
  mcReceive : Nat
  mcBlock : Nat
  mcBlockUntr : Nat
  mcOverlay : Nat
  ariFwd : Bool
  dpcUr : Bool
  bme : Bool
  aerSts : Nat
  aerMask : Nat
  aerSev : Nat
  hdm : List (Nat × Nat × Nat)
  deriving DecidableEq, Repr

/-- A bridge before its host programs it (PRESUMED: the PCI Express resets; log 12). -/
def BridgeCfg.init : BridgeCfg :=
  { memBase := 0, memLimit := 0, pfBase := 0, pfLimit := 0, memEn := false, priBus := 0, secBus := 0, subBus := 0, acs := 0,
    egressVec := 0, mcBase := 0, mcShift := 0, mcEn := false, mcNum := 0, mcReceive := 0, mcBlock := 0, mcBlockUntr := 0,
    mcOverlay := 0, ariFwd := false, dpcUr := false, bme := false, aerSts := 0, aerMask := 0x00400000, aerSev := 0x00462030, hdm := [] }

/-- Link state of a port beyond its registers (chapters 3, 4, 6, 7). `per` is the flit period in service when it last
left L0 (R194); `br` is what the host programs in its virtual bridge; credits are the partner's, absent where
it grants without limit; `sent` are the TLPs its link partner has not acknowledged; `heldFc` the header and data credits held back with `heldP` and `heldNP`
cells, by class (R228); `slip` is σ (R153), `wire` the queue of the packet whose cell or nullified end takes the present flit period, `swapSteal` that
the packet that is leaving began to do so before the last swap (R163), `nullAbort` the partition and port of the BUF_CT_ABORT that goes with the
nullified end owed (R115); `ideKeys` the IDE streams whose keys are programmed and not yet in use (R243); `recAt` the tick in which the port began to
retrain and `late` its lanes retired since, which that training still uses (R253, R261); `trip` the tick in which a lane of the port first tripped, with
the scores as they then stood (R253); `winAt` the end of the last derate window (R257); `mism` that the flit period which R161 last compared differs from the
plan. -/
structure PortSt where
  per : Nat
  everL0 : Bool
  arrival : Bool
  retired : Bool
  derated : Bool
  planner : Bool
  cleanup : Bool
  cleanupFrom : Nat
  removed : Bool
  dpc : Bool
  again : Bool
  noLanes : Bool
  errs : Nat
  winOver : Nat
  lockLost : Option Nat
  l0s : Nat
  lastWidth : Nat
  lastRate : Nat
  sending : Option (Nat × Nat)
  nextPer : Nat
  repair : List Nat
  upkeep : List Nat
  limitHit : Bool
  nullOwed : Bool
  nullAbort : Option (Nat × Nat) := none
  slip : Nat := 0
  wire : Option Nat := none
  swapSteal : Bool := false
  br : BridgeCfg
  crP : Option Nat
  crNP : Option Nat
  crCPL : Option Nat
  crPD : Option Nat
  crNPD : Option Nat
  crCPLD : Option Nat
  sent : List Packet
  heldP : Nat
  heldNP : Nat
  heldFc : List (Nat × Nat × Nat) := []
  ideKeys : List Nat := []
  recAt : Option Nat := none
  late : List Nat := []
  trip : Option (Nat × List Nat) := none
  winAt : Option Nat := none
  mism : Bool := false
  deriving DecidableEq, Repr

/-- A port after configuration load or reset: no link yet, no credit (DESIGN CHOICE, log 14). -/
def PortSt.init : PortSt :=
  { per := 0, everL0 := false, arrival := false, retired := false, derated := false, planner := false,
    cleanup := false, cleanupFrom := 0, removed := false, dpc := false, again := false, noLanes := false, errs := 0,
    winOver := 0, lockLost := none, l0s := 0, lastWidth := 0, lastRate := 0, sending := none, nextPer := 0, repair := [],
    upkeep := [], limitHit := false, nullOwed := false, br := BridgeCfg.init,
    crP := some 0, crNP := some 0, crCPL := some 0, crPD := some 0, crNPD := some 0, crCPLD := some 0, sent := [], heldP := 0,
    heldNP := 0 }

/-- A lane beyond its registers (R250 to R252): fabric time of its last soft failure, consecutive failed trainings, and for a
mirror lane whether it is in the trained link and holds lock. -/
structure LaneSt where
  soft : Option Nat
  fails : Nat
  link : Bool
  lock : Bool
  deriving DecidableEq, Repr

/-- A lane that has never failed. -/
def LaneSt.init : LaneSt := { soft := none, fails := 0, link := false, lock := false }

/-- A LOAD in progress (R186): its slot, the registers it latched, what its reads have brought, by image offset, and the tick of its acceptance or
of its last completion. -/
structure LoadOp where
  slot : Nat
  src : Nat
  kind : Nat
  part : Nat
  len : Nat
  failed : Bool
  got : List (Nat × List Byte) := []
  moved : Nat := 0
  deriving DecidableEq, Repr

/-- An accepted ARM (R187 to R190): swap tick, whether the pair agrees, and whether the shadow tables are filled. -/
structure ArmOp where
  slot : Nat
  tick : Nat
  pair : Bool
  filled : Bool
  checked : Bool
  deriving DecidableEq, Repr

/-- A pending fallback swap (R198, R203): slot, swap tick, the events it serves by class and port, and those to be selected again at the swap. -/
structure FbOp where
  slot : Nat
  tick : Nat
  evs : List (Nat × Nat)
  again : List (Nat × Nat)
  deriving DecidableEq, Repr

/-- Schedule control (chapters 4, 5): the active Vintage with its epoch, the Vintage of each slot of the store, the commands in progress, the
round-robin pointer of each spine path (R160), the packets of each stream that have passed, as acceptance window, tick, packet and cells
(R141), the slots of each path used in a tick (4 × tick + one bit for each), and the capacity events of the current tick by class and port (R199). -/
structure SchedSt where
  active : Option Vintage
  epoch : Nat
  slots : Store (Option Vintage)
  load : Option LoadOp
  arm : Option ArmOp
  fb : Option FbOp
  events : List (Nat × Nat)
  spinePtr : Store Nat
  accWin : Store (List (Nat × Nat × Nat × Nat))
  spineUsed : Store Nat
  deriving DecidableEq, Repr

/-- Best-effort state of a queue beyond its registers (R218, R233): its deficit, and the packet for which QSH_STALL has fired. -/
structure QueueSt where
  deficit : Nat
  stalled : Option Nat
  deriving DecidableEq, Repr

/-- A DATA flit kept for resending (R286): sequence number, the packet or mirror record it carries a cell of, flags, and its payload. -/
structure FlitCopy where
  seq : Nat
  pkt : Option Packet
  body : Option MirRec
  sop : Bool
  eop : Bool
  null : Bool
  cell : List Byte
  deriving DecidableEq, Repr

/-- A received DATA flit held in the reorder buffer (R287). -/
structure HeldFlit where
  seq : Nat
  sop : Bool
  eop : Bool
  null : Bool
  cell : List Byte
  deriving DecidableEq, Repr

/-- Link layer of an FFL port or mirror port (chapter 8); keys 0 to 63 are device ports, 64 and 65 MP0 and MP1. Sender:
next and oldest unacknowledged sequence number, copies, resends pending, replay timer start (ticks) and count. Receiver: next
expected, reorder buffer, numbers already NAKed, acceptance ticks of the packet being taken and of packets taken whole.
Training: HELLO phase. Requests: own LINKREQ as (width, cause, tag) with its tick. Credit: the peer's grants to us,
cells sent, our grants to it, and those last reported. `ctrl` are messages that wait for a CTRL flit, each with the
number of CTRL flits it goes in, and `nakNew` the numbers whose NAKs were decided in a tick (R288); `rev` that a mirror port's link is reversed; `recLeft` cells of the mirror record being sent;
`outAt` and `outN` the tick and count of the last cells that left the link layer (R289); `erWas` the tick in which the next expected number last
moved, with what it was before (R288); `asmCls` the class of the packet being taken; `granted` the width that a LINKGO granted or a request that got
none asked for (R291, R292); `want` width and cause of a request that waits for the port to be ACTIVE; `timeOff` the offset and path delay of the last
time exchange this end began (R281). -/
structure FflSt where
  ns : Nat
  unack : Nat
  replay : List FlitCopy
  resend : List Nat
  timer : Option Nat
  replayNum : Nat
  er : Nat
  ackSeen : Bool
  hold : List HeldFlit
  naked : List Nat
  asm : List Nat
  whole : List (List Nat)
  fromRetrain : Bool
  phaseAt : Nat
  helloAt : Nat
  gotHello : Bool
  gotEcho : Bool
  sentEcho : Bool
  req : Option (Nat × Nat × Nat)
  reqAt : Nat
  reqTag : Nat
  width : Nat
  rev : Bool := false
  nakNew : Nat × List Nat := (0, [])
  grantP : Nat
  grantNP : Nat
  grantCPL : Nat
  sentP : Nat
  sentNP : Nat
  sentCPL : Nat
  ownP : Nat
  ownNP : Nat
  ownCPL : Nat
  lastP : Nat
  lastNP : Nat
  lastCPL : Nat
  ctrl : List (CtrlMsg × Nat)
  ctrlAt : Nat
  timeAt : Nat
  swapSeen : List (Nat × Nat)
  recLeft : Nat
  outAt : Nat
  outN : Nat
  erWas : Option (Nat × Nat) := none
  asmCls : Nat := 0
  granted : Option Nat := none
  want : Option (Nat × Nat) := none
  timeOff : Option (Int × Int) := none
  deriving DecidableEq, Repr

/-- A link layer in DOWN with nothing sent (R284). -/
def FflSt.init : FflSt :=
  { ns := 0, unack := 0, replay := [], resend := [], timer := none, replayNum := 0, er := 0, ackSeen := false, hold := [],
    naked := [], asm := [], whole := [], fromRetrain := false, phaseAt := 0, helloAt := 0, gotHello := false,
    gotEcho := false, sentEcho := false, req := none, reqAt := 0, reqTag := 0, width := 0, grantP := 0, grantNP := 0,
    grantCPL := 0, sentP := 0, sentNP := 0, sentCPL := 0, ownP := 0, ownNP := 0, ownCPL := 0, lastP := 0,
    lastNP := 0, lastCPL := 0, ctrl := [], ctrlAt := 0, timeAt := 0, swapSeen := [], recLeft := 0, outAt := 0, outN := 0 }

/-- An unacknowledged packet of a transmit stream with its replay copy (R297): `written` once in HBM. -/
structure TxCopy where
  pkt : Packet
  tseq : Nat
  written : Bool
  deriving DecidableEq, Repr

/-- A transmit stream (R296 to R303); key 64c + 4·FDID + FCLASS. TSEQ starts at 0 (DESIGN CHOICE, log 13). -/
structure TxStream where
  next : Nat
  sync : Bool
  unacked : List TxCopy
  timer : Nat
  timeouts : Nat
  deriving DecidableEq, Repr

/-- A stream that has sent nothing since reset: its first packet carries SYNC (R303). -/
def TxStream.init : TxStream := { next := 0, sync := true, unacked := [], timer := 0, timeouts := 0 }

/-- A receive stream (R298 to R305); key 16·source FDID + 4·source Cellar + FCLASS. The engine of the Cellar with the source Cellar's
number holds it (R306). `done` are numbers from EXP on that had passed when a link down discarded packets before them (log 72). -/
structure RxStream where
  exp : Nat
  synced : Bool
  since : Nat
  uncovered : Option Nat
  done : List Nat := []
  deriving DecidableEq, Repr

/-- A receive stream after reset: UNSYNCED (R305). -/
def RxStream.init : RxStream := { exp := 0, synced := false, since := 0, uncovered := none }

/-- A fabric request table entry (R304), with the traffic class and attributes that its completion takes. -/
structure FrtEntry where
  cellar : Nat
  entry : Nat
  fdid : Nat
  srcCellar : Nat
  part : Nat
  rid : Nat
  tag : Nat
  localPart : Nat
  born : Nat
  tc : Nat := 0
  ro : Bool := false
  ido : Bool := false
  deriving DecidableEq, Repr

/-- What the model keeps from one moment of a tick to another: cells not yet accepted, as tick, port, class and TC (R227); ingress buffer space freed in the
present tick under a policer, as port, class, cells, headers and data units (R228), and the policed classes whose held credit is to be returned since
the last tick ended; BURST registers written in it with the value that holds until the
next tick (R225); depth and head age of the queues of each QSH page that takes a snapshot in it, by page number (R232); the time until which HBM write
and read bandwidth of the spill engine are in use, in 1/760 ns (R43); the tick of the last placed spill burst (R123); PMU_EVT registers written in the
present tick with the value that holds until the next (R593); and the device ports whose slot accounts clear in the next tick and in this one (R600). -/
structure EdgeSt where
  debits : List (Nat × Nat × Nat × Nat)
  freed : List (Nat × Nat × Nat × Nat × Nat)
  relDue : List (Nat × Nat)
  cuts : List (Nat × Nat)
  snaps : Store (List (Nat × Nat))
  spillBusy : Nat × Nat
  spillAt : Option Nat
  evts : List (Nat × Dword)
  clrDue : List Nat
  clrNow : List Nat
  deriving DecidableEq, Repr

/-- Nothing kept. -/
def EdgeSt.init : EdgeSt := { debits := [], freed := [], relDue := [], cuts := [], snaps := [], spillBusy := (0, 0), spillAt := none, evts := [],
                               clrDue := [], clrNow := [] }

/-- A burst of the spill engine (R123): cells of each packet it moves, HBM to SRAM or the other way, and the model tick in which it is over. -/
structure SpillOp where
  parts : List (Nat × Nat)
  back : Bool
  endTick : Nat
  deriving DecidableEq, Repr

/-! ## DMA engines (chapter 12) -/

/-- A scatter-gather side of a transfer (R433): elements known (address, length) from the start, the address of the next
list entry to fetch, whether END was read, and whether a fetch is outstanding. A flat side is one element. -/
structure SgSide where
  elems : List (Nat × Nat)
  next : Nat
  ended : Bool
  busy : Bool
  deriving DecidableEq, Repr

/-- What failed at a transfer offset (R444): offset, status code, engine (0 read, 1 write), address. -/
structure DmaFail where
  off : Nat
  code : Nat
  eng : Nat
  addr : Nat
  deriving DecidableEq, Repr

/-- A transfer that is active (R428 to R431): the active set, its sides, bytes asked for by read bursts, staged bytes with
their offset and whether they are good, bytes given to write bursts, bytes past the ordering point, bytes read that have
not returned, lost writes with the lowest transfer offset of one, the failure found, DRAIN, and how much of `State.listDirty` came before it (R455). -/
structure Xfer where
  num : Nat
  count : Nat
  paced : Bool
  intEn : Bool
  src : SgSide
  dst : SgSide
  rd : Nat
  staged : List (Nat × List Byte)
  wr : Nat
  prog : Nat
  inflight : List (Nat × Nat)
  lost : Nat
  lostAt : Option Nat
  fail : Option DmaFail
  drain : Bool
  since : Nat := 0
  deriving DecidableEq, Repr

/-- A channel beyond its registers (R427, R442): transfers in order of their GOs (all but the last in DRAIN), the rate
bucket in 2^−16 units of 256 B, the number of its next transfer, and the list reads that have returned: transfer, side,
status, data, poison. -/
structure ChanSt where
  xfers : List Xfer
  bucket : Int
  next : Nat
  lists : List (Nat × Nat × CplStatus × List Byte × Bool)
  deriving DecidableEq, Repr

/-- An idle channel. -/
def ChanSt.init : ChanSt := { xfers := [], bucket := 0, next := 0, lists := [] }

/-- An engine (R411, R437, R439, R441): channel of the burst that runs with the tick its occupancy ends, the generation the burst began with, the fabric
tick of the last placed entry that had its turn, placed entries that wait for the engine, and the round-robin pointer of PRIO levels 0 and 1. -/
structure EngSt where
  run : Option (Nat × Nat)
  gen : Nat
  placed : Option Nat
  late : List DmaSlot
  ptr0 : Nat
  ptr1 : Nat
  deriving DecidableEq, Repr

/-- An engine that is free. -/
def EngSt.init : EngSt := { run := none, gen := 0, placed := none, late := [], ptr0 := 0, ptr1 := 0 }


/-! ## Redundant pair (chapter 14) -/

/-- An entry of the stream table (R495, R496, R501 to R503): last ledger point, absent before the first, writes lost and not reported, highest write
sequence number held, BROKEN, and whether L or LOSTN changed since the last ledger. -/
structure MirStream where
  key : StreamKey
  point : Option Nat
  lost : Nat
  high : Nat
  broken : Bool
  changed : Bool
  deriving DecidableEq, Repr

/-- A ROLE message as received (Table 14.4). -/
structure RoleMsg where
  role : Nat
  takeOk : Bool
  resyncReq : Bool
  vintage : Nat
  epoch : Nat
  deriving DecidableEq, Repr

/-- The mirror block beyond its registers (R485 to R511): records to send, covered writes whose record is not acknowledged
(R497), stream table, journal, commits received out of order with the next to apply, flits of journal records whose credit is
withheld at MP0 and MP1 (R495), the port the next record takes, messages kept, ticks of the seek and of the end of a
switchover, YIELD sent by a part that stops (R469), whether what it withdraws waits for the tick to end, a resync's next block with its start, the tick of its last block, blocks
received with their CSEQ, RESYNC_REQ, heartbeat levels and times, last flit on a mirror port, whether the takeover condition
now held has been handled, ticks of the last ROLE sent and of the last epoch's end, and the last ledger received since the resync began. -/
structure MirSt where
  txq : List MirRec
  unacked : List Nat
  streams : List MirStream
  journal : List MirRec
  commits : List MirRec
  expect : Option Nat
  owed : Nat × Nat
  turn : Nat
  role : Option RoleMsg
  armReport : Option (Nat × Nat × Nat)
  seekStart : Nat
  switchEnd : Option Nat
  yielded : Bool
  yieldDue : Bool
  resync : Option (Nat × Nat)
  blockAt : Nat
  got : Store Nat
  resyncReq : Bool
  hbIn : Bool
  hbEdge : Option Nat
  hbOut : Bool
  hbAt : Option Nat
  dihus : Option Nat
  handled : Bool
  roleAt : Nat
  epochAt : Nat
  ledger : Option Nat
  deriving DecidableEq, Repr

/-- The mirror block of a 9160 after power-up reset: UNBOUND, nothing held. -/
def MirSt.init : MirSt :=
  { txq := [], unacked := [], streams := [], journal := [], commits := [], expect := none, owed := (0, 0), turn := 0, role := none,
    armReport := none, seekStart := 0, switchEnd := none, yielded := false, yieldDue := false, resync := none, blockAt := 0, got := [],
    resyncReq := false, hbIn := false, hbEdge := none, hbOut := false, hbAt := none, dihus := none, handled := false,
    roleAt := 0, epochAt := 0, ledger := none }


/-! ## Trust (chapter 16) -/

/-- Attestation of the module or peer on a port (R562 to R564): start tick, whether a reply finished, and the redo mark. -/
structure AttSt where
  start : Option Nat
  done : Bool
  deriving DecidableEq, Repr

/-- Trust block: fuses (Table 16.1), the open Book entry (chain value, records not yet in flash, records that no CHECKPOINT covers, tick of the
first of these, records not made, tick at which a CHECKPOINT became due, CHAIN and BSEQ of the newest CHECKPOINT, FLAGS of its BOOT_OPEN), flash
place of the next record, number of the newest entry, command nonce, hashes of certificate, firmware and configuration, the firmware copies last read,
faults found in the boot ROM that have not fired, the records of the last tick that may still be reordered (tick, number, chain value before them), and
whether another wrote the Book area, and whether it did since the last boot (R573). -/
structure TrustSt where
  uds : Nat
  qkey : Store Nat
  qrevoke : Nat
  svn : Nat
  owner : Store Nat
  ownerRevoke : Nat
  dbg : Store Nat
  dbgRevoke : Nat
  dbgCtr : Nat
  chain : Nat
  held : List (List Byte)
  uncovered : Nat
  since : Option Nat
  lost : Nat
  cpDue : Option Nat
  cpLast : Nat × Nat
  flags : Nat
  place : Nat
  bootNo : Nat
  nonce : Nat
  certHash : Nat
  fwHash : Nat
  cfgHash : Nat
  fwA : Option FwCopy
  fwB : Option FwCopy
  faults : List Nat
  freshAt : Nat
  fresh : Nat
  freshChain : Nat
  tainted : Bool
  chainOpen : Bool
  att : Store AttSt
  deriving DecidableEq, Repr

/-- A trust block whose fuses are not programmed (DESIGN CHOICE, log 15). -/
def TrustSt.init : TrustSt :=
  { uds := 0, qkey := [], qrevoke := 0, svn := 0, owner := [], ownerRevoke := 0, dbg := [], dbgRevoke := 0, dbgCtr := 0,
    chain := 0, held := [], uncovered := 0, since := none, lost := 0, cpDue := none, cpLast := (0, 0), flags := 0, place := 0x3800000, bootNo := 0,
    nonce := 0, certHash := 0, fwHash := 0, cfgHash := 0, fwA := none, fwB := none, faults := [], freshAt := 0, fresh := 0,
    freshChain := 0, tainted := false, chainOpen := false, att := [] }


/-! ## Ageing (chapter 17) -/

/-- An action of a planner pass that can change a flit period (R580): port, whether it retires lanes (else a derate), the lanes. -/
structure AgeAct where
  port : Nat
  retire : Bool
  lanes : List Nat
  deriving DecidableEq, Repr

/-- The margin planner and the ageing records beyond their registers (R576 to R589). Flash: write count of the state block,
power-on hours, lanes retired as it says (bit n), next record of the log. Scans: AGE_LDATA of each lane, fabric time of each
port's last scan, ports named by SCAN_NOW. A pass: fabric time of its start, ports still to scan, ports re-equalised and due a second scan, actions found, least
slack of each monitor. Supply: times of warnings counted, a raise owed. The port in Recovery by a planner action, and the count of L0
entries of the proposal's port when it was made. Whether another wrote its flash area (R592). Ports that the next pass decides afresh (R580), and
whether a third warning within 24 hours has come since the last pass (R586). -/
structure AgeSt where
  seq : Nat
  hours : Nat
  hourAt : Nat
  monthAt : Nat
  retired : Nat
  logPos : Nat
  ldata : Store Dword
  scanned : Store Nat
  scanNow : List Nat
  passAt : Nat
  toScan : List Nat
  reeq : List Nat
  acts : List AgeAct
  slack : Store Nat
  warns : List Nat
  raise : Bool
  acting : Option Nat
  propL0 : Nat
  tainted : Bool
  redo : List Nat
  third : Bool
  deriving DecidableEq, Repr

/-- Ageing with a blank record (R587): no lane retired, no hours. -/
def AgeSt.init : AgeSt :=
  { seq := 0, hours := 0, hourAt := 0, monthAt := 0, retired := 0, logPos := 0, ldata := [], scanned := [], scanNow := [], passAt := 0,
    toScan := [], reeq := [], acts := [], slack := [], warns := [], raise := false, acting := none, propL0 := 0, tainted := false,
    redo := [], third := false }


/-! ## Packet samples (chapter 18) -/

/-- A record of a sampled packet in a Cellar's buffer (R601 to R604, Table 18.3): its number, Cellar, sampler and MSEQ; acceptance tick;
ticks to the ordering point; what Table 18.3 takes from the packet; `hdr` its header bytes (free values); `x1` the half-tick at which its first cell
reached the egress pipeline; `out` the outcome with its tick and reason. -/
structure TraceRec where
  id : Nat
  cellar : Nat
  n : Nat
  mseq : Nat
  acc : Nat
  dord : Nat
  ing : Nat
  egr : Option Nat
  queue : Nat
  cells : Nat
  cut : Bool
  spilled : Bool
  mcast : Bool
  sched : Bool
  fabArr : Bool
  trans : Bool
  grel : Option Int
  x1 : Option Nat
  mark : Nat
  sigma : Nat
  part : Nat
  rid : Nat
  addr : Nat
  hdr : Nat
  ini : Initiator
  order : Nat
  out : Option (Nat × Nat × Nat)
  deriving DecidableEq, Repr


/-! ## Slot power (chapter 15) -/

/-- An entry of the module table (R539): key, insertions and power-on seconds observed here, and the warning flags (bit 0 INS_WARN, 1 INS_END,
2 HRS_WARN, 3 HRS_END). -/
structure ModEntry where
  key : Nat
  ins : Nat
  secs : Nat
  flags : Nat
  deriving DecidableEq, Repr

/-- A slot beyond its registers (R517 to R541). FETs (Table 15.1) and PERST_N; the hot-plug bits of the port it serves (Power Controller Control,
Power Fault Detected, Presence Detect State and Changed) with what waits for the Limder link; Limder's request; tick of entry into the state, of
the last removal, end of holdoff, main FET to open, gap of a feed switch with the feed to take; retry count; FRU read pending, module key, ratings
and bases, counts written, ON time not yet in whole seconds with the tick it is counted from, tick of the last write of seconds, the counts of
modules without a key; life record: RETIRED and its time, time of CONN_RESET, trips. -/
structure SlotSt where
  fetA : Bool
  fetB : Bool
  pre : Bool
  main : Bool
  perst : Bool
  pcc : Bool
  pfd : Bool
  pds : Bool
  pdc : Bool
  due : Bool
  dueGone : Bool
  dueFault : Bool
  pccDue : Option Bool
  req : Bool
  since : Nat
  removedAt : Option Nat
  holdEnd : Nat
  openAt : Option Nat
  gap : Option (Nat × Nat)
  retry : Nat
  fruDue : Bool
  key : Option Nat
  insRated : Nat
  hrsRated : Nat
  insBase : Nat
  hrsBase : Nat
  written : Bool
  onNs : Nat
  onFrom : Option Nat
  hourAt : Nat
  anon : ModEntry
  retired : Bool
  retireT : Nat
  connT : Nat
  trips : Nat
  deriving DecidableEq, Repr

/-- A slot after power-up reset with a blank life record: EMPTY, every FET off, PERST_N asserted. -/
def SlotSt.init : SlotSt :=
  { fetA := false, fetB := false, pre := false, main := false, perst := true, pcc := false, pfd := false, pds := false, pdc := false,
    due := false, dueGone := false, dueFault := false, pccDue := none, req := false, since := 0, removedAt := none, holdEnd := 0,
    openAt := none, gap := none, retry := 0, fruDue := false, key := none, insRated := 0, hrsRated := 0, insBase := 0, hrsBase := 0,
    written := false, onNs := 0, onFrom := none, hourAt := 0, anon := ⟨0, 0, 0, 0⟩, retired := false, retireT := 0, connT := 0,
    trips := 0 }

/-- The Limder die beyond its slots: tick of the last sample, since when each feed has been within its window, firings held while the link is
lost, the module table (least recently seen first), and the copies in flash of the life records (64 B, Table 15.6; their place is not given)
and of the module table. -/
structure SpcSt where
  sampleAt : Option Nat
  goodA : Option Nat
  goodB : Option Nat
  held : List (Nat × Nat)
  mods : List ModEntry
  flashLife : Store (List Byte)
  flashMods : List ModEntry
  deriving DecidableEq, Repr

/-- Limder with nothing sampled and blank flash. -/
def SpcSt.init : SpcSt :=
  { sampleAt := none, goodA := none, goodB := none, held := [], mods := [], flashLife := [], flashMods := [] }


/-! ## Clocks, power, resets (chapter 19) -/

/-- The time discipline beyond its registers (R615, R616): ACC, consecutive samples within 100 ns, ticks of the last valid sample and of the last PTM
exchange. -/
structure ClkSt where
  acc : Int
  good : Nat
  lastAt : Nat
  ptmAt : Nat
  deriving DecidableEq, Repr

/-- The supply monitor and power domains beyond their registers (R618, R621 to R623, R648): tick of the last sample, consecutive samples of each rail below its
warning and reset level, rails in warning with the tick since which they have stayed above it, domains being gated and being woken, THERMTRIP_N. Rails are
numbered in the order of Table 20.5: 0 VDD_CORE to 8 VDD_LMD. -/
structure PwrSt where
  sampleAt : Option Nat
  below : Store (Nat × Nat)
  warning : Store (Option Nat)
  gating : List Nat
  waking : Store Nat
  thermtrip : Bool
  deriving DecidableEq, Repr

/-- Resets and boot (R624 to R632): boot step about to end (0 in a power-up reset, 1 to 11 Table 19.6, 12 served, 13 BOOT_FAIL), tick it began, whether the
reset was a power-up reset, a warm reset that waits for its YIELD with its cause, and DEVICE_FATAL to be entered again. -/
structure BootSt where
  step : Nat
  since : Nat
  cold : Bool
  warm : Option (Nat × Nat)
  fatal : Bool
  deriving DecidableEq, Repr

/-- The state of the 9160. -/
structure State where
  /-- Commands that wait, first in first out. -/
  pending : List Instr
  /-- Register file, keyed by BAR0 byte offset (R55); an unlisted register holds its reset value. -/
  regs : Store Dword
  /-- Last values written to registers whose writes are held (R92, R379), keyed as `regs`. -/
  heldRegs : Store Dword
  /-- Latched high words of 64-bit registers, by requester and offset (R59); absent once another requester has reached the register,
  when R82 leaves the value open. -/
  latches : List (Requester × Nat × Option Nat)
  /-- Model tick count: the clock of every duration (log 2). -/
  ticks : Nat
  /-- Fabric time in ns (R133). -/
  fabric : Nat
  /-- What has left the package, newest first (log 3). -/
  out : List Output
  /-- Draws of free values so far (log 4); the model's own. -/
  free : Nat
  /-- Firings of the command now run; empty between commands (log 5). -/
  firing : List Firing
  /-- Fault collector. -/
  flt : FltSt
  /-- Endpoint table (R101, Table 3.7). -/
  ept : Store Word
  /-- Packets held, in order of acceptance; a packet that passes the ordering point moves to the end. -/
  packets : List Packet
  /-- Next packet, block and walk identifier (the model's own). -/
  nextId : Nat
  /-- Count of passages of the ordering point, which orders requests (R314). -/
  order : Nat
  /-- Next write sequence number of each initiator that has written (R314); 0 for the others (log 13). -/
  wseq : List (Initiator × Nat)
  /-- Non-posted trackers of all ports (R264). -/
  trk : List TrkEntry
  /-- Posted writes not yet resolved (R332). -/
  openW : List OpenWrite
  /-- Fences not yet completed, oldest first (R335). -/
  fences : List FenceOp
  /-- Shared window write buffer, oldest first (R319). -/
  swb : List SwEntry
  /-- Reservations, least recently set first (R337, R338). -/
  resv : List Reservation
  /-- Prefetch store of all Cellars, least recently filled first (R366). -/
  pf : List PfBlock
  /-- Posted writes sent on as DMWrs and not completed (R362). -/
  npw : List NpwWrite
  /-- Requests split under R376 whose parts are not all complete. -/
  splits : List NpwWrite
  /-- What hosts program in each partition's endpoint. -/
  parts : Store PartSt
  /-- Binding table (R402), 4,096 entries. -/
  bind : Store BindEntry
  /-- The held D0 value with its entry (R403). -/
  bindHeld : Option (Nat × Word)
  /-- Instances 0 to 2,047 (R397). -/
  insts : Store InstSt
  /-- TTU caches, keyed by Cellar·4096 + set (R406). -/
  ttu : Store (List TtuEntry)
  /-- Translations that hit since the last step of TTU_CNT0.HITS, by Cellar (Table 11.19). -/
  ttuHits : Store Nat
  /-- Walks running (R407). -/
  walks : List Walk
  /-- Invalidation in progress (R410). -/
  inval : Option Inval
  /-- BAR2 writes that have passed the ordering point and are not committed (R410), oldest first. -/
  bar2 : List Bar2Write
  /-- HBM contents by byte address; an unlisted byte reads 0 (R346 for the shared window; log 9 elsewhere). -/
  hbm : List Host.Cell
  /-- HBM region map (R42): base and size of spill 0, shared 1, trace 2, tables 3, replay 4, journal 5. -/
  regions : Store (Nat × Nat)
  /-- Ports P0 to P63. -/
  ports : Store PortSt
  /-- Lanes L0 to L159, and ML0 to ML7 as 160 to 167. -/
  lanes : Store LaneSt
  /-- Schedule control. -/
  sched : SchedSt
  /-- Queues 0 to 511 (Cellar·128 + q). -/
  queues : Store QueueSt
  /-- Best-effort pointer of each port and PRIO level (R218), keyed 8·port + level. -/
  prioPtr : Store Nat
  /-- Link layers of FFL ports 0 to 63 and of MP0, MP1 (64, 65). -/
  ffl : Store FflSt
  /-- Transmit streams (R296). -/
  tx : Store TxStream
  /-- Receive streams (R298). -/
  rx : Store RxStream
  /-- Fabric request tables of the four Cellars (R304). -/
  frt : List FrtEntry
  /-- Spill engine: round-robin Cellar of best-effort bursts, and bursts in flight (R123). -/
  spillPtr : Nat
  spillOps : List SpillOp
  /-- What passes between the moments of a tick. -/
  edge : EdgeSt
  /-- DMA channels 0 to 1,023 (Cellar·256 + channel). -/
  chans : Store ChanSt
  /-- DMA engines, keyed 2·Cellar + engine (0 read, 1 write). -/
  engs : Store EngSt
  /-- Mirror block. -/
  mir : MirSt
  /-- Boot flash by byte offset (R186); an unlisted byte is erased and reads 0xFF. -/
  flash : List Host.Cell
  /-- Trust block. -/
  trust : TrustSt
  /-- Ageing and margins. -/
  age : AgeSt
  /-- Fabric time of the last decay of lane scores (R250). -/
  decayAt : Option Nat
  /-- Offset of the last exchange with the FFL or mirror time source, not yet applied (R281, R614). -/
  timeSample : Option Int
  /-- The management complex runs and answers (R552, R631). -/
  mgmtUp : Bool
  /-- Record buffers of the samplers of all Cellars, oldest match first (R602). -/
  trace : List TraceRec
  /-- Model tick of a device-wide snapshot that is pending (R597). -/
  snapAt : Option Nat
  /-- Slots 0 to 39. -/
  slots : Store SlotSt
  /-- Limder. -/
  spc : SpcSt
  /-- Time discipline. -/
  clk : ClkSt
  /-- Supply monitor and power domains. -/
  pwr : PwrSt
  /-- Resets and boot sequence. -/
  boot : BootSt
  /-- Messages to a host that wait for its upstream port to leave Recovery, by port, oldest first (R247). -/
  heldOut : List (Nat × Output)
  /-- Bytes of the shared window written while a transfer with a list runs, as HBM address and length (R455). -/
  listDirty : List (Nat × Nat)
  deriving DecidableEq, Repr

/-- The machine right after reset: every register at its reset value (an unlisted register holds it), nothing stored,
queued or in flight, every port absent, boot about to run its first step (R624, R632). Values that the spec does not give
are named in log 12 to 14. -/
def State.reset : State :=
  { pending := [],
    regs := [],
    heldRegs := [],
    latches := [],
    ticks := 0,
    fabric := 0,
    out := [],
    free := 0,
    firing := [],
    flt := { log := [], seq := 0, last := [], aer := [], lees := [], late := [], pulseEnd := none },
    ept := [],
    packets := [],
    nextId := 0,
    order := 0,
    wseq := [],
    trk := [],
    openW := [],
    fences := [],
    swb := [],
    resv := [],
    pf := [],
    npw := [],
    splits := [],
    parts := [],
    bind := [],
    bindHeld := none,
    insts := [],
    ttu := [],
    ttuHits := [],
    walks := [],
    inval := none,
    bar2 := [],
    hbm := [],
    regions := [],
    ports := [],
    lanes := [],
    sched := { active := none, epoch := 0, slots := [], load := none, arm := none, fb := none, events := [], spinePtr := [], accWin := [], spineUsed := [] },
    queues := [],
    prioPtr := [],
    ffl := [],
    tx := [],
    rx := [],
    frt := [],
    spillPtr := 0,
    spillOps := [],
    edge := EdgeSt.init,
    chans := [],
    engs := [],
    mir := MirSt.init,
    flash := [],
    trust := TrustSt.init,
    age := AgeSt.init,
    decayAt := none,
    timeSample := none,
    mgmtUp := false,
    trace := [],
    snapAt := none,
    slots := [],
    spc := SpcSt.init,
    clk := { acc := 0, good := 0, lastAt := 0, ptmAt := 0 },
    pwr := { sampleAt := none, below := [], warning := [], gating := [], waking := [], thermtrip := false },
    boot := { step := 1, since := 0, cold := true, warm := none, fatal := false },
    heldOut := [],
    listDirty := [] }

end Sys2Proof.Machine
end

