-- ==== Sys2Proof/Machine/Ops.lean ====
section
/-! DEFINITION. The named operations over stores, registers, time and output that every meaning uses. -/

namespace Sys2Proof.Machine

/-! ## Sparse stores in canonical form -/

/-- The value of key `k`, `d k` where the store does not list it. -/
def storeGet {α : Type} (d : Nat → α) : Store α → Nat → α
  | [], k => d k
  | (j, v) :: r, k => if j = k then v else storeGet d r k

/-- Remove key `k`. -/
def storeErase {α : Type} (m : Store α) (k : Nat) : Store α := m.filter fun e => e.1 != k

/-- Insert or replace key `k`, keeping the keys in rising order. -/
def storeInsert {α : Type} : Store α → Nat → α → Store α
  | [], k, x => [(k, x)]
  | (j, v) :: r, k, x =>
    if j = k then (k, x) :: r else if k < j then (k, x) :: (j, v) :: r else (j, v) :: storeInsert r k x

/-- Write `x` at key `k`: writing the default removes the entry, so equal stores are equal data. -/
def storeSet {α : Type} [DecidableEq α] (d : Nat → α) (m : Store α) (k : Nat) (x : α) : Store α :=
  if x = d k then storeErase m k else storeInsert m k x

/-- Canonical form of a store: keys strictly rising, no entry equal to its default. -/
def storeWf {α : Type} [DecidableEq α] (d : Nat → α) : Store α → Bool
  | [] => true
  | [(j, v)] => decide (v ≠ d j)
  | (j, v) :: (k, w) :: r => decide (v ≠ d j) && decide (j < k) && storeWf d ((k, w) :: r)

/-! ## Bits -/

/-- Bits `hi` to `lo` of a register value (R3). -/
def bitsOf (v : Dword) (hi lo : Nat) : Nat := (v.toNat >>> lo) % 2 ^ (hi + 1 - lo)

/-- The register value with bits `hi` to `lo` replaced by `x`. -/
def bitsPut (v : Dword) (hi lo x : Nat) : Dword :=
  let m : Dword := (BitVec.ofNat 64 (2 ^ (hi + 1 - lo) - 1)) <<< lo
  (v &&& ~~~ m) ||| ((BitVec.ofNat 64 x) <<< lo &&& m)

/-- Bit `b` of a number. -/
def bitAt (x b : Nat) : Bool := x.testBit b

/-- The number with bit `b` set. -/
def bitSet (x b : Nat) : Nat := x ||| (1 <<< b)

/-- The number with bit `b` clear. -/
def bitClr (x b : Nat) : Nat := if x.testBit b then x - (1 <<< b) else x

/-- Two's complement 32-bit value of a register field as an integer. -/
def toInt32 (x : Nat) : Int := if x < 0x80000000 then (x : Int) else (x : Int) - 0x100000000

/-- 32-bit two's complement encoding of an integer. -/
def ofInt32 (x : Int) : Nat := (x % 0x100000000).toNat

/-- Two's complement 64-bit value. -/
def toInt64 (x : Nat) : Int := if x < 0x8000000000000000 then (x : Int) else (x : Int) - 0x10000000000000000

/-- 64-bit two's complement encoding. -/
def ofInt64 (x : Int) : Nat := (x % 0x10000000000000000).toNat

/-- `n` bytes of a number, low byte first (R4). -/
def leBytes : Nat → Nat → List Byte
  | 0, _ => []
  | n + 1, x => BitVec.ofNat 8 x :: leBytes n (x / 256)

/-- The number that little-endian bytes spell (R4). -/
def leNat : List Byte → Nat
  | [] => 0
  | b :: r => b.toNat + 256 * leNat r

/-- Pieces of `n` bytes from offset `o`, each of at most `m` bytes. -/
def cuts : Nat → Nat → Nat → Nat → List (Nat × Nat)
  | 0, _, _, _ => []
  | fuel + 1, o, n, m => if n = 0 then [] else (o, min n (max 1 m)) :: cuts fuel (o + min n (max 1 m)) (n - min n (max 1 m)) m

/-! ## Pages (R55, R79) -/

/-- Page index of a block of a domain (R55). -/
def pageIx (domain block : Nat) : Nat := domain * 256 + block

/-- Page index of a block of Cellar Cc (domain c + 1, Table 2.1). -/
def celPage (c block : Nat) : Nat := pageIx (c + 1) block

def pgGLB : Nat := 0x000
def pgCLK : Nat := 0x001
def pgRST : Nat := 0x002
def pgPWR : Nat := 0x003
def pgSPN : Nat := 0x004
def pgFWD : Nat := 0x010
def pgSPL : Nat := 0x011
def pgACC : Nat := 0x012
def pgFLT : Nat := 0x013
def pgTRU : Nat := 0x014
def pgAGE : Nat := 0x015
def pgMIR : Nat := 0x016
def pgVIM : Nat := 0x017
def pgHBMM : Nat := 0x502
def pgSPC : Nat := 0x600
/-- The device-wide schedule set of R184, under a page index that no access uses. -/
def pgDEVSCH : Nat := 0x800
/-- The device-wide snapshot set of Table 18.4. -/
def pgDEVPMU : Nat := 0x801
/-- WIN page of window `w` (R87). -/
def pgWIN (w : Nat) : Nat := 0x040 + w / 128
/-- VIM page of instance `i`. -/
def pgVIMI (i : Nat) : Nat := 0x080 + i / 64
def pgCEL (c : Nat) : Nat := celPage c 0x00
def pgBUF (c : Nat) : Nat := celPage c 0x01
def pgSCH (c : Nat) : Nat := celPage c 0x02
/-- QSH page of local port `p` of Cellar `c` (Table 6.1). -/
def pgQSH (c p : Nat) : Nat := celPage c (0x03 + p / 8)
/-- LNK page of device port `n`. -/
def pgLNK (n : Nat) : Nat := celPage (n / 16) (0x10 + n % 16)
/-- FFL page of device port `n`. -/
def pgFFL (n : Nat) : Nat := celPage (n / 16) (0x20 + n % 16)
def pgFTX (c : Nat) : Nat := celPage c 0x30
def pgDMA (c : Nat) : Nat := celPage c 0x40
/-- Channel page of channel `ch` of Cellar `c` (R426). -/
def pgDMAC (c ch : Nat) : Nat := celPage c (0x48 + ch / 32)
def pgTTU (c : Nat) : Nat := celPage c 0x50
def pgPMUC (c : Nat) : Nat := celPage c 0x60
def pgPMUT (c : Nat) : Nat := celPage c 0x61
/-- Slot account page of local port `p` of Cellar `c`. -/
def pgPMUA (c p : Nat) : Nat := celPage c (0x62 + p / 8)
/-- Slot page of SLOTs. -/
def pgSLOT (s : Nat) : Nat := 0x610 + s
/-- Instance control page of instance `i` (VF BAR0), under an index that no BAR0 access uses. -/
def pgIC (i : Nat) : Nat := 0x1000 + i

/-- Page type of a page index; none for an unimplemented page (R56, Table 2.7). -/
def pageKind (x : Nat) : Option PageKind :=
  let d := x / 256
  let b := x % 256
  if x = pgDEVSCH then some .sch
  else if x = pgDEVPMU then some .pmuc
  else if 0x1000 ≤ x then some .ic
  else if d = 0 then
    (if b = 0x00 then some .glb else if b = 0x01 then some .clk else if b = 0x02 then some .rst
     else if b = 0x03 then some .pwr else if b = 0x04 then some .spn else if b = 0x10 then some .fwd
     else if b = 0x11 then some .spl else if b = 0x12 then some .acc else if b = 0x13 then some .flt
     else if b = 0x14 then some .tru else if b = 0x15 then some .age else if b = 0x16 then some .mir
     else if b = 0x17 then some .vim else if 0x40 ≤ b ∧ b ≤ 0x7F then some .win
     else if 0x80 ≤ b ∧ b ≤ 0x9F then some .vimi else none)
  else if d ≤ 4 then
    (if b = 0x00 then some .cel else if b = 0x01 then some .buf else if b = 0x02 then some .sch
     else if b = 0x03 ∨ b = 0x04 then some .qsh else if 0x10 ≤ b ∧ b ≤ 0x1F then some .lnk
     else if 0x20 ≤ b ∧ b ≤ 0x2F then some .ffl else if b = 0x30 then some .ftx else if b = 0x40 then some .dma
     else if 0x48 ≤ b ∧ b ≤ 0x4F then some .dmac else if b = 0x50 then some .ttu else if b = 0x60 then some .pmuc
     else if b = 0x61 then some .pmut else if b = 0x62 ∨ b = 0x63 then some .pmua else none)
  else if d = 5 then
    (if b ≤ 1 then some .hbmc else if b = 2 then some .hbmm else none)
  else if d = 6 then
    (if b = 0 then some .spc else if 0x10 ≤ b ∧ b ≤ 0x37 then some .spcs else none)
  else if d = 7 then
    (if b = 0 then some .mgt else if 0x10 ≤ b ∧ b ≤ 0x27 then some .mgtm else none)
  else none

/-- The register definition of a page type that holds byte offset `o`, with the index of the copy. -/
def findReg : List RegDef → Nat → Option (RegDef × Nat)
  | [], _ => none
  | r :: rs, o =>
    let w := if r.wide then 8 else 4
    if r.stride = 0 then (if r.off ≤ o ∧ o < r.off + w then some (r, 0) else findReg rs o)
    else
      let i := (o - r.off) / r.stride
      if r.off ≤ o ∧ i < r.count ∧ (o - r.off) % r.stride < w then some (r, i) else findReg rs o

/-- Registers of a page type, header first; the instance control page has no header (Table 11.9). -/
def allRegs (k : PageKind) : List RegDef :=
  match k with
  | .ic => pageRegs k
  | _ => regsHDR ++ pageRegs k

/-- Register at byte offset `o` of a page, with the copy index. -/
def regAt (page o : Nat) : Option (RegDef × Nat) :=
  match pageKind page with
  | none => none
  | some k => findReg (allRegs k) o

/-- Reset value of FLT_SEVn: the reset classes of the page's sources (R72, Table 2.3). -/
def sevReset (k : PageKind) (n : Nat) : Nat :=
  (List.range 8).foldl (fun a j => a + (k.faults.getD (8 * n + j) 0) * 16 ^ j) 0

/-- Reset value of the register at a key (page · 4096 + offset). -/
def regReset (key : Nat) : Dword :=
  let page := key / 4096
  let o := key % 4096
  match pageKind page with
  | none => 0
  | some k =>
    if k ≠ .ic ∧ 0x050 ≤ o ∧ o < 0x060 then BitVec.ofNat 64 (sevReset k ((o - 0x050) / 4))
    else match findReg (allRegs k) o with
      | none => 0
      | some (r, _) => BitVec.ofNat 64 r.reset

/-- `n` bytes of the free value numbered `k` (log 4). -/
def freeBytesN (k n : Nat) : List Byte := (List.range n).map fun i => (Config.freeBytes k).getD i 0

namespace State

/-- Value of the register at BAR0 offset key `k`, as stored. -/
def reg (s : State) (k : Nat) : Dword := storeGet regReset s.regs k

/-- Store a register value. -/
def setReg (s : State) (k : Nat) (v : Dword) : State := { s with regs := storeSet regReset s.regs k v }

/-- Key of copy `i` of a field's register in a page. -/
def fkey (page : Nat) (f : FRef) (i : Nat) : Nat := page * 4096 + f.off + f.stride * i

/-- Field `f`, copy `i`, of a page. -/
def getF (s : State) (page : Nat) (f : FRef) (i : Nat := 0) : Nat := bitsOf (s.reg (fkey page f i)) f.hi f.lo

/-- Set field `f`, copy `i`, of a page. -/
def setF (s : State) (page : Nat) (f : FRef) (v : Nat) (i : Nat := 0) : State :=
  s.setReg (fkey page f i) (bitsPut (s.reg (fkey page f i)) f.hi f.lo v)

/-- A one-bit field as a Boolean. -/
def flag (s : State) (page : Nat) (f : FRef) (i : Nat := 0) : Bool := s.getF page f i == 1

/-- Set a one-bit field from a Boolean. -/
def setFlag (s : State) (page : Nat) (f : FRef) (b : Bool) (i : Nat := 0) : State := s.setF page f b.toNat i

/-- Largest value of a field. -/
def fmax (f : FRef) : Nat := 2 ^ (f.hi + 1 - f.lo) - 1

/-- Add to a saturating count field. -/
def addF (s : State) (page : Nat) (f : FRef) (n : Nat := 1) (i : Nat := 0) : State :=
  s.setF page f (satAdd (fmax f) (s.getF page f i) n) i

/-- Field `j` of a packed register: bits moved up by `w` per step. -/
def getP (s : State) (page : Nat) (f : FRef) (w j : Nat) (i : Nat := 0) : Nat :=
  bitsOf (s.reg (fkey page f i)) (f.hi + w * j) (f.lo + w * j)

/-- Set field `j` of a packed register. -/
def setP (s : State) (page : Nat) (f : FRef) (w j v : Nat) (i : Nat := 0) : State :=
  s.setReg (fkey page f i) (bitsPut (s.reg (fkey page f i)) (f.hi + w * j) (f.lo + w * j) v)

/-- Append to what has left the package. -/
def emit (s : State) (o : Output) : State := { s with out := o :: s.out }

/-- Append each of a list. -/
def emitAll (s : State) (l : List Output) : State := { s with out := l.reverse ++ s.out }

/-- Draw a value the spec leaves open (log 4). -/
def draw (s : State) : Nat × State := (Config.free s.free, { s with free := s.free + 1 })

/-- Draw a byte string the spec leaves open (log 4). -/
def drawBytes (s : State) : List Byte × State := (Config.freeBytes s.free, { s with free := s.free + 1 })

/-- Fault source `bit` of a page fires for real with a partition and a port (R457, R458). -/
def fire (s : State) (page bit : Nat) (part : Nat := 31) (port : Nat := 63) : State :=
  { s with firing := s.firing ++ [⟨page * 32 + bit, part, port, true, false⟩] }

/-- Fault source fires by software (R457). -/
def fireForced (s : State) (page bit : Nat) (part port : Nat) : State :=
  { s with firing := s.firing ++ [⟨page * 32 + bit, part, port, false, true⟩] }

/-- Apply a state change for each element of a list, in order. -/
def each {α : Type} (s : State) (l : List α) (f : State → α → State) : State := l.foldl f s

/-- A change made only when a condition holds. -/
def onlyIf (s : State) (b : Bool) (f : State → State) : State := if b then f s else s

end State

/-! ## Ports and Cellars -/

/-- Cellar of a device port (R16). -/
def cellarOf (port : Nat) : Nat := port / 16

/-- Port number that a report carries: 0x3F for everything but a device port (Table 13.1). -/
def portTag (ing : Nat) : Nat := if ing < 64 then ing else 63

/-- Port of a firing that concerns a packet: 0x3F for a fabric arrival as well (Table 13.1). -/
def faultPort (p : Packet) : Nat :=
  match p.ini with
  | .fabric _ _ _ _ => 63
  | .port _ _ _ | .cxl _ | .chan _ | .block _ => portTag p.ing

namespace State

/-- State code of a Cellar: 0 RUN, 1 HELD, 2 GATED, 3 CHANGING (Table 1.6). -/
def cellarState (s : State) (c : Nat) : Nat := (s.reg (pgGLB * 4096 + 0x204)).toNat / 4 ^ c % 4

/-- The Cellar is in RUN. -/
def cellarRun (s : State) (c : Nat) : Bool := s.cellarState c == 0

/-- Set a Cellar's state code in GLB_CEL_STS. -/
def setCellarState (s : State) (c v : Nat) : State :=
  s.setReg (pgGLB * 4096 + 0x204) (bitsPut (s.reg (pgGLB * 4096 + 0x204)) (2 * c + 1) (2 * c) v)

/-- Set a Cellar's mode field in GLB_CEL_CTL. -/
def setCellarMode (s : State) (c v : Nat) : State :=
  s.setReg (pgGLB * 4096 + 0x200) (bitsPut (s.reg (pgGLB * 4096 + 0x200)) (2 * c + 1) (2 * c) v)

/-- Port state of device port `p`. -/
def port (s : State) (p : Nat) : PortSt := storeGet (fun _ => PortSt.init) s.ports p

/-- Replace a port's state. -/
def setPort (s : State) (p : Nat) (x : PortSt) : State :=
  { s with ports := storeSet (fun _ => PortSt.init) s.ports p x }

/-- Change a port's state. -/
def modPort (s : State) (p : Nat) (f : PortSt → PortSt) : State := s.setPort p (f (s.port p))

/-- The port is configured: LNK_CFG.EN (R18, Table 7.2). -/
def portEn (s : State) (p : Nat) : Bool := decide (p < 64) && s.flag (pgLNK p) LNK_CFG.EN

/-- ROLE of a port: 0 downstream, 1 upstream, 2 FFL. -/
def portRole (s : State) (p : Nat) : Nat := s.getF (pgLNK p) LNK_CFG.ROLE

def isUp (s : State) (p : Nat) : Bool := s.portEn p && s.portRole p == 1
def isDown (s : State) (p : Nat) : Bool := s.portEn p && s.portRole p == 0
def isFfl (s : State) (p : Nat) : Bool := s.portEn p && s.portRole p == 2

/-- Partition that owns a port (R84); 31 for an FFL or absent port. -/
def portPart (s : State) (p : Nat) : Nat :=
  if s.portEn p && s.portRole p != 2 then s.getF (pgLNK p) LNK_CFG.PART else 31

/-- The port is disabled or absent (R249). -/
def portDisabled (s : State) (p : Nat) : Bool := !s.portEn p || s.flag (pgLNK p) LNK_CTL.DISABLE

/-- Local port number in its Cellar. -/
def localPort (p : Nat) : Nat := p % 16

/-- Global queue of a port and traffic class (R118, R215): 128 · Cellar + 8 · local port + class. -/
def queueOf (p tc : Nat) : Nat := 128 * cellarOf p + 8 * localPort p + tc % 8

/-- Order of acceptance, by tick and then by packet number (R141, R289). -/
def ahead (x y : Nat × Nat) : Bool := decide (x.1 < y.1 ∨ x.1 = y.1 ∧ x.2 < y.2)

/-- Stream descriptor of a global queue in the active Vintage (R140). -/
def streamOf (s : State) (q : Nat) : StreamDesc :=
  match s.sched.active with
  | none => StreamDesc.off
  | some v => storeGet (fun _ => StreamDesc.off) v.streams q

/-- Device ports of a Cellar. -/
def cellarPorts (c : Nat) : List Nat := (List.range 16).map (16 * c + ·)

/-- Upstream port of a partition (R388). -/
def upPort (s : State) (k : Nat) : Option Nat :=
  (List.range 64).find? fun p => s.isUp p && s.portPart p == k

/-- The partition is configured (R388). -/
def partOn (s : State) (k : Nat) : Bool := decide (k < 24) && (s.upPort k).isSome

/-- Link state code of a PCIe port (Table 7.5), or the FFL state of an FFL port (Table 8.14). -/
def linkState (s : State) (p : Nat) : Nat := s.getF (pgLNK p) LNK_STS.STATE

/-- The port is in L0 (or L0p), or ACTIVE for an FFL port. -/
def inL0 (s : State) (p : Nat) : Bool :=
  if s.isFfl p then s.getF (pgFFL p) FFL_STS.STATE == 3 else s.linkState p == 3 || s.linkState p == 4

/-- The port cannot take traffic (R109). -/
def noTraffic (s : State) (p : Nat) : Bool :=
  let down := if s.isFfl p then s.flag (pgFFL p) FFL_STS.LDOWN else s.flag (pgLNK p) LNK_STS.LDOWN
  s.portDisabled p || down || !(s.port p).everL0 || (s.port p).dpc || !s.cellarRun (cellarOf p)

/-- Partition record. -/
def part (s : State) (k : Nat) : PartSt := storeGet (fun _ => PartSt.init) s.parts k

/-- Change a partition record. -/
def modPart (s : State) (k : Nat) (f : PartSt → PartSt) : State :=
  { s with parts := storeSet (fun _ => PartSt.init) s.parts k (f (s.part k)) }

/-- Queue record. -/
def queue (s : State) (q : Nat) : QueueSt := storeGet (fun _ => ⟨0, none⟩) s.queues q

/-- Change a queue record. -/
def modQueue (s : State) (q : Nat) (f : QueueSt → QueueSt) : State :=
  { s with queues := storeSet (fun _ => ⟨0, none⟩) s.queues q (f (s.queue q)) }

/-- Link layer of an FFL or mirror port. -/
def fflSt (s : State) (p : Nat) : FflSt := storeGet (fun _ => FflSt.init) s.ffl p

/-- Change a link layer. -/
def modFfl (s : State) (p : Nat) (f : FflSt → FflSt) : State :=
  { s with ffl := storeSet (fun _ => FflSt.init) s.ffl p (f (s.fflSt p)) }

/-- Instance record. -/
def inst (s : State) (i : Nat) : InstSt := storeGet (fun _ => InstSt.init) s.insts i

/-- Change an instance record. -/
def modInst (s : State) (i : Nat) (f : InstSt → InstSt) : State :=
  { s with insts := storeSet (fun _ => InstSt.init) s.insts i (f (s.inst i)) }

/-- Lane record. -/
def lane (s : State) (l : Nat) : LaneSt := storeGet (fun _ => LaneSt.init) s.lanes l

/-- Change a lane record. -/
def modLane (s : State) (l : Nat) (f : LaneSt → LaneSt) : State :=
  { s with lanes := storeSet (fun _ => LaneSt.init) s.lanes l (f (s.lane l)) }

/-! ## HBM -/

/-- Stack and pseudo-channel of an HBM address (R41): bits 0 and 5 to 1 of its 256 B unit. -/
def hbmStack (a : Nat) : Nat := a / 256 % 2
def hbmChannel (a : Nat) : Nat := a / 512 % 32

/-- A byte of HBM (R41). -/
def hbmByte (s : State) (a : Nat) : Byte := storeGet (fun _ => (0 : Byte)) s.hbm a

/-- Write a byte of HBM. -/
def setHbm (s : State) (a : Nat) (b : Byte) : State := { s with hbm := storeSet (fun _ => (0 : Byte)) s.hbm a b }

/-- Write the bytes that a list gives from an address; absent bytes are left alone. -/
def hbmWrite (s : State) (a : Nat) : List (Option Byte) → State
  | [] => s
  | none :: r => s.hbmWrite (a + 1) r
  | some b :: r => (s.setHbm a b).hbmWrite (a + 1) r

/-- Read `n` bytes of HBM. -/
def hbmRead (s : State) (a n : Nat) : List Byte := (List.range n).map fun i => s.hbmByte (a + i)

/-- Entries of a store for a run of bytes from address `a`: none for a byte that an unlisted address reads as. -/
def hbmRun : Nat → List Byte → Store Byte
  | _, [] => []
  | a, b :: r => if b = 0 then hbmRun (a + 1) r else (a, b) :: hbmRun (a + 1) r

/-- Write a run of bytes whole, in one pass over the store. -/
def hbmPut (s : State) (a : Nat) (bs : List Byte) : State :=
  { s with hbm := s.hbm.filter (fun e => decide (e.1 < a)) ++ hbmRun a bs ++ s.hbm.filter fun e => decide (a + bs.length ≤ e.1) }

/-- Base of an HBM region (R42). -/
def regionBase (s : State) (r : Nat) : Nat := (storeGet (fun _ => (0, 0)) s.regions r).1

/-- Size of an HBM region; 0 when it is absent (R42). -/
def regionSize (s : State) (r : Nat) : Nat := (storeGet (fun _ => (0, 0)) s.regions r).2

/-! ## Packets -/

/-- The packet with an identifier. -/
def packet? (s : State) (id : Nat) : Option Packet := s.packets.find? (·.id == id)

/-- Change the packet with an identifier. -/
def modPacket (s : State) (id : Nat) (f : Packet → Packet) : State :=
  { s with packets := s.packets.map fun p => if p.id == id then f p else p }

/-- Take a packet out. -/
def dropPacket (s : State) (id : Nat) : State := { s with packets := s.packets.filter (·.id != id) }

/-- The ingress has found the packet bad: its last cell is there (R115). -/
def foundBad (s : State) (p : Packet) : Bool := p.bad && decide (p.acc.getLastD 0 ≤ s.fabric)

/-- Packets of an egress queue, in the order in which they passed the ordering point (R215). -/
def inQueue (s : State) (q : Nat) : List Packet := s.packets.filter fun p => p.place == .egress && p.queue == q

end State

/-! ## Packet classes -/

/-- Flow-control class: 0 posted, 1 non-posted, 2 completion. -/
def tlpCls (t : Tlp) : Nat :=
  match t.kind with
  | .mwr | .msgId | .msgRoot | .msgBroadcast | .msgLocal => 0
  | .mrd | .atomic | .dmwr | .io | .cfg | .cxlRd | .cxlWr => 1
  | .cpl => 2

/-- The packet is a request that a completion answers. -/
def nonPosted (t : Tlp) : Bool := tlpCls t == 1

/-- A posted memory write. -/
def isWrite (t : Tlp) : Bool := t.kind == .mwr

/-- A message of any routing. -/
def isMsg (t : Tlp) : Bool :=
  t.kind == .msgId || t.kind == .msgRoot || t.kind == .msgBroadcast || t.kind == .msgLocal

/-- REQ code of Tables 3.20 and 10.16. A configuration request, for which Table 3.20 has no code, is entered as a message (DESIGN CHOICE, log 30). -/
def reqCode (t : Tlp) : Nat :=
  match t.kind with
  | .mrd => 0
  | .mwr => 1
  | .atomic => 2
  | .dmwr => 3
  | .io | .cfg | .msgId | .msgRoot | .msgBroadcast | .msgLocal | .cxlRd | .cxlWr | .cpl => 4

/-- REQ code of a request that FWD captures: 5 for every arrival over the fabric (Table 3.20). -/
def fwdReq (p : Packet) : Nat :=
  match p.ini with
  | .fabric _ _ _ _ => 5
  | .port _ _ _ | .cxl _ | .chan _ | .block _ => reqCode p.tlp

/-- Cells that T bytes occupy (R23). -/
def cellsOf (bytes : Nat) : Nat := max 1 (ceilDiv bytes 236)

/-- Bytes a packet itself carries: header, prefixes, payload (R23). -/
def tlpBytes (t : Tlp) : Nat := t.hdr + t.data.length

/-- End of a meaning that always completes. -/
abbrev Res := Host.Outcome State Fault Refusal

end Sys2Proof.Machine
end

