-- ==== Sys2Proof/Machine/Crypto.lean ====
section
/-! DEFINITION. The cryptographic functions that other standards fix (R10, Table 0.4): SHA-384 of FIPS 180-4 and ECDSA P-384 of FIPS 186-5. -/

namespace Sys2Proof.Machine

/-- `k n`, with `n` computed first. -/
def forced {α : Type} (n : Nat) (k : Nat → α) : α :=
  match n with
  | 0 => k 0
  | m + 1 => k (m + 1)

/-- The number that bytes spell, the first the highest. -/
def beNat (l : List Byte) : Nat := l.foldl (fun a b => 256 * a + b.toNat) 0

/-- `n` bytes of a number, the highest first. -/
def beBytes (n x : Nat) : List Byte := (leBytes n x).reverse

/-! ## SHA-384 (FIPS 180-4) -/

/-- Newton's iteration for the whole part of the cube root of `n`, from above. -/
def cubeRoot (n : Nat) : Nat → Nat → Nat
  | 0, x => x
  | f + 1, x => forced ((2 * x + n / (x * x)) / 3) fun y => if y < x then cubeRoot n f y else x

/-- The same for the square root. -/
def squareRoot (n : Nat) : Nat → Nat → Nat
  | 0, x => x
  | f + 1, x => forced ((x + n / x) / 2) fun y => if y < x then squareRoot n f y else x

/-- No prime below 21 other than itself divides the number: up to 440 such numbers are the primes and 1. -/
def primeBelow440 (p : Nat) : Bool := [2, 3, 5, 7, 11, 13, 17, 19].all fun q => Nat.beq p q || !Nat.beq (p % q) 0

/-- The first eighty primes. -/
def shaPrimes : List Nat := (List.range' 2 408).filter primeBelow440

/-- The round constants: the first 64 bits of the fractional parts of the cube roots of the first eighty primes (FIPS 180-4, 4.2.3). -/
def shaConstants : List Nat := shaPrimes.map fun p => cubeRoot (p * 2 ^ 192) 20 (2 ^ 67) % 2 ^ 64

/-- The initial hash value of SHA-384: the same of the square roots of the ninth to sixteenth primes (FIPS 180-4, 5.3.4). -/
def shaInit : List Nat := ((shaPrimes.drop 8).take 8).map fun p => squareRoot (p * 2 ^ 128) 20 (2 ^ 70) % 2 ^ 64

/-- A 64-bit word turned right. -/
def rotr64 (x n : Nat) : Nat := (x >>> n ||| x <<< (64 - n)) % 2 ^ 64

/-- The functions of FIPS 180-4, section 4.1.3. -/
def shaS0 (x : Nat) : Nat := rotr64 x 28 ^^^ rotr64 x 34 ^^^ rotr64 x 39
def shaS1 (x : Nat) : Nat := rotr64 x 14 ^^^ rotr64 x 18 ^^^ rotr64 x 41
def shaR0 (x : Nat) : Nat := rotr64 x 1 ^^^ rotr64 x 8 ^^^ x >>> 7
def shaR1 (x : Nat) : Nat := rotr64 x 19 ^^^ rotr64 x 61 ^^^ x >>> 6
def shaCh (e f g : Nat) : Nat := e &&& f ^^^ (e ^^^ (2 ^ 64 - 1)) &&& g
def shaMaj (a b c : Nat) : Nat := a &&& b ^^^ a &&& c ^^^ b &&& c

/-- `n` further words of the message schedule, the newest first. -/
def shaSchedule : Nat → List Nat → List Nat
  | 0, l => l
  | n + 1, l => forced ((shaR1 (l.getD 1 0) + l.getD 6 0 + shaR0 (l.getD 14 0) + l.getD 15 0) % 2 ^ 64) fun w => shaSchedule n (w :: l)

/-- The working variables of a block. -/
structure ShaVars where
  a : Nat
  b : Nat
  c : Nat
  d : Nat
  e : Nat
  f : Nat
  g : Nat
  h : Nat

/-- The rounds over constants and schedule words. -/
def shaRounds : List Nat → List Nat → ShaVars → ShaVars
  | k :: ks, w :: ws, v =>
    forced (v.h + shaS1 v.e + shaCh v.e v.f v.g + k + w) fun t1 =>
    forced ((t1 + shaS0 v.a + shaMaj v.a v.b v.c) % 2 ^ 64) fun a =>
    forced ((v.d + t1) % 2 ^ 64) fun e => shaRounds ks ws ⟨a, v.a, v.b, v.c, e, v.e, v.f, v.g⟩
  | _, _, v => v

/-- The hash value after a block of 16 words, the last word first. -/
def shaBlock (v : ShaVars) (words : List Nat) : ShaVars :=
  let r := shaRounds shaConstants (shaSchedule 64 words).reverse v
  forced ((v.a + r.a) % 2 ^ 64) fun a => forced ((v.b + r.b) % 2 ^ 64) fun b => forced ((v.c + r.c) % 2 ^ 64) fun c =>
  forced ((v.d + r.d) % 2 ^ 64) fun d => forced ((v.e + r.e) % 2 ^ 64) fun e => forced ((v.f + r.f) % 2 ^ 64) fun f =>
  forced ((v.g + r.g) % 2 ^ 64) fun g => forced ((v.h + r.h) % 2 ^ 64) fun h => ⟨a, b, c, d, e, f, g, h⟩

/-- The 64-bit words of a message, in order. -/
def shaWords : Nat → List Byte → List Nat
  | 0, _ => []
  | n + 1, l => forced (beNat (l.take 8)) fun w => w :: shaWords n (l.drop 8)

/-- `n` blocks of a padded message. -/
def shaBlocks : Nat → List Nat → ShaVars → ShaVars
  | 0, _, v => v
  | n + 1, l, v => shaBlocks n (l.drop 16) (shaBlock v (l.take 16).reverse)

/-- SHA-384 of a byte list, as 48 bytes. -/
def sha384Bytes (m : List Byte) : List Byte :=
  let blocks := (m.length + 17 + 127) / 128
  let padded := m ++ 0x80 :: List.replicate (128 * blocks - 17 - m.length) 0 ++ beBytes 16 (8 * m.length)
  let v := shaBlocks blocks (shaWords (16 * blocks) padded) ⟨shaInit.getD 0 0, shaInit.getD 1 0, shaInit.getD 2 0, shaInit.getD 3 0,
    shaInit.getD 4 0, shaInit.getD 5 0, shaInit.getD 6 0, shaInit.getD 7 0⟩
  [v.a, v.b, v.c, v.d, v.e, v.f].flatMap (beBytes 8)

/-- SHA-384 as a number, its first byte the lowest (R4, R553). -/
def sha384 (m : List Byte) : Nat := leNat (sha384Bytes m)

/-! ## ECDSA P-384 (FIPS 186-5) -/

/-- The prime, the order, the coefficient and the base point of P-384. -/
def p384P : Nat := 2 ^ 384 - 2 ^ 128 - 2 ^ 96 + 2 ^ 32 - 1
def p384N : Nat :=
  0xffffffffffffffffffffffffffffffffffffffffffffffffc7634d81f4372ddf581a0db248b0a77aecec196accc52973
def p384B : Nat :=
  0xb3312fa7e23ee7e4988e056be3f82d19181d9c6efe8141120314088f5013875ac656398d8a2ed19d2a85c8edd3ec2aef
def p384X : Nat :=
  0xaa87ca22be8b05378eb1c71ef320ad746e1d3b628ba79b9859f741e082542a385502f25dbf55296c3a545e3872760ab7
def p384Y : Nat :=
  0x3617de4a96262c6f5d9e98bf9292dc29f8f41dbd289a147ce9da3113b5f0b8c00a60b1ce1d7e819d7a431d7c90ea0e5f

/-- A point in Jacobian coordinates; z = 0 is the point at infinity. -/
structure Jac where
  x : Nat
  y : Nat
  z : Nat

/-- The point at infinity. -/
def Jac.zero : Jac := ⟨1, 1, 0⟩

/-- A difference modulo the prime. -/
def subP (a b : Nat) : Nat := (a + p384P - b) % p384P

/-- Twice a point (a = −3). -/
def jacDouble (q : Jac) : Jac :=
  forced (q.z * q.z % p384P) fun d =>
  forced (q.y * q.y % p384P) fun g =>
  forced (q.x * g % p384P) fun b =>
  forced (3 * (subP q.x d * (q.x + d)) % p384P) fun a =>
  forced (subP (a * a) (8 * b % p384P) % p384P) fun x =>
  forced (subP (subP ((q.y + q.z) * (q.y + q.z) % p384P) g) d) fun z =>
  forced (subP (a * subP (4 * b % p384P) x % p384P) (8 * g * g % p384P)) fun y => ⟨x, y, z⟩

/-- Sum of two points. -/
def jacAdd (q r : Jac) : Jac :=
  if q.z = 0 then r else if r.z = 0 then q
  else
    forced (q.z * q.z % p384P) fun z1 =>
    forced (r.z * r.z % p384P) fun z2 =>
    forced (q.x * z2 % p384P) fun u1 =>
    forced (r.x * z1 % p384P) fun u2 =>
    forced (q.y * r.z * z2 % p384P) fun s1 =>
    forced (r.y * q.z * z1 % p384P) fun s2 =>
    if u1 = u2 then (if s1 = s2 then jacDouble q else Jac.zero)
    else
      forced (subP u2 u1) fun h =>
      forced (subP s2 s1) fun t =>
      forced (h * h % p384P) fun h2 =>
      forced (h * h2 % p384P) fun h3 =>
      forced (u1 * h2 % p384P) fun v =>
      forced (subP (subP (t * t % p384P) h3) (2 * v % p384P)) fun x =>
      forced (subP (t * subP v x % p384P) (s1 * h3 % p384P)) fun y =>
      forced (h * q.z * r.z % p384P) fun z => ⟨x, y, z⟩

/-- `u·q + v·r` from bit `n − 1` down. -/
def jacMul2 (u v : Nat) (q r qr : Jac) : Nat → Jac → Jac
  | 0, acc => acc
  | n + 1, acc =>
    let d := jacDouble acc
    jacMul2 u v q r qr n
      (match u.testBit n, v.testBit n with
       | false, false => d
       | true, false => jacAdd d q
       | false, true => jacAdd d r
       | true, true => jacAdd d qr)

/-- `b` to the power `e` modulo `m`, over `n` bits of `e`. -/
def powMod (b e m : Nat) : Nat → Nat → Nat
  | 0, acc => acc
  | n + 1, acc => forced (if e.testBit n then acc * acc % m * b % m else acc * acc % m) fun a => powMod b e m n a

/-- Inverse modulo a prime. -/
def invMod (a m : Nat) : Nat := powMod (a % m) (m - 2) m 384 1

/-- The affine x coordinate of a point. -/
def jacX (q : Jac) : Nat := forced (invMod q.z p384P) fun i => q.x * (i * i % p384P) % p384P

/-- The affine y coordinate of a point. -/
def jacY (q : Jac) : Nat := forced (invMod q.z p384P) fun i => q.y * (i * i % p384P * i % p384P) % p384P

/-- The base point. -/
def jacBase : Jac := ⟨p384X, p384Y, 1⟩

/-- `u` times the base point. -/
def mulBase (u : Nat) : Jac := jacMul2 u 0 jacBase Jac.zero jacBase 384 Jac.zero

/-- The signature (r then s, big-endian: R553) verifies over bytes whose digest is `digest`, under a public key (x then y). -/
def ecdsaVerify (digest : Nat) (key sig : List Byte) : Bool :=
  let x := beNat (key.take 48)
  let y := beNat ((key.drop 48).take 48)
  let r := beNat (sig.take 48)
  let t := beNat ((sig.drop 48).take 48)
  if key.length = 96 ∧ sig.length = 96 ∧ 0 < r ∧ r < p384N ∧ 0 < t ∧ t < p384N ∧ x < p384P ∧ y < p384P
      ∧ y * y % p384P = (x * x % p384P * x + p384B + (p384P - 3) * x) % p384P then
    let e := beNat (leBytes 48 digest)
    forced (invMod t p384N) fun w =>
    forced (e * w % p384N) fun u =>
    forced (r * w % p384N) fun v =>
    let q : Jac := ⟨x, y, 1⟩
    let p := jacMul2 u v jacBase q (jacAdd jacBase q) 384 Jac.zero
    p.z != 0 && jacX p % p384N == r
  else false

/-- Public key of a private key, as x then y. -/
def publicKey (d : Nat) : List Byte := beBytes 48 (jacX (mulBase d)) ++ beBytes 48 (jacY (mulBase d))

/-- Signature of a digest with private key `d` and per-message number `k` (FIPS 186-5, 6.4.1), as r then s. -/
def ecdsaSign (d k digest : Nat) : List Byte :=
  let r := jacX (mulBase k) % p384N
  beBytes 48 r ++ beBytes 48 (invMod k p384N * (beNat (leBytes 48 digest) + r * d) % p384N)

end Sys2Proof.Machine
end

