-- ==== Sys2Proof/Machine/Flit.lean ====
section
/-! DEFINITION. The FFL flit as its 256 bytes (R275 to R279, Tables 8.1 to 8.4, 14.4), fabric packets and mirror records as the bytes that DATA flits
carry (R295, Tables 8.10, 14.3). -/

namespace Sys2Proof.Machine

/-! ## CRC and parity -/

/-- One bit step of the CRC-64 (R276). -/
def flitCrcBit (c : Nat) : Nat := if c.testBit 63 then (2 * c % 2 ^ 64) ^^^ 0x42F0E1EBA9EA3693 else 2 * c

/-- `n` bit steps. -/
def flitCrcBits : Nat → Nat → Nat
  | 0, c => c
  | n + 1, c => forced (flitCrcBit c) (flitCrcBits n)

/-- The bytes fed into the CRC-64 in order, each most significant bit first. -/
def flitCrcRun : List Byte → Nat → Nat
  | [], c => c
  | b :: l, c => forced (flitCrcBits 8 (c ^^^ (b.toNat * 2 ^ 56))) (flitCrcRun l)

/-- CRC-64 of a list of bytes (R276). -/
def crc64 (l : List Byte) : Nat := flitCrcRun l (2 ^ 64 - 1) ^^^ (2 ^ 64 - 1)

/-- XOR of the bits of a byte. -/
def byteParity (b : Byte) : Bool := (List.range 8).foldl (fun a i => a ^^ b.toNat.testBit i) false

/-- Lane on which byte `j` of a flit travels on a link of width `w` (R275). -/
def flitLane (w j : Nat) : Nat := j % w

/-- Parity of lane `k` over bytes 6 to 249 of a flit (R277). -/
def laneParity (w k : Nat) (f : List Byte) : Bool :=
  ((List.range 250).zip f).foldl (fun a e => if 6 ≤ e.1 ∧ flitLane w e.1 = k then a ^^ byteParity e.2 else a) false

/-! ## Fields of a received flit (Tables 8.1 to 8.3) -/

/-- TYPE, the first two bytes. -/
def flitType (f : List Byte) : Nat := leNat (f.take 2)
/-- LCTL, the next four. -/
def flitLctl (f : List Byte) : Nat := leNat ((f.drop 2).take 4)
/-- FTYPE. -/
def flitKind (f : List Byte) : Nat := flitType f / 2 ^ 12
/-- SOP. -/
def flitSop (f : List Byte) : Bool := (flitType f).testBit 11
/-- EOP. -/
def flitEop (f : List Byte) : Bool := (flitType f).testBit 10
/-- NULL, on a flit with EOP. -/
def flitNull (f : List Byte) : Bool := (flitType f).testBit 9 && flitEop f
/-- SEQ or NSEQ. -/
def flitSeq (f : List Byte) : Nat := flitLctl f / 2 ^ 20
/-- ACK. -/
def flitAck (f : List Byte) : Nat := flitLctl f / 2 ^ 8 % 4096
/-- PAYLOAD. -/
def flitPayload (f : List Byte) : List Byte := (f.drop 6).take 236
/-- The flit passes its CRC (R276). -/
def flitGood (f : List Byte) : Bool := beNat ((f.drop 242).take 8) == crc64 (f.take 242)
/-- Parity bit of lane `k` as the flit carries it: PARL for lanes 0 to 7, PARH above. -/
def flitParBit (f : List Byte) (k : Nat) : Bool := if k < 8 then (flitLctl f).testBit k else (flitType f).testBit (k - 8)
/-- Lanes of a link of width `w` whose parity mismatches (R277). -/
def flitBadLanes (w : Nat) (f : List Byte) : List Nat := (List.range (min w 16)).filter fun k => flitParBit f k != laneParity w k f

/-! ## Control messages (R279) -/

/-- CODE and body of the messages in a CTRL payload; the list ends at a CODE of 0x00, or where no whole message is left. -/
def ctrlList : Nat → List Byte → List (Nat × List Byte)
  | 0, _ => []
  | n + 1, l =>
    match l with
    | code :: len :: rest =>
      if code = 0 ∨ rest.length < len.toNat then []
      else (code.toNat, rest.take len.toNat) :: ctrlList n (rest.drop len.toNat)
    | [_] | [] => []

/-- Codes that Table 8.4 and R564 list, with those of Table 14.4 on a mirror port. -/
def ctrlListed (mirror : Bool) (code : Nat) : Bool := decide (1 ≤ code ∧ code ≤ 8) || code == 0x30 || (mirror && decide (0x20 ≤ code ∧ code ≤ 0x23))

/-- A CTRL payload carries a message with an unlisted CODE. -/
def ctrlUnknown (mirror : Bool) (l : List Byte) : Bool := (ctrlList 128 l).any fun m => !ctrlListed mirror m.1

/-- CODE and body of a message (Tables 8.4, 14.4; R564). -/
def ctrlBody (m : CtrlMsg) : Nat × List Byte :=
  match m with
  | .credit a b c => (0x01, leBytes 2 a ++ leBytes 2 b ++ leBytes 2 c ++ leBytes 2 0)
  | .nak q => (0x02, leBytes 2 q ++ leBytes 2 0)
  | .hello fdid port dsp follow echo width ident =>
    (0x03, leBytes 1 fdid ++ leBytes 1 port ++ leBytes 1 (dsp.toNat + 2 * follow.toNat + 4 * echo.toNat) ++ leBytes 1 width ++ leBytes 8 ident
      ++ leBytes 4 0)
  | .linkReq width cause tag => (0x04, leBytes 1 width ++ leBytes 1 cause ++ leBytes 2 tag)
  | .linkGo width tag => (0x05, leBytes 1 width ++ leBytes 1 0 ++ leBytes 2 tag)
  | .timeReq t => (0x06, leBytes 8 t)
  | .timeRsp a b c => (0x07, leBytes 8 a ++ leBytes 8 b ++ leBytes 8 c)
  | .swapTick tick vintage cls port => (0x08, leBytes 8 tick ++ leBytes 4 vintage ++ leBytes 1 cls ++ leBytes 1 port ++ leBytes 2 0)
  | .role role takeOk req vintage epoch =>
    (0x20, leBytes 1 role ++ leBytes 1 (takeOk.toNat + 2 * req.toNat) ++ leBytes 2 0 ++ leBytes 4 vintage ++ leBytes 4 epoch ++ leBytes 4 0)
  | .armReport tick vintage => (0x21, leBytes 8 tick ++ leBytes 4 vintage ++ leBytes 4 0)
  | .yield cause => (0x22, leBytes 1 cause ++ leBytes 3 0)
  | .resync ended => (0x23, leBytes 1 ended.toNat ++ leBytes 7 0)
  | .mctp body => (0x30, body.take 68)

/-- A message as its CODE, its LEN and its body. -/
def ctrlBytes (m : CtrlMsg) : List Byte := leBytes 1 (ctrlBody m).1 ++ leBytes 1 (ctrlBody m).2.length ++ (ctrlBody m).2

/-! ## A flit that leaves -/

/-- Flags of TYPE: FTYPE, SOP, EOP, NULL. -/
def typeBits (kind : Nat) (sop eop null : Bool) : Nat := kind * 2 ^ 12 + sop.toNat * 2 ^ 11 + eop.toNat * 2 ^ 10 + null.toNat * 2 ^ 9

/-- Bytes `n` long: a list cut, or filled with zeros. -/
def padTo (n : Nat) (l : List Byte) : List Byte := l.take n ++ List.replicate (n - l.length) 0

/-- Bytes 0 to 249 of a flit with parity field `par` (lane k at bit k). -/
def flitWith (head lctl par : Nat) (payload : List Byte) : List Byte :=
  let b := leBytes 2 (head + par / 256) ++ leBytes 4 (lctl + par % 256) ++ padTo 236 payload
  b ++ beBytes 8 (crc64 b)

/-- The parity field of a flit. The CRC covers it and it covers the CRC (R276, R277): the least that meets both, and a free value where none does
(log 73). -/
def flitPar (w head lctl : Nat) (payload : List Byte) : Nat :=
  ((List.range (2 ^ min w 16)).find? fun par => (flitBadLanes w (flitWith head lctl par payload)).isEmpty).getD
    (Config.flitParity (flitWith head lctl 0 payload) % 2 ^ min w 16)

/-- The 256 bytes of a flit on a link of width `w` (Table 8.1). -/
def flitBytes (w kind : Nat) (sop eop null : Bool) (seq ack : Nat) (payload : List Byte) : List Byte :=
  let head := typeBits kind sop eop null
  let lctl := seq * 2 ^ 20 + ack * 2 ^ 8
  let b := flitWith head lctl (flitPar w head lctl payload) payload
  b ++ padTo 6 (Config.flitFec b)

/-! ## What DATA flits carry -/

/-- A TLP's fields as numbers. -/
def tlpFields (t : Tlp) : List Nat :=
  let kind := match t.kind with
    | .mrd => 0
    | .mwr => 1
    | .atomic => 2
    | .dmwr => 3
    | .io => 4
    | .cfg => 5
    | .msgId => 6
    | .msgRoot => 7
    | .msgBroadcast => 8
    | .msgLocal => 9
    | .cxlRd => 10
    | .cxlWr => 11
    | .cpl => 12
  let status := match t.status with
    | .sc => 0
    | .ur => 1
    | .rrs => 2
    | .ca => 4
  let op := match t.op with
    | .fetchAdd => 0
    | .swap => 1
    | .cas => 2
  [kind, t.rid, t.tag, (t.pasid.map (· + 1)).getD 0, t.tc, t.addr, t.len, t.ro.toNat, t.ido.toNat, t.poisoned.toNat, op, status, t.xlat,
   (t.ide.map (· + 1)).getD 0, t.cid, t.count, t.typ1.toNat] ++ t.mask.map Bool.toNat

/-- A TLP as bytes (R295): its header and prefixes in the format of PCI Express, then its data. -/
def tlpImage (t : Tlp) : List Byte := padTo t.hdr (Config.tlpHeader (tlpFields t)) ++ t.data

/-- The fabric header (Table 8.10). -/
def hdrBytes (h : FabHdr) (t : Tlp) : List Byte :=
  leBytes 1 h.kind ++ leBytes 1 (h.sync.toNat * 128 + t.tc % 8 * 16 + h.ro.toNat * 8 + t.poisoned.toNat * 4 + h.replay.toNat * 2) ++ leBytes 2 h.dst
    ++ leBytes 1 (h.cls * 64 + h.cellar * 16 + h.src) ++ leBytes 1 h.part ++ leBytes 1 h.aux ++ leBytes 1 0 ++ leBytes 4 h.tseq ++ leBytes 4 h.pbar

/-- FCLASS of the packet whose first cell this is (Table 8.10). -/
def cellClass (l : List Byte) : Nat := (l.getD 4 0).toNat / 64

/-- Cell `i` of a list of bytes. -/
def cellOf (i : Nat) (l : List Byte) : List Byte := padTo 236 (l.drop (236 * i))

/-- Cell `i` of a packet on an FFL port. -/
def packetCell (k : Packet) (i : Nat) : List Byte :=
  cellOf i (match k.fab with
    | some h => hdrBytes h k.tlp ++ tlpImage k.tlp
    | none => tlpImage k.tlp)

/-- A stream key (R491). -/
def keyBytes (k : StreamKey) : List Byte := leBytes 1 k.part ++ leBytes 1 k.pasid.isSome.toNat ++ leBytes 2 k.rid ++ leBytes 4 (k.pasid.getD 0)

/-- First and last byte enables of a write of `len` bytes at an address: the last in the upper four bits (PCI Express; Table 14.3). -/
def enableBits (a len : Nat) (mask : List Bool) : Nat :=
  let on := fun (x : Nat) => decide (a ≤ x ∧ x < a + len) && mask.getD (x - a) true
  let of := fun (dw : Nat) => ((List.range 4).map fun j => (on (4 * dw + j)).toNat * 2 ^ j).sum
  let last := (a + max 1 len - 1) / 4
  of (a / 4) + (if last = a / 4 then 0 else 16 * of last)

/-- A mirror record as bytes (Table 14.3). -/
def recBytes (r : MirRec) : List Byte :=
  if r.kind = 1 ∨ r.kind = 2 then
    leBytes 1 r.kind ++ leBytes 1 (r.idem.toNat * 128 + r.shared.toNat * 64) ++ leBytes 2 (r.window.getD 0xFFFF) ++ leBytes 4 r.wseq ++ keyBytes r.key
      ++ leBytes 8 r.addr ++ leBytes 2 r.len ++ leBytes 2 ((match r.vi with | some v => 2 ^ 15 + v % 2048 | none => 0)) ++ leBytes 1 (r.gen % 64)
      ++ leBytes 1 (enableBits r.addr r.len r.mask) ++ leBytes 2 0 ++ (if r.kind = 1 then padTo (4 * ceilDiv r.data.length 4) r.data else [])
  else if r.kind = 4 then
    leBytes 1 r.kind ++ leBytes 1 0 ++ leBytes 2 r.entries.length ++ leBytes 4 r.epoch ++ leBytes 8 r.time
      ++ r.entries.flatMap fun e => keyBytes e.1 ++ leBytes 4 e.2.1 ++ leBytes 4 e.2.2
  else
    leBytes 1 r.kind ++ leBytes 1 r.region ++ leBytes 2 r.len ++ leBytes 4 0 ++ leBytes 8 r.cseq ++ leBytes 8 r.addr
      ++ leBytes 8 (if r.kind = 3 then ((List.range 64).map fun i => (r.mask.getD i false).toNat * 2 ^ i).sum else 0) ++ r.data

/-- DATA flits that a mirror record takes (Table 14.2). -/
def recCells (r : MirRec) : Nat := cellsOf (recBytes r).length

end Sys2Proof.Machine
end

