-- ==== Sys2Proof/Machine/Flags.lean ====
section
/-! DEFINITION. Interrupt bits and the fault collector (R68 to R74, chapter 13): what a page's INT_CAUSE raises, how
the firings of one command are ranked, logged and acted on, the pin QF_FAULT_N, and writes that fail later. -/

namespace Sys2Proof.Machine
namespace State

/-! ## Interrupts -/

/-- PAGE_STS.INT_PEND: INT_CAUSE and not INT_MASK is not zero. -/
def intPend (s : State) (page : Nat) : Bool :=
  (s.reg (fkey page INT_CAUSE.BITS 0) &&& ~~~ s.reg (fkey page INT_MASK.BITS 0)) != 0

/-- PAGE_STS.FLT_PEND: any FLT_CAUSE bit is set. -/
def fltPend (s : State) (page : Nat) : Bool := s.reg (fkey page FLT_CAUSE.BITS 0) != 0

/-- A word of an MSI-X table that nothing has written: every vector is masked (PRESUMED: the PCI Express reset; log 12). -/
def msixWord (w : Nat) : Word := if w % 4 = 3 then 1 else 0

/-- Mask bit of a vector of an MSI-X table held as words: bit 0 of the fourth word of its entry, as PCI Express lays it
out. -/
def vecMasked (m : Store Word) (vec : Nat) : Bool := (storeGet msixWord m (4 * vec + 3)).getLsbD 0

/-- A pending bit array with a vector's bit set. -/
def addPend (l : List Nat) (vec : Nat) : List Nat := if l.contains vec then l else vec :: l

/-- Messages to the host of PART `k` leave by its upstream port, which sends nothing while it is in Recovery: they wait for its L0 (R247). -/
def emitHost (s : State) (k : Nat) (l : List Output) : State :=
  match s.upPort k with
  | none => s.emitAll l
  | some p => if s.getF (pgLNK p) LNK_STS.STATE = 5 then { s with heldOut := s.heldOut ++ l.map fun o => (p, o) } else s.emitAll l

/-- MSI-X vector `vec` of the services endpoint of PART `k`: sent, or pending while it or the whole function is masked; nothing when the partition is
not configured, the vector is beyond the table or MSI-X is not enabled (R69). -/
def sendMsix (s : State) (k vec : Nat) : State :=
  if !s.partOn k || decide (2048 ≤ vec) || !(s.part k).msixEn then s
  else if (s.part k).msixMask || vecMasked (s.part k).msix vec then
    s.modPart k fun p => { p with msixPending := addPend p.msixPending vec }
  else s.emitHost k [.msix k vec]

/-- Partition whose allocation holds an instance (VIM_ICTL.PART); 31 for none. -/
def partOfInst (s : State) (i : Nat) : Nat :=
  ((List.range 24).find? fun k =>
    decide (s.getF pgVIM VIM_PALLOC.BASE k ≤ i)
      && decide (i < s.getF pgVIM VIM_PALLOC.BASE k + s.getF pgVIM VIM_PALLOC.COUNT k)).getD 31

/-- MSI-X vector `vec` of the virtual function of instance `i` (R432). -/
def sendVfMsix (s : State) (i vec : Nat) : State :=
  if !(s.inst i).msixEn then s
  else if (s.inst i).msixMask || vecMasked (s.inst i).msix vec then s.modInst i fun x => { x with pend := addPend x.pend vec }
  else s.emitHost (s.partOfInst i) [.vfMsix i vec]

/-- The pending bit of a vector is cleared when the interrupt condition is gone (R69): no page that is pending names it. -/
def unpend (s : State) (k vec : Nat) : State :=
  let still := s.regs.any fun e => e.1 % 4096 == INT_CAUSE.BITS.off && s.intPend (e.1 / 4096)
    && s.getF (e.1 / 4096) PAGE_CTL.INT_DEST == k && s.getF (e.1 / 4096) PAGE_CTL.INT_VEC == vec
  if !(s.part k).msixPending.contains vec || still then s
  else s.modPart k fun p => { p with msixPending := p.msixPending.filter (· != vec) }

/-- Change a page's INT_CAUSE or INT_MASK by `f`: the page's vector is sent on a 0-to-1 transition of INT_PEND, and no longer pending after a
1-to-0 transition (R69). -/
def withIntPend (s : State) (page : Nat) (f : State → State) : State :=
  let t := f s
  let k := t.getF page PAGE_CTL.INT_DEST
  let vec := t.getF page PAGE_CTL.INT_VEC
  if !s.intPend page && t.intPend page then t.sendMsix k vec
  else if s.intPend page && !t.intPend page then t.unpend k vec
  else t

/-- Set INT_CAUSE bits of a page (R68). -/
def raiseInt (s : State) (page bits : Nat) : State :=
  s.withIntPend page fun t => t.setF page INT_CAUSE.BITS (t.getF page INT_CAUSE.BITS ||| bits)

/-! ## Firings -/

/-- Programmed class of a source: its FLT_SEV field (R459). -/
def sevOf (s : State) (src : Nat) : Nat :=
  s.getP (src / 32) FLT_SEV.SEV 4 (src % 32 % 8) (src % 32 / 8)

/-- The source is masked by FLT_MASK (R73). -/
def fltMasked (s : State) (src : Nat) : Bool := bitAt (s.getF (src / 32) FLT_MASK.BITS) (src % 32)

/-- FLT_CAUSE bit of a source. -/
def fltSet (s : State) (src : Nat) : Bool := bitAt (s.getF (src / 32) FLT_CAUSE.BITS) (src % 32)

/-- Last entry of a source (R460). -/
def lastEntry (s : State) (src : Nat) : LastEntry := storeGet (fun _ => ⟨0, 31, 0, none⟩) s.flt.last src

/-- How a firing is handled, with its effective class (Table 13.3). -/
inductive Handling where
  | masked
  | new (eff : Nat)
  | escalated (eff : Nat) (mark : Bool)
  | repeated
  deriving DecidableEq, Repr

/-- Table 13.3 for one firing; FORCE_NOESC of R462. -/
def handling (s : State) (f : Firing) : Handling :=
  let prog := s.sevOf f.src
  let last := s.lastEntry f.src
  if s.fltMasked f.src then .masked
  else if !s.fltSet f.src then .new prog
  else if last.part ≠ f.part then .new prog
  else if s.ticks - last.tick < s.getF pgFLT FLT_CTL.ESC_HOLD * 1000 then .repeated
  else if !f.real && s.flag (f.src / 32) PAGE_CTL.FORCE_NOESC then .escalated prog false
  else .escalated (min 4 (prog + 1)) true

end State

/-- Merge the firings of one source in one cycle into one (R457, R462): the lowest port decides partition and port. -/
def mergeFirings : List Firing → List Firing
  | [] => []
  | f :: r =>
    let rest := mergeFirings r
    match rest.find? (·.src == f.src) with
    | none => f :: rest
    | some g =>
      let base := if f.real && !g.real then f else if g.real && !f.real then g
        else if g.port < f.port then g else f
      let h : Firing := { base with real := f.real || g.real, forced := f.forced || g.forced }
      h :: rest.filter (·.src != f.src)

/-- Insert by rank: higher effective class first, then lower source number (R465). -/
def rankInsert (x : Nat × Firing) : List (Nat × Firing) → List (Nat × Firing)
  | [] => [x]
  | y :: r => if y.1 < x.1 ∨ (y.1 = x.1 ∧ x.2.src < y.2.src) then x :: y :: r else y :: rankInsert x r

/-- Firings in rank order. -/
def rankSort : List (Nat × Firing) → List (Nat × Firing)
  | [] => []
  | x :: r => rankInsert x (rankSort r)

namespace State

/-! ## The fault log -/

/-- Entries the fault log holds. -/
def logCount (s : State) : Nat :=
  (s.getF pgFLT FLT_FL_PTR.WR + 1024 - s.getF pgFLT FLT_FL_PTR.RD) % 1024

/-- Records the Lees Log holds. -/
def leesCount (s : State) : Nat :=
  (s.getF pgFLT FLT_LL_PTR.WR + 4096 - s.getF pgFLT FLT_LL_PTR.RD) % 4096

/-- Configured partitions. -/
def configured (s : State) : List Nat := (List.range 24).filter fun k => s.partOn k

/-- AER message of kind 0 ERR_COR, 1 ERR_NONFATAL, 2 ERR_FATAL from PART `k`'s function: recorded in its status, and sent
unless masked or one of the kind went to the partition less than 10 µs earlier (R467). -/
def sendAer (s : State) (k kind : Nat) : State :=
  if !s.partOn k then s else
  let masked := if kind = 0 then (s.part k).aerCorMask else (s.part k).aerUncMask
  let s1 := s.modPart k fun p => if kind = 0 then { p with aerCor := true } else { p with aerUnc := true }
  let recent := match s.flt.aer.find? (·.1 == 4 * k + kind) with
    | some (_, t) => decide (s.ticks - t < 10000)
    | none => false
  if masked || recent then s1
  else
    let s2 := s1.emitHost k [.aer k kind]
    { s2 with flt := { s2.flt with aer := storeInsert s2.flt.aer (4 * k + kind) s.ticks } }

/-- PARTk is in PARTITION_FATAL (R468). -/
def partFatal (s : State) (k : Nat) : Bool := decide (k < 24) && bitAt (s.getF pgFLT FLT_STATE.PART_FATAL) k

/-- The device is DEVICE_FATAL (R469). -/
def devFatal (s : State) : Bool := s.flag pgFLT FLT_STATE.DEV_FATAL

/-- Channel `ch` (0 to 1,023) goes to its stop: STATE STOP while RUN or DRAIN, and its waiting transfer is cancelled
(R448). -/
def stopChannel (s : State) (ch : Nat) : State :=
  let pg := pgDMAC (ch / 256) (ch % 256)
  let i := ch % 32
  let st := s.getF pg DMA_STS.STATE i
  let s1 := s.setFlag pg DMA_STS.PENDING false i
  if st = 1 ∨ st = 2 then s1.setF pg DMA_STS.STATE 3 i else s1

/-- Partition of a channel: the instance's partition for a tenant channel in use, CHCFG.PART for a service channel
(R389, Table 12.9); 31 for none. Channels 192 to 255 of a Cellar are service channels. -/
def instOfChan (s : State) (ch : Nat) : Option Nat :=
  if 192 ≤ ch % 256 then none
  else (List.range 24).foldl (fun acc k =>
    match acc with
    | some i => some i
    | none =>
      let b := s.getF pgVIM VIM_PALLOC.BASE k
      let n := s.getF pgVIM VIM_PALLOC.COUNT k
      ((List.range n).map (b + ·)).find? fun i =>
        let pg := pgVIMI i
        s.getF pg VIM_ICHAN.CELLAR (i % 64) == ch / 256
          && decide (s.getF pg VIM_ICHAN.FIRST (i % 64) ≤ ch % 256)
          && decide (ch % 256 < s.getF pg VIM_ICHAN.FIRST (i % 64) + s.getF pg VIM_ICHAN.COUNT (i % 64))) none

/-- Partition a channel issues requests in (R399, R427); 31 for none. -/
def partOfChan (s : State) (ch : Nat) : Nat :=
  if 192 ≤ ch % 256 then
    let p := s.getF (pgDMA (ch / 256)) DMA_CHCFG.PART (ch % 256)
    if p < 24 then p else 31
  else match s.instOfChan ch with
    | some i => s.partOfInst i
    | none => 31

/-- Channels whose block is not IDLE. -/
def busyChannels (s : State) : List Nat :=
  (List.range 1024).filter fun ch => s.getF (pgDMAC (ch / 256) (ch % 256)) DMA_STS.STATE (ch % 32) != 0

/-- PARTk enters PARTITION_FATAL: its running channels stop (R468). -/
def enterPartFatal (s : State) (k : Nat) : State :=
  let s1 := s.setF pgFLT FLT_STATE.PART_FATAL (bitSet (s.getF pgFLT FLT_STATE.PART_FATAL) k)
  s1.each ((s1.busyChannels).filter fun ch => s1.partOfChan ch == k) fun t ch => t.stopChannel ch

/-- The last flit of an active that enters DEVICE_FATAL carries YIELD on each ACTIVE mirror port, and the mirror block stops (R469,
R498). What it withdraws is done when the tick ends, and no covered write is resolved until then. -/
def mirFatal (s : State) : State :=
  let own := s.getF pgMIR MIR_STS.ROLE == 2
  let s1 := s.onlyIf own fun t =>
    t.emitAll (([64, 65].filter fun p => t.getF pgMIR MIR_FFL_STS.STATE (p - 64) == 3).map fun p =>
      .ctrl p (t.fflSt p).ns (((t.fflSt p).er + 4095) % 4096) [.yield 1])
  { s1 with mir := { s1.mir with yielded := true, yieldDue := s1.mir.yieldDue || own, resync := none } }

/-- The device becomes DEVICE_FATAL: stored packets are discarded without records, engines stop, the pin is asserted
(R469, R476). -/
def enterDevFatal (s : State) : State :=
  let s1 := s.setFlag pgFLT FLT_STATE.DEV_FATAL true
  let s2 := (s1.each s1.busyChannels fun t ch => t.stopChannel ch).mirFatal
  { s2 with packets := s2.packets.filter (fun p => p.place == .ingress || p.place == .walk), spillOps := [],
            queues := [], tx := s2.tx.map fun e => (e.1, { e.2 with unacked := [] }) }

/-- Class actions of Table 13.5 for effective class `eff` of source `src`. LEES_REC at S1 and S2 sends no message of its
own (R471). -/
def classAct (s : State) (src part eff : Nat) : State :=
  let own := decide (src = pgFLT * 32 + 0)
  if eff = 0 then s
  else if eff = 1 then (if own then s else s.sendAer part 0).raiseInt pgFLT 1
  else if eff = 2 then (if own then s else s.sendAer part 1).raiseInt pgFLT 1
  else
    let ks := if eff = 3 ∧ part < 24 then [part] else s.configured
    let fresh := ks.any fun k => !s.partFatal k
    let s1 := s.each ks fun t k => (t.sendAer k 2).enterPartFatal k
    let s2 := (s1.raiseInt pgFLT 1).onlyIf fresh fun t => t.raiseInt pgFLT 16
    if eff = 4 then
      (if s.devFatal then s2 else (s2.enterDevFatal).raiseInt pgFLT 32)
    else s2

/-! ## The pin -/

/-- Set QF_FAULT_N. -/
def setPin (s : State) (b : Bool) : State := s.setFlag pgFLT FLT_PIN.ASSERTED b

/-- LEVEL mode: some source has its FLT_CAUSE bit set and a last entry at or above PIN_THR (R474). -/
def pinLevel (s : State) : Bool :=
  s.flt.last.any fun e => s.fltSet e.1 && decide (s.getF pgFLT FLT_CTL.PIN_THR ≤ e.2.eff)

/-- DEVICE_FATAL and BOOT_FAIL assert the pin whatever the mode (R476, R549). -/
def pinForced (s : State) : Bool := s.devFatal || s.flag pgTRU TRU_BOOT_STS.BOOT_FAIL

/-- Pin after a change of fault state (R474 to R476). -/
def evalPin (s : State) : State :=
  if s.pinForced then s.setPin true
  else if s.flag pgFLT FLT_CTL.PIN_MODE then s
  else s.setPin s.pinLevel

/-- What follows when registers of whole pages change at once, from `s` to `t`: vectors of pages whose INT_PEND fell are no longer pending (R69), and
the pin takes its level (R474). -/
def pagesChanged (s t : State) : State :=
  ((s.regs.filter fun e => e.1 % 4096 == INT_CAUSE.BITS.off && s.intPend (e.1 / 4096) && !t.intPend (e.1 / 4096)).foldl (fun u e =>
    u.unpend (s.getF (e.1 / 4096) PAGE_CTL.INT_DEST) (s.getF (e.1 / 4096) PAGE_CTL.INT_VEC)) t).evalPin

/-- A qualifying fault in PULSE mode starts a pulse while the pin is not owned and no pulse runs (R475). -/
def pulse (s : State) (eff : Nat) : State :=
  if s.flag pgFLT FLT_CTL.PIN_MODE && decide (s.getF pgFLT FLT_CTL.PIN_THR ≤ eff)
      && !s.flag pgFLT FLT_PIN.OWNED && s.flt.pulseEnd.isNone then
    { s.setPin true with flt := { s.flt with pulseEnd := some (s.ticks + s.getF pgFLT FLT_PIN.PULSE_W * 1000) } }
  else s

/-! ## Collection -/

/-- Write one entry of the cycle: log or drop, memory, FLT_CAUSE, counts, class actions (R461, R464, R465). `first` is
set for the first-ranked fault of the cycle, `cap` while it is captured. Answers also whether the log dropped it. -/
def logFault (s : State) (f : Firing) (eff : Nat) (esc first cap : Bool) : State × Bool :=
  let prog := s.sevOf f.src
  let full := decide (1023 ≤ s.logCount)
  let wr := s.getF pgFLT FLT_FL_PTR.WR
  let e : LogEntry := { time := s.fabric, src := f.src, prog := prog, eff := eff, first := cap, same := !first,
                        real := f.real, forced := f.forced, esc := esc, part := f.part, port := f.port, rep := 0,
                        seq := s.flt.seq % 256 }
  let s1 := if full then s else
    let t := s.setF pgFLT FLT_FL_PTR.WR ((wr + 1) % 1024)
    { t with flt := { t.flt with log := storeInsert t.flt.log wr e, seq := t.flt.seq + 1 } }
  let s2 := { s1 with flt := { s1.flt with
    last := storeInsert s1.flt.last f.src ⟨s.ticks, f.part, eff, if full then none else some wr⟩ } }
  let s3 := s2.setF (f.src / 32) FLT_CAUSE.BITS (bitSet (s2.getF (f.src / 32) FLT_CAUSE.BITS) (f.src % 32))
  let s4 := s3.addF pgFLT FLT_CNT.ENTRIES 1 eff
  let s5 := s4.onlyIf (!full && decide (768 ≤ s4.logCount)) fun t => t.raiseInt pgFLT 4
  let s6 := (s5.classAct f.src f.part eff).pulse eff
  (s6, full)

/-- A repeat adds one to the REPEAT field of the source's entry while the log holds it (R461). -/
def logRepeat (s : State) (f : Firing) : State :=
  match (s.lastEntry f.src).pos with
  | none => s
  | some i =>
    let rd := s.getF pgFLT FLT_FL_PTR.RD
    if (i + 1024 - rd) % 1024 < s.logCount then
      match s.flt.log.find? (·.1 == i) with
      | some (_, e) =>
        if e.src = f.src then { s with flt := { s.flt with log := storeInsert s.flt.log i { e with rep := min 255 (e.rep + 1) } } }
        else s
      | none => s
    else s

/-- Capture the first-ranked fault while FLT_FIRST.VALID is 0 (R465). -/
def capFirst (s : State) (f : Firing) (eff : Nat) (esc : Bool) : State :=
  let s1 := (s.setFlag pgFLT FLT_FIRST.VALID true).setFlag pgFLT FLT_FIRST.REAL f.real
  let s2 := (s1.setFlag pgFLT FLT_FIRST.FORCED f.forced).setFlag pgFLT FLT_FIRST.ESCALATED esc
  let s3 := (s2.setF pgFLT FLT_FIRST.CLASS eff).setF pgFLT FLT_FIRST.PART f.part
  (s3.setF pgFLT FLT_FIRST.SOURCE f.src).setF pgFLT FLT_FIRST_T.TIME s.fabric

/-- Ranked faults of one cycle, written in order; answers whether any was dropped. -/
def logAll (s : State) : List (Nat × Firing × Bool) → Bool → Bool → State × Bool
  | [], _, d => (s, d)
  | (eff, f, esc) :: r, first, d =>
    let cap := first && !s.flag pgFLT FLT_FIRST.VALID
    let s1 := s.onlyIf cap fun t => t.capFirst f eff esc
    let (s2, full) := s1.logFault f eff esc first cap
    let s3 := s2.onlyIf full fun t => t.addF pgFLT FLT_FL_DROP.COUNT
    s3.logAll r false (d || full)

/-- A firing of FLT_LOG_DROP: a forced one makes one firing with the real one of a drop in its cycle (R462). -/
def logDropOf (f : Firing) : Bool := f.src == pgFLT * 32 + 2

/-- The firing of FLT_LOG_DROP that a drop causes: handled by Table 13.3, never logged (R464). -/
def logDropFault (s : State) : State :=
  let src := pgFLT * 32 + 2
  let f : Firing := ⟨src, 31, 63, true, false⟩
  let act := fun (eff : Nat) =>
    let s1 := { s with flt := { s.flt with last := storeInsert s.flt.last src ⟨s.ticks, 31, eff, none⟩ } }
    let s2 := s1.setF pgFLT FLT_CAUSE.BITS (bitSet (s1.getF pgFLT FLT_CAUSE.BITS) 2)
    ((s2.addF pgFLT FLT_CNT.ENTRIES 1 eff).classAct src 31 eff).pulse eff
  match s.handling f with
  | .masked => s
  | .repeated => s
  | .new eff => act eff
  | .escalated eff _ => act eff

/-- The firings of a cycle that make entries, with their effective classes (Table 13.3). -/
def madeOf (s : State) (fs : List Firing) : List (Nat × Firing) :=
  fs.filterMap fun f =>
    match s.handling f with
    | .new eff => some (eff, f)
    | .escalated eff _ => some (eff, f)
    | .masked => none
    | .repeated => none

/-- Entries of one cycle in their order (R460), each with whether it is escalated. -/
def ranked (s : State) (l : List (Nat × Firing)) : List (Nat × Firing × Bool) :=
  (rankSort l).map fun x => (x.1, x.2, match s.handling x.2 with
    | .escalated _ m => m
    | .masked | .new _ | .repeated => false)

/-- End of a command's cycle: the collector handles the firings of the cycle (R460 to R477). A command that fired
nothing changes nothing here. -/
def settle (s : State) : State :=
  match s.firing with
  | [] => s
  | _ :: _ =>
    let fs := mergeFirings s.firing
    let s0 := { s with firing := [] }
    let s1 := s0.each (fs.filter fun f => s0.handling f == .repeated) fun t f => t.logRepeat f
    let l := s0.madeOf fs
    let (t2, drop) := s1.logAll (s0.ranked l) true false
    let s2 := if drop && fs.any logDropOf then (s1.logAll (s0.ranked (l.filter fun x => !logDropOf x.2)) true false).1 else t2
    let s3 := s2.onlyIf drop fun t => t.logDropFault
    s3.evalPin

/-! ## Samples (R603) -/

/-- A sampled packet meets its outcome: 0 SENT, 1 PERFORMED, 2 CLAIMED, 3 DISCARDED, 4 PENDING, at a tick, with a Lees Log reason. -/
def traceOut (s : State) (rec0 code tick reason : Nat) : State :=
  { s with trace := s.trace.map fun (r : TraceRec) =>
      if r.id = rec0 ∧ r.out.isNone then { r with out := some (code, tick, reason) } else r }

/-- Outcome of a packet at the present tick, when it is sampled. -/
def packetOut (s : State) (p : Packet) (code : Nat) : State :=
  match p.sample with
  | none => s
  | some r => s.traceOut r code s.fabric 0xFF

/-- Some packet of the 9160 still carries the mark of a sample. -/
def sampleHeld (s : State) (r : Nat) : Bool :=
  s.packets.any (·.sample == some r) || s.swb.any (·.src.sample == some r)

/-- Sampled packets that the cycle removed without another outcome were discarded (R603); a posted write's record names the reason. -/
def sweepTrace (s : State) : State :=
  { s with trace := s.trace.map fun (r : TraceRec) =>
      if r.out.isNone && !s.sampleHeld r.id then
        let why := match s.flt.late.find? fun l => l.ini == r.ini && decide (l.order = r.order) && !l.body.summary with
          | some l => l.body.reason
          | none => 0xFF
        { r with out := some (3, s.fabric, why) }
      else r }

/-- Answer of a meaning that completes: the collector ends the cycle, and samples of packets that are gone are closed. -/
def done (s : State) : Res := .next s.settle.sweepTrace

/-! ## Writes that fail later (R471 to R473) -/

/-- Initiator that stands for a stream of the mirror: its key does not depend on the ingress port (R491). -/
def keyIni (k : StreamKey) : Initiator := .port (64 + k.part) k.rid k.pasid

/-- Initiator that a write's sequence number runs for: the stream key where the pair may mirror the write (R314, R491). -/
def seqIni (s : State) (p : Packet) : Initiator :=
  match p.ini with
  | .port q rid pasid =>
    if q < 64 && bitAt (s.getF pgMIR MIR_PMIRROR.PARTS) (s.portPart q) then keyIni ⟨s.portPart q, rid, pasid⟩ else .port q rid pasid
  | .fabric a b c d => .fabric a b c d
  | .cxl q => .cxl q
  | .chan c => .chan c
  | .block k => .block k

/-- Next write sequence number of an initiator (R314). -/
def nextWseq (s : State) (i : Initiator) : Nat :=
  match s.wseq.find? (·.1 == i) with
  | some (_, n) => n
  | none => 0

/-- An initiator's write sequence number advances. -/
def setWseq (s : State) (i : Initiator) (n : Nat) : State :=
  { s with wseq := (i, n % 2 ^ 32) :: s.wseq.filter (·.1 != i) }

/-- Record of a packet's write that fails later, without its time, number and counts. -/
def leesOf (p : Packet) (reason src : Nat) : LeesRec :=
  let (rid, pasid) := match p.ini with
    | .port _ r x => (r, x)
    | .fabric _ _ _ _ | .cxl _ | .chan _ | .block _ => (p.tlp.rid, p.tlp.pasid)
  { time := 0, addr := p.orig, wseq := p.wseq.getD 0, count := 1, rid := rid, port := faultPort p,
    part := p.part, pasid := pasid, vi := p.bound.map (·.vi), gen := (p.bound.map (·.gen)).getD 0,
    reason := reason, chan := (match p.ini with | .chan c => some (c % 256) | _ => none), cellar := p.cell0,
    fdid := (match p.ini with | .fabric fd _ _ _ => some fd | .port _ _ _ | .cxl _ | .chan _ | .block _ => none), summary := false, nofence := false,
    length := if p.reqLen = 0 then p.tlp.len else p.reqLen, src := src, rseq := 0 }

/-- Channel, transfer and transfer offset of a DMA packet. -/
def dmaOf (p : Packet) : Option (Nat × Nat × Nat) :=
  match p.owner with
  | .dma ch num off => some (ch, num, off)
  | .requester | .npw _ | .split _ | .prefetch _ | .fabric _ | .dmaList _ _ _ | .load _ => none

/-- A write of packet `p` fails later: its record waits to be made (R471). A write discarded before the ordering point takes its number then
(R314; DEDUCED, log 21). -/
def failLater (s : State) (p : Packet) (reason src : Nat) : State :=
  let i := s.seqIni p
  let n := p.wseq.getD (s.nextWseq i)
  let s1 := if p.wseq.isSome then s else s.setWseq i (n + 1)
  { s1 with flt := { s1.flt with late := s1.flt.late ++
      [{ body := { leesOf p reason src with wseq := n }, ini := p.ini, bound := p.bound, others := [], order := p.order, dma := dmaOf p,
         early := p.wseq.isNone }] } }

/-- A summary of writes that never passed the ordering point (Table 7.13, Table 9.6). -/
def failSummary (s : State) (ps : List Packet) (reason src : Nat) : State :=
  match ps with
  | [] => s
  | p :: r =>
    let rec0 := { leesOf p reason src with summary := true, count := ps.length, wseq := p.wseq.getD (s.nextWseq (s.seqIni p)) }
    { s with flt := { s.flt with late := s.flt.late ++
        [{ body := rec0, ini := p.ini, bound := p.bound, others := r.map fun x => (x.ini, x.bound),
           order := p.order, dma := none, early := true }] } }

/-- Clear an initiator's reservation (R340). -/
def clearResv (s : State) (i : Initiator) : State := { s with resv := s.resv.filter (·.ini != i) }

/-- An exception of an initiator clears its reservation (R339). -/
def exception (s : State) (i : Initiator) : State := s.clearResv i

end State
end Sys2Proof.Machine
end

