-- ==== Sys2Proof/Machine/Operands.lean ====
section
/-! DEFINITION. The bytes a request names: byte enables, the byte-lane rules (R358 to R361), splitting, overlays, and the
event counters that commands step (R593 to R595). -/

namespace Sys2Proof.Machine

/-! ## Bytes of a request -/

/-- Byte `i` of a request is enabled. -/
def enabledAt (t : Tlp) (i : Nat) : Bool := decide (i < t.len) && t.mask.getD i true

/-- Addresses of the enabled bytes, rising. -/
def enabledAddrs (t : Tlp) : List Nat := ((List.range t.len).filter (enabledAt t)).map (t.addr + ·)

/-- The addresses the access check judges: the enabled bytes, or the one byte at the address of a request that enables none
(R373). -/
def judgedAddrs (t : Tlp) : List Nat :=
  match enabledAddrs t with
  | [] => [t.addr]
  | a :: r => a :: r

/-- Byte of the payload at address `a`. -/
def dataAt (t : Tlp) (a : Nat) : Byte := t.data.getD (a - t.addr) 0

/-- The bytes a write changes, from its address on: absent where not enabled. -/
def writeBytes (t : Tlp) : List (Option Byte) :=
  (List.range t.len).map fun i => if enabledAt t i then some (dataAt t (t.addr + i)) else none

/-- The request with only the bytes that `f` keeps enabled. -/
def keepBytes (t : Tlp) (f : Nat → Bool) : Tlp :=
  { t with mask := (List.range t.len).map fun i => enabledAt t i && f (t.addr + i) }

/-- Unit size of a SWAP code (R359): 0b00 AI moves nothing. -/
def swapUnit (code : Nat) : Nat := if code = 1 then 2 else if code = 2 then 4 else if code = 3 then 8 else 1

/-- Where a byte goes under a unit of `n` bytes (R359). -/
def swapAddr (n a : Nat) : Nat := a ^^^ (n - 1)

/-- A request passes under DIn (R360). -/
def swapFits (n : Nat) (t : Tlp) : Bool :=
  if n = 1 then true
  else if t.kind == .atomic then
    (if t.op == .cas then decide (t.data.length = 2 * n) else decide (t.data.length = n))
  else
    let as := enabledAddrs t
    let one := as.all fun a => a / n == (as.headD t.addr) / n
    let whole := as.all fun a => (List.range n).all fun j => as.contains (a / n * n + j)
    one || whole

/-- Reverse the bytes of each unit of `n` bytes of a list. -/
def reverseUnits (n : Nat) (l : List Byte) : List Byte :=
  (List.range l.length).map fun i => l.getD (swapAddr n i) 0

/-- The request after the move of R359: lowest moved address, length and enables covering the moved bytes. -/
def swapTlp (n : Nat) (t : Tlp) : Tlp :=
  if n = 1 then t
  else if t.kind == .atomic then { t with data := reverseUnits n t.data }
  else
    let as := (enabledAddrs t).map (swapAddr n)
    match as with
    | [] => t
    | a0 :: r =>
      let lo := r.foldl min a0
      let hi := r.foldl max a0
      { t with
        addr := lo
        len := hi + 1 - lo
        mask := (List.range (hi + 1 - lo)).map fun i => as.contains (lo + i)
        data := if t.data.isEmpty then [] else
          (List.range (hi + 1 - lo)).map fun i => dataAt t (swapAddr n (lo + i)) }

/-- Completion data of a read mapped back to the requester's byte order (R359): `sent` is the request as sent, `addr` and
`len` those of the request as received after translation. -/
def unswapData (n addr len : Nat) (sentAddr : Nat) (data : List Byte) : List Byte :=
  if n = 1 then data
  else (List.range len).map fun i => data.getD (swapAddr n (addr + i) - sentAddr) 0

/-- Bytes of `base` replaced where `over` gives one. -/
def overlay (base : List Byte) (top : List (Option Byte)) : List Byte :=
  (List.range base.length).map fun i => (top.getD i none).getD (base.getD i 0)

/-- The access kinds a request needs: read, write (R373). -/
def needsRd (t : Tlp) : Bool := t.kind == .mrd || t.kind == .atomic
def needsWr (t : Tlp) : Bool := t.kind == .mwr || t.kind == .atomic || t.kind == .dmwr

/-! ## Event counters -/

namespace State

/-- Set an overflow bit of a Cellar's counters (R594). -/
def pmuOverflow (s : State) (c j : Nat) : State :=
  (s.setF (pgPMUC c) PMU_OVF.OVF (bitSet (s.getF (pgPMUC c) PMU_OVF.OVF) j)).raiseInt (pgPMUC c) 1

/-- Field `f` of PMU_EVTj as it selects in the present tick: what a write of this tick replaced still holds (R593). -/
def evtNow (s : State) (c j : Nat) (f : FRef) : Nat :=
  match s.edge.evts.find? fun e => e.1 == fkey (pgPMUC c) PMU_EVT.EVENT j with
  | some e => bitsOf e.2 f.hi f.lo
  | none => s.getF (pgPMUC c) f j

/-- PMU_EVTj is written: what it held selects to the end of the tick (R593). -/
def noteEvt (s : State) (c j : Nat) : State :=
  let key := fkey (pgPMUC c) PMU_EVT.EVENT j
  if s.edge.evts.any (·.1 == key) then s else { s with edge := { s.edge with evts := s.edge.evts ++ [(key, s.reg key)] } }

/-- Counter `j` is the high half of a chained pair (R595). -/
def pmuChained (s : State) (c j : Nat) : Bool := j % 2 == 1 && s.evtNow c j PMU_EVT.CHAIN == 1

/-- Add `n` to counter `j` of Cellar `c` (R593 to R595). -/
def pmuAdd (s : State) (c j n : Nat) : State :=
  let v := s.getF (pgPMUC c) PMU_CTR.COUNT j + n
  let s1 := s.setF (pgPMUC c) PMU_CTR.COUNT (v % 2 ^ 32) j
  if v < 2 ^ 32 then s1
  else if s.pmuChained c (j + 1) && j % 2 == 0 then
    let w := s1.getF (pgPMUC c) PMU_CTR.COUNT (j + 1) + 1
    let s2 := s1.setF (pgPMUC c) PMU_CTR.COUNT (w % 2 ^ 32) (j + 1)
    if w < 2 ^ 32 then s2 else s2.pmuOverflow c (j + 1)
  else s1.pmuOverflow c j

/-- `n` events of a code of Table 18.1 at local port `port` (16 for the internal requester; for code 6 the Cellar that the path leads to) and traffic class
`tc` of Cellar `c`. -/
def count (s : State) (c code port tc n : Nat) : State :=
  if n = 0 || !(s.regs.any fun e => e.1 / 4096 == pgPMUC c) then s
  else
    s.each (List.range 32) fun t j =>
      let pf := t.evtNow c j PMU_EVT.PORT
      let tm := t.evtNow c j PMU_EVT.TCMASK
      let usesPort := code ≠ 1 ∧ code ≠ 8 ∧ code ≠ 9 ∧ code ≠ 0xA ∧ code ≠ 0xB ∧ code ≠ 0xC ∧ code ≠ 0xD ∧ code ≠ 0xE
        ∧ code ≠ 0x11
      let usesTc := code = 2 ∨ code = 3 ∨ code = 4 ∨ code = 0x10
      let hitP := if code = 6 then pf = 0x1F ∨ pf % 4 = port else pf = 0x1F ∨ pf = port
      let hitT := tm = 0 ∨ bitAt tm tc = true
      if t.evtNow c j PMU_EVT.EVENT = code ∧ t.pmuChained c j = false ∧ (usesPort → hitP) ∧ (usesTc → hitT)
      then t.pmuAdd c j n else t

end State
end Sys2Proof.Machine
end

