-- ==== Sys2Proof/Machine/Route.lean ====
section
/-! DEFINITION. The route decision and the checks of the ingress pipeline as functions of the state: windows (R87 to R95,
R355 to R361), ID routing (R96), endpoint routing (R98 to R101), BAR claims (R393, R394), the access slots (R372 to
R378), and the binding table (R402). -/

namespace Sys2Proof.Machine

/-! ## Windows -/

/-- A window as a route decision sees it. -/
structure Win where
  num : Nat
  base : Nat
  limit : Nat
  kind : Nat
  part : Nat
  target : Nat
  attr : Nat
  deriving DecidableEq, Repr

namespace State

/-- Start of the shared window region (R94). -/
def swBase (s : State) : Nat := s.regionBase 1

/-- A configuration window, as its last WIN_ROUTE write applied it (R92). -/
def configWindow (s : State) (w : Nat) : Win :=
  let i := w % 128
  { num := w, base := s.getF (pgWIN w) WIN_BASE.ADDR i * 4096, limit := s.getF (pgWIN w) WIN_LIMIT.ADDR i * 4096 + 4095,
    kind := s.getF (pgWIN w) WIN_ROUTE.KIND i, part := s.getF (pgWIN w) WIN_ROUTE.PART i,
    target := s.getF (pgWIN w) WIN_ROUTE.TARGET i, attr := (s.reg (fkey (pgWIN w) WIN_ATTR.PFSZ i)).toNat }

/-- Configuration windows whose WIN_ROUTE is not at its reset value, rising; every other one is disabled (Table 3.3). -/
def configWindows (s : State) : List Nat :=
  s.regs.filterMap fun e =>
    let pg := e.1 / 4096
    let o := e.1 % 4096
    let w := (pg - 0x40) * 128 + (o - 0x90) / 24
    if 0x40 ≤ pg ∧ pg ≤ 0x7F ∧ 0x90 ≤ o ∧ (o - 0x90) % 24 = 0 ∧ (o - 0x90) / 24 < 128 ∧ w < 8064 then some w else none

/-- Hierarchy windows of a port's virtual bridge (R90): memory first, prefetchable second. -/
def hierWindows (s : State) (n : Nat) : List Win :=
  let p := (s.port n).br
  let on := s.isDown n && p.memEn
  let win := fun (num b l : Nat) => ({ num := num, base := b, limit := l, kind := if on && decide (b ≤ l) then 1 else 0,
                                       part := s.portPart n, target := n, attr := 0 } : Win)
  [win (8064 + 2 * n) p.memBase p.memLimit, win (8065 + 2 * n) p.pfBase p.pfLimit]

/-- Any window by number. -/
def window (s : State) (w : Nat) : Win :=
  if w < 8064 then s.configWindow w
  else ((s.hierWindows ((w - 8064) / 2)).getD (w % 2) (s.configWindow w))

/-- The window matches a request of a partition at an address (R88); with FAB_EN 0 a FABRIC window matches nothing. -/
def winMatches (s : State) (part addr : Nat) (w : Win) : Bool :=
  decide (1 ≤ w.kind ∧ w.kind ≤ 5) && (w.part == part || w.part == 31) && decide (w.base ≤ addr ∧ addr ≤ w.limit)
    && (w.kind != 3 || s.flag pgFWD FWD_CTL.FAB_EN)

/-- The lowest-numbered window that matches (R85, R89). -/
def winner (s : State) (part addr : Nat) : Option Win :=
  match (s.configWindows.map s.configWindow).find? (s.winMatches part addr) with
  | some w => some w
  | none => ((List.range 64).flatMap s.hierWindows).find? (s.winMatches part addr)

end State

/-- No attributes: a request without a window (R357). -/
def Attr.zero : Attr :=
  { win := none, prefetch := false, npw := false, idem := false, strict := false, view := 0, swap := 0, pfsz := 0 }

/-- Attributes of the window a request won, each only on the kinds of Table 10.2. -/
def attrOf (w : Win) : Attr :=
  let b := fun i => w.attr.testBit i
  let f := fun lo n => w.attr / 2 ^ lo % 2 ^ n
  { win := some w.num, prefetch := b 31 && w.kind == 1, npw := b 30 && w.kind == 1, idem := b 29,
    strict := b 28 && (w.kind == 3 || w.kind == 4), view := if w.kind = 4 then f 26 2 else 0, swap := f 24 2,
    pfsz := if w.kind = 1 then f 22 2 else 0 }

/-- Outcome of a route decision: a route with its attributes and the window's limit, or a miss with the FWD source that
fires (R86, R93, R95, R101), with the partition it ended in (R101); or a request that the ACS controls (R108) or the Multicast capability (R105) of
the ingress port's bridge block. -/
inductive Verdict where
  | ok (route : Route) (attr : Attr) (limit : Option Nat) (part : Nat)
  | miss (bit part : Nat)
  | blocked (kind : Nat)
  deriving DecidableEq, Repr

namespace State

/-- The request goes to the upstream port of its partition without a window (R85, R357). -/
def toUpstream (s : State) (part : Nat) (t : Tlp) : Verdict :=
  match s.upPort part with
  | none => .miss 0 part
  | some p => .ok (.port p) { Attr.zero with idem := t.kind == .mwr && bitAt (s.getF pgFWD FWD_UPIDEM.PARTS) part } none part

/-- A control of the ACS Control register of a port's bridge is set (R108): 0 Source Validation, 1 Translation Blocking, 2 P2P Request Redirect,
3 P2P Completion Redirect, 4 Upstream Forwarding, 5 P2P Egress Control, 6 Direct Translated P2P. -/
def acsOn (s : State) (p i : Nat) : Bool := s.isDown p && bitAt (s.port p).br.acs i

/-- Source Validation and Translation Blocking of a downstream port (R108): a request whose Requester ID has a bus number outside the port's range, or
a memory request that is not untranslated. -/
def acsBlocks (s : State) (p : Nat) (t : Tlp) : Bool :=
  let b := (s.port p).br
  let bus := t.rid / 256 % 256
  (s.acsOn p 0 && !(decide (b.secBus ≤ bus) && decide (bus ≤ b.subBus)))
    || (s.acsOn p 1 && t.xlat != 0 && (t.kind == .mrd || t.kind == .mwr || t.kind == .atomic || t.kind == .dmwr))

/-- Multicast group that a partition's MC_Base_Address range gives a posted write (R105): MC_Num_Group + 1 groups of 2^shift bytes from the
base. -/
def mcGroup (s : State) (part addr : Nat) : Option Nat :=
  match s.upPort part with
  | none => none
  | some p =>
    let x := (s.port p).br
    let g := (addr - x.mcBase) / 2 ^ x.mcShift
    if x.mcEn && decide (x.mcBase ≤ addr) && decide (g ≤ x.mcNum % 64) then some g else none

/-- MC_Block_All or MC_Block_Untranslated of the ingress port's bridge blocks a write to a group (R105). -/
def mcBlocked (s : State) (ing g : Nat) (t : Tlp) : Bool :=
  s.isUp ing && (bitAt (s.port ing).br.mcBlock g || (t.xlat == 0 && bitAt (s.port ing).br.mcBlockUntr g))

/-- Route of a memory request by the windows (R85, R93 to R95, R98, R101, R105, R108). `ing` is the ingress device port, or
64 + c for the internal requester of Cellar Cc; `ffl` says that FFL stands for the ingress (R101); `fuel` bounds the returns from an endpoint
table entry of this device to R85. A request that R95 refuses is refused before P2P Request Redirect is looked at (DESIGN CHOICE, log 64); of the P2P
controls Direct Translated P2P comes first, then P2P Request Redirect, then P2P Egress Control (DEDUCED, log 64). -/
def routeWin (s : State) : Nat → Nat → Nat → Bool → Tlp → Verdict
  | 0, part, _, _, _ => .miss 4 part
  | fuel + 1, part, ing, ffl, t =>
    let up := !ffl && (decide (64 ≤ ing) || s.isDown ing)
    let other : Verdict := if up then s.toUpstream part t else .miss 0 part
    match (if t.kind == .mwr then s.mcGroup part t.addr else none) with
    | some g =>
      if s.mcBlocked ing g t then .blocked 3
      else if s.flag pgFWD FWD_MCG_CTL.EN g && s.getF pgFWD FWD_MCG_CTL.PART g == part then .ok (.mcast g) Attr.zero none part
      else .miss 0 part
    | none =>
      match s.winner part t.addr with
      | none => other
      | some w =>
        if w.kind = 1 then
          let n := w.target % 64
          let direct := s.acsOn ing 6 && t.xlat == 2
          if n = ing && !ffl then other
          else if s.portEn n && !s.isFfl n && s.portPart n != part && t.kind != .mwr then .miss 2 part
          else if s.acsOn ing 2 && !direct && !ffl then s.toUpstream part t
          else if s.acsOn ing 5 && bitAt (s.port ing).br.egressVec n && !direct && !ffl then .blocked 2
          else .ok (.port n) (attrOf w) (some w.limit) part
        else if w.kind = 2 then
          let g := w.target % 64
          if t.kind == .mwr && s.flag pgFWD FWD_MCG_CTL.EN g then .ok (.mcast g) (attrOf w) (some w.limit) part else .miss 0 part
        else if w.kind = 3 then
          let fea := w.target % 65536
          if fea / 4096 = s.getF pgFWD FWD_CTL.FDID then
            let e := storeGet (fun _ => (0 : Word)) s.ept (fea % 4096)
            let k := e.toNat / 2 ^ 28
            if k = 1 then .ok (.port (e.toNat % 64)) (attrOf w) (some w.limit) part
            else if k = 2 then s.routeWin fuel (e.toNat / 2 ^ 16 % 32) ing true t
            else .miss 4 part
          else .ok (.fabric fea) (attrOf w) (some w.limit) part
        else if w.kind = 4 then
          .ok (.shared (s.swBase + w.target % 2 ^ 15 * 2 ^ 20 + (t.addr - w.base))) (attrOf w) (some w.limit) part
        else .miss 1 part

/-- Route of a packet that arrives over FFL for an endpoint of this device (R101). FFL is its ingress, so no match is a
miss. -/
def routeEndpoint (s : State) (ing fea : Nat) (t : Tlp) : Verdict :=
  let e := storeGet (fun _ => (0 : Word)) s.ept (fea % 4096)
  let k := e.toNat / 2 ^ 28
  let part := e.toNat / 2 ^ 16 % 32
  if !s.flag pgFWD FWD_CTL.FAB_EN then .miss 0 31
  else if k = 1 then .ok (.port (e.toNat % 64)) Attr.zero none (s.portPart (e.toNat % 64))
  else if k = 2 then s.routeWin 4 part ing true t
  else .miss 4 31

/-- Downstream port of a partition whose bus range holds a bus number (R96). -/
def busPort (s : State) (part bus : Nat) : Option Nat :=
  (List.range 64).find? fun n => s.isDown n && s.portPart n == part && decide ((s.port n).br.secBus ≤ bus)
    && decide (bus ≤ (s.port n).br.subBus) && decide (0 < (s.port n).br.secBus)

/-- ID routing within a partition (R96): the downstream port whose bus range holds the bus of the target ID, else the upstream
port. -/
def routeId (s : State) (part id : Nat) : Option Nat :=
  match s.busPort part (id / 256 % 256) with
  | some n => some n
  | none => s.upPort part

/-- Usable FFL port towards a fabric device (R98, R99): PRI, else ALT. -/
def fdtPort (s : State) (d : Nat) : Option Nat :=
  if s.flag pgFWD FWD_FDT.PRI_EN d && !s.noTraffic (s.getF pgFWD FWD_FDT.PRI d) then some (s.getF pgFWD FWD_FDT.PRI d)
  else if s.flag pgFWD FWD_FDT.ALT_EN d && !s.noTraffic (s.getF pgFWD FWD_FDT.ALT d)
    then some (s.getF pgFWD FWD_FDT.ALT d)
  else none

/-- FFL port whose queue of a traffic class is a scheduled stream from ingress `ing`, and that can take traffic. -/
def streamPort (s : State) (ing tc x : Nat) : Bool :=
  let st := s.streamOf (queueOf x tc)
  s.isFfl x && st.sched && st.ing == ing

/-- Port by which a packet of an ingress and traffic class goes to fabric device `d` (R98 to R100): PRI or ALT where its queue is a stream from the
packet's ingress, else an FFL port with such a stream whose link partner is `d`, else any FFL port with such a stream; where there is none at all, the
port of the fabric device table (DEDUCED, log 28). -/
def fabPort (s : State) (ing tc d : Nat) : Option Nat :=
  let gates := (List.range 64).filter fun x => s.streamPort ing tc x
  let up := gates.filter fun x => !s.noTraffic x
  let named := fun (en f : FRef) => if s.flag pgFWD en d && up.contains (s.getF pgFWD f d) then some (s.getF pgFWD f d) else none
  if gates.isEmpty then s.fdtPort d
  else (((named FWD_FDT.PRI_EN FWD_FDT.PRI).orElse fun _ => named FWD_FDT.ALT_EN FWD_FDT.ALT).orElse fun _ =>
    up.find? fun x => s.getF (pgFFL x) FFL_PEER.FDID == d).orElse fun _ => up.head?

/-- The destination of a packet of an ingress and traffic class cannot take traffic (R109). A PORT route to an FFL port, undefined by R127, is judged
as it passes. -/
def destDown (s : State) (ing tc : Nat) (r : Route) : Bool :=
  match r with
  | .port p => s.noTraffic p && !s.isFfl p
  | .fabric fea => (s.fabPort ing tc (fea / 4096)).isNone
  | .shared _ | .mcast _ | .bar _ _ _ | .vfBar _ _ _ | .none => false

/-! ## Acceptance windows (R141) -/

/-- Length of the cycle, 1 while none is active. -/
def cycleLen (s : State) : Nat :=
  match s.sched.active with
  | none => 1
  | some v => max 1 v.cycle

/-- Acceptance window of a tick (R141): none before E + O. -/
def windowOf (s : State) (q a : Nat) : Option Nat :=
  let o := s.sched.epoch + (s.streamOf q).offset
  if a < o then none else some ((a - o) / s.cycleLen)

/-- Queue to which a packet of one destination is routed. -/
def routedTo (s : State) (p : Packet) : Option Nat :=
  match p.route with
  | .port d => some (queueOf d p.tlp.tc)
  | .fabric fea => (s.fabPort p.ing p.tlp.tc (fea / 4096)).map fun d => queueOf d p.tlp.tc
  | .mcast _ | .shared _ | .bar _ _ _ | .vfBar _ _ _ | .none => none

/-- Cells of the packet's window that took their numbers before its walk ended though they were accepted after it (R141; DESIGN CHOICE, log 78). -/
def numberedAhead (s : State) (p : Packet) : Nat :=
  match s.routedTo p with
  | none => 0
  | some q =>
    let a := p.acc.headD s.fabric
    (((storeGet (fun _ => []) s.sched.accWin q).filter fun x => s.windowOf q a == some x.1 && ahead (a, p.id) (x.2.1, x.2.2.1)).map (·.2.2.2)).sum

/-! ## Services endpoint -/

/-- Bytes of a partition's translation slice (R398); 0 when it has none. -/
def sliceSize (s : State) (k : Nat) : Nat :=
  let l := s.getF pgVIM VIM_PXLAT.SIZE_LOG k
  if l ≤ 11 then 2 ^ 21 * 2 ^ l else 0

/-- HBM address at which a partition's slice starts (R398). -/
def sliceBase (s : State) (k : Nat) : Nat := s.regionBase 3 + s.getF pgVIM VIM_PXLAT.BASE k * 2 ^ 21

/-- BAR that an address hits in the services endpoint of PARTk (R85, R393, R394): the physical function's, or that of a
virtual function whose instance is not ABSENT (R397). -/
def barHit (s : State) (k addr : Nat) : Option Route :=
  let p := s.part k
  let hit := fun (b : Option Nat) (size : Nat) => match b with
    | some x => decide (x ≤ addr) && decide (addr < x + size)
    | none => false
  let off := fun (b : Option Nat) => addr - b.getD 0
  let base := s.getF pgVIM VIM_PALLOC.BASE k
  if !p.memEn && !p.vfMemEn then none
  else if p.memEn && hit p.bar0 (8 * 2 ^ 20) then some (.bar k 0 (off p.bar0))
  else if p.memEn && hit p.bar2 (s.sliceSize k) then some (.bar k 2 (off p.bar2))
  else if p.memEn && hit p.bar4 65536 then some (.bar k 4 (off p.bar4))
  else if p.vfMemEn && hit p.vfBar0 (8192 * p.numVfs) && (s.inst (base + off p.vfBar0 / 8192)).stt != 0
    then some (.vfBar (base + off p.vfBar0 / 8192) 0 (off p.vfBar0 % 8192))
  else if p.vfMemEn && hit p.vfBar2 (65536 * p.numVfs) && (s.inst (base + off p.vfBar2 / 65536)).stt != 0
    then some (.vfBar (base + off p.vfBar2 / 65536) 2 (off p.vfBar2 % 65536))
  else none

/-! ## Binding -/

/-- An entry of the binding table. -/
def bindAt (s : State) (e : Nat) : BindEntry := storeGet (fun _ => ⟨0, 0, 0⟩) s.bind e

/-- The entry matches port, Requester ID and PASID (R402). -/
def bindMatches (port rid : Nat) (pasid : Option Nat) (b : BindEntry) : Bool :=
  b.d0.toNat.testBit 31 && decide (b.d0.toNat / 2 ^ 24 % 64 = port) && decide (b.d0.toNat % 65536 = rid)
    && (!b.d1.toNat.testBit 11 || pasid == some (b.d1.toNat / 4096))

/-- Result of the binding lookup (R402): the binding, and whether it names an instance of another partition. -/
def bindLookup (s : State) (port rid : Nat) (pasid : Option Nat) : Option Bound × Bool :=
  match s.bind.find? fun e => bindMatches port rid pasid e.2 with
  | none => (none, false)
  | some (e, b) =>
    let vi := b.d1.toNat % 2048
    if s.partOfInst vi = 31 ∨ s.partOfInst vi ≠ s.portPart port then (none, true)
    else if (s.inst vi).stt = 0 then (none, false)
    else (some ⟨some e, vi, (s.inst vi).gen⟩, false)

/-! ## Access slots -/

/-- The slot is in use and its range holds the byte (R373). -/
def slotRange (s : State) (n b : Nat) : Bool :=
  s.flag pgACC ACC_RD.EN n && decide (s.getF pgACC ACC_BASE.ADDR n * 64 ≤ b)
    && decide (b ≤ s.getF pgACC ACC_LIMIT.ADDR n * 64 + 63)

/-- The slot's masks admit a partition's access kind. -/
def slotAllows (s : State) (n part : Nat) (rd wr : Bool) : Bool :=
  (!rd || bitAt (s.getF pgACC ACC_RD.PARTS n) part) && (!wr || bitAt (s.getF pgACC ACC_WR.PARTS n) part)

/-- Slots of a class that may hold a byte: class 0 port n, 1 DMA engine n, 2 shared regions, 3 management regions
(Table 10.9). -/
def classSlots (cls n : Nat) : List Nat :=
  if cls = 0 then [n] else if cls = 1 then [64 + n] else if cls = 2 then (List.range 16).map (72 + ·)
  else (List.range 8).map (88 + ·)

/-- The slot a byte belongs to (R373). -/
def slotOf (s : State) (cls n b : Nat) : Option Nat := (classSlots cls n).find? fun k => s.slotRange k b

/-- The byte is allowed by the class (R373). -/
def byteAllowed (s : State) (cls n part : Nat) (rd wr : Bool) (b : Nat) : Bool :=
  match s.slotOf cls n b with
  | none => false
  | some k => s.slotAllows k part rd wr

/-- Result of an access check: every byte allowed; else the code of Table 10.16 CAUSE (0 NOMATCH, 1 DENY, 2 SPLIT), the first
forbidden byte and its slot (0x7F none). -/
def judge (s : State) (cls n part : Nat) (rd wr : Bool) (bytes : List Nat) : Option (Nat × Nat × Nat) :=
  let ok := s.byteAllowed cls n part rd wr
  match bytes.find? fun b => !ok b with
  | none => none
  | some b =>
    let slot := (s.slotOf cls n b).getD 0x7F
    let cause := if bytes.any ok then 2 else if bytes.any (fun x => (s.slotOf cls n x).isNone) then 0 else 1
    some (cause, b, slot)

/-- Check of a route's target (Table 10.10): class, selector, and offset taken from addresses. None: not checked. -/
def routeClass (s : State) (r : Route) : Option (Nat × Nat) :=
  match r with
  | .port p => if s.isFfl p then none else some (0, p)
  | .shared _ => some (2, 0)
  | .bar _ b _ => if b = 0 then some (3, 0) else none
  | .fabric _ | .mcast _ | .vfBar _ _ _ | .none => none

/-- Address of byte `a` of a request at `addr` in the space its class compares (Table 10.9). -/
def classAddr (s : State) (r : Route) (addr a : Nat) : Nat :=
  match r with
  | .shared h => h + a - addr - s.swBase
  | .bar _ _ off => off + a - addr
  | .port _ | .fabric _ | .mcast _ | .vfBar _ _ _ | .none => a

/-- Capture a request under R378. -/
def accCapture (s : State) (part port cls slot cause req a0 a1 : Nat) : State :=
  if s.flag pgACC ACC_ERR_INFO.VALID then s
  else
    let s1 := (s.setF pgACC ACC_ERR_ADDR0.ADDR a0).setF pgACC ACC_ERR_ADDR1.ADDR a1
    let s2 := (s1.setFlag pgACC ACC_ERR_INFO.VALID true).setF pgACC ACC_ERR_INFO.PART part
    let s3 := (s2.setF pgACC ACC_ERR_INFO.PORT (portTag port)).setF pgACC ACC_ERR_INFO.SLOT slot
    ((s3.setF pgACC ACC_ERR_INFO.CLASS cls).setF pgACC ACC_ERR_INFO.CAUSE cause).setF pgACC ACC_ERR_INFO.REQ req

/-- Capture a request of FWD source 0 to 4 (R126). -/
def fwdCapture (s : State) (bit part port req addr : Nat) : State :=
  if s.flag pgFWD FWD_MISS_INFO.VALID || decide (4 < bit) then s
  else
    let s1 := (s.setF pgFWD FWD_MISS_ADDR.ADDR addr).setFlag pgFWD FWD_MISS_INFO.VALID true
    let s2 := (s1.setF pgFWD FWD_MISS_INFO.PART part).setF pgFWD FWD_MISS_INFO.PORT (portTag port)
    (s2.setF pgFWD FWD_MISS_INFO.CAUSE bit).setF pgFWD FWD_MISS_INFO.REQ req

/-- A port in REQUIRE mode whose status is not PASS (R563). -/
def attBlocked (s : State) (p : Nat) : Bool :=
  decide (p < 64) && s.getP pgTRU TRU_ATTMODE.MODE 2 (p % 16) (p / 16) == 2
    && s.getP pgTRU TRU_ATTSTS.STS 2 (p % 16) (p / 16) != 2

/-- The 9160 is SEEKING or STANDBY (R487), or an active that is switching over and admits as a standby does (R498). -/
def standby (s : State) : Bool :=
  let r := s.getF pgMIR MIR_STS.ROLE
  r == 1 || r == 3 || s.mir.switchEnd.isSome

end State
end Sys2Proof.Machine
end

