-- ==== Sys2Proof/Machine/Reply.lean ====
section
/-! DEFINITION. Completions the 9160 gives, refusals, and what a request's completion does at the block that owns it
(R97, R363, R365, R444). -/

namespace Sys2Proof.Machine
namespace State

/-- A new packet at the ingress of a Cellar, not yet routed. -/
def newPacket (s : State) (t : Tlp) (ing cell0 : Nat) (ini : Initiator) (part : Nat) (own : Owner) : Packet :=
  { id := s.nextId, tlp := t, orig := t.addr, ing := ing, cell0 := cell0, ini := ini, part := part, bound := none,
    wseq := none, route := .none, attr := Attr.zero, forbidden := false, fab := none, acc := [],
    ncell := cellsOf (tlpBytes t), place := .ingress, queue := 0, ordTick := 0, order := 0, cut := false, entered := [],
    arrived := 0, left := 0, spill := false, spilled := 0,
    spillBusy := 0, poison := none, d1 := 0, mark := .best, bad := false, group := s.nextId,
    held := 0, sample := none, owner := own, ebase := t.addr, elen := t.len }

/-- Add a packet to the pool. -/
def addPacket (s : State) (p : Packet) : State := { s with packets := s.packets ++ [p], nextId := s.nextId + 1 }

/-! ## Completions of the 9160 itself -/

/-- Routing ID of the virtual bridge of a PCIe port: of an upstream one function 0 on its primary bus, of a downstream one a device, whose number the
spec does not give (log 30), on its partition's upstream secondary bus. -/
def bridgeId (s : State) (p : Nat) : Nat :=
  if s.isUp p then (s.port p).br.priBus * 256
  else match s.upPort (s.portPart p) with
    | some u => (s.port u).br.secBus * 256 + 8 * (Config.bridgeDev p % 31)
    | none => 0

/-- Routing ID of the virtual function of instance `i` of PARTk (R392, R397). -/
def vfRid (s : State) (k i : Nat) : Nat := (s.part k).pfRid + (i - s.getF pgVIM VIM_PALLOC.BASE k) + 1

/-- Completer ID of the 9160's completion of a request: of the function whose BAR claimed it, of the services endpoint for the shared window (DESIGN
CHOICE, log 30), of the virtual bridge of the port it was going out of (Table 7.13), else of its ingress port. -/
def completer (s : State) (p : Packet) : Nat :=
  match p.route with
  | .bar k _ _ => (s.part k).pfRid
  | .vfBar i _ _ => s.vfRid p.part i
  | .shared _ => (s.part p.part).pfRid
  | .port d => if s.isUp d || s.isDown d then s.bridgeId d else s.bridgeId p.ing
  | .fabric _ | .mcast _ | .none => if s.isUp p.ing || s.isDown p.ing then s.bridgeId p.ing else (s.part p.part).pfRid

/-- A completion TLP with the traffic class and attributes of the request it answers (R10). -/
def cplTlp (rid tag tc : Nat) (ro ido : Bool) (cid : Nat) (status : CplStatus) (data : List Byte) (poisoned : Bool) : Tlp :=
  { kind := .cpl, rid := rid, tag := tag, pasid := none, tc := tc, addr := rid, len := data.length, mask := [], data := data,
    hdr := 12, ro := ro, ido := ido, poisoned := poisoned, op := .fetchAdd, status := status, cid := cid, count := data.length }

/-- Lower Address of the first completion of a request: that of the first byte that a read asks for, in the requester's byte order; 0 for any other
(R359, R10). -/
def lowAddr (p : Packet) : Nat :=
  if p.tlp.kind != .mrd then 0
  else if p.attr.swap = 0 ∧ p.forbidden = false then ((enabledAddrs p.tlp).headD p.ebase) % 128 else p.ebase % 128

/-- The 9160's completion of a request, to Requester ID `rid`. -/
def ownCpl (s : State) (p : Packet) (rid : Nat) (status : CplStatus) (data : List Byte) (poisoned : Bool) : Tlp :=
  { cplTlp rid p.tlp.tag p.tlp.tc p.tlp.ro p.tlp.ido (s.completer p) status data poisoned with low := lowAddr p }

end State

/-- A completion of a read of `m`-aligned pieces, the first byte at address `a`: each piece says how much is still to come (R10). -/
def cplPieces : Nat → Nat → Nat → Tlp → List Tlp
  | 0, _, _, c => [c]
  | fuel + 1, m, a, c =>
    let n := m - a % m
    if c.data.length ≤ n then [c]
    else { c with data := c.data.take n, len := n } ::
      cplPieces fuel m (a + n) { c with data := c.data.drop n, len := c.len - n, count := c.count - n, low := (a + n) % 128 }

namespace State

/-- A completion that the 9160 gives for a request at address `a` that came in through port `q` and Cellar `c`: it goes to the ingress of the
internal requester of that Cellar, in pieces of the completer's Max Payload Size. One for a port that cannot take traffic is discarded and counted
there (R110). -/
def cplOut (s : State) (q c a : Nat) (t : Tlp) : State :=
  let k := s.portPart q
  let l := cplPieces t.data.length (max 128 (s.part k).maxPay) a t
  if s.noTraffic q then s.onlyIf (s.portEn q) fun u => u.addF (pgLNK q) LNK_LDCNT1.CPL l.length
  else l.foldl (fun u x => u.addPacket { u.newPacket x (64 + c) c (.block k) k .requester with route := .port q }) s

/-- The last completion of a request: a read's when it brings all the bytes that were still to come, every other at once (R264). -/
def lastCpl (req c : Tlp) : Bool := c.status != .sc || req.kind != .mrd || decide (c.count ≤ c.data.length)

/-- Channel record. -/
def chan (s : State) (ch : Nat) : ChanSt := storeGet (fun _ => ChanSt.init) s.chans ch

/-- Change a channel record. -/
def modChan (s : State) (ch : Nat) (f : ChanSt → ChanSt) : State :=
  { s with chans := storeSet (fun _ => ChanSt.init) s.chans ch (f (s.chan ch)) }

end State

/-- The lower of two failures: lower offset, then lower code (R444). -/
def worse (a : Option DmaFail) (b : DmaFail) : DmaFail :=
  match a with
  | none => b
  | some x => if x.off < b.off ∨ (x.off = b.off ∧ x.code ≤ b.code) then x else b

/-- Record a failure of a transfer. -/
def Xfer.failAt (x : Xfer) (off code eng addr : Nat) : Xfer := { x with fail := some (worse x.fail ⟨off, code, eng, addr⟩) }

/-- Insert a staged chunk in order of transfer offset. -/
def stageInsert (c : Nat × List Byte) : List (Nat × List Byte) → List (Nat × List Byte)
  | [] => [c]
  | d :: r => if c.1 < d.1 then c :: d :: r else d :: stageInsert c r

namespace State

/-- Change transfer `num` of a channel. -/
def modXfer (s : State) (ch num : Nat) (f : Xfer → Xfer) : State :=
  s.modChan ch fun c => { c with xfers := c.xfers.map fun x => if x.num == num then f x else x }

/-- Read data of a channel returns (R436, R444, R446): staged, or a failure with the code that `status` gives; `timeout` for a
read that the reaper freed. Data of an old generation is discarded and counted (R414). -/
def dmaData (s : State) (ch num off addr : Nat) (bound : Option Bound) (status : CplStatus) (data : List Byte)
    (poisoned timeout : Bool) : State :=
  let stale := match bound with
    | some b => decide (b.gen ≠ (s.inst b.vi).gen)
    | none => false
  if stale then (s.addF pgVIM VIM_CNT.STALE).modXfer ch num fun x =>
    { x with inflight := x.inflight.filter (·.1 != off) }
  else
    s.modXfer ch num fun x =>
      let y := { x with inflight := x.inflight.filter (·.1 != off) }
      if timeout then y.failAt off 8 0 addr
      else if status ≠ .sc then y.failAt off 6 0 addr
      else if poisoned then y.failAt off 7 0 addr
      else { y with staged := stageInsert (off, data) y.staged }

/-- A completion of one DMWr of an NPW write (R363). -/
def npwDone (s : State) (id : Nat) (ok : Bool) : State :=
  match s.npw.find? (·.id == id) with
  | none => s
  | some w =>
    let w' := { w with left := w.left - 1, failed := w.failed || !ok }
    if w'.left = 0 then
      let s1 := { s with npw := s.npw.filter (·.id != id) }
      if w'.failed then ({ s1 with openW := s1.openW.filter (·.pkt != w.pkt.group) } : State).failLater w.pkt 8 0 else s1
    else { s with npw := s.npw.map fun x => if x.id == id then w' else x }

/-- A completion of Cellar `c` to a source FDID and Cellar (R102, R295, R304), at the ingress of the Cellar's transport. -/
def fabCpl (s : State) (c fdid srcCellar part lp : Nat) (t : Tlp) : State :=
  let h : FabHdr := { kind := 2, ro := t.ro, sync := false, replay := false, dst := fdid * 4096, cls := 2,
                      cellar := c, src := s.getF pgFWD FWD_CTL.FDID, part := part, aux := 0,
                      tseq := 0, pbar := 0 }
  let p := s.newPacket t (64 + c) c (.fabric fdid srcCellar part t.rid) lp .requester
  s.addPacket { p with route := .fabric (fdid * 4096), fab := some h }

/-- A completion `t` for a request that arrived over the fabric returns to its source under the Requester ID and tag of its fabric request table
entry, which the last one frees (R102, R304). -/
def frtReply (s : State) (entry : Nat) (t : Tlp) (last : Bool) : State :=
  match s.frt.find? (·.entry == entry) with
  | none => s
  | some e =>
    (s.onlyIf last fun u => { u with frt := u.frt.filter (·.entry != entry) }).fabCpl e.cellar e.fdid e.srcCellar e.part e.localPart
      { t with rid := e.rid, tag := e.tag, addr := e.rid }

/-- A request carries a generation that its instance no longer has. -/
def staleGen (s : State) (p : Packet) : Bool := p.bound.any fun b => b.gen != (s.inst b.vi).gen

/-- A request past the ordering point carries a generation that its instance no longer has: what returns for it is discarded and counted
(R414). -/
def stale (s : State) (p : Packet) : Bool := s.staleGen p && (p.place == .egress || p.place == .window)

/-- List entries that a transfer reads from the shared window: those written since its GO are free (R455). -/
def listBytes (s : State) (ch num : Nat) (r : Route) (data : List Byte) : State × List Byte :=
  match r with
  | .shared h =>
    let since := ((s.chan ch).xfers.find? (·.num == num)).elim 0 (·.since)
    let bad := fun (i : Nat) => (s.listDirty.drop since).any fun d => decide (d.1 < h + (i / 16 * 16 + 16) ∧ h + i / 16 * 16 < d.1 + d.2)
    if (List.range data.length).any bad then
      let l := freeBytesN s.free data.length
      ({ s with free := s.free + 1 }, (List.range data.length).map fun i => if bad i then l.getD i 0 else data.getD i 0)
    else (s, data)
  | .port _ | .fabric _ | .mcast _ | .bar _ _ _ | .vfBar _ _ _ | .none => (s, data)

/-- Complete a request, as Completer Abort when some of its bytes were forbidden (R376): to its requester, or to the block that owns it. A Completer Abort or an Unsupported Request is an
exception of the initiator (R339). A read served by prefetch carries the Completer ID `cid` of its block (R365). The data of a request whose result R387
leaves undefined is free. An NPW write fails by the status that came (R363). -/
def reply (s : State) (p : Packet) (status : CplStatus) (data : List Byte) (poisoned : Bool := false) (cid : Option Nat := none) : State :=
  let came := status
  let status := if p.forbidden then .ca else status
  let (data, s) := if p.taint then (freeBytesN s.free data.length, ({ s with free := s.free + 1 } : State)) else (data, s)
  let s1 := if status = .ca ∨ status = .ur ∨ poisoned then s.exception p.ini else s
  let sentBy := fun (c : Tlp) => { c with cid := cid.getD c.cid }
  match p.owner with
  | .split g =>
    if s.stale p then ({ s with splits := s.splits.filter (·.id != g) } : State).addF pgVIM VIM_CNT.STALE else
    (match s1.splits.find? (·.id == g) with
     | none => s1
     | some w =>
       if w.left ≤ 1 then
         let s2 := { s1 with splits := s1.splits.filter (·.id != g) }
         (match w.pkt.ini with
          | .port q rid _ => s2.cplOut q w.pkt.cell0 0 (s2.ownCpl w.pkt rid .ca [] false)
          | .fabric _ _ _ _ => (match w.pkt.owner with
            | .fabric e => s2.frtReply e (s2.ownCpl w.pkt 0 .ca [] false) true
            | .requester | .npw _ | .split _ | .prefetch _ | .dma _ _ _ | .dmaList _ _ _ | .load _ => s2)
          | .cxl _ | .chan _ | .block _ => s2)
       else { s1 with splits := s1.splits.map fun x => if x.id == g then { x with left := x.left - 1 } else x })
  | .requester =>
    if s.stale p then s.addF pgVIM VIM_CNT.STALE else
    match p.ini with
    | .port q rid _ => s1.cplOut q p.cell0 p.ebase (sentBy (s1.ownCpl p rid status data poisoned))
    | .cxl q => s1.cplOut q p.cell0 p.ebase (sentBy (s1.ownCpl p p.tlp.rid status data poisoned))
    | .fabric fd sc k rid => s1.fabCpl p.cell0 fd sc k p.part (sentBy (s1.ownCpl p rid status data poisoned))
    | .chan _ | .block _ => s1
  | .npw id => s1.npwDone id (came == .sc)
  | .prefetch b =>
    { s1 with pf := s1.pf.map fun x => if x.id == b then { x with result := some (status, data, poisoned) } else x }
  | .fabric e => s1.frtReply e (sentBy (s1.ownCpl p 0 status data poisoned)) true
  | .dma ch num off =>
    if p.forbidden then s1.modXfer ch num fun x => { x with inflight := x.inflight.filter (·.1 != off) }
    else s1.dmaData ch num off p.orig p.bound status data poisoned false
  | .dmaList ch num side =>
    if s.staleGen p then s.addF pgVIM VIM_CNT.STALE
    else
      let (s2, d) := s1.listBytes ch num p.route data
      s2.modChan ch fun c => { c with lists := c.lists ++ [(num, side, status, d, poisoned)] }
  | .load off =>
    if status = .sc ∧ ¬ poisoned then
      { s1 with sched := { s1.sched with load := s1.sched.load.map fun l => { l with got := stageInsert (off, data) l.got, moved := s.ticks } } }
    else { s1 with sched := { s1.sched with load := s1.sched.load.map fun l => { l with failed := true } } }

/-- Bit of the AER Uncorrectable Error registers of an error kind of `aerPort`, as PCI Express places it: Unsupported Request, Unexpected Completion,
ACS Violation, MC Blocked TLP, Surprise Down. -/
def aerBit (kind : Nat) : Nat := if kind = 1 then 16 else if kind = 2 then 21 else if kind = 3 then 23 else if kind = 4 then 5 else 20

/-- An error that the ingress port records and, unless it is masked, reports through AER (R86, R242): Unsupported Request, or another kind; a request
of a block has no port. -/
def aerPort (s : State) (ing : Nat) (kind : Nat := 0) : State :=
  if 64 ≤ ing then s
  else
    let bit := aerBit kind
    let s1 := s.modPort ing fun x => { x with br := { x.br with aerSts := bitSet x.br.aerSts bit } }
    if bitAt (s.port ing).br.aerMask bit then s1 else s1.emitHost (s1.portPart ing) [.aerPort ing kind]

/-- A request is refused: a non-posted one completes with `status`, a posted one is discarded; the ingress port reports it
(R86, R376, R408). -/
def refuse (s : State) (p : Packet) (status : CplStatus := .ur) (kind : Nat := 0) : State :=
  let s1 := if nonPosted p.tlp then s.reply p status [] else s
  s1.aerPort p.ing kind

/-- A miss (R86), with the FWD source that fires and its capture (R126). The captured address is the one the request arrived with, before any
translation (DESIGN CHOICE, log 77). -/
def missTlp (s : State) (p : Packet) (bit : Nat) : State :=
  ((s.refuse p).fwdCapture bit p.part p.ing (fwdReq p) p.orig).fire pgFWD bit p.part (faultPort p)

end State
end Sys2Proof.Machine
end

