-- ==== Sys2Proof/Machine/Ingress.lean ====
section
/-! DEFINITION. The ingress pipeline of a request before the ordering point: translation (R404 to R408), route decision,
byte-lane rule, straddle and access check (R83 to R110, R361, R371 to R378), for requests of ports, of the fabric and of
the DMA engines alike. -/

namespace Sys2Proof.Machine

/-- DMA engine slot selector of a channel's packet (Table 10.9): 2c + e. -/
def engOf (p : Packet) : Option Nat :=
  match p.ini with
  | .chan c => some (2 * (c / 256) + (if p.tlp.kind == TlpKind.mwr then 1 else 0))
  | .port _ _ _ | .fabric _ _ _ _ | .cxl _ | .block _ => none

/-- The packet is the first request of its element, which stands for the whole element in faults and captures. -/
def firstOfElement (p : Packet) : Bool := (engOf p).isNone || (if p.reqLen = 0 then p.tlp.addr else p.reqAddr) == p.ebase

/-- Insert a number into a rising list. -/
def natInsert (x : Nat) : List Nat → List Nat
  | [] => [x]
  | y :: r => if x ≤ y then x :: y :: r else y :: natInsert x r

/-- A contiguous element passes under DIn (R360). -/
def elemFits (n a len : Nat) : Bool :=
  n == 1 || (a % n == 0 && len % n == 0) || a / n == (a + len - 1) / n

/-- The leaf refuses the access (Table 11.7). -/
def leafRefuses (leaf : Dword) (t : Tlp) : Bool :=
  (needsRd t && !leaf.toNat.testBit 2) || (needsWr t && !leaf.toNat.testBit 3)

/-- Address after translation by a leaf (R405). -/
def leafAddr (e : TtuEntry) (a : Nat) : Nat := e.leaf.toNat / 2 ^ 12 % 2 ^ 52 * 2 ^ 12 + a % 2 ^ e.shift

namespace State

/-- A request of a block stops with a DMA status code, any other request is refused with a completion status. -/
def stopReq (s : State) (p : Packet) (status : CplStatus) (code : Nat) : State :=
  match p.owner with
  | .dma ch num off =>
    s.modXfer ch num fun x =>
      ({ x with inflight := x.inflight.filter (·.1 != off) }).failAt off code
        (if p.tlp.kind == TlpKind.mwr then 1 else 0) p.orig
  | .dmaList ch num side => s.modChan ch fun c => { c with lists := c.lists ++ [(num, side, status, [], false)] }
  | .requester | .npw _ | .split _ | .prefetch _ | .fabric _ | .load _ => s.refuse p status

/-- A miss of any request (R86, Table 12.2 ROUTE). -/
def missReq (s : State) (p : Packet) (bit : Nat) : State :=
  if (engOf p).isSome then
    ((s.stopReq p .ur 5).fwdCapture bit p.part 63 (fwdReq p) p.orig).fire pgFWD bit p.part
  else s.missTlp p bit

/-- The request is handled as a miss with a source of another page in place of FWD_MISS (R360, R563). -/
def missOther (s : State) (p : Packet) (page bit : Nat) : State :=
  (s.stopReq p .ur 5).fire page bit p.part (faultPort p)

/-! ## Translation -/

/-- Cached leaf that covers an address of an instance, by page size (R406). -/
def ttuFind (s : State) (c vi addr : Nat) : Option (Nat × TtuEntry) :=
  [12, 21, 30].findSome? fun sh =>
    let key := c * 4096 + ((addr / 2 ^ sh % 4096) ^^^ vi) % 4096
    match (storeGet (fun _ => []) s.ttu key).find? fun e =>
        e.vi == vi && e.shift == sh && e.page == addr / 2 ^ sh && e.gen == (s.inst vi).gen with
    | some e => some (key, e)
    | none => none

/-- A hit makes its entry the most recently used of its set, and counts (R406, Table 11.19). -/
def ttuHit (s : State) (c key : Nat) (e : TtuEntry) : State :=
  let l := storeGet (fun _ => []) s.ttu key
  let s1 := { s with ttu := storeSet (fun _ => []) s.ttu key (e :: l.filter (· != e)) }
  let n := storeGet (fun _ => 0) s1.ttuHits c + 1
  let s2 := { s1 with ttuHits := storeSet (fun _ => 0) s1.ttuHits c (n % 1024) }
  (s2.onlyIf (n == 1024) fun t => t.addF (pgTTU c) TTU_CNT0.HITS).count c 8 0 0 1

/-- A leaf is cached at the end of a walk, replacing the least recently used way of a full set (R406, R407). -/
def ttuCache (s : State) (c : Nat) (e : TtuEntry) : State :=
  let key := c * 4096 + ((e.page % 4096) ^^^ e.vi) % 4096
  let l := (storeGet (fun _ => []) s.ttu key).filter fun x =>
    !(x.vi == e.vi && x.shift == e.shift && x.page == e.page && x.gen == e.gen)
  { s with ttu := storeSet (fun _ => []) s.ttu key ((e :: l).take 12) }

/-- Capture of a TTU fault (R417). -/
def ttuCapture (s : State) (c bit vi ing addr : Nat) : State :=
  if s.flag (pgTTU c) TTU_ERR_INFO.VALID then s
  else
    let s1 := (s.setF (pgTTU c) TTU_ERR_ADDR.ADDR addr).setFlag (pgTTU c) TTU_ERR_INFO.VALID true
    ((s1.setF (pgTTU c) TTU_ERR_INFO.VI vi).setF (pgTTU c) TTU_ERR_INFO.PORT (portTag ing)).setF (pgTTU c)
      TTU_ERR_INFO.CAUSE bit

/-- A request that fails translation (R408, Table 11.7): Completer Abort for a non-posted request on an ECC fault. -/
def ttuRefuse (s : State) (p : Packet) (bit : Nat) : State :=
  let vi := (p.bound.map (·.vi)).getD 0
  let s1 := s.stopReq p (if bit = 3 then .ca else .ur) 4
  let s2 := (s1.addF (pgTTU p.cell0) TTU_CNT1.FAULTS).ttuCapture p.cell0 bit vi p.ing p.tlp.addr
  s2.fire (pgTTU p.cell0) bit p.part (faultPort p)

/-- The instance's requests are translated (R404). -/
def translates (s : State) (p : Packet) : Bool :=
  match p.bound with
  | none => false
  | some b => s.flag (pgVIMI b.vi) VIM_ICTL.TRANS (b.vi % 64)

/-- A walk that a miss may share (R407). -/
def walkFor (s : State) (c vi addr : Nat) : Option Walk :=
  s.walks.find? fun w => w.cellar == c && w.vi == vi && w.gen == (s.inst vi).gen && w.addr / 4096 == addr / 4096

/-- The walk that a miss waits for (R407): one that it may share, else its own, which starts when the slice runs fewer than 64; none while it runs 64. -/
def joinWalk (s : State) (c vi part addr : Nat) : State × Option Nat :=
  match s.walkFor c vi addr with
  | some w => (s, some w.id)
  | none =>
  if 64 ≤ (s.walks.filter (·.cellar == c)).length then (s, none)
  else
    let w : Walk := { id := s.nextId, cellar := c, vi := vi, gen := (s.inst vi).gen, part := part, addr := addr,
                      level := 2, table := s.getF (pgVIMI vi) VIM_IROOT.ADDR (vi % 64) * 4096, restart := false, again := false }
    ((({ s with walks := s.walks ++ [w], nextId := s.nextId + 1 }).addF (pgTTU c) TTU_CNT0.MISSES).count c 9 0 0 1, some s.nextId)

/-! ## Route, swap, access -/

/-- Addresses, in the space of a class, at which an access decision over `len` bytes from `a` can change: the first byte and
each slot boundary inside (R376). -/
def accSamples (s : State) (cls n a len : Nat) : List Nat :=
  let bs := (classSlots cls n).flatMap fun k =>
    [s.getF pgACC ACC_BASE.ADDR k * 64, s.getF pgACC ACC_LIMIT.ADDR k * 64 + 64]
  a :: (bs.filter fun x => decide (a < x ∧ x < a + len)).foldl (fun l x => natInsert x l) []


/-- Classes that check a routed packet, in order (Table 10.10), with the map of its addresses into each. -/
def checksOf (s : State) (p : Packet) : List (Nat × Nat × (Nat → Nat)) :=
  let eng := match engOf p with
    | some e => [(1, e, id)]
    | none => []
  let tgt := match s.routeClass p.route with
    | some (cls, n) => [(cls, n, s.classAddr p.route p.tlp.addr)]
    | none => []
  eng ++ tgt

/-- The element of a DMA request as it is sent: moved bytes where it lies within one unit of the byte-lane rule (R360), cut at a straddle (R371). -/
def sentElement (p : Packet) : Nat × Nat :=
  let n := swapUnit p.attr.swap
  if n == 1 || (p.ebase % n == 0 && p.elen % n == 0) then (p.ebase, p.elen) else (p.tlp.addr, p.tlp.len)

/-- Addresses that the access check looks at (R374, R377): of the element for a DMA request its first byte and those at which a decision can change, else
the enabled bytes. -/
def checkedAddrs (s : State) (p : Packet) (cs : List (Nat × Nat × (Nat → Nat))) : List Nat :=
  if (engOf p).isNone then judgedAddrs p.tlp
  else
    let e := sentElement p
    let offs := cs.flatMap fun c => (s.accSamples c.1 c.2.1 (c.2.2 e.1) e.2).map (· - c.2.2 e.1)
    (offs.foldl (fun l x => natInsert x l) []).map (e.1 + ·)

/-- Outcome of the access check of a packet over every class that checks it (R376, R378): the class that forbids its first forbidden byte with its
address map, the source that fires, that byte and its slot. -/
def judgeAll (s : State) (p : Packet) : Option ((Nat × Nat × (Nat → Nat)) × Nat × Nat × Nat) :=
  let cs := s.checksOf p
  let may := fun (c : Nat × Nat × (Nat → Nat)) (a : Nat) => s.byteAllowed c.1 c.2.1 p.part (needsRd p.tlp) (needsWr p.tlp) (c.2.2 a)
  let ok := fun (a : Nat) => cs.all fun c => may c a
  let all := s.checkedAddrs p cs
  match all.find? fun a => !ok a with
  | none => none
  | some b =>
    (cs.find? fun c => !may c b).map fun c =>
      let cause := if all.any ok then 2
        else if all.any fun x => cs.any fun d => (s.slotOf d.1 d.2.1 (d.2.2 x)).isNone then 0 else 1
      (c, cause, c.2.2 b, (s.slotOf c.1 c.2.1 (c.2.2 b)).getD 0x7F)

/-- The access check (R374 to R378): the packet with its allowed bytes, or none when it was refused. A request of a read element that has forbidden bytes
is read, and its data not written (R377, R446). -/
def accessCheck (s : State) (p : Packet) : State × Option Packet :=
  let cs := s.checksOf p
  match s.judgeAll p with
  | none => (s, some p)
  | some (c, cause, bad, slot) =>
    let first := c.2.2 (if (engOf p).isSome then (sentElement p).1 else p.tlp.addr)
    let ok := fun a => cs.all fun c => s.byteAllowed c.1 c.2.1 p.part (needsRd p.tlp) (needsWr p.tlp) (c.2.2 a)
    let req := match engOf p with
      | some _ => if p.tlp.kind == .mwr then 7 else 6
      | none => reqCode p.tlp
    let s1 := if firstOfElement p then
        (s.accCapture p.part p.ing c.1 slot cause req first bad).fire pgACC cause p.part (faultPort p)
      else s
    let s2 := s1.exception p.ini
    let some1 := (judgedAddrs p.tlp).any ok
    if !(judgedAddrs p.tlp).all ok then
      let off := ((judgedAddrs p.tlp).findIdx fun a => !ok a)
      let s3 := match p.owner with
        | .dma ch num o => s2.modXfer ch num fun x =>
            x.failAt (o + off) 3 (if p.tlp.kind == TlpKind.mwr then 1 else 0) (p.orig + off)
        | .requester | .npw _ | .split _ | .prefetch _ | .fabric _ | .dmaList _ _ _ | .load _ => s2
      if some1 && p.tlp.kind != .atomic then
        (s3.onlyIf (engOf p).isNone fun t => t.aerPort p.ing,
         some { p with tlp := keepBytes p.tlp ok, forbidden := true })
      else (s3.stopReq p .ur 3, none)
    else (s2, some (if (engOf p).isSome && p.tlp.kind == .mrd then { p with forbidden := true } else p))

/-- Ports of a multicast write, lowest first, before any is found down: the group's members, or for a broadcast message of PARTk (group
64 + k) its downstream ports. -/
def mcastPorts (s : State) (p : Packet) (g : Nat) : List Nat :=
  (List.range 64).filter fun d => d != p.ing && !s.portDisabled d
    && (if g < 64 then bitAt (s.getF pgFWD FWD_MCG_MASK.PORTS g) d else s.isDown d && s.portPart d == g - 64)

/-- The port slot of one destination of a multicast write judges its copy (R374): the offsets that the copy loses. -/
def mcastJudge (s : State) (p : Packet) (d : Nat) : State × List Nat :=
  let plain := match p.ini with
    | .chan _ => Initiator.block p.part
    | .port _ _ _ | .fabric _ _ _ _ | .cxl _ | .block _ => p.ini
  match s.accessCheck { p with route := .port d, ini := plain } with
  | (s1, none) => (s1, List.range (max 1 p.tlp.len))
  | (s1, some q) => (s1, (List.range p.tlp.len).filter fun i => enabledAt p.tlp i && !enabledAt q.tlp i)

/-- The port slots of a multicast write's destinations judge it in the tick of its route decision (R374). -/
def mcastJudged (s : State) (p : Packet) (g : Nat) : State × Packet :=
  if !isWrite p.tlp then (s, p)
  else
    (s.mcastPorts p g).foldl (fun (x : State × Packet) d =>
      let (s1, l) := x.1.mcastJudge p d
      (s1, { x.2 with mcSeen := x.2.mcSeen ++ [(d, l)] })) (s, p)

/-- The access check of a routed packet with the element as the straddle left it, whose whole length is `whole`. -/
def checkRouted (s : State) (q : Packet) (whole : Nat) : State × Option Packet :=
  match s.accessCheck q with
  | (s1, none) => (s1, none)
  | (s1, some r) =>
    let k := { r with elen := whole }
    match k.route with
    | .mcast g => let (s2, k2) := s1.mcastJudged k g; (s2, some k2)
    | .port _ | .shared _ | .fabric _ | .bar _ _ _ | .vfBar _ _ _ | .none => (s1, some k)

/-- Byte-lane rule and straddle for a routed packet (R360, R361, R371), then destination, attestation and access. The result
stands at the ordering point, or is gone. -/
def afterRoute (s : State) (p : Packet) (limit : Option Nat) : State × Option Packet :=
  let n := swapUnit p.attr.swap
  let fits := if (engOf p).isSome then elemFits n p.ebase p.elen else swapFits n p.tlp
  if !fits then (s.missOther p pgFWD 6, none)
  else
    let t := swapTlp n p.tlp
    let route := match p.route with
      | .shared h => Route.shared (h + t.addr - p.ebase)
      | .port q => .port q
      | .fabric f => .fabric f
      | .mcast g => .mcast g
      | .bar a b c => .bar a b c
      | .vfBar a b c => .vfBar a b c
      | .none => .none
    let q := { p with tlp := t, route := route, reqAddr := p.tlp.addr, reqLen := p.tlp.len }
    let closed := match route with
      | .port d => s.partFatal (s.portPart d) && s.portPart d != p.part
      | .shared _ | .fabric _ | .mcast _ | .bar _ _ _ | .vfBar _ _ _ | .none => false
    if s.destDown p.ing t.tc route || closed then
      let s1 := (s.fwdCapture 3 p.part p.ing (fwdReq p) p.orig).fire pgFWD 3 p.part (faultPort p)
      (if nonPosted p.tlp then (s1.stopReq p .ur 6, none) else (s1.failLater p 1 (pgFWD * 32 + 3), none))
    else
      let blocked := match route with
        | .port d => s.attBlocked d
        | .shared _ | .fabric _ | .mcast _ | .bar _ _ _ | .vfBar _ _ _ | .none => false
      if blocked then (s.missOther p pgTRU 5, none)
      else
        match limit with
        | none => s.checkRouted q p.elen
        | some l =>
          if p.ebase + p.elen ≤ l + 1 then s.checkRouted q p.elen
          else
            let s1 := if firstOfElement p then s.fire pgFWD 7 p.part (faultPort p) else s
            let s2 := match p.owner with
              | .dma ch num o => s1.modXfer ch num fun x =>
                  x.failAt (o + (l + 1 - p.tlp.addr)) 3 (if p.tlp.kind == TlpKind.mwr then 1 else 0) (l + 1)
              | .requester | .npw _ | .split _ | .prefetch _ | .fabric _ | .dmaList _ _ _ | .load _ => s1
            if l < p.tlp.addr then (s2.stopReq p .ca 3, none)
            else if p.tlp.addr + p.tlp.len ≤ l + 1 then s2.checkRouted { q with elen := l + 1 - p.ebase } p.elen
            else s2.checkRouted { q with tlp := keepBytes q.tlp (fun a => decide (a ≤ l)), forbidden := true, elen := l + 1 - p.ebase } p.elen

/-- A packet that failed its IDE integrity check is discarded (R244): a posted write as one that fails later, a non-posted request with Unsupported
Request. -/
def ideDrop (s : State) (p : Packet) : State :=
  let s1 := (s.fire (pgLNK p.ing) 5 p.part p.ing).dropPacket p.id
  if isWrite p.tlp then s1.failLater p 5 (pgLNK p.ing * 32 + 5) else if nonPosted p.tlp then s1.reply p .ur [] else s1

/-- IDE stream `n` of a port, 0 the link stream and 1 + j selective stream j, is Secure (Table 7.15). -/
def ideSecure (s : State) (port n : Nat) : Bool :=
  if n = 0 then s.flag (pgLNK port) LNK_IDE.LINK_SEC else bitAt (s.getF (pgLNK port) LNK_IDE.SEL_SEC) (n - 1)

/-- An IDE stream of a port becomes Secure or Insecure (R243, R244): `fell` says that a check failed. -/
def ideSet (s : State) (port n : Nat) (on fell : Bool) : State :=
  let pg := pgLNK port
  if n = 0 then s.setFlag pg LNK_IDE.LINK_SEC on
  else
    let put := fun (v : Nat) (b : Bool) => if b then bitSet v (n - 1) else bitClr v (n - 1)
    let s1 := s.setF pg LNK_IDE.SEL_SEC (put (s.getF pg LNK_IDE.SEL_SEC) on)
    s1.onlyIf fell fun t => t.setF pg LNK_IDE.SEL_INSEC (put (t.getF pg LNK_IDE.SEL_INSEC) true)

/-- A selective IDE stream ends at this route: its target is the services endpoint or the shared window (R243). -/
def ideEnds (r : Route) : Bool :=
  match r with
  | .bar _ _ _ | .vfBar _ _ _ | .shared _ => true
  | .port _ | .fabric _ | .mcast _ | .none => false

/-- The check of the IDE stream that protects a received packet fails: by its outcome, or because the stream is not Secure (R244). -/
def ideFails (s : State) (port : Nat) (t : Tlp) (fail : Bool) : Bool :=
  match t.ide with
  | none => false
  | some n => decide (n ≤ 8) && (fail || !s.ideSecure port n)

/-- `k`, unless the check of the selective IDE stream that protects the packet failed and ends at the packet's route: the packet is then discarded
and the stream Insecure, before any check of the access (R243, R244). -/
def ideThen (s : State) (p : Packet) (k : State → State × Option Packet) : State × Option Packet :=
  if p.ideBad && ideEnds p.route then ((s.ideSet p.ing (p.tlp.ide.getD 0) false true).ideDrop p, none) else k s

/-- Route decision of a memory request whose address is final (R85), and what follows. -/
def routeMem (s : State) (p : Packet) : State × Option Packet :=
  match s.routeWin 4 p.part p.ing false { p.tlp with addr := p.ebase } with
  | .miss bit part => (s.missReq { p with part := part } bit, none)
  | .blocked kind => (s.refuse p .ca kind, none)
  | .ok route attr limit part =>
    let q := { p with route := route, attr := attr, part := part }
    s.ideThen q fun t => t.afterRoute q limit

/-- The packet at its new place in the pool: at the ordering point, or gone. -/
def settlePacket (_s : State) (id : Nat) (r : State × Option Packet) : State :=
  match r.2 with
  | none => r.1.dropPacket id
  | some q => r.1.modPacket id fun _ => { q with place := .ingress, skip := r.1.numberedAhead q }

/-- A request of an initiator whose instance waits in HELD is refused (R416); `k` is what follows for any other. -/
def heldOr (s : State) (p : Packet) (k : State) : State :=
  if p.bound.any fun b => (s.inst b.vi).stt == 3 then ((s.stopReq p .ur 4).fire pgVIM 1 p.part (faultPort p)).dropPacket p.id else k

/-- A request goes on under its leaf, which may refuse it (R405, Table 11.7). -/
def translated (s : State) (p : Packet) (e : TtuEntry) : State :=
  if leafRefuses e.leaf p.tlp then (s.ttuRefuse p 1).dropPacket p.id
  else
    let q := { p with tlp := { p.tlp with addr := leafAddr e p.tlp.addr }, ebase := leafAddr e p.ebase }
    s.settlePacket p.id (s.routeMem q)

/-- Translation of a memory request and all that follows (R404 to R408). A miss leaves the packet waiting for its walk. -/
def translateMem (s : State) (p : Packet) : State :=
  s.heldOr p <|
  if !s.translates p then s.settlePacket p.id (s.routeMem p)
  else
    let vi := (p.bound.map (·.vi)).getD 0
    if 2 ^ 39 ≤ p.tlp.addr then (s.ttuRefuse p 0).dropPacket p.id
    else
      match s.ttuFind p.cell0 vi p.tlp.addr with
      | some (key, e) => (s.ttuHit p.cell0 key e).translated p e
      | none =>
        let (s1, w) := s.joinWalk p.cell0 vi p.part p.tlp.addr
        s1.modPacket p.id fun x => { x with place := .walk, walk := w }

/-- A memory request enters the pipeline (R84, R85): BAR claims of an upstream port first, then translation and windows.
The packet is already in the pool. PARTITION_FATAL admits only what BAR0 claims, DEVICE_FATAL only reads there, and both
refuse with Completer Abort (R468, R469). -/
def ingestMem (s : State) (p : Packet) : State :=
  let claim := if p.ing < 64 ∧ s.isUp p.ing = true then s.barHit p.part p.tlp.addr else none
  let bar0 := match claim with
    | some (.bar _ 0 _) => true
    | _ => false
  if s.acsBlocks p.ing p.tlp then (s.refuse p .ca 2).dropPacket p.id
  else if (s.devFatal && !(bar0 && p.tlp.kind == .mrd)) || (s.partFatal p.part && !bar0) then
    (if nonPosted p.tlp then s.stopReq p .ca 6 else s.onlyIf (s.partFatal p.part && !s.devFatal) fun t => t.aerPort p.ing).dropPacket p.id
  else
    match claim with
    | some r => s.settlePacket p.id (s.ideThen { p with route := r } fun t => t.accessCheck { p with route := r })
    | none => s.translateMem p

end State
end Sys2Proof.Machine
end

