-- ==== Sys2Proof/Machine/SharedWindow.lean ====
section
/-! DEFINITION. The shared window engine (R319 to R327, R337 to R343), fences (R330 to R335), commits to HBM with their mirror
records (R494), and the commands of chapter 9. -/

namespace Sys2Proof.Machine

/-- The granule of an HBM address (R319). -/
def granOf (a : Nat) : Nat := a / 64

namespace State

/-! ## Resolution of posted writes (R332, R333) -/

/-- One end point of a posted write is performed. -/
def writeDone (s : State) (grp : Nat) : State :=
  { s with openW := s.openW.filterMap fun w =>
      if w.pkt ≠ grp then some w else if w.left ≤ 1 then none else some { w with left := w.left - 1 } }

/-- A posted write, or one copy of it, is lost: it fails later once, however many copies are lost (R103, R471). -/
def writeLost (s : State) (p : Packet) (reason src : Nat) : State :=
  let already := (s.openW.find? (·.pkt == p.group)).any (·.lost)
  let s1 := { s with openW := s.openW.filterMap fun w =>
      if w.pkt ≠ p.group then some w
      else if w.left ≤ 1 then none else some { w with left := w.left - 1, lost := true } }
  if already then s1 else s1.failLater p reason src

/-- A write of an initiator that passed the ordering point, failed later and has no record yet. -/
def lateOf (i : Initiator) (l : LateWrite) : Bool := l.ini == i && !l.early

/-! ## Mirror records (R494) -/

/-- Both partners report ACTIVE: nothing passes between them (R488). -/
def dualActive (s : State) : Bool := s.getF pgMIR MIR_STS.ROLE == 2 && s.mir.role.any fun r => r.role == 2

/-- The active sends mirror records: pair state RESYNC or READY (R493, R494). -/
def mirroring (s : State) : Bool :=
  s.getF pgMIR MIR_STS.ROLE == 2 && (s.getF pgMIR MIR_STS.PSTATE == 1 || s.getF pgMIR MIR_STS.PSTATE == 2)
    && !s.mir.yielded && !s.dualActive

/-- Queue a mirror record. -/
def mirSend (s : State) (r : MirRec) : State := { s with mir := { s.mir with txq := s.mir.txq ++ [r] } }

/-- A record with every field empty. -/
def emptyRec : MirRec :=
  { kind := 0, key := (⟨0, 0, none⟩ : StreamKey), window := none, wseq := 0, addr := 0, len := 0, vi := none, gen := 0, idem := false,
    shared := false, mask := [], data := [], region := 0, cseq := 0, epoch := 0, time := 0, entries := [], grp := 0 }

/-- A commit of bytes to HBM: written; of an active each granule takes the next CSEQ, and goes to the standby as a COMMIT record (R321,
R494). `region` is 0 for the shared window, 1 for the translation tables. -/
def hbmCommit (s : State) (region a : Nat) (bytes : List (Option Byte)) : State :=
  let s1 := s.hbmWrite a bytes
  if s.getF pgMIR MIR_STS.ROLE ≠ 2 then s1
  else
    let grans := (List.range bytes.length).foldl (fun l i =>
      if (bytes.getD i none).isSome then (if l.contains (granOf (a + i)) then l else l ++ [granOf (a + i)]) else l) []
    s1.each grans fun t g =>
      let n := t.getF pgMIR MIR_CSEQ.CSEQ
      let mask := (List.range 64).map fun j => decide (a ≤ g * 64 + j) && (bytes.getD (g * 64 + j - a) none).isSome
      (t.onlyIf s.mirroring fun u => u.mirSend { emptyRec with
        kind := 3, region := region, cseq := n, addr := g * 64, len := 64, mask := mask, data := u.hbmRead (g * 64) 64 }).setF pgMIR MIR_CSEQ.CSEQ (n + 1)

/-! ## Reservations -/

/-- A commit to a granule by an agent clears the reservations that others hold there (R340). -/
def clearGranule (s : State) (i : Initiator) (g : Nat) : State :=
  { s with resv := s.resv.filter fun r => decide (r.gran ≠ g) || r.ini == i }

/-- The granules that a range touches, in order. -/
def granules (a len : Nat) : List Nat := (List.range (granOf (a + max 1 len - 1) + 1 - granOf a)).map (granOf a + ·)

/-- What is written while some transfer still reads a list is kept, since it may change the list (R455). -/
def noteDirty (s : State) (a n : Nat) : State :=
  if s.chans.any fun e => e.2.xfers.any fun x => !x.src.ended || !x.dst.ended then { s with listDirty := s.listDirty ++ [(a, n)] }
  else { s with listDirty := [] }

/-- A commit by initiator `i` to the shared window: bytes, mirror record, reservations (R321, R340). -/
def swWrite (s : State) (i : Initiator) (a : Nat) (bytes : List (Option Byte)) : State :=
  ((s.noteDirty a bytes.length).hbmCommit 0 a bytes).each (granules a bytes.length) fun t g => t.clearGranule i g

/-- Set a reservation (R337, R338): the initiator's earlier one is replaced; when 8,192 are held by others, the least
recently set is evicted. -/
def setResv (s : State) (i : Initiator) (g : Nat) (b : Bound) (part ing : Nat) : State :=
  let l := s.resv.filter (·.ini != i)
  let full := decide (8192 ≤ l.length)
  let s1 := { s with resv := (if full then l.tail else l) ++ [({ ini := i, gran := g, vi := b.vi, gen := b.gen } : Reservation)] }
  let s2 := s1.addF pgHBMM HBM_SW_CNT2.RES_SET
  s2.onlyIf full fun t => (t.addF pgHBMM HBM_SW_CNT2.RES_EVICT).fire pgHBMM 4 part (portTag ing)

/-- Fault of the shared window, captured by R350 for sources 1 to 3. -/
def swFault (s : State) (bit : Nat) (p : Packet) (hbm : Nat) : State :=
  let s1 := if s.flag pgHBMM HBM_SW_ERR_INFO.VALID || bit == 0 || bit == 4 then s
    else
      let t := (s.setF pgHBMM HBM_SW_ERR_ADDR.ADDR hbm).setFlag pgHBMM HBM_SW_ERR_INFO.VALID true
      ((t.setF pgHBMM HBM_SW_ERR_INFO.PART p.part).setF pgHBMM HBM_SW_ERR_INFO.PORT (portTag p.ing)).setF pgHBMM
        HBM_SW_ERR_INFO.CAUSE bit
  s1.fire pgHBMM bit p.part (faultPort p)

/-! ## Requests at the engine -/

/-- HBM address of a packet at the shared window. -/
def swAddr (p : Packet) : Nat :=
  match p.route with
  | .shared h => h
  | .port _ | .fabric _ | .mcast _ | .bar _ _ _ | .vfBar _ _ _ | .none => 0

/-- Pieces of a posted write, one entry per granule (R320). -/
def swPieces (p : Packet) : List SwEntry :=
  let a := swAddr p
  let bytes := writeBytes p.tlp
  (granules a p.tlp.len).map fun g =>
    { gran := g, bytes := (List.range 64).map fun j =>
        if a ≤ g * 64 + j then bytes.getD (g * 64 + j - a) none else none,
      ini := p.ini, bound := p.bound, wseq := p.wseq.getD 0, order := p.order, cellar := p.cell0, ing := p.ing,
      part := p.part, strict := p.attr.strict, pkt := p.group, poisoned := p.poison.isSome,
      src := p }

/-- Entries for all pieces of the write are free (R319, R320). -/
def swRoom (s : State) (p : Packet) : Bool :=
  let n := (swPieces p).length
  decide (s.swb.length + n ≤ 4096) && decide ((s.swb.filter (·.cellar == p.cell0)).length + n ≤ 1024)

/-- Requests that wait at the engine. -/
def atWindow (s : State) : List Packet := s.packets.filter (·.place == .window)

/-- Two byte ranges overlap. -/
def overlaps (a n b m : Nat) : Bool := decide (a < b + m ∧ b < a + n)

/-- Two granule entries write some common byte. -/
def sharesByte (x y : SwEntry) : Bool :=
  x.gran == y.gran && (List.range 64).any fun j => (x.bytes.getD j none).isSome && (y.bytes.getD j none).isSome

/-- Earlier requests of a packet's or an entry's initiator that wait at the engine. -/
def earlierAt (s : State) (i : Initiator) (order : Nat) : List Packet := s.atWindow.filter fun q => q.ini == i && decide (q.order < order)

/-- Entry `e` may commit now: overlapping writes of its initiator in order (R324), STRICT order after every earlier access of the initiator (R325),
and the mirror's acknowledgement (R497). -/
def swMayCommit (s : State) (e : SwEntry) : Bool :=
  (s.swb.all fun x => !(x.ini == e.ini && decide (x.order < e.order) && (e.strict || sharesByte x e)))
    && (!e.strict || (s.earlierAt e.ini e.order).isEmpty)
    && (!e.strict || (s.flt.late.all fun l => !(lateOf e.ini l && decide (l.order < e.order))))
    && !s.mir.unacked.contains e.pkt

/-- Earlier posted writes of the packet's initiator to the shared window are committed or recorded lost (R325, R326). -/
def swWritesDone (s : State) (p : Packet) : Bool :=
  (s.swb.all fun x => !(x.ini == p.ini && decide (x.order < p.order)))
    && (s.flt.late.all fun l => !(lateOf p.ini l && decide (l.order < p.order)))

/-- A request may reach its serialisation point (R324 to R327): through a STRICT window after every earlier access of its initiator, a read
through a RELAXED one after the earlier requests that overlap it. -/
def swMaySerialize (s : State) (p : Packet) : Bool :=
  let earlier := s.earlierAt p.ini p.order
  if p.attr.strict then s.swWritesDone p && earlier.isEmpty
  else if p.tlp.kind == .mrd then earlier.all fun q => !overlaps (swAddr q) q.tlp.len (swAddr p) p.tlp.len
  else s.swWritesDone p

/-- Bytes a read returns: HBM at the serialisation point, under the newest buffered entries of its initiator (R323), and
whether the buffer supplied any. An entry of a write after the read counts too, unless its window is STRICT, which keeps it after the read (R325;
DEDUCED, log 71). -/
def swReadBytes (s : State) (p : Packet) : List Byte × Bool :=
  let a := swAddr p
  let own := s.swb.filter fun e => e.ini == p.ini && (decide (e.order < p.order) || !e.strict)
  let byte := fun (x : Nat) => own.foldl (fun acc e =>
    if e.gran = granOf x then (match e.bytes.getD (x % 64) none with
      | some b => some b
      | none => acc) else acc) (none : Option Byte)
  ((List.range p.tlp.len).map fun i => (byte (a + i)).getD (s.hbmByte (a + i)),
   (List.range p.tlp.len).any fun i => (byte (a + i)).isSome)

/-- New value of an AtomicOp of `n` bytes (R327). -/
def atomicNew (op : AtomicOp) (n : Nat) (old : List Byte) (data : List Byte) : List Byte :=
  match op with
  | .fetchAdd => leBytes n (leNat old + leNat (data.take n))
  | .swap => data.take n
  | .cas => if old = data.take n then (data.drop n).take n else old

/-- Data of a completion in the requester's byte order (R359). -/
def backToRequester (p : Packet) (data : List Byte) : List Byte :=
  let n := swapUnit p.attr.swap
  if p.tlp.kind == .atomic then reverseUnits n data
  else if p.reqLen = 0 then unswapData n p.ebase p.elen p.tlp.addr data
  else unswapData n p.reqAddr p.reqLen p.tlp.addr data

/-- Offset in a request, as sent, of the data of a completion: its Byte Count says what is still to come. -/
def cplOffset (req c : Tlp) : Nat := if req.kind != .mrd || c.count = 0 then 0 else req.len - c.count

/-- One completion of a read that comes in several (R264, R359): its data, which begin `o` bytes into the request as sent. -/
def pieceToRequester (p : Packet) (o : Nat) (data : List Byte) : List Byte :=
  if p.tlp.kind == .atomic || (o = 0 && decide (p.tlp.len ≤ data.length)) then backToRequester p data
  else unswapData (swapUnit p.attr.swap) (p.tlp.addr + o) data.length (p.tlp.addr + o) data

/-- A read at its serialisation point, with the reservation of an R view (R337). -/
def swRead (s : State) (p : Packet) (poisoned : Bool) : State :=
  let a := swAddr p
  if p.attr.view = 1 ∧ granOf a ≠ granOf (a + max 1 p.tlp.len - 1) then (s.swFault 2 p a).reply p .ca []
  else
    let (data, fwd) := s.swReadBytes p
    let s1 := s.onlyIf fwd fun t => t.addF pgHBMM HBM_SW_CNT0.FWD
    let s2 := if p.attr.view = 1 then
        (match p.bound with
         | some b => s1.setResv p.ini (granOf a) b p.part p.ing
         | none => s1)
      else s1
    s2.reply p .sc (backToRequester p data) poisoned

/-- An AtomicOp at its serialisation point (R327); one whose target is not naturally aligned is a malformed packet, which PCI
Express has the completer discard and report. -/
def swAtomic (s : State) (p : Packet) : State :=
  let a := swAddr p
  let n := if p.tlp.op == .cas then p.tlp.data.length / 2 else p.tlp.data.length
  if n = 0 ∨ a % n ≠ 0 then s.aerPort p.ing
  else
    let old := s.hbmRead a n
    let s1 := s.swWrite p.ini a ((atomicNew p.tlp.op n old p.tlp.data).map some)
    s1.reply p .sc (backToRequester p old)

/-- A conditional store at its serialisation point (R341). -/
def swCondStore (s : State) (p : Packet) : State :=
  let a := swAddr p
  let span := decide (granOf a ≠ granOf (a + max 1 p.tlp.len - 1))
  let held := s.resv.any fun r => r.ini == p.ini && r.gran == granOf a && r.gen == (s.inst r.vi).gen
  let s1 := s.clearResv p.ini
  if span then ((s1.addF pgHBMM HBM_SW_CNT1.CS_LOST).swFault 2 p a).reply p .rrs []
  else if held then
    ((s1.addF pgHBMM HBM_SW_CNT1.CS_OK).swWrite p.ini a (writeBytes p.tlp)).reply p .sc []
  else (s1.addF pgHBMM HBM_SW_CNT1.CS_LOST).reply p .rrs []

/-- A request reaches its serialisation point (R322), with the outcome of HBM's error-correcting code (Table 9.6). -/
def swSerialize (s : State) (p : Packet) (ecc : Ecc) : State :=
  let s0 := s.dropPacket p.id
  let s1 := s0.onlyIf (ecc == .corrected) fun t => t.fire pgHBMM 0 p.part (faultPort p)
  if p.poison.isSome then (s1.clearResv p.ini).reply p .ca []
  else if ecc = .uncorrectable then
    let s2 := s1.swFault 1 p (swAddr p)
    if p.tlp.kind == .mrd then s2.swRead p true else (s2.clearResv p.ini).reply p .ca []
  else if p.tlp.kind == .mrd then s1.swRead p false
  else if p.tlp.kind == .atomic then s1.swAtomic p
  else if p.attr.view = 2 then s1.swCondStore p
  else (s1.swWrite p.ini (swAddr p) (writeBytes p.tlp)).reply p .sc []

/-- A posted write passes the ordering point to the engine: its entries, or a write that fails later through a C view
(R320, Table 9.5). `p` carries its number and order. -/
def swAccept (s : State) (p : Packet) : State :=
  if p.attr.view = 2 then (s.swFault 3 p (swAddr p)).writeLost p 7 (pgHBMM * 32 + 3)
  else
    let es := swPieces p
    { s with swb := s.swb ++ es,
             openW := s.openW.map fun w => if w.pkt == p.group then { w with left := es.length } else w }

/-! ## Fences -/

/-- Data of a fence read (Table 9.3). -/
def fenceWord (count : Nat) : Nat := (if count = 0 then 0 else 2 ^ 31) + min count 0xFFFFFF

/-- A request to FENCE passes the ordering point (R330): a fence of a bound initiator of the instance, else Unsupported
Request. -/
def fenceStart (s : State) (p : Packet) (inst off : Nat) : State :=
  match p.bound with
  | some b =>
    if b.vi = inst then
      { s with fences := s.fences ++ [{ ini := p.ini, entry := b.entry, inst := inst, part := p.part, ing := p.ing,
                                        dmwr := p.tlp.kind == .dmwr, rid := p.tlp.rid, tag := p.tlp.tag,
                                        order := s.order, tc := p.tlp.tc, ro := p.tlp.ro, ido := p.tlp.ido,
                                        off := off, len := p.tlp.len }],
               order := s.order + 1 }
    else s.refuse p
  | none => s.refuse p

/-- Initiators whose writes a fence covers: its own, and the mirror stream that stands for it after a Racking (R331, R491). -/
def fenceInis (f : FenceOp) : List Initiator :=
  f.ini :: match f.ini with
    | .port _ rid pasid => [keyIni ⟨f.part, rid, pasid⟩]
    | .fabric _ _ _ _ | .cxl _ | .chan _ | .block _ => []

/-- Every write that a fence covers is resolved, and no earlier fence of its initiator waits (R332, R335). -/
def fenceReady (s : State) (f : FenceOp) : Bool :=
  (s.openW.all fun w => !((fenceInis f).contains w.ini && decide (w.order < f.order) && !w.lost))
    && (s.flt.late.all fun l => !((fenceInis f).any (lateOf · l) && decide (l.order < f.order)))
    && (s.fences.all fun g => !(g.ini == f.ini && decide (g.order < f.order)))

/-- Answer a fence's requester. -/
def fenceAnswer (s : State) (f : FenceOp) (status : CplStatus) (data : List Byte) : State :=
  s.cplOut f.ing (cellarOf f.ing) 0 (cplTlp f.rid f.tag f.tc f.ro f.ido (s.vfRid f.part f.inst) status data false)

/-- A fence completes (R333, R334): its count, which the binding entry kept, is reported and starts again. The stream of its
initiator leaves BROKEN and has no loss left to report (R496, R503). -/
def fenceReport (s : State) (f : FenceOp) : State :=
  let e := f.entry.getD 0
  let n := min (s.bindAt e).lost 0xFFFFFF
  let s1 := { s with fences := s.fences.filter (fun g => decide (g.order ≠ f.order)),
                     bind := storeSet (fun _ => ⟨0, 0, 0⟩) s.bind e { s.bindAt e with lost := 0 } }
  let s2 := (s1.setFlag (pgIC f.inst) FENCE_LAST.LOST (n != 0)).setFlag (pgIC f.inst) FENCE_LAST.DMWR f.dmwr
  let s3 := s2.setF (pgIC f.inst) FENCE_LAST.COUNT n
  let pasid := match f.ini with
    | .port _ _ p => p
    | .fabric _ _ _ _ | .cxl _ | .chan _ | .block _ => none
  { s3 with mir := { s3.mir with streams := s3.mir.streams.map fun (x : MirStream) =>
    if x.key = (⟨f.part, f.rid, pasid⟩ : StreamKey) then
      { x with broken := false, lost := 0, changed := x.changed || decide (x.lost ≠ 0) }
    else x } }

/-- A posted write of the same initiator, accepted at the same port and not past the ordering point, stands ahead (R315). -/
def earlierPosted (s : State) (i : Initiator) (id : Nat) : Bool :=
  (s.packets.takeWhile (·.id != id)).any fun q =>
    (q.place == .ingress || q.place == .walk) && q.ini == i && isWrite q.tlp

/-- A FENCE request that names its port, Requester ID, tag and PASID: the packet of it. -/
def fencePacket (s : State) (kind : TlpKind) (port rid tag : Nat) (pasid : Option Nat) : Packet :=
  let t : Tlp := { kind := kind, rid := rid, tag := tag, pasid := pasid, tc := 0, addr := 0, len := 4, mask := [],
                   data := [], hdr := 16, ro := false, ido := false, poisoned := false, op := .fetchAdd, status := .sc }
  { s.newPacket t port (cellarOf port) (.port port rid pasid) (s.portPart port) .requester with
    bound := (s.bindLookup port rid pasid).1 }

/-- A fence request acts when no earlier posted write of its initiator is still ahead of the ordering point (R315), and never once its link is down
(R335, Table 7.13). In PARTITION_FATAL or DEVICE_FATAL it is not performed and completes as Completer Abort (R468, R469). -/
def fenceRequest (s : State) (kind : TlpKind) (port rid tag : Nat) (pasid : Option Nat) (inst : Nat) : State :=
  let p := s.fencePacket kind port rid tag pasid
  if s.earlierPosted (.port port rid pasid) s.nextId || (s.port port).cleanup then s
  else if s.devFatal || s.partFatal (s.portPart port) then s.refuse p .ca
  else s.fenceStart p inst 0x100

end State

/-! ## Commands of chapter 9 -/

/-- SW_ENTRY_COMMIT (R321): entry `index` of the write buffer commits when the order allows; `ecc` is that of its stored
cells, and an uncorrectable error contains the write (R470). -/
def execSwEntryCommit (index : Nat) (ecc : Ecc) (s : State) : Res :=
  match s.swb[index]? with
  | none => s.done
  | some e =>
    if s.mir.yieldDue || !s.swMayCommit e then s.done
    else if e.poisoned || ecc == .uncorrectable then
      let s1 := { s with swb := s.swb.filter (·.pkt != e.pkt) }
      let s2 := s1.onlyIf (ecc == .uncorrectable) fun t => t.fire (pgBUF e.cellar) 1
      (s2.writeLost e.src 9 (e.src.poison.getD (pgBUF e.cellar * 32 + 1))).done
    else
      let s1 := s.onlyIf (ecc == .corrected) fun t => t.fire (pgBUF e.cellar) 0
      let s2 := { s1 with swb := s1.swb.eraseIdx index }
      let s3 := (s2.swWrite e.ini (e.gran * 64) e.bytes).writeDone e.pkt
      (s3.onlyIf (!s3.swb.any fun x => x.src.id == e.src.id) fun t => t.packetOut e.src 1).done

/-- SW_SERIALIZE (R322): request `index` of those that wait at the engine reaches its serialisation point when the order
allows; a STRICT read that must wait is counted once (Table 9.8). -/
def execSwSerialize (index : Nat) (ecc : Ecc) (s : State) : Res :=
  match s.atWindow[index]? with
  | none => s.done
  | some p =>
    if s.swMaySerialize p then ((s.swSerialize p ecc).packetOut p 1).done
    else if p.tlp.kind == .mrd && p.attr.strict && !bitAt p.held 5 then
      ((s.addF pgHBMM HBM_SW_CNT0.SWAIT).modPacket p.id fun x => { x with held := bitSet x.held 5 }).done
    else s.done

/-- FENCE_READ (R330). -/
def execFenceRead (port rid tag : Nat) (pasid : Option Nat) (inst : Nat) (s : State) : Res :=
  (s.fenceRequest .mrd port rid tag pasid inst).done

/-- FENCE_DMWR (R334). -/
def execFenceDmwr (port rid tag : Nat) (pasid : Option Nat) (inst : Nat) (s : State) : Res :=
  (s.fenceRequest .dmwr port rid tag pasid inst).done

end Sys2Proof.Machine
end

