-- ==== Sys2Proof/Machine/Access.lean ====
section
/-! DEFINITION. Who may reach a register, and what a plain write of a register does to its fields: R5 to R8, R30, R56 to R78,
R374 to R382. -/

namespace Sys2Proof.Machine
namespace State

/-- The page is sealed (R75). -/
def pageSealed (s : State) (page : Nat) : Bool :=
  s.flag pgGLB GLB_SEAL.SEAL || s.flag page PAGE_LOCK.LOCK

/-- Pages that Table 2.7 marks secure. -/
def pageSecure (page : Nat) : Bool := page == pgTRU || page == pageIx 7 0

/-- The block instance of a page exists in the loaded configuration (PAGE_STS.PRESENT): port pages follow the port (R18,
R67), a mailbox its partition. -/
def pagePresent (s : State) (page : Nat) : Bool :=
  match pageKind page with
  | none => false
  | some .lnk => s.portEn (16 * (page / 256 - 1) + page % 256 % 16)
  | some .ffl => s.isFfl (16 * (page / 256 - 1) + page % 256 % 16)
  | some .mgtm => s.partOn (page % 256 - 0x10)
  | some _ => true

/-- Cellar whose domain holds a page. -/
def pageCellar (page : Nat) : Option Nat :=
  let d := page / 256
  if 1 ≤ d ∧ d ≤ 4 then some (d - 1) else none

/-- An access reaches the domain of a Cellar that is not in RUN (R30). -/
def offlineHit (s : State) (page : Nat) : Option Nat :=
  match pageCellar page with
  | some c => if s.cellarRun c then none else some c
  | none => none

/-- Record of an access to an offline Cellar (R30). -/
def celOffline (s : State) (c : Nat) : State :=
  (s.setF pgGLB GLB_CEL_STS.OFFHIT (bitSet (s.getF pgGLB GLB_CEL_STS.OFFHIT) c)).fire pgGLB 0

/-- Outcome of a page-level check: the state with what the check recorded, and whether the access goes on; `req` is the request's code (Table 10.16). -/
def guardPage (s : State) (who : Requester) (off : Nat) (wr : Bool) (req : Nat := if wr then 1 else 0) : State × Bool :=
  let page := off / 4096
  match s.offlineHit page with
  | some c => (s.celOffline c, false)
  | none =>
    match who with
    | .mgmt => (s, true)
    | .tenant _ => (s, true)
    | .host k =>
      if pageSecure page then
        let slot := (s.slotOf 3 0 off).getD 0x7F
        ((s.accCapture k ((s.upPort k).getD 63) 3 slot 3 req off off).fire pgACC 3 k
            ((s.upPort k).getD 63), false)
      else (s, true)
    | .debug =>
      let denied := if s.flag pgACC ACC_DBG_STS.UNLOCKED then pageSecure page && !s.flag pgACC ACC_DBG_STS.SECURE_SCOPE
        else pageSecure page || s.pageSealed page
      if denied && (pageKind page).isSome then ((s.addF pgACC ACC_DBG_CNT.DENIED).fire pgACC 4, false) else (s, true)

/-- A host access to bytes of the register space passes the management-region slots (R374, R376). -/
def guardBytes (s : State) (who : Requester) (off : Nat) (bytes : List Nat) (wr : Bool) : State × Bool :=
  match who with
  | .host k =>
    (match s.judge 3 0 k (!wr) wr bytes with
     | none => (s, true)
     | some (cause, bad, slot) =>
       let port := (s.upPort k).getD 63
       (((s.accCapture k port 3 slot cause (if wr then 1 else 0) off bad).fire pgACC cause k port).aerPort port, false))
  | .mgmt | .debug | .tenant _ => (s, true)

/-- The slots' check of all bytes of an access; a command that stands for a host access carries them. -/
def guardSlots (s : State) (who : Requester) (off len : Nat) (wr : Bool) : State × Bool :=
  s.guardBytes who off ((List.range len).map (off + ·)) wr

/-- DEVICE_FATAL drops register writes but those of the debug port, so only reads stay (R469). -/
def writesStopped (s : State) (who : Requester) : Bool := s.devFatal && who != .debug

/-- Pages that read all ones and drop writes without a fault: those of domain 7 while the management complex is in reset (R631),
slot pages while the Limder link is lost (R537) or their slot group is gated (R620). -/
def pageDead (s : State) (page : Nat) : Bool :=
  (page / 256 == 7 && !s.mgmtUp)
    || (decide (0x610 ≤ page ∧ page ≤ 0x637) && (!s.flag pgSPC SPC_STS.LINK_UP
      || bitAt (s.getF pgPWR PWR_STS.GATED 2) ((page - 0x610) / 8 + 87 - 64)))

/-- Place of the 64-bit register that holds a BAR0 offset: a register of 64 bits, or two counters that CHAIN joins (R595). -/
def latchKey (s : State) (off : Nat) : Option Nat :=
  match regAt (off / 4096) (off % 4096) with
  | some (r, i) =>
    if r.wide then some (off / 4096 * 4096 + r.off + r.stride * i)
    else if pageKind (off / 4096) = some .pmuc ∧ r.off = PMU_CTR.COUNT.off ∧ s.flag (off / 4096) PMU_EVT.CHAIN (i / 2 * 2 + 1) = true then
      some (off / 4096 * 4096 + r.off + r.stride * (i / 2 * 2))
    else none
  | none => none

/-- An access of one requester to a 64-bit register leaves the high words that others have latched open (R82). -/
def touch (s : State) (who : Requester) (key : Nat) : State :=
  { s with latches := s.latches.map fun (e : Requester × Nat × Option Nat) =>
      if e.2.1 = key ∧ e.1 ≠ who then (e.1, e.2.1, none) else e }

/-- `touch` for the register at a BAR0 offset. -/
def touchAt (s : State) (who : Requester) (off : Nat) : State :=
  match s.latchKey off with
  | some k => s.touch who k
  | none => s

/-- A register access as a command: slots, page, and then `f` when it may go on. -/
def withAccess (s : State) (who : Requester) (off len : Nat) (wr : Bool) (f : State → State) : State :=
  if wr && s.writesStopped who then s
  else
    let (s1, ok1) := s.guardSlots who off len wr
    if !ok1 then s1
    else
      let (s2, ok2) := s1.guardPage who off wr
      if !ok2 then s2
      else if wr && ((pageKind (off / 4096)).isNone || (decide (0x80 ≤ off % 4096) && !s2.pagePresent (off / 4096)) || s2.pageDead (off / 4096))
        then s2 else f (s2.touchAt who off)

/-- A write of `len` bytes at `off` by `who` reaches its register: what `withAccess` asks of one. -/
def writeReaches (s : State) (who : Requester) (off len : Nat) : Bool :=
  let g := s.guardSlots who off len true
  let h := g.1.guardPage who off true
  !s.writesStopped who && g.2 && h.2 && (pageKind (off / 4096)).isSome
    && (decide (off % 4096 < 0x80) || h.1.pagePresent (off / 4096)) && !h.1.pageDead (off / 4096)

/-- BAR0 offset of copy `i` of a field's register in a page. -/
def offOf (page : Nat) (f : FRef) (i : Nat := 0) : Nat := fkey page f i

/-- PAGE_ACCESS fires in a page (R72). -/
def pageAccess (s : State) (page : Nat) : State := s.fire page 31

/-- A write of an RWS field: dropped with PAGE_ACCESS in a sealed page when it would change the field (R72, R75). -/
def sealedWrite (s : State) (page : Nat) (changes : Bool) (f : State → State) : State :=
  if s.pageSealed page then s.onlyIf changes fun t => t.pageAccess page else f s

end State

/-- The value a write rule lets through. -/
def ruleAdmits (r : WRule) (v : Nat) : Bool :=
  match r with
  | .any => true
  | .range lo hi => decide (lo ≤ v ∧ v ≤ hi)
  | .sizeLog => decide (v ≤ 11 ∨ v = 15)
  | .special => true

/-- A field after a write of `new` over `old` (Table 0.3): `locked` for an RWS field of a sealed page. A reserved value that the field's table
does not turn away, whose result R80 leaves undefined, is stored like any other (DESIGN CHOICE, log 11). -/
def fieldAfter (f : FieldDef) (locked : Bool) (old new : Dword) : Nat :=
  let o := bitsOf old f.hi f.lo
  let n := bitsOf new f.hi f.lo
  match f.acc with
  | .ro | .rc | .wo => o
  | .rw => if ruleAdmits f.rule n then n else o
  | .rws => if locked then o else if ruleAdmits f.rule n then n else o
  | .w1c => o &&& (n ^^^ (2 ^ (f.hi + 1 - f.lo) - 1))
  | .w1s => o ||| n

/-- Register after a plain write of all its bytes. -/
def regAfter (fs : List FieldDef) (locked : Bool) (old new : Dword) : Dword :=
  fs.foldl (fun v f => bitsPut v f.hi f.lo (fieldAfter f locked old new)) old

/-- The write tries to change an RWS field. -/
def changesRws (fs : List FieldDef) (old new : Dword) : Bool :=
  fs.any fun f => f.acc == .rws && bitsOf old f.hi f.lo != bitsOf new f.hi f.lo

namespace State

/-- Plain write of the register at key `k` with the fields of its definition: RWS of a sealed page stays, with PAGE_ACCESS
(R72, R75). -/
def plainWrite (s : State) (k : Nat) (fs : List FieldDef) (v : Dword) : State :=
  let page := k / 4096
  let locked := s.pageSealed page
  let s1 := s.setReg k (regAfter fs locked (s.reg k) v)
  s1.onlyIf (locked && changesRws fs (s.reg k) v) fun t => t.pageAccess page

/-- Plain write of the register that holds a field. -/
def plainWriteF (s : State) (page : Nat) (f : FRef) (v : Dword) (i : Nat := 0) : State :=
  match regAt page (f.off + f.stride * i) with
  | none => s
  | some (r, _) => s.plainWrite (fkey page f i) r.flds v

end State
end Sys2Proof.Machine
end

