-- ==== Sys2Proof/Machine/Instances.lean ====
section
/-! DEFINITION. Virtual instances: binding table, translation walks and invalidation, instance reset (chapter 11). -/

namespace Sys2Proof.Machine
namespace State

/-! ## Instance reset -/

/-- Channels that VIM_ICHAN gives an instance (R399), numbered over the device. -/
def instChans (s : State) (i : Nat) : List Nat :=
  let c := s.getF (pgVIMI i) VIM_ICHAN.CELLAR (i % 64)
  let f := s.getF (pgVIMI i) VIM_ICHAN.FIRST (i % 64)
  (List.range (s.getF (pgVIMI i) VIM_ICHAN.COUNT (i % 64))).map (256 * c + f + ·)

/-- The packet carries its generation already: it has passed the ordering point with one, or a channel issued it (R411). -/
def hasGen (p : Packet) : Bool :=
  p.wseq.isSome || p.place == .window || (match p.ini with
    | .chan _ => true
    | .port _ _ _ | .fabric _ _ _ _ | .cxl _ | .block _ => false)

/-- Something outstanding carries generation `g` of instance `i` (R416): a tracker entry, a write buffer entry, a request at
the shared window, a packet on its way, a read that waits for a prefetch, a burst of one of its channels, a walk. -/
def carriesGen (s : State) (i g : Nat) : Bool :=
  let hit := fun (b : Option Bound) => match b with
    | some x => x.vi == i && x.gen == g
    | none => false
  s.trk.any (fun e => hit e.pkt.bound) || s.swb.any (fun e => hit e.bound)
    || s.packets.any (fun p => hit p.bound && hasGen p) || s.pf.any (fun b => b.waiting.any fun p => hit p.bound)
    || s.engs.any (fun e => e.2.gen == g && (match e.2.run with
      | some (ch, _) => (s.instChans i).contains ch
      | none => false))
    || s.walks.any (fun w => w.vi == i && w.gen == g)

/-- Something outstanding carries a generation of the instance other than the current one: DRAINED is 0 (R416). -/
def carriesOld (s : State) (i : Nat) : Bool :=
  (List.range 64).any fun g => g != (s.inst i).gen && s.carriesGen i g

/-- The request of a tracker entry is a requester's, whole or in parts. -/
def hostEntry (e : TrkEntry) : Bool :=
  match e.pkt.owner with
  | .requester | .split _ => true
  | .npw _ | .prefetch _ | .fabric _ | .dma _ _ _ | .dmaList _ _ _ | .load _ => false

/-- Tracker entries become orphans (R367); entries of the 9160's own blocks never do. A request sent in parts ends with them. -/
def orphanIf (s : State) (f : TrkEntry → Bool) : State :=
  let go := fun (e : TrkEntry) => f e && e.orphan.isNone && hostEntry e
  { s with
    trk := s.trk.map fun e => if go e then { e with orphan := some s.ticks } else e
    splits := s.splits.filter fun w => !s.trk.any fun e => go e && e.pkt.owner == .split w.id }

/-- Fences that wait are discarded or answered Completer Abort (Table 9.6). -/
def dropFences (s : State) (f : FenceOp → Bool) (answer : Bool) : State :=
  let gone := s.fences.filter f
  let s1 := { s with fences := s.fences.filter fun x => !f x }
  if answer then s1.each gone fun t x => (t.exception x.ini).fenceAnswer x .ca [] else s1

/-- Loss counts of the binding entries that `f` names start again at 0 (Table 9.6). -/
def clearLost (s : State) (f : BindEntry → Bool) : State :=
  { s with bind := s.bind.map fun e => if f e.2 then (e.1, { e.2 with lost := 0 }) else e }

/-- VI field of a binding entry. -/
def bindVi (b : BindEntry) : Nat := b.d1.toNat % 2048

/-- The reset takes effect (R413). `hot` says that a partition hot reset causes it, whose own rules then govern fences and
writes (R414). -/
def instEffect (s : State) (i : Nat) (hot : Bool) : State :=
  let s1 := s.modInst i fun x => { x with gen := (x.gen + 1) % 64, stt := 2, heldReset := false, heldHot := false,
                                          endTick := s.ticks + 2000 }
  let s2 : State := { s1 with
    resv := s1.resv.filter (·.vi != i)
    ttu := s1.ttu.map fun (e : Nat × List TtuEntry) => (e.1, e.2.filter (·.vi != i)) }
  let s3 : State := { s2 with ttu := s2.ttu.filter fun e => !e.2.isEmpty }
  let s4 := s3.orphanIf fun e => match e.pkt.bound with
    | some b => b.vi == i
    | none => false
  let s5 := if hot then s4 else (s4.dropFences (fun f => f.inst == i) true).clearLost fun b => bindVi b == i
  (s5.setFlag (pgVIMI i) VIM_ICTL.RESET false (i % 64)).addF pgVIM VIM_CNT.RESETS

/-- Reset of an instance (R412): at once, or held while something carries the generation it would assign (R416). Triggers of one tick make one
reset. -/
def instReset (s : State) (i : Nat) (toAbsent hot : Bool) : State :=
  let x := s.inst i
  let s1 := s.modInst i fun y => { y with toAbsent := toAbsent || (y.toAbsent && y.stt != 1) }
  if x.stt = 0 then s
  else if x.stt = 2 ∧ x.endTick = s.ticks + 2000 then s1
  else if s.carriesGen i ((x.gen + 1) % 64) then
    (s1.modInst i fun y => { y with stt := 3, heldReset := true, heldHot := hot || (y.heldReset && y.heldHot) }).setFlag (pgVIMI i) VIM_ICTL.RESET true (i % 64)
  else s1.instEffect i hot

/-- A channel returns to its reset values: registers and transfers (R415, R449). Its transfers keep numbers of their own, so that a write of a transfer
that is gone is not taken for one of a later transfer. -/
def resetChan (s : State) (ch : Nat) : State :=
  let pg := pgDMAC (ch / 256) (ch % 256)
  let base := pg * 4096 + 0x100 + 96 * (ch % 32)
  let s1 := { s with regs := s.regs.filter fun e => !(decide (base ≤ e.1) && decide (e.1 < base + 96)) }
  s1.modChan ch fun x => { ChanSt.init with next := x.next }

/-- The MSI-X capability and table of an instance's function return to their PCI Express resets. -/
def vfRegsReset (x : InstSt) : InstSt := { x with msix := [], pend := [], msixEn := false, msixMask := false }

/-- End of RESETTING (R415). A function that ceases to exist keeps no register. -/
def instResetEnd (s : State) (i : Nat) : State :=
  (s.each (s.instChans i) fun t ch => t.resetChan ch).modInst i fun x =>
    if x.toAbsent then vfRegsReset { x with stt := 0, toAbsent := false } else { x with stt := 1 }

/-- Instances of a partition's allocation (R397). -/
def partInsts (s : State) (k : Nat) : List Nat :=
  (List.range (s.getF pgVIM VIM_PALLOC.COUNT k)).map (s.getF pgVIM VIM_PALLOC.BASE k + ·)

/-- VF Enable or NumVFs changes (R397, R412): instances that leave are reset and become ABSENT, instances that come are
LIVE. -/
def vfChange (s : State) (k : Nat) (enable : Bool) (num : Nat) : State :=
  let n := min num (s.getF pgVIM VIM_PALLOC.COUNT k)
  let live := if enable then n else 0
  let base := s.getF pgVIM VIM_PALLOC.BASE k
  let s1 := s.modPart k fun p => { p with vfEnable := enable, numVfs := n }
  s1.each (s1.partInsts k) fun t i =>
    if i < base + live then
      t.modInst i fun x => if x.stt = 0 then { x with stt := 1 } else { x with toAbsent := false }
    else if (t.inst i).stt = 0 then t else t.instReset i true false

/-- Channels of an instance that NumVFs brings are another LIVE instance's, or lie among the service channels (R423). -/
def vfClash (s : State) (k : Nat) (enable : Bool) (num : Nat) : Bool :=
  let live := if enable then min num (s.getF pgVIM VIM_PALLOC.COUNT k) else 0
  let fresh := ((s.partInsts k).take live).filter fun i => (s.inst i).stt == 0
  let range := fun i => (s.getF (pgVIMI i) VIM_ICHAN.CELLAR (i % 64), s.getF (pgVIMI i) VIM_ICHAN.FIRST (i % 64), s.getF (pgVIMI i) VIM_ICHAN.COUNT (i % 64))
  let named := fresh.filter fun i => (range i).2.2 != 0
  let used := named ++ (s.insts.map (·.1)).filter fun i => (s.inst i).stt != 0 && (range i).2.2 != 0
  named.any fun i => decide (192 < (range i).2.1 + (range i).2.2) || used.any fun j =>
    j != i && (range i).1 == (range j).1 && overlaps (range i).2.1 (range i).2.2 (range j).2.1 (range j).2.2

/-- The instance ranges of two partitions overlap, or one leaves the 2,048 instances (R419). -/
def pallocBad (s : State) : Bool :=
  let ks := (List.range 24).filter fun k => s.getF pgVIM VIM_PALLOC.COUNT k != 0
  let base := fun k => s.getF pgVIM VIM_PALLOC.BASE k
  let cnt := fun k => s.getF pgVIM VIM_PALLOC.COUNT k
  (List.range 24).any (fun k => decide (2048 < base k + cnt k))
    || ks.any fun k => ks.any fun j => decide (j < k) && overlaps (base k) (cnt k) (base j) (cnt j)

/-- The translation slices of two partitions overlap, or one leaves the region of the translation tables (R420). -/
def pxlatBad (s : State) : Bool :=
  let ks := (List.range 24).filter fun k => s.sliceSize k != 0
  ks.any fun k => decide (s.regionBase 3 + s.regionSize 3 < s.sliceBase k + s.sliceSize k)
    || ks.any fun j => decide (j < k) && overlaps (s.sliceBase k) (s.sliceSize k) (s.sliceBase j) (s.sliceSize j)

/-- The STAGE fields of a Cellar's channels sum to more than 1,024 (R453). -/
def stageBad (s : State) (c : Nat) : Bool :=
  decide (1024 < ((List.range 256).map fun ch => s.getF (pgDMA c) DMA_CHCFG.STAGE ch).sum)

/-! ## Walks -/

/-- Offset in the slice of the entry a walk reads next (R405). -/
def walkOffset (w : Walk) : Nat := w.table + 8 * (w.addr / 2 ^ (12 + 9 * w.level) % 512)

/-- The waiting packets that `f` names take their turns, their ingress ports in rising order and the engines last, so that the lowest-numbered is the
one captured (R126, R417). -/
def eachWaiting (s : State) (f : Packet → Bool) (g : State → Packet → State) : State :=
  let waiting := s.packets.filter fun p => p.place == .walk && f p
  s.each ((List.range 68).flatMap fun i => waiting.filter (·.ing == i)) fun t p =>
    match t.packet? p.id with
    | some q => if q.place == .walk then g t q else t
    | none => t

/-- The packets of a Cellar that wait for a walk to begin probe again when the slice runs a walk less: a leaf cached meanwhile is hit (R407). -/
def reprobe (s : State) (c : Nat) : State := s.eachWaiting (fun p => p.cell0 == c && p.walk.isNone) translateMem

/-- A walk ends with a fault (Table 11.7): the requests that share it are refused. -/
def walkFault (s : State) (w : Walk) (bit : Nat) : State :=
  let s1 := { s with walks := s.walks.filter (·.id != w.id) }
  let s2 := s1.eachWaiting (fun p => p.walk == some w.id) fun t p => t.heldOr p ((t.ttuRefuse p bit).dropPacket p.id)
  s2.reprobe w.cellar

/-- A walk ends with its leaf: it is cached, and the requests that share the walk go on under it (R407). -/
def walkLeaf (s : State) (w : Walk) (e : TtuEntry) : State :=
  let s1 := ({ s with walks := s.walks.filter (·.id != w.id) } : State).ttuCache w.cellar e
  let s2 := s1.eachWaiting (fun p => p.walk == some w.id) fun t p => t.heldOr p (t.translated p e)
  s2.reprobe w.cellar

/-- A walk begins again at the root (R410, R414). -/
def walkAgain (s : State) (w : Walk) (again : Bool) : State :=
  { s with walks := s.walks.map fun x =>
      if x.id == w.id then
        { x with level := 2, table := s.getF (pgVIMI w.vi) VIM_IROOT.ADDR (w.vi % 64) * 4096, restart := false,
                 again := again, gen := (s.inst w.vi).gen }
      else x }

/-- What an entry read by a walk means (R405, R407). -/
inductive WalkNext where
  | fault (bit : Nat)
  | leaf (shift : Nat)
  | table (off : Nat)
  deriving DecidableEq, Repr

/-- Judge the entry that a walk read at `level`, in a slice of `size` bytes. -/
def walkEntry (level size : Nat) (e : Nat) : WalkNext :=
  let addr := e / 4096 % 2 ^ 52 * 4096
  let sh := 12 + 9 * level
  if !e.testBit 0 then .fault 0
  else if e.testBit 1 then (if addr % 2 ^ sh ≠ 0 then .fault 2 else .leaf sh)
  else if level = 0 then .fault 2
  else if size ≤ addr then .fault 2
  else .table addr

/-- The entry at HBM address `a` as a walk reads it. While a write through BAR2 that is not one aligned 8 B access and changes the entry is still to
be committed, what the walk reads is free (R422, log 4). -/
def walkEntryAt (s : State) (a : Nat) : Nat × State :=
  if s.bar2.any fun w => overlaps w.hbm w.data.length a 8 && !(w.hbm == a && w.data.length == 8 && w.data.all Option.isSome) then
    (Config.free s.free % 2 ^ 64, { s with free := s.free + 1 })
  else (leNat (s.hbmRead a 8), s)

/-- One read of a walk is done (R407). Data of an old generation is discarded and counted (R414), and a walk that began before an invalidation is
restarted when it completes, whatever it found (R410). -/
def walkRead (s : State) (w : Walk) (ecc : Ecc) : State :=
  let size := s.sliceSize w.part
  if w.gen ≠ (s.inst w.vi).gen then (s.addF pgVIM VIM_CNT.STALE).walkAgain w (w.again || w.restart)
  else
    let (e, s) := s.walkEntryAt (s.sliceBase w.part + walkOffset w)
    match (if size ≤ w.table then .fault 2 else if ecc = .uncorrectable then .fault 3 else walkEntry w.level size e : WalkNext) with
    | .table off =>
      { s with walks := s.walks.map fun x => if x.id == w.id then { x with level := w.level - 1, table := off } else x }
    | .fault bit =>
      if w.restart then (s.addF (pgTTU w.cellar) TTU_CNT1.RESTARTS).walkAgain w true else s.walkFault w bit
    | .leaf sh =>
      if w.restart then (s.addF (pgTTU w.cellar) TTU_CNT1.RESTARTS).walkAgain w true
      else
        s.walkLeaf w { vi := w.vi, gen := w.gen, shift := sh, page := w.addr / 2 ^ sh, leaf := BitVec.ofNat 64 e }

/-! ## Invalidation -/

/-- A cached entry lies in the range of an invalidation (R410, Table 11.13). -/
def inInval (v : Inval) (e : TtuEntry) : Bool :=
  e.vi == v.vi && (!v.range ||
    overlaps (e.page * 2 ^ e.shift) (2 ^ e.shift) (v.addr / 2 ^ (12 + v.sizeLog) * 2 ^ (12 + v.sizeLog))
      (2 ^ (12 + v.sizeLog)))

/-- A write of TTU_INV_CTL with GO (R410). -/
def invGo (s : State) (who : Requester) (v : Word) : State :=
  if !v.toNat.testBit 31 then s
  else if s.flag pgVIM TTU_INV_STS.BUSY then
    (s.setFlag pgVIM TTU_INV_STS.REFUSED true).fire pgVIM 2
  else
    let part := match who with
      | .host k => k
      | .mgmt | .debug | .tenant _ => 31
    ({ s with inval := some { vi := v.toNat % 2048, range := v.toNat.testBit 30,
                              addr := s.getF pgVIM TTU_INV_ADDR.ADDR * 4096,
                              sizeLog := s.getF pgVIM TTU_INV_ADDR.SIZE_LOG, part := part, effected := false,
                              go := s.nextId } }).setFlag pgVIM TTU_INV_STS.BUSY true

/-- The invalidation takes effect on all four slices (R410). -/
def invEffect (s : State) (v : Inval) : State :=
  { s with
    ttu := (s.ttu.map fun e => (e.1, e.2.filter fun x => !inInval v x)).filter fun e => !e.2.isEmpty
    walks := s.walks.map fun (w : Walk) => if w.vi == v.vi then { w with restart := true } else w
    inval := some { v with effected := true } }

/-- The invalidation is done (R410). -/
def invDone (s : State) (v : Inval) : State :=
  let s1 := { s with inval := none, walks := s.walks.map fun (w : Walk) => if w.vi == v.vi then { w with again := false } else w }
  (s1.setFlag pgVIM TTU_INV_STS.BUSY false).setFlag pgVIM TTU_INV_STS.DONE true

/-! ## Binding table writes -/

/-- A write of VIM_BIND_D0 is held with the entry it was written for (R403). -/
def bindD0 (s : State) (v : Word) : State := { s with bindHeld := some (s.getF pgVIM VIM_BIND_IDX.ENTRY, v &&& 0xBF00FFFF) }

/-- A write of VIM_BIND_D1 applies the entry, with the held D0 when it is for that entry (R403). -/
def bindD1 (s : State) (v : Word) : State :=
  let e := s.getF pgVIM VIM_BIND_IDX.ENTRY
  let old := s.bindAt e
  let (d0, held) := match s.bindHeld with
    | some (h, x) => if h = e then (x, none) else (old.d0, s.bindHeld)
    | none => (old.d0, none)
  let s1 := { s with bind := storeSet (fun _ => ⟨0, 0, 0⟩) s.bind e { old with d0 := d0, d1 := v }, bindHeld := held }
  s1.onlyIf (s1.flag pgVIM VIM_BIND_IDX.AUTOINC) fun t => t.setF pgVIM VIM_BIND_IDX.ENTRY ((e + 1) % 4096)

end State

/-! ## Commands of chapter 11 -/

/-- VIM_BIND_D0_WRITE (R403). -/
def execVimBindD0Write (who : Requester) (value : Word) (s : State) : Res :=
  (s.withAccess who (State.offOf pgVIM VIM_BIND_D0.EN) 4 true fun t => t.bindD0 value).done

/-- VIM_BIND_D1_WRITE (R403). -/
def execVimBindD1Write (who : Requester) (value : Word) (s : State) : Res :=
  (s.withAccess who (State.offOf pgVIM VIM_BIND_D1.VI) 4 true fun t => t.bindD1 value).done

/-- TTU_INV_GO (R410). -/
def execTtuInvGo (who : Requester) (value : Word) (s : State) : Res :=
  (s.withAccess who (State.offOf pgVIM TTU_INV_CTL.GO) 4 true fun t => t.invGo who value).done

/-- TTU_INV_EFFECT (R410): once the requester's earlier BAR2 writes are committed. -/
def execTtuInvEffect (s : State) : Res :=
  match s.inval with
  | none => s.done
  | some v =>
    if v.effected || s.bar2.any (fun w => w.part == v.part && decide (w.pkt < v.go)) then s.done
    else (s.invEffect v).done

/-- TTU_INV_DONE (R410): every restarted walk has completed. -/
def execTtuInvDone (s : State) : Res :=
  match s.inval with
  | none => s.done
  | some v =>
    if v.effected && !(s.walks.any fun w => w.vi == v.vi && (w.restart || w.again)) then (s.invDone v).done else s.done

/-- VF_FLR (R412): the function's own registers return to their PCI Express resets. -/
def execVfFlr (inst : Nat) (s : State) : Res := ((s.instReset inst false false).modInst inst State.vfRegsReset).done

/-- VIM_RESET_WRITE (R412): a write of 1 to VIM_ICTL.RESET. -/
def execVimResetWrite (who : Requester) (inst : Nat) (s : State) : Res :=
  (s.withAccess who (State.offOf (pgVIMI inst) VIM_ICTL.RESET (inst % 64)) 4 true fun t => t.instReset inst false false).done

/-- PF_FLR (R396): the function's own registers return to their PCI Express resets. -/
def execPfFlr (part : Nat) (s : State) : Res :=
  if s.partOn part then
    ((s.vfChange part false 0).modPart part fun p => { PartSt.init with pfRid := p.pfRid }).done
  else s.done

/-- HELD_RESET_EFFECT (R416): the carrier of the generation to be assigned is gone. -/
def execHeldResetEffect (inst : Nat) (s : State) : Res :=
  if (s.inst inst).heldReset && !s.carriesGen inst (((s.inst inst).gen + 1) % 64) then (s.instEffect inst (s.inst inst).heldHot).done
  else s.done

/-- INSTANCE_RESET_END (R415): 2 µs after the effect. -/
def execInstanceResetEnd (inst : Nat) (s : State) : Res :=
  if (s.inst inst).stt == 2 && decide ((s.inst inst).endTick ≤ s.ticks) then (s.instResetEnd inst).done else s.done

/-- BAR2_WRITE_COMMIT (R410): the oldest write through a physical function's BAR2 is written to the translation tables
region, and mirrored for a partition of MIR_PMIRROR (R494). -/
def execBar2WriteCommit (s : State) : Res :=
  match s.bar2 with
  | [] => s.done
  | w :: r =>
    let s1 := { s with bar2 := r }
    let s2 := if bitAt (s.getF pgMIR MIR_PMIRROR.PARTS) w.part then s1.hbmCommit 1 w.hbm w.data
      else s1.hbmWrite w.hbm w.data
    (s2.writeDone w.pkt).done

end Sys2Proof.Machine
end

