-- ==== Sys2Proof/Machine/Windows.lean ====
section
/-! DEFINITION. Held window and access slot writes (R92, R379), the endpoint table (R101), prefetch (R364 to R366), the
reaper (R367 to R370), and their commands. -/

namespace Sys2Proof.Machine
namespace State

/-! ## Held registers -/

/-- What a read of a register whose writes are held returns: the last value written (R92, R379). -/
def heldRead (s : State) (k : Nat) : Dword :=
  match s.heldRegs.find? (·.1 == k) with
  | some (_, v) => v
  | none => s.reg k

/-- A write to such a register is held; in a sealed page it is dropped (R72). -/
def heldWrite (s : State) (k : Nat) (v : Dword) : State :=
  match regAt (k / 4096) (k % 4096) with
  | none => s
  | some (r, _) =>
    let old := s.heldRead k
    s.sealedWrite (k / 4096) (changesRws r.flds old v) fun t =>
      { t with heldRegs := storeInsert t.heldRegs k (regAfter r.flds false old v) }

/-- A held value takes effect. -/
def applyHeld (s : State) (k : Nat) : State :=
  match s.heldRegs.find? (·.1 == k) with
  | some (_, v) => { s.setReg k v with heldRegs := storeErase s.heldRegs k }
  | none => s

/-! ## Prefetch store -/

/-- Bytes of a block that its reads returned cover it whole. -/
def pfAllGot (b : PfBlock) : Bool :=
  (List.range b.size).all fun i => b.got.any fun g => decide (g.1 ≤ i ∧ i < g.1 + g.2)

/-- Discard blocks, counting those with bytes never returned (R366, Table 10.6); a block still being fetched only becomes
invalid. -/
def pfDiscard (s : State) (f : PfBlock → Bool) : State :=
  let gone := s.pf.filter fun b => f b && b.data.isSome
  let n := (gone.filter fun b => !pfAllGot b).length
  let keep := s.pf.filterMap fun b =>
    if f b then (if b.data.isSome then none else some { b with valid := false }) else some b
  (({ s with pf := keep } : State).addF pgFWD FWD_PF_CNT.DISCARDS n)

/-- A write through a port passes an ordering point: blocks that hold one of the bytes it writes become invalid (R366). -/
def pfWrite (s : State) (port : Nat) (t : Tlp) : State :=
  if s.pf.isEmpty then s
  else s.pfDiscard fun b => b.port == port && (enabledAddrs t).any fun a => decide (b.base ≤ a ∧ a < b.base + b.size)

/-- Reply to a read with bytes of a block. -/
def pfServe (s : State) (b : PfBlock) (data : List Byte) (p : Packet) : State :=
  s.reply p .sc (backToRequester p ((data.drop (p.tlp.addr - b.base)).take p.tlp.len)) false (some b.cid)

/-- Prefetch block of a read through a PORT window: base and size (R364). -/
def pfBlockOf (s : State) (p : Packet) : Nat × Nat :=
  let size := min (256 * 2 ^ p.attr.pfsz) (s.part p.part).maxRead
  (p.tlp.addr / max 1 size * max 1 size, max 1 size)

/-- The read may be served by prefetch (R364). -/
def pfEligible (s : State) (p : Packet) (port : Nat) : Bool :=
  let (base, size) := s.pfBlockOf p
  let w := s.window (p.attr.win.getD 0)
  s.flag pgFWD FWD_PF_CTL.EN && p.attr.prefetch && p.tlp.kind == .mrd && !p.forbidden
    && decide (p.tlp.addr + max 1 p.tlp.len ≤ base + size) && decide (w.base ≤ base ∧ base + size ≤ w.limit + 1)
    && (s.judge 0 port p.part true false (s.accSamples 0 port base size)).isNone
    && (match engOf p with
        | some e => (s.judge 1 e p.part true false (s.accSamples 1 e base size)).isNone
        | none => true)

/-- The valid block that holds every byte of a read (R365). -/
def pfHit (s : State) (p : Packet) : Option PfBlock :=
  s.pf.find? fun b => b.valid && b.cellar == p.cell0 && b.win == p.attr.win.getD 0 && b.part == p.part
    && decide (b.base ≤ p.tlp.addr ∧ p.tlp.addr + max 1 p.tlp.len ≤ b.base + b.size)

/-- A read that needs a free entry waits while every block of its Cellar's store is being fetched (R366). -/
def pfFull (s : State) (p : Packet) : Bool :=
  let mine := s.pf.filter fun b => b.cellar == p.cell0
  (s.pfHit p).isNone && decide (256 ≤ mine.length) && mine.all fun b => b.data.isNone

/-- An eligible read past the ordering point is served, waits for a fetch, or starts one (R365). Blocks stand least recently
filled first; a full store replaces the oldest. -/
def pfRead (s : State) (p : Packet) (port : Nat) : State :=
  let (base, size) := s.pfBlockOf p
  let win := p.attr.win.getD 0
  let s0 := s.dropPacket p.id
  match s0.pfHit p with
  | some b =>
    (match b.data with
     | some d =>
       let s1 := (s0.addF pgFWD FWD_PF_CNT.HITS).pfServe b d p
       { s1 with pf := s1.pf.map fun x =>
           if x.id = b.id then { x with got := x.got ++ [(p.tlp.addr - b.base, p.tlp.len)] } else x }
     | none => { s0 with pf := s0.pf.map fun x => if x.id = b.id then { x with waiting := x.waiting ++ [p] } else x })
  | none =>
    let mine := s0.pf.filter fun b => b.cellar == p.cell0
    let s1 := if 256 ≤ mine.length then
        (match mine.find? fun b => b.data.isSome with
         | some o => s0.pfDiscard fun b => b.id == o.id
         | none => s0)
      else s0
    let owner := s1.portPart port
    let t : Tlp := { p.tlp with rid := (s1.part owner).pfRid, tag := s1.nextId, pasid := none, addr := base, len := size,
                                mask := [], data := [] }
    let q := s1.newPacket t (64 + p.cell0) p.cell0 (.block owner) p.part (.prefetch s1.nextId)
    let blk : PfBlock := { id := s1.nextId, cellar := p.cell0, win := win, part := p.part, port := port, base := base,
                           size := size, data := none, result := none, cid := 0, valid := true, born := s1.ticks, got := [],
                           waiting := [p] }
    ({ s1 with pf := s1.pf ++ [blk] }).addPacket { q with route := .port port }

/-- A fetch completes (R365): its data serves the reads that wait; an error or poisoned data serves only the read that
started it, and the others are read anew. -/
def pfFill (s : State) (b : PfBlock) (status : CplStatus) (data : List Byte) (poisoned : Bool) : State :=
  if status = .sc ∧ poisoned = false then
    let got := b.waiting.map fun p => (p.tlp.addr - b.base, p.tlp.len)
    let rest := s.pf.filter (·.id != b.id)
    let s1 : State := { s with pf := rest ++ [{ b with data := some data, result := none, waiting := [], born := s.ticks,
                                                       got := got }] }
    let s2 := s1.each b.waiting fun t p => t.pfServe b data p
    s2.onlyIf (!b.valid) fun t => t.pfDiscard fun x => x.id == b.id
  else
    let s0 : State := { s with pf := s.pf.filter (·.id != b.id) }
    match b.waiting with
    | [] => s0.addF pgFWD FWD_PF_CNT.DISCARDS
    | p :: r =>
      let s1 := s0.onlyIf (!pfAllGot { b with got := [(p.tlp.addr - b.base, p.tlp.len)] }) fun t => t.addF pgFWD FWD_PF_CNT.DISCARDS
      let slice := (data.drop (p.tlp.addr - b.base)).take p.tlp.len
      let s2 := s1.reply p status (backToRequester p slice) poisoned (some b.cid)
      { s2 with packets := s2.packets ++ r.map fun q => { q with place := .ingress } }

/-! ## Reaper -/

/-- A tracker entry. -/
def trkFind (s : State) (port rid tag : Nat) : Option TrkEntry :=
  s.trk.find? fun e => e.port == port && e.rid == rid && e.tag == tag

/-- Remove a tracker entry. -/
def trkDrop (s : State) (e : TrkEntry) : State :=
  { s with trk := s.trk.filter fun x => !(x.port == e.port && x.rid == e.rid && x.tag == e.tag) }

/-- The request of a tracker entry that the reaper freed is answered Completer Abort, or its block acts (R370, Table 12.2). -/
def trkAbort (s : State) (e : TrkEntry) : State :=
  match e.pkt.owner with
  | .dma ch num off => s.dmaData ch num off e.pkt.orig e.pkt.bound .ca [] false true
  | .prefetch b =>
    (match s.pf.find? (·.id == b) with
     | some blk => ({ s with pf := s.pf.filter (·.id != b) } : State).each blk.waiting fun t p => t.reply p .ca []
     | none => s)
  | .requester | .npw _ | .split _ | .fabric _ | .dmaList _ _ _ | .load _ => s.reply e.pkt .ca []

/-! ## Register effects -/

/-- A write of WIN_BASE, WIN_LIMIT or WIN_ATTR of a configuration window is held; hierarchy windows are read-only (R89,
R92). -/
def winField (s : State) (w : Nat) (field : HeldField) (v : Dword) : State :=
  if 8064 ≤ w then s
  else
    match field with
    | .base => s.heldWrite (fkey (pgWIN w) WIN_BASE.ADDR (w % 128)) v
    | .limit => s.heldWrite (fkey (pgWIN w) WIN_LIMIT.ADDR (w % 128)) v
    | .attr => s.heldWrite (fkey (pgWIN w) WIN_ATTR.PFSZ (w % 128)) v
    | .wr => s

/-- The held attribute word of a window changes SWAP, PREFETCH or NPW (R387). -/
def winLosesRule (s : State) (w : Nat) : Bool :=
  let k := fkey (pgWIN w) WIN_ATTR.PFSZ (w % 128)
  let d := s.heldRead k ^^^ s.reg k
  bitsOf d 31 30 != 0 || bitsOf d 25 24 != 0

/-- The result of the requests that won window `w` and wait in an ingress buffer, an egress queue or the prefetch store becomes undefined (R387): the
data that they write or read is free (log 80). -/
def winTaint (s : State) (w : Nat) : State :=
  let hit := fun (p : Packet) => p.attr.win == some w && p.place != .window
  let spoil := fun (p : Packet) =>
    { p with taint := true, tlp := { p.tlp with data := if isWrite p.tlp || needsWr p.tlp then freeBytesN s.free p.tlp.data.length else p.tlp.data } }
  { s with
    free := s.free + 1
    packets := s.packets.map fun p => if hit p then spoil p else p
    pf := s.pf.map fun b => if b.win = w then { b with waiting := b.waiting.map spoil } else b }

/-- A write of WIN_ROUTE applies the window with its held fields (R92), and its prefetch blocks become invalid (R366). -/
def winRoute (s : State) (w : Nat) (v : Word) : State :=
  if 8064 ≤ w then s
  else
    let pg := pgWIN w
    let i := w % 128
    let k := fkey pg WIN_ROUTE.KIND i
    let new : Dword := BitVec.ofNat 64 (v.toNat &&& 0xF1FFFFFF)
    s.sealedWrite pg (s.reg k != new) fun u =>
      let t := u.onlyIf (u.winLosesRule w) fun x => x.winTaint w
      (((t.applyHeld (fkey pg WIN_BASE.ADDR i)).applyHeld (fkey pg WIN_LIMIT.ADDR i)).applyHeld
        (fkey pg WIN_ATTR.PFSZ i)).setReg k new |>.pfDiscard fun b => b.win == w

/-- A request waits at the shared window engine under R325 or R326 (R354). -/
def swWaits (s : State) (p : Packet) : Bool :=
  p.place == .window && (p.attr.strict || p.tlp.kind == .dmwr) && !s.swMaySerialize p

/-- Some request that won window `w` is in the write buffer or waits under R325 or R326 (R354). -/
def winAtEngine (s : State) (w : Nat) : Bool :=
  s.packets.any (fun p => p.attr.win == some w && s.swWaits p) || s.swb.any (fun e => e.src.attr.win == some w)

/-- The rule that leaves the result of a WIN_ROUTE write undefined: ORD or VIEW of a SHARED window changes while requests that won it are with its engine
(R354). -/
def winUndefined (s : State) (w : Nat) : Option Nat :=
  let k := fkey (pgWIN w) WIN_ATTR.PFSZ (w % 128)
  let d := s.heldRead k ^^^ s.reg k
  if 8064 ≤ w ∨ s.pageSealed (pgWIN w) then none
  else if (s.configWindow w).kind = 4 ∧ bitsOf d 28 26 ≠ 0 ∧ s.winAtEngine w = true then some 354
  else none

/-- A write of ACC_BASE, ACC_LIMIT or ACC_WR is held (R379). -/
def accField (s : State) (n : Nat) (field : HeldField) (v : Dword) : State :=
  if 96 ≤ n then s
  else
    match field with
    | .base => s.heldWrite (fkey pgACC ACC_BASE.ADDR n) v
    | .limit => s.heldWrite (fkey pgACC ACC_LIMIT.ADDR n) v
    | .wr => s.heldWrite (fkey pgACC ACC_WR.PARTS n) v
    | .attr => s

/-- A write of ACC_RD applies the slot with its held fields (R379). -/
def accRd (s : State) (n : Nat) (v : Word) : State :=
  if 96 ≤ n then s
  else
    let k := fkey pgACC ACC_RD.EN n
    let new : Dword := BitVec.ofNat 64 (v.toNat &&& 0x80FFFFFF)
    s.sealedWrite pgACC (s.reg k != new) fun t =>
      (((t.applyHeld (fkey pgACC ACC_BASE.ADDR n)).applyHeld (fkey pgACC ACC_LIMIT.ADDR n)).applyHeld
        (fkey pgACC ACC_WR.PARTS n)).setReg k new

/-- An access to FWD_EPT_DATA reaches the selected endpoint entry, and steps the index when AUTOINC is 1 (R101,
Table 3.6). -/
def eptAccess (s : State) (value : Option Word) : State :=
  let e := s.getF pgFWD FWD_EPT_IDX.EP
  let old := storeGet (fun _ => (0 : Word)) s.ept e
  let s1 := match value with
    | none => s.emit (.regRead (State.offOf pgFWD FWD_EPT_DATA.KIND) (old.zeroExtend 64))
    | some v =>
      let new := v &&& 0xF01F003F
      s.sealedWrite pgFWD (old != new) fun t => { t with ept := storeSet (fun _ => (0 : Word)) t.ept e new }
  s1.onlyIf (s1.flag pgFWD FWD_EPT_IDX.AUTOINC) fun t => t.setF pgFWD FWD_EPT_IDX.EP ((e + 1) % 4096)

end State

/-! ## Commands -/

/-- Offset of a held register in its row. -/
def heldOff (field : HeldField) : Nat :=
  match field with
  | .base => 0
  | .limit => 8
  | .attr => 20
  | .wr => 20

/-- WIN_FIELD_WRITE (R92). -/
def execWinFieldWrite (who : Requester) (w : Nat) (field : HeldField) (value : Dword) (s : State) : Res :=
  (s.withAccess who (pgWIN w * 4096 + 0x80 + 24 * (w % 128) + heldOff field) (if field = .attr then 4 else 8) true
    fun t => t.winField w field value).done

/-- WIN_ROUTE_WRITE (R92): a write that reaches its register and whose result the spec leaves undefined (R354) stops. -/
def execWinRouteWrite (who : Requester) (w : Nat) (value : Word) (s : State) : Res :=
  let off := State.offOf (pgWIN w) WIN_ROUTE.KIND (w % 128)
  match s.winUndefined w, s.writeReaches who off 4 with
  | some r, true => .fault (.undefinedResult r)
  | none, _ => (s.withAccess who off 4 true fun t => t.winRoute w value).done
  | some _, false => (s.withAccess who off 4 true fun t => t.winRoute w value).done

/-- FWD_EPT_DATA_ACCESS (R101): a write of `value`, or a read. -/
def execFwdEptDataAccess (who : Requester) (value : Option Word) (s : State) : Res :=
  (s.withAccess who (State.offOf pgFWD FWD_EPT_DATA.KIND) 4 value.isSome fun t => t.eptAccess value).done

/-- ACC_HELD_WRITE (R379). -/
def execAccHeldWrite (who : Requester) (slot : Nat) (field : HeldField) (value : Dword) (s : State) : Res :=
  (s.withAccess who (pgACC * 4096 + 0x80 + 24 * slot + heldOff field) (if field = .wr then 4 else 8) true
    fun t => t.accField slot field value).done

/-- ACC_RD_WRITE (R379). -/
def execAccRdWrite (who : Requester) (slot : Nat) (value : Word) (s : State) : Res :=
  (s.withAccess who (State.offOf pgACC ACC_RD.EN slot) 4 true fun t => t.accRd slot value).done

/-- PREFETCH_FILL_DONE (R365): the fetch of block `block` has brought its completion. -/
def execPrefetchFillDone (block : Nat) (s : State) : Res :=
  match s.pf.find? (·.id == block) with
  | none => s.done
  | some b =>
    match b.result with
    | none => s.done
    | some (status, data, poisoned) => (s.pfFill b status data poisoned).done

/-- PREFETCH_HOLD_EXPIRE (R366): HOLD × 16 ns have passed since the block's data arrived. -/
def execPrefetchHoldExpire (block : Nat) (s : State) : Res :=
  match s.pf.find? (·.id == block) with
  | none => s.done
  | some b =>
    if b.data.isSome && decide (b.born + 16 * s.getF pgFWD FWD_PF_CTL.HOLD ≤ s.ticks) then
      (s.pfDiscard fun x => x.id == block).done
    else s.done

/-- ORPHAN_REAP (R369): an orphan entry has held for ORPHAN_T µs. -/
def execOrphanReap (port rid tag : Nat) (s : State) : Res :=
  match s.trkFind port rid tag with
  | none => s.done
  | some e =>
    match e.orphan with
    | none => s.done
    | some t0 =>
      if t0 + 1000 * s.getF pgFWD FWD_REAP_CTL.ORPHAN_T ≤ s.ticks then
        ((s.trkDrop e).addF pgFWD FWD_REAP_CNT0.ORPHAN).done
      else s.done

/-- LIVE_REAP (R370): an entry that is no orphan has held for LIVE_T ms. -/
def execLiveReap (port rid tag : Nat) (s : State) : Res :=
  match s.trkFind port rid tag with
  | none => s.done
  | some e =>
    let live := s.getF pgFWD FWD_REAP_CTL.LIVE_T
    if e.orphan.isNone && live != 0 && decide (e.born + 1000000 * live ≤ s.ticks) then
      ((((s.trkDrop e).addF pgFWD FWD_REAP_CNT0.LIVE).fire pgFWD 8 e.pkt.part (faultPort e.pkt)).trkAbort e).done
    else s.done

end Sys2Proof.Machine
end

