-- ==== Sys2Proof/Machine/Timeline.lean ====
section
/-! DEFINITION. The schedule contract as functions of the state: fabric time and cycles (R133 to R136), flit periods (R137),
gate entries (R139), streams and bound periods (R140 to R143), readiness (R149, R150), and marks (R147). -/

namespace Sys2Proof.Machine
namespace State

/-! ## Cycle -/

/-- Tick within the cycle of a fabric time at or after the epoch (R136). -/
def cycPos (s : State) (t : Nat) : Nat :=
  match s.sched.active with
  | none => 0
  | some v => (t - s.sched.epoch) % max 1 v.cycle

/-- Current flit period of a port: SCH_PORTSTS.FPER (R137, Table 4.18). -/
def fper (s : State) (p : Nat) : Nat := s.getF (pgSCH (cellarOf p)) SCH_PORTSTS.FPER (localPort p)

/-- Slip σ of a port (R153). -/
def slip (s : State) (p : Nat) : Nat := (s.port p).slip

/-- What the four bits of SLIP and PEAK read for a σ: no value is stated for one above 15, which only a swap makes (log 4). -/
def slipShown (s : State) (v : Nat) : Nat × State := if v < 16 then (v, s) else (s.draw.1 % 16, s.draw.2)

/-- σ of a port is `v`, as SLIP shows it. -/
def putSlip (s : State) (p v : Nat) : State :=
  let (x, s1) := s.slipShown v
  (s1.modPort p fun y => { y with slip := v }).setF (pgSCH (cellarOf p)) SCH_PORTSTS.SLIP x (localPort p)

/-- Set σ. PEAK keeps the largest (R155). -/
def setSlip (s : State) (p v : Nat) : State :=
  let s1 := s.putSlip p v
  let pg := pgSCH (cellarOf p)
  s1.setF pg SCH_PORTSTS.PEAK (max (s1.getF pg SCH_PORTSTS.SLIP (localPort p)) (s1.getF pg SCH_PORTSTS.PEAK (localPort p))) (localPort p)

/-- The port runs best-effort only (R162), as every port does once the schedule executor has stopped (R469). -/
def beOnly (s : State) (p : Nat) : Bool := s.devFatal || bitAt (s.getF (pgSCH (cellarOf p)) SCH_BEONLY.PORTS) (localPort p)

/-- Set a port's bit of SCH_BEONLY. -/
def setBeOnly (s : State) (p : Nat) (b : Bool) : State :=
  let x := s.getF (pgSCH (cellarOf p)) SCH_BEONLY.PORTS
  s.setF (pgSCH (cellarOf p)) SCH_BEONLY.PORTS (if b then bitSet x (localPort p) else bitClr x (localPort p))

/-- Flit period in ticks of a width and a rate code (Table 4.2): 5 is 64 GT/s, 6 is 128 GT/s; 0 outside FLIT mode at these
rates. -/
def fperOf (width rate : Nat) (flit : Bool) : Nat :=
  if !flit || width = 0 then 0
  else if rate = 6 then 16 / width
  else if rate = 5 then 32 / width
  else 0

/-- A flit period of the port starts at fabric time `t`: on the grid of the cycle (R137, R159), or at the multiples of F of fabric time while no Vintage
is active and there are no cycle ticks (DESIGN CHOICE, log 78). -/
def onGrid (s : State) (p t : Nat) : Bool :=
  let f := s.fper p
  f != 0 && (match s.sched.active with
    | none => t % f == 0
    | some _ => s.cycPos t % f == 0)

/-! ## Streams -/

/-- Port of a global queue. -/
def portOfQueue (q : Nat) : Nat := 16 * (q / 128) + q % 128 / 8

/-- Gate entries of a port. -/
def gatesOf (s : State) (p : Nat) : List GateEntry :=
  match s.sched.active with
  | none => []
  | some v => storeGet (fun _ => []) v.gates p

/-- The queue is best-effort-served (R216). -/
def beServed (s : State) (q : Nat) : Bool := !(s.streamOf q).sched || s.beOnly (portOfQueue q)

/-- Kind of the flit period at cycle tick `pos` of a port: some q for an owned period of local queue q, with REPAIR told apart
from OPEN by the Boolean (R139). -/
def periodKind (s : State) (p pos : Nat) : Option Nat × Bool :=
  let f := max 1 (s.fper p)
  match (s.gatesOf p).find? fun g => decide (g.start ≤ pos ∧ pos < g.start + g.len * f) with
  | none => (none, false)
  | some g => if g.kind = 0 then (some (128 * cellarOf p + g.queue), false) else (none, g.kind == 1)

/-- Consecutive flit periods from cycle tick `pos`, at most `n`, that satisfy `f`. -/
def runLength (s : State) (p : Nat) (f : Nat → Bool) : Nat → Nat → Nat
  | 0, _ => 0
  | n + 1, pos => if f (pos % s.cycleLen) then 1 + s.runLength p f n (pos + s.fper p) else 0

/-- Owned periods of a stream as cycle ticks, in the order that its window offset gives (R142). -/
def ownedTicks (s : State) (q : Nat) : List Nat :=
  let p := portOfQueue q
  let f := max 1 (s.getF (pgSCH (cellarOf p)) SCH_PORTCFG.FPER_PLAN (localPort p))
  let all := ((s.gatesOf p).filter fun g => g.kind == 0 && 128 * cellarOf p + g.queue == q).flatMap fun g =>
    (List.range g.len).map fun j => g.start + j * f
  let sorted := all.foldl (fun l x => natInsert x l) []
  let o := (s.streamOf q).offset
  sorted.filter (fun x => decide (o ≤ x)) ++ (sorted.filter fun x => decide (x < o)).map (· + s.cycleLen)

/-- Fabric time at which owned period `i` of window `m` starts: bound tick G of cell (m, i) (R142). -/
def boundTick (s : State) (q m i : Nat) : Option Nat :=
  ((s.ownedTicks q)[i]?).map fun x => s.sched.epoch + m * s.cycleLen + x

/-- The packet waits before the ordering point and its route leads to queue `q`: a port, the port that its FEA is sent by, or a multicast group. -/
def boundFor (s : State) (q : Nat) (x : Packet) : Bool :=
  let p := portOfQueue q
  (x.place == .ingress || x.place == .walk) && decide (queueOf p x.tlp.tc = q) && (match x.route with
    | .port d => d == p
    | .fabric fea => s.fabPort x.ing x.tlp.tc (fea / 4096) == some p
    | .mcast g => bitAt (s.getF pgFWD FWD_MCG_MASK.PORTS g) p
    | .shared _ | .bar _ _ _ | .vfBar _ _ _ | .none => false)

/-- Mark that a packet for a stream takes (R143): its cells are numbered by acceptance in its window, packets routed to the stream that still wait
before the ordering point included (R141). A packet whose walk has not ended is routed to no queue yet and is left out, and takes its numbers after
those that were given meanwhile (DESIGN CHOICE, log 78). -/
def streamMark (s : State) (q : Nat) (p : Packet) : Mark :=
  let d := s.streamOf q
  let a := p.acc.headD s.fabric
  match s.windowOf q a with
  | none => .excess
  | some m =>
    let past := (((storeGet (fun _ => []) s.sched.accWin q).filter fun x => x.1 == m && ahead (x.2.1, x.2.2.1) (a, p.id)).map (·.2.2.2)).sum
    let wait := ((s.packets.filter fun x => s.boundFor q x && x.ing == p.ing && decide (x.id ≠ p.id)
      && ahead (x.acc.headD s.fabric, x.id) (a, p.id) && s.windowOf q (x.acc.headD s.fabric) == some m).map (·.ncell)).sum
    let i := p.skip + past + wait
    let ow := s.ownedTicks q
    let f := max 1 (s.getF (pgSCH (cellarOf (portOfQueue q))) SCH_PORTCFG.FPER_PLAN (localPort (portOfQueue q)))
    let conseq := (List.range p.ncell).all fun j =>
      match ow[i + j]?, ow[i]? with
      | some x, some y => x == y + j * f
      | some _, none => false
      | none, _ => false
    if p.ing = d.ing ∧ p.ncell ≤ d.pmax ∧ i + p.ncell ≤ d.cells ∧ conseq then .inWin m i else .excess

/-- The cells of a packet of a stream count in its acceptance window (R141). Windows before that of every packet of the ingress port that still
waits are forgotten. -/
def noteWindow (s : State) (q : Nat) (p : Packet) : State :=
  let a := p.acc.headD s.fabric
  match s.windowOf q a with
  | none => s
  | some m =>
    let oldest := (s.packets.filter fun x => (x.place == .ingress || x.place == .walk) && x.ing == p.ing).foldl
      (fun n x => min n (x.acc.headD s.fabric)) s.fabric
    let old := (storeGet (fun _ => []) s.sched.accWin q).filter fun x => decide ((s.windowOf q oldest).getD 0 ≤ x.1)
    { s with sched := { s.sched with accWin := storeSet (fun _ => []) s.sched.accWin q (old ++ [(m, a, p.id, p.ncell)]) } }

/-- A packet of a stream leaves the contract (R147): mark, count, SCH_NONCONF on a change from zero. -/
def markOut (s : State) (q : Nat) (p : Packet) (m : Mark) : State :=
  let c := q / 128
  let f := match m with
    | .late => some SCH_CONF.LATE
    | .excess => some SCH_CONF.EXCESS
    | .displaced => some SCH_CONF.DISPLACED
    | .blocked => some SCH_CONF.BLOCKED
    | .best | .inWin _ _ => none
  let s1 := (s.modPacket p.id fun x => { x with mark := m }).count c 0x10 (localPort (portOfQueue q)) (q % 8) 1
  match f with
  | none => s
  | some g =>
    let was := s1.getF (pgSCH c) g (q % 128)
    (s1.addF (pgSCH c) g 1 (q % 128)).onlyIf (was == 0) fun t => t.fire (pgSCH c) 2 p.part (faultPort p)

/-- A mark that is in contract. -/
def inContract (m : Mark) : Bool :=
  match m with
  | .inWin _ _ => true
  | .best | .late | .excess | .displaced | .blocked => false

/-- A packet of a stream that was cut short is out of contract and LATE (R146): one that had left the contract before is marked without a count. -/
def markCut (s : State) (k : Packet) : State :=
  match k.mark with
  | .best => s
  | .inWin _ _ => s.markOut k.queue k .late
  | .late | .excess | .displaced | .blocked => s.modPacket k.id fun x => { x with mark := .late }

/-- Bound tick of an in-contract packet's first cell. -/
def packetBound (s : State) (q : Nat) (p : Packet) : Option Nat :=
  match p.mark with
  | .inWin m i => s.boundTick q m i
  | .best | .late | .excess | .displaced | .blocked => none

/-! ## Readiness -/

/-- Half-tick at which a cell reaches the egress pipeline, times 1 (R37, R149): entry plus 12. -/
def reachHalf (entered : Nat) : Nat := entered + 12

/-- Cell `i` of a packet is ready for a period that starts at fabric tick `d` (R150): it has arrived 24 ticks before, and is
in SRAM or on its way out, not in the spill part. A cell of a covered write under MIR_PSYNC waits for the mirror (R497). -/
def cellReady (s : State) (p : Packet) (i d : Nat) : Bool :=
  match p.entered[i]? with
  | none => false
  | some e => decide (i < p.arrived) && decide (reachHalf e + 48 ≤ 2 * d) && !(p.spill && decide (0 < p.spilled))
      && !s.mir.unacked.contains p.group

/-- A packet may start at tick `d` (R114, R144, R150): its first cell is ready, and all of them when it is buffered. -/
def startReady (s : State) (p : Packet) (d : Nat) : Bool :=
  if p.cut then s.cellReady p 0 d else (List.range p.ncell).all fun i => s.cellReady p i d

/-! ## Flow-control credit of the link partner -/

/-- Data credit units of 16 B that a packet's payload takes. -/
def dataUnits (t : Tlp) : Nat := ceilDiv t.data.length 16

/-- Credit of at least `n`; absent is without limit. -/
def creditFor (c : Option Nat) (n : Nat) : Bool :=
  match c with
  | none => true
  | some k => decide (n ≤ k)

/-- Take credit. -/
def takeCr (c : Option Nat) (n : Nat) : Option Nat := c.map (· - n)

/-- The link partner of a PCIe port holds out credit for the whole packet (R144, R217). -/
def pcieCredit (s : State) (port : Nat) (t : Tlp) : Bool :=
  let x := s.port port
  let u := dataUnits t
  match tlpCls t with
  | 0 => creditFor x.crP 1 && creditFor x.crPD u
  | 1 => creditFor x.crNP 1 && creditFor x.crNPD u
  | _ => creditFor x.crCPL 1 && creditFor x.crCPLD u

/-- The credit of a packet is taken as it starts. -/
def pcieTake (s : State) (port : Nat) (t : Tlp) : State :=
  let u := dataUnits t
  s.modPort port fun x =>
    match tlpCls t with
    | 0 => { x with crP := takeCr x.crP 1, crPD := takeCr x.crPD u }
    | 1 => { x with crNP := takeCr x.crNP 1, crNPD := takeCr x.crNPD u }
    | _ => { x with crCPL := takeCr x.crCPL 1, crCPLD := takeCr x.crCPLD u }

end State
end Sys2Proof.Machine
end

