-- ==== Sys2Proof/Machine/Link.lean ====
section
/-! DEFINITION. Link layer basics shared by FFL ports and the mirror ports: register sets (R275 to R294, R511), pending control
messages (R280, R282), and the repair items of a port (R151). Ports 64 and 65 are MP0 and MP1. -/

namespace Sys2Proof.Machine

/-- Page that holds the link register set of a port (R511). -/
def lkPage (p : Nat) : Nat := if p < 64 then pgFFL p else pgMIR

/-- A field of the FFL page at its place in the set of port `p` (Table 14.21). -/
def lkRef (p : Nat) (f : FRef) : FRef :=
  if p < 64 then f else { f with off := f.off + 0x380 + 0x100 * (p - 64) }

/-- Distance `a − b` modulo 4,096 (R285). -/
def seqSub (a b : Nat) : Nat := (a + 4096 - b % 4096) % 4096

namespace State

/-- Field of a port's link register set. -/
def getL (s : State) (p : Nat) (f : FRef) : Nat := s.getF (lkPage p) (lkRef p f)
/-- Set a field of a port's link register set. -/
def setL (s : State) (p : Nat) (f : FRef) (v : Nat) : State := s.setF (lkPage p) (lkRef p f) v
/-- Add to a saturating count of a port's link register set. -/
def addL (s : State) (p : Nat) (f : FRef) (n : Nat := 1) : State := s.addF (lkPage p) (lkRef p f) n

/-- A link source of Table 8.31 fires, or for a mirror port the source of Table 14.20 that stands for it. -/
def fireL (s : State) (p bit : Nat) : State :=
  if p < 64 then s.fire (pgFFL p) bit 31 p
  else if bit = 0 then s.fire pgMIR 14
  else if bit = 2 then s.fire pgMIR 1
  else if bit = 1 ∨ bit = 3 ∨ bit = 4 then s.fire pgMIR 13
  else s

/-- STATE of a link layer (Table 8.14): 0 DOWN, 1 HELLO, 2 INIT, 3 ACTIVE, 4 RETRAIN. -/
def lkState (s : State) (p : Nat) : Nat := s.getL p FFL_STS.STATE

/-- The first replay item of a port that is pending now: one for a NAK is so from the tick after its decision (R288). -/
def dueReplay (s : State) (p : Nat) : Option Nat := (s.port p).repair.findIdx? fun t => decide (t ≤ s.fabric)

/-- A port has a repair item of either kind. -/
def repairPending (s : State) (p : Nat) : Bool :=
  (s.dueReplay p).isSome || (s.port p).upkeep.head?.any fun t => decide (t ≤ s.fabric)

/-- A replay flit becomes pending at a tick (R151). -/
def replayAt (s : State) (p t : Nat) : State := s.modPort p fun x => { x with repair := x.repair ++ [t] }

/-- A replay flit becomes pending at the current tick. -/
def replayDue (s : State) (p : Nat) : State := s.replayAt p s.fabric

/-- An upkeep item is pending from a tick on; on an FFL port one CTRL flit serves all that is pending (R280). -/
def upkeepFrom (s : State) (p t : Nat) : State :=
  s.modPort p fun x => { x with upkeep := match x.upkeep with
    | [] => [t]
    | a :: r => if s.isFfl p || decide (64 ≤ p) then min a t :: r else a :: r ++ [t] }

/-- An upkeep item becomes pending. -/
def upkeepDue (s : State) (p : Nat) : State := s.upkeepFrom p s.fabric

/-- A control message becomes pending for `n` CTRL flits (R280, R282). -/
def ctrlAdd (s : State) (p : Nat) (m : CtrlMsg) (n : Nat := 1) : State :=
  (s.modFfl p fun x => { x with ctrl := x.ctrl ++ [(m, n)] }).upkeepDue p

/-- The mirror port is ACTIVE. -/
def mpUp (s : State) (m : Nat) : Bool := s.lkState (64 + m) == 3

/-- Mirror ports that are ACTIVE (R489). -/
def mirPorts (s : State) : List Nat := [64, 65].filter fun p => s.lkState p == 3

/-- A Dihus message on every ACTIVE mirror port. -/
def mirMsg (s : State) (m : CtrlMsg) (n : Nat := 1) : State := s.each s.mirPorts fun t p => t.ctrlAdd p m n

/-- The replay item of a port that has waited longest, and the oldest due time of any item. -/
def oldestRepair (s : State) (p : Nat) : Option Nat :=
  match (s.port p).repair.head?, (s.port p).upkeep.head? with
  | some a, some b => some (min a b)
  | some a, none => some a
  | none, some b => some b
  | none, none => none

/-- The device port is in Recovery, or an FFL port in RETRAIN (R247, R292). -/
def inRecovery (s : State) (p : Nat) : Bool :=
  if s.isFfl p then s.lkState p == 4 else s.linkState p == 5

end State
end Sys2Proof.Machine
end

