-- ==== Sys2Proof/Machine/Swap.lean ====
section
/-! DEFINITION. Vintage swaps and capacity events: what a swap does to ports, queues and packets (R161 to R163, R187, R202,
R224), and the selection of a Vintage (R194 to R204). -/

namespace Sys2Proof.Machine

/-- Page-local queue index of a global queue (Table 6.1). -/
def qix (q : Nat) : Nat := q % 64
/-- QSH page of a global queue. -/
def qpg (q : Nat) : Nat := pgQSH (q / 128) (q % 128 / 8)
/-- Global queues of a device port. -/
def portQueues (p : Nat) : List Nat := (List.range 8).map (State.queueOf p)

/-- Cellars to which an image gives entries (R653). -/
def givesTo (v : Vintage) (c : Nat) : Bool :=
  (v.gates.any fun e => decide (e.1 / 16 = c) && !e.2.isEmpty) || (v.plan.any fun e => decide (e.1 / 16 = c) && e.2 != 0)
    || (v.streams.any fun e => decide (e.1 / 128 = c) && e.2.sched)
    || (v.spine.any fun e => (decide (e.1 / 4 = c) || decide (e.1 % 4 = c)) && !e.2.isEmpty)
    || (v.spill.any fun e => e.cellar == c) || (v.dma.any fun e => decide (e.1 = c) && !e.2.isEmpty)

/-- FPER_PLAN of a port in a Vintage (Table 5.5). -/
def planOf (v : Vintage) (p : Nat) : Nat := storeGet (fun _ => 0) v.plan p

/-- Replan fault of an event class: bit 8 MARGIN_REPLAN for classes 0 to 2, bit 9 TOPOLOGY_REPLAN (Table 5.10). -/
def replanBit (cls : Nat) : Nat := if cls ≤ 2 then 8 else 9

namespace State

/-- Sources of the device-wide set fire in the SCH page of every Cellar in RUN (R184). -/
def schFire (s : State) (bit : Nat) : State :=
  s.each ((List.range 4).filter fun c => s.cellarRun c) fun t c => t.fire (pgSCH c) bit

/-! ## Queues that become best-effort-served (R224) -/

/-- BURST of a bucket as it holds in the present tick: a write takes effect from the next (R225). -/
def burstNow (s : State) (page : Nat) (f : FRef) (i : Nat) : Nat :=
  match s.edge.cuts.find? (·.1 == fkey page f i) with
  | some (_, old) => old
  | none => s.getF page f i

/-- The bucket of a queue is set to BURST and its deficit to 0 (R224). -/
def newlyActive (s : State) (q : Nat) : State :=
  (s.setF (qpg q) QSH_TOK.TOKENS (s.burstNow (qpg q) QSH_SBURST.BURST (qix q) * 65536) (qix q)).modQueue q fun x => { x with deficit := 0 }

/-! ## Depth of queues -/

/-- Depth of a queue in cells (R230). -/
def depth (s : State) (q : Nat) : Nat := ((s.inQueue q).map fun k => k.ncell - k.left).sum

/-- QSH_DPEAK keeps the largest depth (R230). -/
def peakDepth (s : State) (q : Nat) : State :=
  let pk := s.getF (qpg q) QSH_DPEAK.PEAK (qix q)
  s.setF (qpg q) QSH_DPEAK.PEAK (min 0xFFFFFF (max pk (s.depth q))) (qix q)

/-- Queue of a packet is empty: its deficit is 0 (R218). -/
def queueLeft (s : State) (q : Nat) : State :=
  if (s.inQueue q).isEmpty then s.modQueue q fun x => { x with deficit := 0, stalled := none } else s

/-! ## Best-effort-only operation -/

/-- FPER_PLAN of a port. -/
def fperPlan (s : State) (p : Nat) : Nat := s.getF (pgSCH (cellarOf p)) SCH_PORTCFG.FPER_PLAN (localPort p)

/-- Set the current flit period of a port. -/
def setFper (s : State) (p f : Nat) : State := s.setF (pgSCH (cellarOf p)) SCH_PORTSTS.FPER f (localPort p)

/-- Judge best-effort-only operation of a port afresh (R161, R162, R247): in Recovery, or while its flit period is not the
plan. SCH_FPER_MISMATCH fires outside Recovery when the mismatch is new, or `fresh` says that the comparison is made again. On
entry σ is 0 and the port's stream queues become newly active (R224). -/
def portMode (s : State) (p : Nat) (fresh : Bool) : State :=
  let mism := s.fperPlan p != 0 && s.fper p != s.fperPlan p
  let be := s.inRecovery p || mism
  let was := s.beOnly p
  let s1 := s.setBeOnly p be
  let s2 := s1.onlyIf (!s.inRecovery p) fun t =>
    (t.modPort p fun x => { x with mism := mism }).onlyIf (mism && (fresh || !(s.port p).mism)) fun u => u.fire (pgSCH (cellarOf p)) 3
  s2.onlyIf (be && !was) fun t =>
    (t.putSlip p 0).each
      ((portQueues p).filter fun q => (t.streamOf q).sched) fun u q => u.newlyActive q

/-! ## Undefined images -/

/-- Cells of the placed bursts of one direction in the 1,000 ticks of the cycle from tick `t` on, the cycle repeating (R210). -/
def spillWindow (v : Vintage) (dir t : Nat) : Nat :=
  ((v.spill.filter (·.dir == dir)).map fun x => x.cells * ceilDiv (1000 - (x.start + v.cycle - t) % v.cycle) v.cycle).sum

/-- A DMA entry that R440 does not permit: a channel not SCHED, a length over its staging room, or an engine occupied by another entry. -/
def dmaBad (s : State) (v : Vintage) (c : Nat) (l : List DmaSlot) : Bool :=
  l.zipIdx.any fun (x, i) => !s.flag (pgDMA c) DMA_CHCFG.SCHED x.chan || decide (16 * s.getF (pgDMA c) DMA_CHCFG.STAGE x.chan < x.len)
    || l.zipIdx.any fun (y, j) => i != j && y.eng == x.eng && decide ((y.start + v.cycle - x.start) % v.cycle < 2 * x.len)

/-- An image whose contents the spec leaves undefined (R165 to R169, R177, R207 to R211): the first rule broken. Of a STREAMS entry with SCHED 0 neither
PMAX nor the presence of ING_PORT is judged (DESIGN CHOICE, log 79). -/
def imageBad (s : State) (v : Vintage) : Option Nat :=
  let rising := fun (l : List Nat) => (l.zip l.tail).all fun x => decide (x.1 < x.2)
  let gate := fun (p : Nat) => storeGet (fun _ => ([] : List GateEntry)) v.gates p
  let owned := fun (q : Nat) => ((gate (portOfQueue q)).filter fun g =>
    g.kind == 0 && decide (128 * cellarOf (portOfQueue q) + g.queue = q)).map (·.len)
  let path := fun (a b : Nat) => storeGet (fun _ => ([] : List (Nat × Nat))) v.spine (4 * a + b)
  if (v.gates.any fun e => !rising (e.2.map (·.start))) || (v.spine.any fun e => !rising (e.2.map (·.1)))
      || (v.dma.any fun e => !rising (e.2.map (·.start))) || !rising (v.spill.map (·.start)) then some 177
  else if v.gates.any (fun e => ((e.2.zip e.2.tail).any fun x => decide (x.2.start < x.1.start + x.1.len * max 1 (planOf v e.1)))
      || e.2.any fun g => decide (g.start % max 1 (planOf v e.1) ≠ 0)
          || decide (v.cycle < g.start + g.len * max 1 (planOf v e.1))) then some 165
  else if v.gates.any (fun e => (e.2.any fun g => g.kind == 0) && decide (v.cycle % max 1 (planOf v e.1) ≠ 0)) then some 166
  else if v.gates.any (fun e => e.2.any fun g => g.kind == 0 && (decide (g.queue / 8 ≠ e.1 % 16)
      || !(storeGet (fun _ => StreamDesc.off) v.streams (128 * cellarOf e.1 + g.queue)).sched))
    || v.streams.any (fun e => e.2.sched && decide ((owned e.1).sum < e.2.cells)) then some 167
  else if v.spine.any (fun e => e.2.any fun x => decide (x.2 < 128)
      && (storeGet (fun _ => StreamDesc.off) v.streams (128 * (e.1 % 4) + x.2)).sched
      && decide ((storeGet (fun _ => StreamDesc.off) v.streams (128 * (e.1 % 4) + x.2)).ing / 16 ≠ e.1 / 4)) then some 168
  else if v.streams.any (fun e => e.2.sched && decide (e.2.ing / 16 ≠ e.1 / 128)
      && !((path (e.2.ing / 16) (e.1 / 128)).any fun x => decide (128 * (e.1 / 128) + x.2 = e.1))) then some 169
  else if v.reserved || v.gates.any (fun e => !s.portEn e.1
        || e.2.any fun g => decide (v.cycle ≤ g.start ∨ 2 < g.kind ∨ g.len = 0 ∨ (g.kind ≠ 0 ∧ g.queue ≠ 0)))
    || v.plan.any (fun e => !([0, 1, 2, 4, 8, 16, 32].contains e.2) || (e.2 != 0 && !s.portEn e.1))
    || v.spine.any (fun e => e.2.any fun x => decide (2 * v.cycle ≤ x.1 ∨ 127 < x.2))
    || v.spill.any (fun e => decide (v.cycle ≤ e.start ∨ 3 < e.cellar ∨ 127 < e.queue ∨ 1 < e.dir ∨ e.cells = 0 ∨ 8 < e.cells))
    || v.dma.any (fun e => e.2.any fun x => decide (v.cycle ≤ x.start ∨ 1 < x.eng ∨ x.len = 0 ∨ 16 < x.len)) then some 207
  else if v.gates.any (fun e => planOf v e.1 == 0 && e.2.any fun g => g.kind == 0)
    || v.plan.any (fun e => e.2 != 0 && !((gate e.1).any fun g => g.kind == 0)) then some 208
  else if v.streams.any (fun e => e.2.sched && (decide (v.cycle ≤ e.2.offset ∨ e.2.cells = 0) || !s.portEn e.2.ing
      || decide (e.2.pmax = 0 ∨ 31 < e.2.pmax))) then some 209
  else if v.spill.any (fun e => !s.flag pgSPL SPL_CTL.EN || !s.flag (pgBUF e.cellar) BUF_QSPILL.EN e.queue
      || decide (2968 < spillWindow v e.dir e.start)) then some 210
  else if v.dma.any (fun e => s.dmaBad v e.1 e.2) then some 211
  else none

/-! ## The swap (R163, R187) -/

/-- Registers that take the active Vintage's values in every Cellar (R187, Tables 4.8 to 4.11, 4.17, 4.20, 4.21). -/
def swapRegs (s : State) (v : Vintage) (tick : Nat) : State :=
  s.each (List.range 4) fun t c =>
    let pg := pgSCH c
    let t1 := (((t.setFlag pg SCH_STS.ACTIVE true).setF pg SCH_VINTAGE.NUMBER v.number).setF pg SCH_CYCLE.LEN v.cycle).setF pg
      SCH_EPOCH.E tick
    let t2 := t1.each (List.range 16) fun u p => u.setF pg SCH_PORTCFG.FPER_PLAN (planOf v (16 * c + p)) p
    t2.each (List.range 128) fun u q =>
      let d := storeGet (fun _ => StreamDesc.off) v.streams (128 * c + q)
      let u1 := ((u.setFlag pg SCH_STRM_A.SCHED d.sched q).setF pg SCH_STRM_A.ING_PORT d.ing q).setF pg SCH_STRM_A.OFFSET d.offset q
      (u1.setF pg SCH_STRM_B.CELLS d.cells q).setF pg SCH_STRM_B.PMAX d.pmax q

/-- First step of a slip: CONTRACT_SLIP and its capture (R155). -/
def slipCapture (s : State) (p q t : Nat) (swap : Bool) : State :=
  let pg := pgSCH (cellarOf p)
  let s1 := s.fire pg 0
  if s.flag pg SCH_SLIP_INFO.VALID then s1
  else
    let s2 := (s1.setF pg SCH_SLIP_T.TIME t).setFlag pg SCH_SLIP_INFO.VALID true
    ((s2.setFlag pg SCH_SLIP_INFO.SWAP swap).setF pg SCH_SLIP_INFO.PORT (localPort p)).setF pg SCH_SLIP_INFO.QUEUE (q % 128)

/-- A stolen period of a port (R155). -/
def steal (s : State) (p q t : Nat) (swap : Bool) : State :=
  let was := s.slip p
  let s1 := (s.setSlip p (was + 1)).addF (pgSCH (cellarOf p)) SCH_PORTSTS.STOLEN 1 (localPort p)
  s1.onlyIf (was == 0) fun t' => t'.slipCapture p q t swap

/-- A packet that is still leaving takes periods of the new gate list, each of which counts as stolen as it comes (R163); a cell still on the wire takes
the first. A port without a SCHED entry does not slip (R159). -/
def swapSteal (s : State) (p : Nat) : State :=
  let x := s.port p
  let listed := s.fperPlan p != 0 && !s.beOnly p
  let s1 := s.modPort p fun y => { y with swapSteal := listed && y.sending.isSome }
  if !listed then s1
  else
    match x.wire with
    | none => s1
    | some q => s1.onlyIf (decide (s.fabric < x.nextPer)) fun t => t.steal p q s.fabric true

/-- Every timeline changes to a Vintage, whose epoch is its swap tick (R163, R187). -/
def swapTo (s : State) (v : Vintage) (tick : Nat) : State :=
  let wasBe := (List.range 512).filter fun q => s.beServed q
  let inCon := s.packets.filter fun k => k.place == .egress && inContract k.mark && decide (k.left = 0)
    && !((s.port (portOfQueue k.queue)).sending.any fun x => x.1 == k.id)
  let s1 := s.each inCon fun t k => t.markOut k.queue k .late
  let s2 := { s1 with sched := { s1.sched with active := some v, epoch := tick, accWin := [] }, packets := s1.packets.map fun (x : Packet) => { x with skip := 0 } }
  let s3 := s2.swapRegs v tick
  let s4 := s3.each (List.range 64) fun t p =>
    ((t.putSlip p 0).portMode p false).swapSteal p
  s4.each ((List.range 512).filter fun q => !wasBe.contains q && s4.beServed q) fun t q => t.newlyActive q

/-! ## Slots -/

/-- State of slot `i` (Table 5.1). -/
def slotState (s : State) (i : Nat) : Nat := s.getP pgDEVSCH SCH_SLOTSTS.STATE 4 i
/-- Set a slot's state. -/
def setSlot (s : State) (i st : Nat) : State := s.setP pgDEVSCH SCH_SLOTSTS.STATE 4 i st
/-- Content of a slot. -/
def slotImg (s : State) (i : Nat) : Option Vintage := storeGet (fun _ => none) s.sched.slots i
/-- The slot that is ACTIVE. -/
def activeSlot (s : State) : Option Nat := (List.range 8).find? fun i => s.slotState i == 5
/-- The home slot (R172). -/
def homeSlot (s : State) : Option Nat :=
  if s.flag pgDEVSCH SCH_HOME.VALID then some (s.getF pgDEVSCH SCH_HOME.SLOT) else none

/-! ## Selection (R194 to R203) -/

/-- The Vintage fits: plans and role (R195). -/
def fits (s : State) (v : Vintage) : Bool :=
  let role := s.getF pgMIR MIR_STS.ROLE
  ((List.range 64).all fun p => planOf v p == 0 || planOf v p == s.fper p)
    && (v.role == 0 || (v.role == 1 && (role == 0 || role == 2)) || (v.role == 2 && role == 3))

/-- Candidates after events of the given classes, as (rank, slot) (R196). -/
def candidates (s : State) (cls : List Nat) : List (Nat × Nat) :=
  match s.homeSlot with
  | none => []
  | some h =>
    let num := (s.slotImg h).map (·.number)
    (List.range 8).filterMap fun i =>
      match s.slotImg i with
      | none => none
      | some v =>
        if i = h then (if s.slotState h = 5 then none else some (0, i))
        else if s.slotState i = 3 ∧ some v.home = num ∧ (cls.any fun k => bitAt v.triggers k) = true
            ∧ ((List.range 4).all fun c => !givesTo v c || s.cellarRun c) = true then some (v.rank, i)
        else none

/-- Candidate of lowest rank, ties to the lower slot (R198). -/
def bestOf : List (Nat × Nat) → Option (Nat × Nat)
  | [] => none
  | x :: r => match bestOf r with
    | none => some x
    | some y => if y.1 < x.1 then some y else some x

/-- Lowest class and, within it, lowest port of a list of events (R199). -/
def firstEvent : List (Nat × Nat) → Nat × Nat
  | [] => (15, 63)
  | x :: r => let y := firstEvent r; if x.1 < y.1 ∨ (x.1 = y.1 ∧ x.2 ≤ y.2) then x else y

/-- Capture in SCH_EVT while it is free (R199). -/
def evtCapture (s : State) (evs : List (Nat × Nat)) (outcome slot : Nat) : State :=
  if s.flag pgDEVSCH SCH_EVT.VALID then s
  else
    let e := firstEvent evs
    let s1 := (s.setFlag pgDEVSCH SCH_EVT.VALID true).setF pgDEVSCH SCH_EVT.CLASS e.1
    ((s1.setF pgDEVSCH SCH_EVT.PORT e.2).setF pgDEVSCH SCH_EVT.OUTCOME outcome).setF pgDEVSCH SCH_EVT.SLOT slot

/-- FB_LEAD in ticks. -/
def fbLead (s : State) : Nat := s.getF pgDEVSCH SCH_FBCTL.LEAD * 10000

/-- The end with the lower Fabric Device ID sends its swap tick on the FFL ports whose events it serves (R204). -/
def sendSwapTick (s : State) (evs : List (Nat × Nat)) (tick vintage : Nat) : State :=
  s.each (evs.filter fun e => s.isFfl e.2 && s.flag (pgFFL e.2) FFL_PEER.VALID
      && decide (s.getF pgFWD FWD_CTL.FDID < s.getF (pgFFL e.2) FFL_PEER.FDID)) fun t e =>
    t.ctrlAdd e.2 (.swapTick tick vintage e.1 e.2) 3

/-- A selection for the events given, at the present tick (R198 to R200). -/
def select (s : State) (evs : List (Nat × Nat)) : State :=
  match s.sched.active with
  | none => s
  | some act =>
    let cur := s.activeSlot.getD 0
    let cls := evs.map (·.1)
    let replan := fun (t : State) =>
      t.each ([8, 9].filter fun b => cls.any fun k => replanBit k == b) fun u b => u.schFire b
    if s.fits act then s.evtCapture evs 0 cur
    else if !s.flag pgDEVSCH SCH_FBCTL.FB_EN then (replan s).evtCapture evs 3 cur
    else
      match bestOf ((s.candidates cls).filter fun x => (s.slotImg x.2).any s.fits) with
      | none => (replan s).evtCapture evs 3 cur
      | some (rank, i) =>
        let tick := s.fabric + s.fbLead
        let home := rank == 0 && s.homeSlot == some i
        let s1 := (s.setF pgDEVSCH SCH_FB_T.TIME tick).schFire 7
        let s2 := { s1 with sched := { s1.sched with fb := some { slot := i, tick := tick, evs := evs, again := [] } } }
        let s3 := s2.evtCapture evs (if home then 2 else 1) i
        s3.sendSwapTick evs tick (((s3.slotImg i).map (·.number)).getD 0)

/-- Capacity events of the present tick (R194): they wait for its end, where one selection serves them all (R199, log 45). -/
def capacity (s : State) (evs : List (Nat × Nat)) : State :=
  if s.sched.active.isNone then s else { s with sched := { s.sched with events := s.sched.events ++ evs } }

/-- The end of a tick that had capacity events (R198 to R203): with FB_EN 0 no selection runs, and none while an ARM is pending; a pending fallback
swap more than 20,000 ticks away is cancelled, and a nearer one takes the events to its own tick: those of several ticks make one selection there, under
the lowest class (DESIGN CHOICE, log 79). With FB_EN cleared while a swap is pending, an event leaves that swap as it is (DESIGN CHOICE, log 79). No
selection runs once the schedule executor has stopped (R469). -/
def selectEnd (s : State) : State :=
  match s.sched.events with
  | [] => s
  | e :: r =>
    let evs := e :: r
    let s1 := { s with sched := { s.sched with events := [] } }
    if s.devFatal then s1
    else if !s.flag pgDEVSCH SCH_FBCTL.FB_EN then s1.select evs
    else if s.sched.arm.isSome then s1
    else
      match s.sched.fb with
      | none => s1.select evs
      | some f =>
        if s.fabric + 20000 < f.tick then
          let s2 := (s1.setF pgDEVSCH SCH_FB_T.TIME 0)
          ({ s2 with sched := { s2.sched with fb := none } }).select evs
        else { s1 with sched := { s1.sched with fb := some { f with again := f.again ++ evs } } }

end State
end Sys2Proof.Machine
end

