-- ==== Sys2Proof/Machine/Book.lean ====
section
/-! DEFINITION. Making Cellar Book records (R553 to R556) and the boot flash (R186, R557). -/

namespace Sys2Proof.Machine

/-- LEN of a record type (Table 16.4). -/
def recLen (type : Nat) : Nat :=
  if type = 1 then 176 else if type = 6 then 136 else if type = 8 then 80 else if type = 5 then 40
  else if type = 0xA then 16 else if type = 0xB then 24 else if type = 0xF then 168 else 72

/-- TYPE and BSEQ of a record (Table 16.3), and the key that orders the records of one tick: type, then port (R556). -/
def recType (r : List Byte) : Nat := leNat (r.take 2)
def recSeq (r : List Byte) : Nat := leNat ((r.drop 4).take 4)
def recKey (r : List Byte) : Nat := 256 * recType r + if recType r = 6 ∨ recType r = 7 then leNat ((r.drop 16).take 1) else 0

/-- A record among those of its tick: after those of the same or a lower key (R556). -/
def recInsert (r : List Byte) : List (List Byte) → List (List Byte)
  | [] => [r]
  | x :: l => if recKey r < recKey x then r :: x :: l else x :: recInsert r l

/-- Records with BSEQ counted from `n`. -/
def renumber : Nat → List (List Byte) → List (List Byte)
  | _, [] => []
  | n, r :: l => (r.take 4 ++ leBytes 4 n ++ r.drop 8) :: renumber (n + 1) l

/-- Chain value after records, from the one before them (R555). -/
def chainFrom (c : Nat) (l : List (List Byte)) : Nat := l.foldl (fun a x => sha384 (leBytes 48 a ++ x)) c

namespace State

/-- Byte of the boot flash; an erased byte reads 0xFF. -/
def flashByte (s : State) (a : Nat) : Byte := storeGet (fun _ => (0xFF : Byte)) s.flash a

/-- Read the boot flash. -/
def flashRead (s : State) (a n : Nat) : List Byte := (List.range n).map fun i => s.flashByte (a + i)

/-- Program bytes of the boot flash. -/
def flashWrite (s : State) (a : Nat) : List Byte → State
  | [] => s
  | b :: r => ({ s with flash := storeSet (fun _ => (0xFF : Byte)) s.flash a b } : State).flashWrite (a + 1) r

/-- Make a Book record with body `body` (R553 to R556); where 4,096 records wait for flash it is not made. Among the records of its tick it
takes its place by type and port; a CHECKPOINT closes those before it. -/
def bookAdd (s : State) (type : Nat) (body : List Byte) : State :=
  if 4096 ≤ s.trust.held.length then
    ({ s with trust := { s.trust with lost := s.trust.lost + 1 } } : State).fire pgTRU 2
  else
    let n := s.getF pgTRU TRU_BSEQ.NEXT
    let r := leBytes 2 type ++ leBytes 2 (recLen type) ++ leBytes 4 n ++ leBytes 8 s.fabric ++ padTo (recLen type - 16) body
    let ck := decide (type = 0xF)
    let fresh := if s.trust.freshAt = s.ticks then min s.trust.fresh s.trust.held.length else 0
    let base := if fresh = 0 then s.trust.chain else s.trust.freshChain
    let old := s.trust.held.length - fresh
    let group := renumber (n - fresh) (recInsert r (s.trust.held.drop old))
    let t := { s.trust with
      chain := chainFrom base group
      held := s.trust.held.take old ++ group
      freshAt := s.ticks
      fresh := if ck then 0 else fresh + 1
      freshChain := base
      uncovered := if ck then 0 else s.trust.uncovered + 1
      since := if ck then none else match s.trust.since with
        | some x => some x
        | none => some s.ticks }
    ({ s with trust := t } : State).setF pgTRU TRU_BSEQ.NEXT (n + 1)

/-- SWAP record of a swap (R183, Table 16.4): cause 0 ARM, 1 fallback, 2 home. -/
def bookSwap (s : State) (v prev tick cause cls : Nat) : State :=
  s.bookAdd 5 (leBytes 4 v ++ leBytes 4 prev ++ leBytes 8 tick ++ leBytes 1 cause ++ leBytes 1 cls)

/-- Owner key digest in force (R547). -/
def ownerKey (s : State) : Option Nat :=
  ([3, 2, 1, 0].find? fun i => (s.trust.owner.any fun e => e.1 == i) && !bitAt s.trust.ownerRevoke i).map fun i =>
    storeGet (fun _ => 0) s.trust.owner i

end State
end Sys2Proof.Machine
end

