-- ==== Sys2Proof/Machine/AgeLog.lean ====
section
/-! DEFINITION. The ageing state block and the ageing log in boot flash (R587 to R589). -/

namespace Sys2Proof.Machine

/-- One bit of the CRC-32 of IEEE 802.3, reflected. -/
def crcBit (c : Nat) : Nat := if c % 2 = 1 then (c / 2) ^^^ 0xEDB88320 else c / 2

/-- CRC-32 state after one byte. -/
def crcByte (c : Nat) (b : Byte) : Nat := (List.range 8).foldl (fun x _ => crcBit x) (c ^^^ b.toNat)

/-- CRC-32 of IEEE 802.3 over bytes. -/
def crc32 (l : List Byte) : Nat := l.foldl crcByte 0xFFFFFFFF ^^^ 0xFFFFFFFF

/-- 64 B record closed by its CRC. -/
def withCrc (body : List Byte) : List Byte := padTo 60 body ++ leBytes 4 (crc32 (padTo 60 body))

namespace State

/-- Erase bytes of the boot flash. -/
def flashErase (s : State) (a n : Nat) : State :=
  { s with flash := s.flash.filter fun e => !(decide (a ≤ e.1) && decide (e.1 < a + n)) }

/-- TARGET of the supply (Table 17.6). -/
def avsTarget (s : State) : Nat := s.getF pgAGE AGE_AVS.TARGET

/-- Rewrite the ageing state block in the half that is not the latest (R587). -/
def ageBlock (s : State) : State :=
  let n := s.age.seq + 1
  let a := 0x37E0000 + 0x8000 * (n % 2)
  let body := leBytes 4 0x53454741 ++ leBytes 4 n ++ leBytes 2 s.avsTarget ++ leBytes 2 0 ++ leBytes 4 s.age.hours
    ++ leBytes 20 (s.age.retired % 2 ^ 160) ++ leBytes 1 (s.age.retired / 2 ^ 160)
  { (s.flashErase a 0x8000).flashWrite a (withCrc body) with age := { s.age with seq := n } }

/-- Latest slack and temperature of a monitor (Table 17.10); `slack` is the least of the pass where there is one. -/
def monSlack (s : State) (m : Nat) : Nat := storeGet (fun _ => s.getF pgAGE AGE_MON.SLACK m) s.age.slack m

/-- Make an ageing log record (R589); a sector of the ring is erased when its first record is due. -/
def ageLog (s : State) (kind port lane mr before after : Nat) : State :=
  let i := s.age.logPos % 2048
  let a := 0x37C0000 + 64 * i
  let s1 := if i % 1024 = 0 then s.flashErase a 0x10000 else s
  let body := leBytes 8 s.fabric ++ leBytes 1 kind ++ leBytes 1 port ++ leBytes 1 lane ++ leBytes 1 mr ++ leBytes 2 before
    ++ leBytes 2 after ++ (List.range 8).flatMap (fun m => leBytes 2 (s.monSlack m))
    ++ (List.range 8).flatMap (fun m => leBytes 1 (s.getF pgAGE AGE_MON.TEMP m)) ++ leBytes 4 (s.getF pgTRU TRU_BOOTNO.BOOT_NO)
  { s1.flashWrite a (withCrc body) with age := { s1.age with logPos := s.age.logPos + 1 } }

/-- A lane retirement enters the state block, and the log when no planner action made it (R587, R589). -/
def ageRetired (s : State) (lane : Nat) (planner : Bool) (port : Nat) : State :=
  let s1 := ({ s with age := { s.age with retired := bitSet s.age.retired lane } } : State).ageBlock
  if planner then s1 else s1.ageLog 9 port lane 0 0 0

end State
end Sys2Proof.Machine
end

