-- ==== Sys2Proof/Machine/Image.lean ====
section
/-! DEFINITION. Schedule images and the Vintage commands of chapter 5: the layout of an image (R174 to R179, R653), the load
checks (R180 to R182), LOAD, HOLD, RELEASE, ARM and DISARM (R185 to R191), and the swaps (R189, R202, R203). -/

namespace Sys2Proof.Machine

/-- Little-endian number of `n` bytes at an offset of an image (R4). -/
def imgLe (b : List Byte) (o n : Nat) : Nat := leNat ((b.drop o).take n)

/-- Directory entries as (TYPE, INSTANCE, OFFSET, LENGTH, COUNT) (Table 5.3). -/
def imgDir (b : List Byte) : List (Nat × Nat × Nat × Nat × Nat) :=
  (List.range (imgLe b 0x1C 2)).map fun i =>
    let o := 0x80 + 16 * i
    (imgLe b o 2, imgLe b (o + 2) 2, imgLe b (o + 4) 4, imgLe b (o + 8) 4, imgLe b (o + 12) 4)

/-- Entry size of a section type, and the least and greatest COUNT; absent for another type (Table 5.4). -/
def sectForm (type : Nat) : Option (Nat × Nat × Nat) :=
  if type = 1 then some (4, 64, 64) else if type = 2 then some (16, 128, 128) else if type = 3 then some (8, 1, 4096)
  else if type = 4 then some (4, 1, 8192) else if type = 5 then some (8, 1, 4096) else if type = 6 then some (8, 1, 4096)
  else if type = 7 then some (4, 1, 1048576) else none

/-- INSTANCE is one that Table 5.4 gives the type. -/
def sectInst (type inst : Nat) : Bool :=
  if type = 2 ∨ type = 6 then decide (inst < 4)
  else if type = 3 then decide (inst < 64)
  else if type = 4 then decide (inst < 16 ∧ inst / 4 ≠ inst % 4)
  else inst == 0

/-- Entries of a section as their offsets in the image; none where the directory does not list it (R175). -/
def sectEntries (b : List Byte) (type inst : Nat) : List Nat :=
  match (imgDir b).find? fun d => d.1 == type && d.2.1 == inst with
  | none => []
  | some (t, _, off, _, cnt) => (List.range cnt).map fun i => off + i * ((sectForm t).getD (1, 0, 0)).1

/-- A byte or bit that Tables 5.5, 5.6 and 5.8 give as 0 is set in a section (R207). -/
def imgReserved (b : List Byte) : Bool :=
  ((sectEntries b 1 0).any fun o => imgLe b (o + 1) 3 != 0)
    || ((List.range 4).any fun c => (sectEntries b 2 c).any fun o => decide (2 ≤ imgLe b o 1) || imgLe b (o + 3) 1 != 0)
    || ((List.range 16).any fun i => (sectEntries b 4 i).any fun o => decide (2 ^ 28 ≤ imgLe b o 4))

/-- The Vintage that an image holds (Tables 5.2 to 5.9). -/
def parseImage (b : List Byte) : Vintage :=
  let keep := fun (l : List (Nat × List (Nat × Nat))) => l.filter fun e => !e.2.isEmpty
  { number := imgLe b 0x08 4, home := imgLe b 0x0C 4, kind := imgLe b 0x1E 1, role := imgLe b 0x1F 1,
    triggers := imgLe b 0x20 2, rank := imgLe b 0x22 1, target := imgLe b 0x24 1, cycle := imgLe b 0x18 4,
    reserved := imgReserved b,
    digest := sha384 (b.take (0x80 + imgLe b 0x14 4)),
    plan := ((sectEntries b 1 0).zipIdx.map fun e => (e.2, imgLe b e.1 1)).filter fun e => e.2 != 0,
    streams := ((List.range 4).flatMap fun c => (sectEntries b 2 c).zipIdx.map fun e =>
      (128 * c + e.2, ({ sched := bitAt (imgLe b e.1 1) 0, ing := imgLe b (e.1 + 1) 1, pmax := imgLe b (e.1 + 2) 1,
                         offset := imgLe b (e.1 + 4) 4, cells := imgLe b (e.1 + 8) 4 } : StreamDesc))).filter fun e => e.2 != StreamDesc.off,
    gates := ((List.range 64).map fun p => (p, (sectEntries b 3 p).map fun o =>
      ({ start := imgLe b o 4, len := imgLe b (o + 4) 2, kind := imgLe b (o + 6) 1, queue := imgLe b (o + 7) 1 } :
        GateEntry))).filter fun e => !e.2.isEmpty,
    spine := keep ((List.range 16).map fun i => (i, (sectEntries b 4 i).map fun o =>
      (imgLe b o 4 % 2 ^ 21, imgLe b o 4 / 2 ^ 21 % 128))),
    spill := (sectEntries b 5 0).map fun o =>
      { start := imgLe b o 4 % 2 ^ 21, cellar := imgLe b (o + 4) 1, queue := imgLe b (o + 5) 1, dir := imgLe b (o + 6) 1,
        cells := imgLe b (o + 7) 1 },
    dma := ((List.range 4).map fun c => (c, (sectEntries b 6 c).map fun o =>
      ({ start := imgLe b o 4 % 2 ^ 21, chan := imgLe b (o + 4) 1, eng := imgLe b (o + 5) 1, len := imgLe b (o + 6) 2 } :
        DmaSlot))).filter fun e => !e.2.isEmpty }

/-- The image is signed: TOTAL_LEN leaves room for the signature block (R179). -/
def imgSigned (b : List Byte) : Bool := imgLe b 0x10 4 == 0x80 + imgLe b 0x14 4 + 208

/-- Directory check 5 of Table 5.12. -/
def dirOk (b : List Byte) : Bool :=
  let dir := imgDir b
  let body := imgLe b 0x14 4
  decide (16 * imgLe b 0x1C 2 ≤ body) && (dir.all fun d =>
    match sectForm d.1 with
    | none => false
    | some (size, lo, hi) =>
      let (_, inst, off, len, cnt) := d
      sectInst d.1 inst && decide (off % 8 = 0 ∧ lo ≤ cnt ∧ cnt ≤ hi ∧ len = cnt * size ∧ 0x80 ≤ off ∧ off + len ≤ 0x80 + body))
    && ((dir.map fun d => (d.1, d.2.1)).eraseDups.length == dir.length)

/-- Header check 4 of Table 5.12. -/
def fieldsOk (b : List Byte) (fdid : Nat) : Bool :=
  let v := imgLe b 0x08 4
  let home := imgLe b 0x0C 4
  let kind := imgLe b 0x1E 1
  let rank := imgLe b 0x22 1
  let n := imgLe b 0x18 4
  let sect := imgLe b 0x1C 2
  let tgt := imgLe b 0x24 1
  decide (v ≠ 0 ∧ kind ≤ 1 ∧ imgLe b 0x1F 1 ≤ 2)
    && (if kind = 0 then decide (home = v ∧ imgLe b 0x20 2 = 0 ∧ rank = 0) else decide (home ≠ 0 ∧ home ≠ v ∧ 1 ≤ rank ∧ rank ≤ 15))
    && decide (1 ≤ n ∧ n ≤ 0x100000 ∧ 1 ≤ sect ∧ sect ≤ 128) && (tgt == 0xFF || tgt == fdid)
    && decide (imgLe b 0x23 1 = 0 ∧ imgLe b 0x25 3 = 0 ∧ imgLe b 0x60 32 = 0)

namespace State

/-- First check of Table 5.12 that an image fails; 0 when it passes all. -/
def loadCheck (s : State) (l : LoadOp) (b : List Byte) : Nat :=
  let body := imgLe b 0x14 4
  let total := imgLe b 0x10 4
  let sb := 0x80 + body
  if l.failed then 0x09
  else if imgLe b 0 4 ≠ 0x4C474D49 ∨ imgLe b 4 2 ≠ 1 ∨ imgLe b 6 2 ≠ 0x80 then 0x01
  else if total ≠ l.len ∨ 0x2000000 < total ∨ (total ≠ sb ∧ total ≠ sb + 208) then 0x02
  else if !fieldsOk b (s.getF pgFWD FWD_CTL.FDID) then 0x03
  else if !dirOk b then 0x04
  else if sha384 ((b.drop 0x80).take body) ≠ imgLe b 0x30 48 then 0x05
  else if s.flag pgDEVSCH SCH_POLICY.SIG_REQ && !imgSigned b then 0x06
  else if imgSigned b && !(imgLe b sb 2 == 1 && s.ownerKey == some (sha384 ((b.drop (sb + 16)).take 96))
      && ecdsaVerify (sha384 (b.take sb)) ((b.drop (sb + 16)).take 96) ((b.drop (sb + 112)).take 96)) then 0x07
  else if (List.range 8).any fun i => (s.slotImg i).any fun v => v.number == imgLe b 8 4 then 0x08
  else 0

/-- A command of SCH_IMG_CMD has completed: DONE, CMD, SLOT and RESULT; a refusal fires SCH_IMG_REJECT (R185). -/
def imgRes (s : State) (cmd slot result : Nat) : State :=
  let s1 := ((s.setFlag pgDEVSCH SCH_IMG_RES.DONE true).setF pgDEVSCH SCH_IMG_RES.CMD cmd).setF pgDEVSCH SCH_IMG_RES.SLOT slot
  (s1.setF pgDEVSCH SCH_IMG_RES.RESULT result).onlyIf (result != 0) fun t => t.schFire 5

/-- Write of SCH_IMG_CMD through the page of the lowest Cellar in RUN (R184); one made while BUSY is 1 is dropped. -/
def imgCmd (s : State) (who : Requester) (f : State → State) : State :=
  let c := ((List.range 4).find? fun c => s.cellarRun c).getD 0
  s.withAccess who (pgSCH c * 4096 + 0x810) 4 true fun t =>
    if t.flag pgDEVSCH SCH_IMG_RES.BUSY then t.schFire 5 else f t

/-- Where slot `i` lies in HBM (R171). -/
def slotBase (i : Nat) : Nat := 0xBF0000000 + 0x2000000 * i

/-- Set the Vintage that a slot holds. -/
def setImg (s : State) (i : Nat) (x : Option Vintage) : State :=
  let s1 := { s with sched := { s.sched with slots := storeSet (fun _ => none) s.sched.slots i x } }
  s1.setF pgDEVSCH SCH_SLOTVIN.VINTAGE ((x.map (·.number)).getD 0) i

/-- The slot becomes EMPTY. -/
def emptySlot (s : State) (i : Nat) : State := (s.setImg i none).setSlot i 0

/-- The request belongs to the LOAD. -/
def ofLoad (o : Owner) : Bool :=
  match o with
  | .load _ => true
  | .requester | .npw _ | .split _ | .prefetch _ | .fabric _ | .dma _ _ _ | .dmaList _ _ _ => false

/-- Reads of host memory that a LOAD issues as the partition's function, at most Max_Read_Request_Size each (R186). -/
def loadReads (s : State) (k up src len : Nat) : State :=
  let n := max 1 (s.part k).maxRead
  s.each (List.range (ceilDiv len n)) fun t i =>
    let tlp : Tlp := { kind := .mrd, rid := (t.part k).pfRid, tag := i, pasid := none, tc := 0, addr := src + i * n,
                       len := min n (len - i * n), mask := [], data := [], hdr := 16, ro := false, ido := false,
                       poisoned := false, op := .fetchAdd, status := .sc }
    t.addPacket { t.newPacket tlp (64 + cellarOf up) (cellarOf up) (.block k) k (.load (i * n)) with route := .port up }

/-- LOAD (R180, R186): the registers are latched; check 1 already fails where the function cannot read. -/
def schLoad (s : State) (slot : Nat) : State :=
  if s.slotState slot ≠ 0 then s.imgRes 1 slot 0x10
  else
    let kind := s.getF pgDEVSCH SCH_IMG_SRCCTL.KIND
    let k := s.getF pgDEVSCH SCH_IMG_SRCCTL.PART
    let src := s.getF pgDEVSCH SCH_IMG_SRC.ADDR
    let len := s.getF pgDEVSCH SCH_IMG_LEN.BYTES
    let bad := if kind = 0 then !s.partOn k || !(s.part k).busMaster
      else if kind = 1 then decide (0x4000000 < src + len) else true
    let s1 := (s.setSlot slot 1).setFlag pgDEVSCH SCH_IMG_RES.BUSY true
    let s2 := { s1 with sched := { s1.sched with
      load := some { slot := slot, src := src, kind := kind, part := k, len := len, failed := bad, moved := s1.ticks } } }
    if bad || kind != 0 then s2 else s2.loadReads k ((s2.upPort k).getD 0) src len

/-- Reads of the LOAD that have not completed. -/
def loadOutstanding (s : State) : Bool :=
  (s.packets.any fun p => ofLoad p.owner) || (s.trk.any fun e => ofLoad e.pkt.owner)

/-- The bytes that a LOAD fetched: of the boot flash, or what its reads of host memory brought (R186). -/
def loadBytes (s : State) (l : LoadOp) : List Byte := if l.kind = 1 then s.flashRead l.src l.len else l.got.flatMap (·.2)

/-- A LOAD ends: the bytes lie in the slot's part of HBM (R171), the checks run, and the slot becomes READY with its SCHEDULE record or EMPTY
(R180, R183). -/
def loadDone (s : State) (l : LoadOp) : State :=
  let b := s.loadBytes l
  let code := s.loadCheck l b
  let s0 := s.hbmPut (slotBase l.slot) (b.take 0x2000000)
  let s1 := ({ s0 with sched := { s0.sched with load := none } } : State).setFlag pgDEVSCH SCH_IMG_RES.BUSY false
  if code ≠ 0 then (s1.emptySlot l.slot).imgRes 1 l.slot code
  else
    let v := parseImage b
    let s2 := (s1.setImg l.slot (some v)).setSlot l.slot 2
    let s3 := s2.bookAdd 4 (leBytes 4 v.number ++ leBytes 1 l.slot ++ leBytes 1 v.kind ++ leBytes 1 (imgSigned b).toNat
      ++ leBytes 1 0 ++ leBytes 48 v.digest)
    s3.imgRes 1 l.slot 0

/-- HOLD (Table 5.13). -/
def schHold (s : State) (slot : Nat) : State :=
  match s.slotImg slot with
  | none => s.imgRes 2 slot 0x10
  | some v =>
    if s.slotState slot ≠ 2 then s.imgRes 2 slot 0x10
    else if v.kind ≠ 1 then s.imgRes 2 slot 0x12
    else if 4 ≤ ((List.range 8).filter fun i => s.slotState i == 3).length then s.imgRes 2 slot 0x11
    else if (List.range 4).any fun c => givesTo v c && !s.cellarRun c then s.imgRes 2 slot 0x16
    else (s.setSlot slot 3).imgRes 2 slot 0

/-- RELEASE (Table 5.13). -/
def schRelease (s : State) (slot : Nat) : State :=
  let st := s.slotState slot
  if st ≠ 2 ∧ st ≠ 3 ∧ st ≠ 6 then s.imgRes 3 slot 0x10
  else if s.sched.fb.any fun f => f.slot == slot then s.imgRes 3 slot 0x14
  else
    let s1 := s.onlyIf (st == 6) fun t => t.setFlag pgDEVSCH SCH_HOME.VALID false
    (s1.emptySlot slot).imgRes 3 slot 0

/-- First condition of R188 that an ARM fails; 0 when it meets all. -/
def armCheck (s : State) (slot : Nat) : Nat :=
  let t := s.getF pgDEVSCH SCH_ARM_T.TIME
  match s.slotImg slot with
  | none => 0x10
  | some v =>
    if s.slotState slot ≠ 2 then 0x10
    else if v.kind ≠ 0 then 0x12
    else if s.sched.arm.isSome then 0x13
    else if s.sched.fb.isSome then 0x14
    else if t < s.fabric + 100000 ∨ s.fabric + 60000000000 < t then 0x15
    else if (List.range 4).any fun c => givesTo v c && !s.cellarRun c then 0x16
    else if s.flag pgDEVSCH SCH_ARM_CTL.PAIR && (s.getF pgMIR MIR_STS.ROLE == 0 || s.mirPorts.isEmpty) then 0x17
    else 0

/-- ARM (R188): latched, and with PAIR reported to the partner (R190). -/
def schArm (s : State) (slot : Nat) : State :=
  let code := s.armCheck slot
  if code ≠ 0 then s.imgRes 4 slot code
  else
    let t := s.getF pgDEVSCH SCH_ARM_T.TIME
    let pair := s.flag pgDEVSCH SCH_ARM_CTL.PAIR
    let s1 := { s with sched := { s.sched with arm := some { slot := slot, tick := t, pair := pair, filled := false, checked := false } } }
    let s2 := (s1.setSlot slot 4).imgRes 4 slot 0
    s2.onlyIf pair fun u => u.mirMsg (.armReport t (((u.slotImg slot).map (·.number)).getD 0)) 3

/-- DISARM (Table 5.13). -/
def schDisarm (s : State) (slot : Nat) : State :=
  match s.sched.arm with
  | none => s.imgRes 5 slot 0x10
  | some a =>
    if a.slot ≠ slot then s.imgRes 5 slot 0x10
    else if a.tick ≤ s.fabric + 20000 then s.imgRes 5 slot 0x18
    else (({ s with sched := { s.sched with arm := none } } : State).setSlot slot 2).imgRes 5 slot 0

/-- An armed swap is abandoned with a result code (R190, R191). -/
def armAbort (s : State) (a : ArmOp) (code : Nat) (atSwap : Bool) : State :=
  let s1 := ({ s with sched := { s.sched with arm := none } } : State).setSlot a.slot 2
  let s2 := (s1.setF pgDEVSCH SCH_IMG_RES.RESULT code).setF pgDEVSCH SCH_IMG_RES.SLOT a.slot
  (s2.onlyIf atSwap fun t => t.setF pgDEVSCH SCH_IMG_RES.CMD 0xF).schFire 6

/-- At tick SCH_ARM_T − 20,000 a report of the partner was held that names the same Vintage and swap tick (R190). -/
def pairAgrees (s : State) (a : ArmOp) : Bool :=
  match s.mir.armReport with
  | none => false
  | some (tick, vintage, t0) => tick == a.tick && some vintage == (s.slotImg a.slot).map (·.number) && decide (t0 + 20000 ≤ a.tick)

/-- Vintage number of the active Vintage; 0 when none is active. -/
def activeNumber (s : State) : Nat := (s.sched.active.map (·.number)).getD 0

/-- Swap of an armed Vintage (R189): slots, Book record, timelines, then the selection of class ARM. -/
def armedSwap (s : State) (a : ArmOp) (v : Vintage) : State :=
  let prev := s.activeNumber
  let s1 := s.each ((List.range 8).filter fun i => s.slotState i == 5 || s.slotState i == 6) fun t i => t.setSlot i 2
  let s2 := ((s1.setSlot a.slot 5).setFlag pgDEVSCH SCH_HOME.VALID true).setF pgDEVSCH SCH_HOME.SLOT a.slot
  let s3 := ({ s2 with sched := { s2.sched with arm := none } } : State).swapTo v a.tick
  (s3.bookSwap v.number prev a.tick 0 0xFF).capacity [(8, 0x3F)]

/-- Swap to a selected fallback or home Vintage (R202), with the events for which R203 has the selection run again in this tick. The
displaced fallback is FALLBACK again also where four others are, which R172 would bound to four: none of the five gives way (DESIGN CHOICE, log 79). -/
def fallbackSwap (s : State) (f : FbOp) (v : Vintage) : State :=
  let prev := s.activeNumber
  let home := s.homeSlot
  let s1 := match s.activeSlot with
    | none => s
    | some i => s.setSlot i (if home = some i then 6 else 3)
  let s2 := (s1.setSlot f.slot 5).setF pgDEVSCH SCH_FB_T.TIME 0
  let s3 := ({ s2 with sched := { s2.sched with fb := none } } : State).swapTo v f.tick
  (s3.bookSwap v.number prev f.tick (if home = some f.slot then 2 else 1) (firstEvent f.evs).1).capacity f.again

end State

/-! ## Commands -/

/-- SCH_LOAD (R180). -/
def execSchLoad (who : Requester) (slot : Nat) (s : State) : Res := (s.imgCmd who fun t => t.schLoad (slot % 8)).done

/-- SCH_LOAD_DONE (R180): every read of the LOAD of the slot has ended. -/
def execSchLoadDone (slot : Nat) (s : State) : Res :=
  match s.sched.load with
  | none => s.done
  | some l => if l.slot ≠ slot ∨ s.loadOutstanding = true then s.done else (s.loadDone l).done

/-- LOAD_COMPLETION_TIMEOUT (R186): a read of the LOAD has reached the function's Completion Timeout since it was sent, or waits to be sent while
nothing of the LOAD has moved for that time (DEDUCED, log 68). The LOAD fails, and its reads that have not been sent go. -/
def execLoadCompletionTimeout (s : State) : Res :=
  match s.sched.load with
  | none => s.done
  | some l =>
    let limit := (s.part l.part).cplTimeout
    let late := s.trk.filter fun e => State.ofLoad e.pkt.owner && decide (e.born + limit ≤ s.ticks)
    let stuck := decide (l.moved + limit ≤ s.ticks)
    let waits := s.packets.filter fun p => State.ofLoad p.owner && !(s.port (State.portOfQueue p.queue)).sending.any fun x => x.1 == p.id
    if late.isEmpty && !(stuck && !waits.isEmpty) then s.done
    else
      let s1 := (s.each late fun t e => t.trkDrop e).each waits fun t p =>
        { t.dropPacket p.id with trk := t.trk.filter (·.pkt.id != p.id) }
      ({ s1 with sched := { s1.sched with load := some { l with failed := true } } } : State).done

/-- SCH_HOLD (R185). -/
def execSchHold (who : Requester) (slot : Nat) (s : State) : Res := (s.imgCmd who fun t => t.schHold (slot % 8)).done

/-- SCH_RELEASE (R185). -/
def execSchRelease (who : Requester) (slot : Nat) (s : State) : Res := (s.imgCmd who fun t => t.schRelease (slot % 8)).done

/-- SCH_ARM (R188). -/
def execSchArm (who : Requester) (slot : Nat) (s : State) : Res := (s.imgCmd who fun t => t.schArm (slot % 8)).done

/-- SHADOW_FILL_DONE (R187): the shadow tables of the armed Vintage are filled. -/
def execShadowFillDone (s : State) : Res :=
  ({ s with sched := { s.sched with arm := s.sched.arm.map fun a => { a with filled := true } } } : State).done

/-- SCH_DISARM (R185). -/
def execSchDisarm (who : Requester) (slot : Nat) (s : State) : Res := (s.imgCmd who fun t => t.schDisarm (slot % 8)).done

/-- SCH_BAD_CMD (R185): a code outside Table 5.13 is refused. -/
def execSchBadCmd (who : Requester) (code slot : Nat) (s : State) : Res :=
  if 1 ≤ code % 16 ∧ code % 16 ≤ 5 then s.done
  else (s.imgCmd who fun t => t.imgRes (code % 16) (slot % 8) 0x1F).done

/-- ARM_PAIR_CHECK (R190): at SCH_ARM_T − 20,000 the partner's report is compared. -/
def execArmPairCheck (s : State) : Res :=
  match s.sched.arm with
  | none => s.done
  | some a =>
    if !a.pair || a.checked || decide (s.fabric + 20000 < a.tick) then s.done
    else if s.pairAgrees a then ({ s with sched := { s.sched with arm := some { a with checked := true } } } : State).done
    else (s.armAbort a 0x20 false).done

/-- ARMED_SWAP (R189, R191): at the swap tick; with PAIR 1 only where the partner's report was found in agreement (R190). An image whose contents R165 to R169 and R207 to R210 leave undefined has no defined
swap. -/
def execArmedSwap (s : State) : Res :=
  match s.sched.arm with
  | none => s.done
  | some a =>
    if s.devFatal || decide (s.fabric < a.tick) then s.done
    else
      match s.slotImg a.slot with
      | none => s.done
      | some v =>
        if a.pair && !a.checked && !s.pairAgrees a then (s.armAbort a 0x20 false).done
        else if (List.range 4).any fun c => givesTo v c && !s.cellarRun c then (s.armAbort a 0x21 true).done
        else
          match s.imageBad v with
          | some r => .fault (.undefinedResult r)
          | none => (s.armedSwap a v).done

/-- FALLBACK_SWAP (R202): at the swap tick of a pending fallback swap. -/
def execFallbackSwap (s : State) : Res :=
  match s.sched.fb with
  | none => s.done
  | some f =>
    if s.devFatal || decide (s.fabric < f.tick) then s.done
    else
      match s.slotImg f.slot with
      | none => s.done
      | some v =>
        match s.imageBad v with
        | some r => .fault (.undefinedResult r)
        | none => (s.fallbackSwap f v).done

end Sys2Proof.Machine
end

