-- ==== Sys2Proof/Machine/Transport.lean ====
section
/-! DEFINITION. The fabric transport (R295 to R305): transmit and receive streams, TACKs, replay, broken streams and the fabric request
table. -/

namespace Sys2Proof.Machine

/-- `a` is before `b` in 32-bit serial arithmetic (R298). -/
def serialLt (a b : Nat) : Bool :=
  let d := (b + 2 ^ 32 - a % 2 ^ 32) % 2 ^ 32
  decide (0 < d ∧ d < 2 ^ 31)

/-- Next 32-bit sequence number. -/
def serialNext (a : Nat) : Nat := (a + 1) % 2 ^ 32

/-- FCLASS of a packet: 0 P, 1 NP, 2 CPL. -/
def fclassOf (p : Packet) : Nat := tlpCls p.tlp

/-- Key of a transmit stream (R296). -/
def txKey (c fdid cls : Nat) : Nat := 64 * c + 4 * fdid + cls

/-- Key of a receive stream (R296). -/
def rxKey (src srcCellar cls : Nat) : Nat := 16 * src + 4 * srcCellar + cls

/-- Bytes that a copy takes in the replay store: fabric header and TLP (R295). -/
def copyBytes (p : Packet) : Nat := 16 + tlpBytes p.tlp

/-- One TACK entry as its 8 B (R300). -/
def tackBytes (cls cellar : Nat) (resync : Bool) (ackd : Nat) : List Byte :=
  leBytes 4 (cls + 4 * cellar + (if resync then 16 else 0)) ++ leBytes 4 ackd

namespace State

/-- A transmit stream. -/
def tx? (s : State) (k : Nat) : TxStream := storeGet (fun _ => TxStream.init) s.tx k
/-- Change a transmit stream. -/
def modTx (s : State) (k : Nat) (f : TxStream → TxStream) : State :=
  { s with tx := storeSet (fun _ => TxStream.init) s.tx k (f (s.tx? k)) }
/-- A receive stream. -/
def rx? (s : State) (k : Nat) : RxStream := storeGet (fun _ => RxStream.init) s.rx k
/-- Change a receive stream. -/
def modRx (s : State) (k : Nat) (f : RxStream → RxStream) : State :=
  { s with rx := storeSet (fun _ => RxStream.init) s.rx k (f (s.rx? k)) }

/-- Bytes of a Cellar's quarter of the replay store in use (R297, Table 8.25). -/
def storeUsed (s : State) (c : Nat) : Nat :=
  ((s.tx.filter fun e => decide (e.1 / 64 = c)).flatMap fun e => e.2.unacked.map fun x => copyBytes x.pkt).sum

/-- A copy of a packet fits the Cellar's quarter (R297). -/
def storeRoom (s : State) (c : Nat) (p : Packet) : Bool :=
  decide (s.storeUsed c + copyBytes p ≤ s.regionSize 4 / 4)

/-- The packet originates here and belongs to a transmit stream (R296): not TACK, not transit, not a replay. -/
def toNumber (s : State) (p : Packet) : Bool :=
  match p.route, p.fab with
  | .fabric _, none => true
  | .fabric _, some h => h.src == s.getF pgFWD FWD_CTL.FDID && h.kind != 4 && !h.replay
  | .port _, _ => false
  | .shared _, _ => false
  | .mcast _, _ => false
  | .bar _ _ _, _ => false
  | .vfBar _ _ _, _ => false
  | .none, _ => false

/-- Number a packet as it passes the ordering point, and keep its copy (R297, R303). -/
def numberPacket (s : State) (p : Packet) (fea kind aux : Nat) : State × Packet :=
  let cls := fclassOf p
  let k := txKey p.cell0 (fea / 4096) cls
  let x := s.tx? k
  let h : FabHdr := match p.fab with
    | some h => { h with sync := x.sync, tseq := x.next, cls := cls,
                         pbar := if cls = 0 then 0 else (s.tx? (txKey p.cell0 (fea / 4096) 0)).next }
    | none => { kind := kind, ro := p.tlp.ro || (kind == 1 && p.attr.win.isSome && !p.attr.strict), sync := x.sync, replay := false, dst := fea, cls := cls, cellar := p.cell0,
                src := s.getF pgFWD FWD_CTL.FDID, part := p.part, aux := aux, tseq := x.next,
                pbar := if cls = 0 then 0 else (s.tx? (txKey p.cell0 (fea / 4096) 0)).next }
  let q := { p with fab := some h, ncell := cellsOf (copyBytes p) }
  (s.modTx k fun y => { y with next := serialNext y.next, sync := false,
                               unacked := y.unacked ++ [{ pkt := q, tseq := x.next, written := false }],
                               timer := if y.unacked.isEmpty then s.ticks else y.timer }, q)

/-- A TACK of the given entries to a source FDID, in the CPL class (R300). -/
def tackPacket (s : State) (c fdid : Nat) (entries : List Byte) (n : Nat) : State :=
  let t : Tlp := { kind := .cpl, rid := 0, tag := 0, pasid := none, tc := 0, addr := 0, len := entries.length, mask := [],
                   data := entries, hdr := 0, ro := false, ido := false, poisoned := false, op := .fetchAdd, status := .sc }
  let h : FabHdr := { kind := 4, ro := false, sync := false, replay := false, dst := fdid * 4096, cls := 2, cellar := c,
                      src := s.getF pgFWD FWD_CTL.FDID, part := 0, aux := n, tseq := 0, pbar := 0 }
  let p := s.newPacket t (64 + c) c (.block 31) 31 .requester
  s.addPacket { p with route := .fabric (fdid * 4096), fab := some h, ncell := cellsOf (copyBytes p) }

/-- Packets that a receive stream has accepted and that have not passed the ordering point. -/
def rxWaiting (s : State) (k : Nat) : List Packet :=
  s.packets.filter fun p => (p.place == .ingress || p.place == .walk) && decide (p.ing < 64) && (match p.fab with
    | some h => h.kind != 4 && decide (h.dst / 4096 = s.getF pgFWD FWD_CTL.FDID) && rxKey h.src h.cellar h.cls == k
    | none => false)

/-- Transport sequence number of a packet. -/
def tseqOf (p : Packet) : Nat := (p.fab.map (·.tseq)).getD 0

/-- ACKD of a receive stream (R298): the next number that has not passed the ordering point, the oldest that still waits, else EXP. -/
def ackdOf (s : State) (k : Nat) : Nat :=
  (s.rxWaiting k).foldl (fun m p => if serialLt (tseqOf p) m then tseqOf p else m) (s.rx? k).exp

/-- Send a TACK for a receive stream (R300). -/
def sendTack (s : State) (k : Nat) (resync : Bool) : State :=
  let src := k / 16
  let sc := k / 4 % 4
  let s1 := s.tackPacket sc src (tackBytes (k % 4) sc resync (s.ackdOf k)) 1
  let s2 := s1.modRx k fun x => { x with since := 0, uncovered := none }
  s2.onlyIf resync fun t => t.addF (pgFTX sc) FTX_CNT2.RESYNC

/-- A packet of a receive stream has passed the ordering point and left the ingress (R299, R300). -/
def rxPassed (s : State) (h : FabHdr) : State :=
  let k := rxKey h.src h.cellar h.cls
  let s1 := s.modRx k fun x => { x with since := x.since + 1, uncovered := some (x.uncovered.getD s.ticks) }
  s1.onlyIf (decide (32 ≤ (s1.rx? k).since)) fun t => t.sendTack k false

/-- PBAR lets an NP or CPL arrival pass (R299). -/
def pbarMet (s : State) (h : FabHdr) : Bool :=
  if h.cls = 0 ∨ (h.cls = 2 ∧ h.ro = true) then true
  else !serialLt (s.ackdOf (rxKey h.src h.cellar 0)) h.pbar

/-- A P or CPL arrival passes in the order of its stream, by whichever ports the stream came (R299). -/
def streamTurn (s : State) (p : Packet) (h : FabHdr) : Bool :=
  h.cls == 1 || (s.rxWaiting (rxKey h.src h.cellar h.cls)).all fun q => !serialLt (tseqOf q) h.tseq || q.id == p.id

/-- A packet that its stream had accepted is discarded with its link (Table 8.9). Its source replays it, so the stream expects it again; what came after
it and has passed is remembered (DEDUCED, log 72). -/
def rxDiscarded (s : State) (p : Packet) : State :=
  match p.fab with
  | none => s
  | some h =>
    if h.kind = 4 ∨ h.dst / 4096 ≠ s.getF pgFWD FWD_CTL.FDID then s
    else
      let k := rxKey h.src h.cellar h.cls
      let x := s.rx? k
      if !serialLt h.tseq x.exp then s.modRx k fun y => { y with done := y.done.filter (· != h.tseq) }
      else
        let n := (x.exp + 2 ^ 32 - h.tseq) % 2 ^ 32
        let after := ((List.range n).drop 1).map fun i => (h.tseq + i) % 2 ^ 32
        s.modRx k fun y => { y with exp := h.tseq, done := y.done ++ after }

/-- A transmit stream breaks with a cause of Table 8.28 (R302). Its packets that still wait go with their copies. -/
def breakStream (s : State) (k cause : Nat) : State :=
  let c := k / 64
  let x := s.tx? k
  if x.unacked.isEmpty && cause != 2 && cause != 1 then s
  else
    let pg := pgFTX c
    let gone := x.unacked.map (·.tseq)
    let waits := s.packets.filter fun p => p.place == Place.egress && decide (p.left = 0) && decide (p.cell0 = c)
      && (match p.fab with
          | some h => decide (h.dst / 4096 = k / 4 % 16) && h.cls == k % 4 && gone.contains h.tseq
              && h.src == s.getF pgFWD FWD_CTL.FDID && h.kind != 4
          | none => false)
    let s0 := ({ s with packets := s.packets.filter fun p => !(waits.any (·.id == p.id)) } : State).each waits fun t p => t.queueLeft p.queue
    let s1 := s0.modTx k fun y => { y with unacked := [], sync := true, timeouts := 0 }
    let lost := (x.unacked.filter fun y => isWrite y.pkt.tlp).length
    let s2 := s1.each x.unacked fun t y =>
      if isWrite y.pkt.tlp then t.writeLost y.pkt 6 (pg * 32 + 1)
      else if nonPosted y.pkt.tlp then t.reply y.pkt .ca [] else t
    let s3 := ({ s2 with trk := s2.trk.filter fun e => !(e.port == 66 && x.unacked.any fun y => y.pkt.group == e.pkt.group) } :
      State).addF pg FTX_CNT0.BROKEN
    let s4 := if s3.flag pg FTX_BRK.VALID then s3 else
      let t := ((s3.setFlag pg FTX_BRK.VALID true).setF pg FTX_BRK.CAUSE cause).setF pg FTX_BRK.LOST (min 0xFFFF lost)
      (t.setF pg FTX_BRKID.FDID (k / 4 % 16)).setF pg FTX_BRKID.FCLASS (k % 4)
    s4.fire pg 1

/-- Replay every unacknowledged packet of a stream, oldest first, with REPLAY set (R301); a copy that HBM cannot return breaks
the stream (R302). -/
def replayStream (s : State) (k : Nat) (ecc : Ecc) : State :=
  let c := k / 64
  let x := s.tx? k
  if ecc = .uncorrectable then s.breakStream k 3
  else
    let s1 := s.each x.unacked fun t y =>
      let h := y.pkt.fab.map fun (f : FabHdr) => { f with replay := true }
      t.addPacket { y.pkt with id := t.nextId, ing := 64 + c, fab := h, place := .ingress, acc := [], entered := [], arrived := 0,
                               left := 0, cut := false, mark := .best, spill := false, spilled := 0, spillBusy := 0 }
    (s1.modTx k fun y => { y with timer := s.ticks }).count c 0x11 0 0 x.unacked.length

/-- The E2E timer of a stream expires (R301, R302). -/
def e2eExpire (s : State) (k : Nat) (ecc : Ecc) : State :=
  let c := k / 64
  let s1 := (s.addF (pgFTX c) FTX_CNT0.TMO).modTx k fun y => { y with timeouts := y.timeouts + 1 }
  if s.getF (pgFTX c) FTX_CTL.E2E_MAX < (s1.tx? k).timeouts then s1.breakStream k 0
  else if ecc = .uncorrectable then s1.replayStream k ecc
  else (s1.replayStream k ecc).fire (pgFTX c) 0

/-- A TACK entry acknowledges what lies before ACKD (R300, R301), or breaks the stream (R302). -/
def tackEntry (s : State) (fdid : Nat) (e : TackEntry) : State :=
  let k := txKey (e.cellar % 4) fdid (e.cls % 4)
  if e.cls % 4 = 3 then s
  else if e.resync then s.breakStream k 2
  else
    let x := s.tx? k
    let acked := x.unacked.filter fun y => serialLt y.tseq e.ackd
    if acked.isEmpty then s
    else
      let s1 := s.modTx k fun y => { y with unacked := y.unacked.filter (fun z => !serialLt z.tseq e.ackd), timer := s.ticks,
                                            timeouts := 0 }
      s1.each acked fun t y => if isWrite y.pkt.tlp then t.writeDone y.pkt.group else t

/-- Streams whose destination has no usable port break (R294, R302), once: one that is broken already, or has sent nothing, is left as it is. -/
def breakUnreachable (s : State) : State :=
  let ks := (s.tx.filter fun e => (!e.2.unacked.isEmpty || !e.2.sync) && (s.fdtPort (e.1 / 4 % 16)).isNone).map (·.1)
  s.each ks fun t k => t.breakStream k 1

/-- A packet that arrived over FFL for this 9160 goes on from its stream (R101, R104, R299). -/
def fabricArrive (s : State) (ing : Nat) (h : FabHdr) (t : Tlp) (acc : List Nat) : State :=
  let c := cellarOf ing
  let p0 := { s.newPacket t ing c (.fabric h.src h.cellar h.part t.rid) 31 .requester with
    fab := some h, acc := acc, ncell := cellsOf (16 + tlpBytes t), place := .walk }
  let s0 := s.addPacket p0
  let s1 := s0.onlyIf (!s0.pbarMet h) fun u => u.addF (pgFTX h.cellar) FTX_CNT2.HELD
  if h.kind = 2 then s1.modPacket p0.id fun p => { p with place := .ingress, part := h.part }
  else if h.kind = 3 then
    (if s1.flag pgFWD FWD_CTL.FAB_EN && s1.flag pgFWD FWD_MCG_CTL.EN (h.aux % 64) then
      let (s2, k) := s1.mcastJudged p0 (h.aux % 64)
      s2.modPacket p0.id fun p => { p with place := .ingress, route := .mcast (h.aux % 64), mcSeen := k.mcSeen }
     else (s1.missTlp p0 0).dropPacket p0.id)
  else
    match s1.routeEndpoint ing h.dst t with
    | .miss bit part => (s1.missTlp { p0 with part := part } bit).dropPacket p0.id
    | .blocked kind => (s1.refuse p0 .ca kind).dropPacket p0.id
    | .ok route attr limit part =>
      s1.settlePacket p0.id (s1.afterRoute { p0 with part := part, route := route, attr := attr } limit)

/-- A fabric packet arrives at an FFL port (R98, R298): a transit packet goes on, a packet for this device is judged by its
stream (Table 8.11). A transit packet, or a multicast arrival, that misses has no endpoint here, so its capture holds PART 31 (DESIGN CHOICE, log 77). -/
def fabricPacket (s : State) (ing : Nat) (h : FabHdr) (t : Tlp) (acc : List Nat) : State :=
  let me := s.getF pgFWD FWD_CTL.FDID
  if h.dst / 4096 ≠ me then
    let p := { s.newPacket t ing (cellarOf ing) (.fabric h.src h.cellar h.part t.rid) 31 .requester with
      fab := some h, route := .fabric h.dst, acc := acc, ncell := cellsOf (16 + tlpBytes t) }
    if (s.fabPort ing t.tc (h.dst / 4096)).isSome then s.addPacket p
    else if h.kind = 1 ∨ h.kind = 3 then (s.fwdCapture 3 31 ing 5 t.addr).fire pgFWD 3
    else s
  else
    let k := rxKey h.src h.cellar h.cls
    let pg := pgFTX h.cellar
    let s1 := s.onlyIf h.sync fun u => u.modRx k fun x => { x with exp := h.tseq, done := [], synced := true }
    let x := s1.rx? k
    if !x.synced then s1.sendTack k true
    else if h.tseq = x.exp then
      let s2 := s1.modRx k fun y => { y with exp := serialNext y.exp, done := y.done.filter (· != h.tseq) }
      if x.done.contains h.tseq then (s2.addF pg FTX_CNT1.DUP).sendTack k false else s2.fabricArrive ing h t acc
    else if serialLt x.exp h.tseq then s1.addF pg FTX_CNT1.AHEAD
    else (s1.addF pg FTX_CNT1.DUP).sendTack k false

/-- Acceptance ticks of the next packet that the link layer has taken whole (R289); the present tick where it holds none. -/
def takeWhole (s : State) (p : Nat) : State × List Nat :=
  match (s.fflSt p).whole with
  | [] => (s, [s.fabric])
  | a :: _ => (s.modFfl p fun x => { x with whole := x.whole.tail }, a)

end State

/-! ## Commands -/

/-- A header field breaks Table 8.10 (R311). -/
def badHdr (h : FabHdr) : Bool :=
  decide (h.kind = 0 ∨ 4 ≤ h.kind ∨ 3 ≤ h.cls ∨ 4 ≤ h.cellar ∨ 16 ≤ h.src ∨ 65536 ≤ h.dst ∨ 2 ^ 32 ≤ h.tseq ∨ 2 ^ 32 ≤ h.pbar)

/-- TACK_DELAY_EXPIRE (R300): ACK_DELAY has passed since the first packet that no TACK covers. -/
def execTackDelayExpire (key : Nat) (s : State) : Res :=
  match (s.rx? key).uncovered with
  | none => s.done
  | some t0 =>
    if t0 + 128 * s.getF (pgFTX (key / 4 % 4)) FTX_CTL.ACK_DELAY ≤ s.ticks then (s.sendTack key false).done else s.done

/-- E2E_TIMEOUT (R301): the timer of a transmit stream with unacknowledged packets expires; `ecc` is that of the copies read. -/
def execE2eTimeout (key : Nat) (ecc : Ecc) (s : State) : Res :=
  let x := s.tx? key
  if x.unacked.isEmpty || decide (s.ticks < x.timer + 1000 * s.getF (pgFTX (key / 64)) FTX_CTL.E2E_TIMEOUT) then s.done
  else (s.e2eExpire key ecc).done

/-- REPLAY_STORE_WRITTEN (R297): the oldest copy of a stream that is not yet in HBM is written there. -/
def execReplayStoreWritten (key : Nat) (s : State) : Res :=
  match (s.tx? key).unacked.find? fun y => !y.written with
  | none => s.done
  | some c => (s.modTx key fun x => { x with unacked := x.unacked.map fun (y : TxCopy) =>
      if y.tseq = c.tseq then { y with written := true } else y }).done

/-- FRT_COMPLETION_TIMEOUT (R304): the entry's completion did not return in the function's Completion Timeout. -/
def execFrtCompletionTimeout (entry : Nat) (s : State) : Res :=
  match s.frt.find? (·.entry == entry) with
  | none => s.done
  | some e =>
    if e.born + (s.part e.localPart).cplTimeout ≤ s.ticks then (s.frtReply entry (State.cplTlp e.rid e.tag e.tc e.ro e.ido (s.part e.localPart).pfRid .ca [] false) true).done else s.done

end Sys2Proof.Machine
end

