-- ==== Sys2Proof/Machine/Ports.lean ====
section
/-! DEFINITION. Lanes and ports (chapter 7): usable width, Recovery and RETRAIN, link requests (R291), link down (R262 to R268,
R293, R294), partition hot reset (R628, R629), entry into L0 or ACTIVE (R247, R248, R260), lane scores (R250 to R254). Ports 64 and 65 are the
mirror ports MP0 and MP1, whose lanes are numbered 160 to 167 (R511). -/

namespace Sys2Proof.Machine

/-- Width code of LNK_CFG to lanes. -/
def widthOf (code : Nat) : Nat := 2 ^ min code 4

/-- Widths a link can have, widest first. -/
def linkWidths : List Nat := [16, 8, 4, 2, 1]

namespace State

/-! ## Lanes -/

/-- Configured width of a port; a mirror port has four lanes. -/
def portWidth (s : State) (p : Nat) : Nat := if 64 ≤ p then 4 else widthOf (s.getF (pgLNK p) LNK_CFG.WIDTH)

/-- Device lane of lane `k` of a port. -/
def laneOf (s : State) (p k : Nat) : Nat :=
  if 64 ≤ p then 160 + 4 * (p - 64) + k else 40 * cellarOf p + s.getF (pgLNK p) LNK_CFG.LANE0 + k

/-- Port and lane number of a device lane; none where no configured port covers it (R238). -/
def portOfLane (s : State) (l : Nat) : Option (Nat × Nat) :=
  if 160 ≤ l then (if l < 168 then some (64 + (l - 160) / 4, l % 4) else none)
  else
    (cellarPorts (l / 40)).findSome? fun p =>
      let l0 := s.getF (pgLNK p) LNK_CFG.LANE0
      if s.portEn p ∧ l0 ≤ l % 40 ∧ l % 40 < l0 + s.portWidth p then some (p, l % 40 - l0) else none

/-- The device lane is retired (R254, R511). -/
def laneRetired (s : State) (l : Nat) : Bool :=
  if 160 ≤ l then bitAt (s.getF pgMIR MIR_LRETIRE.LANES) (l - 160)
  else bitAt (s.getF (pgCEL (l / 40)) CEL_LRETIRE.LANES) (l % 40)

/-- The lane is in the trained link: neither parked nor retired nor unused (Table 7.1). -/
def laneInLink (s : State) (l : Nat) : Bool :=
  if 160 ≤ l then (s.lane l).link
  else !s.flag (pgCEL (l / 40)) CEL_LANESTS.PARKED (l % 40) && !s.flag (pgCEL (l / 40)) CEL_LANESTS.UNUSED (l % 40)
    && !s.laneRetired l

/-- The lane holds lock. -/
def laneLock (s : State) (l : Nat) : Bool :=
  if 160 ≤ l then (s.lane l).lock else s.flag (pgCEL (l / 40)) CEL_LANESTS.LOCK (l % 40)

/-- Set a lane's lock. -/
def setLock (s : State) (l : Nat) (b : Bool) : State :=
  if 160 ≤ l then s.modLane l fun x => { x with lock := b } else s.setFlag (pgCEL (l / 40)) CEL_LANESTS.LOCK b (l % 40)

/-- Lanes of a port, as device lanes. -/
def portLanes (s : State) (p : Nat) : List Nat := (List.range (s.portWidth p)).map (s.laneOf p)

/-- Widest link from the low lanes and from the high lanes (R255): vn and vr, over the lanes that are not retired or are among `also`. -/
def usableWith (s : State) (p : Nat) (also : List Nat) : Nat × Nat :=
  let w := s.portWidth p
  let ok := fun k => !s.laneRetired (s.laneOf p k) || also.contains k
  let pick := fun (f : Nat → Bool) => (linkWidths.find? f).getD 0
  (pick fun v => decide (v ≤ w) && (List.range v).all ok,
   pick fun v => decide (v ≤ w) && (List.range v).all fun k => ok (w - v + k))

/-- vn and vr of a port (R255). -/
def usable (s : State) (p : Nat) : Nat × Nat := s.usableWith p []

/-- The widest link that the port's lanes allow (R255); an FFL port runs at x4 or wider (R291). -/
def widest (s : State) (p : Nat) : Nat :=
  let v := max (s.usable p).1 (s.usable p).2
  if s.isFfl p && decide (v < 4) then 0 else v

/-- Score of lane `k` of a port (Table 7.9, R511). -/
def laneScore (s : State) (p k : Nat) : Nat :=
  if p = 64 then s.getF pgMIR MIR_LERR0.SCORE k else if p = 65 then s.getF pgMIR MIR_LERR1.SCORE k
  else s.getF (pgLNK p) LNK_LERR.SCORE k

/-- Set a lane's score. -/
def setScore (s : State) (p k v : Nat) : State :=
  if p = 64 then s.setF pgMIR MIR_LERR0.SCORE v k else if p = 65 then s.setF pgMIR MIR_LERR1.SCORE v k
  else s.setF (pgLNK p) LNK_LERR.SCORE v k

/-- Scores of every lane of a port restart from 0 (R251, R259, Table 7.13). -/
def clearScores (s : State) (p : Nat) : State := s.each (List.range (s.portWidth p)) fun t k => t.setScore p k 0

/-- Count a lane error event (Table 7.9). -/
def laneEvent (s : State) (p k : Nat) : State :=
  if p = 64 then s.addF pgMIR MIR_LERR0.EVENTS 1 k else if p = 65 then s.addF pgMIR MIR_LERR1.EVENTS 1 k
  else s.addF (pgLNK p) LNK_LERR.EVENTS 1 k

/-- Count a soft failure. -/
def laneReeq (s : State) (p k : Nat) : State :=
  if p = 64 then s.addF pgMIR MIR_LERR0.REEQ 1 k else if p = 65 then s.addF pgMIR MIR_LERR1.REEQ 1 k
  else s.addF (pgLNK p) LNK_LERR.REEQ 1 k

/-- THR, REQ_WIN and AUTO_RETIRE of a port (Table 7.8). -/
def lerrThr (s : State) (p : Nat) : Nat :=
  if 64 ≤ p then s.getF pgMIR MIR_LERR_CTL.THR (p - 64) else s.getF (pgLNK p) LNK_LERR_CTL.THR
/-- Persistence window in ns. -/
def lerrWin (s : State) (p : Nat) : Nat :=
  1000000000 * (if 64 ≤ p then s.getF pgMIR MIR_LERR_CTL.REQ_WIN (p - 64) else s.getF (pgLNK p) LNK_LERR_CTL.REQ_WIN)
/-- AUTO_RETIRE of a port. -/
def lerrAuto (s : State) (p : Nat) : Bool :=
  if 64 ≤ p then s.flag pgMIR MIR_LERR_CTL.AUTO_RETIRE (p - 64) else s.flag (pgLNK p) LNK_LERR_CTL.AUTO_RETIRE
/-- Decay grid of a port in ns. -/
def lerrDecay (s : State) (p : Nat) : Nat :=
  100000 * (if 64 ≤ p then s.getF pgMIR MIR_LERR_CTL.DECAY (p - 64) else s.getF (pgLNK p) LNK_LERR_CTL.DECAY)

/-- A fault source of Table 7.16 at a port, or the one that stands for it at a mirror port (R511). -/
def fireLane (s : State) (p bit : Nat) : State :=
  if 64 ≤ p then (if bit = 2 then s.fire pgMIR 12 else if bit ≤ 1 then s.fire pgMIR 11 else s)
  else s.fire (pgLNK p) bit (s.portPart p) p

/-! ## Ingress allotments (R117) -/

/-- Ingress allotment of a port in cells (R117). -/
def allotment (s : State) (p : Nat) : Nat :=
  let c := cellarOf p
  let w := ((cellarPorts c).filter s.portEn).map s.portWidth
  1024 * s.getF (pgBUF c) BUF_POOL.ING_K * s.portWidth p / max 1 w.sum

/-- Part of the allotment of a class (R117). -/
def allotOf (s : State) (p cls : Nat) : Nat :=
  let a := s.allotment p
  if cls = 0 then a / 2 else if cls = 1 then a / 8 else a - a / 2 - a / 8

/-- A PCIe port advertises the header and data credits that its parts hold (R117, log 66). -/
def advertise (s : State) (p : Nat) : State :=
  s.emitAll ((List.range 3).map fun c => let k := Config.creditsOf c (s.allotOf p c); .fcInit p c k.1 k.2)

/-! ## Leaving L0 -/

/-- A packet that has begun to leave is cut short: it stays at the head of its queue to be sent again in full, and a packet of a
stream goes out of contract (R115, R146, R247). -/
def cutShort (s : State) (p : Nat) : State :=
  match (s.port p).sending with
  | none => s
  | some (id, _) =>
    match s.packet? id with
    | none => s.modPort p fun x => { x with sending := none, nullOwed := true }
    | some k =>
      let s1 := (s.modPort p fun x =>
        { x with sending := none, nullOwed := true, nullAbort := if k.cut then some (k.part, faultPort k) else none }).modPacket id fun k =>
          { k with left := 0, cut := false }
      (s1.markCut k).peakDepth k.queue

/-- A link layer enters RETRAIN (Table 8.5): `kept` says that its sequence state is kept (R283). -/
def linkRetrain (s : State) (p : Nat) (kept : Bool) : State :=
  ((s.setL p FFL_STS.STATE 4).setL p FFL_STS.REQ_PEND 0).modFfl p fun x => { x with naked := [], fromRetrain := kept, req := none }

/-- A port leaves L0 for Recovery, or ACTIVE for RETRAIN (R247, R292). -/
def leaveL0 (s : State) (p : Nat) : State :=
  if 64 ≤ p then (s.linkRetrain p true).modPort p fun x => { x with recAt := some s.ticks, late := [] }
  else
    let s0 := s.modPort p fun x => { x with per := s.fper p, recAt := some s.ticks, late := [] }
    let s1 := ((s0.setF (pgLNK p) LNK_STS.STATE 5).setFlag (pgLNK p) LNK_STS.UP false).setFper p 0
    let s2 := s1.onlyIf (s1.isFfl p) fun t => t.linkRetrain p true
    (s2.portMode p false).cutShort p

/-- An FFL or mirror port enters RETRAIN (R278, R286, R287, R291, R292): from ACTIVE, or from HELLO or INIT on a protocol error. A link that has had
no INIT still goes through it afterwards (DEDUCED, log 39). -/
def enterRetrain (s : State) (p : Nat) : State :=
  let st := s.lkState p
  if st = 3 then s.leaveL0 p
  else if st = 1 ∨ st = 2 then
    let s1 := (s.linkRetrain p (st == 2 || (s.fflSt p).fromRetrain)).modPort p fun x => { x with recAt := some s.ticks, late := [] }
    if p < 64 then (s1.setF (pgLNK p) LNK_STS.STATE 5).setFlag (pgLNK p) LNK_STS.UP false else s1
  else s

/-- The port is retraining (R261): Recovery, or from RETRAIN to ACTIVE. -/
def retraining (s : State) (p : Nat) : Bool :=
  if decide (64 ≤ p) || s.isFfl p then s.lkState p == 4 || (s.lkState p == 1 && (s.fflSt p).fromRetrain) else s.linkState p == 5

/-- The port began to retrain in the present cycle (R253, R261). -/
def justLeft (s : State) (p : Nat) : Bool := s.retraining p && (s.port p).recAt == some s.ticks

/-- STATE of a port that has no link and does not train (R249, R256, R265), or DETECT. -/
def restState (s : State) (p : Nat) : Nat :=
  if s.flag (pgLNK p) LNK_CTL.DISABLE then 7 else if (s.port p).noLanes then 0xB else if (s.port p).dpc then 0xA else 0

/-! ## Link down -/

/-- Both policer buckets of a port are set to BURST and nothing is held (R229). -/
def resetPolicers (s : State) (p : Nat) : State :=
  let pg := pgQSH (cellarOf p) (p % 16)
  let s1 := s.each [0, 1] fun t c => t.setF pg QSH_PTOK.TOKENS (t.burstNow pg QSH_PBURST.BURST (2 * (p % 8) + c) * 65536) (2 * (p % 8) + c)
  ((s1.setFlag pg QSH_PSTS.P_HOLD false (p % 8)).setFlag pg QSH_PSTS.NP_HOLD false (p % 8)).modPort p fun x =>
    { x with heldP := 0, heldNP := 0, heldFc := [] }

/-- The number that an own packet took on its stream goes with it where it is the newest; an older one leaves a gap, for which the stream breaks in its
time (R115, R301, R302; DEDUCED, log 72). -/
def unnumber (s : State) (k : Packet) : State :=
  match k.fab with
  | none => s
  | some h =>
    if h.src ≠ s.getF pgFWD FWD_CTL.FDID ∨ h.kind = 4 then s
    else s.modTx (txKey h.cellar (h.dst / 4096) h.cls) fun y =>
      let newest := y.next == serialNext h.tseq
      { y with unacked := y.unacked.filter (·.tseq != h.tseq), next := if newest then h.tseq else y.next, sync := y.sync || (newest && h.sync) }

/-- A packet that the port has not received whole, and that has passed on by cut-through, is lost with its link (R115): one that has begun to
leave is nullified in its next period, and the packet counts among those that have not passed the ordering point. -/
def cutOff (s : State) (p : Nat) (k : Packet) : State :=
  let d := portOfQueue k.queue
  let begun := (s.port d).sending.any fun x => x.1 == k.id
  let s1 := (s.onlyIf begun fun t =>
    t.modPort d fun x => { x with sending := none, nullOwed := true, nullAbort := some (k.part, p) }).unnumber k
  let s2 : State := { s1 with openW := s1.openW.filter (·.pkt != k.group), trk := s1.trk.filter (·.pkt.id != k.id) }
  (s2.modPacket k.id fun x =>
    { x with place := .ingress, bad := true, acc := [s.fabric], left := 0, arrived := 0, entered := [], cut := false, spill := false,
             spilled := 0 }).queueLeft k.queue

/-- Packets of a port that are received in part only and stand in an egress queue. -/
def partOnly (s : State) (p : Nat) : List Packet :=
  s.packets.filter fun k => k.place == .egress && k.ing == p && decide (s.fabric < k.acc.getLastD 0)

/-- What goes with a link: no packet leaving, scores, held credit, credit and repair items gone, IDE streams without keys (Tables 7.13 and 8.9,
R229; IDE: PRESUMED, log 74), the prefetched blocks behind the port (R366) and the packets that it has brought in part only. -/
def linkGone (s : State) (p : Nat) : State :=
  let s1 := (((s.clearScores p).resetPolicers p).setFlag (pgLNK p) LNK_IDE.LINK_SEC false).setF (pgLNK p) LNK_IDE.SEL_SEC 0
  let s2 := { s1.pfDiscard (fun b => b.port == p) with heldOut := s1.heldOut.filter (·.1 != p), edge := { s1.edge with debits := s1.edge.debits.filter (·.2.1 != p), freed := s1.edge.freed.filter (·.1 != p) } }
  let s3 := s2.modPort p fun x =>
    { x with again := false, errs := 0, winOver := 0, lockLost := none, ideKeys := [], recAt := none, late := [], trip := none,
             sending := none, repair := [], upkeep := [], nullOwed := false, nullAbort := none, wire := none, limitHit := false,
             crP := some 0, crNP := some 0, crCPL := some 0, crPD := some 0, crNPD := some 0, crCPLD := some 0 }
  s3.each (s3.partOnly p) fun t k => t.cutOff p k

/-- A port without a link, in state `st`: what LNK_STS reports of a trained link is 0 (R246), and the flit period is 0. -/
def linkFields (s : State) (p st : Nat) : State :=
  let s1 := ((((s.setF (pgLNK p) LNK_STS.STATE st).setFlag (pgLNK p) LNK_STS.UP false).setF (pgLNK p) LNK_STS.WIDTH 0).setF
    (pgLNK p) LNK_STS.RATE 0).setFlag (pgLNK p) LNK_STS.REVERSED false
  ((s1.setFlag (pgLNK p) LNK_STS.FLIT false).setFlag (pgLNK p) LNK_STS.CXL false).setFper p 0

/-- What every declaration does to a device port: flit period 0, which R161 compares, and what goes with the link (R194). -/
def portDown (s : State) (p st : Nat) (removed : Bool) : State :=
  let s2 := s.linkFields p st
  let s3 := (s2.linkGone p).modPort p fun x => { x with per := 0, cleanup := true, cleanupFrom := s.ticks, removed := removed }
  let s4 := s3.each (s3.portLanes p) fun t l => t.setLock l false
  (s4.portMode p false).capacity [(if removed then 4 else 5, p)]

/-- The link of an ingress port goes down (R335, R339, R340, Table 9.6): the fences of its initiators are discarded, their reservations cleared. -/
def endInitiators (s : State) (p : Nat) : State :=
  let s1 := (s.dropFences (fun f => f.ing == p) false).orphanIf fun e => e.pkt.ing == p
  { s1 with resv := s1.resv.filter fun r => match r.ini with
      | .port x _ _ => x != p
      | .cxl x => x != p
      | .fabric _ _ _ _ | .chan _ | .block _ => true }

/-- A downstream port reports Surprise Down (R242, PCI Express): its link goes down neither disabled nor reset nor contained, and its slot does not
announce hot-plug surprise. -/
def surprise (s : State) (p st : Nat) : Bool :=
  s.isDown p && st != 7 && st != 8 && !(s.port p).dpc && (s.port p).everL0 && !s.flag (pgLNK p) LNK_SLOT.HP_EN

/-- A PCIe port declares link down, once until its next L0 (R263, R267). `st` is the state it goes to. -/
def pcieDown (s : State) (p st : Nat) (removed : Bool) : State :=
  if s.flag (pgLNK p) LNK_STS.LDOWN then s.setF (pgLNK p) LNK_STS.STATE st
  else
    let s1 := ((s.setFlag (pgLNK p) LNK_STS.LDOWN true).addF (pgLNK p) LNK_LDSTS.DOWNS).fire (pgLNK p) 4 (s.portPart p) p
    let s2 := s1.onlyIf (s.surprise p st) fun t => t.aerPort p 4
    (s2.portDown p st removed).endInitiators p

/-- An FFL port declares link down with a cause of Table 8.14 (R293, R294). One that has declared it and is not yet ACTIVE again falls back to DOWN. -/
def fflDown (s : State) (p st cause : Nat) (removed : Bool) : State :=
  if s.flag (pgFFL p) FFL_STS.LDOWN then
    let s1 := ((s.setF (pgLNK p) LNK_STS.STATE st).setFlag (pgLNK p) LNK_STS.UP false).setF (pgFFL p) FFL_STS.STATE 0
    (s1.modFfl p fun _ => FflSt.init).each (s1.portLanes p) fun t l => t.setLock l false
  else
    let s1 := ((s.setFlag (pgFFL p) FFL_STS.LDOWN true).setF (pgFFL p) FFL_STS.LD_CAUSE cause).fireL p 2
    let s2 := ((s1.setF (pgFFL p) FFL_STS.STATE 0).setFlag (pgFFL p) FFL_STS.REQ_PEND false)
    s2.portDown p st removed

/-- PAIR_HB_IN has shown an edge within HB_LOSS (Table 14.15). -/
def peerHb (s : State) : Bool :=
  match s.mir.hbEdge with
  | some t => decide (s.ticks < t + 1000 * s.getF pgMIR MIR_TMR.HB_LOSS)
  | none => false

/-- The mirror link is lost once no mirror port is ACTIVE: with a live partner MIR_LINK_LOST fires and TAKE_OK clears (R500). Writes of MIR_PSYNC whose
records the standby has not acknowledged are mirrored no longer and wait no longer (DEDUCED, log 56). -/
def mirLinkLost (s : State) : State :=
  if !s.mirPorts.isEmpty then s
  else
    let s1 : State := { s with mir := { s.mir with resync := none, role := none, unacked := [] } }
    (s1.setF pgMIR MIR_STS.PSTATE 0).onlyIf s1.peerHb fun t => (t.setFlag pgMIR MIR_STS.TAKE_OK false).fire pgMIR 0

/-- A mirror port declares link down: records it holds unacknowledged go out again on the other port if that is ACTIVE (R490, R511). -/
def mirDown (s : State) (p cause : Nat) : State :=
  if s.getL p FFL_STS.LDOWN = 1 then s
  else
    let back := (s.fflSt p).replay.filterMap (·.body)
    let recs := back.foldl (fun l (r : MirRec) => if l.contains r || s.mir.txq.contains r then l else l ++ [r]) ([] : List MirRec)
    let s1 := ((((s.setL p FFL_STS.LDOWN 1).setL p FFL_STS.LD_CAUSE cause).setL p FFL_STS.STATE 0).setL p FFL_STS.REQ_PEND 0).fireL p 2
    let s2 := s1.modFfl p fun _ => FflSt.init
    let s3 := (s2.each (s2.portLanes p) fun t l => (t.setLock l false).modLane l fun x => { x with link := false }).clearScores p
    let s4 := (if p = 64 then s3.setFlag pgMIR MIR_STS.MP0_UP false else s3.setFlag pgMIR MIR_STS.MP1_UP false).mirLinkLost
    ({ s4 with mir := { s4.mir with txq := if s.lkState (if p = 64 then 65 else 64) = 3 then recs ++ s4.mir.txq else s4.mir.txq } } : State).modPort p fun x =>
      { x with sending := none, repair := [], upkeep := [], cleanup := true, cleanupFrom := s.ticks, lockLost := none }

/-- Any port declares link down (R262, R293): `st` is the physical state, `cause` the LD_CAUSE of a link layer. -/
def linkDown (s : State) (p st cause : Nat) (removed : Bool) : State :=
  if 64 ≤ p then s.mirDown p cause
  else if s.isFfl p then s.fflDown p st cause removed
  else if s.portEn p then s.pcieDown p st removed else s

/-- A port with no usable lane enters NO_LANES, which declares link down (R256, R291). -/
def noLanes (s : State) (p : Nat) : State :=
  let s1 := (s.modPort p fun x => { x with noLanes := true }).fireLane p 7
  s1.linkDown p (s1.restState p) 1 false

/-! ## Link requests and retrains -/

/-- A LINKREQ that has not left takes another width and cause. -/
def reqAs (width cause : Nat) (m : CtrlMsg × Nat) : CtrlMsg × Nat :=
  match m.1 with
  | .linkReq _ _ tag => (.linkReq width cause tag, m.2)
  | .credit _ _ _ | .nak _ | .hello _ _ _ _ _ _ _ | .linkGo _ _ | .timeReq _ | .timeRsp _ _ _ | .swapTick _ _ _ _ | .role _ _ _ _ _ | .armReport _ _
  | .yield _ | .resync _ | .mctp _ => m

/-- An FFL or mirror port asks for a width (R291). While a request is outstanding or the port is not ACTIVE the next one waits, but for two that are
decided in one cycle, which are one, for a retirement the narrower width (R253, R261). -/
def fflRequest (s : State) (p width cause : Nat) : State :=
  if s.lkState p = 3 then
    match (s.fflSt p).req with
    | some (_, was, tag) =>
      if (s.fflSt p).reqAt = s.ticks then
        s.onlyIf (cause == 1 || was != 1) fun t => t.modFfl p fun x =>
          { x with req := some (width, cause, tag), ctrl := x.ctrl.map (reqAs width cause) }
      else s.modFfl p fun x => { x with want := some (width, cause) }
    | none =>
      let tag := (s.fflSt p).reqTag % 65536
      let s1 := s.modFfl p fun x => { x with req := some (width, cause, tag), reqAt := s.ticks, reqTag := tag + 1 }
      (s1.setL p FFL_STS.REQ_PEND 1).ctrlAdd p (.linkReq width cause tag)
  else if s.lkState p = 0 ∨ s.justLeft p = true then s
  else s.modFfl p fun x => { x with want := some (width, cause) }

/-- The request that waited is made once the port is ACTIVE, for a retirement at the width its lanes then allow (R261, R291). -/
def nextRequest (s : State) (p : Nat) : State :=
  match (s.fflSt p).want with
  | none => s
  | some (width, cause) => (s.modFfl p fun x => { x with want := none }).fflRequest p (if cause = 1 then s.widest p else width) cause

/-- A port retrains: Recovery for a PCIe port, a link request for an FFL or mirror port; a port that is retraining does so again as soon as it
is up (R247, R251, R261, R291). -/
def retrain (s : State) (p width cause : Nat) : State :=
  if decide (64 ≤ p) || s.isFfl p then s.fflRequest p width cause
  else if s.inL0 p || s.linkState p == 6 then s.leaveL0 p
  else if s.linkState p = 5 then s.modPort p fun x => { x with again := x.again || !s.justLeft p }
  else s

/-- Current width of a port's link. -/
def linkWidth (s : State) (p : Nat) : Nat := if 64 ≤ p then (s.fflSt p).width else s.getF (pgLNK p) LNK_STS.WIDTH

/-- A port re-equalises or retrains at its present width. -/
def retrainSame (s : State) (p : Nat) : State := s.retrain p (s.linkWidth p) 2

/-! ## Lane faults -/

/-- A lane is retired (R252, R254): its port retrains without it where it was in use, and goes to NO_LANES when nothing is left (R256, R291). -/
def retireLane (s : State) (l : Nat) (planner : Bool) : State :=
  if s.laneRetired l then s
  else
    let used := s.laneInLink l
    let s1 := if 160 ≤ l then s.setF pgMIR MIR_LRETIRE.LANES (bitSet (s.getF pgMIR MIR_LRETIRE.LANES) (l - 160))
      else (s.setF (pgCEL (l / 40)) CEL_LRETIRE.LANES (bitSet (s.getF (pgCEL (l / 40)) CEL_LRETIRE.LANES) (l % 40))).setFlag
        (pgCEL (l / 40)) CEL_LANESTS.RETIRED true (l % 40)
    match s.portOfLane l with
    | none => s1.ageRetired l planner 0x3F
    | some (p, k) =>
      let s2 := ((s1.setScore p k 0).ageRetired l planner (if 64 ≤ p then 0x3F else p)).fireLane p 2
      let hold := used && s.retraining p && !s.justLeft p
      let s3 := s2.modPort p fun x => { x with retired := true, planner := x.planner || planner, late := if hold then x.late ++ [k] else x.late }
      if s3.widest p = 0 then s3.noLanes p
      else if used then s3.retrain p (s3.widest p) 1 else s3

/-- Scores of a port's lanes as they count in the present cycle (R253): those that stood when its first lane tripped. -/
def cycleScores (s : State) (p : Nat) : List Nat :=
  match (s.port p).trip with
  | some (t, l) => if t = s.ticks then l else (List.range (s.portWidth p)).map (s.laneScore p)
  | none => (List.range (s.portWidth p)).map (s.laneScore p)

/-- A lane whose score reached THR, or that failed three trainings: soft failure, persistent fault or retirement (R251, R252), each by itself where
several trip in one cycle (R253). -/
def laneTrip (s : State) (p k : Nat) : State :=
  let l := s.laneOf p k
  let x := s.lane l
  let soon := match x.soft with
    | some t => decide (s.fabric - t ≤ s.lerrWin p)
    | none => false
  let s0 := s.modPort p fun y => { y with trip := some (s.ticks, (s.cycleScores p).set k 0) }
  if soon || decide (3 ≤ x.fails) then
    (if s.lerrAuto p then s0.retireLane l false else (s0.setScore p k 0).fireLane p 1)
  else
    let s1 := ((s0.fireLane p 0).laneReeq p k).clearScores p
    (s1.modLane l fun y => { y with soft := some s.fabric }).retrainSame p

/-- The score of a lane rises by a weight (R250). The scores that a trip of the present cycle has cleared still count for the other lanes (R253). -/
def laneCharge (s : State) (p k w : Nat) : State :=
  let l := s.cycleScores p
  let v := min 255 (l.getD k 0 + w)
  let tripped := (s.port p).trip.any fun x => x.1 == s.ticks
  let s1 := s.laneEvent p k
  let s2 := if tripped then s1.modPort p fun y => { y with trip := some (s.ticks, l.set k v) } else s1.setScore p k v
  if s.lerrThr p ≤ v then s2.laneTrip p k else s2

/-- A lane loses lock (Table 7.7, R262): weight THR while another lane of the link keeps it, else the link has lost it. -/
def laneLoses (s : State) (p k : Nat) : State :=
  let l := s.laneOf p k
  let s1 := s.setLock l false
  if (s1.portLanes p).any fun x => s1.laneInLink x && s1.laneLock x then s1.laneCharge p k (s1.lerrThr p)
  else s1.modPort p fun x => { x with lockLost := some (x.lockLost.getD s.ticks) }

/-- Every lane of a link loses lock in one tick (R262): no other lane keeps it, so no lane is charged (Table 7.7). -/
def linkLoses (s : State) (p : Nat) : State :=
  let s1 := s.each ((s.portLanes p).filter s.laneInLink) fun t l => t.setLock l false
  s1.modPort p fun x => { x with lockLost := some (x.lockLost.getD s.ticks) }

/-- LNK_STS.DERATED follows CAP (Table 7.5). -/
def setCap (s : State) (p v : Nat) : State :=
  (s.setF (pgLNK p) LNK_DERATE.CAP v).setFlag (pgLNK p) LNK_STS.DERATED (decide (v < s.getF (pgLNK p) LNK_CFG.MAXRATE))

/-- A port derates to a rate and retrains (R257, R582). -/
def derate (s : State) (p rate : Nat) (planner : Bool) : State :=
  let s1 := s.setCap p rate
  let s2 := if planner then s1.modPort p fun x => { x with planner := true }
    else (s1.modPort p fun x => { x with derated := true }).fire (pgLNK p) 3 (s.portPart p) p
  s2.retrainSame p

/-! ## Partition hot reset -/

/-- The virtual bridge of a port returns to its reset values (R629). -/
def bridgeReset (s : State) (p : Nat) : State :=
  s.modPort p fun x => { x with br := BridgeCfg.init }

/-- Device ports of a partition. -/
def partPorts (s : State) (k : Nat) : List Nat := (List.range 64).filter fun p => s.portPart p == k

/-- Service channels of a partition, numbered over the device (R389). -/
def serviceChans (s : State) (k : Nat) : List Nat :=
  (List.range 1024).filter fun ch => decide (192 ≤ ch % 256) && s.getF (pgDMA (ch / 256)) DMA_CHCFG.PART (ch % 256) == k

/-- An initiator belongs to a partition. -/
def iniPart (s : State) (i : Initiator) : Nat :=
  match i with
  | .port p _ _ => if 64 ≤ p then p - 64 else s.portPart p
  | .cxl p => s.portPart p
  | .fabric _ _ k _ => k
  | .chan c => s.partOfChan c
  | .block k => k

/-- A partition hot reset takes effect (R628, R629, Table 9.6); one in progress absorbs the next. -/
def partHotReset (s : State) (k : Nat) : State :=
  if !s.partOn k || s.flag pgRST RST_PSTS.BUSY k then s
  else
    let ports := s.partPorts k
    let gone := s.packets.filter fun x => (x.place == .ingress || x.place == .walk) && ports.contains x.ing && isWrite x.tlp
    let s1 := ({ s with packets := s.packets.filter fun x => !gone.contains x } : State).failSummary gone 0xA 0
    let s2 := (s1.setF pgRST RST_PSTS.LOST_POSTED (min 0xFFFFFF gone.length) k).setFlag pgRST RST_PSTS.BUSY true k
    let s3 := s2.each (s2.partInsts k) fun t i => t.instReset i true true
    let s4 := s3.each (s3.serviceChans k) fun t ch => t.stopChannel ch
    let s5 := (s4.orphanIf fun e => e.pkt.part == k).pfDiscard fun b => b.part == k
    let s6 := s5.each (ports.filter s5.isDown) fun t p =>
      if t.portDisabled p || (t.port p).noLanes then t.linkDown p (t.linkState p) 0 false else t.linkDown p 8 0 false
    let s7 := (s6.each ports fun t p => t.bridgeReset p).modPart k fun _ => PartSt.init
    let s8 := if s7.devFatal then s7 else s7.setF pgFLT FLT_STATE.PART_FATAL (bitClr (s7.getF pgFLT FLT_STATE.PART_FATAL) k)
    let s9 := (s8.dropFences (fun f => f.part == k) false).clearLost fun b => s8.partOfInst (bindVi b) == k
    { s9 with resv := s9.resv.filter fun r => s9.iniPart r.ini != k }

/-! ## Actions of Tables 7.13 and 8.9 -/

/-- Packets queued to a port, on their way to it included. -/
def queuedTo (s : State) (p : Nat) : List Packet := s.packets.filter fun k => k.place == .egress && portOfQueue k.queue == p

/-- Packets from a port that have not passed the ordering point. -/
def ingressOf (s : State) (p : Nat) : List Packet := s.packets.filter fun k => (k.place == .ingress || k.place == .walk) && k.ing == p

/-- Actions of Table 7.13, with the reason of its records (2 link down, 4 DPC). At DPC the synthetic completions carry the status that DPC Completion
Control selects (R265). -/
def pcieCleanup (s : State) (p reason : Nat) : State :=
  let status : CplStatus := if reason = 4 ∧ (s.port p).br.dpcUr = true then .ur else .ca
  let pg := pgLNK p
  let src := if reason = 4 then 0 else pg * 32 + 4
  let q := s.queuedTo p
  let lost := (q ++ (s.port p).sent).filter fun k => isWrite k.tlp
  let ing := s.ingressOf p
  let trk := s.trk.filter fun e => e.port == p
  let s1 := ({ s with packets := s.packets.filter (fun k => !(q.any (·.id == k.id)) && !(ing.any (·.id == k.id))),
                      trk := s.trk.filter (·.port != p) } : State).modPort p fun x => { x with sent := [] }
  let live := trk.filter (·.orphan.isNone)
  let s2 := (s1.each (portQueues p) fun t n => t.queueLeft n).each lost fun t k => t.writeLost k reason src
  let s3 := s2.each live fun t e => t.reply e.pkt status []
  let s4 := s3.failSummary (ing.filter fun k => isWrite k.tlp) 3 src
  let s5 := ((s4.addF pg LNK_LDCNT0.POSTED lost.length).addF pg LNK_LDCNT0.NP_CA live.length).addF pg LNK_LDCNT1.CPL
    (q.filter fun k => tlpCls k.tlp == 2).length
  (s5.addF pg LNK_LDCNT1.ING ing.length).endInitiators p

/-- Packets that the receiver of a link layer holds (R294): taken whole, being taken, and begun in the reorder buffer. -/
def heldWhole (s : State) (p : Nat) : Nat :=
  let x := s.fflSt p
  x.whole.length + (if x.asm.isEmpty then 0 else 1) + (x.hold.filter (·.sop)).length

/-- Actions of Table 8.9. Own streams with a packet at the port replay at once, unless a copy of a stream of `bad` cannot be read (R302); streams that
have no way left break. -/
def fflCleanup (s : State) (p : Nat) (bad : List Nat) : State :=
  let me := s.getF pgFWD FWD_CTL.FDID
  let q := s.queuedTo p ++ (s.fflSt p).replay.filterMap (·.pkt)
  let all := q.foldl (fun l (k : Packet) => if l.any (·.id == k.id) then l else l ++ [k]) ([] : List Packet)
  let own := all.filter fun k => match k.fab with
    | some h => h.src == me
    | none => true
  let transit := all.length - own.length
  let ing := s.ingressOf p
  let keys := own.foldl (fun l (k : Packet) => match k.fab with
    | some h => if h.kind = 4 ∨ l.contains (txKey h.cellar (h.dst / 4096) h.cls) then l else l ++ [txKey h.cellar (h.dst / 4096) h.cls]
    | none => l) ([] : List Nat)
  let s1 := ({ s with packets := s.packets.filter fun k => !(all.any (·.id == k.id)) && !(ing.any (·.id == k.id)) } : State).modFfl p
    fun _ => FflSt.init
  let s2 := ((s1.each (portQueues p) fun t n => t.queueLeft n).addF (pgFFL p) FFL_CNT3.LD_OWN own.length).addF (pgFFL p) FFL_CNT3.LD_TRANSIT
    (transit + ing.length + s.heldWhole p)
  let s3 := (s2.each ing fun t k => t.rxDiscarded k).breakUnreachable
  s3.each (keys.filter fun k => !(s3.tx? k).unacked.isEmpty) fun t k => t.replayStream k (if bad.contains k then .uncorrectable else .ok)

/-- The link-down actions of a port complete (R263, R266, R294). -/
def cleanupDone (s : State) (p : Nat) (bad : List Nat) : State :=
  let s0 := s.modPort p fun x => { x with cleanup := false }
  if 64 ≤ p then s0
  else if s.isFfl p then s0.fflCleanup p bad
  else
    let s1 := s0.pcieCleanup p 2
    if s.isUp p then s1.partHotReset (s.portPart p) else s1

/-! ## Reaching L0 or ACTIVE -/

/-- Attestation of the module or peer behind a port begins (R562, R564). -/
def attStart (s : State) (p : Nat) : State :=
  let t := { s.trust with att := storeSet (fun _ => (⟨none, false⟩ : AttSt)) s.trust.att p ⟨some s.ticks, false⟩ }
  let s1 : State := { s with trust := t }
  if p < 64 then s1.setP pgTRU TRU_ATTSTS.STS 2 (p % 16) 1 (p / 16) else s1

/-- The lane scores and the derate counts of a port restart at every entry into L0 (R259). -/
def restart (s : State) (p : Nat) : State := (s.clearScores p).modPort p fun x => { x with errs := 0, winOver := 0 }

/-- What waited for the port to leave Recovery is sent (R247). -/
def sendHeld (s : State) (p : Nat) : State :=
  ({ s with heldOut := s.heldOut.filter (·.1 != p) } : State).emitAll ((s.heldOut.filter (·.1 == p)).map (·.2))

/-- In-contract packets of a port's streams whose bound period has passed go out of contract (R248). -/
def markPassed (s : State) (p : Nat) : State :=
  s.each ((s.queuedTo p).filter fun k => inContract k.mark && (match s.packetBound k.queue k with
    | some g => decide (g < s.fabric)
    | none => false)) fun t k => t.markOut k.queue k .late

/-- Class of the event of a port that returns with another flit period (R260). -/
def returnClass (s : State) (p width rate : Nat) : Nat :=
  let x := s.port p
  if x.retired && decide (width < x.lastWidth) then 0
  else if x.derated && decide (rate < x.lastRate) then 1
  else if x.planner then 2
  else if x.arrival then 3
  else 6

/-- A device port is in L0 (ACTIVE) at a width and rate: flit period, queues, credits, mode, event (R117, R194, R224, R229, R247, R248, R259 to R261).
Every L0 ends what was waited for: a retirement decided while the port was retraining is not the cause of a width lost in a later training (DESIGN
CHOICE, log 79). -/
def portUp (s : State) (p width rate : Nat) : State :=
  let x := s.port p
  let down := !x.everL0 || (if s.isFfl p then s.flag (pgFFL p) FFL_STS.LDOWN else s.flag (pgLNK p) LNK_STS.LDOWN)
  let f := fperOf width rate (decide (5 ≤ rate))
  let cls := s.returnClass p width rate
  let s1 := (((s.setF (pgLNK p) LNK_STS.STATE 3).setFlag (pgLNK p) LNK_STS.UP true).setFlag (pgLNK p) LNK_STS.LDOWN false).setFper p f
  let s2 := s1.onlyIf down fun t =>
    ((t.each (portQueues p) fun u q => u.newlyActive q).resetPolicers p).onlyIf (!s.isFfl p) fun u => u.advertise p
  let s3 := s2.modPort p fun y => { y with everL0 := true, arrival := false, retired := false, derated := false, planner := false,
                                           lockLost := none, dpc := false, l0s := y.l0s + 1,
                                           lastWidth := width, lastRate := rate, per := f, removed := false, recAt := none,
                                           late := [], trip := none }
  let s4 := (((s3.onlyIf (!s.isFfl p) fun t => (t.restart p).sendHeld p).markPassed p).portMode p true).onlyIf (down || decide (f ≠ x.per)) fun t => t.capacity [(cls, p)]
  let s5 : State := { s4 with age := { s4.age with acting := if s4.age.acting = some p then none else s4.age.acting } }
  let mode := s5.getP pgTRU TRU_ATTMODE.MODE 2 (p % 16) (p / 16)
  s5.onlyIf (s.isDown p && decide (mode ≠ 0) && (!x.everL0 || x.arrival)) fun t => t.attStart p

/-- Lanes that trained, which hold lock, and lanes that did not (Table 7.1): `width` lanes from lane 0, or from the last lane when reversed. -/
def trainLanes (s : State) (p width : Nat) (rev : Bool) : State :=
  let w := s.portWidth p
  (s.modPort p fun x => { x with lockLost := none }).each (List.range w) fun t k =>
    let l := t.laneOf p k
    let on := if rev then decide (w - width ≤ k) else decide (k < width)
    if 160 ≤ l then (t.setLock l on).modLane l fun x => { x with link := on }
    else ((t.setLock l on).setFlag (pgCEL (l / 40)) CEL_LANESTS.PARKED (!on && !t.laneRetired l) (l % 40))

/-- Training outcome of each lane that did not fail: its run of failed trainings ends (R252). -/
def trainCounts (s : State) (p : Nat) (failed : List Nat) : State :=
  s.each (List.range (s.portWidth p)) fun t k =>
    if failed.contains k then (t.laneEvent p k).modLane (t.laneOf p k) fun x => { x with fails := x.fails + 1 }
    else t.modLane (t.laneOf p k) fun x => { x with fails := 0 }

/-- The physical layer of a link-layer port is in L0: HELLO begins (Table 8.5). -/
def helloBegin (s : State) (p : Nat) : State :=
  (s.setL p FFL_STS.STATE 1).modFfl p fun x =>
    { x with phaseAt := s.ticks, helloAt := s.ticks, gotHello := false, gotEcho := false, sentEcho := false }

/-- A link-layer port reaches ACTIVE (Table 8.5): resends after a retrain (Table 8.6), and on a device port the rules of L0. -/
def fflActive (s : State) (p : Nat) : State :=
  let back := (s.fflSt p).fromRetrain
  let s1 := (s.setL p FFL_STS.STATE 3).modFfl p fun x =>
    { x with granted := none, resend := if back then x.replay.map (·.seq) else [], replayNum := 0, fromRetrain := false, ctrlAt := s.ticks, timeAt := s.ticks,
             timer := if x.replay.isEmpty then none else some s.ticks }
  let s2 := s1.modPort p fun x => { x with repair := (s1.fflSt p).resend.map fun _ => s.fabric }
  if 64 ≤ p then
    let s3 := (s2.setL p FFL_STS.LDOWN 0).modPort p fun x => { x with cleanup := false, lockLost := none }
    let s3 := s3.onlyIf (s3.getF pgMIR MIR_STS.PSTATE == 3) fun t => t.setF pgMIR MIR_STS.PSTATE 0
    let s4 := if p = 64 then s3.setFlag pgMIR MIR_STS.MP0_UP true else s3.setFlag pgMIR MIR_STS.MP1_UP true
    let s5 := s4.onlyIf (!back) fun t => t.attStart p
    (s5.modPort p fun x => { x with recAt := none, late := [], trip := none }).nextRequest p
  else
    let s3 := (s2.portUp p (s2.linkWidth p) (s2.getF (pgLNK p) LNK_STS.RATE)).setFlag (pgFFL p) FFL_STS.LDOWN false
    (s3.onlyIf (!back) fun t => t.attStart p).nextRequest p

/-- A port is in training (R249, R256); a standby keeps its FFL ports in DOWN (R484). -/
def inTraining (s : State) (p : Nat) : Bool :=
  let x := s.port p
  if 64 ≤ p then decide (s.lkState p ≠ 3)
  else !s.portDisabled p && !x.noLanes && !x.cleanup && !x.dpc && s.cellarRun (cellarOf p) && !s.inL0 p
    && (!s.isFfl p || (s.getF pgMIR MIR_STS.ROLE != 1 && s.getF pgMIR MIR_STS.ROLE != 3))

/-- A training may end at this rate and width (R245, R255, R257, R291, R292): reversed only where that is wider, on a link layer's port no wider than
granted. A lane retired since the training began still counts in it (R261). -/
def trainable (s : State) (p rate width : Nat) (rev : Bool) : Bool :=
  let (vn, vr) := s.usableWith p (s.port p).late
  let fits := linkWidths.contains width && (if rev then decide (vn < vr ∧ width ≤ vr) else decide (width ≤ vn))
    && (s.fflSt p).granted.all fun g => decide (width ≤ g)
  let cap := min (s.getF (pgLNK p) LNK_DERATE.CAP) (s.getF (pgLNK p) LNK_CFG.MAXRATE)
  fits && s.inTraining p && (if 64 ≤ p then rate == 5 || rate == 6
    else decide (rate ≤ if s.flag (pgLNK p) LNK_CFG.CXL_EN then min cap 5 else cap) && (!s.isFfl p || decide (5 ≤ rate ∧ 4 ≤ width)))

/-- A port trains (R255, R257, R260): `low` says that it ended below what both ends advertise and CAP allow, `failed` are the lanes that failed in
this training (R250, R252). Width 0: the link partner takes no reversed lane numbers, and the port has no usable lane without them (R255, R256). -/
def l0Entry (s : State) (p rate width : Nat) (low cxl rev : Bool) (failed : List Nat) : State :=
  if width = 0 then
    if s.inTraining p && decide ((s.usable p).1 < if s.isFfl p then 4 else 1) then (s.trainCounts p failed).noLanes p else s
  else if !s.trainable p rate width rev then s
  else if 64 ≤ p then
    let s1 := (((s.trainCounts p failed).trainLanes p width rev).modFfl p fun x => { x with width := width, rev := rev }).restart p
    (s1.helloBegin p).each (failed.filter fun k => decide (k < 4) && !s1.laneRetired (s1.laneOf p k)) fun t k => t.laneTrip p k
  else
    let down := !(s.port p).everL0 || s.flag (pgLNK p) LNK_STS.LDOWN
    let offers := s.flag (pgLNK p) LNK_CFG.CXL_EN
    let s1 := (s.trainCounts p failed).trainLanes p width rev
    let s2 := ((((s1.setF (pgLNK p) LNK_STS.RATE rate).setF (pgLNK p) LNK_STS.WIDTH width).setFlag (pgLNK p) LNK_STS.FLIT (decide (5 ≤ rate))).setFlag
      (pgLNK p) LNK_STS.REVERSED rev).onlyIf down fun t =>
        (t.setFlag (pgLNK p) LNK_STS.CXL (offers && cxl)).onlyIf (offers && !cxl) fun u => u.fire (pgLNK p) 6 (u.portPart p) p
    let s3 := s2.onlyIf low fun t => ((t.setCap p rate).modPort p fun x => { x with derated := true }).fire (pgLNK p) 3 (t.portPart p) p
    let s4 := if s.isFfl p then (((s3.setF (pgLNK p) LNK_STS.STATE 3).setFlag (pgLNK p) LNK_STS.UP true).restart p).helloBegin p
      else s3.portUp p width rate
    let s5 := s4.each (failed.filter fun k => decide (k < s4.portWidth p) && !s4.laneRetired (s4.laneOf p k)) fun t k => t.laneTrip p k
    if s.isFfl p then s5
    else (s5.modPort p fun x => { x with again := false }).onlyIf (s5.port p).again fun t => t.retrainSame p

/-- DISABLE of a port is written (R249): a configured port declares link down, or goes to where it can train again. -/
def setDisable (s : State) (p : Nat) (on : Bool) : State :=
  if s.flag (pgLNK p) LNK_CTL.DISABLE = on then s
  else
    let s1 := s.setFlag (pgLNK p) LNK_CTL.DISABLE on
    if !s.portEn p then s1
    else if on then s1.linkDown p 7 3 false else s1.setF (pgLNK p) LNK_STS.STATE (s1.restState p)

/-- DPC of a downstream port triggers (R265): it leaves its link, and the actions of Table 7.13 are taken at once. -/
def dpcEnter (s : State) (p : Nat) : State :=
  let up := s.inL0 p || s.linkState p == 6
  let s1 := ((s.onlyIf up fun t => t.leaveL0 p).linkFields p 0xA).modPort p fun x => { x with dpc := true }
  (((s1.linkGone p).portMode p false).endInitiators p).pcieCleanup p 4

end State

/-! ## Commands -/

/-- LANE_ERROR_EVENT (R250 to R257). -/
def execLaneErrorEvent (lane : Nat) (ev : LaneEvent) (s : State) : Res :=
  match s.portOfLane lane with
  | none => s.done
  | some (p, k) =>
    if s.laneRetired lane then s.done
    else
      match ev with
      | .symbols => (s.laneCharge p k 1).done
      | .flit | .framing => (s.laneCharge p k 8).done
      | .lockLost => if s.laneInLink lane && s.laneLock lane then (s.laneLoses p k).done else s.done
      | .linkLost => (s.linkLoses p).done
      | .lockBack =>
        if s.laneInLink lane then ((s.setLock lane true).modPort p fun x => { x with lockLost := none }).done else s.done
      | .uncharged =>
        if p < 64 ∧ s.flag (pgLNK p) LNK_DERATE.AUTO then (s.modPort p fun x => { x with errs := x.errs + 1 }).done else s.done

/-- LANE_SCORE_DECAY (R250): the grid points of the present tick, once. -/
def execLaneScoreDecay (s : State) : Res :=
  if s.decayAt = some s.fabric then s.done
  else
    let s1 : State := { s with decayAt := some s.fabric }
    (s1.each ((List.range 66).filter fun p => (decide (64 ≤ p) || s1.portEn p) && decide (0 < s1.lerrDecay p)
        && s1.fabric % s1.lerrDecay p == 0) fun t p =>
      t.each (List.range (t.portWidth p)) fun u k => u.setScore p k (u.laneScore p k - 1)).done

/-- LANE_RETIRE_WRITE (R254): software writes 1 to bits of CEL_LRETIRE of Cellar `c`, or of MIR_LRETIRE for 4. -/
def execLaneRetireWrite (who : Requester) (c : Nat) (lanes : Nat) (s : State) : Res :=
  if c < 4 then
    (s.withAccess who (State.offOf (pgCEL c) CEL_LRETIRE.LANES) 8 true fun t =>
      t.each ((List.range 40).filter (bitAt lanes)) fun u l => u.retireLane (40 * c + l) false).done
  else
    (s.withAccess who (State.offOf pgMIR MIR_LRETIRE.LANES) 4 true fun t =>
      t.each ((List.range 8).filter (bitAt lanes)) fun u l => u.retireLane (160 + l) false).done

/-- LNK_RETRAIN (R247, R249). -/
def execLnkRetrain (who : Requester) (port : Nat) (s : State) : Res :=
  (s.withAccess who (State.offOf (pgLNK port) LNK_CTL.RETRAIN) 4 true fun t =>
    if t.portDisabled port then t else t.retrainSame port).done

/-- LNK_RESTORE (R249, R258). -/
def execLnkRestore (who : Requester) (port : Nat) (s : State) : Res :=
  (s.withAccess who (State.offOf (pgLNK port) LNK_CTL.RESTORE) 4 true fun t =>
    if t.portDisabled port then t else (t.setCap port (t.getF (pgLNK port) LNK_CFG.MAXRATE)).retrainSame port).done

/-- LNK_DISABLE_SET (R249, R262, R293). -/
def execLnkDisableSet (who : Requester) (port : Nat) (s : State) : Res :=
  (s.withAccess who (State.offOf (pgLNK port) LNK_CTL.DISABLE) 4 true fun t => t.setDisable port true).done

/-- LNK_DISABLE_CLEAR (R249): the port trains from Detect, unless it has no usable lane (R256). -/
def execLnkDisableClear (who : Requester) (port : Nat) (s : State) : Res :=
  (s.withAccess who (State.offOf (pgLNK port) LNK_CTL.DISABLE) 4 true fun t => t.setDisable port false).done

/-- PORT_RECOVERY_ENTRY (R247, R292): the link partner or the physical layer starts Recovery. -/
def execPortRecoveryEntry (port : Nat) (s : State) : Res :=
  if decide (64 ≤ port) || s.isFfl port then (if port < 66 then (s.enterRetrain port).done else s.done)
  else if s.portEn port && (s.inL0 port || s.linkState port == 6) then (s.leaveL0 port).done else s.done

/-- PORT_L0_ENTRY (R247, R255, R257, R260). -/
def execPortL0Entry (port rate width : Nat) (low cxl rev : Bool) (failed : List Nat) (s : State) : Res :=
  if port < 66 then (s.l0Entry port rate width low cxl rev failed).done else s.done

/-- DERATE_WINDOW_END (R257): a 1 ms window of a port ends, at a multiple of 1 ms of fabric time (DESIGN CHOICE, log 38), once. -/
def execDerateWindowEnd (port : Nat) (s : State) : Res :=
  if !s.portEn port || !s.flag (pgLNK port) LNK_DERATE.AUTO || s.fabric % 1000000 != 0 || (s.port port).winAt == some s.fabric then s.done
  else
    let above := decide (s.getF (pgLNK port) LNK_DERATE.THR < (s.port port).errs)
    let n := if above then (s.port port).winOver + 1 else 0
    let s1 := s.modPort port fun x => { x with errs := 0, winOver := n, winAt := some s.fabric }
    let rate := s.getF (pgLNK port) LNK_STS.RATE
    if s.getF (pgLNK port) LNK_DERATE.WINS ≤ n ∧ 0 < rate then
      ((s1.modPort port fun x => { x with winOver := 0 }).derate port (min (s.getF (pgLNK port) LNK_DERATE.CAP - 1) (rate - 1)) false).done
    else s1.done

/-- DL_DOWN (R262): the data link layer of a PCIe port reports DL_Down. -/
def execDlDown (port : Nat) (s : State) : Res :=
  if !s.portEn port || s.isFfl port then s.done
  else (s.linkDown port (s.restState port) 0 false).done

/-- LOCK_LOSS_TIMEOUT (R262): every lane of a PCIe link has lacked lock for LINK_DOWN_T. -/
def execLockLossTimeout (port : Nat) (s : State) : Res :=
  match (s.port port).lockLost with
  | none => s.done
  | some t0 =>
    if s.portEn port && !s.isFfl port && decide (t0 + 1000 * s.getF (pgLNK port) LNK_DOWN_T.US ≤ s.ticks) then
      (s.linkDown port (s.restState port) 0 false).done
    else s.done

/-- LINK_DOWN_CLEANUP_DONE (R263, R266): the actions of Table 7.13 are complete. -/
def execLinkDownCleanupDone (port : Nat) (s : State) : Res :=
  if s.portEn port && !s.isFfl port && (s.port port).cleanup then (s.cleanupDone port []).done else s.done

/-- DPC_TRIGGER (R265): a downstream port enters DPC and takes the actions of Table 7.13. -/
def execDpcTrigger (port : Nat) (s : State) : Res :=
  if !s.isDown port || (s.port port).dpc || (s.port port).noLanes || s.portDisabled port then s.done else (s.dpcEnter port).done

/-- DPC_EXIT (R265): the port trains again from Detect. -/
def execDpcExit (port : Nat) (s : State) : Res :=
  if (s.port port).dpc then
    let s1 := s.modPort port fun x => { x with dpc := false }
    (s1.setF (pgLNK port) LNK_STS.STATE (s1.restState port)).done
  else s.done

/-- HOT_RESET_RECEIVED (R628): an upstream port receives Hot Reset in training. -/
def execHotResetReceived (port : Nat) (s : State) : Res :=
  if s.isUp port then (s.partHotReset (s.portPart port)).done else s.done

/-- SECONDARY_BUS_RESET (R628): Secondary Bus Reset is set in the upstream virtual bridge of a partition. -/
def execSecondaryBusReset (part : Nat) (s : State) : Res := (s.partHotReset part).done

end Sys2Proof.Machine
end

