-- ==== Sys2Proof/Machine/Ffl.lean ====
section
/-! DEFINITION. The link layer of FFL and mirror ports (R278 to R294, Table 14.2): receiver and sender rules, control messages,
training, credit, link requests and timers. -/

namespace Sys2Proof.Machine

/-- The messages of a list that go into `room` bytes, each that still fits, and those that stay (R280). -/
def fitMsgs : Nat → List (CtrlMsg × Nat) → List (CtrlMsg × Nat) × List (CtrlMsg × Nat)
  | _, [] => ([], [])
  | room, m :: r =>
    let n := (ctrlBytes m.1).length
    if n ≤ room then ((m :: (fitMsgs (room - n) r).1), (fitMsgs (room - n) r).2)
    else ((fitMsgs room r).1, m :: (fitMsgs room r).2)

/-- The message is a NAK. -/
def isNak (m : CtrlMsg) : Bool :=
  match m with
  | .nak _ => true
  | .credit _ _ _ | .hello _ _ _ _ _ _ _ | .linkReq _ _ _ | .linkGo _ _ | .timeReq _ | .timeRsp _ _ _ | .swapTick _ _ _ _
  | .role _ _ _ _ _ | .armReport _ _ | .yield _ | .resync _ | .mctp _ => false

/-- The message is a LINKGO. -/
def isGo (m : CtrlMsg) : Bool :=
  match m with
  | .linkGo _ _ => true
  | .credit _ _ _ | .nak _ | .hello _ _ _ _ _ _ _ | .linkReq _ _ _ | .timeReq _ | .timeRsp _ _ _ | .swapTick _ _ _ _
  | .role _ _ _ _ _ | .armReport _ _ | .yield _ | .resync _ | .mctp _ => false

/-- A time message takes its time as the flit leaves (R281). -/
def stampMsg (now : Nat) (m : CtrlMsg) : CtrlMsg :=
  match m with
  | .timeReq _ => .timeReq now
  | .timeRsp a b _ => .timeRsp a b now
  | .credit a b c => .credit a b c
  | .nak a => .nak a
  | .hello a b c d e f g => .hello a b c d e f g
  | .linkReq a b c => .linkReq a b c
  | .linkGo a b => .linkGo a b
  | .swapTick a b c d => .swapTick a b c d
  | .role a b c d e => .role a b c d e
  | .armReport a b => .armReport a b
  | .yield a => .yield a
  | .resync a => .resync a
  | .mctp a => .mctp a

/-- Device port number that a HELLO carries, and the words of the link's identity. -/
def helloPort (p : Nat) : Nat := p % 64

namespace State

/-- ACK field of a flit that leaves now (R288): one below the next number expected, as it stood at the end of the tick before. -/
def ackField (s : State) (p : Nat) : Nat :=
  let x := s.fflSt p
  seqSub (match x.erWas with
    | some (t, n) => if t = s.fabric then n else x.er
    | none => x.er) 1

/-- The 256 bytes of a flit that leaves now (Table 8.1). -/
def emitFlit (s : State) (p kind : Nat) (sop eop null : Bool) (seq : Nat) (payload : List Byte) : State :=
  s.emit (.flit p (flitBytes (s.linkWidth p) kind sop eop null seq (s.ackField p) payload))

/-- Sequence numbers sent and not acknowledged: NS − U. -/
def inFlight (s : State) (p : Nat) : Nat := seqSub (s.fflSt p).ns (s.fflSt p).unack

/-- The message is a NAK that was decided in the present tick: it is pending from the next one on (R288). -/
def freshNak (s : State) (p : Nat) (m : CtrlMsg) : Bool :=
  match m with
  | .nak q => (s.fflSt p).nakNew.1 == s.fabric && (s.fflSt p).nakNew.2.contains q
  | .credit _ _ _ | .hello _ _ _ _ _ _ _ | .linkReq _ _ _ | .linkGo _ _ | .timeReq _ | .timeRsp _ _ _ | .swapTick _ _ _ _
  | .role _ _ _ _ _ | .armReport _ _ | .yield _ | .resync _ | .mctp _ => false

/-- A CTRL flit leaves with every pending message that fits and a CREDIT message (R280). A message that goes in several CTRL flits stays
until it has gone in all of them (R282), and what stays makes the next one pending. A LINKGO that has left takes the port into RETRAIN (R291). -/
def sendCtrl (s : State) (p : Nat) : State :=
  let x := s.fflSt p
  let (go, left) := fitMsgs 226 (x.ctrl.filter fun m => !s.freshNak p m.1)
  let rest := (go.filterMap fun m => if 1 < m.2 then some (m.1, m.2 - 1) else none) ++ left ++ x.ctrl.filter fun m => s.freshNak p m.1
  let msgs := (go.map fun m => stampMsg s.fabric m.1) ++ [CtrlMsg.credit x.ownP x.ownNP x.ownCPL]
  let s1 := s.modFfl p fun y => { y with ctrl := rest, ctrlAt := s.ticks, lastP := y.ownP, lastNP := y.ownNP, lastCPL := y.ownCPL }
  let s2 := (s1.addL p FFL_CNT0.NAK_TX (go.filter fun m => isNak m.1).length).emit (.ctrl p x.ns (s.ackField p) msgs)
  let s3 := (s2.emitFlit p 2 false false false x.ns (msgs.flatMap ctrlBytes)).onlyIf (!rest.isEmpty) fun t => t.upkeepDue p
  s3.onlyIf (go.any fun m => isGo m.1) fun t => t.enterRetrain p

/-- A grant has risen by 16 cells or more since the last CREDIT (R280). -/
def creditDue (s : State) (p : Nat) : Bool :=
  let x := s.fflSt p
  let up := fun (a b : Nat) => decide (16 ≤ (a + 65536 - b % 65536) % 65536)
  up x.ownP x.lastP || up x.ownNP x.lastNP || up x.ownCPL x.lastCPL

/-- Ingress buffer space of a class of an FFL port is freed: its grant rises (R290). -/
def grantCells (s : State) (p cls n : Nat) : State :=
  let s1 := s.modFfl p fun x =>
    if cls = 0 then { x with ownP := (x.ownP + n) % 65536 }
    else if cls = 1 then { x with ownNP := (x.ownNP + n) % 65536 }
    else { x with ownCPL := (x.ownCPL + n) % 65536 }
  s1.onlyIf (s1.creditDue p) fun t => t.upkeepDue p

/-- Index of a policer in its page. -/
def polIx (p c : Nat) : Nat := 2 * (p % 8) + c

/-- Page of a port's policers. -/
def polPage (p : Nat) : Nat := pgQSH (cellarOf p) (p % 16)

/-- Bucket of a policer in 2^−16 cells. -/
def polTok (s : State) (p c : Nat) : Int := toInt32 (s.getF (polPage p) QSH_PTOK.TOKENS (polIx p c))

/-- Cells accepted at the ingress lanes are debited (R227). -/
def polDebit (s : State) (p c n : Nat) : State :=
  if 1 < c ∨ 64 ≤ p ∨ s.flag (polPage p) QSH_PRATE.EN (polIx p c) = false then s
  else
    let v := max (s.polTok p c - 65536 * n) (-(65536 * (s.allotOf p c : Int)))
    s.setF (polPage p) QSH_PTOK.TOKENS (ofInt32 v) (polIx p c)

/-- A cell of an FFL port is accepted (R227, R289): its policer is debited in the tick of its acceptance. Its TC is known with its packet, and the 8 that
stands for it here keeps it from being counted before. -/
def acceptCell (s : State) (p cls a : Nat) : State :=
  if a ≤ s.fabric then s.polDebit p cls 1 else { s with edge := { s.edge with debits := s.edge.debits ++ [(a, p, cls, 8)] } }

/-- Ingress cells of an FFL port that a nullified packet took are free: granted again, or held by the port's policer to the end of the tick (R228,
R290). -/
def freeNull (s : State) (p cls n : Nat) : State :=
  if 64 ≤ p then s
  else if cls < 2 ∧ s.flag (polPage p) QSH_PRATE.EN (polIx p cls) = true then
    { s with edge := { s.edge with freed := s.edge.freed ++ [(p, cls, n, 1, 0)] } }
  else s.grantCells p cls n

/-! ## Receiver (Table 8.7) -/

/-- A protocol error: FFL_PROTO and RETRAIN (R278, R286, R287), in whatever state the flit comes. -/
def protoErr (s : State) (p : Nat) : State := (s.fireL p 4).enterRetrain p

/-- Acceptance tick of the next cell that leaves the link layer (R289): two cells in a flit period at most. -/
def leaveCell (s : State) (p : Nat) : State × Nat :=
  let x := s.fflSt p
  let f := if p < 64 then max 1 (s.fper p) else 1
  let r := max s.fabric x.outAt
  let n := if r = x.outAt then x.outN else 0
  let (r', n') := if 2 ≤ n then (r + f, 1) else (r, n + 1)
  (s.modFfl p fun y => { y with outAt := r', outN := n' }, r' - 3)

/-- A cell is taken in order (R287, R289); a packet that ends nullified is discarded (R115, R290). -/
def takeCell (s : State) (p : Nat) (h : HeldFlit) : State :=
  let (s1, acc) := s.leaveCell p
  let x := s1.fflSt p
  let asm := (if h.sop then [] else x.asm) ++ [acc]
  let cls := if h.sop then cellClass h.cell else x.asmCls
  let was := match x.erWas with
    | some (t, n) => if t = s.fabric then some (t, n) else some (s.fabric, x.er)
    | none => some (s.fabric, x.er)
  let s2 := (s1.acceptCell p cls acc).modFfl p fun y =>
    { y with er := (y.er + 1) % 4096, erWas := was, naked := y.naked.filter (· != h.seq), asm := if h.eop then [] else asm, asmCls := cls,
             whole := if h.eop && !h.null && decide (p < 64) then y.whole ++ [asm] else y.whole }
  s2.onlyIf (h.eop && h.null) fun t => t.freeNull p cls asm.length

/-- Flits held from ER onwards in unbroken order are taken. -/
def takeHeld (s : State) (p : Nat) : Nat → State
  | 0 => s
  | n + 1 =>
    match (s.fflSt p).hold.find? fun h => h.seq == (s.fflSt p).er with
    | none => s
    | some h => ((s.modFfl p fun x => { x with hold := x.hold.filter (·.seq != h.seq) }).takeCell p h).takeHeld p n

/-- NAKs are decided for the numbers from ER on that are neither held nor already NAKed (R287), and pending from the next tick on (R288). -/
def nakGaps (s : State) (p n : Nat) : State :=
  s.each ((List.range n).map fun i => ((s.fflSt p).er + i) % 4096) fun t q =>
    let x := t.fflSt p
    if x.naked.contains q || x.hold.any (·.seq == q) then t
    else
      let fresh := (s.fabric, if x.nakNew.1 = s.fabric then x.nakNew.2 ++ [q] else [q])
      (t.modFfl p fun y => { y with naked := y.naked ++ [q], ctrl := y.ctrl ++ [(.nak q, 1)], nakNew := fresh }).upkeepFrom p (s.fabric + 1)

/-- The records of freed copies are acknowledged: covered writes of MIR_PSYNC may be performed (R497). -/
def mirAcked (s : State) (gone : List FlitCopy) : State :=
  let grps := gone.filterMap fun c => if c.eop then (c.body.map fun (r : MirRec) => r.grp) else none
  { s with mir := { s.mir with unacked := s.mir.unacked.filter fun g => !grps.contains g } }

/-- An ACK field is decided (Table 8.6). -/
def ackRule (s : State) (p a : Nat) : State :=
  let x := s.fflSt p
  let d := seqSub (a + 1) x.unack
  let fl := s.inFlight p
  if 1 ≤ d ∧ d ≤ fl then
    let gone := x.replay.filter fun c => decide (seqSub c.seq x.unack < d)
    let s1 := s.modFfl p fun y => { y with replay := y.replay.filter (fun c => !decide (seqSub c.seq x.unack < d)), unack := (a + 1) % 4096,
                                           replayNum := 0, timer := if d = fl then none else some s.ticks,
                                           resend := y.resend.filter fun q => !decide (seqSub q x.unack < d) }
    let s2 := s1.modPort p fun y => { y with repair := ((y.repair.zip x.resend).filter fun e => !decide (seqSub e.2 x.unack < d)).map (·.1) }
    s2.mirAcked gone
  else if fl < d ∧ d ≤ 2048 then s.protoErr p
  else s

/-- Lane of a port that carries lane `k` of its link: counted from the other end where the link is reversed (R255). -/
def linkLane (s : State) (p k : Nat) : Nat :=
  if (if 64 ≤ p then (s.fflSt p).rev else s.flag (pgLNK p) LNK_STS.REVERSED) then s.portWidth p - 1 - k else k

/-- Charge the lanes whose parity mismatches in a flit that failed its CRC (R277, Table 7.7); with none the error counts towards derate
(R257). -/
def crcLanes (s : State) (p : Nat) (lanes : List Nat) : State :=
  let ok := (lanes.filter fun k => decide (k < s.portWidth p)).map (s.linkLane p)
  if ok.isEmpty then
    (if p < 64 ∧ s.flag (pgLNK p) LNK_DERATE.AUTO then s.modPort p fun x => { x with errs := x.errs + 1 } else s)
  else s.each ok fun t k => if t.laneRetired (t.laneOf p k) then t else t.laneCharge p k 8

/-- A flit is decided (R276 to R279, R287, Table 8.7); its bytes are those after FEC. -/
def flitDecide (s : State) (p : Nat) (f : List Byte) : State :=
  if !flitGood f then ((s.fireL p 0).addL p FFL_CNT0.CRC_BAD).crcLanes p (flitBadLanes (s.linkWidth p) f)
  else if 2 < flitKind f then s.protoErr p
  else
    let unlisted := flitKind f == 2 && ctrlUnknown (decide (64 ≤ p)) (flitPayload f)
    let s1 := (s.onlyIf unlisted fun t => t.fireL p 5).ackRule p (flitAck f)
    let x := s1.fflSt p
    let d := seqSub (flitSeq f) x.er
    if flitKind f = 1 then
      let h : HeldFlit := { seq := flitSeq f, sop := flitSop f, eop := flitEop f, null := flitNull f, cell := flitPayload f }
      if d = 0 then (s1.takeCell p h).takeHeld p 512
      else if d ≤ 511 then
        let s2 := if x.hold.any (·.seq == flitSeq f) then s1 else s1.modFfl p fun y => { y with hold := y.hold ++ [h] }
        s2.nakGaps p d
      else if 3584 ≤ d then s1.addL p FFL_CNT2.DUP
      else s1.protoErr p
    else if d ≤ 512 then s1.nakGaps p d
    else s1.protoErr p

/-- The link layer receives flits: in HELLO, INIT and ACTIVE (Table 8.5). -/
def fflReceives (s : State) (p : Nat) : Bool :=
  (decide (64 ≤ p ∧ p < 66) || s.isFfl p) && (s.lkState p == 1 || s.lkState p == 2 || s.lkState p == 3)

/-! ## Training (R283 to R285) -/

/-- A HELLO phase fails: the physical layer goes to Recovery and HELLO starts again (R285). -/
def helloFail (s : State) (p : Nat) : State :=
  let s1 := (s.fireL p 3).modFfl p fun x => { x with gotHello := false, gotEcho := false, sentEcho := false, phaseAt := s.ticks }
  if p < 64 then (s1.setF (pgLNK p) LNK_STS.STATE 5).setFlag (pgLNK p) LNK_STS.UP false else s1

/-- Entry to INIT (R284): sequence state from 0, grants from the allotment. A mirror port's grant is counted in flits, and the spec does not
say how many it starts with: a free value. -/
def fflInit (s : State) (p : Nat) : State :=
  let w := (s.fflSt p).width
  if p < 64 then
    ((s.setL p FFL_STS.STATE 2).modFfl p fun x =>
      { FflSt.init with width := w, ownP := s.allotOf p 0 % 65536, ownNP := s.allotOf p 1 % 65536, ownCPL := s.allotOf p 2 % 65536,
                        ctrl := x.ctrl, want := x.want, ctrlAt := s.ticks }).sendCtrl p
  else
    let (n, s1) := s.draw
    ((s1.setL p FFL_STS.STATE 2).modFfl p fun x =>
      { FflSt.init with width := w, ownP := n % 65536, ctrl := x.ctrl, want := x.want, ctrlAt := s.ticks }).sendCtrl p

/-- Leave HELLO when a HELLO with ECHO has gone both ways (R283). -/
def helloExit (s : State) (p : Nat) : State :=
  let x := s.fflSt p
  if x.gotEcho && x.sentEcho then (if x.fromRetrain then s.fflActive p else s.fflInit p) else s

/-- The HELLO passes the acceptance test (R285, Table 14.2). -/
def helloAccepts (s : State) (p fdid ident : Nat) : Bool :=
  let me := s.getF pgFWD FWD_CTL.FDID
  if p < 64 then fdid != me else fdid == me && ident == s.getF pgMIR MIR_PARTNER.IDENT

/-- A HELLO arrives (R283, R285, R293, R510). -/
def helloArrives (s : State) (p fdid port ident : Nat) (echo : Bool) : State :=
  if !s.helloAccepts p fdid ident then
    (if p < 64 then s.helloFail p
     else (s.setF pgMIR MIR_STS.PSTATE (if s.mirPorts.isEmpty then 3 else s.getF pgMIR MIR_STS.PSTATE)).fire pgMIR 2)
  else
    let changed := (s.fflSt p).fromRetrain && (decide (s.getL p FFL_PEER.FDID ≠ fdid) || decide (s.getL p FFL_PEER_ID.IDENT ≠ ident))
    let s1 := (((s.setL p FFL_PEER.VALID 1).setL p FFL_PEER.FDID fdid).setL p FFL_PEER.PORT port).setL p FFL_PEER_ID.IDENT ident
    if changed then s1.linkDown p 0 2 false
    else (s1.modFfl p fun x => { x with gotHello := true, gotEcho := x.gotEcho || echo }).helloExit p

/-- IDENT of this device: the first 8 B of the hash of its identity certificate (Table 8.4). -/
def myIdent (s : State) : Nat := leNat ((leBytes 48 s.trust.certHash).take 8)

/-- TIME_FOLLOW of a port: FFL_CFG, or on a mirror port whether this 9160 seeks or stands by (Table 14.2). -/
def timeFollow (s : State) (p : Nat) : Bool :=
  if p < 64 then s.flag (pgFFL p) FFL_CFG.TIME_FOLLOW
  else s.getF pgMIR MIR_STS.ROLE == 1 || s.getF pgMIR MIR_STS.ROLE == 3

/-- A CTRL flit with HELLO leaves (R283). -/
def sendHello (s : State) (p : Nat) : State :=
  let echo := (s.fflSt p).gotHello
  let dsp := if p < 64 then s.flag (pgFFL p) FFL_CFG.PHY_DSP else s.getF pgMIR MIR_CFG.SEAT == 0
  let m := CtrlMsg.hello (s.getF pgFWD FWD_CTL.FDID) (helloPort p) dsp (s.timeFollow p) echo (s.linkWidth p) s.myIdent
  let s1 := s.modFfl p fun x => { x with helloAt := s.ticks + 1000, sentEcho := x.sentEcho || echo, ctrl := (m, 1) :: x.ctrl }
  (s1.sendCtrl p).helloExit p

/-! ## Link requests (R291, R292) -/

/-- This end leads when both have a request outstanding: the lower FDID, or seat A of a pair, whose members share their FDID. -/
def leads (s : State) (p : Nat) : Bool :=
  if p < 64 then decide (s.getF pgFWD FWD_CTL.FDID < s.getL p FFL_PEER.FDID) else s.getF pgMIR MIR_CFG.SEAT == 0

/-- Answer a LINKREQ with LINKGO (R291, R292); RETRAIN comes as the LINKGO leaves. -/
def grantLink (s : State) (p width tag : Nat) : State :=
  if s.widest p = 0 then s.noLanes p
  else
    let w := min width (s.widest p)
    (s.modFfl p fun x => { x with granted := some w, ctrl := x.ctrl.filter fun m => !isGo m.1 }).ctrlAdd p (.linkGo w tag)

/-- A LINKREQ arrives (R291, R292). -/
def linkReqArrives (s : State) (p width tag : Nat) : State :=
  match (s.fflSt p).req with
  | none => s.grantLink p width tag
  | some (own, _, _) =>
    if s.leads p then s
    else ((s.modFfl p fun x => { x with req := none }).setL p FFL_STS.REQ_PEND 0).grantLink p (min own width) tag

/-- A port enters RETRAIN for its own request at a width that was granted, or that it asked for (R291, R292). -/
def retrainAt (s : State) (p width : Nat) : State := (s.modFfl p fun x => { x with granted := some width }).enterRetrain p

/-- Resend the oldest unacknowledged flit, or give up (Table 8.6). -/
def replayExpire (s : State) (p : Nat) : State :=
  let s1 := s.addL p FFL_CNT2.TIMER
  let n := (s.fflSt p).replayNum + 1
  if s.getL p FFL_TMR.REPLAY_MAX < n then ((s1.modFfl p fun x => { x with replayNum := n }).fireL p 1).enterRetrain p
  else
    let u := (s.fflSt p).unack
    let again := (s.fflSt p).resend.contains u
    let s2 := s1.modFfl p fun x => { x with replayNum := n, timer := some s.ticks, resend := if again then x.resend else x.resend ++ [u] }
    if again then s2 else s2.replayDue p

/-- A port with a link layer. -/
def hasLink (s : State) (p : Nat) : Bool := decide (64 ≤ p ∧ p < 66) || (decide (p < 64) && s.isFfl p)

/-- The port's link layer is ACTIVE. -/
def linkActive (s : State) (p : Nat) : Bool := s.hasLink p && s.lkState p == 3

end State

/-! ## Commands -/

/-- FFL_FLIT_DECIDE (R287). -/
def execFflFlitDecide (port : Nat) (flit : List Byte) (s : State) : Res :=
  let s1 := if port = 64 ∨ port = 65 then { s with mir := { s.mir with dihus := some s.ticks, handled := false } } else s
  if s1.fflReceives port then (s1.flitDecide port flit).done else s1.done

/-- FFL_CREDIT_RECEIVE (R290): the peer's grants; INIT ends (Table 8.5). -/
def execFflCreditReceive (port p np cpl : Nat) (s : State) : Res :=
  if !s.hasLink port || s.lkState port == 0 then s.done
  else
    let s1 := s.modFfl port fun x => { x with grantP := p, grantNP := np, grantCPL := cpl }
    if s.lkState port = 2 then (s1.fflActive port).done else s1.done

/-- FFL_NAK_RECEIVE (R286); the resend is pending from the next tick (R288). -/
def execFflNakReceive (port seq : Nat) (s : State) : Res :=
  let x := s.fflSt port
  if !s.linkActive port || decide (s.inFlight port ≤ seqSub seq x.unack) then s.done
  else
    let s1 := s.addL port FFL_CNT1.NAK_RX
    if x.resend.contains seq then s1.done
    else ((s1.modFfl port fun y => { y with resend := y.resend ++ [seq] }).replayAt port (s.fabric + 1)).done

/-- FFL_HELLO_RECEIVE (R283, R285). -/
def execFflHelloReceive (port fdid peerPort : Nat) (echo : Bool) (_width ident : Nat) (s : State) : Res :=
  if s.hasLink port && s.lkState port == 1 then (s.helloArrives port fdid peerPort ident echo).done else s.done

/-- FFL_LINKREQ_RECEIVE (R291, R292). -/
def execFflLinkreqReceive (port width tag : Nat) (s : State) : Res :=
  if s.linkActive port then (s.linkReqArrives port width tag).done else s.done

/-- FFL_LINKGO_RECEIVE (R291): the answer to this end's request. -/
def execFflLinkgoReceive (port width tag : Nat) (s : State) : Res :=
  match (s.fflSt port).req with
  | none => s.done
  | some (_, _, t) => if s.linkActive port && t == tag then (s.retrainAt port width).done else s.done

/-- FFL_TIME_REQ_RECEIVE (R281): T2 is the first-bit arrival time, the acceptance tick − F + 1. -/
def execFflTimeReqReceive (port t1 acc : Nat) (s : State) : Res :=
  if s.linkActive port then (s.ctrlAdd port (.timeRsp t1 (acc + 1 - (if port < 64 then s.fper port else 1)) 0)).done else s.done

/-- FFL_TIME_RSP_RECEIVE (R281, R614): offset and path delay of the exchange; fabric time takes the offset of the port that it follows. -/
def execFflTimeRspReceive (port t1 t2 t3 acc : Nat) (s : State) : Res :=
  let t4 := acc + 1 - (if port < 64 then s.fper port else 1)
  let off : Int := (((t2 : Int) - t1) - ((t4 : Int) - t3)).tdiv 2
  let delay : Int := (((t4 : Int) - t1) - ((t3 : Int) - t2)).tdiv 2
  let follows := if port < 64 then !s.standby && s.getF pgCLK CLK_TSRC.MODE == 2 && s.getF pgCLK CLK_TSRC.PORT == port else s.standby
  if s.linkActive port && s.timeFollow port then
    let s1 := s.modFfl port fun x => { x with timeOff := some (off, delay) }
    (if follows then ({ s1 with timeSample := some off } : State) else s1).done
  else s.done

/-- FFL_SWAPTICK_RECEIVE (R204, R282): the first copy may replace this end's tick for the same event. -/
def execFflSwaptickReceive (port tick vintage _cls peerPort : Nat) (s : State) : Res :=
  if !s.linkActive port || (s.fflSt port).swapSeen.contains (vintage, tick) then s.done
  else
    let s1 := s.modFfl port fun x => { x with swapSeen := x.swapSeen ++ [(vintage, tick)] }
    match s.sched.fb with
    | none => s1.done
    | some f =>
      if (f.evs.any fun e => e.2 == port) = true ∧ s.getF (pgFFL port) FFL_PEER.PORT = peerPort ∧ s.leads port = false ∧ s.fabric + 20000 ≤ tick then
        ({ s1 with sched := { s1.sched with fb := some { f with tick := tick } } } : State).setF pgDEVSCH SCH_FB_T.TIME tick |>.done
      else s1.done

/-- FFL_MCTP_RECEIVE (R564, R44): the management complex answers with what its firmware makes of it. -/
def execFflMctpReceive (port : Nat) (body : List Byte) (s : State) : Res :=
  if s.linkActive port && s.mgmtUp then (s.ctrlAdd port (.mctp (Config.firmwareReply body))).done else s.done

/-- FFL_REPLAY_TIMEOUT (R286). -/
def execFflReplayTimeout (port : Nat) (s : State) : Res :=
  match (s.fflSt port).timer with
  | none => s.done
  | some t0 =>
    if s.linkActive port && decide (t0 + 16 * s.getL port FFL_TMR.REPLAY_T ≤ s.ticks) then (s.replayExpire port).done else s.done

/-- FFL_HELLO_INTERVAL (R283): every 1 µs in HELLO, while the physical layer is up. -/
def execFflHelloInterval (port : Nat) (s : State) : Res :=
  if s.hasLink port && s.lkState port == 1 && decide ((s.fflSt port).helloAt ≤ s.ticks)
    && (decide (64 ≤ port) || s.linkState port == 3) then (s.sendHello port).done else s.done

/-- FFL_HELLO_TIMEOUT (R285): no HELLO within 1 ms. -/
def execFflHelloTimeout (port : Nat) (s : State) : Res :=
  if s.hasLink port && s.lkState port == 1 && !(s.fflSt port).gotHello && decide ((s.fflSt port).phaseAt + 1000000 ≤ s.ticks) then
    (s.helloFail port).done
  else s.done

/-- FFL_UPKEEP_TIMER (R280): UPKEEP_INT since the last CTRL flit; in INIT the flit leaves at once. -/
def execFflUpkeepTimer (port : Nat) (s : State) : Res :=
  if !s.hasLink port || decide (s.ticks < (s.fflSt port).ctrlAt + 64 * s.getL port FFL_TMR2.UPKEEP_INT) then s.done
  else if s.lkState port = 3 then (s.upkeepDue port).done
  else if s.lkState port = 2 then (s.sendCtrl port).done
  else s.done

/-- FFL_TIME_INT_TIMER (R281). -/
def execFflTimeIntTimer (port : Nat) (s : State) : Res :=
  if s.linkActive port && s.timeFollow port && decide ((s.fflSt port).timeAt + 10000 * s.getL port FFL_TMR2.TIME_INT ≤ s.ticks) then
    ((s.modFfl port fun x => { x with timeAt := s.ticks }).ctrlAdd port (.timeReq 0)).done
  else s.done

/-- FFL_LINKREQ_TIMEOUT (R292): no LINKGO in 10 µs, so the port retrains alone at the width it asked for. -/
def execFflLinkreqTimeout (port : Nat) (s : State) : Res :=
  match (s.fflSt port).req with
  | none => s.done
  | some (width, _, _) =>
    if s.linkActive port && decide ((s.fflSt port).reqAt + 10000 ≤ s.ticks) then (s.retrainAt port width).done else s.done

/-- FFL_REQ_CMD (R291, Table 8.19). -/
def execFflReqCmd (who : Requester) (port : Nat) (width : Nat) (s : State) : Res :=
  (s.withAccess who (State.offOf (lkPage port) (lkRef port FFL_CTL.REQ)) 4 true fun t =>
    let ok := if port < 64 then [4, 8, 16].contains width else [1, 2, 4].contains width
    if t.linkActive port && ok && (t.fflSt port).req.isNone then t.fflRequest port width 0 else t).done

/-- FFL_LOCK_LOSS_TIMEOUT (R293). -/
def execFflLockLossTimeout (port : Nat) (s : State) : Res :=
  match (s.port port).lockLost with
  | none => s.done
  | some t0 =>
    if s.hasLink port && decide (t0 + 1000 * s.getL port FFL_DOWN_T.US ≤ s.ticks) then
      (s.linkDown port (s.restState port) 0 false).done
    else s.done

/-- FFL_LINK_DOWN_CLEANUP_DONE (R294). -/
def execFflLinkDownCleanupDone (d : LinkCleanup) (s : State) : Res :=
  if s.hasLink d.port && (s.port d.port).cleanup then (s.cleanupDone d.port d.unread).done else s.done

end Sys2Proof.Machine
end

