-- ==== Sys2Proof/Machine/Egress.lean ====
section
/-! DEFINITION. Egress: depth and SRAM of queues (R116 to R121, R230), containment of poisoned packets (R470), the service of owned periods
(R144), repair items (R151 to R157), best-effort fill (R158, R217 to R222), slot accounts (R598, R599). -/

namespace Sys2Proof.Machine

/-- The packet is a DMWr that carries a posted write (R362). -/
def isNpw (o : Owner) : Bool :=
  match o with
  | .npw _ => true
  | .requester | .split _ | .prefetch _ | .fabric _ | .dma _ _ _ | .dmaList _ _ _ | .load _ => false

namespace State

/-! ## Occupancy -/

/-- Spilled cells of a queue, placed or reserved in the spill region (R121). -/
def spillOf (s : State) (q : Nat) : Nat := ((s.inQueue q).map fun k => if k.spill then k.spilled else 0).sum

/-- Copies in the packet's Cellar of the multicast write that it is a copy of; any other packet is its own only copy (R106). -/
def sharers (s : State) (k : Packet) : List Packet :=
  match k.route with
  | .mcast _ => s.packets.filter fun x => x.group == k.group && x.place == Place.egress && x.queue / 128 == k.queue / 128
  | .port _ | .shared _ | .fabric _ | .bar _ _ _ | .vfBar _ _ _ | .none => [k]

/-- Cells of replay copies whose packet has left its queue and which are not in HBM yet keep their SRAM (R297). -/
def replaySram (s : State) (q : Nat) : Nat :=
  (s.tx.map fun e => ((e.2.unacked.filter fun y => !y.written && y.pkt.queue == q && (s.packet? y.pkt.id).isNone
    && (s.sharers y.pkt).all (·.id == y.pkt.id)).map (·.pkt.ncell)).sum).sum

/-- The packet's replay copy is neither in HBM nor acknowledged (R297). -/
def unwritten (s : State) (k : Packet) : Bool :=
  s.tx.any fun e => e.2.unacked.any fun y => !y.written && y.pkt.id == k.id

/-- An earlier copy of the same multicast write stands in the same Cellar, whose SRAM holds the write once (R106). The write's cells count in the queue
of the first listed copy (DESIGN CHOICE, log 76). -/
def sharesCells (s : State) (k : Packet) : Bool := ((s.sharers k).head?.any fun x => x.id != k.id)

/-- Cells of a packet that its port still needs in SRAM; those of a packet whose replay copy is not in HBM stay as they leave (R297). -/
def cellsNeeded (s : State) (k : Packet) : Nat := k.ncell - (if s.unwritten k then 0 else k.left) - (if k.spill then k.spilled else 0)

/-- SRAM cells of a queue, held or reserved (R112, R118); a multicast write keeps its cells until its last port of the Cellar has sent them (R106). -/
def sramOf (s : State) (q : Nat) : Nat :=
  (((s.inQueue q).filter fun k => !s.sharesCells k).map fun k => ((s.sharers k).map s.cellsNeeded).foldl max 0).sum + s.replaySram q

/-- Guaranteed and largest cells of a queue (Table 3.13). -/
def qMin (s : State) (q : Nat) : Nat := 16 * s.getF (pgBUF (q / 128)) BUF_QLIM.MIN (q % 128)
def qMax (s : State) (q : Nat) : Nat := 16 * s.getF (pgBUF (q / 128)) BUF_QLIM.MAX (q % 128)

/-- Queues of a Cellar. -/
def cellarQueues (c : Nat) : List Nat := (List.range 128).map (128 * c + ·)

/-- Power domain of an SRAM quarter is gated (R619). -/
def quarterGated (s : State) (c j : Nat) : Bool := bitAt (s.getF pgPWR PWR_STS.GATED ((42 + 9 * c + j) / 32)) ((42 + 9 * c + j) % 32)

/-- Egress pool of a Cellar in cells (R116, R619). -/
def egressPool (s : State) (c : Nat) : Nat :=
  98304 - 1024 * s.getF (pgBUF c) BUF_POOL.ING_K - 24576 * ((List.range 4).filter fun j => s.quarterGated c j).length

/-- Cells of the shared part and those in use (R118). -/
def sharedPool (s : State) (c : Nat) : Nat := s.egressPool c - ((cellarQueues c).map s.qMin).sum
def sharedUsed (s : State) (c : Nat) : Nat := ((cellarQueues c).map fun q => s.sramOf q - s.qMin q).sum

/-- A packet of `n` cells is admitted to SRAM (R118). -/
def sramAdmits (s : State) (q n : Nat) : Bool :=
  let have0 := s.sramOf q
  let extra := have0 + n - max have0 (s.qMin q)
  decide (have0 + n ≤ s.qMax q) && decide (s.sharedUsed (q / 128) + extra ≤ s.sharedPool (q / 128))

/-- The queue is in spill state: it holds spilled cells (R120, R122). -/
def spilling (s : State) (q : Nat) : Bool := decide (0 < s.spillOf q)

/-- Room in the spill region: its cap and its Cellar's quota (R121); answers the SPL source that would fire. -/
def spillRoom (s : State) (q n : Nat) : Option Nat :=
  let c := q / 128
  if 1024 * s.getF (pgBUF c) BUF_QSPILL.CAP (q % 128) < s.spillOf q + n then some 0
  else if min (2 ^ 20 * s.getF pgSPL SPL_QUOTA.UNITS c) (s.regionSize 0 / 256) < ((cellarQueues c).map s.spillOf).sum + n then some 1
  else none

/-! ## What leaves -/

/-- The last cell of a packet has left: it is gone from its queue, its sojourn and sample are noted; a PCIe port keeps it until its link
partner acknowledges it (R231, R332, R603). -/
def packetLeft (s : State) (p : Nat) (k : Packet) : State :=
  let soj := k.d1 - k.ordTick
  let pk := s.getF (qpg k.queue) QSH_DLYPEAK.NS (qix k.queue)
  let s1 := (s.dropPacket k.id).setF (qpg k.queue) QSH_DLYPEAK.NS (min 0xFFFFFFFF (max pk soj)) (qix k.queue)
  let s2 := if s.isFfl p then s1 else (s1.modPort p fun x => { x with sent := x.sent ++ [k] }).emit (.tlp p k.tlp)
  let s3 := match k.fab with
    | some h => if s.isFfl p then s2.emit (.fflPkt p h k.tlp) else s2
    | none => s2
  let s4 := match k.sample with
    | none => s3
    | some r => { s3 with trace := s3.trace.map fun (e : TraceRec) =>
        if e.id = r ∧ e.out.isNone then
          { e with out := some (0, k.d1, 0xFF), x1 := (k.entered[0]?).map reachHalf, sigma := s.slip p, spilled := k.spill,
                   mark := (match k.mark with
                     | .best => 0
                     | .inWin _ _ => 1
                     | .late => 2
                     | .excess => 3
                     | .displaced => 4
                     | .blocked => 5) }
        else e }
  s4.queueLeft k.queue

/-- A DATA flit leaves, first or as a resend, with the ACK of the present tick (R286, R288). -/
def emitData (s : State) (p : Nat) (c : FlitCopy) (resend : Bool) : State :=
  (s.emit (.fflData p c.seq (s.ackField p) c.sop c.eop c.null resend)).emitFlit p 1 c.sop c.eop c.null c.seq c.cell

/-- A new DATA flit of an FFL or mirror port (Table 8.6). -/
def sendData (s : State) (p : Nat) (pkt : Option Packet) (body : Option MirRec) (cell : List Byte) (sop eop null : Bool) : State :=
  let c : FlitCopy := { seq := (s.fflSt p).ns, pkt := pkt, body := body, sop := sop, eop := eop, null := null, cell := cell }
  (s.modFfl p fun y => { y with ns := (y.ns + 1) % 4096, replay := y.replay ++ [c], timer := some (y.timer.getD s.ticks) }).emitData p c false

/-- The flit period of a link layer's port carries an IDLE flit where nothing else has left it since `before` (Tables 8.1, 8.5). -/
def fillIdle (s before : State) (p : Nat) : State :=
  let sent := (s.out.take (s.out.length - before.out.length)).any fun o => match o with
    | .flit q _ => q == p
    | _ => false
  s.onlyIf (s.linkActive p && !sent) fun t => t.emitFlit p 0 false false false (t.fflSt p).ns []

/-- Cell `i` of a packet leaves in this period. -/
def sendCell (s : State) (p : Nat) (k : Packet) (i : Nat) : State :=
  let lastOne := decide (k.ncell ≤ i + 1)
  let k' := { k with left := i + 1, d1 := if i = 0 then s.fabric else k.d1 }
  let s0 := s.modPort p fun x => { x with wire := some k.queue, swapSteal := x.swapSteal && decide (i ≠ 0) }
  let s1 := (s0.modPacket k.id fun _ => k').count (cellarOf p) 3 (localPort p) (k.queue % 8) 1
  let s2 := if s.isFfl p then s1.sendData p (some k') none (packetCell k' i) (decide (i = 0)) lastOne false else s1
  if lastOne then (s2.modPort p fun x => { x with sending := none }).packetLeft p k'
  else s2.modPort p fun x => { x with sending := some (k.id, i + 1) }

/-- The nullified end of a TLP (R115); what its flit carries beside its flags the spec does not say. -/
def sendNull (s : State) (p : Nat) : State :=
  if s.isFfl p then ({ s with free := s.free + 1 } : State).sendData p none none (Config.freeBytes s.free) false true true else s.emit (.nullified p)

/-- The nullified end that a port owes since a packet was cut short (R115, R247), with the BUF_CT_ABORT of a cut-through packet. -/
def owedNull (s : State) (p : Nat) : State :=
  let s1 := (s.sendNull p).modPort p fun y => { y with nullOwed := false, nullAbort := none }
  match (s.port p).nullAbort with
  | none => s1
  | some (k, q) => s1.fire (pgBUF (cellarOf p)) 2 k q

/-- A packet that has begun to leave is nullified and stays to be sent again in full (R115, R146); BUF_CT_ABORT belongs to a cut-through packet. -/
def nullify (s : State) (p : Nat) (k : Packet) : State :=
  let s1 := ((s.sendNull p).modPort p fun x => { x with sending := none, wire := some k.queue }).modPacket k.id fun x =>
    { x with left := 0, cut := false }
  (((s1.onlyIf k.cut fun t => t.fire (pgBUF (cellarOf p)) 2 k.part (faultPort k)).markCut k).peakDepth k.queue)

/-! ## Containment (R470) -/

/-- A poisoned packet at its egress (Table 13.6). A completion stays, to be sent poisoned. -/
def contain (s : State) (p : Nat) (k : Packet) : State :=
  let me := s.getF pgFWD FWD_CTL.FDID
  let src := k.poison.getD 0
  let s0 := (s.dropPacket k.id).queueLeft k.queue
  match k.fab, s.isFfl p with
  | some h, true =>
    if h.src ≠ me then s0
    else if h.kind = 1 ∨ h.kind = 3 then
      (s0.breakStream (txKey h.cellar (h.dst / 4096) h.cls) 3)
    else s.modPacket k.id fun x => { x with poison := none, tlp := { x.tlp with poisoned := true } }
  | _, _ =>
    if tlpCls k.tlp = 2 then s.modPacket k.id fun x => { x with poison := none, tlp := { x.tlp with poisoned := true } }
    else if isWrite k.tlp then s0.writeLost k 9 src
    else if nonPosted k.tlp then
      ({ s0 with trk := s0.trk.filter fun e => !(e.port == p && e.pkt.id == k.id) } : State).reply k .ca []
    else s0

/-- The error-correcting code of the cell that would leave now (R119). -/
def readEcc (s : State) (p : Nat) (k : Packet) (ecc : Ecc) : State :=
  match ecc with
  | .ok => s
  | .corrected => s.fire (pgBUF (cellarOf p)) 0
  | .uncorrectable => (s.fire (pgBUF (cellarOf p)) 1).modPacket k.id fun x => { x with poison := some (x.poison.getD (pgBUF (cellarOf p) * 32 + 1)) }

/-! ## Credit and starts -/

/-- FFL credit of the peer for a class in cells (R290). -/
def fflRoom (s : State) (p cls : Nat) : Nat :=
  let x := s.fflSt p
  let d := fun (a b : Nat) => (a + 65536 - b % 65536) % 65536
  if cls = 0 then d x.grantP x.sentP else if cls = 1 then d x.grantNP x.sentNP else d x.grantCPL x.sentCPL

/-- The link partner holds credit for the whole packet (R144, R217, R290). -/
def linkCredit (s : State) (p : Nat) (k : Packet) : Bool :=
  if s.isFfl p then
    let cls := match k.fab with
      | some h => h.cls
      | none => tlpCls k.tlp
    decide (k.ncell ≤ s.fflRoom p cls)
  else s.pcieCredit p k.tlp

/-- The packet takes its credit as it starts. -/
def linkTake (s : State) (p : Nat) (k : Packet) : State :=
  if s.isFfl p then
    let cls := match k.fab with
      | some h => h.cls
      | none => tlpCls k.tlp
    s.modFfl p fun x =>
      if cls = 0 then { x with sentP := (x.sentP + k.ncell) % 65536 }
      else if cls = 1 then { x with sentNP := (x.sentNP + k.ncell) % 65536 }
      else { x with sentCPL := (x.sentCPL + k.ncell) % 65536 }
  else s.pcieTake p k.tlp

/-- Room in the sender's window for a new DATA flit (Table 8.6); always on a PCIe port. -/
def windowOpen (s : State) (p : Nat) : Bool := !s.isFfl p || decide (s.inFlight p < 512)

/-- Oldest packet of a queue that has not begun to leave. -/
def headOf (s : State) (q : Nat) : Option Packet :=
  (s.inQueue q).find? fun k => !((s.port (portOfQueue q)).sending.any fun x => x.1 == k.id) && !s.foundBad k

/-- Outcome of a start at a period: the state with the marks made, and the packet that starts. -/
abbrev Start := State × Option Packet

/-- In-contract packets bound to a period that an older out-of-contract packet takes go out of contract (R144). -/
def displace (s : State) (q u : Nat) (h : Packet) : State :=
  let f := max 1 (s.fper (portOfQueue q))
  s.each ((s.inQueue q).filter fun x => decide (x.id ≠ h.id) && (match x.mark with
    | .inWin m i => (List.range x.ncell).any fun j => match s.boundTick q m (i + j) with
      | some g => decide (u ≤ g ∧ g < u + h.ncell * f)
      | none => false
    | .best | .late | .excess | .displaced | .blocked => false)) fun t x => t.markOut q x .displaced

/-- Service of an owned period of `q` (R144): `u` is the planned tick, `t` the tick in which the period starts. A head that is ready with credit on an
FFL port whose 512-flit window is closed waits for it as for credit, and is marked BLOCKED (Table 8.6; DESIGN CHOICE, log 40). -/
def r144 (s : State) (p q u t : Nat) : Start :=
  match s.headOf q with
  | none => (s, none)
  | some h =>
    let ready := s.startReady h t
    let credit := s.linkCredit p h && s.windowOpen p
    let run := decide (h.ncell ≤ s.runLength p (fun x => decide ((s.periodKind p x).1 = some q)) h.ncell (s.cycPos u))
    let out := fun (s1 : State) => if ready && credit && run then (s1.displace q u h, some h) else (s1, none)
    match s.packetBound q h with
    | none => if inContract h.mark then (s, none) else out s
    | some g =>
      if g < u then out (s.markOut q h .late)
      else if u < g then (s, none)
      else if ready && credit then (s, some h)
      else if ready then out (s.markOut q h .blocked)
      else out (s.markOut q h .late)

/-- The packet that R144 would start but for the link partner's credit (Table 18.2). -/
def r144Blocked (s : State) (p q u t : Nat) : Bool :=
  match s.headOf q with
  | none => false
  | some h =>
    s.startReady h t && !s.linkCredit p h && (match s.packetBound q h with
      | none => !inContract h.mark
      | some g => decide (g ≤ u))

/-! ## Best-effort selection (R217, R218) -/

/-- Signed tokens of a queue's bucket are 0 or more, or it is not shaped (R222, R223). -/
def shaperPasses (s : State) (q : Nat) : Bool :=
  !s.flag (qpg q) QSH_SRATE.SHAPE_EN (qix q) || decide (0 ≤ toInt32 (s.getF (qpg q) QSH_TOK.TOKENS (qix q)))

/-- The queue is eligible for an opportunity of `room` cells, credit apart (R217). -/
def beWaits (s : State) (q room t : Nat) : Option Packet :=
  if !s.beServed q then none
  else
    match s.headOf q with
    | none => none
    | some h => if s.startReady h t && decide (h.ncell ≤ room) && s.shaperPasses q then some h else none

/-- Eligible queues of a port with their heads. -/
def beEligible (s : State) (p room t : Nat) : List (Nat × Packet) :=
  (portQueues p).filterMap fun q => match s.beWaits q room t with
    | some h => if s.linkCredit p h && s.windowOpen p then some (q, h) else none
    | none => none

/-- PRIO level of a queue. -/
def prioOf (s : State) (q : Nat) : Nat := s.getF (qpg q) QSH_QCFG.PRIO (qix q)

/-- Deficit round-robin from a pointer (R218). The answer names the queue and packet chosen; every passed queue has gained its weight. -/
def drr (s : State) (el : List (Nat × Packet)) : Nat → Nat → State × Option (Nat × Packet)
  | 0, _ => (s, none)
  | fuel + 1, ptr =>
    match (el.find? fun e => decide (ptr ≤ e.1)).orElse fun _ => el.head? with
    | none => (s, none)
    | some (q, h) =>
      if h.ncell ≤ (s.queue q).deficit then (s.modQueue q fun x => { x with deficit := x.deficit - h.ncell }, some (q, h))
      else (s.modQueue q fun x => { x with deficit := x.deficit + s.getF (qpg q) QSH_QCFG.WEIGHT (qix q) }).drr el fuel (q + 1)

/-- Choose the best-effort packet of an opportunity, with its shaper debit (R218, R222). -/
def beSelect (s : State) (p room t : Nat) : Start :=
  let el := s.beEligible p room t
  match (List.range 8).reverse.find? fun l => el.any fun e => s.prioOf e.1 == l with
  | none => (s, none)
  | some l =>
    let mine := el.filter fun e => s.prioOf e.1 == l
    let ptr := storeGet (fun _ => 0) s.prioPtr (8 * p + l)
    match s.drr mine 600 (queueOf p 0 + ptr) with
    | (s1, none) => (s1, none)
    | (s1, some (q, h)) =>
      let s2 : State := { s1 with prioPtr := storeSet (fun _ => 0) s1.prioPtr (8 * p + l) (q % 8) }
      let tok := toInt32 (s2.getF (qpg q) QSH_TOK.TOKENS (qix q)) - 65536 * h.ncell
      (s2.onlyIf (s2.flag (qpg q) QSH_SRATE.SHAPE_EN (qix q)) fun u => u.setF (qpg q) QSH_TOK.TOKENS (ofInt32 tok) (qix q), some h)

/-! ## Repair items (R151, R152) -/

/-- A pending repair item is sent: a replay flit before an upkeep item that became due with it, else the one that has waited longest. -/
def sendRepair (s : State) (p : Nat) : State :=
  let x := s.port p
  let s0 := s.modPort p fun y => { y with limitHit := false }
  let upkeep :=
    let s1 := s0.modPort p fun y => { y with upkeep := y.upkeep.tail }
    if s.hasLink p then s1.sendCtrl p else s1.emit (.upkeep p)
  match s.dueReplay p with
  | none => upkeep
  | some i =>
    if !x.nullOwed && (x.upkeep.head?.any fun b => decide (b < x.repair.getD i 0)) then upkeep
    else
      let s1 := s0.modPort p fun y => { y with repair := y.repair.eraseIdx i }
      if !s.hasLink p then s1.emit (.replayed p)
      else
        match (s.fflSt p).resend[i]? with
        | none => s1
        | some q =>
          let s2 := (s1.modFfl p fun y => { y with resend := y.resend.eraseIdx i }).addL p FFL_CNT1.RESEND
          (match (s.fflSt p).replay.find? (·.seq == q) with
           | some c => s2.emitData p c true
           | none => s2)

/-! ## One flit period -/

/-- Class of Table 18.2 of a period. -/
inductive SaClass where
  | deliv | repair | bblock | fstarve | wasted
  deriving DecidableEq, Repr

/-- Add a period to its class, and to the owned accounts (R598, R599): `own` when it is an owned period, `dlv` when it carried its own cell. In the tick in
which the port's accounts clear it is lost (R600). -/
def account (s : State) (p : Nat) (c : SaClass) (own dlv : Bool) : State :=
  let pg := pgPMUA (cellarOf p) (p % 16)
  let f := match c with
    | .deliv => PMU_SA_DELIV.COUNT
    | .repair => PMU_SA_REPAIR.COUNT
    | .bblock => PMU_SA_BBLOCK.COUNT
    | .fstarve => PMU_SA_FSTARVE.COUNT
    | .wasted => PMU_SA_WASTED.COUNT
  if s.edge.clrNow.contains p then s
  else
    let s1 := (s.addF pg f 1 (p % 8)).onlyIf own fun t => t.addF pg PMU_SA_OWNED.COUNT 1 (p % 8)
    s1.onlyIf dlv fun t => t.addF pg PMU_SA_OWNDLV.COUNT 1 (p % 8)

/-- Class of a period that carries nothing (Table 18.2). -/
def idleClass (s : State) (p : Nat) (blocked : Bool) (t : Nat) : SaClass :=
  if blocked then .bblock
  else if (portQueues p).any fun q => match s.headOf q with
    | some h => !s.startReady h t
    | none => false
  then .fstarve
  else .wasted

/-- A packet starts in this period, unless its first cell is found poisoned (R470). -/
def startPacket (s : State) (p : Nat) (k : Packet) (ecc : Ecc) : State × Bool :=
  let s1 := s.readEcc p k ecc
  match s1.packet? k.id with
  | none => (s1, false)
  | some k1 =>
    if k1.poison.isSome then
      let s2 := s1.contain p k1
      (match s2.packet? k.id with
       | some k2 => ((s2.linkTake p k2).sendCell p k2 0, true)
       | none => (s2, false))
    else ((s1.linkTake p k1).sendCell p k1 0, true)

/-- The period of a packet that is leaving (R115, R146, R470). Answers the class and whether a cell left. -/
def continuePacket (s : State) (p id i : Nat) (ecc : Ecc) : State × SaClass × Option Nat :=
  match s.packet? id with
  | none => (s.modPort p fun x => { x with sending := none }, .wasted, none)
  | some k =>
    if !s.windowOpen p then (s.addL p FFL_CNT3.WIN_STALL, .wasted, none)
    else if s.foundBad k then (((s.nullify p k).dropPacket id).queueLeft k.queue, .fstarve, none)
    else if !s.cellReady k i s.fabric then (s.nullify p k, .fstarve, none)
    else
      let s1 := s.readEcc p k ecc
      (match s1.packet? id with
       | none => (s1, .wasted, none)
       | some k1 =>
         if k1.poison.isSome then
           let s2 := s1.nullify p k1
           (match s2.packet? id with
            | some k2 => (s2.contain p k2, .fstarve, none)
            | none => (s2, .fstarve, none))
         else (s1.sendCell p k1 i, .deliv, some k.queue))

/-- σ absorbed where the timeline has reached a run of OPEN or REPAIR periods (R154). -/
def absorbSlip (s : State) (p : Nat) : State :=
  let σ := s.slip p
  if σ = 0 ∨ (s.port p).sending.isSome = true then s
  else
    let n := s.runLength p (fun x => decide ((s.periodKind p x).1 = none)) σ (s.cycPos (s.fabric - σ * s.fper p))
    if n = 0 then s else s.putSlip p (σ - n)

/-- A repair item of the port has waited RP_WAIT × F ticks (R153). -/
def repairWaited (s : State) (p : Nat) : Bool :=
  match s.oldestRepair p with
  | none => false
  | some t0 => decide (t0 + s.getF (pgSCH (cellarOf p)) SCH_PORTCFG.RP_WAIT (localPort p) * s.fper p ≤ s.fabric)

/-- SLIP_MAX of a port. -/
def slipMax (s : State) (p : Nat) : Nat := s.getF (pgSCH (cellarOf p)) SCH_PORTCFG.SLIP_MAX (localPort p)

/-- The period that starts now is an owned one of `q` in which R144 starts a packet while a repair item has waited long enough (R153). -/
def stealQueue (s : State) (p : Nat) : Option Nat :=
  if s.beOnly p || (s.port p).sending.isSome || (s.port p).nullOwed || !s.repairWaited p then none
  else
    let u := s.fabric - s.slip p * s.fper p
    match (s.periodKind p (s.cycPos u)).1 with
    | none => none
    | some q => if (s.r144 p q u s.fabric).2.isSome then some q else none

/-- A repair item steals the period that starts now (R153, R155). -/
def stealNow (s : State) (p q : Nat) : State := ((s.sendRepair p).steal p q s.fabric false).account p .repair false false

/-- At SLIP_MAX an item waits, and SCH_SLIP_LIMIT fires once for the wait (R156). -/
def slipLimit (s : State) (p : Nat) : State :=
  if (s.port p).limitHit then s
  else (s.modPort p fun x => { x with limitHit := true }).fire (pgSCH (cellarOf p)) 1

/-- Best-effort, repair or nothing in a period where no stream packet starts: `room` cells may start. `counted` says that the period has counted in
WIN_STALL already, which counts it once (R289). -/
def openPeriod (s : State) (p room : Nat) (own blocked counted : Bool) (ecc : Ecc) : State :=
  if s.repairPending p then (s.sendRepair p).account p .repair own false
  else
    let t := s.fabric
    let stalled := s.isFfl p && !s.windowOpen p && (portQueues p).any fun q => (s.beWaits q room t).isSome
    let s0 := s.onlyIf (stalled && !counted) fun x => x.addL p FFL_CNT3.WIN_STALL
    match s0.beSelect p room t with
    | (s1, some k) =>
      (match s1.startPacket p k ecc with
       | (s2, true) => s2.account p .deliv own false
       | (s2, false) => s2.account p (s2.idleClass p false t) own false)
    | (s1, none) =>
      let back := (portQueues p).any fun q => match s1.beWaits q room t with
        | some h => !s1.linkCredit p h
        | none => false
      s1.account p (s1.idleClass p (blocked || back) t) own false

/-- Packets of a port's queues that the ingress found bad before they began to leave are discarded (R115). -/
def sweepBad (s : State) (p : Nat) : State :=
  s.each (s.packets.filter fun k => k.place == .egress && portOfQueue k.queue == p && s.foundBad k
    && !((s.port p).sending.any fun x => x.1 == k.id)) fun t k => (t.dropPacket k.id).queueLeft k.queue

/-- Service of a flit period of a device port that starts now. -/
def flitPeriod (s : State) (p : Nat) (ecc : Ecc) : State :=
  let s0 := ((s.sweepBad p).modPort p fun x => { x with nextPer := s.fabric + s.fper p, wire := none }).absorbSlip p
  let t := s0.fabric
  let u := t - s0.slip p * s0.fper p
  let owner := if s0.beOnly p || s0.sched.active.isNone then none else (s0.periodKind p (s0.cycPos u)).1
  let x := s0.port p
  match x.sending with
  | some (id, i) =>
    let (s1, c, q) := s0.continuePacket p id i ecc
    let s2 := s1.onlyIf (x.swapSteal && !s0.beOnly p) fun y => match s0.packet? id with
      | some k => y.steal p k.queue t true
      | none => y
    s2.account p c owner.isSome (q.isSome && q == owner)
  | none =>
    if x.nullOwed && (s0.dueReplay p).isNone then
      (if s0.windowOpen p then (s0.owedNull p).account p .fstarve owner.isSome false
       else (s0.addL p FFL_CNT3.WIN_STALL).account p .wasted owner.isSome false)
    else if x.nullOwed then (s0.sendRepair p).account p .repair owner.isSome false
    else
      match owner with
      | none =>
        let room := if s0.sched.active.isNone || s0.beOnly p then 31
          else s0.runLength p (fun y => decide ((s0.periodKind p y).1 = none)) 31 (s0.cycPos u)
        s0.openPeriod p room false false false ecc
      | some q =>
        let waited := s0.stealQueue p == some q
        if waited && decide (s0.slip p < s0.slipMax p) then s0.stealNow p q
        else
          let s1 := s0.onlyIf waited fun y => y.slipLimit p
          let blocked := s1.r144Blocked p q u t
          let stall := s1.isFfl p && !s1.windowOpen p && (s1.headOf q).any fun h => s1.startReady h t
          let s2 := s1.onlyIf stall fun y => y.addL p FFL_CNT3.WIN_STALL
          match s2.r144 p q u t with
          | (s3, some h) =>
            (match s3.startPacket p h ecc with
             | (s4, true) => s4.account p .deliv true true
             | (s4, false) => s4.account p (s4.idleClass p false t) true false)
          | (s3, none) => s3.openPeriod p 1 true blocked stall ecc

/-- A start opportunity of a port in non-FLIT mode: a packet whose cells are all there leaves whole, a cut-through packet begins with its first
cell (R113, R220). -/
def nonflitStart (s : State) (p : Nat) (ecc : Ecc) : State :=
  match (s.sweepBad p).beSelect p 4096 s.fabric with
  | (s1, none) => s1
  | (s1, some k) =>
    if !s1.startReady { k with cut := false } s.fabric then (s1.startPacket p k ecc).1
    else
      let s2 := s1.readEcc p k ecc
      match s2.packet? k.id with
      | none => s2
      | some k1 =>
        let s3 := if k1.poison.isSome then s2.contain p k1 else s2
        match s3.packet? k.id with
        | none => s3
        | some k2 =>
          ((s3.linkTake p k2).count (cellarOf p) 3 (localPort p) (k2.queue % 8) k2.ncell).packetLeft p { k2 with left := k2.ncell, d1 := s.fabric }

/-- A record of the mirror port's queue leaves flit by flit (Table 14.2): the next cell of the record being sent, else the next record that the
turn gives this port (R490). A YIELD waits until the final LEDGER has left (R498). -/
def mirPeriod (s : State) (p : Nat) : State :=
  let yields := (s.fflSt p).ctrl.any fun m => match m.1 with
    | .yield _ => true
    | .credit _ _ _ | .nak _ | .hello _ _ _ _ _ _ _ | .linkReq _ _ _ | .linkGo _ _ | .timeReq _ | .timeRsp _ _ _ | .swapTick _ _ _ _
    | .role _ _ _ _ _ | .armReport _ _ | .resync _ | .mctp _ => false
  if s.repairPending p && ((s.dueReplay p).isSome || !(yields && s.mir.txq.any fun r => r.kind == 4)) then s.sendRepair p
  else if !decide (s.inFlight p < 512) then s.addL p FFL_CNT3.WIN_STALL
  else
    match s.mir.txq with
    | [] => s
    | r :: rest =>
      let other := if p = 64 then 65 else 64
      if s.dualActive ∨ (s.fflSt other).recLeft ≠ 0 then s
      else if (s.fflSt p).recLeft = 0 ∧ s.lkState other = 3 ∧ s.mir.turn ≠ p - 64 then s
      else if s.fflRoom p 0 = 0 then s
      else
        let left := if (s.fflSt p).recLeft = 0 then recCells r else (s.fflSt p).recLeft
        let cell := cellOf (recCells r - left) (recBytes r)
        let s1 := (s.sendData p none (some r) cell (decide ((s.fflSt p).recLeft = 0)) (decide (left = 1)) false).modFfl p fun x =>
          { x with recLeft := left - 1, sentP := (x.sentP + 1) % 65536 }
        if left = 1 then
          ({ s1 with mir := { s1.mir with txq := rest, turn := other - 64 } } : State).emit (.mirror p r)
        else s1

end State

/-! ## Commands -/

/-- FLIT_PERIOD_START (R144): a flit period of a device port in L0 starts on its grid, or a flit slot of an ACTIVE mirror port. -/
def execFlitPeriodStart (port : Nat) (ecc : Ecc) (s : State) : Res :=
  if 64 ≤ port then (if s.linkActive port && !s.devFatal then ((s.mirPeriod port).fillIdle s port).done else s.done)
  else if !s.portEn port || !s.inL0 port || !s.onGrid port s.fabric || decide (s.fabric < (s.port port).nextPer) then s.done
  else ((s.flitPeriod port ecc).fillIdle s port).done

/-- REPAIR_WAIT_EXPIRE (R153, R156): the period that starts now is taken by the item that has waited, while σ is below SLIP_MAX. -/
def execRepairWaitExpire (port : Nat) (s : State) : Res :=
  if 64 ≤ port ∨ s.devFatal = true ∨ s.portEn port = false ∨ s.inL0 port = false ∨ s.onGrid port s.fabric = false
      ∨ s.fabric < (s.port port).nextPer then s.done
  else
    match s.stealQueue port with
    | none => s.done
    | some q =>
      if s.slip port < s.slipMax port then
        ((s.modPort port fun x => { x with nextPer := s.fabric + s.fper port, wire := none }).stealNow port q).done
      else (s.slipLimit port).done

/-- REPAIR_ITEM_DUE (R151): a replay of the PCIe link layer (0) or an upkeep item (1) becomes pending. -/
def execRepairItemDue (port item : Nat) (s : State) : Res :=
  if 64 ≤ port ∨ s.portEn port = false then s.done
  else if item = 0 ∧ s.isFfl port = false then (s.replayDue port).done
  else if item = 1 then (s.upkeepDue port).done
  else s.done

/-- NONFLIT_START_OPPORTUNITY (R220): a port in non-FLIT mode may start a TLP; one that owes a nullified end sends it first (R247), and
repair items come before packets (R151). While a cut-through packet is leaving, the command is the point where its next bytes are due (R115; DESIGN
CHOICE, log 69). -/
def execNonflitStartOpportunity (port : Nat) (ecc : Ecc) (s : State) : Res :=
  if 64 ≤ port ∨ s.portEn port = false ∨ s.inL0 port = false ∨ s.fper port ≠ 0 then s.done
  else
    match (s.port port).sending with
    | some (id, i) => (s.continuePacket port id i ecc).1.done
    | none =>
      if (s.port port).nullOwed && (s.dueReplay port).isNone then (s.owedNull port).done
      else if s.repairPending port then (s.sendRepair port).done
      else (s.nonflitStart port ecc).done

/-- TLP_DLL_ACK (R332): the link partner acknowledges the oldest `count` TLPs that it was sent. -/
def execTlpDllAck (port count : Nat) (s : State) : Res :=
  let acked := (s.port port).sent.take count
  let s1 := s.modPort port fun x => { x with sent := x.sent.drop count }
  (s1.each acked fun t k => if isWrite k.tlp || isNpw k.owner then t.writeDone k.group else t).done

/-- FC_UPDATE_RECEIVE (R217): credit of a class is returned; `headers` and `units` are what the partner adds. -/
def execFcUpdateReceive (port cls headers units : Nat) (s : State) : Res :=
  let add := fun (c : Option Nat) (n : Nat) => c.map (· + n)
  if !s.portEn port || s.isFfl port || !s.inL0 port then s.done
  else
    (s.modPort port fun x =>
      if cls = 0 then { x with crP := add x.crP headers, crPD := add x.crPD units }
      else if cls = 1 then { x with crNP := add x.crNP headers, crNPD := add x.crNPD units }
      else if cls = 2 then { x with crCPL := add x.crCPL headers, crCPLD := add x.crCPLD units }
      else x).done

end Sys2Proof.Machine
end

