-- ==== Sys2Proof/Machine/Queues.lean ====
section
/-! DEFINITION. Spine slots and arrival at the egress (R31 to R39, R149, R160), the spill engine (R120 to R124), policers (R226 to R229),
shaper parameters (R225), queue snapshots and the stall check (R232, R233). -/

namespace Sys2Proof.Machine
namespace State

/-! ## Spine -/

/-- Next cell of a packet that has not entered its path, when it may enter by half-tick `h` (R111, R149). -/
def nextCell (p : Packet) (h : Nat) : Option Nat :=
  let i := p.entered.length
  if p.ncell ≤ i then none
  else
    let from0 := if p.ing < 64 then 2 * (p.acc.getD i (p.acc.getLastD p.ordTick) + 38) else 2 * p.ordTick
    if from0 ≤ h then some i else none

/-- Packets that have passed the ordering point on the path from `a` to `b`, in order. -/
def onPath (s : State) (a b : Nat) : List Packet :=
  s.packets.filter fun p => p.place == Place.egress && p.cell0 == a && cellarOf (portOfQueue p.queue) == b

/-- Slots of a path in the active Vintage as slot and global queue. -/
def pathSlots (s : State) (a b : Nat) : List (Nat × Nat) :=
  match s.sched.active with
  | none => []
  | some v => (storeGet (fun _ => ([] : List (Nat × Nat))) v.spine (4 * a + b)).map fun x => (x.1, 128 * b + x.2)

/-- The queue is a stream whose slots are its own: neither its egress port nor its ingress port is best-effort only (R36, R162). The cells of a stream that
has lost its slots because its ingress port alone is best-effort only cross as best-effort cells (DESIGN CHOICE, log 78). -/
def ownsSlots (s : State) (q : Nat) : Bool :=
  (s.streamOf q).sched && !s.beOnly (portOfQueue q) && !(decide ((s.streamOf q).ing < 64) && s.beOnly (s.streamOf q).ing)

/-- Requester of a packet in its Cellar (R160): its local port, or 16 for the internal requester. -/
def spineReq (p : Packet) : Nat := if p.ing < 64 then p.ing % 16 else 16

/-- Cell that a best-effort slot carries: the oldest of the first requester from the pointer that offers one. A cell of a scheduled stream is never
offered, not even where the stream owns no slot of the path (R149, R160). -/
def spineBest (s : State) (a b h : Nat) : Option Packet :=
  let ptr := storeGet (fun _ => 0) s.sched.spinePtr (4 * a + b)
  let offer := (s.onPath a b).filter fun p => !s.ownsSlots p.queue && (nextCell p h).isSome
  (List.range 17).findSome? fun k => offer.find? fun p => spineReq p == (ptr + k) % 17

/-- A cell of a packet enters the path (R37, R39). -/
def enterPath (s : State) (p : Packet) (a b h : Nat) (ecc : Ecc) : State :=
  let s1 := (s.modPacket p.id fun x => { x with entered := x.entered ++ [h] }).count a 6 b 0 1
  match ecc with
  | .ok => s1
  | .corrected => s1.fire pgSPN 0
  | .uncorrectable => (s1.fire pgSPN 1).modPacket p.id fun x => { x with poison := some (x.poison.getD (pgSPN * 32 + 1)) }

/-- Slots of the present tick that a path has used, one bit each (R34). -/
def slotsUsed (s : State) (key : Nat) : Nat :=
  let v := storeGet (fun _ => 0) s.sched.spineUsed key
  if v / 4 = s.fabric then v % 4 else 0

/-- The slot of a path in half-tick `h` (R36, R149, R160). -/
def spineSlot (s : State) (a b half : Nat) (ecc : Ecc) : State :=
  let h := 2 * s.fabric + half
  let key := 4 * a + b
  let slot := 2 * s.cycPos s.fabric + half
  let s0 := { s with sched := { s.sched with spineUsed := storeSet (fun _ => 0) s.sched.spineUsed key (4 * s.fabric + bitSet (s.slotsUsed key) half) } }
  let owner := match (s.pathSlots a b).find? fun x => x.1 == slot with
    | some x => if s.ownsSlots x.2 then some x.2 else none
    | none => none
  let own := match owner with
    | none => none
    | some q => (s.onPath a b).find? fun p => p.queue == q && (nextCell p h).isSome
  match own with
  | some p => s0.enterPath p a b h ecc
  | none =>
    match s.spineBest a b h with
    | none => s0
    | some p =>
      let s1 : State := { s0 with sched := { s0.sched with spinePtr := storeSet (fun _ => 0) s0.sched.spinePtr key ((spineReq p + 1) % 17) } }
      (s1.enterPath p a b h ecc).count a 7 (spineReq p) 0 1

/-- The next cell of a queue that is due reaches the egress pipeline (R37, R38), with the outcome of SRAM's code (R119). -/
def cellArrive (s : State) (q : Nat) (ecc : Ecc) : State :=
  match (s.inQueue q).find? fun p => match p.entered[p.arrived]? with
    | some e => decide (reachHalf e ≤ 2 * s.fabric + 1)
    | none => false with
  | none => s
  | some p =>
    let s1 := (s.modPacket p.id fun x => { x with arrived := x.arrived + 1 }).onlyIf (p.sample.isSome && p.arrived == 0) fun t =>
      { t with trace := t.trace.map fun (r : TraceRec) =>
          if some r.id = p.sample then { r with x1 := (p.entered[0]?).map reachHalf } else r }
    match ecc with
    | .ok => s1
    | .corrected => s1.fire (pgBUF (q / 128)) 0
    | .uncorrectable => (s1.fire (pgBUF (q / 128)) 1).modPacket p.id fun x =>
        { x with poison := some (x.poison.getD (pgBUF (q / 128) * 32 + 1)) }

/-! ## Spill engine -/

/-- Cells of a packet that bursts in flight move, HBM to SRAM (`back`) or the other way. -/
def spillMoving (s : State) (id : Nat) (back : Bool) : Nat :=
  (s.spillOps.map fun o => if o.back == back then ((o.parts.filter fun x => x.1 == id).map (·.2)).sum else 0).sum

/-- Cells of a spilled packet that a burst may move: arrived and not yet written, or in HBM and not yet on their way back. -/
def spillable (s : State) (p : Packet) (back : Bool) : Nat :=
  if !p.spill then 0
  else if back then p.spillBusy - (p.ncell - p.spilled) - s.spillMoving p.id true
  else p.arrived - p.spillBusy - s.spillMoving p.id false

/-- The first `n` cells that a burst of a queue moves, by packet in queue order. -/
def spillParts (s : State) (back : Bool) : Nat → List Packet → List (Nat × Nat)
  | _, [] => []
  | n, p :: r =>
    let k := min n (s.spillable p back)
    if n = 0 then [] else if k = 0 then s.spillParts back n r else (p.id, k) :: s.spillParts back (n - k) r

/-- Cells of a burst of at most `n` cells of a queue: cells come back while it holds fewer than MAX − 64 cells in SRAM (R122). -/
def spillBurst (s : State) (q n : Nat) (back : Bool) : List (Nat × Nat) :=
  if back && decide (s.qMax q - 64 ≤ s.sramOf q) then [] else s.spillParts back n (s.inQueue q)

/-- Bandwidth of a direction is in use until this time, in 1/760 ns (R43). -/
def spillUntil (s : State) (back : Bool) : Nat := if back then s.edge.spillBusy.2 else s.edge.spillBusy.1

/-- A burst starts (R123): `t` ticks until it is over. It takes 256 B a cell of its direction's 760 B per ns (R43). -/
def spillStart (s : State) (q n t : Nat) (back : Bool) : State :=
  match s.spillBurst q n back with
  | [] => s
  | x :: r =>
    let u := max (s.spillUntil back) (760 * s.ticks) + 256 * ((x :: r).map (·.2)).sum
    let b := s.edge.spillBusy
    let s1 := { s with spillOps := s.spillOps ++ [({ parts := x :: r, back := back, endTick := s.ticks + t } : SpillOp)],
                       edge := { s.edge with spillBusy := if back then (b.1, u) else (u, b.2) } }
    s1.count (q / 128) (if back then 0xD else 0xC) 0 0 ((x :: r).map (·.2)).sum

/-- The spill engine runs (Table 3.16). -/
def spillRuns (s : State) : Bool := s.flag pgSPL SPL_CTL.EN && !s.devFatal

/-- Entry of the spill list of the active Vintage that is due in the present tick and has not started (R123). -/
def spillDue (s : State) : Option SpillSlot :=
  match s.sched.active with
  | none => none
  | some v =>
    if s.edge.spillAt = some s.ticks then none
    else v.spill.find? fun e => decide (e.start = s.cycPos s.fabric) && s.cellarRun e.cellar
      && !(s.spillBurst (128 * e.cellar + e.queue % 128) e.cells (e.dir == 1)).isEmpty

/-- A best-effort burst may start: no placed burst is due, which comes first, and its direction's bandwidth is free (R43, R123; DESIGN CHOICE, log 70). -/
def spillFree (s : State) (back : Bool) : Bool := s.spillDue.isNone && decide (s.spillUntil back ≤ 760 * s.ticks)

/-- The Cellar and queue of a best-effort burst: round-robin over the Cellars, ascending within one (R123). One pointer serves both directions
(DESIGN CHOICE, log 70). -/
def spillPick (s : State) (back : Bool) : Option Nat :=
  (List.range 4).findSome? fun k => (cellarQueues ((s.spillPtr + k) % 4)).find? fun q => !(s.spillBurst q 8 back).isEmpty

/-- What HBM's code finds in a cell of packet `id` that came back (R124). -/
def spillEcc (s : State) (x : Nat × Ecc) : State :=
  match x.2 with
  | .ok => s
  | .corrected => s.fire pgSPL 2
  | .uncorrectable => (s.fire pgSPL 3).modPacket x.1 fun p => { p with poison := some (p.poison.getD (pgSPL * 32 + 3)) }

/-- A burst is over (R123, R124): its cells are committed to HBM, or lie in SRAM, `ecc` being the outcome of the code for each in order. -/
def spillDone (s : State) (o : SpillOp) (ecc : List Ecc) : State :=
  let s1 := s.each o.parts fun t x => t.modPacket x.1 fun p =>
    if o.back then { p with spilled := p.spilled - x.2 } else { p with spillBusy := p.spillBusy + x.2 }
  if o.back then s1.each ((o.parts.flatMap fun x => List.replicate x.2 x.1).zip ecc) spillEcc else s1

/-! ## Policers (R226 to R229) -/

/-- The policer withholds credit: it is enabled and its bucket is negative (R228). -/
def withholds (s : State) (p c : Nat) : Bool := s.flag (polPage p) QSH_PRATE.EN (polIx p c) && decide (s.polTok p c < 0)

/-- Credit of `n` cells of a class goes back to the sender: `h` headers and `u` data units of a PCIe port (R117), cells of an FFL port (R290). A port
whose link is down has no credit state (Table 7.13). -/
def giveCredit (s : State) (p c n h u : Nat) : State :=
  if s.isFfl p then (if s.flag (pgFFL p) FFL_STS.LDOWN then s else s.grantCells p c n)
  else if s.flag (pgLNK p) LNK_STS.LDOWN || decide (h = 0) then s else s.emit (.fcUpdate p c h u)

/-- Held flag of a policed class. -/
def setHold (s : State) (p c : Nat) (b : Bool) : State :=
  s.setFlag (polPage p) (if c = 0 then QSH_PSTS.P_HOLD else QSH_PSTS.NP_HOLD) b (p % 8)

/-- Held count of a policed class, in cells. -/
def heldOf (s : State) (p c : Nat) : Nat := if c = 0 then (s.port p).heldP else (s.port p).heldNP

/-- Header and data credit held with it. -/
def heldFcOf (s : State) (p c : Nat) : Nat × Nat :=
  (s.port p).heldFc.foldl (fun a x => if x.1 = c then (a.1 + x.2.1, a.2 + x.2.2) else a) (0, 0)

/-- Credit of a class joins the held count, and QSH_PSTS says so (R228). -/
def holdCredit (s : State) (p c n h u : Nat) : State :=
  let s1 := s.onlyIf (s.heldOf p c == 0) fun t => (t.addF (polPage p) QSH_PSTS.HOLDS 1 (p % 8)).setHold p c true
  s1.modPort p fun x =>
    { x with heldP := if c = 0 then x.heldP + n else x.heldP, heldNP := if c = 0 then x.heldNP else x.heldNP + n, heldFc := x.heldFc ++ [(c, h, u)] }

/-- The whole held count of a class is returned (R228). -/
def releaseHeld (s : State) (p c : Nat) : State :=
  let k := s.heldFcOf p c
  let s1 := (s.modPort p fun x =>
    { x with heldP := if c = 0 then 0 else x.heldP, heldNP := if c = 0 then x.heldNP else 0,
             heldFc := x.heldFc.filter (·.1 != c) }).setHold p c false
  s1.giveCredit p c (s.heldOf p c) k.1 k.2

/-- Ingress buffer space that a TLP of `n` cells took is freed: its credit is returned, under a policer as the end of the tick decides (R228). -/
def freeIngress (s : State) (p : Nat) (t : Tlp) (n : Nat) : State :=
  let c := tlpCls t
  if 64 ≤ p ∨ n = 0 then s
  else if c < 2 ∧ s.flag (polPage p) QSH_PRATE.EN (polIx p c) = true then
    { s with edge := { s.edge with freed := s.edge.freed ++ [(p, c, n, 1, dataUnits t)] } }
  else s.giveCredit p c n 1 (dataUnits t)

/-- The sign test at the end of a tick: credit freed in it is held where the bucket is negative, and returned elsewhere (R228). -/
def endFreed (s : State) : State :=
  match s.edge.freed with
  | [] => s
  | l => ({ s with edge := { s.edge with freed := [] } } : State).each l fun t x =>
      if t.withholds x.1 x.2.1 then t.holdCredit x.1 x.2.1 x.2.2.1 x.2.2.2.1 x.2.2.2.2
      else t.giveCredit x.1 x.2.1 x.2.2.1 x.2.2.2.1 x.2.2.2.2

/-- Cells are accepted at the ingress lanes of a port at the ticks given: each is debited and counted in its own tick (R227, Table 18.1). -/
def acceptCells (s : State) (p c tc : Nat) (acc : List Nat) : State :=
  let n := (acc.filter fun a => decide (a ≤ s.fabric)).length
  let s1 := (s.polDebit p c n).count (cellarOf p) 2 (localPort p) (tc % 8) n
  match acc.filter fun a => decide (s.fabric < a) with
  | [] => s1
  | l => { s1 with edge := { s1.edge with debits := s1.edge.debits ++ l.map fun a => (a, p, c, tc) } }

/-- Cells whose acceptance falls in the present tick (R227). -/
def dueDebits (s : State) : State :=
  match s.edge.debits with
  | [] => s
  | l =>
    let due := l.filter fun x => decide (x.1 ≤ s.fabric)
    ({ s with edge := { s.edge with debits := l.filter fun x => decide (s.fabric < x.1) } } : State).each due fun t x =>
      (t.polDebit x.2.1 x.2.2.1 1).onlyIf (decide (x.2.2.2 < 8)) fun u => u.count (cellarOf x.2.1) 2 (localPort x.2.1) (x.2.2.2 % 8) 1

/-! ## Measurement -/

/-- Head age of a queue in ticks (R231). -/
def headAge (s : State) (q : Nat) : Nat :=
  match s.inQueue q with
  | [] => 0
  | k :: _ => s.fabric - k.ordTick

/-- QSH page of number `n`, two for each Cellar (Table 6.1). -/
def qshPage (n : Nat) : Nat := celPage (n / 2) (3 + n % 2)

/-- A tick starts: depth and head age of every queue of the pages that take a snapshot in it (R232). -/
def snapStart (s : State) : State :=
  let due := (List.range 8).filter fun n => s.flag (qshPage n) QSH_SAMP.EN && s.fabric % 2 ^ s.getF (qshPage n) QSH_SAMP.EXP == 0
  { s with edge := { s.edge with snaps := due.map fun n =>
      (n, (List.range 64).map fun i => (s.depth (128 * (n / 2) + 64 * (n % 2) + i), s.headAge (128 * (n / 2) + 64 * (n % 2) + i))) } }

/-- A snapshot of a page: its queues as they stood at the start of the tick (R232). -/
def snapshot (s : State) (pg : Nat) (l : List (Nat × Nat)) : State :=
  let s1 := s.each l.zipIdx fun t x =>
    (t.setF pg QSH_SNAPD.CELLS (min 0xFFFFFF x.1.1) x.2).setF pg QSH_SNAPA.AGE (min 0xFFFFFFFF x.1.2) x.2
  let s2 := (s1.setF pg QSH_SNAP_T.TIME s.fabric).setF pg QSH_SNAP_SEQ.SEQ ((s.getF pg QSH_SNAP_SEQ.SEQ + 1) % 2 ^ 32)
  s2.raiseInt pg 1

/-- The bucket of a queue or policer is cut to a new BURST (R225). -/
def cutBucket (s : State) (pg : Nat) (tok burst : FRef) (i : Nat) : State :=
  let b : Int := 65536 * (s.getF pg burst i : Int)
  if toInt32 (s.getF pg tok i) ≤ b then s else s.setF pg tok (ofInt32 b) i

/-- Offset of the BURST register that belongs to the RATE or BURST register at page offset `o`. -/
def burstOff (o : Nat) : Nat := if o % 8 < 4 then o + 4 else o

/-- A BURST register at `key` is written: what it held goes on to the end of the tick (R225). -/
def noteBurst (s : State) (key : Nat) : State :=
  if s.edge.cuts.any (·.1 == key) then s
  else { s with edge := { s.edge with cuts := s.edge.cuts ++ [(key, (s.reg key).toNat % 4096)] } }

/-- A write of RATE, BURST or their enables of a shaper or policer (R225): the page offset selects the register. It takes effect from the next tick. -/
def shaperWrite (s : State) (off : Nat) (v : Word) : State :=
  match regAt (off / 4096) (off % 4096) with
  | none => s
  | some (r, _) => (s.onlyIf (off % 8 == 4) fun t => t.noteBurst off).plainWrite off r.flds (v.zeroExtend 64)

/-- The tick after a write of BURST: a bucket that holds more is cut to it (R225), that of a port whose link is down holds it (R229). -/
def cutNow (s : State) (x : Nat × Nat) : State :=
  let pg := x.1 / 4096
  let o := x.1 % 4096
  let c := pg / 256 - 1
  if pageKind pg = some .dma then
    s.modChan (256 * c + (o - 0x804) / 8) fun y => { y with bucket := min y.bucket (65536 * (s.getF pg DMA_RBURST.BURST ((o - 0x804) / 8) : Int)) }
  else if o < 0x400 then s.cutBucket pg QSH_TOK.TOKENS QSH_SBURST.BURST ((o - 0x204) / 8)
  else
    let i := (o - 0xA04) / 8
    let p := 16 * c + 8 * (pg % 256 - 3) + i / 2
    if s.flag (pgLNK p) LNK_STS.LDOWN || s.flag (pgFFL p) FFL_STS.LDOWN then s.setF pg QSH_PTOK.TOKENS (65536 * s.getF pg QSH_PBURST.BURST i) i
    else s.cutBucket pg QSH_PTOK.TOKENS QSH_PBURST.BURST i

/-- BURST registers written in the tick before take effect (R225). -/
def cutsNow (s : State) : State :=
  match s.edge.cuts with
  | [] => s
  | l => ({ s with edge := { s.edge with cuts := [] } } : State).each l cutNow

end State

/-! ## Commands -/

/-- SPINE_SLOT (R160): a slot of the path from Cellar `src` to `dst`, `half` 0 or 1 of the present tick, `ecc` of the cell it carries. A
path carries at most one cell per slot (R34), and none while one of its Cellars is not in RUN (R31). -/
def execSpineSlot (src dst half : Nat) (ecc : Ecc) (s : State) : Res :=
  if 4 ≤ src ∨ 4 ≤ dst ∨ src = dst ∨ 2 ≤ half ∨ s.cellarRun src = false ∨ s.cellarRun dst = false
      ∨ bitAt (s.slotsUsed (4 * src + dst)) half = true then s.done
  else (s.spineSlot src dst half ecc).done

/-- CELL_EGRESS_ARRIVE (R37): the next cell of queue `queue` reaches its egress pipeline. -/
def execCellEgressArrive (queue : Nat) (ecc : Ecc) (s : State) : Res :=
  if 512 ≤ queue ∨ s.cellarRun (queue / 128) = false then s.done else (s.cellArrive queue ecc).done

/-- SPILL_PLACED_BURST (R123): entry `index` of the spill list of the active Vintage, at its tick. -/
def execSpillPlacedBurst (index : Nat) (s : State) : Res :=
  match s.sched.active with
  | none => s.done
  | some v =>
    match v.spill[index]? with
    | none => s.done
    | some e =>
      if s.spillRuns && s.cycPos s.fabric == e.start && s.cellarRun e.cellar && s.edge.spillAt != some s.ticks then
        (({ s with edge := { s.edge with spillAt := some s.ticks } } : State).spillStart (128 * e.cellar + e.queue % 128) e.cells (if e.dir = 1 then 144 else 96) (e.dir == 1)).done
      else s.done

/-- SPILL_BE_BURST (R122, R123): a best-effort burst of up to eight cells, HBM to SRAM or the other way, in bandwidth that placed bursts leave free.
The round-robin over the Cellars keeps one pointer for both directions (DESIGN CHOICE, log 70).
How long it takes is the sender's SPILL_BURST_DONE. -/
def execSpillBeBurst (back : Bool) (s : State) : Res :=
  if !s.spillRuns || !s.spillFree back then s.done
  else
    match s.spillPick back with
    | none => s.done
    | some q => ({ s.spillStart q 8 0 back with spillPtr := (q / 128 + 1) % 4 } : State).done

/-- SPILL_BURST_DONE (R123): the oldest burst whose time is over. -/
def execSpillBurstDone (ecc : List Ecc) (s : State) : Res :=
  match s.spillOps.find? fun o => decide (o.endTick ≤ s.ticks) with
  | none => s.done
  | some o => (({ s with spillOps := s.spillOps.erase o } : State).spillDone o ecc).done

/-- The sign test at the end of a tick (R228): a policed class with held credit whose bucket is 0 or more, or whose policer is disabled, is due its whole
held count. -/
def State.relMark (s : State) : State :=
  let due := (s.ports.flatMap fun e => [(e.1, 0), (e.1, 1)]).filter fun x =>
    s.heldOf x.1 x.2 != 0 && (!s.withholds x.1 x.2 || s.edge.relDue.contains x)
  ({ s with edge := { s.edge with relDue := due } } : State)

/-- POLICER_RELEASE (R228): a tick has ended in which the bucket of class `cls` is 0 or more again, or the policer is disabled, and the held count is
returned (log 25). -/
def execPolicerRelease (port cls : Nat) (s : State) : Res :=
  if s.edge.relDue.contains (port, cls) then
    (({ s with edge := { s.edge with relDue := s.edge.relDue.erase (port, cls) } } : State).releaseHeld port cls).done
  else s.done

/-- SHAPER_PARAM_WRITE (R225) at BAR0 offset `off`. -/
def execShaperParamWrite (who : Requester) (off : Nat) (value : Word) (s : State) : Res :=
  let o := off % 4096
  if pageKind (off / 4096) = some .qsh ∧ o % 4 = 0 ∧ ((0x200 ≤ o ∧ o < 0x400) ∨ (0xA00 ≤ o ∧ o < 0xA80)) then
    (s.withAccess who off 4 true fun t => t.shaperWrite off value).done
  else s.done

/-- QUEUE_SNAPSHOT (R232): QSH page `page` (0 to 7, two for each Cellar) in a tick that is a multiple of 2^EXP, at whose start EN was 1. -/
def execQueueSnapshot (page : Nat) (s : State) : Res :=
  match s.edge.snaps.find? (·.1 == page) with
  | none => s.done
  | some (_, l) =>
    if s.cellarRun (page / 2) = false then s.done
    else (({ s with edge := { s.edge with snaps := storeErase s.edge.snaps page } } : State).snapshot (State.qshPage page) l).done

/-- QUEUE_STALL_DETECT (R233): the head age of queue `queue` exceeds LIMIT for a packet that has not been found before. -/
def execQueueStallDetect (queue : Nat) (s : State) : Res :=
  let pg := qpg queue
  let lim := s.getF pg QSH_STALL_CTL.LIMIT
  match s.inQueue queue with
  | [] => s.done
  | k :: _ =>
    if 512 ≤ queue ∨ lim = 0 ∨ s.headAge queue ≤ 1000 * lim ∨ (s.queue queue).stalled = some k.id then s.done
    else
      let s1 := (s.modQueue queue fun x => { x with stalled := some k.id }).fire pg 0
      (if s1.flag pg QSH_STALL_INFO.VALID then s1
       else (s1.setFlag pg QSH_STALL_INFO.VALID true).setF pg QSH_STALL_INFO.QUEUE (qix queue)).done

end Sys2Proof.Machine
end

