-- ==== Sys2Proof/Machine/Trace.lean ====
section
/-! DEFINITION. Packet sampling and the trace ring (R601 to R608), the event counters' registers (R593 to R596), the device-wide snapshot
(R597) and the clearing of slot accounts (R600). -/

namespace Sys2Proof.Machine

/-- Fabric header as its 16 B (Table 8.10). -/
def fabBytes (h : FabHdr) (t : Tlp) : List Byte :=
  let flags := (if h.sync then 128 else 0) + 16 * (t.tc % 8) + (if h.ro then 8 else 0) + (if t.poisoned then 4 else 0)
    + (if h.replay then 2 else 0)
  [BitVec.ofNat 8 h.kind, BitVec.ofNat 8 flags] ++ leBytes 2 h.dst
    ++ [BitVec.ofNat 8 (64 * h.cls + 16 * h.cellar + h.src), BitVec.ofNat 8 h.part, BitVec.ofNat 8 h.aux, 0]
    ++ leBytes 4 h.tseq ++ leBytes 4 h.pbar

/-- Kind bit of KMASK (Table 18.5). -/
def traceKind (p : Packet) : Nat :=
  match p.ini with
  | .fabric _ _ _ _ => 4
  | .port _ _ _ | .cxl _ | .chan _ | .block _ => if isMsg p.tlp then 3 else tlpCls p.tlp

/-- 32-bit field of a difference, all ones where it is absent. -/
def traceDiff (a : Option Nat) (b : Nat) : Nat :=
  match a with
  | some x => min 0xFFFFFFFF (x - b)
  | none => 0xFFFFFFFF

/-- The 64 B of a record (Table 18.3). -/
def traceBytes (r : TraceRec) : List Byte :=
  let (code, tick, reason) := r.out.getD (4, 0, 0xFF)
  let b := fun (x : Bool) (n : Nat) => if x then 2 ^ n else 0
  let flags := 2 ^ 14 * r.n + 2 ^ 12 * r.cellar + 2 ^ 10 * (r.egr.getD 0 / 16) + b r.cut 9 + b r.spilled 8 + b r.mcast 7 + b r.sched 6
    + b r.fabArr 5 + b r.trans 4
  leBytes 8 r.acc ++ leBytes 4 (min 0xFFFFFFFF r.dord) ++ leBytes 4 (traceDiff r.x1 (2 * r.acc))
    ++ leBytes 4 (if code = 4 then 0xFFFFFFFF else min 0xFFFFFFFE (tick - r.acc))
    ++ leBytes 4 (match r.grel with
      | some g => ofInt32 g
      | none => 0x80000000)
    ++ leBytes 4 r.mseq ++ leBytes 1 (portTag r.ing) ++ leBytes 1 (r.egr.getD 0x3F) ++ leBytes 1 r.queue ++ leBytes 1 r.cells
    ++ leBytes 2 flags ++ leBytes 1 code ++ leBytes 1 (r.mark + 16 * min 15 r.sigma) ++ leBytes 1 r.part ++ leBytes 1 reason
    ++ leBytes 2 r.rid ++ leBytes 8 r.addr ++ leBytes 16 r.hdr ++ [0, 0, 0, 0, 0, 0, 0, 0]

namespace State

/-! ## Sampling -/

/-- Sampler `n` of Cellar `c` matches a packet with an egress port (R601). -/
def samplerHits (s : State) (c n : Nat) (p : Packet) (egr : Option Nat) : Bool :=
  let pg := pgPMUT c
  let ing := s.getF pg PMU_SMPCFG.ING n
  let want := s.getF pg PMU_SMPCFG.EGR n
  s.flag pg PMU_SMPCFG.EN n && (ing == 0x3F || ing == faultPort p) && (want == 0x7F || egr == some want)
    && bitAt (s.getF pg PMU_SMPCFG.TCMASK n) (p.tlp.tc % 8) && bitAt (s.getF pg PMU_SMPCFG.KMASK n) (traceKind p)

/-- Record of a packet that sampler `n` takes with match number `m` (Table 18.3). -/
def traceRec (s : State) (c n m : Nat) (p : Packet) (egr : Option Nat) (mcast : Bool) : TraceRec × State :=
  let a := p.acc.headD s.fabric
  let (h, s1) := match p.ini, p.fab with
    | .fabric _ _ _ _, some f => (leNat (fabBytes f p.tlp), s)
    | _, _ => s.draw
  let quiet := tlpCls p.tlp == 2 || isMsg p.tlp
  ({ id := s.nextId, cellar := c, n := n, mseq := m, acc := a, dord := s.fabric - a, ing := faultPort p, egr := egr,
     queue := p.queue % 128, cells := p.ncell, cut := p.cut, spilled := p.spill, mcast := mcast,
     sched := egr.isSome && (s.streamOf p.queue).sched,
     fabArr := traceKind p == 4, trans := s.translates p,
     grel := (s.packetBound p.queue p).map fun g => (g : Int) - (a : Int), x1 := none,
     mark := (match p.mark with
       | .best => 0
       | .inWin _ _ => 1
       | .late => 2
       | .excess => 3
       | .displaced => 4
       | .blocked => 5),
     sigma := 0, part := p.part, rid := p.tlp.rid % 65536, addr := if quiet then 0 else p.tlp.addr, hdr := h % 2 ^ 128,
     ini := p.ini, order := p.order, out := none }, { s1 with nextId := s1.nextId + 1 })

/-- One sampler of a pass (R602): `taken` is the record made by a lower sampler. -/
def sampleOne (s : State) (c n : Nat) (p : Packet) (egr : Option Nat) (mcast : Bool) (taken : Option Nat) : State × Option Nat :=
  let pg := pgPMUT c
  if !s.samplerHits c n p egr then (s, taken)
  else
    let m := s.getF pg PMU_SMPSEQ.MSEQ n
    let s1 := s.setF pg PMU_SMPSEQ.MSEQ ((m + 1) % 2 ^ 32) n
    if m % max 1 (s.getF pg PMU_SMPINT.INTERVAL n) ≠ 0 then (s1, taken)
    else if taken.isSome then (s1.addF pg PMU_SMPSKIP.OVERLAP 1 n, taken)
    else if 256 ≤ (s.trace.filter fun (r : TraceRec) => r.cellar == c).length then (s1.addF pg PMU_SMPSKIP.SKIP 1 n, taken)
    else
      let (r, s2) := s1.traceRec c n m p egr mcast
      ({ s2 with trace := s2.trace ++ [r] }, some r.id)

/-- The samplers of a packet's ingress Cellar as it passes (R601, R602): the state and the number of the record made. -/
def samplePass (s : State) (p : Packet) (egr : Option Nat) (mcast : Bool) : State × Option Nat :=
  (List.range 4).foldl (fun a n => a.1.sampleOne p.cell0 n p egr mcast a.2) (s, none)

/-! ## The ring -/

/-- Records that a Cellar's part of the ring is long (R604). -/
def ringSize (s : State) : Nat := s.regionSize 2 / 256

/-- Unread records of the ring. -/
def ringCount (s : State) (c : Nat) : Nat :=
  let n := max 1 s.ringSize
  (s.getF (pgPMUT c) PMU_RING_WR.WR + n - s.getF (pgPMUT c) PMU_RING_RD.RD % n) % n

/-- HBM address of a record. -/
def ringAddr (s : State) (c i : Nat) : Nat := s.regionBase 2 + c * (s.regionSize 2 / 4) + 64 * i

/-- A record is written at WR (R604, R605). The ring is full while WR stands one record before RD. -/
def ringWrite (s : State) (c : Nat) (r : TraceRec) : State :=
  let pg := pgPMUT c
  let n := max 1 s.ringSize
  let wr := s.getF pg PMU_RING_WR.WR
  let full := decide (n ≤ s.ringCount c + 1)
  if full && s.flag pg PMU_RING_CTL.MODE then (s.addF pg PMU_RING_LOST.LOST).fire pg 0
  else
    let s1 := (s.hbmWrite (s.ringAddr c wr) ((traceBytes r).map some)).setF pg PMU_RING_WR.WR ((wr + 1) % n)
    let s2 := s1.onlyIf full fun t => (t.setF pg PMU_RING_RD.RD ((t.getF pg PMU_RING_RD.RD + 1) % n)).addF pg PMU_RING_LOST.LOST
    s2.onlyIf (decide (2 * s.ringCount c < n) && decide (n ≤ 2 * s2.ringCount c)) fun t => t.raiseInt pg 1

/-- The record of a Cellar that was completed first. -/
def traceNext (s : State) (c : Nat) : Option TraceRec :=
  (s.trace.filter fun (r : TraceRec) => r.cellar == c && r.out.isSome).foldl (fun a r =>
    match a with
    | none => some r
    | some x => if (r.out.getD (0, 0, 0)).2.1 < (x.out.getD (0, 0, 0)).2.1 then some r else some x) none

/-! ## Counters and accounts -/

/-- A software write of counter `j` (R596): one register, or the chained pair as one (R595). -/
def pmuWrite (s : State) (c j : Nat) (wide : Bool) (v : Dword) : State :=
  let s1 := s.setF (pgPMUC c) PMU_CTR.COUNT (v.toNat % 2 ^ 32) j
  if wide then s1.setF (pgPMUC c) PMU_CTR.COUNT (v.toNat / 2 ^ 32) (j + 1) else s1

/-- The eight accounts of a port, in the order of Table 18.6. -/
def saFields : List FRef :=
  [PMU_SA_DELIV.COUNT, PMU_SA_REPAIR.COUNT, PMU_SA_WASTED.COUNT, PMU_SA_FSTARVE.COUNT, PMU_SA_BBLOCK.COUNT, PMU_SA_OWNED.COUNT,
   PMU_SA_OWNDLV.COUNT, PMU_SA_OFFLINE.TICKS]

/-- PMU_EVTj is written (R593): it selects from the next tick; CHAIN stays 0 for an even counter. -/
def evtWrite (s : State) (c j : Nat) (v : Dword) : State :=
  ((s.noteEvt c j).plainWriteF (pgPMUC c) PMU_EVT.EVENT v j).onlyIf (j % 2 == 0) fun t => t.setF (pgPMUC c) PMU_EVT.CHAIN 0 j

/-- PMU_SA_CLR of page 0x62 + half of a Cellar is written (R600): the accounts of the ports named clear in the next tick. -/
def saClear (s : State) (c half ports : Nat) : State :=
  let l := ((List.range 8).filter fun j => bitAt ports j).map fun j => 16 * c + 8 * half + j
  { s with edge := { s.edge with clrDue := s.edge.clrDue ++ l.filter fun p => !s.edge.clrDue.contains p } }

/-- A new tick: the PMU_EVT registers written in the last select (R593), and the accounts that it named are 0 (R600). -/
def pmuTick (s : State) : State :=
  let l := s.edge.clrDue
  let s1 : State := { s with edge := { s.edge with evts := [], clrDue := [], clrNow := l } }
  s1.each l fun t p => t.each saFields fun u f => u.setF (pgPMUA (cellarOf p) (p % 16)) f 0 (p % 8)

/-- A Cellar copies its counters and accounts (R597). -/
def snapCellar (s : State) (c : Nat) : State :=
  let s1 := s.each (List.range 32) fun t j => t.setF (pgPMUC c) PMU_SCTR.COUNT (t.getF (pgPMUC c) PMU_CTR.COUNT j) j
  s1.each (List.range 16) fun t p => t.each saFields.zipIdx fun u f =>
    u.setF (pgPMUA c p) PMU_SA_SHADOW.COUNT (u.getF (pgPMUA c p) f.1 (p % 8)) (8 * (p % 8) + f.2)

end State

/-! ## Commands -/

/-- TRACE_RECORD_WRITE (R604): the record of Cellar `c` completed first goes to the ring; it yields to a placed spill burst that is due. A ring that is enabled without a region of a size
that R607 allows has no defined result. -/
def execTraceRecordWrite (c : Nat) (s : State) : Res :=
  match s.traceNext c with
  | none => s.done
  | some r =>
    let s1 : State := { s with trace := s.trace.filter fun (x : TraceRec) => decide (x.id ≠ r.id) }
    if s.cellarRun c = false ∨ s.spillDue.isSome = true then s.done
    else if s.flag (pgPMUT c) PMU_RING_CTL.EN = false then s1.done
    else if s.regionSize 2 = 0 ∨ s.regionSize 2 % 256 ≠ 0 then .fault (.undefinedResult 607)
    else (s1.ringWrite c r).done

/-- SAMPLE_PENDING_TIMEOUT (R603): the first sampled packet that has had no outcome for 1 s. -/
def execSamplePendingTimeout (s : State) : Res :=
  match s.trace.find? fun (r : TraceRec) => r.out.isNone && decide (r.acc + 1000000000 ≤ s.fabric) with
  | none => s.done
  | some r => (s.traceOut r.id 4 s.fabric 0xFF).done

/-- RING_RD_WRITE (R604): RD moves within RD to WR. -/
def execRingRdWrite (who : Requester) (c rd : Nat) (s : State) : Res :=
  (s.withAccess who (State.offOf (pgPMUT c) PMU_RING_RD.RD) 4 true fun t =>
    let n := max 1 t.ringSize
    let v := rd % 2 ^ 24
    if v < n ∧ (v + n - t.getF (pgPMUT c) PMU_RING_RD.RD % n) % n ≤ t.ringCount c then t.setF (pgPMUT c) PMU_RING_RD.RD v else t).done

/-- PMU_COUNTER_WRITE (R596): counter `j` of Cellar `c`; an 8 B access covers counters j and j + 1 (R58). -/
def execPmuCounterWrite (who : Requester) (c j : Nat) (wide : Bool) (value : Dword) (s : State) : Res :=
  if 4 ≤ c ∨ 32 ≤ j ∨ (wide = true ∧ j % 2 = 1) then s.done
  else (s.withAccess who (State.offOf (pgPMUC c) PMU_CTR.COUNT j) (if wide then 8 else 4) true fun t => t.pmuWrite c j wide value).done

/-- PMU_EVT_WRITE (R593): the selection of counter `j`. -/
def execPmuEvtWrite (who : Requester) (c j : Nat) (value : Word) (s : State) : Res :=
  if 4 ≤ c ∨ 32 ≤ j then s.done
  else (s.withAccess who (State.offOf (pgPMUC c) PMU_EVT.EVENT j) 4 true fun t => t.evtWrite c j (value.zeroExtend 64)).done

/-- PMU_GSNAP_GO (R597) through the page of Cellar `c`: dropped while a snapshot is pending. -/
def execPmuGsnapGo (who : Requester) (c : Nat) (s : State) : Res :=
  if 4 ≤ c then s.done
  else (s.withAccess who (State.offOf (pgPMUC c) PMU_GSNAP.GO) 4 true fun t =>
    if t.snapAt.isSome then t else { t with snapAt := some (t.ticks + 16) }).done

/-- PMU_SNAPSHOT_TICK (R597). -/
def execPmuSnapshotTick (s : State) : Res :=
  match s.snapAt with
  | none => s.done
  | some t0 =>
    if s.ticks < t0 then s.done
    else
      let s1 := s.each ((List.range 4).filter fun c => s.cellarRun c) fun t c => t.snapCellar c
      let s2 := s1.setF pgDEVPMU PMU_SNAP_T.TIME s.fabric
      ({ s2.setF pgDEVPMU PMU_SNAP_SEQ.SEQ ((s.getF pgDEVPMU PMU_SNAP_SEQ.SEQ + 1) % 2 ^ 32) with snapAt := none } : State).done

/-- PMU_SA_CLR (R600): the accounts of the ports named in page 0x62 + half of Cellar `c`. -/
def execPmuSaClr (who : Requester) (c half ports : Nat) (s : State) : Res :=
  if 4 ≤ c ∨ 2 ≤ half then s.done
  else (s.withAccess who (State.offOf (pgPMUA c (8 * half)) PMU_SA_CLR.CLR) 4 true fun t =>
    t.saClear c half ports).done

end Sys2Proof.Machine
end

