-- ==== Sys2Proof/Machine/Dma.lean ====
section
/-! DEFINITION. DMA engines (chapter 12): channels and transfers, scatter-gather lists, bursts and their requests, completion. -/

namespace Sys2Proof.Machine

/-- Page of a channel's register block, with its index in the page (R426). -/
def chPage (ch : Nat) : Nat := pgDMAC (ch / 256) (ch % 256)
/-- Index of a channel's block in its page. -/
def chIx (ch : Nat) : Nat := ch % 32
/-- Service channel (R424). -/
def isService (ch : Nat) : Bool := decide (192 ≤ ch % 256)

/-- The element that holds byte `o` of a side: its address, its length, the bytes of the side before it (R433). -/
def elemAt : List (Nat × Nat) → Nat → Nat → Option (Nat × Nat × Nat)
  | [], _, _ => none
  | (a, n) :: r, before, o => if o < before + n then some (a, n, before) else elemAt r (before + n) o

/-- Bytes that the known elements of a side cover. -/
def sideBytes (x : SgSide) : Nat := (x.elems.map (·.2)).sum

/-- The side needs another list fetch: its elements do not cover the transfer and END was not read. -/
def sideWants (x : SgSide) (count : Nat) : Bool := !x.ended && !x.busy && decide (sideBytes x < count)

/-- Bytes staged in an unbroken run from transfer offset `o` (R436). -/
def stagedFrom : List (Nat × List Byte) → Nat → List Byte
  | [], _ => []
  | (a, l) :: r, o => if a = o then l ++ stagedFrom r (o + l.length) else if a < o then stagedFrom r o else []

/-- The staged chunks less the `n` bytes from offset `o`. -/
def stagedDrop (l : List (Nat × List Byte)) (o n : Nat) : List (Nat × List Byte) :=
  l.filterMap fun c => if c.1 + c.2.length ≤ o + n then none
    else if c.1 < o + n then some (o + n, c.2.drop (o + n - c.1)) else some c

/-- Side of a transfer: `eng` 0 source, 1 destination. -/
def sideOf (x : Xfer) (eng : Nat) : SgSide := if eng = 0 then x.src else x.dst

/-- The elements that `n` bytes take. -/
def clip : Nat → List (Nat × Nat) → List (Nat × Nat)
  | _, [] => []
  | n, (a, l) :: r => if n = 0 then [] else (a, min n l) :: clip (n - min n l) r

/-- Source and destination bytes of a transfer overlap, as far as its lists are fetched (R456). -/
def selfOverlap (x : Xfer) : Bool :=
  (clip x.count x.src.elems).any fun a => (clip x.count x.dst.elems).any fun b => decide (a.1 < b.1 + b.2 ∧ b.1 < a.1 + a.2)

namespace State

/-! ## Channels -/

/-- Engine record. -/
def eng (s : State) (k : Nat) : EngSt := storeGet (fun _ => EngSt.init) s.engs k
/-- Change an engine record. -/
def modEng (s : State) (k : Nat) (f : EngSt → EngSt) : State := { s with engs := storeSet (fun _ => EngSt.init) s.engs k (f (s.eng k)) }

/-- STATE of a channel: 0 IDLE, 1 RUN, 2 DRAIN, 3 STOP. -/
def chState (s : State) (ch : Nat) : Nat := s.getF (chPage ch) DMA_STS.STATE (chIx ch)
/-- Set STATE. -/
def setChState (s : State) (ch v : Nat) : State := s.setF (chPage ch) DMA_STS.STATE v (chIx ch)

/-- DMA_CMD_DROP: a GO or a register write is dropped (R428, R429). -/
def dmaDrop (s : State) (ch : Nat) : State := s.fire (pgDMA (ch / 256)) 1 (s.partOfChan ch)

/-- Requester ID of a channel (R425): the VF of its instance, or the physical function of its partition. -/
def chanRid (s : State) (ch : Nat) : Nat :=
  let k := s.partOfChan ch
  match s.instOfChan ch with
  | some i => (s.part k).pfRid + (i - s.getF pgVIM VIM_PALLOC.BASE k) + 1
  | none => (s.part k).pfRid

/-- Binding of a channel's requests (R401, R425). -/
def chanBound (s : State) (ch : Nat) : Option Bound := (s.instOfChan ch).map fun i => ⟨none, i, (s.inst i).gen⟩

/-- Packets of a transfer that have not passed the ordering point. -/
def unpassed (s : State) (ch num : Nat) (f : Packet → Bool) : List Packet :=
  s.packets.filter fun p => (p.place == Place.ingress || p.place == Place.walk) && f p && (match p.owner with
    | .dma c n _ => c == ch && n == num
    | .requester | .npw _ | .split _ | .prefetch _ | .fabric _ | .dmaList _ _ _ | .load _ => false)

/-- Staging room that a channel uses: bytes being read, staged, and written but not past the ordering point (R436). -/
def stagingUsed (s : State) (ch : Nat) : Nat :=
  ((s.chan ch).xfers.map fun x => (x.inflight.map (·.2)).sum + (x.staged.map (·.2.length)).sum
    + ((s.unpassed ch x.num fun p => isWrite p.tlp).map (·.tlp.data.length)).sum).sum

/-- The active transfer: the last that is not in DRAIN. -/
def running (s : State) (ch : Nat) : Option Xfer :=
  match (s.chan ch).xfers.getLast? with
  | none => none
  | some x => if x.drain then none else some x

/-! ## Lists (R433, R434) -/

/-- A list read of a side: up to 256 B within one 4 KiB page; an address that is not 16 B-aligned fails the transfer. -/
def listFetch (s : State) (ch : Nat) (x : Xfer) (side : Nat) : State :=
  let sd := sideOf x side
  if sd.next % 16 ≠ 0 then s.modXfer ch x.num fun y => y.failAt (sideBytes sd) 9 0 sd.next
  else
    let t : Tlp := { kind := .mrd, rid := s.chanRid ch, tag := 0, pasid := none, tc := 0, addr := sd.next,
                     len := min 256 (4096 - sd.next % 4096), mask := [], data := [], hdr := 16, ro := false, ido := false,
                     poisoned := false, op := .fetchAdd, status := .sc }
    let c := ch / 256
    let s1 := s.modXfer ch x.num fun y =>
      if side = 0 then { y with src := { y.src with busy := true } } else { y with dst := { y.dst with busy := true } }
    let p := { s1.newPacket t (64 + c) c (.chan ch) (s.partOfChan ch) (.dmaList ch x.num side) with bound := s.chanBound ch, place := .walk }
    (s1.addPacket p).ingestMem p

/-- The channel's requests may be issued: its partition is known and a tenant's instance is LIVE. -/
def chanLive (s : State) (ch : Nat) : Bool :=
  s.partOfChan ch != 31 && (match s.instOfChan ch with
    | some i => (s.inst i).stt == 1
    | none => true)

/-- Fetch what the active transfer's sides need next. -/
def fetchNext (s : State) (ch : Nat) : State :=
  if !s.chanLive ch then s else
  (List.range 2).foldl (fun t side => match t.running ch with
    | none => t
    | some x => if x.fail.isNone && sideWants (sideOf x side) x.count then t.listFetch ch x side else t) s

/-- Judge the entries of a fetched segment from `at0` on (Table 12.1, R434): the side after them, or the failing entry's address. -/
def listParse (count : Nat) : Nat → SgSide → List Byte → SgSide × Option Nat
  | 0, sd, _ => (sd, none)
  | fuel + 1, sd, l =>
    if l.length < 16 ∨ count ≤ sideBytes sd ∨ sd.ended = true then (sd, none)
    else
      let addr := leNat (l.take 8)
      let len := leNat ((l.drop 8).take 4)
      let fl := leNat ((l.drop 12).take 4)
      if fl % 2 ^ 30 ≠ 0 then (sd, some sd.next)
      else if fl.testBit 30 then
        (if len ≠ 0 ∨ addr % 16 ≠ 0 then (sd, some sd.next) else ({ sd with next := addr }, none))
      else if len = 0 then (sd, some sd.next)
      else
        let sd1 := { sd with elems := sd.elems ++ [(addr, len)], next := sd.next + 16, ended := fl.testBit 31 }
        if sd1.ended ∧ sideBytes sd1 < count then (sd1, some sd1.next) else listParse count fuel sd1 (l.drop 16)

/-! ## Transfers -/

/-- MSI-X of a completion with INT_EN (R432). -/
def chanInt (s : State) (ch : Nat) : State :=
  match s.instOfChan ch with
  | some i => s.sendVfMsix i (ch % 256 - s.getF (pgVIMI i) VIM_ICHAN.FIRST (i % 64))
  | none => s.sendMsix (s.partOfChan ch) (1792 + 64 * (ch / 256) + (ch % 256 - 192))

/-- Lowest of two optional offsets. -/
def lowest (a : Option Nat) (b : Nat) : Nat := min (a.getD b) b

/-- F, STATUS, and the failure they come from (R444). A lost write below every other failure decides F, and then no cause of Table 12.2
above it. -/
def xferResult (s : State) (ch : Nat) (x : Xfer) : Nat × Nat :=
  let unwritten := if x.wr < x.count then x.wr else x.count
  let f0 := min unwritten (match x.fail with
    | some e => e.off
    | none => x.count)
  let F := lowest x.lostAt f0
  let cut := decide (s.chState ch = 3 ∧ x.wr < x.count)
  let code := match x.fail with
    | some e => if F < f0 then (if cut then 2 else 1) else e.code
    | none => if cut then 2 else if x.lost ≠ 0 then 1 else 0
  (F, code)

/-- Address on a side of a transfer offset. -/
def xferAddr (x : Xfer) (e o : Nat) : Option Nat :=
  (elemAt (sideOf x e).elems 0 o).map fun y => y.1 + (o - y.2.2)

/-- A transfer completes (R430, R444, R445, R450). -/
def xferFinish (s : State) (ch : Nat) (x : Xfer) : State :=
  let pg := chPage ch
  let i := chIx ch
  let c := ch / 256
  let (F, code) := s.xferResult ch x
  let s1 := ((s.setF pg DMA_STS.STATUS code i).setFlag pg DMA_STS.DONE true i).setF pg DMA_DONEB.BYTES F i
  let s2 := (s1.setF pg DMA_LOSTC.COUNT (min 0xFFFFFF x.lost) i).addF (pgDMA c) DMA_CNT1.XFERS
  let s3 := s2.onlyIf (decide (3 ≤ code)) fun t =>
    let t1 := t.fire (pgDMA c) 0 (t.partOfChan ch)
    if t1.flag (pgDMA c) DMA_ERR_INFO.VALID then t1
    else
      let e := x.fail.getD ⟨0, 0, 0, 0⟩
      let t2 := (t1.setF (pgDMA c) DMA_ERR_ADDR.ADDR ((xferAddr x e.eng F).getD e.addr)).setFlag
        (pgDMA c) DMA_ERR_INFO.VALID true
      ((t2.setF (pgDMA c) DMA_ERR_INFO.CHANNEL (ch % 256)).setF (pgDMA c) DMA_ERR_INFO.STATUS code).setF (pgDMA c)
        DMA_ERR_INFO.ENGINE e.eng
  let s4 := s3.onlyIf x.intEn fun t => t.chanInt ch
  (s4.modChan ch fun y => { y with xfers := y.xfers.filter fun z => decide (z.num ≠ x.num) }).onlyIf (decide (2 ≤ code)) fun t =>
    t.setFlag pg DMA_STS.PENDING false i

/-- The register set becomes a transfer that runs (R428, R433). -/
def xferBegin (s : State) (ch : Nat) (fresh : Bool) : State :=
  let pg := chPage ch
  let i := chIx ch
  let n := s.getF pg DMA_COUNT.BYTES i
  let sg := fun (f : FRef) => !isService ch && s.flag pg f i
  let side := fun (f : FRef) (a : Nat) => if sg f then ({ elems := [], next := a, ended := false, busy := false } : SgSide)
    else { elems := [(a, n)], next := 0, ended := true, busy := false }
  let num := (s.chan ch).next
  let full : Int := 65536 * (s.burstNow (pgDMA (ch / 256)) DMA_RBURST.BURST (ch % 256) : Int)
  let x : Xfer := { num := num, count := n, paced := s.flag pg DMA_XCTL.PACED i, intEn := s.flag pg DMA_XCTL.INT_EN i,
                    src := side DMA_XCTL.SRC_SG (s.getF pg DMA_SRC.ADDR i), dst := side DMA_XCTL.DST_SG (s.getF pg DMA_DST.ADDR i),
                    rd := 0, staged := [], wr := 0, prog := 0, inflight := [], lost := 0, lostAt := none, fail := none,
                    drain := decide (n = 0), since := s.listDirty.length }
  let s1 := s.modChan ch fun y =>
    { y with xfers := y.xfers ++ [x], next := num + 1,
             bucket := if fresh then full else y.bucket }
  let s2 := (s1.setChState ch 1).setF pg DMA_PROG.BYTES 0 i
  if n = 0 then
    (if (s2.chan ch).xfers.length = 1 then (s2.xferFinish ch x).setChState ch 0 else s2.setChState ch 2)
  else s2.fetchNext ch

/-- The pending transfer becomes active (R428). -/
def pendBegin (s : State) (ch : Nat) : State := (s.setFlag (chPage ch) DMA_STS.PENDING false (chIx ch)).xferBegin ch false

/-- A burst of the channel runs on one of its Cellar's engines. -/
def burstRuns (s : State) (ch : Nat) : Bool :=
  [0, 1].any fun e => match (s.eng (2 * (ch / 256) + e)).run with
    | some (c, _) => c == ch
    | none => false

/-- The active transfer enters DRAIN when its last write request has passed, or when it failed or was stopped and its bursts are over
(R430, R445, R448). A transfer that has not failed hands over to the pending one in that tick (R428). -/
def drainCheck (s : State) (ch : Nat) : State :=
  match s.running ch with
  | none => s
  | some x =>
    let writes := !(s.unpassed ch x.num fun p => isWrite p.tlp).isEmpty
    let cut := (x.fail.isSome || s.chState ch == 3) && !s.burstRuns ch
    if writes || !(decide (x.wr = x.count) || cut) then s
    else
      let s1 := s.modXfer ch x.num fun y => { y with drain := true }
      if s1.chState ch = 3 then s1
      else if x.fail.isNone ∧ s1.flag (chPage ch) DMA_STS.PENDING (chIx ch) = true then s1.pendBegin ch
      else s1.setChState ch 2

/-- GO (R428, R429): while its partition is in PARTITION_FATAL, or the device in DEVICE_FATAL, the channel stops at once (R468, R469). -/
def dmaGo (s : State) (ch : Nat) : State :=
  let st := s.chState ch
  if s.partOfChan ch = 31 then s.dmaDrop ch
  else if st = 0 then
    (s.xferBegin ch true).onlyIf (s.devFatal || s.partFatal (s.partOfChan ch)) fun t => (t.stopChannel ch).drainCheck ch
  else if isService ch then s.dmaDrop ch
  else if st = 3 ∨ s.flag (chPage ch) DMA_STS.PENDING (chIx ch) = true then s.dmaDrop ch
  else s.setFlag (chPage ch) DMA_STS.PENDING true (chIx ch)

/-- Every write of a transfer is resolved and no read of it is outstanding (R430). -/
def xferResolved (s : State) (ch : Nat) (x : Xfer) : Bool :=
  let mine := fun (d : Option (Nat × Nat × Nat)) => match d with
    | some (c, n, _) => c == ch && n == x.num
    | none => false
  x.drain && x.inflight.isEmpty && (s.unpassed ch x.num fun _ => true).isEmpty && !(s.openW.any fun w => mine w.dma)
    && !(s.flt.late.any fun l => mine l.dma)

/-- The oldest transfer of a channel completes (R430, R431, R445). -/
def xferComplete (s : State) (ch : Nat) (x : Xfer) : State :=
  let s1 := s.xferFinish ch x
  if !(s1.chan ch).xfers.isEmpty then s1
  else if s1.flag (chPage ch) DMA_STS.PENDING (chIx ch) then s1.pendBegin ch
  else s1.setChState ch 0

/-! ## Bursts (R435 to R443) -/

/-- Address, element and bytes to the end of the element for the next byte of a side (R433, R435). An element is cut at 4 KiB of instance
address where the instance is translated. -/
def burstPiece (s : State) (ch : Nat) (x : Xfer) (e : Nat) : Option (Nat × Nat × Nat) :=
  let o := if e = 0 then x.rd else x.wr
  match elemAt (sideOf x e).elems 0 o with
  | none => none
  | some (a0, n0, before) =>
    let n := min n0 (x.count - before)
    let addr := a0 + (o - before)
    let trans := match s.instOfChan ch with
      | some i => s.flag (pgVIMI i) VIM_ICTL.TRANS (i % 64)
      | none => false
    if trans then
      let lo := max a0 (addr / 4096 * 4096)
      let hi := min (a0 + n) (addr / 4096 * 4096 + 4096)
      some (addr, lo, hi - lo)
    else some (addr, a0, n)

/-- Length of the burst that an engine may start for a channel, of at most `cap` bytes; 0 when it may start none (R436, R439, R441, R487). -/
def burstLen (s : State) (ch e cap : Nat) : Nat :=
  match s.running ch with
  | none => 0
  | some x =>
    if s.standby = true ∨ s.chState ch ≠ 1 ∨ x.fail.isSome = true ∨ s.chanLive ch = false
        ∨ (x.paced = true ∧ s.flag (chPage ch) DMA_PACE.REQ (chIx ch) = false) then 0
    else
      match s.burstPiece ch x e with
      | none => 0
      | some (addr, lo, n) =>
        let avail := if e = 0 then min (x.count - x.rd) (4096 * s.getF (pgDMA (ch / 256)) DMA_CHCFG.STAGE (ch % 256) - s.stagingUsed ch)
          else (stagedFrom x.staged x.wr).length
        min (min cap 4096) (min (min (4096 - addr % 4096) (lo + n - addr)) avail)

/-- One request of a burst enters the ingress pipeline of the Cellar (R435, R436). -/
def burstReq (s : State) (ch num off : Nat) (write : Bool) (addr lo n : Nat) (len : Nat) (data : List Byte) (mask : List Bool) : State :=
  let c := ch / 256
  let t : Tlp := { kind := if write then .mwr else .mrd, rid := s.chanRid ch, tag := 0, pasid := none, tc := 0, addr := addr, len := len,
                   mask := mask, data := data, hdr := 16, ro := false, ido := false, poisoned := false, op := .fetchAdd, status := .sc }
  let p := { s.newPacket t (64 + c) c (.chan ch) (s.partOfChan ch) (.dma ch num off) with
    bound := s.chanBound ch, place := .walk, ebase := lo, elen := n }
  (s.addPacket p).ingestMem p

/-- A burst of `b` bytes starts for a channel (R436, R437, R438). Of its staged words, by bit of `words`, those below bit 512 are beyond correction when
`ecc` says so, and those from there on corrected as well. A
transfer onto its own source bytes writes free bytes (R456). -/
def burstStart (s : State) (ch e b : Nat) (ecc : Ecc) (words : Nat) : State :=
  match s.running ch with
  | none => s
  | some x =>
    match s.burstPiece ch x e with
    | none => s
    | some (addr, lo, n) =>
      let c := ch / 256
      let k := s.partOfChan ch
      let s1 := s.modEng (2 * c + e) fun y => { y with run := some (ch, s.ticks + 2 * ceilDiv b 256), gen := ((s.chanBound ch).map (·.gen)).getD 0 }
      if e = 0 then
        let rq := cuts 4096 0 b (s.part k).maxRead
        let s2 := s1.modXfer ch x.num fun y => { y with rd := y.rd + b, inflight := y.inflight ++ rq.map fun z => (x.rd + z.1, z.2) }
        s2.each rq fun t z => t.burstReq ch x.num (x.rd + z.1) false (addr + z.1) lo n z.2 [] []
      else
        let (data, s1) := if selfOverlap x then (freeBytesN s1.free b, ({ s1 with free := s1.free + 1 } : State))
          else ((stagedFrom x.staged x.wr).take b, s1)
        let bads := (List.range (ceilDiv b 8)).filter fun w => ecc == .uncorrectable && words.testBit w
        let bad := !bads.isEmpty
        let good := fun (j : Nat) => !bads.contains (j / 8)
        let s2 := s1.modXfer ch x.num fun y =>
          let z := { y with wr := y.wr + b, staged := stagedDrop y.staged y.wr b }
          match bads with
          | [] => z
          | w :: _ => z.failAt (x.wr + 8 * w) 7 1 (addr + 8 * w)
        let s3 := (s2.onlyIf (ecc == .corrected || (ecc == .uncorrectable && decide (2 ^ 512 ≤ words))) fun t => t.fire (pgDMA c) 2 k).onlyIf bad fun t =>
          t.fire (pgDMA c) 3 k
        s3.each (cuts 4096 0 b (s.part k).maxPay) fun t z =>
          let mask := (List.range z.2).map fun j => good (z.1 + j)
          if mask.any id then
            t.burstReq ch x.num (x.wr + z.1) true (addr + z.1) lo n z.2 ((data.drop z.1).take z.2) (if bad then mask else [])
          else t

/-- A placed burst at an engine that is free (R439). -/
def placedStart (s : State) (c : Nat) (d : DmaSlot) (ecc : Ecc) (word : Nat) : State :=
  let ch := 256 * c + d.chan % 256
  let b := s.burstLen ch (d.eng % 2) (256 * d.len)
  if b = 0 then s.addF (pgDMA c) DMA_CNT0.UNUSED
  else ((s.addF (pgDMA c) DMA_CNT0.PLACED).count c 0xA 0 0 1).burstStart ch (d.eng % 2) b ecc word

/-- Ticks to the next placed START of an engine; none while no burst is placed (R441). -/
def placedGap (s : State) (c e : Nat) : Option Nat :=
  match s.sched.active with
  | none => none
  | some v =>
    let n := max 1 v.cycle
    let pos := s.cycPos s.fabric
    ((storeGet (fun _ => ([] : List DmaSlot)) v.dma c).filter fun d => d.eng == e).foldl (fun a d =>
      let g := if d.start % n ≤ pos then d.start % n + n - pos else d.start % n - pos
      match a with
      | none => some g
      | some x => some (min x g)) none

/-- A placed burst of an engine is due in the present tick and has not had its turn, which comes before every best-effort burst (R439). -/
def placedDue (s : State) (c e : Nat) : Bool :=
  match s.sched.active with
  | none => false
  | some v => (s.eng (2 * c + e)).placed != some s.fabric
      && (storeGet (fun _ => ([] : List DmaSlot)) v.dma c).any fun d => d.eng % 2 == e && d.start == s.cycPos s.fabric

/-- Length of the best-effort burst of a channel (R441, R442). -/
def beLen (s : State) (c e ch : Nat) : Nat :=
  let cap := 256 * s.getF (pgDMA c) DMA_CHCFG.MAXLEN (ch % 256)
  let cap := match s.placedGap c e with
    | some g => min cap (g / 2 * 256)
    | none => cap
  let passes := e != 0 || !s.flag (pgDMA c) DMA_RATE.EN (ch % 256) || decide (0 ≤ (s.chan ch).bucket)
  if passes then s.burstLen ch e cap else 0

/-- Channel of a best-effort burst (R441): PRIO 1 first, round-robin within a level. -/
def bePick (s : State) (c e : Nat) : Option (Nat × Nat) :=
  let el := (s.chans.map (·.1)).filter fun ch => decide (ch / 256 = c) && decide (0 < s.beLen c e ch)
  [1, 0].findSome? fun l =>
    let mine := el.filter fun ch => s.getF (pgDMA c) DMA_CHCFG.PRIO (ch % 256) == l
    let ptr := if l = 0 then (s.eng (2 * c + e)).ptr0 else (s.eng (2 * c + e)).ptr1
    ((mine.find? fun ch => decide (ptr ≤ ch % 256)).orElse fun _ => mine.head?).map fun ch => (ch, l)

/-- A best-effort burst (R441, R442). -/
def beBurst (s : State) (c e : Nat) (ecc : Ecc) (word : Nat) : State :=
  match s.bePick c e with
  | none => s
  | some (ch, l) =>
    let b := s.beLen c e ch
    let s1 := s.modEng (2 * c + e) fun y =>
      if l = 0 then { y with ptr0 := (ch % 256 + 1) % 256 } else { y with ptr1 := (ch % 256 + 1) % 256 }
    let s2 := s1.onlyIf (e == 0 && s.flag (pgDMA c) DMA_RATE.EN (ch % 256)) fun t =>
      t.modChan ch fun y => { y with bucket := y.bucket - 65536 * (ceilDiv b 256 : Int) }
    (s2.count c 0xB 0 0 1).burstStart ch e b ecc word

/-- What the code of a held-back burst's staged words finds, which no command brings (log 4): one of the three outcomes, and the words. -/
def freeEcc (s : State) : Ecc × Nat × State :=
  ((match Config.free s.free % 3 with
    | 0 => .ok
    | 1 => .corrected
    | _ => .uncorrectable), Config.free (s.free + 1), { s with free := s.free + 2 })

/-- Placed bursts that engine `k` of Cellar `c` held back: the first that can start does, and counts as late (R437, R439). -/
def lateStart (s : State) (c k : Nat) : List DmaSlot → State
  | [] => s
  | d :: r =>
    let (ecc, words, s1) := (s.modEng k fun y => { y with late := r }).freeEcc
    let s2 := s1.placedStart c d ecc words
    if (s2.eng k).run.isSome then s2.addF (pgDMA c) DMA_CNT1.LATE else s2.lateStart c k r

/-- The burst of an engine is over (R437): its writes have all passed. The first placed burst held back starts then. -/
def burstOver (s : State) (c e : Nat) (ch : Nat) : State :=
  let k := 2 * c + e
  let s1 := (s.modEng k fun y => { y with run := none }).drainCheck ch
  s1.lateStart c k (s1.eng k).late

/-! ## Access to a channel -/

/-- The channel's instance is RESETTING: writes to its page are dropped (R415). -/
def chanResetting (s : State) (ch : Nat) : Bool := (s.instOfChan ch).any fun i => (s.inst i).stt == 2

/-- A write to a channel's registers, through BAR0 or through the page that a tenant's VF BAR2 shows (R399, R426). -/
def chanAccess (s : State) (who : Requester) (ch : Nat) (f : FRef) (len : Nat) (g : State → State) : State :=
  let mine := match who with
    | .tenant i => (s.instChans i).contains ch
    | .host _ | .mgmt | .debug => true
  if 1024 ≤ ch ∨ mine = false then s else s.withAccess who (offOf (chPage ch) f (chIx ch)) len true fun t => t.onlyIf (!t.chanResetting ch) g

/-- A write to SRC, DST, COUNT or XCTL (R428, R429). -/
def shadowWrite (s : State) (ch : Nat) (reg : DmaReg) (v : Dword) : State :=
  let blocked := if isService ch then s.chState ch != 0 else s.flag (chPage ch) DMA_STS.PENDING (chIx ch)
  if blocked then s.dmaDrop ch
  else
    match reg with
    | .src => s.plainWriteF (chPage ch) DMA_SRC.ADDR v (chIx ch)
    | .dst => s.plainWriteF (chPage ch) DMA_DST.ADDR v (chIx ch)
    | .count => s.plainWriteF (chPage ch) DMA_COUNT.BYTES v (chIx ch)
    | .xctl =>
      let t := s.plainWriteF (chPage ch) DMA_XCTL.SRC_SG v (chIx ch)
      if isService ch then (t.setFlag (chPage ch) DMA_XCTL.SRC_SG false (chIx ch)).setFlag (chPage ch) DMA_XCTL.DST_SG false (chIx ch) else t

/-- STOP, with a GO of the same access, which is dropped (R448). -/
def dmaStop (s : State) (ch : Nat) (go : Bool) : State :=
  let s1 := (s.stopChannel ch).drainCheck ch
  if go then s1.dmaDrop ch else s1

end State

/-! ## Commands -/

/-- DMA_GO (R428). -/
def execDmaGo (who : Requester) (chan : Nat) (s : State) : Res :=
  (s.chanAccess who chan DMA_CMD.GO 4 fun t => t.dmaGo chan).done

/-- DMA_STOP (R448). -/
def execDmaStop (who : Requester) (chan : Nat) (go : Bool) (s : State) : Res :=
  (s.chanAccess who chan DMA_CMD.STOP 4 fun t => t.dmaStop chan go).done

/-- DMA_PACE_WRITE (R443). -/
def execDmaPaceWrite (who : Requester) (chan : Nat) (req : Bool) (s : State) : Res :=
  (s.chanAccess who chan DMA_PACE.REQ 4 fun t => t.setFlag (chPage chan) DMA_PACE.REQ req (chIx chan)).done

/-- DMA_SHADOW_WRITE (R428). -/
def execDmaShadowWrite (who : Requester) (chan : Nat) (reg : DmaReg) (value : Dword) (s : State) : Res :=
  let f := match reg with
    | .src => DMA_SRC.ADDR
    | .dst => DMA_DST.ADDR
    | .count => DMA_COUNT.BYTES
    | .xctl => DMA_XCTL.SRC_SG
  let n := match reg with
    | .src | .dst => 8
    | .count | .xctl => 4
  (s.chanAccess who chan f n fun t => t.shadowWrite chan reg value).done

/-- DMA_PLACED_BURST (R439): entry `index` of Cellar `c`'s DMA burst list, at its cycle tick, once; an engine that a burst still occupies starts it
later (R437). -/
def execDmaPlacedBurst (c index : Nat) (ecc : Ecc) (word : Nat) (s : State) : Res :=
  match s.sched.active with
  | none => s.done
  | some v =>
    match (storeGet (fun _ => ([] : List DmaSlot)) v.dma c)[index]? with
    | none => s.done
    | some d =>
      if 4 ≤ c ∨ s.devFatal = true ∨ s.cellarRun c = false ∨ s.cycPos s.fabric ≠ d.start then s.done
      else
        let k := 2 * c + d.eng % 2
        if (s.eng k).placed = some s.fabric then s.done
        else
          let s1 := s.modEng k fun y => { y with placed := some s.fabric }
          if (s.eng k).run.isSome then (s1.modEng k fun y => { y with late := y.late ++ [d] }).done
          else (s1.placedStart c d ecc word).done

/-- DMA_BE_BURST (R441) on a free engine of Cellar `c`: `eng` 0 read, 1 write. -/
def execDmaBeBurst (c eng : Nat) (ecc : Ecc) (word : Nat) (s : State) : Res :=
  if 4 ≤ c ∨ 2 ≤ eng ∨ s.devFatal = true ∨ s.cellarRun c = false ∨ (s.eng (2 * c + eng)).run.isSome = true
      ∨ (s.eng (2 * c + eng)).late.isEmpty = false ∨ s.placedDue c eng = true then s.done
  else (s.beBurst c eng ecc word).done

/-- VF_ENABLE_CHANGE (R412): undefined when it brings an instance whose channels another has (R423). A channel that was started while its instance was
ABSENT reads its list once it is LIVE (R397). -/
def execVfEnableChange (part : Nat) (enable : Bool) (num : Nat) (s : State) : Res :=
  if s.partOn part then
    if s.vfClash part enable num then .fault (.undefinedResult 423)
    else
      let fresh := (s.partInsts part).filter fun i => (s.inst i).stt == 0
      ((s.vfChange part enable num).each fresh fun t i => t.each ((t.instChans i).filter fun ch => t.chState ch == 1) State.fetchNext).done
  else s.done

/-- DMA_BURST_END (R437): the occupancy is over, and a write burst's requests have passed the ordering point. -/
def execDmaBurstEnd (c eng : Nat) (s : State) : Res :=
  match (s.eng (2 * c + eng)).run with
  | none => s.done
  | some (ch, t) =>
    if 4 ≤ c ∨ 2 ≤ eng ∨ s.ticks < t
        ∨ (eng = 1 ∧ (s.chan ch).xfers.any (fun x => !(s.unpassed ch x.num fun p => isWrite p.tlp).isEmpty) = true) then s.done
    else (s.burstOver c eng ch).done

/-- DMA_LIST_FETCH_DONE (R434): the oldest list read of a channel that has returned. -/
def execDmaListFetchDone (chan : Nat) (s : State) : Res :=
  match (s.chan chan).lists with
  | [] => s.done
  | (num, side, status, data, poisoned) :: r =>
    let s1 := s.modChan chan fun y => { y with lists := r }
    match (s1.running chan).filter fun x => x.num == num with
    | none => s1.done
    | some x =>
      let sd0 := sideOf x side
      let put := fun (y : Xfer) (z : SgSide) => if side = 0 then { y with src := z } else { y with dst := z }
      if status ≠ .sc ∨ poisoned = true then
        ((s1.modXfer chan num fun y => (put y { sd0 with busy := false }).failAt (sideBytes sd0) 9 0 sd0.next).drainCheck chan).done
      else
        let (sd1, bad) := State.listParse x.count 17 { sd0 with busy := false } data
        let s2 := s1.modXfer chan num fun y => match bad with
          | some a => (put y sd1).failAt (sideBytes sd1) 9 0 a
          | none => put y sd1
        ((s2.fetchNext chan).drainCheck chan).done

/-- DMA_XFER_COMPLETE (R430): the oldest transfer of a channel, once each of its writes is resolved. -/
def execDmaXferComplete (chan : Nat) (s : State) : Res :=
  let s1 := s.drainCheck chan
  match (s1.chan chan).xfers with
  | [] => s1.done
  | x :: _ => if !s1.chanResetting chan && s1.xferResolved chan x then (s1.xferComplete chan x).done else s1.done

end Sys2Proof.Machine
end

