-- ==== Sys2Proof/Machine/Faults.lean ====
section
/-! DEFINITION. The commands of fault collection (chapter 13): Lees Log records, the pin QF_FAULT_N, log pointers, forced events
and acknowledgement. -/

namespace Sys2Proof.Machine

/-- Rank of a late write among those that wait: ports by number, then channels; within one, by write sequence number (R473). -/
def lateKey (l : LateWrite) : Nat × Nat :=
  (match l.ini with
   | .chan c => 128 + c
   | .port _ _ _ | .fabric _ _ _ _ | .cxl _ | .block _ => l.body.port, l.body.wseq)

/-- One key ranks before another. -/
def keyLt (a b : Nat × Nat) : Bool := decide (a.1 < b.1) || (a.1 == b.1 && decide (a.2 < b.2))

/-- The late write whose record is made next. -/
def nextLate : List LateWrite → Option LateWrite
  | [] => none
  | l :: r => match nextLate r with
    | none => some l
    | some m => if keyLt (lateKey m) (lateKey l) then some m else some l

namespace State

/-! ## Lees Log records (R471 to R473) -/

/-- The binding entry in which a lost write counts (R472): the writer is bound and the record's generation is current. A record of
RACKING is not tested for its generation, one of PART_RESET counts nowhere (R502). -/
def lossEntry (s : State) (reason : Nat) (summary : Bool) (b : Option Bound) : Option Nat :=
  match b with
  | none => none
  | some x => if reason = 0xA then none
    else if summary || reason == 0xB || decide (x.gen = (s.inst x.vi).gen) then x.entry else none

/-- Count a lost write in a binding entry. -/
def addLoss (s : State) (e n : Nat) : State :=
  { s with bind := storeSet (fun _ => ⟨0, 0, 0⟩) s.bind e { s.bindAt e with lost := (s.bindAt e).lost + n } }

/-- Count a lost write of a stream for the ledger (R496), with number `w`; a stream that the table does not hold comes into it while the pair mirrors its
partition. -/
def streamLoss (s : State) (part rid : Nat) (pasid : Option Nat) (w : Nat) : State :=
  let k : StreamKey := ⟨part, rid, pasid⟩
  let add := s.mirroring && bitAt (s.getF pgMIR MIR_PMIRROR.PARTS) part && !(s.mir.streams.any fun x => decide (x.key = k))
    && decide (s.mir.streams.length < 8192)
  let l := if add then s.mir.streams ++ [({ key := k, point := none, lost := 0, high := w, broken := false, changed := true } : MirStream)]
    else s.mir.streams
  { s with mir := { s.mir with streams := l.map fun (x : MirStream) => if x.key = k then { x with lost := x.lost + 1, changed := true } else x } }

/-- The record goes into the Lees Log, or is dropped by a full one; RSEQ advances (R473). -/
def leesStore (s : State) (r : LeesRec) : State :=
  let n := s.getF pgFLT FLT_LL_SEQ.RSEQ
  let wr := s.getF pgFLT FLT_LL_PTR.WR
  let s1 := s.setF pgFLT FLT_LL_SEQ.RSEQ ((n + 1) % 2 ^ 32)
  let s2 := s1.raiseInt pgFLT 2
  if 4095 ≤ s.leesCount then (s2.addF pgFLT FLT_LL_DROP.COUNT).fire pgFLT 1 r.part r.port
  else
    let s3 := { s2 with flt := { s2.flt with lees := storeInsert s2.flt.lees wr { r with time := s.fabric, rseq := n } } }
    let s4 := s3.setF pgFLT FLT_LL_PTR.WR ((wr + 1) % 4096)
    s4.onlyIf (decide (3072 ≤ s4.leesCount)) fun t => t.raiseInt pgFLT 8

/-- Steps 1 to 5 of R471 for one write, or for the writes of a summary. -/
def leesMake (s : State) (l : LateWrite) : State :=
  let ws := (l.ini, l.bound) :: l.others
  let sum0 := l.body.summary
  let es := ws.map fun w => s.lossEntry l.body.reason sum0 w.2
  let gen := match l.bound with
    | some b => if sum0 then (s.inst b.vi).gen else l.body.gen
    | none => l.body.gen
  let rec0 := { l.body with gen := gen, nofence := es.all (·.isNone) }
  let s1 := (s.leesStore rec0).fire pgFLT 0 l.body.part l.body.port
  let s2 := (s1.sendAer l.body.part 1).each ws fun t w => t.exception w.1
  let s3 := s2.each (es.filterMap id) fun t e => t.addLoss e 1
  let s4 := s3.each ws fun t w => match w.1 with
    | .port _ rid pasid => t.streamLoss l.body.part rid pasid l.body.wseq
    | .fabric _ _ _ _ | .cxl _ | .chan _ | .block _ => t
  let s5 := match l.dma with
    | some (ch, num, off) => s4.modXfer ch num fun x => { x with lost := x.lost + 1, lostAt := some (lowest x.lostAt off) }
    | none => s4
  s5.onlyIf (l.body.reason == 0xA) fun t => t.clearLost fun b => t.partOfInst (bindVi b) == l.body.part

/-! ## Pin (R474 to R477) -/

/-- The end of a pulse: software owns the pin (R475). -/
def pulseOver (s : State) : State :=
  let s1 : State := { s with flt := { s.flt with pulseEnd := none } }
  let s2 := s1.setFlag pgFLT FLT_PIN.OWNED true
  s2.setPin (s2.pinForced || s2.flag pgFLT FLT_PIN.DRIVE)

/-- REARM (R475). -/
def rearm (s : State) : State :=
  if s.flag pgFLT FLT_PIN.OWNED then (s.setFlag pgFLT FLT_PIN.OWNED false).setPin s.pinForced else s

/-- A write of DRIVE. -/
def pinDrive (s : State) (b : Bool) : State :=
  let s1 := s.setFlag pgFLT FLT_PIN.DRIVE b
  s1.onlyIf (s1.flag pgFLT FLT_PIN.OWNED) fun t => t.setPin (t.pinForced || b)

/-- A write of PIN_MODE (R477). -/
def pinMode (s : State) (b : Bool) : State :=
  if s.flag pgFLT FLT_CTL.PIN_MODE = b then s
  else
    let s1 := (s.setFlag pgFLT FLT_CTL.PIN_MODE b).setFlag pgFLT FLT_PIN.OWNED false
    let s2 : State := { s1 with flt := { s1.flt with pulseEnd := none } }
    s2.setPin (s2.pinForced || (!b && s2.pinLevel))

/-! ## Registers -/

/-- RD moves within RD to WR of a ring of `n` (R481). -/
def moveRd (s : State) (rdF wrF : FRef) (n rd : Nat) : State :=
  let cur := s.getF pgFLT rdF
  if (rd % n + n - cur) % n ≤ (s.getF pgFLT wrF + n - cur) % n then s.setF pgFLT rdF (rd % n) else s

/-- Sources of a page (R457): bits 0 to NFLT − 1 and PAGE_ACCESS. -/
def srcBits (k : PageKind) : List Nat := List.range k.faults.length ++ [31]

/-- Partition and port of a forced firing of a page: those of the page's port (Table 13.1). -/
def forcedAt (s : State) (page : Nat) : Nat × Nat :=
  let p := 16 * (page / 256 - 1) + page % 256 % 16
  match pageKind page with
  | some .lnk => (s.portPart p, p)
  | some .ffl => (31, p)
  | some _ => (31, 63)
  | none => (31, 63)

/-- Writes of 1 to FLT_FORCE bits (R457). -/
def forceFaults (s : State) (page bits : Nat) : State :=
  match pageKind page with
  | none => s
  | some k => s.each ((srcBits k).filter fun b => bitAt bits b) fun t b =>
      t.fireForced page b (s.forcedAt page).1 (s.forcedAt page).2

/-- Writes of 1 to INT_FORCE bits (R68). -/
def forceInts (s : State) (page bits : Nat) : State :=
  match pageKind page with
  | none => s
  | some k => s.raiseInt page (bits % 2 ^ k.nint)

/-- Writes of 1 to FLT_ACK bits: the sources' FLT_CAUSE bits clear, and the pin follows (R71, R474). -/
def ackFaults (s : State) (page bits : Nat) : State :=
  let v := s.getF page FLT_CAUSE.BITS
  (s.setF page FLT_CAUSE.BITS (v &&& (bits ^^^ 0xFFFFFFFF))).evalPin

end State

/-! ## Commands -/

/-- LEES_RECORD_MAKE (R471): the record of one write that failed later is made, but not in the tick in which the 9160 yields into DEVICE_FATAL (R498). -/
def execLeesRecordMake (s : State) : Res :=
  match if s.mir.yieldDue then none else nextLate s.flt.late with
  | none => s.done
  | some l => (({ s with flt := { s.flt with late := s.flt.late.erase l } } : State).leesMake l).done

/-- PIN_PULSE_END (R475). -/
def execPinPulseEnd (s : State) : Res :=
  match s.flt.pulseEnd with
  | none => s.done
  | some t => if t ≤ s.ticks then s.pulseOver.done else s.done

/-- PIN_REARM (R475). -/
def execPinRearm (who : Requester) (s : State) : Res :=
  (s.withAccess who (State.offOf pgFLT FLT_PIN.REARM) 4 true fun t => t.rearm).done

/-- PIN_DRIVE_WRITE (R475). -/
def execPinDriveWrite (who : Requester) (level : Bool) (s : State) : Res :=
  (s.withAccess who (State.offOf pgFLT FLT_PIN.DRIVE) 4 true fun t => t.pinDrive level).done

/-- PIN_MODE_WRITE (R477); the field is sealed with its page. -/
def execPinModeWrite (who : Requester) (mode : Bool) (s : State) : Res :=
  (s.withAccess who (State.offOf pgFLT FLT_CTL.PIN_MODE) 4 true fun t =>
    t.sealedWrite pgFLT (t.flag pgFLT FLT_CTL.PIN_MODE != mode) fun u => u.pinMode mode).done

/-- LOG_RD_WRITE (R481): RD of the Lees Log, or of the fault log. -/
def execLogRdWrite (who : Requester) (lees : Bool) (rd : Nat) (s : State) : Res :=
  if lees then (s.withAccess who (State.offOf pgFLT FLT_LL_PTR.RD) 4 true fun t => t.moveRd FLT_LL_PTR.RD FLT_LL_PTR.WR 4096 rd).done
  else (s.withAccess who (State.offOf pgFLT FLT_FL_PTR.RD) 4 true fun t => t.moveRd FLT_FL_PTR.RD FLT_FL_PTR.WR 1024 rd).done

/-- INT_FORCE_WRITE (R68) in page `page`. -/
def execIntForceWrite (who : Requester) (page bits : Nat) (s : State) : Res :=
  if 2048 ≤ page then s.done
  else (s.withAccess who (State.offOf page INT_FORCE.BITS) 4 true fun t => t.forceInts page bits).done

/-- FLT_FORCE_WRITE (R457) in page `page`. -/
def execFltForceWrite (who : Requester) (page bits : Nat) (s : State) : Res :=
  if 2048 ≤ page then s.done
  else (s.withAccess who (State.offOf page FLT_FORCE.BITS) 4 true fun t => t.forceFaults page bits).done

/-- FLT_ACK_WRITE (R474) in page `page`. -/
def execFltAckWrite (who : Requester) (page bits : Nat) (s : State) : Res :=
  if 2048 ≤ page then s.done
  else (s.withAccess who (State.offOf page FLT_ACK.BITS) 4 true fun t => t.ackFaults page bits).done

end Sys2Proof.Machine
end

