-- ==== Sys2Proof/Machine/Mirror.lean ====
section
/-! DEFINITION. The redundant pair (chapter 14): roles, mirror records, ledgers, yielding, Racking and resynchronisation. -/

namespace Sys2Proof.Machine

/-- Bytes of a mirror record (Table 14.3). -/
def mirBytes (r : MirRec) : Nat :=
  if r.kind = 1 then 32 + 4 * ceilDiv r.data.length 4
  else if r.kind = 2 then 32
  else if r.kind = 4 then 16 + 16 * r.entries.length
  else 32 + r.data.length

/-- DATA flits that a record takes. -/
def mirFlits (r : MirRec) : Nat := max 1 (ceilDiv (mirBytes r) 236)

/-- Insert a record by write sequence number, which wraps at 2^32 (R314). -/
def wseqInsert (r : MirRec) : List MirRec → List MirRec
  | [] => [r]
  | x :: l => if !serialLt x.wseq r.wseq then r :: x :: l else x :: wseqInsert r l

/-- First `n` of a list, and again, until it is empty. -/
def chunks {α : Type} (n : Nat) : Nat → List α → List (List α)
  | 0, _ => []
  | fuel + 1, l => if l.isEmpty then [] else l.take n :: chunks n fuel (l.drop n)

namespace State

/-! ## Streams and the ledger (R491, R495, R496) -/

/-- Role code: 0 UNBOUND, 1 SEEKING, 2 ACTIVE, 3 STANDBY. -/
def mirRole (s : State) : Nat := s.getF pgMIR MIR_STS.ROLE

/-- The stream of a key. -/
def mirStream (s : State) (k : StreamKey) : Option MirStream := s.mir.streams.find? fun x => decide (x.key = k)

/-- Change a stream. -/
def modStream (s : State) (k : StreamKey) (f : MirStream → MirStream) : State :=
  { s with mir := { s.mir with streams := s.mir.streams.map fun (x : MirStream) => if x.key = k then f x else x } }

/-- Put a key into the stream table (R495), at write sequence number `w`. -/
def addStream (s : State) (k : StreamKey) (w : Nat) : State :=
  if (s.mirStream k).isSome then s
  else { s with mir := { s.mir with streams := s.mir.streams ++
    [({ key := k, point := none, lost := 0, high := w, broken := false, changed := true } : MirStream)] } }

/-- Key of an initiator that writes through a port. -/
def keyOf (s : State) (i : Initiator) : Option StreamKey :=
  match i with
  | .port p rid pasid => some ⟨s.iniPart (.port p rid pasid), rid, pasid⟩
  | .fabric _ _ _ _ | .cxl _ | .chan _ | .block _ => none

/-- Write sequence numbers of covered writes of a stream that are not resolved (R332). -/
def unresolved (s : State) (k : StreamKey) : List Nat :=
  (s.openW.filter fun w => w.mirrored && s.keyOf w.ini == some k).map (·.wseq)
    ++ (s.flt.late.filter fun l => !l.body.summary && !l.early && s.keyOf l.ini == some k).map (·.body.wseq)

/-- L of a stream (R496). -/
def ledgerPoint (s : State) (x : MirStream) : Nat :=
  match s.unresolved x.key with
  | [] => x.high
  | a :: r => (r.foldl (fun m n => if serialLt n m then n else m) a + 2 ^ 32 - 1) % 2 ^ 32

/-- The later of two numbers of a sequence modulo 2^32. -/
def serialMax (a b : Nat) : Nat := if serialLt a b then b else a

/-- End of a ledger epoch at the active (R496): its LEDGER records, and the streams that leave the table. -/
def ledger (s : State) : State :=
  let now := s.mir.streams.map fun (x : MirStream) =>
    let l := s.ledgerPoint x
    (l, { x with point := some l, changed := x.changed || decide (x.point ≠ some l) })
  let due := now.filter (·.2.changed)
  let keep := (now.filter fun (x : Nat × MirStream) => x.2.changed || x.2.broken || decide (x.2.lost ≠ 0) || decide (x.1 ≠ x.2.high)).map (·.2)
  let n := serialNext (s.getF pgMIR MIR_LEDGER.EPOCH)
  let recs := (chunks 512 (due.length + 1) due).map fun l =>
    { emptyRec with kind := 4, epoch := n, time := s.fabric, entries := l.map fun (x : Nat × MirStream) => (x.2.key, x.1, x.2.lost) }
  let s1 : State := { s with mir := { s.mir with
    streams := keep.map fun (x : MirStream) => { x with changed := false }, epochAt := s.ticks, txq := s.mir.txq ++ recs } }
  if due.isEmpty then s1 else s1.setF pgMIR MIR_LEDGER.EPOCH n

/-! ## Roles (R485 to R488) -/

/-- Transport state of a 9160 that becomes STANDBY or SEEKING, or racks (R505). -/
def unsync (s : State) : State :=
  { s with rx := (s.rx.map fun (e : Nat × RxStream) => (e.1, { e.2 with synced := false })).filter fun e => e.2 != RxStream.init,
           tx := s.tx.map fun (e : Nat × TxStream) => (e.1, { e.2 with sync := true }) }

/-- Set the role. The messages of the partner are read anew, and MIR_CSEQ of a standby that becomes ACTIVE goes on from the last commit applied to the
next one (Table 14.16). -/
def setRole (s : State) (r : Nat) : State :=
  let s1 : State := { s with mir := { s.mir with role := none, switchEnd := none, handled := false } }
  let s2 := s1.onlyIf (s.mirRole == 3 && r == 2) fun t => t.setF pgMIR MIR_CSEQ.CSEQ ((t.getF pgMIR MIR_CSEQ.CSEQ + 1) % 2 ^ 64)
  s2.setF pgMIR MIR_STS.ROLE r

/-- The 9160 becomes STANDBY (R484, R486, R498, R505): FFL ports go to DOWN, TAKE_OK is 0, and a resync is asked for. -/
def becomeStandby (s : State) : State :=
  let s1 := ((s.setRole 3).setFlag pgMIR MIR_STS.TAKE_OK false).unsync
  let s2 : State := { s1 with mir := { s1.mir with resyncReq := true, resync := none, journal := [], commits := [], expect := none,
                                                   got := [], streams := [] } }
  let s3 := s2.onlyIf (!s2.mirPorts.isEmpty) fun t => t.setF pgMIR MIR_STS.PSTATE 1
  s3.each ((List.range 64).filter fun p => s3.isFfl p && s3.lkState p != 0) fun t p => t.linkDown p 0 3 false

/-- The 9160 becomes ACTIVE without Racking, which is no capacity event (R194, R500). -/
def becomeActive (s : State) : State := s.setRole 2

/-- Blocks of the two mirrored regions in ascending address order (R507): address and region. -/
def blockList (s : State) : Nat → Option (Nat × Nat) := fun i =>
  let n1 := ceilDiv (s.regionSize 1) 4096
  let n3 := ceilDiv (s.regionSize 3) 4096
  if s.regionBase 1 ≤ s.regionBase 3 then
    (if i < n1 then some (s.regionBase 1 + 4096 * i, 0) else if i < n1 + n3 then some (s.regionBase 3 + 4096 * (i - n1), 1) else none)
  else
    (if i < n3 then some (s.regionBase 3 + 4096 * i, 1) else if i < n3 + n1 then some (s.regionBase 1 + 4096 * (i - n3), 0) else none)

/-- Blocks of a resync. -/
def blockTotal (s : State) : Nat := ceilDiv (s.regionSize 1) 4096 + ceilDiv (s.regionSize 3) 4096

/-- The active begins a resync (R507). -/
def resyncBegin (s : State) : State :=
  let s1 : State := { s with mir := { s.mir with resync := some (0, s.ticks), blockAt := s.ticks } }
  (((s1.setF pgMIR MIR_STS.PSTATE 1).setF pgMIR MIR_STS.RESYNC_PCT 0).mirMsg (.resync false))

/-- A ROLE message arrives (R486, R488, R507, R509). A standby that is heard again after the mirror link was lost gets a new resync. -/
def roleArrives (s : State) (m : RoleMsg) : State :=
  let was := s.mir.role.any fun r => r.role == 2
  let s1 := ({ s with mir := { s.mir with role := some m } } : State).setF pgMIR MIR_PVIN.VINTAGE m.vintage
  let own := s.mirRole
  let seatA := !s.flag pgMIR MIR_CFG.SEAT
  if own = 1 then
    (if m.role = 2 then s1.becomeStandby
     else if m.role = 1 ∨ m.role = 3 then (if seatA then (s1.becomeActive).resyncBegin else s1.becomeStandby)
     else s1)
  else if own = 2 then
    (if m.role = 2 then s1.onlyIf (!was) fun t => t.fire pgMIR 10
     else if m.role = 3 ∧ (m.resyncReq || (s1.getF pgMIR MIR_STS.PSTATE != 1 && s1.getF pgMIR MIR_STS.PSTATE != 2)) = true ∧ s1.mir.resync.isNone = true ∧ s1.mir.switchEnd.isNone = true then s1.resyncBegin
     else s1)
  else s1

/-! ## Yielding (R498, R504) -/

/-- A 9160 that yields discards every covered write that is not resolved, without a record, and holds no reservation (R344, R498). Of what waits for
the mirror link the ledgers stay, and a record of which flits have left. -/
def yieldWrites (s : State) : State :=
  let grps := (s.openW.filter (·.mirrored)).map (·.pkt)
  let leaving := if (s.fflSt 64).recLeft = 0 ∧ (s.fflSt 65).recLeft = 0 then [] else s.mir.txq.take 1
  let mirrored := fun (l : LateWrite) => !l.body.summary && !l.early && bitAt (s.getF pgMIR MIR_PMIRROR.PARTS) l.body.part
    && (match l.ini with
        | .port _ _ _ => true
        | .fabric _ _ _ _ | .cxl _ | .chan _ | .block _ => false)
  { s with
    openW := s.openW.filter (!·.mirrored)
    swb := s.swb.filter fun e => !grps.contains e.pkt
    packets := s.packets.filter fun p => !(grps.contains p.group && decide (p.left = 0) && isWrite p.tlp)
    flt := { s.flt with late := s.flt.late.filter fun l => !mirrored l }
    resv := []
    mir := { s.mir with unacked := [], txq := leaving ++ (s.mir.txq.drop leaving.length).filter fun r => r.kind == 4 } }

/-- Non-posted requests and fences in flight at a 9160 that yields end in Completer Abort (R504). -/
def withdraw (s : State) : State :=
  let live := s.trk.filter fun e => e.orphan.isNone && hostEntry e
  let s1 := ({ s with trk := s.trk.filter fun e => !live.contains e } : State).each live fun t e => t.reply e.pkt .ca []
  s1.dropFences (fun _ => true) true

/-- The writes and requests of a 9160 that yields (R498, R504). -/
def yieldDrop (s : State) : State :=
  let s1 := s.yieldWrites
  ({ s1 with mir := { s1.mir with yielded := false } } : State).withdraw

/-- The end of a tick in which an active entered DEVICE_FATAL (R469, R498). -/
def yieldEnd (s : State) : State :=
  if s.mir.yieldDue then
    let s1 := s.yieldDrop
    { s1 with mir := { s1.mir with yielded := true, yieldDue := false } }
  else s

/-- YIELD is sent and the 9160 becomes STANDBY with TAKE_OK = 0. -/
def yieldNow (s : State) (cause : Nat) : State := ((s.mirMsg (.yield cause)).yieldDrop).becomeStandby

/-! ## Racking (R501 to R506) -/

/-- Binding entry of the new active that binds a stream's key (R502): the lowest with its Requester ID and PASID on a port of its
partition. -/
def keyEntry (s : State) (k : StreamKey) : Option (Nat × BindEntry) :=
  s.bind.find? fun e => bindMatches (e.2.d0.toNat / 2 ^ 24 % 64) k.rid k.pasid e.2 && s.portPart (e.2.d0.toNat / 2 ^ 24 % 64) == k.part

/-- Binding of a stream's records. -/
def keyBound (s : State) (k : StreamKey) (gen : Nat) : Option Bound :=
  (s.keyEntry k).map fun e => ⟨some e.1, bindVi e.2, gen⟩

/-- Route of a replayed COPY (R501): the window of the same number, or the partition's upstream port. To the shared window the replays of a stream
commit in the order of their write sequence numbers (R347), as through a STRICT window. -/
def replayRoute (s : State) (k : StreamKey) (r : MirRec) : Verdict :=
  match r.window with
  | none => (match s.upPort k.part with
    | some p => .ok (.port p) { Attr.zero with idem := true } none k.part
    | none => .miss 0 k.part)
  | some n =>
    let w := s.window n
    let a := { attrOf w with swap := 0 }
    if w.kind = 1 then .ok (.port (w.target % 64)) a (some w.limit) k.part
    else if w.kind = 2 then .ok (.mcast (w.target % 64)) a (some w.limit) k.part
    else if w.kind = 3 then .ok (.fabric (w.target % 65536)) a (some w.limit) k.part
    else if w.kind = 4 then .ok (.shared (s.swBase + w.target % 2 ^ 15 * 2 ^ 20 + (r.addr - w.base))) { a with strict := true } (some w.limit) k.part
    else .miss (if w.kind = 0 then 0 else 1) k.part

/-- A COPY is replayed as a write of the partition's physical function that keeps its WSEQ (R501). -/
def replayCopy (s : State) (k : StreamKey) (r : MirRec) : State :=
  let c := cellarOf ((s.upPort k.part).getD 0)
  let t : Tlp := { kind := .mwr, rid := (s.part k.part).pfRid, tag := 0, pasid := none, tc := 0, addr := r.addr, len := r.len,
                   mask := r.mask, data := r.data, hdr := 16, ro := false, ido := false, poisoned := false, op := .fetchAdd,
                   status := .sc }
  let p := { s.newPacket t (64 + c) c (keyIni k) k.part .requester with bound := s.keyBound k r.gen, wseq := some r.wseq, place := .walk }
  let s1 := s.addPacket p
  match s1.replayRoute k r with
  | .miss bit _ => (s1.missReq p bit).dropPacket p.id
  | .blocked _ => s1
  | .ok route attr limit _ => s1.settlePacket p.id (s1.afterRoute { p with route := route, attr := attr } limit)

/-- A MARK is recorded as lost with reason RACKING (R501). -/
def recordMark (s : State) (k : StreamKey) (r : MirRec) : State :=
  let body : LeesRec := { time := 0, addr := r.addr, wseq := r.wseq, count := 1, rid := k.rid, port := 63, part := k.part,
                          pasid := k.pasid, vi := r.vi, gen := r.gen, reason := 0xB, chan := none,
                          cellar := cellarOf ((s.upPort k.part).getD 0), fdid := none, summary := false, nofence := false,
                          length := r.len, src := pgMIR * 32 + 3, rseq := 0 }
  let s1 := s.addF pgMIR MIR_RACK_CNT.RECORDS
  { s1 with flt := { s1.flt with late := s1.flt.late ++
      [{ body := body, ini := keyIni k, bound := s.keyBound k r.gen, others := [], order := s.order, dma := none }] } }

/-- The stream's records above L in ascending WSEQ: COPYs replayed, MARKs recorded (R501). -/
def rackStream (s : State) (x : MirStream) : State :=
  let recs := (s.mir.journal.filter fun r => decide (r.key = x.key) && x.point.all (serialLt · r.wseq)).foldl (fun l r => wseqInsert r l) []
  let s1 := s.each recs fun t r =>
    if r.kind = 1 then (t.replayCopy x.key r).addF pgMIR MIR_RACK_REPLAY.WRITES else t.recordMark x.key r
  let marks := recs.any fun r => r.kind == 2
  let s2 := s1.onlyIf (marks && !x.broken) fun t => t.addF pgMIR MIR_RACK_INFO.BROKEN
  let s3 := (s2.modStream x.key fun y => { y with broken := y.broken || marks, changed := true }).addF pgMIR MIR_RACK_CNT.LOSTN x.lost
  let s4 := match s.keyEntry x.key with
    | some e => s3.addLoss e.1 x.lost
    | none => s3
  { s4 with wseq := (s4.wseq.filter fun w => w.1 != keyIni x.key) ++ [(keyIni x.key, serialNext x.high)] }

/-- A standby racks (R501): `cause` of MIR_RACK_INFO, cause byte of the YIELD. -/
def rack (s : State) (cause ycause : Nat) : State :=
  let s1 := ({ s with resv := [] } : State).unsync
  let s2 := (((s1.setF pgMIR MIR_RACK_T.TIME s.fabric).setFlag pgMIR MIR_RACK_INFO.VALID true).setF pgMIR MIR_RACK_INFO.CAUSE cause).setF
    pgMIR MIR_RACK_INFO.YCAUSE ycause
  let s3 := (((s2.setF pgMIR MIR_RACK_INFO.BROKEN 0).setF pgMIR MIR_RACK_CNT.RECORDS 0).setF pgMIR MIR_RACK_CNT.LOSTN 0).setF pgMIR
    MIR_RACK_REPLAY.WRITES 0
  let s4 := (s3.fire pgMIR 3).setRole 2
  let s5 := s4.each s4.mir.streams fun t x => t.rackStream x
  let s6 : State := { s5 with mir := { s5.mir with journal := [], commits := [], expect := none, got := [], resync := none,
                                                   owed := (0, 0), resyncReq := false } }
  s6.capacity [(7, 0x3F)]

/-- A takeover condition holds: the standby racks, or MIR_TAKE_REFUSED fires (R499). -/
def takeover (s : State) (cause ycause : Nat) : State :=
  if s.flag pgMIR MIR_STS.TAKE_OK then s.rack cause ycause else s.fire pgMIR 4

/-- No flit of a mirror port and no heartbeat edge for HB_LOSS (R499), not yet handled. -/
def silent (s : State) : Bool :=
  let n := 1000 * s.getF pgMIR MIR_TMR.HB_LOSS
  s.mirRole == 3 && s.flag pgMIR MIR_CFG.AUTO_TAKE && !s.mir.handled && decide (s.mir.dihus.getD 0 + n ≤ s.ticks)
    && decide (s.mir.hbEdge.getD 0 + n ≤ s.ticks)

/-- The silence of the partner is acted on, once. -/
def onSilence (s : State) : State := ({ s with mir := { s.mir with handled := true } } : State).takeover 1 0xFF

/-! ## The standby's store (R495, R507) -/

/-- Journal bytes in use. -/
def journalUsed (s : State) : Nat := (s.mir.journal.map mirBytes).sum

/-- The journal has room for a 4,128 B record. -/
def journalRoom (s : State) : Bool := decide (s.journalUsed + 4128 ≤ s.regionSize 5)

/-- Credit withheld goes back once the journal has room (R495). -/
def payCredit (s : State) : State :=
  if !s.journalRoom || s.mir.owed == (0, 0) then s
  else
    let (a, b) := s.mir.owed
    let s1 : State := { s with mir := { s.mir with owed := (0, 0) } }
    (s1.onlyIf (a != 0) fun t => t.grantCells 64 0 a).onlyIf (b != 0) fun t => t.grantCells 65 0 b

/-- A record of `n` flits has been taken at mirror port `m`: its credit is owed. -/
def oweCredit (s : State) (m n : Nat) : State :=
  let (a, b) := s.mir.owed
  ({ s with mir := { s.mir with owed := if m = 0 then (a + n, b) else (a, b + n) } } : State).payCredit

/-- A COPY or MARK is stored in the journal, and its stream in the stream table (R495); one that a ledger has already freed is not (R496), nor one that came
before and was sent again (R490). -/
def journalAdd (s : State) (r : MirRec) : State :=
  let s1 := (s.addStream r.key r.wseq).modStream r.key fun x => { x with high := serialMax x.high r.wseq }
  let again := s.mir.journal.any fun x => x.key == r.key && x.wseq == r.wseq
  s1.onlyIf (!again && (s.mirStream r.key).all fun x => x.point.all (serialLt · r.wseq)) fun t =>
    { t with mir := { t.mir with journal := t.mir.journal ++ [r] } }

/-- Block of an address. -/
def blockOf (a : Nat) : Nat := a / 4096

/-- A COMMIT is applied to HBM, or covered by the block or discarded while its block has not come (R507). -/
def applyCommit (s : State) (r : MirRec) : State :=
  let bytes := (List.range 64).map fun j => if r.mask.getD j false then some (r.data.getD j 0) else none
  let s1 := s.setF pgMIR MIR_CSEQ.CSEQ r.cseq
  if s.getF pgMIR MIR_STS.PSTATE ≠ 1 then s1.hbmWrite r.addr bytes
  else
    match s.mir.got.find? fun e => e.1 == blockOf r.addr with
    | none => s1
    | some (_, n) => if n ≤ r.cseq then s1.hbmWrite r.addr bytes else s1

/-- Commits are applied in CSEQ order while the next one is here (R495). -/
def applyCommits (s : State) : Nat → State
  | 0 => s
  | fuel + 1 =>
    match s.mir.expect with
    | none => s
    | some n =>
      match s.mir.commits.find? fun r => r.cseq == n with
      | none => s
      | some r =>
        let s1 := s.applyCommit r
        ({ s1 with mir := { s1.mir with commits := s1.mir.commits.filter fun x => decide (n < x.cseq), expect := some (n + 1) } } :
          State).applyCommits fuel

/-- A COMMIT arrives (R495): one that the resync has covered is dropped. -/
def commitArrives (s : State) (r : MirRec) : State :=
  if (match s.mir.expect with
      | some n => decide (r.cseq < n)
      | none => false) then s
  else
    let s1 : State := { s with mir := { s.mir with commits := s.mir.commits ++ [r] } }
    s1.applyCommits (s1.mir.commits.length + 1)

/-- A BLOCK replaces the standby's block (R507); the first one of a resync says where the commit sequence stands. -/
def blockArrives (s : State) (r : MirRec) : State :=
  let s1 := s.hbmWrite r.addr (r.data.map some)
  let start := match s1.mir.expect with
    | some n => n
    | none => r.cseq
  let s2 : State := { s1 with mir := { s1.mir with
    got := storeInsert s1.mir.got (blockOf r.addr) r.cseq, expect := some start,
    commits := s1.mir.commits.filter fun x => decide (start ≤ x.cseq) } }
  let s3 := s2.setF pgMIR MIR_STS.RESYNC_PCT (100 * s2.mir.got.length / max 1 s2.blockTotal)
  s3.applyCommits (s3.mir.commits.length + 1)

/-- A LEDGER arrives (R496): records up to L are freed, L and LOSTN kept; streams that held nothing and had lost nothing leave. One of an older epoch,
which came by the other port, changes no LOSTN (R490). -/
def ledgerArrives (s : State) (r : MirRec) : State :=
  let old := s.mir.ledger.any (serialLt r.epoch ·)
  let idle := fun (x : MirStream) => decide (x.lost = 0) && !(s.mir.journal.any fun j => decide (j.key = x.key))
  let s0 : State := { s with mir := { s.mir with streams := s.mir.streams.filter fun x =>
    !(idle x) || (r.entries.any fun e => decide (e.1 = x.key)) } }
  let s1 := s0.each r.entries fun t e =>
    let t0 := t.onlyIf (e.2.2 != 0 && !old) fun u => u.addStream e.1 e.2.1
    let t1 := t0.modStream e.1 fun x => { x with point := some ((x.point.map (serialMax · e.2.1)).getD e.2.1), lost := if old then x.lost else e.2.2 }
    { t1 with mir := { t1.mir with journal := t1.mir.journal.filter fun j => !(decide (j.key = e.1) && !serialLt e.2.1 j.wseq) } }
  (if old then s1 else ({ s1 with mir := { s1.mir with ledger := some r.epoch } } : State).setF pgMIR MIR_LEDGER.EPOCH r.epoch).payCredit

/-! ## Commands of MIR_CMD -/

/-- Result of a command. -/
def mirRes (s : State) (code : Nat) : State := (s.setFlag pgMIR MIR_CMDRES.DONE true).setF pgMIR MIR_CMDRES.RESULT code

/-- SWITCHOVER (R498). -/
def switchover (s : State) : State :=
  if s.mirRole ≠ 2 then s.mirRes 1
  else if s.mir.switchEnd.isSome then s.mirRes 3
  else if s.getF pgMIR MIR_STS.PSTATE ≠ 2 then s.mirRes 2
  else ({ s with mir := { s.mir with switchEnd := some (s.ticks + 10000000) } } : State).mirRes 0

/-- TAKE (R499). -/
def take (s : State) : State :=
  if s.mirRole ≠ 3 then s.mirRes 1
  else if !s.flag pgMIR MIR_STS.TAKE_OK then (s.fire pgMIR 4).mirRes 2
  else (s.rack 2 0xFF).mirRes 0

/-- TAKE_FORCE (R500). -/
def takeForce (s : State) : State :=
  if s.mirRole ≠ 1 ∧ s.mirRole ≠ 3 then s.mirRes 1
  else
    let s1 := ((s.setFlag pgMIR MIR_STS.TAKE_OK false).fire pgMIR 8).becomeActive
    ({ s1 with mir := { s1.mir with journal := [], streams := [], commits := [], expect := none, got := [], resync := none,
                                    resyncReq := false } } : State).mirRes 0

/-- RESYNC (R509). -/
def resyncCmd (s : State) : State :=
  if s.mirRole ≠ 2 then s.mirRes 1
  else if s.mir.switchEnd.isSome then s.mirRes 3
  else if s.mirPorts.isEmpty then s.mirRes 2
  else (s.resyncBegin).mirRes 0

/-- A write of MIR_CMD. -/
def mirCmd (s : State) (who : Requester) (f : State → State) : State :=
  s.withAccess who (offOf pgMIR MIR_CMD.CMD) 4 true f

/-- A flit of a mirror port has been received. -/
def heardFrom (s : State) : State := { s with mir := { s.mir with dihus := some s.ticks, handled := false } }

/-- A message or record is received at mirror port `m`: it is ACTIVE and the mirror block runs (R469). -/
def mirHears (s : State) (m : Nat) : Bool := decide (m < 2) && s.lkState (64 + m) == 3 && !s.devFatal

/-- No covered write of this 9160 is unresolved. -/
def coveredDone (s : State) : Bool :=
  !(s.openW.any (·.mirrored))
    && !(s.flt.late.any fun l => !l.body.summary && !l.early && bitAt (s.getF pgMIR MIR_PMIRROR.PARTS) l.body.part && (s.keyOf l.ini).isSome)

end State

/-! ## Commands -/

/-- MIR_ROLE_RECEIVE (R486, R488, R492). -/
def execMirRoleReceive (m role : Nat) (takeOk resyncReq : Bool) (vintage epoch : Nat) (s : State) : Res :=
  if s.mirHears m then (s.heardFrom.roleArrives ⟨role % 4, takeOk, resyncReq, vintage, epoch⟩).done else s.done

/-- MIR_ARMREPORT_RECEIVE (R190, R492): the latest copy is kept. -/
def execMirArmreportReceive (m tick vintage : Nat) (s : State) : Res :=
  if s.mirHears m then
    let t := s.heardFrom
    State.done { t with mir := { t.mir with armReport := some (tick, vintage, s.fabric) } }
  else s.done

/-- MIR_YIELD_RECEIVE (R499). -/
def execMirYieldReceive (m cause : Nat) (s : State) : Res :=
  if !s.mirHears m then s.done
  else if s.mirRole = 3 ∧ s.flag pgMIR MIR_CFG.AUTO_TAKE = true then (s.heardFrom.takeover 0 (cause % 256)).done
  else s.heardFrom.done

/-- MIR_RESYNC_MSG_RECEIVE (R507). -/
def execMirResyncMsgReceive (m : Nat) (ended : Bool) (s : State) : Res :=
  if !s.mirHears m || s.mirRole != 3 then s.done
  else if ended then
    (((s.heardFrom.setFlag pgMIR MIR_STS.TAKE_OK true).setF pgMIR MIR_STS.PSTATE 2).setF pgMIR MIR_STS.RESYNC_PCT 100).done
  else
    let t := ((s.heardFrom.setFlag pgMIR MIR_STS.TAKE_OK false).setF pgMIR MIR_STS.PSTATE 1).setF pgMIR MIR_STS.RESYNC_PCT 0
    State.done { t with mir := { t.mir with resyncReq := false, got := [], commits := [], expect := none, ledger := none } }

/-- MIR_COPY_RECEIVE (R495): a COPY or MARK. -/
def execMirCopyReceive (m : Nat) (body : MirRec) (s : State) : Res :=
  if !s.mirHears m || s.mirRole != 3 || (body.kind != 1 && body.kind != 2) then s.done
  else ((s.heardFrom.journalAdd body).oweCredit m (mirFlits body)).done

/-- MIR_COMMIT_RECEIVE (R495). -/
def execMirCommitReceive (m : Nat) (body : MirRec) (s : State) : Res :=
  if !s.mirHears m || s.mirRole != 3 || body.kind != 3 then s.done
  else ((s.heardFrom.commitArrives body).oweCredit m (mirFlits body)).done

/-- MIR_LEDGER_RECEIVE (R496). -/
def execMirLedgerReceive (m : Nat) (body : MirRec) (s : State) : Res :=
  if !s.mirHears m || s.mirRole != 3 || body.kind != 4 then s.done
  else ((s.heardFrom.ledgerArrives body).oweCredit m (mirFlits body)).done

/-- MIR_BLOCK_RECEIVE (R507). -/
def execMirBlockReceive (m : Nat) (body : MirRec) (s : State) : Res :=
  if !s.mirHears m || s.mirRole != 3 || body.kind != 5 then s.done
  else ((s.heardFrom.blockArrives body).oweCredit m (mirFlits body)).done

/-- ROLE_INTERVAL (R492). -/
def execRoleInterval (s : State) : Res :=
  if s.mirRole = 0 ∨ s.devFatal = true ∨ s.ticks < s.mir.roleAt + 1000 * s.getF pgMIR MIR_TMR.ROLE_INT then s.done
  else
    let t : State := { s with mir := { s.mir with roleAt := s.ticks } }
    (t.mirMsg (.role s.mirRole (s.flag pgMIR MIR_STS.TAKE_OK) (s.mirRole == 3 && s.mir.resyncReq) s.activeNumber
      (s.getF pgMIR MIR_LEDGER.EPOCH))).done

/-- SEEK_TIMEOUT (R486). -/
def execSeekTimeout (s : State) : Res :=
  if s.mirRole = 1 ∧ s.devFatal = false ∧ s.mir.seekStart + 10000000 * s.getF pgMIR MIR_CFG.SEEK_T ≤ s.ticks
      ∧ s.flag pgMIR MIR_CFG.SEAT = false ∧ s.flag pgMIR MIR_CFG.ALONE = true then s.becomeActive.done
  else s.done

/-- LEDGER_EPOCH_END (R496). -/
def execLedgerEpochEnd (s : State) : Res :=
  if s.mirroring && decide (s.mir.epochAt + 250 * s.getF pgMIR MIR_EPOCH.LEN ≤ s.ticks) then s.ledger.done else s.done

/-- HEARTBEAT_LOSS (R499). -/
def execHeartbeatLoss (s : State) : Res := if s.silent && !s.devFatal then s.onSilence.done else s.done

/-- HB_OUT_TOGGLE (R500): once in each microsecond of fabric time while the mirror block runs. -/
def execHbOutToggle (s : State) : Res :=
  if s.mirRole = 0 ∨ s.devFatal = true ∨ s.fabric % 1000 ≠ 0 ∨ s.mir.hbAt = some s.fabric then s.done
  else State.done { s with mir := { s.mir with hbOut := !s.mir.hbOut, hbAt := some s.fabric } }

/-- PAIR_HB_IN_EDGE (R499): a level of PAIR_HB_IN that has held for 50 ns. Silence that was not yet acted on without TAKE_OK ends refused;
an edge while the mirror link is down shows a live partner (R500). -/
def execPairHbInEdge (level : Bool) (s : State) : Res :=
  if s.mir.hbIn = level then s.done
  else
    let s0 := s.onlyIf (s.silent && !s.devFatal && !s.flag pgMIR MIR_STS.TAKE_OK) fun t => t.fire pgMIR 4
    let s1 : State := { s0 with mir := { s0.mir with hbIn := level, hbEdge := some s.ticks, handled := false } }
    let lost := s.mirRole == 3 && s.mirPorts.isEmpty && s.flag pgMIR MIR_STS.TAKE_OK && decide (s.mir.dihus.isSome)
    (s1.onlyIf lost fun t => (t.setFlag pgMIR MIR_STS.TAKE_OK false).fire pgMIR 0).done

/-- MIR_SWITCHOVER (R498). -/
def execMirSwitchover (who : Requester) (s : State) : Res := (s.mirCmd who fun t => t.switchover).done

/-- SWITCHOVER_DRAINED (R498): every covered write is resolved, or 10 ms have passed. -/
def execSwitchoverDrained (s : State) : Res :=
  match s.mir.switchEnd with
  | none => s.done
  | some t =>
    if s.devFatal || !(s.coveredDone || decide (t ≤ s.ticks)) then s.done else ((s.ledger).yieldNow 0).done

/-- MIR_TAKE (R499). -/
def execMirTake (who : Requester) (s : State) : Res := (s.mirCmd who fun t => t.take).done

/-- MIR_TAKE_FORCE (R500). -/
def execMirTakeForce (who : Requester) (s : State) : Res := (s.mirCmd who fun t => t.takeForce).done

/-- MIR_RESYNC_CMD (R509). -/
def execMirResyncCmd (who : Requester) (s : State) : Res := (s.mirCmd who fun t => t.resyncCmd).done

/-- MIR_BAD_CMD (Table 14.14): a code that Table 14.13 does not list. -/
def execMirBadCmd (who : Requester) (code : Nat) (s : State) : Res :=
  if 1 ≤ code % 16 ∧ code % 16 ≤ 4 then s.done else (s.mirCmd who fun t => t.mirRes 4).done

/-- RESYNC_BLOCK_SEND (R507, R508): the next 4 KiB block within RSHARE of 59 B/ns for each ACTIVE mirror port; after the last block has been
acknowledged the resync ends. -/
def execResyncBlockSend (s : State) : Res :=
  match s.mir.resync with
  | none => s.done
  | some (i, t0) =>
    if s.devFatal || !s.mirroring || s.mirPorts.isEmpty then s.done
    else
      match s.blockList i with
      | some (a, region) =>
        let gap := 4128 * 64 / (max 1 (s.getF pgMIR MIR_RESYNC.RSHARE) * 59 * s.mirPorts.length)
        if i ≠ 0 ∧ s.ticks < s.mir.blockAt + gap then s.done
        else
          let s1 := s.mirSend { State.emptyRec with kind := 5, region := region, cseq := s.getF pgMIR MIR_CSEQ.CSEQ, addr := a, len := 4096,
                                                    data := s.hbmRead a 4096 }
          let s2 := s1.setF pgMIR MIR_STS.RESYNC_PCT (100 * (i + 1) / max 1 s1.blockTotal)
          State.done { s2 with mir := { s2.mir with resync := some (i + 1, t0), blockAt := s.ticks } }
      | none =>
        let waits := (s.mir.txq.any fun r => r.kind == 5)
          || [64, 65].any fun p => (s.fflSt p).replay.any fun c => c.body.any fun r => r.kind == 5
        if waits then s.done
        else
          let s1 : State := { s with mir := { s.mir with resync := none } }
          (((s1.setF pgMIR MIR_STS.PSTATE 2).setF pgMIR MIR_STS.RESYNC_PCT 100).mirMsg (.resync true)).done

/-- RESYNC_TIMEOUT (R508). -/
def execResyncTimeout (s : State) : Res :=
  match s.mir.resync with
  | none => s.done
  | some (_, t0) =>
    if s.mirRole = 2 ∧ s.devFatal = false ∧ t0 + 40000000000 ≤ s.ticks then ((s.resyncBegin).fire pgMIR 5).done else s.done

end Sys2Proof.Machine
end

