-- ==== Sys2Proof/Machine/Slots.lean ====
section
/-! DEFINITION. Slot power and module life (chapter 15): presence, power-up, inrush admission, breakers, retries, feeds, life records, and the
Limder link. -/

namespace Sys2Proof.Machine

/-- Bytes of a slot life record (Table 15.6). -/
def lifeBytes (slot flags mate rated connT trips key retireT : Nat) : List Byte :=
  withCrc (leBytes 2 slot ++ leBytes 2 flags ++ leBytes 4 mate ++ leBytes 4 rated ++ leBytes 8 connT ++ leBytes 4 trips
    ++ leBytes 16 key ++ leBytes 8 retireT)

/-- Flags of a count against its rating: bit 0 at 80 %, bit 1 at 100 % (R541). -/
def lifeLevel (count rated : Nat) : Nat :=
  if rated = 0 then 0 else if rated ≤ count then 3 else if 80 * rated ≤ 100 * count then 1 else 0

/-- Bits of `b` that `a` lacks. -/
def newBits (a b : Nat) : Nat := b - (a &&& b)

namespace State

/-- Slot record. -/
def slot (s : State) (i : Nat) : SlotSt := storeGet (fun _ => SlotSt.init) s.slots i

/-- Change a slot record. -/
def modSlot (s : State) (i : Nat) (f : SlotSt → SlotSt) : State :=
  { s with slots := storeSet (fun _ => SlotSt.init) s.slots i (f (s.slot i)) }

/-- The slot is fitted and controlled (Table 15.13). -/
def slotEn (s : State) (i : Nat) : Bool := decide (i < 40) && s.flag (pgSLOT i) SPC_SCFG.EN

/-- SPC_SSTS.STATE of a slot (Table 15.2): 0 EMPTY, 1 OFF, 2 WAIT, 3 PRECHARGE, 4 RAMP, 5 ON, 6 HOLDOFF, 7 LATCHED, 8 RETIRED. -/
def slotSt (s : State) (i : Nat) : Nat := s.getF (pgSLOT i) SPC_SSTS.STATE

/-- The Limder link is up (R537). -/
def spcUp (s : State) : Bool := s.flag pgSPC SPC_STS.LINK_UP

/-- The port that names a slot in LNK_SLOT (R241). -/
def slotPort (s : State) (i : Nat) : Option Nat :=
  (List.range 64).find? fun p => s.isDown p && s.flag (pgLNK p) LNK_SLOT.HP_EN && s.getF (pgLNK p) LNK_SLOT.SLOT == i

/-- A fault source of a slot page fires, or waits for the Limder link (Table 15.5). -/
def slotFire (s : State) (i bit : Nat) : State :=
  if s.spcUp then s.fire (pgSLOT i) bit
  else { s with spc := { s.spc with held := s.spc.held ++ [(i, bit)] } }

/-! ## Life counts (R538 to R541) -/

/-- The entry that counts for the module in a slot: its module table entry, or the slot's own where it has no key. -/
def modEntry (s : State) (i : Nat) : ModEntry :=
  match (s.slot i).key with
  | some k => (s.spc.mods.find? fun e => e.key == k).getD ⟨k, 0, 0, 0⟩
  | none => (s.slot i).anon

/-- Change that entry. -/
def modModule (s : State) (i : Nat) (f : ModEntry → ModEntry) : State :=
  match (s.slot i).key with
  | some k => { s with spc := { s.spc with mods := s.spc.mods.map fun (e : ModEntry) => if e.key = k then f e else e } }
  | none => s.modSlot i fun x => { x with anon := f x.anon }

/-- Module hours (R539). -/
def modHours (s : State) (i : Nat) : Nat := (s.slot i).hrsBase + (s.modEntry i).secs / 3600

/-- Module insertions (R539). -/
def modIns (s : State) (i : Nat) : Nat := (s.slot i).insBase + (s.modEntry i).ins

/-- Compare the counts of a slot with their ratings: flags, SPC_LIFE_WARN and SPC_LIFE_END once each (R541), and what the count registers show. -/
def lifeCheck (s : State) (i : Nat) : State :=
  let pg := pgSLOT i
  let old := s.getF pg SPC_LIFE_STS.FLAGS % 4
  let mate := old ||| lifeLevel (s.getF pg SPC_MATE.COUNT) (s.getF pg SPC_MATE.RATED)
  let here := s.flag pg SPC_SSTS.PRESENT && !(s.slot i).fruDue
  let was := (s.modEntry i).flags
  let now := if here then
      was ||| lifeLevel (s.modIns i) (s.slot i).insRated ||| 4 * lifeLevel (s.modHours i) (s.slot i).hrsRated
    else was
  let s1 := s.onlyIf here fun t => t.modModule i fun e => { e with flags := now }
  let fresh := newBits old mate + 4 * newBits was now
  let s2 := s1.onlyIf (bitAt fresh 0 || bitAt fresh 2 || bitAt fresh 4) fun t => t.slotFire i 8
  let s3 := s2.onlyIf (bitAt fresh 1 || bitAt fresh 3 || bitAt fresh 5) fun t => t.slotFire i 9
  let s4 := s3.setF pg SPC_LIFE_STS.FLAGS (mate + if here then 4 * now else 0)
  (s4.setF pg SPC_MODINS.COUNT (if here then s4.modIns i else 0)).setF pg SPC_MODHRS.HOURS (if here then s4.modHours i else 0)

/-- FLAGS of a slot's life record (Table 15.6). -/
def lifeFlags (s : State) (i : Nat) : Nat :=
  (s.flag (pgSLOT i) SPC_SSTS.PRESENT).toNat + 2 * ((s.slot i).key.isSome).toNat + 4 * (s.slot i).retired.toNat
    + 8 * (s.getF (pgSLOT i) SPC_LIFE_STS.FLAGS % 4)

/-- The firmware writes a slot's life record and the module table to flash, or fails to (R540). -/
def lifeWrite (s : State) (i : Nat) (ok : Bool) : State :=
  if !ok then s.fire pgSPC 1
  else
    let x := s.slot i
    let b := lifeBytes i (s.lifeFlags i) (s.getF (pgSLOT i) SPC_MATE.COUNT) (s.getF (pgSLOT i) SPC_MATE.RATED) x.connT x.trips (x.key.getD 0) x.retireT
    { s with spc := { s.spc with flashLife := storeInsert s.spc.flashLife i b, flashMods := s.spc.mods } }

/-- ON time since it was last counted becomes whole seconds (R539). -/
def onCount (s : State) (i : Nat) : State :=
  match (s.slot i).onFrom with
  | none => s
  | some t =>
    let n := (s.slot i).onNs + (s.ticks - t)
    let s1 := s.modSlot i fun x => { x with onNs := n % 1000000000, onFrom := some s.ticks }
    if n < 1000000000 then s1
    else (s1.modModule i fun e => { e with secs := e.secs + n / 1000000000 }).lifeCheck i

/-- The slot leaves ON: its power-on seconds are counted and written (R540). -/
def onEnd (s : State) (i : Nat) (ok : Bool) : State :=
  if (s.slot i).onFrom.isNone then s
  else ((s.onCount i).modSlot i fun x => { x with onFrom := none }).lifeWrite i ok

/-- The slot goes to a state; a slot in ON counts seconds. `ok` says whether a write of seconds on leaving ON succeeds. -/
def slotGo (s : State) (i st : Nat) (ok : Bool) : State :=
  let s1 := s.onlyIf (s.slotSt i == 5 && st != 5) fun t => t.onEnd i ok
  let s2 := (s1.setF (pgSLOT i) SPC_SSTS.STATE st).modSlot i fun x => { x with since := s.ticks }
  s2.onlyIf (st == 5 && s.slotSt i != 5) fun t => t.modSlot i fun x => { x with onFrom := some s.ticks, hourAt := s.ticks }

/-! ## FETs, requests, trips -/

/-- Every FET of a slot opens and PERST_N is asserted. -/
def fetsOff (s : State) (i : Nat) : State :=
  s.modSlot i fun x => { x with fetA := false, fetB := false, pre := false, main := false, perst := true, openAt := none, gap := none }

/-- Set the retry count (SPC_SSTS.RETRY shows at most 15). -/
def setRetry (s : State) (i n : Nat) : State :=
  (s.modSlot i fun x => { x with retry := n }).setF (pgSLOT i) SPC_SSTS.RETRY (min 15 n)

/-- A feed is good (R533): 0 A, 1 B. -/
def feedGood (s : State) (f : Nat) : Bool :=
  match (if f = 0 then s.spc.goodA else s.spc.goodB) with
  | some t => decide (t + 4000 ≤ s.ticks)
  | none => false

/-- The feed a slot would take (R523). -/
def chosenFeed (s : State) (i : Nat) : Option Nat :=
  let f := s.getF (pgSLOT i) SPC_SCFG.PRI_FEED
  if s.feedGood f then some f
  else if s.flag (pgSLOT i) SPC_SCFG.ALT_EN && s.feedGood (1 - f) then some (1 - f) else none

/-- WAIT_SUPPLY and WAIT_FATAL (Table 15.3). -/
def supplyHold (s : State) : Bool := s.flag pgPWR PWR_SUPPLY.WARN

/-- WAIT_REARM of a slot (Table 15.3). -/
def rearmHold (s : State) (i : Nat) : Bool :=
  decide (s.getF (pgSLOT i) SPC_BRK.RE_ARM * 1000 ≤ s.getF (pgSLOT i) SPC_HEAT.H)
    || (match (s.slot i).removedAt with
        | some t => decide (s.ticks < t + 100000000)
        | none => false)

/-- The holds of Table 15.3 that apply, WAIT_BUDGET apart, as the field WAIT shows them. -/
def holdBits (s : State) (i : Nat) : Nat :=
  32 * (s.rearmHold i).toNat
    + 16 * (s.flag (pgSLOT i) SPC_SCFG.FRU_REQ && !s.flag (pgSLOT i) SPC_SSTS.FRU_OK).toNat
    + 8 * (s.chosenFeed i).isNone.toNat + 4 * s.supplyHold.toNat + 2 * s.devFatal.toNat

/-- A slot in WAIT that may join its feed's queue (R522, R523, R540). -/
def queued (s : State) (i : Nat) : Bool :=
  s.slotEn i && s.slotSt i == 2 && s.holdBits i == 0 && (s.slot i).written

/-- What WAIT and FEED read (Table 15.17): the holds that apply to a slot in WAIT, and the feed it would take. -/
def showWait (s : State) (i : Nat) : State :=
  let s1 := s.setF (pgSLOT i) SPC_SSTS.WAIT (if s.slotSt i = 2 then s.holdBits i + (s.queued i).toNat else 0)
  match s.chosenFeed i with
  | some f => s1.onlyIf (s.slotSt i == 2) fun t => t.setF (pgSLOT i) SPC_SSTS.FEED f
  | none => s1

/-- Power is requested (R522): a slot in OFF enters WAIT. -/
def powerOn (s : State) (i : Nat) : State :=
  let s1 := s.modSlot i fun x => { x with req := true }
  if s.slotSt i = 1 then (s1.slotGo i 2 true).showWait i else s1

/-- The request is withdrawn (R522, R526, R532): PERST_N is asserted, the FETs of a slot in RAMP or ON open 100 µs later. In the µs of the trip that
latched a slot it goes to OFF with its latch set (Table 15.4). -/
def powerOff (s : State) (i : Nat) (ok : Bool) : State :=
  let st := s.slotSt i
  let s1 := (s.modSlot i fun x => { x with req := false }).setRetry i 0
  if st = 4 ∨ st = 5 then
    ((s1.slotGo i 1 ok).modSlot i fun x => { x with perst := true, openAt := some (s.ticks + 100000), gap := none }).showWait i
  else if st = 2 ∨ st = 3 ∨ st = 6 ∨ (st = 7 ∧ (s.slot i).since / 1000 = s.ticks / 1000) then
    (((if (s.slot i).main then s1 else s1.fetsOff i)).slotGo i 1 ok).showWait i
  else s1

/-- A trip (R531): cause 1 BREAKER, 2 IFAST, 3 SHORT_PRECHG. A slot whose request was withdrawn stays OFF (Table 15.4). -/
def slotTrip (s : State) (i cause : Nat) (ok : Bool) : State :=
  let pg := pgSLOT i
  let n := (s.slot i).retry + 1
  let max := s.getF pg SPC_TMR.RETRY_MAX
  let off := s.slotSt i == 1
  let s1 := (s.fetsOff i).modSlot i fun x =>
    { x with trips := x.trips + 1, pfd := x.pfd || s.spcUp, dueFault := x.dueFault || !s.spcUp }
  let s2 := (((s1.setF pg SPC_SSTS.LAST_TRIP cause).addF pg SPC_TRIPS.TRIPS).slotFire i (cause - 1)).setRetry i n
  if max < n then
    let s3 := (s2.setFlag pg SPC_SSTS.LATCH true).slotFire i 4
    if off then s3 else s3.slotGo i 7 ok
  else if off then s2
  else (s2.slotGo i 6 ok).modSlot i fun x => { x with holdEnd := s.ticks + s.getF pg SPC_TMR.RETRY_T * 2 ^ (n - 1) * 1000000 }

/-- The pass FET is damaged: the slot is RETIRED (R528). -/
def slotRetire (s : State) (i : Nat) (ok : Bool) : State :=
  let s1 := ((s.fetsOff i).slotGo i 8 ok).setF (pgSLOT i) SPC_SSTS.LAST_TRIP 4
  ((s1.modSlot i fun x => { x with retired := true, retireT := s.fabric }).slotFire i 3).lifeWrite i ok

/-- The slot loses its feed (R535). -/
def feedLost (s : State) (i : Nat) (ok : Bool) : State :=
  let s1 := (s.fetsOff i).slotFire i 6
  (s1.slotGo i (if (s.slot i).req then 2 else 1) ok).showWait i

/-- A break-before-make switch to feed `f` begins (R534). -/
def feedSwitch (s : State) (i f : Nat) : State :=
  (s.modSlot i fun x => { x with fetA := false, fetB := false,
                                 gap := some (f, s.ticks + s.getF pgSPC SPC_CTL.BBM * 1000) }).slotFire i 5

/-- Feed voltage as last sampled. -/
def feedVolt (s : State) (f : Nat) : Nat := if f = 0 then s.getF pgSPC SPC_FEEDSTS.VA else s.getF pgSPC SPC_FEEDSTS.VB

/-- The feed in use or chosen of a slot (Table 15.17). -/
def slotFeed (s : State) (i : Nat) : Nat := s.getF (pgSLOT i) SPC_SSTS.FEED

/-! ## Inrush admission (R523) -/

/-- USED of a feed: INRUSH of the slots charged to it. -/
def feedUsed (s : State) (f : Nat) : Nat :=
  ((List.range 40).filter fun i => (s.slotSt i == 3 || s.slotSt i == 4) && s.slotFeed i == f).foldl
    (fun a i => a + s.getF (pgSLOT i) SPC_SCFG.INRUSH) 0

/-- Queue of a feed: highest PRIO first, then lowest slot. -/
def feedQueue (s : State) (f : Nat) : List Nat :=
  let q := (List.range 40).filter fun i => s.queued i && s.chosenFeed i == some f
  [3, 2, 1, 0].flatMap fun p => q.filter fun i => s.getF (pgSLOT i) SPC_SCFG.PRIO == p

/-- A slot is admitted to a feed: feed and pre-charge FETs on (R524). -/
def admitSlot (s : State) (i f : Nat) : State :=
  (((s.slotGo i 3 true).setF (pgSLOT i) SPC_SSTS.FEED f).modSlot i fun x =>
    { x with fetA := f == 0, fetB := f == 1, pre := true, main := false, openAt := none }).showWait i

/-- Admission from a feed's queue, in order, until one does not fit. -/
def admitAll (s : State) (f : Nat) : List Nat → State
  | [] => s
  | i :: r =>
    if s.feedUsed f + s.getF (pgSLOT i) SPC_SCFG.INRUSH ≤ s.getF pgSPC (SPC_BUDGET.BUDGET) f then (s.admitSlot i f).admitAll f r else s

/-! ## The sample of one µs (R518) -/

/-- A feed is within its window: the µs since which it has been (R533). -/
def goodSince (s : State) (v : Nat) (from0 : Option Nat) : Option Nat :=
  if s.getF pgSPC SPC_FEEDLIM.UV ≤ v ∧ v ≤ s.getF pgSPC SPC_FEEDLIM.OV then some (from0.getD s.ticks) else none

/-- Voltages of both feeds. -/
def feedSample (s : State) (va vb : Nat) : State :=
  let s1 : State := { s with spc := { s.spc with sampleAt := some s.ticks, goodA := s.goodSince va s.spc.goodA, goodB := s.goodSince vb s.spc.goodB } }
  let s2 := (s1.setF pgSPC SPC_FEEDSTS.VA va).setF pgSPC SPC_FEEDSTS.VB vb
  (s2.setFlag pgSPC SPC_FEEDSTS.A_GOOD (s2.feedGood 0)).setFlag pgSPC SPC_FEEDSTS.B_GOOD (s2.feedGood 1)

/-- H after one µs at current `cur` (R529). -/
def heatAfter (s : State) (i cur : Nat) : Nat :=
  let h := s.getF (pgSLOT i) SPC_HEAT.H
  let rated := s.getF (pgSLOT i) SPC_SCFG.I_RATED
  if rated < cur then min 0xFFFFFFFF (h + (cur - rated)) else h - s.getF (pgSLOT i) SPC_LIM.COOL

/-- H exceeds the trip level (R530). -/
def overHeat (s : State) (i : Nat) : Bool := decide (s.getF (pgSLOT i) SPC_BRK.TRIP * 1000 < s.getF (pgSLOT i) SPC_HEAT.H)

/-- Samples of a slot's current are judged against IFAST (R527): in RAMP and ON, and in the µs in which a withdrawn request took it out of one of them
(Table 15.4). -/
def fastJudged (s : State) (i : Nat) : Bool :=
  s.slotSt i == 4 || s.slotSt i == 5 || s.slotSt i == 1 && (s.slot i).main && (s.slot i).since / 1000 == s.ticks / 1000

/-- One slot's sample: heat, then the first of trip, damaged pass FET, feed, and progress of the power-up (R524 to R536). The spec lists no order of a
trip and a damaged pass FET of one µs: the trip is taken (DESIGN CHOICE, log 47). -/
def slotSample (s : State) (i : Nat) (m : SlotMeas) (ok : Bool) : State :=
  let pg := pgSLOT i
  let s1 := ((s.setF pg SPC_MEAS.I m.cur).setF pg SPC_MEAS.VOUT m.vout).setF pg SPC_HEAT.H (s.heatAfter i m.cur)
  let s2 := s1.onCount i
  let x := s2.slot i
  let st := s2.slotSt i
  let f := s2.slotFeed i
  if s2.fastJudged i && decide (s2.getF pg SPC_LIM.IFAST < m.cur) then s2.slotTrip i 2 ok
  else if (st == 3 || x.main) && s2.overHeat i then s2.slotTrip i 1 ok
  else if st == 5 && !m.gateOk then s2.slotRetire i ok
  else if (st == 3 || st == 4) && !s2.feedGood f then s2.feedLost i ok
  else if st == 5 && x.gap.isNone && !s2.feedGood f then
    (if s2.flag pg SPC_SCFG.ALT_EN then s2.feedSwitch i (1 - f) else s2.feedLost i ok)
  else if st == 3 && decide (s2.getF pgSPC SPC_CTL.PC_PCT * s2.feedVolt f ≤ 100 * m.vout) then
    (s2.slotGo i 4 ok).modSlot i fun y => { y with main := true }
  else if st == 4 && m.gateOk then (s2.slotGo i 5 ok).modSlot i fun y => { y with pre := false }
  else s2

/-- A configuration of R544. -/
def slotBad (s : State) : Bool :=
  decide (s.getF pgSPC SPC_FEEDLIM.OV ≤ s.getF pgSPC SPC_FEEDLIM.UV) ||
    (List.range 40).any fun i => s.slotEn i && (decide (s.getF (pgSLOT i) SPC_BRK.TRIP ≤ s.getF (pgSLOT i) SPC_BRK.RE_ARM)
      || decide (s.getF (pgSLOT i) SPC_LIM.IFAST ≤ s.getF (pgSLOT i) SPC_SCFG.I_RATED))

/-- Sample of every fitted slot, then admission on both feeds, which a lost Limder link stops (Table 15.5). -/
def spcSample (s : State) (va vb : Nat) (meas : List SlotMeas) (ok : Bool) : State :=
  let s1 := s.feedSample (va % 4096) (vb % 4096)
  let on := (List.range 40).filter s1.slotEn
  let s2 := s1.each on fun t i => t.slotSample i ((meas.find? fun m => m.slot == i).getD ⟨i, 0, 0, false⟩) ok
  let s3 := s2.onlyIf s2.spcUp fun t => (t.admitAll 0 (t.feedQueue 0)).admitAll 1 (t.feedQueue 1)
  s3.each (on.filter fun i => s3.slotSt i == 2) fun t i => t.showWait i

/-! ## Presence (R519, R520, R538) -/

/-- What a confirmed removal does at the port (R519, R520): Slot Status, Power Controller Control, link down. -/
def portGone (s : State) (i : Nat) : State :=
  let s1 := s.modSlot i fun x => { x with pds := false, pdc := true, pcc := false }
  match s1.slotPort i with
  | none => s1
  | some p => s1.onlyIf (!s1.flag (pgLNK p) LNK_STS.LDOWN) fun t => t.linkDown p (t.restState p) 0 true

/-- What a confirmed arrival does at the port: Slot Status, and a hot-plug arrival for its next L0 (R260). -/
def portArrival (s : State) (i : Nat) : State :=
  let s1 := s.modSlot i fun x => { x with pds := true, pdc := true, pcc := x.pcc || s.flag (pgSLOT i) SPC_SCFG.AUTO_ON }
  match s1.slotPort i with
  | none => s1
  | some p => s1.modPort p fun x => { x with arrival := true }

/-- A confirmed removal (R520, R532). -/
def removal (s : State) (i : Nat) (ok : Bool) : State :=
  let pg := pgSLOT i
  let retired := s.slotSt i == 8
  let s1 := (s.fetsOff i).slotGo i (if retired then 8 else 0) ok
  let s2 := ((s1.setFlag pg SPC_SSTS.LATCH false).setRetry i 0).setFlag pg SPC_SSTS.PRESENT false
  let s3 := s2.modSlot i fun x => { x with req := false, removedAt := some s.ticks, fruDue := false, key := none, written := false, insRated := 0,
                                           hrsRated := 0, insBase := 0, hrsBase := 0 }
  let s4 := (s3.lifeCheck i).showWait i
  if s4.spcUp then s4.portGone i else s4.modSlot i fun x => { x with due := true, dueGone := true, pccDue := some false }

/-- A confirmed arrival (R520, R538, R539): the mating count rises and the FRU record is read. -/
def arrival (s : State) (i : Nat) : State :=
  let pg := pgSLOT i
  let auto := s.flag pg SPC_SCFG.AUTO_ON
  let s1 := ((s.setFlag pg SPC_SSTS.PRESENT true).setFlag pg SPC_SSTS.FRU_OK false).addF pg SPC_MATE.COUNT
  let s2 := (s1.modSlot i fun x => { x with fruDue := true, written := false }).lifeCheck i
  let s3 := s2.onlyIf (s.slotSt i == 0) fun t => t.slotGo i 1 true
  let s4 := if s3.spcUp then s3.portArrival i
    else s3.modSlot i fun x => { x with due := true, pccDue := if auto then some true else x.pccDue }
  s4.onlyIf (auto || (s4.slot i).req || (s4.slot i).pcc) fun t => t.powerOn i

/-- The module's FRU record has been read (R538, R539): its key finds or takes an entry of the module table, and its insertion counts. -/
def fruDone (s : State) (i : Nat) (fru : Option FruRead) : State :=
  let s0 := s.modSlot i fun x => { x with fruDue := false }
  let s2 := match fru with
    | none => s0.slotFire i 7
    | some r =>
      let k := sha384 (r.mfr ++ r.part ++ r.serial) % 2 ^ 128
      let (a, b, c, d) := r.life.getD (0, 0, 0, 0)
      let old := s0.spc.mods.find? fun (e : ModEntry) => e.key == k
      let rest := s0.spc.mods.filter fun (e : ModEntry) => e.key != k
      let rest := if rest.length < 128 then rest else rest.drop 1
      let s1 : State := { s0 with spc := { s0.spc with mods := rest ++ [old.getD ⟨k, 0, 0, 0⟩] } }
      (s1.setFlag (pgSLOT i) SPC_SSTS.FRU_OK true).modSlot i fun x =>
        { x with key := some k, insRated := a, hrsRated := b, insBase := c, hrsBase := d }
  (((s2.modModule i fun e => { e with ins := e.ins + 1 }).lifeCheck i)).showWait i

/-! ## The Limder link (R46, R537) -/

/-- The link returns: Slot Status follows the slots, held reports go out, standing requests are replayed. -/
def limderBack (s : State) : State :=
  let s1 := s.setFlag pgSPC SPC_STS.LINK_UP true
  let s2 := s1.each s1.spc.held fun t e => t.fire (pgSLOT e.1) e.2
  let s3 : State := { s2 with spc := { s2.spc with held := [] } }
  s3.each ((List.range 40).filter s3.slotEn) fun t i =>
    let x := t.slot i
    let t1 := t.onlyIf x.dueGone fun u => u.portGone i
    let t2 := t1.onlyIf (x.due && t.flag (pgSLOT i) SPC_SSTS.PRESENT) fun u => u.portArrival i
    let t3 := t2.modSlot i fun y => { y with pcc := x.pccDue.getD y.pcc, pfd := y.pfd || x.dueFault, due := false, dueGone := false,
                                             dueFault := false, pccDue := none }
    let want := (t3.slot i).pcc
    if want = (t3.slot i).req then t3 else if want then t3.powerOn i else t3.powerOff i true

end State

/-! ## Commands -/

/-- PRESENCE_CONFIRM (R519, R520): the presence signal of a slot has held a level for 20 ms. -/
def execPresenceConfirm (slot : Nat) (level ok : Bool) (s : State) : Res :=
  if !s.slotEn slot || s.flag (pgSLOT slot) SPC_SSTS.PRESENT == level then s.done
  else if level then (s.arrival slot).done else (s.removal slot ok).done

/-- REARM_WINDOW_END (R522): 100 ms have passed since the removal. -/
def execRearmWindowEnd (slot : Nat) (s : State) : Res :=
  match (s.slot slot).removedAt with
  | none => s.done
  | some t =>
    if t + 100000000 ≤ s.ticks then ((s.modSlot slot fun x => { x with removedAt := none }).showWait slot).done else s.done

/-- SLOT_POWER_CONTROL_WRITE (R241, R522): the host of a port writes Power Controller Control; while the Limder link is lost it waits (Table 15.5). -/
def execSlotPowerControlWrite (port : Nat) (on ok : Bool) (s : State) : Res :=
  if !s.isDown port || !s.flag (pgLNK port) LNK_SLOT.HP_EN then s.done
  else
    let i := s.getF (pgLNK port) LNK_SLOT.SLOT
    if !s.slotEn i then s.done
    else
      let s1 := s.modSlot i fun x => { x with pcc := on, pccDue := if s.spcUp then x.pccDue else none }
      if !s.spcUp || (s.slot i).req == on then s1.done
      else if on then (s1.powerOn i).done else (s1.powerOff i ok).done

/-- SLOT_SAMPLE (R518, R523 to R536): once in each µs. -/
def execSlotSample (va vb : Nat) (meas : List SlotMeas) (ok : Bool) (s : State) : Res :=
  let soon := match s.spc.sampleAt with
    | some t => decide (s.ticks < t + 1000)
    | none => false
  if soon then s.done
  else if s.slotBad then .fault (.undefinedResult 544)
  else (s.spcSample va vb meas ok).done

/-- PRECHG_TIMEOUT (R524). -/
def execPrechgTimeout (slot : Nat) (s : State) : Res :=
  if s.slotEn slot && s.slotSt slot == 3
      && decide ((s.slot slot).since + s.getF (pgSLOT slot) SPC_TMR.PRECHG_T_MAX * 1000000 ≤ s.ticks) then (s.slotTrip slot 3 true).done
  else s.done

/-- GATE_TIMEOUT (R525, R528). -/
def execGateTimeout (slot : Nat) (ok : Bool) (s : State) : Res :=
  if s.slotEn slot && s.slotSt slot == 4
      && decide ((s.slot slot).since + s.getF (pgSLOT slot) SPC_TMR.GATE_T_MAX * 100000 ≤ s.ticks) then (s.slotRetire slot ok).done
  else s.done

/-- HOLDOFF_END (R531). -/
def execHoldoffEnd (slot : Nat) (s : State) : Res :=
  if s.slotEn slot && s.slotSt slot == 6 && decide ((s.slot slot).holdEnd ≤ s.ticks) then
    ((s.slotGo slot (if (s.slot slot).req then 2 else 1) true).showWait slot).done
  else s.done

/-- PERST_RELEASE_TIMER (R526). -/
def execPerstReleaseTimer (slot : Nat) (s : State) : Res :=
  if s.slotEn slot && s.slotSt slot == 5 && decide ((s.slot slot).since + 100000000 ≤ s.ticks) then
    (s.modSlot slot fun x => { x with perst := false }).done
  else s.done

/-- MAIN_FET_OPEN_DELAY (R526). -/
def execMainFetOpenDelay (slot : Nat) (s : State) : Res :=
  match (s.slot slot).openAt with
  | none => s.done
  | some t => if t ≤ s.ticks then (s.fetsOff slot).done else s.done

/-- RETRY_CLEAR_TIMER (R532). -/
def execRetryClearTimer (slot : Nat) (s : State) : Res :=
  if s.slotEn slot && s.slotSt slot == 5 && decide ((s.slot slot).since + 10000000000 ≤ s.ticks) then (s.setRetry slot 0).done
  else s.done

/-- FEED_SWITCH_BBM_END (R534, R535): the gap is over; the other feed is taken when it is good. A slot whose return to its priority feed finds it no
longer good has lost its feed too (DEDUCED, log 47: step 1 has turned the former feed off). -/
def execFeedSwitchBbmEnd (slot : Nat) (ok : Bool) (s : State) : Res :=
  match (s.slot slot).gap with
  | none => s.done
  | some (f, t) =>
    if s.ticks < t then s.done
    else if s.flag (pgSLOT slot) SPC_SCFG.ALT_EN && s.feedGood f then
      (((s.modSlot slot fun x => { x with gap := none, fetA := f == 0, fetB := f == 1 }).setF (pgSLOT slot) SPC_SSTS.FEED f).addF
        (pgSLOT slot) SPC_TRIPS.SWITCHES).done
    else (s.feedLost slot ok).done

/-- FEED_RETURN_TIMER (R534): a slot returns to its priority feed. -/
def execFeedReturnTimer (slot : Nat) (s : State) : Res :=
  let f := s.getF (pgSLOT slot) SPC_SCFG.PRI_FEED
  let good := match (if f = 0 then s.spc.goodA else s.spc.goodB) with
    | some t => decide (t + 4000 + s.getF pgSPC SPC_CTL.RETURN_T * 1000000 ≤ s.ticks)
    | none => false
  if s.slotEn slot && s.slotSt slot == 5 && s.flag (pgSLOT slot) SPC_SCFG.RETURN && s.flag (pgSLOT slot) SPC_SCFG.ALT_EN
      && (s.slot slot).gap.isNone && s.slotFeed slot != f && good && s.feedGood f then (s.feedSwitch slot f).done
  else s.done

/-- FRU_READ_DONE (R538). -/
def execFruReadDone (slot : Nat) (fru : Option FruRead) (s : State) : Res :=
  if s.slotEn slot && (s.slot slot).fruDue then (s.fruDone slot fru).done else s.done

/-- LIFE_COUNT_WRITTEN (R540): the counts of the arrival are in flash, or could not be written. -/
def execLifeCountWritten (slot : Nat) (ok : Bool) (s : State) : Res :=
  if s.slotEn slot && s.flag (pgSLOT slot) SPC_SSTS.PRESENT && !(s.slot slot).fruDue && !(s.slot slot).written then
    (((s.lifeWrite slot ok).modSlot slot fun x => { x with written := true }).showWait slot).done
  else s.done

/-- SLOT_ON_HOUR_WRITE (R540): after every 3,600 s of ON. -/
def execSlotOnHourWrite (slot : Nat) (ok : Bool) (s : State) : Res :=
  if s.slotEn slot && s.slotSt slot == 5 && decide ((s.slot slot).hourAt + 3600000000000 ≤ s.ticks) then
    (((s.onCount slot).modSlot slot fun x => { x with hourAt := s.ticks }).lifeWrite slot ok).done
  else s.done

/-- Effect of CLR_LATCH (R532). -/
def State.clrLatch (s : State) (i : Nat) : State :=
  let s1 := s.setFlag (pgSLOT i) SPC_SSTS.LATCH false
  if s.slotSt i = 7 then s1.slotGo i 1 true else s1

/-- Effect of SERVICE (R528). -/
def State.slotService (s : State) (i : Nat) : State :=
  if s.slotSt i = 8 ∧ s.flag (pgSLOT i) SPC_SSTS.PRESENT = false then
    let s1 := ((s.slotGo i 0 true).setF (pgSLOT i) SPC_HEAT.H 0).setRetry i 0
    ((s1.setFlag (pgSLOT i) SPC_SSTS.LATCH false).setF (pgSLOT i) SPC_SSTS.LAST_TRIP 0).modSlot i fun x => { x with retired := false }
  else s

/-- Effect of CONN_RESET (R541). -/
def State.connReset (s : State) (i : Nat) : State :=
  let s1 := (s.setF (pgSLOT i) SPC_MATE.COUNT 0).setF (pgSLOT i) SPC_LIFE_STS.FLAGS (s.getF (pgSLOT i) SPC_LIFE_STS.FLAGS / 4 * 4)
  ((s1.modSlot i fun x => { x with connT := s.fabric }).lifeCheck i).lifeWrite i true

/-- SPC_CLR_LATCH (R532). -/
def execSpcClrLatch (who : Requester) (slot : Nat) (s : State) : Res :=
  if 40 ≤ slot then s.done
  else (s.withAccess who (State.offOf (pgSLOT slot) SPC_CMD.CLR_LATCH) 4 true fun t => t.clrLatch slot).done

/-- SPC_SERVICE (R528). -/
def execSpcService (who : Requester) (slot : Nat) (s : State) : Res :=
  if 40 ≤ slot then s.done
  else (s.withAccess who (State.offOf (pgSLOT slot) SPC_CMD.SERVICE) 4 true fun t => t.slotService slot).done

/-- SPC_CONN_RESET (R541). -/
def execSpcConnReset (who : Requester) (slot : Nat) (s : State) : Res :=
  if 40 ≤ slot then s.done
  else (s.withAccess who (State.offOf (pgSLOT slot) SPC_CMD.CONN_RESET) 4 true fun t => t.connReset slot).done

/-- LIMDER_LINK_FAIL (R46, R537). -/
def execLimderLinkFail (s : State) : Res :=
  if s.spcUp then ((s.setFlag pgSPC SPC_STS.LINK_UP false).fire pgSPC 0).done else s.done

/-- LIMDER_LINK_RESTORE (R537). -/
def execLimderLinkRestore (s : State) : Res :=
  if s.spcUp then s.done else s.limderBack.done

end Sys2Proof.Machine
end

