-- ==== Sys2Proof/Machine/Trust.lean ====
section
/-! DEFINITION. Cellar Book and trust (chapter 16): the boot ROM, the Book in flash, retrieval and SPDM, attestation, owner commands, debug tokens. -/

namespace Sys2Proof.Machine

/-- `n` bytes of a list from an offset. -/
def slice (l : List Byte) (a n : Nat) : List Byte := (l.drop a).take n

/-- Records stored in one sector of the Book area (R557): from offset `a`, until the erased rest. -/
def sectorRecs : Nat → List Byte → List (List Byte)
  | 0, _ => []
  | n + 1, l =>
    let len := leNat (slice l 2 2)
    if leNat (slice l 0 2) = 0xFFFF ∨ len < 16 ∨ l.length < len then [] else l.take len :: sectorRecs n (l.drop len)

/-- BOOT_NO of the entry that each record belongs to; `n` is that of the records before the next BOOT_OPEN. -/
def tagEntries : Nat → List (List Byte) → List (Nat × List Byte)
  | _, [] => []
  | n, r :: l =>
    let k := if recType r = 1 then leNat (slice r 16 4) else n
    (k, r) :: tagEntries k l

/-- Chain value after the records of an entry, from its BOOT_OPEN or its earliest CHECKPOINT (R555, R557); none where neither is stored. -/
def chainOf : List (List Byte) → Option Nat
  | [] => none
  | r :: l =>
    let c0 := if recType r = 1 then some 0 else if recType r = 0xF then some (leNat (slice r 24 48)) else none
    match c0 with
    | none => chainOf l
    | some c => some (chainFrom c (r :: l))

/-- Records of a list after its last CHECKPOINT. -/
def tailOf (l : List (List Byte)) : Nat := (l.reverse.takeWhile fun r => recType r != 0xF).length

/-- Label of the identity key pair and of the debug key pair in R550's derivation. -/
def idLabel : Nat := 0
def dbgLabel : Nat := 1

/-- SPDM version 1.3 as messages carry it, and the error UnsupportedRequest to a request code (DSP0274). -/
def spdmVersion : Byte := 0x13
def spdmError (code : Byte) (req : Byte) : List Byte := [spdmVersion, 0x7F, code, req]

/-- SPDM requests that a responder with the capabilities of R560 serves: digests, certificate, challenge, version, capabilities, algorithms,
key exchange and finish, the encapsulated requests of mutual authentication, end of session. -/
def spdmServed : List Nat := [0x81, 0x82, 0x83, 0x84, 0xE1, 0xE3, 0xE4, 0xE5, 0xEA, 0xEB, 0xEC]

namespace State

/-- Change the trust block. -/
def modTrust (s : State) (f : TrustSt → TrustSt) : State := { s with trust := f s.trust }

/-- Private key of the device's identity or debug key pair (R550). -/
def deviceKey (s : State) (inDebug : Bool) : Nat := 1 + Config.deriveKey s.trust.uds (if inDebug then dbgLabel else idLabel) % (p384N - 1)

/-- A signature with the key that this boot signs with (R555, R560): the per-message number of ECDSA is a free value. -/
def signed (s : State) (l : List Byte) : List Byte × State :=
  let (k, s1) := s.draw
  (ecdsaSign (s.deviceKey (s.flag pgTRU TRU_BOOT_STS.DEBUG)) (1 + k % (p384N - 1)) (sha384 l), s1)

/-- A new random nonce is drawn (R567): a free value. -/
def newNonce (s : State) : State :=
  let (v, s1) := s.draw
  s1.modTrust fun t => { t with nonce := v % 2 ^ 256 }

/-! ## The Book in flash (R556, R557) -/

/-- A CHECKPOINT record (R555): COUNT, KEY, CHAIN and the signature over its first 72 bytes. -/
def checkpoint (s : State) : State :=
  let n := s.getF pgTRU TRU_BSEQ.NEXT
  let inDebug := s.flag pgTRU TRU_BOOT_STS.DEBUG
  let body := leBytes 4 n ++ leBytes 4 inDebug.toNat ++ leBytes 48 s.trust.chain
  let head := leBytes 2 0xF ++ leBytes 2 168 ++ leBytes 4 n ++ leBytes 8 s.fabric
  let (sig, s0) := s.signed (head ++ body)
  let s1 := s0.bookAdd 0xF (body ++ sig)
  s1.modTrust fun t => { t with cpDue := none, cpLast := if s1.getF pgTRU TRU_BSEQ.NEXT = n then t.cpLast else (s.trust.chain, n) }

/-- A CHECKPOINT becomes due (R556). -/
def checkpointDue (s : State) : State := s.modTrust fun t => { t with cpDue := some (t.cpDue.getD s.ticks) }

/-- Place of a record of `len` bytes: the next sector where it does not fit this one (R557). -/
def bookPlace (s : State) (len : Nat) : Nat :=
  let p := s.trust.place
  let q := if 0x10000 < p % 0x10000 + len then (p / 0x10000 + 1) * 0x10000 else p
  if 0x4000000 ≤ q then 0x3800000 else q

/-- The oldest held record goes to flash (R557); room that returns brings the OVERFLOW record (R556). -/
def bookStore (s : State) : State :=
  match s.trust.held with
  | [] => s
  | r :: l =>
    let a := s.bookPlace r.length
    let s1 := if a % 0x10000 = 0 then s.flashErase a 0x10000 else s
    let s2 := (s1.flashWrite a r).modTrust fun t => { t with held := l, place := a + r.length, fresh := if t.fresh ≤ l.length then t.fresh else 0 }
    if s.trust.lost = 0 then s2
    else ((s2.modTrust fun t => { t with lost := 0 }).bookAdd 0xB (leBytes 4 s.trust.lost))

/-- Sectors of the Book area from the oldest to the one now written. -/
def bookSectors (s : State) : List Nat :=
  let cur := (s.trust.place - 1 - 0x3800000) / 0x10000
  (List.range 128).map fun i => 0x3800000 + 0x10000 * ((cur + 1 + i) % 128)

/-- Records stored in the Book area, oldest first, each with the BOOT_NO of its entry. -/
def bookStored (s : State) : List (Nat × List Byte) :=
  let rs := s.bookSectors.flatMap fun a => if s.flashByte a == 0xFF && s.flashByte (a + 1) == 0xFF then [] else sectorRecs 4096 (s.flashRead a 0x10000)
  let first := match rs.find? fun r => recType r == 1 with
    | some r => leNat (slice r 16 4) - 1
    | none => s.trust.bootNo
  tagEntries first rs

/-- Records of an entry that are still held or stored; 0 names the current entry (R559). -/
def bookEntry (s : State) (n : Nat) : List (List Byte) :=
  let k := if n = 0 then s.trust.bootNo else n
  ((s.bookStored.filter fun e => e.1 == k).map (·.2)) ++ if k = s.trust.bootNo then s.trust.held else []

/-- Records that fit in `room` bytes, whole and in order. -/
def fitRecs : Nat → List (List Byte) → List (List Byte)
  | _, [] => []
  | room, r :: l => if r.length ≤ room then r :: fitRecs (room - r.length) l else []

/-! ## Keys (R547, R549) -/

/-- Quirum keys in force. -/
def qkeys (s : State) : List (Nat × Nat) := s.trust.qkey.filter fun e => decide (e.1 < 4) && !bitAt s.trust.qrevoke e.1

/-- Debug authority digest in force. -/
def dbgKey (s : State) : Option Nat :=
  ([1, 0].find? fun i => (s.trust.dbg.any fun e => e.1 == i) && !bitAt s.trust.dbgRevoke i).map fun i => storeGet (fun _ => 0) s.trust.dbg i

/-- Quirum key under which a firmware copy's signature verifies (R549). -/
def copyKey (s : State) (f : FwCopy) : Option Nat :=
  (s.qkeys.find? fun e => e.2 == sha384 f.key && ecdsaVerify f.hash f.key f.sig).map (·.1)

/-- The copy is accepted (R549), with the index of its key. -/
def copyAccepted (s : State) (f : Option FwCopy) : Option (Nat × FwCopy) :=
  match f with
  | none => none
  | some c => match s.copyKey c with
    | some i => if s.trust.svn ≤ c.svn then some (i, c) else none
    | none => none

/-! ## Debug tokens (R568, R569) -/

/-- A token passes R568, the NONCE test apart. -/
def tokenOk (s : State) (t : List Byte) : Bool :=
  let scope := leNat (slice t 6 2)
  decide (t.length = 288) && leNat (slice t 0 4) == 0x4B4F5444 && leNat (slice t 4 2) == 1 && (scope == 1 || scope == 3)
    && leNat (slice t 12 4) == 0 && leNat (slice t 16 48) == s.trust.certHash && leNat (slice t 8 4) == s.trust.dbgCtr
    && decide (s.trust.dbgCtr < 1024) && s.dbgKey == some (sha384 (slice t 0x60 96))
    && ecdsaVerify (sha384 (slice t 0 0xC0)) (slice t 0x60 96) (slice t 0xC0 96)

/-- DEBUG record (Table 16.4). -/
def bookDebug (s : State) (t : List Byte) (stage : Nat) : State :=
  s.bookAdd 8 (leBytes 4 (leNat (slice t 6 2)) ++ leBytes 4 (leNat (slice t 8 4)) ++ leBytes 48 (sha384 t) ++ leBytes 1 stage)

/-- A token is presented (R568): answers whether it was accepted. -/
def tokenPresent (s : State) (t : List Byte) : State × Bool :=
  if s.tokenOk t && leNat (slice t 0x40 32) == s.trust.nonce then
    ((((s.flashErase 0x37FF000 0x1000).flashWrite 0x37FF000 t).bookDebug t 0).newNonce, true)
  else (s.fire pgTRU 7, false)

/-! ## Boot ROM (Table 16.2) -/

/-- Steps 5 and 6 of Table 16.2: verify the copies, make the FIRMWARE record; answers whether one is accepted. -/
def bootFirmware (s : State) (a b : Option FwCopy) : State × Bool :=
  let s0 := s.modTrust fun t => { t with fwA := a, fwB := b }
  let pick := match s.copyAccepted a with
    | some x => some (0, x)
    | none => (s.copyAccepted b).map fun x => (1, x)
  match pick with
  | some (n, i, c) =>
    let s1 := s0.modTrust fun t => { t with
      qrevoke := (c.revoke.filter fun k => decide (k < i)).foldl bitSet t.qrevoke
      fwHash := c.hash
      faults := if n = 1 then t.faults ++ [9] else t.faults }
    let s2 := s1.bookAdd 2 (leBytes 1 n ++ leBytes 1 i ++ leBytes 1 c.svn ++ leBytes 1 s.trust.svn ++ leBytes 4 c.version ++ leBytes 48 c.hash)
    ((s2.setF pgTRU TRU_BOOT_STS.FW_COPY n).setF pgTRU TRU_BOOT_STS.SVN s.trust.svn, true)
  | none =>
    let s1 := s0.bookAdd 2 (leBytes 1 0xFF ++ leBytes 2 0 ++ leBytes 1 s.trust.svn)
    let s2 := ((s1.setF pgTRU TRU_BOOT_STS.FW_COPY 3).setF pgTRU TRU_BOOT_STS.SVN s.trust.svn).setFlag pgTRU TRU_BOOT_STS.BOOT_FAIL true
    ((s2.checkpointDue).setPin true, false)

/-- The management complex is released: the faults that the boot ROM found fire (R548). -/
def mgmtRelease (s : State) : State :=
  let s1 := s.each s.trust.faults fun t b => t.fire pgTRU b
  { (s1.modTrust fun t => { t with faults := [] }) with mgmtUp := true }

/-- Steps 1 to 6 of Table 16.2 after a reset of the device (R548 to R571). The CERT_HASH of an entry whose BOOT_OPEN is erased is stored
nowhere: a free value (log 51). Where the Book area was written by another, PREV_CHAIN, TAIL and that CERT_HASH are free values (R573). -/
def bootRom (s : State) (warm : Bool) (info : BootInfo) : State :=
  let stored := s.bookStored
  let newest := stored.foldl (fun a e => max a e.1) 0
  let recs := (stored.filter fun e => e.1 == newest).map (·.2)
  let prev := chainOf recs
  let boot := if stored.isEmpty then 1 else newest + 1
  let (lostCert, r1) := s.draw
  let (anyChain, r2) := r1.draw
  let (anyTail, r3) := r2.draw
  let prevCert := match prev with
    | none => 0
    | some _ => if s.trust.chainOpen then lostCert % 2 ^ 384
        else (recs.find? fun r => recType r == 1).elim (lostCert % 2 ^ 384) fun r => leNat (slice r 32 48)
  let prevChain := if s.trust.chainOpen then anyChain % 2 ^ 384 else prev.getD 0
  let tail := if s.trust.chainOpen then anyTail % 2 ^ 32 else tailOf recs
  let (cert, certBad) := match info.cert with
    | some (k, h) => if k = leNat (publicKey (s.deviceKey false)) then (h, false) else (0, true)
    | none => (0, false)
  let dbgBad := match info.dbgCert with
    | some k => k != leNat (publicKey (s.deviceKey true))
    | none => false
  let token := s.flashRead 0x37FF000 288
  let s1 := r3.modTrust fun t => { t with certHash := cert, bootNo := boot, chain := 0, held := [], uncovered := 0, since := none, lost := 0, cpDue := none,
                                          cpLast := (0, 0), faults := [], fwHash := 0, cfgHash := 0, chainOpen := false }
  let some1 := token.any (· != 0xFF)
  let inDebug := some1 && s1.tokenOk token
  let secure := inDebug && bitAt (leNat (slice token 6 2)) 1
  let replaced := prevCert != 0 && prevCert != cert
  let flags := inDebug.toNat + 2 * warm.toNat + 4 * replaced.toNat + 8 * prev.isNone.toNat + 16 * secure.toNat
  let s2 := (s1.flashErase 0x37FF000 0x1000).modTrust fun t => { t with
    dbgCtr := if inDebug then t.dbgCtr + 1 else t.dbgCtr
    flags := flags
    faults := (if certBad || dbgBad then [0] else []) ++ (if replaced then [3] else []) ++ (if some1 && !inDebug then [7] else [])
      ++ (if inDebug then [10] else []) }
  let s3 := (((s2.setF pgTRU TRU_BOOTNO.BOOT_NO boot).setF pgTRU TRU_BSEQ.NEXT 0).setFlag pgTRU TRU_BOOT_STS.DEBUG inDebug).setFlag
    pgTRU TRU_BOOT_STS.SECURE_SCOPE secure
  let s4 := ((s3.setFlag pgTRU TRU_BOOT_STS.CERT_OK (info.cert.isSome && !certBad)).setFlag pgTRU TRU_BOOT_STS.REPLACED replaced).setF
    pgTRU TRU_BOOT_STS.DBG_LEFT (1024 - s2.trust.dbgCtr)
  let s5 := (s4.setFlag pgACC ACC_DBG_STS.UNLOCKED inDebug).setFlag pgACC ACC_DBG_STS.SECURE_SCOPE secure
  let s6 := s5.bookAdd 1 (leBytes 4 boot ++ leBytes 4 flags ++ leBytes 4 (s.reg (fkey pgGLB GLB_DEV_ID.PART 0)).toNat
    ++ leBytes 4 tail ++ leBytes 48 cert ++ leBytes 48 prevCert ++ leBytes 48 prevChain)
  let (s7, ok) := s6.newNonce.bootFirmware info.copyA info.copyB
  let s8 := s7.onlyIf inDebug fun t => t.bookDebug token 1
  if ok then s8.mgmtRelease else s8

/-! ## Attestation (R562 to R564) -/

/-- Anchors that are enabled: their digests (Table 16.11). -/
def anchors (s : State) : List Nat :=
  ((List.range 8).filter fun a => bitAt (s.getF pgTRU TRU_ANCHOR_EN.EN) a).map fun a =>
    leNat ((List.range 12).flatMap fun w => leBytes 4 (s.getF pgTRU TRU_ANCHOR.DIGEST (12 * a + w)))

/-- Attestation record of a port. -/
def attOf (s : State) (p : Nat) : AttSt := storeGet (fun _ => ⟨none, false⟩) s.trust.att p

/-- An attestation of a port runs. -/
def attRuns (s : State) (p : Nat) : Bool := (s.attOf p).start.isSome && !(s.attOf p).done

/-- Outcome of a module (Table 16.8). -/
def attOutcome (s : State) (r : Option AttReply) : Nat :=
  match r with
  | none => 1
  | some x => if !x.chainOk || !s.anchors.contains x.root then 2 else if !x.sigsOk then 3 else 0

/-- Outcome of a peer (R564): a CERT_HASH that does not begin with the IDENT of its HELLO fails as its chain does. -/
def peerOutcome (s : State) (p : Nat) (r : Option AttReply) : Nat :=
  match r with
  | none => 1
  | some x => if !x.chainOk || leNat ((leBytes 48 x.chain).take 8) != s.getL p FFL_PEER_ID.IDENT then 2 else if !x.sigsOk then 3 else 0

/-- Slot that serves a port. -/
def portSlot (s : State) (p : Nat) : Option Nat :=
  if s.isDown p && s.flag (pgLNK p) LNK_SLOT.HP_EN then some (s.getF (pgLNK p) LNK_SLOT.SLOT) else none

/-- The attestation of a port ends: record, status, fault. -/
def attEnd (s : State) (p code : Nat) (r : Option AttReply) : State :=
  let s1 := s.modTrust fun t => { t with att := storeSet (fun _ => (⟨none, false⟩ : AttSt)) t.att p ⟨(s.attOf p).start, true⟩ }
  let s2 := if p < 64 then s1.setP pgTRU TRU_ATTSTS.STS 2 (p % 16) (if code = 0 then 2 else 3) (p / 16) else s1
  let chain := (r.map (·.chain)).getD 0
  if 64 ≤ p ∨ s.isFfl p = true then
    let s3 := s2.bookAdd 7 (leBytes 1 p ++ leBytes 1 (s.getL p FFL_PEER.FDID) ++ leBytes 1 code ++ leBytes 1 (decide (64 ≤ p)).toNat
      ++ leBytes 4 0 ++ leBytes 48 chain)
    s3.onlyIf (decide (code ≠ 0)) fun t => t.fire pgTRU 6 31 (portTag p)
  else
    let key := ((s.portSlot p).bind fun i => (s.slot i).key).getD 0
    let mode := s.getP pgTRU TRU_ATTMODE.MODE 2 (p % 16) (p / 16)
    let s3 := s2.bookAdd 6 (leBytes 1 p ++ leBytes 1 ((s.portSlot p).getD 0xFF) ++ leBytes 1 code ++ leBytes 1 mode ++ leBytes 4 0 ++ leBytes 16 key
      ++ leBytes 48 chain ++ leBytes 48 ((r.map (·.meas)).getD 0))
    s3.onlyIf (decide (code ≠ 0)) fun t => t.fire pgTRU 4 (s.portPart p) p

/-! ## Owner commands (R565 to R567) -/

/-- Some OWNERi is programmed. -/
def ownerSet (s : State) (i : Nat) : Bool := s.trust.owner.any fun e => e.1 == i

/-- The authorisation of R565. -/
def ownerAuth (s : State) (b : List Byte) : Bool :=
  let key := slice b 0x60 96
  let sig := ecdsaVerify (sha384 (slice b 0 0xC0)) key (slice b 0xC0 96)
  let first := leNat (slice b 0 1) == 1 && s.trust.owner.isEmpty
  if first then sha384 key == leNat (slice b 0x10 48) && sig
  else leNat (slice b 0x40 32) == s.trust.nonce && s.ownerKey == some (sha384 key) && sig

/-- A firmware copy verifies with a security version of at least `v`. -/
def copyAtLeast (s : State) (f : Option FwCopy) (v : Nat) : Bool :=
  match s.copyAccepted f with
  | some (_, c) => decide (v ≤ c.svn)
  | none => false

/-- Refusal of R567 for a command block; 0 for none. -/
def ownerRefusal (s : State) (b : List Byte) : Nat :=
  let cmd := leNat (slice b 0 1)
  let i := leNat (slice b 1 1)
  let v := leNat (slice b 0x10 1)
  if !s.ownerAuth b then 1
  else if cmd = 1 ∧ (4 ≤ i ∨ s.ownerSet i = true ∨ bitAt s.trust.ownerRevoke i = true) then 2
  else if cmd = 3 ∧ (2 ≤ i ∨ (s.trust.dbg.any fun e => e.1 == i) = true ∨ bitAt s.trust.dbgRevoke i = true) then 2
  else if cmd = 2 ∧ (s.modTrust fun t => { t with ownerRevoke := bitSet t.ownerRevoke i }).ownerKey = none then 3
  else if cmd = 5 ∧ (64 < v ∨ v < s.trust.svn ∨ s.copyAtLeast s.trust.fwA v = false ∨ s.copyAtLeast s.trust.fwB v = false) then 4
  else 0

/-- Fuses burnt by an accepted command (R566). -/
def burn (s : State) (b : List Byte) : State :=
  let cmd := leNat (slice b 0 1)
  let i := leNat (slice b 1 1)
  let arg := leNat (slice b 0x10 48)
  s.modTrust fun t =>
    if cmd = 1 then { t with owner := storeInsert t.owner i arg }
    else if cmd = 2 then { t with ownerRevoke := if i < 4 then bitSet t.ownerRevoke i else t.ownerRevoke }
    else if cmd = 3 then { t with dbg := storeInsert t.dbg i arg }
    else if cmd = 4 then { t with dbgRevoke := if i < 2 then bitSet t.dbgRevoke i else t.dbgRevoke }
    else { t with svn := max t.svn (leNat (slice b 0x10 1)) }

/-- An owner command block with command code `cmd` (R565 to R567): its fuses, its OWNER_CMD record and its answer. -/
def ownerCmd (s : State) (cmd : Nat) (b : List Byte) : State :=
  if !s.mgmtUp || decide (b.length ≠ 288) || leNat (slice b 0 1) != cmd then s
  else
    let r := s.ownerRefusal b
    let s1 := if r = 0 then (s.burn b).newNonce else s.fire pgTRU 8
    let s2 := s1.bookAdd 9 (slice b 0 1 ++ slice b 1 1 ++ leBytes 1 r ++ leBytes 5 0 ++ slice b 0x10 48)
    (s2.setF pgTRU TRU_BOOT_STS.SVN s2.trust.svn).emit (.spdm [3, BitVec.ofNat 8 r])

/-! ## SPDM (R560, R561) -/

/-- Value of a measurement block (Table 16.6a). -/
def measurement (s : State) (i : Nat) : List Byte :=
  if i = 1 then leBytes 48 s.trust.fwHash
  else if i = 2 then leBytes 48 s.trust.cfgHash
  else if i = 3 then leBytes 48 ((s.sched.active.map (·.digest)).getD 0)
  else if i = 4 then leBytes 48 s.trust.cpLast.1 ++ leBytes 4 s.trust.cpLast.2
  else if i = 5 then leBytes 4 s.trust.flags else []

/-- A measurement block in the DMTF format (R561): index, specification 1, size, value type (raw or digest: Table 16.6a; the rest a free value), value. -/
def measureBlock (s : State) (i : Nat) : List Byte :=
  let v := s.measurement i
  leBytes 1 i ++ [1] ++ leBytes 2 (3 + v.length) ++ leBytes 1 ((if i = 4 ∨ i = 5 then 128 else 0) + Config.measureType i % 128)
    ++ leBytes 2 v.length ++ v

/-- What SPDM 1.3 puts before the transcript's digest in a signature of measurements: its version text four times, zeros and the context (R560). -/
def spdmSignPrefix : List Byte :=
  let text := fun (x : String) => x.toList.map fun c => BitVec.ofNat 8 c.toNat
  (List.replicate 4 (text "dmtf-spdm-v1.3.*")).flatten ++ List.replicate 6 0 ++ text "responder-measurements signing"

/-- MEASUREMENTS for block `i` (0: only their number; 0xFF: all), signed by the slot that signs over SPDM's signing prefix and the digest of the
transcript: version, capability and algorithm messages, whose bytes the model does not hold (free, log 49), request and answer (R560, R561). `body` is
the request: its last 8 bytes are the requester's context. -/
def measureReply (s : State) (i : Nat) (body : List Byte) : List Byte × State :=
  let is := if i = 0xFF then [1, 2, 3, 4, 5] else if i = 0 then [] else [i]
  let record := is.flatMap s.measureBlock
  let (n, s1) := s.draw
  let v := [spdmVersion, 0x60] ++ leBytes 1 (if i = 0 then 5 else 0) ++ leBytes 1 (s.flag pgTRU TRU_BOOT_STS.DEBUG).toNat ++ leBytes 1 is.length
    ++ leBytes 3 record.length ++ record ++ leBytes 32 n ++ leBytes 2 0 ++ body.drop (body.length - 8)
  let (vca, s2) := s1.drawBytes
  let (sig, s3) := s2.signed (spdmSignPrefix ++ sha384Bytes (vca ++ body ++ v))
  (v ++ sig, s3)

/-- A step of IDE_KM for a stream of a PCIe port (R243): keys programmed, taken into use while the link is up (the stream is Secure), or stopped.
On an upstream port the management complex responds; on a downstream port it is the requester, the step is what the module's answer completes, and what
it sends is its next request, if one follows. The bytes are the firmware's. -/
def ideKm (s : State) (p n : Nat) (act : IdeAct) : List Byte × State :=
  let code := match act with
    | .program => 0
    | .go => 2
    | .stop => 3
  let asks := s.isDown p
  let answer := Config.firmwareReply [BitVec.ofNat 8 p, BitVec.ofNat 8 n, if asks then code + 0x80 else code]
  let error := if asks then [] else spdmError 0x01 0
  let ok := decide (p < 64 ∧ n ≤ 8) && s.portEn p && !s.isFfl p
  if !ok then (error, s)
  else match act with
    | .program => (answer, s.modPort p fun x => { x with ideKeys := n :: x.ideKeys.filter (· != n) })
    | .go =>
      if (s.port p).ideKeys.contains n && s.inL0 p
      then (answer, (s.ideSet p n true false).modPort p fun x => { x with ideKeys := x.ideKeys.filter (· != n) })
      else (error, s)
    | .stop => (answer, s.ideSet p n false false)

/-- Answer to an SPDM request: a measurement block that Table 16.6a does not list is an invalid request, a request that the capabilities of R560 do
not cover is answered UnsupportedRequest (R11, R558), and the content of any other answer is the firmware's. -/
def spdmReply (s : State) (r : SpdmReq) : List Byte × State :=
  match r with
  | .measure i body => if i ≤ 5 ∨ i = 0xFF then s.measureReply i body else (spdmError 0x01 0, s)
  | .vendor _ => (spdmError 0x07 0xFE, s)
  | .ide p n act => s.ideKm p n act
  | .other body =>
    let code := body.getD 1 0
    (if spdmServed.contains code.toNat then Config.firmwareReply body else spdmError 0x07 code, s)

end State

/-! ## Commands -/

/-- GET_BOOK (R556, R558, R559, R573): whole records from a BSEQ that fit in `room` bytes, after a CHECKPOINT where a record is uncovered. -/
def execGetBook (bootNo start room : Nat) (s : State) : Res :=
  if !s.mgmtUp then s.done
  else
    let s1 := if s.trust.uncovered = 0 then s else s.checkpoint
    let rs := (s1.bookEntry bootNo).filter fun r => decide (start ≤ recSeq r)
    let out := State.fitRecs room rs
    let answer := if s1.trust.tainted then Config.freeBytes s1.free
      else [1, if out.length < rs.length then 1 else 0, 0, 0] ++ leBytes 4 out.length ++ out.flatten
    (({ s1 with free := s1.free + s1.trust.tainted.toNat } : State).emit (.spdm answer)).done

/-- GET_NONCE (R558). -/
def execGetNonce (s : State) : Res :=
  if s.mgmtUp then (s.emit (.spdm ([2, 0, 0, 0] ++ leBytes 32 s.trust.nonce))).done else s.done

/-- PROVISION_OWNER (R566). -/
def execProvisionOwner (blk : List Byte) (s : State) : Res := (s.ownerCmd 1 blk).done
/-- REVOKE_OWNER (R566). -/
def execRevokeOwner (blk : List Byte) (s : State) : Res := (s.ownerCmd 2 blk).done
/-- PROVISION_DBGAUTH (R566). -/
def execProvisionDbgauth (blk : List Byte) (s : State) : Res := (s.ownerCmd 3 blk).done
/-- REVOKE_DBGAUTH (R566). -/
def execRevokeDbgauth (blk : List Byte) (s : State) : Res := (s.ownerCmd 4 blk).done
/-- COMMIT_SVN (R566). -/
def execCommitSvn (blk : List Byte) (s : State) : Res := (s.ownerCmd 5 blk).done

/-- DEBUG_TOKEN (R558, R568). -/
def execDebugToken (token : List Byte) (s : State) : Res :=
  if s.mgmtUp then
    let (s1, ok) := s.tokenPresent token
    (s1.emit (.spdm [4, if ok then 0 else 1])).done
  else s.done

/-- DBGTOKEN (R568). -/
def execDbgtoken (token : List Byte) (s : State) : Res := (s.tokenPresent token).1.done

/-- Bytes `a` to `a + n − 1` of the boot flash are written by the debug port: a mark on the areas that only the trust block (R573) or the management
firmware (R592) may write. -/
def State.flashTaint (s : State) (a n : Nat) : State :=
  let hits := fun (lo hi : Nat) => decide (0 < n ∧ a < hi ∧ lo < a + n)
  let book := hits 0x37FF000 0x4000000
  { s with trust := { s.trust with tainted := s.trust.tainted || book, chainOpen := s.trust.chainOpen || book }
           age := { s.age with tainted := s.age.tainted || hits 0x37C0000 0x37F0000 } }

/-- FLASHPROG (R549): access to the boot flash, in BOOT_FAIL only. -/
def execFlashprog (addr : Nat) (op : FlashOp) (s : State) : Res :=
  if !s.flag pgTRU TRU_BOOT_STS.BOOT_FAIL then s.done
  else match op with
    | .read n => (s.emit (.jtag (leNat (s.flashRead addr n)))).done
    | .program d => if addr + d.length ≤ 0x4000000 then ((s.flashWrite addr d).flashTaint addr d.length).done else s.done
    | .erase n => ((s.flashErase addr n).flashTaint addr n).done

/-- BOOTSTS (R549). -/
def execBootsts (s : State) : Res := (s.emit (.jtag (s.reg (State.fkey pgTRU TRU_BOOT_STS.DEBUG 0)).toNat)).done

/-- SPDM_REQUEST (R560, R561). -/
def execSpdmRequest (req : SpdmReq) (s : State) : Res :=
  if s.mgmtUp then
    let (l, s1) := s.spdmReply req
    (s1.emit (.spdm l)).done
  else s.done

/-- CHECKPOINT_TIMER (R556): CP_INT after the first record that no CHECKPOINT covers. -/
def execCheckpointTimer (s : State) : Res :=
  match s.trust.since with
  | none => s.done
  | some t => if t + s.getF pgTRU TRU_CP_CTL.CP_INT * 10000000 ≤ s.ticks then s.checkpointDue.done else s.done

/-- CHECKPOINT_MADE (R556): the CHECKPOINT that is due. -/
def execCheckpointMade (s : State) : Res := if s.trust.cpDue.isSome then s.checkpoint.done else s.done

/-- BOOK_FLASH_WRITTEN (R556, R557). -/
def execBookFlashWritten (ok : Bool) (s : State) : Res :=
  if s.trust.held.isEmpty then s.done else if ok then s.bookStore.done else (s.fire pgTRU 1).done

/-- ATTEST_OUTCOME (R562, R564). -/
def execAttestOutcome (port : Nat) (reply : Option AttReply) (s : State) : Res :=
  if !s.attRuns port then s.done
  else if 64 ≤ port ∨ s.isFfl port = true then (s.attEnd port (s.peerOutcome port reply) reply).done
  else (s.attEnd port (s.attOutcome reply) reply).done

/-- ATTEST_TIMEOUT (R562). -/
def execAttestTimeout (port : Nat) (s : State) : Res :=
  match (s.attOf port).start with
  | none => s.done
  | some t =>
    if s.attRuns port && decide (t + s.getF pgTRU TRU_ATT_CTL.ATT_T * 1000000 ≤ s.ticks) then (s.attEnd port 4 none).done else s.done

/-- Effect of TRU_ATT_REDO with GO (R562): the attestation of a port runs again. -/
def State.attRedo (s : State) (p : Nat) : State :=
  if s.isDown p && s.getP pgTRU TRU_ATTMODE.MODE 2 (p % 16) (p / 16) != 0 && s.inL0 p then s.attStart p else s

/-- TRU_ATT_REDO (R562). -/
def execTruAttRedo (who : Requester) (port : Nat) (s : State) : Res :=
  (s.withAccess who (State.offOf pgTRU TRU_ATT_REDO.GO) 4 true fun t => t.attRedo port).done

end Sys2Proof.Machine
end

