-- ==== Sys2Proof/Machine/Ageing.lean ====
section
/-! DEFINITION. Ageing and margins (chapter 17): scans, planner passes and their actions, the core voltage target, and the records in boot flash. -/

namespace Sys2Proof.Machine

/-- EH_REQ and EW_REQ of a rate code (Table 17.2). -/
def eyeReq (rate : Nat) : Nat × Nat :=
  if rate = 6 then (16, 12) else if rate = 5 then (20, 16) else if rate = 4 then (15, 20) else if rate = 3 then (15, 24)
  else if rate = 2 then (15, 28) else (50, 40)

/-- Margin ratio (R578). -/
def marginRatio (rate eh ew : Nat) : Nat := min 255 (min (100 * eh / (eyeReq rate).1) (100 * ew / (eyeReq rate).2))

/-- One hour of fabric time or of model ticks. -/
def hourNs : Nat := 3600000000000

namespace State

/-- Change the ageing state. -/
def modAge (s : State) (f : AgeSt → AgeSt) : State := { s with age := f s.age }

/-- AGE_CTL.MODE: 0 OFF, 1 ADVISE, 2 AUTO. -/
def ageMode (s : State) : Nat := s.getF pgAGE AGE_CTL.MODE

/-! ## Core voltage (R585, R586, R621) -/

/-- TARGET takes a value: the levels of the supply monitor follow, and the state block is written (R587, R621). -/
def setTarget (s : State) (mv : Nat) : State :=
  if s.avsTarget = mv then s
  else
    let s1 := s.setF pgAGE AGE_AVS.TARGET mv
    ((s1.setF pgPWR PWR_LEVEL.WARN_MV (mv * 94 / 100)).setF pgPWR PWR_LEVEL.RESET_MV (mv * 90 / 100)).ageBlock

/-- The planner raises TARGET by 5 mV, not beyond CEIL. -/
def avsRaise (s : State) : State :=
  let a := s.avsTarget
  let b := min (a + 5) (s.getF pgAGE AGE_AVS.CEIL)
  if b ≤ a then s else ((s.setTarget b).addF pgAGE AGE_CNT.AVS).ageLog 1 0x3F 0xFF 0 a b

/-- Core slack of the pass: the least that monitors 0 to 4 reported (R576). -/
def coreSlack (s : State) : Nat := ([1, 2, 3, 4].map s.monSlack).foldl min (s.monSlack 0)

/-- A proposal or deferred action is held in AGE_PROP. -/
def propose (s : State) (action port lanes : Nat) (nofit : Bool) : State :=
  let s1 := (s.setFlag pgAGE AGE_PROP.VALID true).setF pgAGE AGE_PROP.ACTION action
  let s2 := ((s1.setFlag pgAGE AGE_PROP.NOFIT nofit).setF pgAGE AGE_PROP.PORT port).setF pgAGE AGE_PROP.LANES lanes
  s2.modAge fun a => { a with propL0 := (s.port port).l0s }

/-- In ADVISE mode an action is proposed, unless a proposal is held (R584). -/
def advise (s : State) (action port lanes : Nat) (nofit : Bool) : State :=
  if s.flag pgAGE AGE_PROP.VALID then s else (s.propose action port lanes nofit).fire pgAGE 0

/-- Supply warnings of the last 24 hours (R586). -/
def warns24 (s : State) : List Nat := s.age.warns.filter fun t => decide (s.fabric < t + 24 * hourNs)

/-- Step 1 of a pass: the supply rule (R585, R586). -/
def supplyRule (s : State) : State :=
  let third := s.age.third
  let low := decide (s.coreSlack < s.getF pgAGE AGE_SLACK_THR.SLACK_LO)
  let below := decide (s.avsTarget < s.getF pgAGE AGE_AVS.CEIL)
  let crit := decide (s.coreSlack < s.getF pgAGE AGE_SLACK_THR.SLACK_CRIT) && s.avsTarget == s.getF pgAGE AGE_AVS.CEIL
  let s1 := s.onlyIf third fun t => t.modAge fun a => { a with warns := [], third := false }
  let s2 := s1.onlyIf ((low || third) && below) fun t =>
    if t.ageMode = 1 then t.advise 3 0 0 false
    else if t.flag pgPWR PWR_SUPPLY.WARN then t.modAge fun a => { a with raise := true } else t.avsRaise
  s2.onlyIf crit fun t => (t.fire pgAGE 3).ageLog 6 0x3F 0xFF 0 0 0

/-! ## Scans (R577 to R579) -/

/-- Lanes of a port's trained width (as device lanes). -/
def trainedLanes (s : State) (p : Nat) : List Nat := (s.portLanes p).filter s.laneInLink

/-- Rate code of a port's link; a mirror port runs at the rate of its registers. -/
def scanRate (s : State) (p : Nat) : Nat := if 64 ≤ p then 6 else s.getF (pgLNK p) LNK_STS.RATE

/-- A scan of the port may run (R579). -/
def scannable (s : State) (p : Nat) : Bool := if 64 ≤ p then s.lkState p == 3 else s.portEn p && s.inL0 p

/-- Latest margin ratio of a device lane. -/
def laneMr (s : State) (l : Nat) : Nat := bitsOf (storeGet (fun _ => (0 : Dword)) s.age.ldata l) 23 16

/-- The results of a scan enter AGE_LDATA; `after` says that the scan followed a planner re-equalisation. -/
def scanStore (s : State) (p : Nat) (eyes : List LaneEye) (after : Bool) : State :=
  s.each (eyes.filter fun e => (s.trainedLanes p).contains (s.laneOf p e.lane)) fun t e =>
    let v := 0x80000000 + (if after then 0x40000000 else 0) + marginRatio (t.scanRate p) e.eh e.ew * 0x10000 + min 255 e.eh * 256 + min 255 e.ew
    t.modAge fun a => { a with ldata := storeSet (fun _ => (0 : Dword)) a.ldata (t.laneOf p e.lane) (BitVec.ofNat 64 v) }

/-- The last scan of a port is older than SCAN_INT hours, or it has none since reset. -/
def scanOld (s : State) (p : Nat) : Bool :=
  match s.age.scanned.find? fun e => e.1 == p with
  | some (_, t) => decide (t + s.getF pgAGE AGE_CTL.SCAN_INT * hourNs < s.fabric)
  | none => true

/-- Ports that a pass scans (R580): the lowest due one of each Cellar, those of SCAN_NOW, and the mirror ports when due (R579). -/
def passPorts (s : State) : List Nat :=
  let due := if s.flag pgAGE AGE_CTL.SCAN_EN then
      (List.range 4).filterMap fun c => (cellarPorts c).find? fun p => s.scannable p && s.scanOld p
    else []
  let mps := if s.flag pgAGE AGE_CTL.SCAN_EN then [64, 65].filter fun p => s.scannable p && s.scanOld p else []
  ((List.range 64).filter fun p => due.contains p || (s.age.scanNow.contains p && s.scannable p)) ++ mps

/-- What AGE_STS shows of the scans to do. -/
def scanStatus (s : State) : State :=
  match s.age.toScan with
  | [] => (s.setFlag pgAGE AGE_STS.SCAN_BUSY false).setF pgAGE AGE_STS.SCAN_PORT 0
  | p :: _ => (s.setFlag pgAGE AGE_STS.SCAN_BUSY true).setF pgAGE AGE_STS.SCAN_PORT (portTag p)

/-! ## Actions (R580 to R584) -/

/-- Lane numbers of a port as the field LANES shows them. -/
def lanesMask (l : List Nat) : Nat := l.foldl bitSet 0

/-- The weakest of some lanes of a port, by margin ratio. -/
def weakest (s : State) (p : Nat) (ks : List Nat) : Nat :=
  match ks with
  | [] => 0
  | k :: r => r.foldl (fun a b => if s.laneMr (s.laneOf p b) < s.laneMr (s.laneOf p a) then b else a) k

/-- vn and vr of a port once some more of its lanes are retired (R255). -/
def usableWithout (s : State) (p : Nat) (ks : List Nat) : Nat × Nat :=
  let w := s.portWidth p
  let ok := fun k => !s.laneRetired (s.laneOf p k) && !ks.contains k
  let pick := fun (f : Nat → Bool) => (linkWidths.find? f).getD 0
  (pick fun v => decide (v ≤ w) && (List.range v).all ok, pick fun v => decide (v ≤ w) && (List.range v).all fun k => ok (w - v + k))

/-- Flit periods that an action may bring (R583). -/
def predicted (s : State) (a : AgeAct) : List Nat :=
  let rate := s.getF (pgLNK a.port) LNK_STS.RATE
  let (vn, vr) := s.usableWithout a.port (if a.retire then a.lanes else [])
  let rate := if a.retire then rate else rate - 1
  (if vn < vr then [vn, vr] else [vn]).map fun w => fperOf w rate (decide (5 ≤ rate))

/-- For every flit period that the action may bring, the active Vintage or a candidate of its class fits (R583). -/
def actFits (s : State) (a : AgeAct) : Bool :=
  let cls := if a.retire then 0 else 2
  let vs := s.sched.active.toList ++ (s.candidates [cls]).filterMap fun x => s.slotImg x.2
  (s.predicted a).all fun f => vs.any fun v => (s.setFper a.port f).fits v

/-- The pass must put an action off (R580). -/
def mustDefer (s : State) (p : Nat) : Bool :=
  s.sched.arm.isSome || s.getF pgDEVSCH SCH_FB_T.TIME != 0 || (match s.age.acting with
    | some q => q != p && s.inRecovery q
    | none => false)

/-- A port re-equalises at its rate (R581). -/
def planReeq (s : State) (p k : Nat) : State :=
  let s1 := ((s.addF pgAGE AGE_CNT.REEQ).ageLog 2 p (s.laneOf p k) (s.laneMr (s.laneOf p k)) 0 0).retrainSame p
  s1.modAge fun a => { a with acting := some p, reeq := a.reeq ++ [p] }

/-- A retirement or derate is carried out and logged (R582, R589). -/
def planTake (s : State) (a : AgeAct) : State :=
  let k := s.weakest a.port a.lanes
  let l := s.laneOf a.port k
  let mr := s.laneMr l
  let s0 := s.modAge fun x => { x with acting := some a.port }
  if a.retire then
    let before := s.linkWidth a.port
    let s1 := s0.each a.lanes fun t j => t.retireLane (t.laneOf a.port j) true
    (s1.addF pgAGE AGE_CNT.RETIRE).ageLog 3 a.port l mr before (s1.widest a.port)
  else
    let rate := s.getF (pgLNK a.port) LNK_STS.RATE
    ((s0.derate a.port (rate - 1) true).addF pgAGE AGE_CNT.DERATE).ageLog 4 a.port l mr rate (rate - 1)

/-- An action is taken, deferred, or in ADVISE mode proposed (R580, R583, R584); `ask` says that it may be proposed. The port of a deferred one is decided
afresh at the next pass (DEDUCED, log 52). -/
def planAct (s : State) (a : AgeAct) (ask : Bool) : State :=
  let worst := s.laneMr (s.laneOf a.port (s.weakest a.port a.lanes))
  let nofit := s.flag pgAGE AGE_CTL.PLAN_GATE && !s.actFits a
  let code := if a.retire then 1 else 2
  if ask && s.ageMode == 1 then s.advise code a.port (lanesMask a.lanes) nofit
  else
    let gate := nofit && !decide (worst < s.getF pgAGE AGE_EYE_THR.DR_MIN)
    if s.mustDefer a.port || gate then
      let l := s.laneOf a.port (s.weakest a.port a.lanes)
      (((s.propose code a.port (lanesMask a.lanes) gate).modAge fun x => { x with redo := x.redo ++ [a.port] }).fire pgAGE 1).ageLog 5 a.port l worst 0 0
    else s.planTake a

/-- Decision for a scanned port (R581): a re-equalisation, an action for the end of the pass, or AGE_LIMIT. -/
def decidePort (s : State) (p : Nat) : State :=
  let ks := (List.range (s.portWidth p)).filter fun k => s.laneInLink (s.laneOf p k)
  let mr := fun k => s.laneMr (s.laneOf p k)
  let rate := s.getF (pgLNK p) LNK_STS.RATE
  let low := ks.filter fun k => decide (mr k < s.getF pgAGE AGE_EYE_THR.EQ_LO)
  let weak := ks.filter fun k => decide (mr k < s.getF pgAGE AGE_EYE_THR.DR_LO)
  if !low.isEmpty && decide (2 ≤ rate) && !s.age.reeq.contains p then
    (if s.ageMode = 1 then s.advise 0 p (lanesMask low) false else s.planReeq p (s.weakest p low))
  else if weak.isEmpty then s
  else
    let (vn, vr) := s.usableWithout p weak
    let left := if s.isFfl p then decide (4 ≤ max vn vr) else decide (0 < max vn vr)
    if decide (weak.length ≤ s.getF pgAGE AGE_CTL.RET_MAX) && left then s.modAge fun a => { a with acts := a.acts ++ [⟨p, true, weak⟩] }
    else if (s.isFfl p && rate == 6) || (!s.isFfl p && decide (0 < rate)) then s.modAge fun a => { a with acts := a.acts ++ [⟨p, false, weak⟩] }
    else s.fire pgAGE 2 (s.portPart p) p

/-- The action of the lowest-numbered port. -/
def lowestAct : List AgeAct → Option AgeAct
  | [] => none
  | a :: r => match lowestAct r with
    | none => some a
    | some b => if b.port < a.port then some b else some a

/-- A pass ends once nothing is left to scan: its one action is taken; the other ports are decided afresh at the next pass (R580). -/
def passEnd (s : State) : State :=
  if !s.flag pgAGE AGE_STS.PASS_BUSY || !s.age.toScan.isEmpty then s
  else
    let s1 := (s.setFlag pgAGE AGE_STS.PASS_BUSY false).modAge fun a => { a with acts := [], reeq := [] }
    match lowestAct s.age.acts with
    | none => s1
    | some a =>
      let rest := (s.age.acts.filter fun b => b.port != a.port).map (·.port)
      (s1.modAge fun x => { x with redo := x.redo ++ rest }).planAct a true

/-- A port that the last pass left is decided afresh, from its latest margins (R580, R581), unless this pass scans it. -/
def redecide (s : State) (p : Nat) : State :=
  if s.age.toScan.contains p || !s.scannable p then s
  else
    let t := s.decidePort p
    if t.age.reeq.contains p then t.modAge fun a => { a with toScan := a.toScan ++ [p] } else t

/-- A pass begins (R580). -/
def passStart (s : State) : State :=
  let s1 := (s.setFlag pgAGE AGE_STS.PASS_BUSY true).modAge fun a =>
    { a with passAt := s.fabric, acts := [], reeq := [], toScan := s.passPorts, scanNow := [],
             slack := (List.range 8).map fun m => (m, s.getF pgAGE AGE_MON.SLACK m), redo := [] }
  let s2 := s1.onlyIf (s.ageMode == 2) fun t => t.setFlag pgAGE AGE_PROP.VALID false
  ((s2.supplyRule.each s.age.redo redecide).scanStatus).passEnd

/-- The scan of a port ends: with its results, or abandoned and tried again at the next pass (R579). -/
def scanDone (s : State) (p : Nat) (eyes : Option (List LaneEye)) : State :=
  let again := s.age.reeq.contains p
  let s1 := s.modAge fun a => { a with toScan := a.toScan.erase p }
  let retry := s1.modAge fun a => { a with scanNow := if a.scanNow.contains p then a.scanNow else p :: a.scanNow }
  let s2 := match eyes with
    | none => retry
    | some l =>
      if !s.scannable p then retry
      else
        let t := (s1.scanStore p l again).modAge fun a => { a with scanned := storeInsert a.scanned p s.fabric }
        if p < 64 ∧ s.flag pgAGE AGE_STS.PASS_BUSY = true then
          let u := t.decidePort p
          if u.age.reeq.contains p && !again then u.modAge fun a => { a with toScan := a.toScan ++ [p] } else u
        else t
  (s2.scanStatus).passEnd

/-- APPLY (R584): the proposal is taken at once, unless its port has retrained since. -/
def ageApply (s : State) : State :=
  if !s.flag pgAGE AGE_PROP.VALID then s
  else
    let s1 := s.setFlag pgAGE AGE_PROP.VALID false
    let p := s.getF pgAGE AGE_PROP.PORT
    let act := s.getF pgAGE AGE_PROP.ACTION
    let ks := (List.range 16).filter fun k => bitAt (s.getF pgAGE AGE_PROP.LANES) k
    if act = 3 then
      (if s.flag pgPWR PWR_SUPPLY.WARN then s1.modAge fun a => { a with raise := true } else s1.avsRaise)
    else if (s.port p).l0s ≠ s.age.propL0 ∨ s.scannable p = false then s1
    else if act = 0 then (s1.planReeq p (s.weakest p ks)).modAge fun a => { a with reeq := s.age.reeq }
    else s1.planAct ⟨p, act == 1, ks⟩ false

/-- UNRETIRE (R588). -/
def ageUnretire (s : State) (l : Nat) : State :=
  if 168 ≤ l ∨ bitAt s.age.retired l = false then s
  else
    let port := match s.portOfLane l with
      | some (p, _) => portTag p
      | none => 0x3F
    ((s.modAge fun a => { a with retired := bitClr a.retired l }).ageBlock).ageLog 0xA port l (s.laneMr l) 0 0

/-- Weakest scanned lane of a Cellar. -/
def weakestOf (s : State) (c : Nat) : Option Nat :=
  ((List.range 40).map (40 * c + ·)).foldl (fun acc l =>
    if storeGet (fun _ => (0 : Dword)) s.age.ldata l = 0 then acc
    else match acc with
      | none => some l
      | some m => if s.laneMr l < s.laneMr m then some l else some m) none

/-- AGE_LDATA of the lane that AGE_LIDX names. -/
def ldataNow (s : State) : Dword := storeGet (fun _ => (0 : Dword)) s.age.ldata (s.getF pgAGE AGE_LIDX.LANE)

/-- A read of AGE_LDATA moves AGE_LIDX on (Table 17.11). -/
def ldataStep (s : State) : State :=
  if s.flag pgAGE AGE_LIDX.AUTOINC then s.setF pgAGE AGE_LIDX.LANE ((s.getF pgAGE AGE_LIDX.LANE + 1) % 168) else s

/-- A write of AGE_AVS.TARGET (Table 17.6, R621, R643). -/
def avsWrite (s : State) (mv : Nat) : State :=
  s.sealedWrite pgAGE (mv != s.avsTarget) fun t =>
    if mv < t.avsTarget ∨ t.getF pgAGE AGE_AVS.CEIL < mv then t else t.setTarget mv

/-- Thresholds of R591. -/
def ageBad (s : State) : Bool :=
  decide (s.getF pgAGE AGE_SLACK_THR.SLACK_LO ≤ s.getF pgAGE AGE_SLACK_THR.SLACK_CRIT)
    || decide (s.getF pgAGE AGE_EYE_THR.DR_LO ≤ s.getF pgAGE AGE_EYE_THR.DR_MIN)
    || decide (s.getF pgAGE AGE_EYE_THR.EQ_LO ≤ s.getF pgAGE AGE_EYE_THR.DR_LO)

end State

/-! ## Commands -/

/-- PLANNER_PASS (R580): every PLAN_INT minutes of fabric time in ADVISE or AUTO mode. -/
def execPlannerPass (s : State) : Res :=
  if s.ageMode = 0 || s.flag pgAGE AGE_STS.PASS_BUSY
      || decide (s.fabric < s.age.passAt + s.getF pgAGE AGE_CTL.PLAN_INT * 60000000000) then s.done
  else if s.ageBad then .fault (.undefinedResult 591)
  else s.passStart.done

/-- MARGIN_SCAN_DONE (R577 to R581): the scan of a port ends; without results it was abandoned. -/
def execMarginScanDone (port : Nat) (lanes : Option (List LaneEye)) (s : State) : Res :=
  if s.age.toScan.contains port then (s.scanDone port lanes).done else s.done

/-- AGE_APPLY (R584). -/
def execAgeApply (who : Requester) (s : State) : Res :=
  (s.withAccess who (State.offOf pgAGE AGE_CMD.APPLY) 4 true fun t => t.ageApply).done

/-- AGE_DISCARD (R584). -/
def execAgeDiscard (who : Requester) (s : State) : Res :=
  (s.withAccess who (State.offOf pgAGE AGE_CMD.DISCARD) 4 true fun t => t.setFlag pgAGE AGE_PROP.VALID false).done

/-- SCAN_NOW (R580, R584): at the next pass, or at once in OFF mode. -/
def State.ageScanNow (s : State) (p : Nat) : State :=
  if s.ageMode = 0 then
    (if s.scannable p && !s.age.toScan.contains p then (s.modAge fun a => { a with toScan := a.toScan ++ [p] }).scanStatus else s)
  else s.modAge fun a => { a with scanNow := if a.scanNow.contains p then a.scanNow else p :: a.scanNow }

/-- AGE_SCAN_NOW (R580). -/
def execAgeScanNow (who : Requester) (port : Nat) (s : State) : Res :=
  (s.withAccess who (State.offOf pgAGE AGE_CMD.SCAN_NOW) 4 true fun t => t.ageScanNow (port % 64)).done

/-- AGE_UNRETIRE (R588). -/
def execAgeUnretire (who : Requester) (lane : Nat) (s : State) : Res :=
  (s.withAccess who (State.offOf pgAGE AGE_CMD.UNRETIRE) 4 true fun t => t.ageUnretire lane).done

/-- AGE_STATE_HOURLY (R587): another hour of power-on time. -/
def execAgeStateHourly (ok : Bool) (s : State) : Res :=
  if s.ticks < s.age.hourAt + hourNs then s.done
  else
    let s1 := s.modAge fun a => { a with hours := a.hours + 1, hourAt := s.ticks }
    if ok then s1.ageBlock.done else (s1.fire pgAGE 4).done

/-- AGE_MONTHLY_RECORD (R589): every 720 hours of power-on time. -/
def execAgeMonthlyRecord (ok : Bool) (s : State) : Res :=
  if s.age.hours < s.age.monthAt + 720 then s.done
  else
    let s1 := s.modAge fun a => { a with monthAt := s.age.hours }
    if !ok then (s1.fire pgAGE 4).done
    else (s1.each (List.range 4) fun t c => match t.weakestOf c with
      | some l => t.ageLog 8 c l (t.laneMr l) 0 0
      | none => t.ageLog 8 c 0xFF 0 0 0).done

/-- AVS_TARGET_WRITE (R585, R621, R643): a software write of TARGET. -/
def execAvsTargetWrite (who : Requester) (mv : Nat) (s : State) : Res :=
  (s.withAccess who (State.offOf pgAGE AGE_AVS.TARGET) 4 true fun t => t.avsWrite (mv % 65536)).done

/-- AGE_LDATA_READ (R579): the margin data of the selected lane. -/
def execAgeLdataRead (who : Requester) (s : State) : Res :=
  (s.withAccess who (State.offOf pgAGE AGE_LDATA.VALID) 4 false fun t =>
    (t.emit (.regRead (State.offOf pgAGE AGE_LDATA.VALID) t.ldataNow)).ldataStep).done

end Sys2Proof.Machine
end

