-- ==== Sys2Proof/Machine/Cellars.lean ====
section
/-! DEFINITION. Cellar modes (R26 to R33) and link power states that a partner asks for (R138). -/

namespace Sys2Proof.Machine

/-- Fields of a Cellar's pages that keep their values while it is out of RUN (R29): RWS fields, PAGE_LOCK.LOCK, CEL_LRETIRE and LNK_DERATE.CAP. -/
def retained (k : PageKind) (o : Nat) (f : FieldDef) : Bool :=
  f.acc == .rws || (decide (o = 0x014) && f.hi == 0) || (k == .cel && decide (o = 0x100)) || (k == .lnk && decide (o = 0x098) && decide (f.hi = 2))

/-- Register of a Cellar's page on its return to RUN: retained fields as they were, the others at reset (R29). -/
def retainReg (key : Nat) (v : Dword) : Dword :=
  match pageKind (key / 4096) with
  | none => v
  | some k =>
    match findReg (allRegs k) (key % 4096) with
    | none => regReset key
    | some (r, _) => (r.flds.filter (retained k r.off)).foldl (fun a f => bitsPut a f.hi f.lo (bitsOf v f.hi f.lo)) (regReset key)

/-- Of a register entry of a page that returns to reset values only PAGE_LOCK.LOCK stays (R77). -/
def keepLock (e : Nat × Dword) : Option (Nat × Dword) :=
  if e.1 % 4096 = 0x014 ∧ e.2.toNat % 2 = 1 then some (e.1, bitsPut (regReset e.1) 0 0 1) else none

namespace State

/-- Registers of pages that `f` names return to reset values; LOCK stays (R77). -/
def resetPages (s : State) (f : Nat → Bool) : State :=
  s.pagesChanged { s with regs := s.regs.filterMap fun e => if !f (e.1 / 4096) then some e else keepLock e, heldRegs := s.heldRegs.filter fun e => !f (e.1 / 4096) }

/-- What CEL_LANESTS shows of the configuration and of retirements (R238, R254). -/
def laneStatus (s : State) (c : Nat) : State :=
  s.each (List.range 40) fun t l =>
    let x := t.portOfLane (40 * c + l)
    let t1 := t.setFlag (pgCEL c) CEL_LANESTS.UNUSED x.isNone l
    (t1.setF (pgCEL c) CEL_LANESTS.PORT ((x.map (·.1 % 16)).getD 0x3F) l).setFlag (pgCEL c) CEL_LANESTS.RETIRED (t1.laneRetired (40 * c + l)) l

/-- A transmit stream of a Cellar's transport engine that is open: it holds a packet that is not acknowledged. -/
def openStream (s : State) (c : Nat) : Bool := s.tx.any fun e => e.1 / 64 == c && !e.2.unacked.isEmpty

/-- The Cellar's SRAM holds an allocated cell. -/
def sramHeld (s : State) (c : Nat) : Bool :=
  (s.packets.any fun p => p.place != .egress && p.cell0 == c) || (cellarQueues c).any fun q => decide (0 < s.sramOf q)

/-- A Cellar is empty (R26). -/
def cellarEmpty (s : State) (c : Nat) : Bool :=
  ((cellarPorts c).all fun p => s.portDisabled p) && !s.sramHeld c
    && ((List.range 256).all fun ch => s.getF (pgDMAC c ch) DMA_STS.STATE (ch % 32) == 0)
    && !(s.sched.active.any fun v => givesTo v c)
    && ((List.range 8).all fun i => s.slotState i != 3 || !((s.slotImg i).any fun v => givesTo v c))
    && !s.openStream c

/-- Mode field of a Cellar. -/
def cellarMode (s : State) (c : Nat) : Nat := (s.reg (pgGLB * 4096 + 0x200)).toNat / 4 ^ c % 4

/-- A write of 0 RUN, 1 HOLD or 2 GATE to a Cellar's mode field (R27, R28); one whose Cellar is CHANGING changes nothing (Table 1.5).
Prefetched blocks behind its ports become invalid (R366). -/
def cellarReq (s : State) (c m : Nat) : State :=
  let st := s.cellarState c
  if st = 3 ∨ st = m ∨ 2 < m then s
  else if st = 0 ∧ s.cellarEmpty c = false then
    (s.setCellarMode c 0).setF pgGLB GLB_CEL_STS.REFUSED (bitSet (s.getF pgGLB GLB_CEL_STS.REFUSED) c)
  else ((s.setCellarMode c m).setCellarState c 3).pfDiscard fun b => cellarOf b.port == c

/-- Power domains that GLB_CEL_CTL gates with a Cellar, and spine domains that follow two of them (Table 19.4). -/
def setGated (s : State) (d : Nat) (b : Bool) : State :=
  let v := s.getF pgPWR PWR_STS.GATED (d / 32)
  s.setF pgPWR PWR_STS.GATED (if b then bitSet v (d % 32) else bitClr v (d % 32)) (d / 32)

/-- Domains that follow Cellar modes. -/
def cellarDomains (s : State) : State :=
  let gated := fun c => s.cellarState c == 2
  let s1 := s.each (List.range 4) fun t c => t.each [41, 46, 47, 48, 49] fun u d => u.setGated (d + 9 * c) (gated c)
  (s1.setGated 77 (gated 0 && gated 1)).setGated 78 (gated 2 && gated 3)

/-- Registers and storage of a Cellar as it returns to RUN (R29). -/
def cellarRestore (s : State) (c : Nat) : State :=
  let mine := fun key => key / 4096 / 256 == c + 1
  let s1 : State := s.pagesChanged { s with
    regs := s.regs.filterMap fun e => if mine e.1 then (if retainReg e.1 e.2 = regReset e.1 then none else some (e.1, retainReg e.1 e.2)) else some e,
    heldRegs := s.heldRegs.filter fun e => !mine e.1,
    ports := s.ports.map fun e => if cellarOf e.1 = c then (e.1, { PortSt.init with br := e.2.br }) else e,
    lanes := s.lanes.filter fun e => !(decide (e.1 < 160) && e.1 / 40 == c),
    queues := s.queues.filter fun e => e.1 / 128 != c,
    prioPtr := s.prioPtr.filter fun e => cellarOf (e.1 / 8) != c,
    chans := s.chans.filter fun e => e.1 / 256 != c,
    engs := s.engs.filter fun e => e.1 / 2 != c,
    ffl := s.ffl.filter fun e => decide (64 ≤ e.1) || cellarOf e.1 != c,
    ttu := s.ttu.filter fun e => e.1 / 4096 != c,
    ttuHits := s.ttuHits.filter fun e => e.1 != c,
    walks := s.walks.filter fun w => w.cellar != c,
    pf := s.pf.filter fun b => b.cellar != c,
    trace := s.trace.filter fun r => r.cellar != c }
  let s2 := (s1.laneStatus c).each ((cellarPorts c).filter s1.portEn) fun t p =>
    let t1 := t.setCap p (t.getF (pgLNK p) LNK_DERATE.CAP)
    if t1.widest p ≠ 0 then t1
    else ((t1.modPort p fun x => { x with noLanes := true }).setF (pgLNK p) LNK_STS.STATE 0xB).setFlag (if t1.isFfl p then pgFFL p else pgLNK p)
      (if t1.isFfl p then FFL_STS.LDOWN else LNK_STS.LDOWN) true
  match s2.sched.active with
  | none => s2
  | some v => s2.swapRegs v s2.sched.epoch

/-- A Cellar in CHANGING reaches the mode asked for (R28). -/
def cellarReached (s : State) (c : Nat) : State :=
  if s.cellarState c ≠ 3 then s
  else
    let m := s.cellarMode c
    let s1 := s.setCellarState c m
    let s2 := if m = 0 then s1.cellarRestore c else s1
    s2.cellarDomains

end State

/-! ## Commands -/

/-- CELLAR_HOLD_REQ (R27). -/
def execCellarHoldReq (who : Requester) (c : Nat) (s : State) : Res :=
  if 4 ≤ c then s.done else (s.withAccess who (State.offOf pgGLB GLB_CEL_CTL.C0_MODE) 4 true fun t => t.cellarReq c 1).done

/-- CELLAR_GATE_REQ (R27). -/
def execCellarGateReq (who : Requester) (c : Nat) (s : State) : Res :=
  if 4 ≤ c then s.done else (s.withAccess who (State.offOf pgGLB GLB_CEL_CTL.C0_MODE) 4 true fun t => t.cellarReq c 2).done

/-- CELLAR_RUN_REQ (R28). -/
def execCellarRunReq (who : Requester) (c : Nat) (s : State) : Res :=
  if 4 ≤ c then s.done else (s.withAccess who (State.offOf pgGLB GLB_CEL_CTL.C0_MODE) 4 true fun t => t.cellarReq c 0).done

/-- CELLAR_MODE_REACHED (R28, R29). -/
def execCellarModeReached (c : Nat) (s : State) : Res := if 4 ≤ c then s.done else (s.cellarReached c).done

/-- PARTNER_L0P_L1_REQUEST (R138): the link partner of a PCIe port in L0 asks for L0p (`low`) or ASPM L1; a port whose gate list has a SCHED entry
declines. -/
def execPartnerL0pL1Request (port : Nat) (low : Bool) (s : State) : Res :=
  if !s.portEn port || s.isFfl port || !s.inL0 port then s.done
  else if (s.gatesOf port).any fun g => g.kind == 0 then (s.emit (.declined port)).done
  else ((s.emit (.accepted port)).setF (pgLNK port) LNK_STS.STATE (if low then 4 else 6)).done

end Sys2Proof.Machine
end

