-- ==== Sys2Proof/Machine/Resets.lean ====
section
/-! DEFINITION. Resets and the boot sequence (R624 to R632): what a power-up reset and a device warm reset leave, the steps of Table 19.6, partition hot
reset by software, and resets of the management complex. -/

namespace Sys2Proof.Machine

/-- Trust block across a reset of the device: fuses and what the flash holds stay. -/
def keptTrust (t : TrustSt) : TrustSt :=
  { TrustSt.init with uds := t.uds, qkey := t.qkey, qrevoke := t.qrevoke, svn := t.svn, owner := t.owner, ownerRevoke := t.ownerRevoke, dbg := t.dbg,
                      dbgRevoke := t.dbgRevoke, dbgCtr := t.dbgCtr, place := t.place, bootNo := t.bootNo, certHash := t.certHash, fwA := t.fwA, fwB := t.fwB,
                      tainted := t.tainted, chainOpen := t.chainOpen }

/-- Ageing records across a reset: what the flash holds stays. -/
def keptAge (a : AgeSt) : AgeSt :=
  { AgeSt.init with seq := a.seq, hours := a.hours, hourAt := a.hourAt, monthAt := a.monthAt, retired := a.retired, logPos := a.logPos,
                    tainted := a.tainted }

/-- Registers that a device warm reset leaves alone: Limder's, RST_STS and PWR_SUPPLY of the always-on domain, and the logs of Table 13.9. -/
def warmKept (key : Nat) : Bool :=
  let page := key / 4096
  let o := key % 4096
  (page / 256 == 6 && !(decide (0x040 ≤ o) && decide (o < 0x060))) || (page == pgRST && decide (o = 0x088)) || (page == pgPWR && decide (o = 0x0B0))
    || (page == pgFLT && ((decide (0x088 ≤ o) && decide (o ≤ 0x0A0)) || o == 0x0C0 || o == 0x0CC || (decide (0x180 ≤ o) && decide (o < 0x194))))

/-- A register entry across a device warm reset, which clears PAGE_LOCK.LOCK (R77). -/
def warmReg (e : Nat × Dword) : Option (Nat × Dword) :=
  if !warmKept e.1 then none
  else if e.1 % 4096 = 0x014 then (if bitsPut e.2 0 0 0 = regReset e.1 then none else some (e.1, bitsPut e.2 0 0 0))
  else some e

namespace State

/-- Change the boot record. -/
def modBoot (s : State) (f : BootSt → BootSt) : State := { s with boot := f s.boot }

/-- The boot sequence moves to step `n`. -/
def bootAt (s : State) (n : Nat) : State := s.modBoot fun b => { b with step := n, since := s.ticks }

/-- The device is served: the upstream ports have left the not-ready state (Table 19.6). -/
def ready (s : State) : Bool := s.boot.step == 12

/-! ## Resets of the device -/

/-- A power-up reset begins (R624, R625): `cause` of RST_STS, `kept` that VDD_AON stayed above its reset level. -/
def powerUp (s : State) (cause : Nat) (kept : Bool) : State :=
  let fatal := kept && (s.devFatal || s.boot.fatal)
  let warms := if kept then s.getF pgRST RST_STS.WARMS else 0
  let mgmts := if kept then s.getF pgRST RST_STS.MGMTS else 0
  let s1 : State := { State.reset with
    pending := s.pending, ticks := s.ticks, out := s.out, free := s.free, nextId := s.nextId, flash := s.flash,
    trust := keptTrust s.trust, age := keptAge s.age,
    spc := { SpcSt.init with flashLife := s.spc.flashLife, flashMods := s.spc.flashMods },
    mir := { MirSt.init with hbIn := s.mir.hbIn },
    boot := { step := 0, since := s.ticks, cold := true, warm := none, fatal := fatal } }
  (((s1.setF pgRST RST_STS.CAUSE cause).setFlag pgRST RST_STS.AON_KEPT kept).setF pgRST RST_STS.WARMS warms).setF pgRST RST_STS.MGMTS mgmts

/-- Slots across a device warm reset (Table 15.5): Power Controller Control reads Power On for a slot in WAIT, PRECHARGE, RAMP or ON. -/
def warmSlots (s : State) : Store SlotSt :=
  s.slots.map fun e => (e.1, { e.2 with
    pcc := e.2.pcc || (decide (2 ≤ s.slotSt e.1) && decide (s.slotSt e.1 ≤ 5)), pdc := false, pfd := false })

/-- A device warm reset (R626, R627): everything but the always-on domain, HBM contents, Limder, fabric time and the logs of Table 13.9. -/
def warmReset (s : State) (cause : Nat) : State :=
  let s1 : State := { State.reset with
    regs := s.regs.filterMap warmReg,
    pending := s.pending, ticks := s.ticks, fabric := s.fabric, out := s.out, free := s.free, nextId := s.nextId, flash := s.flash,
    hbm := s.hbm, regions := s.regions,
    flt := { s.flt with last := [], aer := [], late := [], pulseEnd := none },
    trust := keptTrust s.trust, age := keptAge s.age, slots := s.warmSlots, spc := s.spc,
    mir := { MirSt.init with hbIn := s.mir.hbIn, hbEdge := s.mir.hbEdge },
    pwr := { s.pwr with gating := [], waking := [] },
    boot := { step := 1, since := s.ticks, cold := false, warm := none, fatal := s.boot.fatal } }
  let s2 := (s1.setF pgFLT FLT_STATE.PART_FATAL 0).setFlag pgCLK CLK_STS.PLL_LOCK (s.flag pgCLK CLK_STS.PLL_LOCK)
  (s2.setF pgRST RST_STS.CAUSE cause).addF pgRST RST_STS.WARMS

/-- A device warm reset is asked for (R626): ignored in DEVICE_FATAL, merged into a reset in progress, 10 µs after YIELD for an active of a pair
(R498). -/
def warmRequest (s : State) (cause : Nat) : State :=
  if s.devFatal || s.boot.warm.isSome || s.boot.step == 0 then s
  else if s.getF pgMIR MIR_STS.ROLE = 2 then
    let s1 := (s.mirMsg (.yield 2)).yieldDrop
    ({ s1 with mir := { s1.mir with yielded := true } } : State).modBoot fun b => { b with warm := some (s.ticks + 10000, cause) }
  else s.warmReset cause

/-! ## Management complex (R631) -/

/-- A management complex reset begins. -/
def mgmtReset (s : State) : State :=
  if !s.mgmtUp then s else ({ s with mgmtUp := false } : State).addF pgRST RST_STS.MGMTS

/-! ## Boot (Table 19.6) -/

/-- A register value of the configuration goes into the RWS fields (R76, R552). -/
def loadReg (s : State) (k : Nat) (v : Dword) : State :=
  match regAt (k / 4096) (k % 4096) with
  | none => s
  | some (r, i) =>
    let key := k / 4096 * 4096 + r.off + r.stride * i
    { s.setReg key (regAfter (r.flds.filter fun f => f.acc == .rws) false (s.reg key) v) with heldRegs := storeErase s.heldRegs key }

/-- A half of the ageing state block whose magic and CRC hold: its bytes (R587). -/
def ageHalf (s : State) (a : Nat) : Option (List Byte) :=
  let b := s.flashRead a 64
  if leNat (slice b 0 4) = 0x53454741 ∧ leNat (slice b 60 4) = crc32 (b.take 60) then some b else none

/-- The ageing state is restored (R587): TARGET, retired lanes, hours. -/
def ageRestore (s : State) : State :=
  let pick := match s.ageHalf 0x37E0000, s.ageHalf 0x37E8000 with
    | some a, some b => if leNat (slice a 4 4) < leNat (slice b 4 4) then some b else some a
    | some a, none => some a
    | none, some b => some b
    | none, none => none
  let (anyLanes, r1) := s.draw
  let (anyMv, r2) := r1.draw
  let bad := s.age.tainted
  match pick, bad with
  | none, false => (s.modAge fun a => { a with retired := 0, hours := 0, hourAt := s.ticks }).fire pgAGE 4
  | _, _ =>
    let b := pick.getD []
    let s := (if bad then r2 else s).modAge fun a => { a with tainted := false }
    let ret := if bad then anyLanes % 2 ^ 168 else leNat (slice b 0x10 20) + 2 ^ 160 * leNat (slice b 0x24 1)
    let mv := if bad then anyMv % 2 ^ 16 else leNat (slice b 8 2)
    let s1 := s.modAge fun a => { a with seq := leNat (slice b 4 4), retired := ret, hours := leNat (slice b 12 4), hourAt := s.ticks }
    let s2 := ((s1.setF pgAGE AGE_AVS.TARGET mv).setF pgPWR PWR_LEVEL.WARN_MV (mv * 94 / 100)).setF pgPWR PWR_LEVEL.RESET_MV (mv * 90 / 100)
    let s3 := s2.each (List.range 4) fun t c => t.setF (pgCEL c) CEL_LRETIRE.LANES (ret / 2 ^ (40 * c) % 2 ^ 40)
    (s3.setF pgMIR MIR_LRETIRE.LANES (ret / 2 ^ 160)).onlyIf pick.isNone fun t => t.fire pgAGE 4

/-- A slot life record is read at boot (R540, Table 15.6): one whose CRC fails is rebuilt with zero counts. -/
def lifeRead (s : State) (i : Nat) : State :=
  let b := storeGet (fun _ => ([] : List Byte)) s.spc.flashLife i
  if b.length = 64 ∧ leNat (slice b 60 4) = crc32 (b.take 60) then
    let fl := leNat (slice b 2 2)
    let s1 := (s.setF (pgSLOT i) SPC_MATE.COUNT (min 0xFFFF (leNat (slice b 4 4)))).setF (pgSLOT i) SPC_LIFE_STS.FLAGS (fl / 8 % 4)
    let s2 := s1.modSlot i fun x => { x with retired := bitAt fl 2, connT := leNat (slice b 12 8), retireT := leNat (slice b 0x28 8) }
    s2.onlyIf (bitAt fl 2) fun t => t.setF (pgSLOT i) SPC_SSTS.STATE 8
  else (s.lifeWrite i true).fire pgSPC 1

/-- Slot life records and the module table are read after a power-up reset. -/
def lifeRestore (s : State) : State :=
  let s1 : State := { s with spc := { s.spc with mods := s.spc.flashMods } }
  s1.each (List.range 40) fun t i => t.lifeRead i

/-- Further undefined configurations: windows, groups and endpoints that name FFL ports or reach past the shared window, queue room, spill
quota, replay store, instance ranges, slices, channels, staging room, journal. -/
def configRest (s : State) : Option Nat :=
  let ws := s.configWindows.map s.configWindow
  let chs := (List.range 2048).filterMap fun i =>
    let pg := pgVIMI i
    let n := s.getF pg VIM_ICHAN.COUNT (i % 64)
    if n = 0 then none else some (i, s.getF pg VIM_ICHAN.CELLAR (i % 64), s.getF pg VIM_ICHAN.FIRST (i % 64), n)
  if (ws.any fun w => w.kind == 1 && s.isFfl (w.target % 64)) || (s.ept.any fun e => e.2.toNat / 2 ^ 28 == 1 && s.isFfl (e.2.toNat % 64))
      || (List.range 64).any fun g => (List.range 64).any fun p => bitAt (s.getF pgFWD FWD_MCG_MASK.PORTS g) p && s.isFfl p then some 127
  else if ws.any fun w => w.kind == 4 && decide (w.base ≤ w.limit ∧ s.regionSize 1 < w.target % 2 ^ 15 * 2 ^ 20 + (w.limit + 1 - w.base)) then some 128
  else if (List.range 4).any fun c => decide (s.egressPool c < ((cellarQueues c).map s.qMin).sum)
      || (cellarQueues c).any fun q => decide (s.qMax q < s.qMin q) then some 130
  else if s.regionSize 0 < ((List.range 4).map fun c => s.getF pgSPL SPL_QUOTA.UNITS c).sum * 2 ^ 28 then some 131
  else if s.flag pgFWD FWD_CTL.FAB_EN && s.regionSize 4 == 0 then some 310
  else if s.pallocBad then some 419
  else if s.pxlatBad then some 420
  else if chs.any fun x => decide (192 < x.2.2.1 + x.2.2.2) || chs.any fun y => decide (x.1 < y.1 ∧ x.2.1 = y.2.1)
      && overlaps x.2.2.1 x.2.2.2 y.2.2.1 y.2.2.2 then some 421
  else if (List.range 4).any s.stageBad then some 453
  else if s.flag pgMIR MIR_CFG.BOUND && s.regionSize 5 == 0 then some 513
  else none

/-- A configuration whose result the spec leaves undefined: the rule broken (R49 to R53, R127, R128, R130, R131, R270 to R273,
R213, R310, R419 to R421, R453, R513, R575, R607). A region whose base or size is no multiple of 256 MiB, which R42 forbids without naming a
result, is taken as R52's case (DESIGN CHOICE, log 10). -/
def configBad (s : State) : Option Nat :=
  let en := (List.range 64).filter s.portEn
  let l0 := fun p => s.getF (pgLNK p) LNK_CFG.LANE0
  let rs := s.regions.filter fun e => e.2.2 != 0
  if en.any fun p => l0 p % s.portWidth p != 0 || decide (40 < l0 p + s.portWidth p) then some 50
  else if en.any fun p => en.any fun q => decide (p < q) && cellarOf p == cellarOf q && overlaps (l0 p) (s.portWidth p) (l0 q) (s.portWidth q) then some 49
  else if en.any fun p => p % 16 != 0 && (!s.portEn (p - 1) || decide (l0 p ≤ l0 (p - 1))) then some 270
  else if 24 < (en.filter s.isUp).length then some 51
  else if rs.any fun e => decide (0xC00000000 < e.2.1 + e.2.2) || e.2.1 % 0x10000000 != 0 || e.2.2 % 0x10000000 != 0
      || rs.any fun f => decide (e.1 < f.1) && overlaps e.2.1 e.2.2 f.2.1 f.2.2 then some 52
  else if rs.any fun e => decide (slotBase 0 < e.2.1 + e.2.2) then some 213
  else if 0x400000000 < s.regionSize 0 ∨ 0x600000000 < s.regionSize 1 ∨ 0x100000000 < s.regionSize 2 then some 53
  else if en.any fun p => s.isFfl p && (decide (s.portWidth p < 4) || decide (s.getF (pgLNK p) LNK_CFG.MAXRATE < 5)
      || s.flag (pgLNK p) LNK_CFG.CXL_EN) then some 271
  else if en.any fun p => s.flag (pgLNK p) LNK_SLOT.HP_EN && (!s.isDown p || en.any fun q => decide (p < q) && s.flag (pgLNK q) LNK_SLOT.HP_EN
      && s.getF (pgLNK p) LNK_SLOT.SLOT == s.getF (pgLNK q) LNK_SLOT.SLOT) then some 272
  else if en.any fun p => !s.isFfl p && (s.upPort (s.portPart p)).isNone then some 273
  else if (List.range 64).any fun p => s.getP pgTRU TRU_ATTMODE.MODE 2 (p % 16) (p / 16) != 0 && !s.isDown p then some 575
  else if (List.range 4).any fun c => s.flag (pgPMUT c) PMU_RING_CTL.EN && s.regionSize 2 == 0 then some 607
  else s.configRest

/-- Step 6 (R587, R540, R552): the configuration is measured and loaded, and the ageing state and slot life records are read. -/
def bootConfig (s : State) (info : BootInfo) : State :=
  let h := sha384 info.config
  let s1 := (s.bookAdd 3 (leBytes 4 info.config.length ++ leBytes 4 0 ++ leBytes 48 h)).modTrust fun t => { t with cfgHash := h }
  let s2 := s1.each info.loads fun t e => t.loadReg e.1 e.2
  let s3 : State := { s2 with regions := info.regions.foldl (fun m e => storeSet (fun _ => (0, 0)) m e.1 e.2) [] }
  let s4 := s3.ageRestore.onlyIf s.boot.cold fun t => t.lifeRestore
  let s5 := s4.each ((List.range 64).filter s4.portEn) fun t p => t.setF (pgLNK p) LNK_DERATE.CAP (t.getF (pgLNK p) LNK_CFG.MAXRATE)
  let s6 := (s5.each (List.range 4) fun t c => t.laneStatus c).each (List.range 512) fun t q => t.newlyActive q
  let s7 := (s6.each (List.range 64) fun t p => t.resetPolicers p).each ((List.range 64).filter fun p => s6.portEn p && s6.widest p == 0)
    fun t p => t.noLanes p
  s7.onlyIf (s7.flag pgMIR MIR_CFG.BOUND) fun t =>
    let u := t.setRole 1
    { u with mir := { u.mir with seekStart := u.ticks } }

/-- The step of Table 19.6 that runs ends. -/
def bootStep (s : State) (info : BootInfo) : State :=
  let n := s.boot.step
  if n = 1 then s.bootAt 2
  else if n = 2 then (s.setFlag pgCLK CLK_STS.PLL_LOCK true).bootAt 3
  else if n = 3 then
    let s1 := s.bootRom (!s.boot.cold) info
    if !s1.mgmtUp then s1.bootAt 13
    else
      let s2 := s1.onlyIf s1.boot.fatal fun t =>
        ((t.enterDevFatal).setPin true).modBoot fun b => { b with fatal := false }
      s2.bootAt (if s.boot.cold then 4 else 6)
  else if n = 4 then s.bootAt 5
  else if n = 5 then
    let a := s.regionBase 1
    let z := s.regionSize 1
    ({ s with hbm := s.hbm.filter fun e => !(decide (a ≤ e.1) && decide (e.1 < a + z)) } : State).bootAt 6
  else if n = 6 then (s.bootConfig info).bootAt 7
  else if n = 7 then s.bootAt 8
  else if n = 8 then
    (if s.flag pgCLK CLK_STS.LOCKED || (s.getF pgCLK CLK_TSRC.MODE == 0 && s.getF pgMIR MIR_STS.ROLE != 1) then s.bootAt 9
     else if s.boot.since + 200000000 ≤ s.ticks then (s.fire pgCLK 1).bootAt 9 else s)
  else if n = 9 then s.bootAt 10
  else if n = 10 then (((s.setFlag pgGLB GLB_SEAL.SEAL true).bookAdd 0xA []).checkpointDue).bootAt 11
  else if n = 11 then s.bootAt 12
  else s

end State

/-! ## Commands -/

/-- VDD_AON_RISE (R624). -/
def execVddAonRise (s : State) : Res := (s.powerUp 0 false).done

/-- QPOR_N_ASSERT (R624). -/
def execQporNAssert (s : State) : Res := (s.powerUp 1 true).done

/-- PLL_LOCK_TIMEOUT (R624): the root PLL has not locked 100 µs after its release. -/
def execPllLockTimeout (s : State) : Res :=
  if s.boot.step = 2 ∧ s.boot.since + 100000 ≤ s.ticks ∧ s.flag pgCLK CLK_STS.PLL_LOCK = false then (s.powerUp 3 true).done else s.done

/-- POWER_UP_RESET_END (R624): 1 ms after the cause has gone the boot sequence begins. -/
def execPowerUpResetEnd (s : State) : Res :=
  if s.boot.step = 0 ∧ s.boot.since + 1000000 ≤ s.ticks then (s.bootAt 1).done else s.done

/-- QWARM_N_ASSERT (R626): QWARM_N has been asserted for 1 µs. -/
def execQwarmNAssert (s : State) : Res := (s.warmRequest 4).done

/-- RST_CMD_WARM (R626). -/
def execRstCmdWarm (who : Requester) (s : State) : Res :=
  (s.withAccess who (State.offOf pgRST RST_CMD.WARM) 4 true fun t => t.warmRequest 5).done

/-- WARM_RESET_START (R626, R627): 10 µs after YIELD. -/
def execWarmResetStart (s : State) : Res :=
  match s.boot.warm with
  | none => s.done
  | some (t, cause) => if !s.devFatal && decide (t ≤ s.ticks) then (s.warmReset cause).done else s.done

/-- RST_CMD_MGMT (R631). -/
def execRstCmdMgmt (who : Requester) (s : State) : Res :=
  (s.withAccess who (State.offOf pgRST RST_CMD.MGMT) 4 true fun t => t.mgmtReset).done

/-- MGMT_WATCHDOG_EXPIRE (R631). -/
def execMgmtWatchdogExpire (s : State) : Res := s.mgmtReset.done

/-- FIRMWARE_ACTIVATE (R631): a firmware update activates a new copy. -/
def execFirmwareActivate (s : State) : Res := (if s.mgmtUp then s.mgmtReset else s).done

/-- MANAGEMENT_COMPLEX_RELEASE (R552): steps 5 and 6 of Table 16.2 run again. -/
def execManagementComplexRelease (copyA copyB : Option FwCopy) (s : State) : Res :=
  if s.mgmtUp || decide (s.boot.step ≤ 3 ∨ s.boot.step = 13) || s.flag pgTRU TRU_BOOT_STS.BOOT_FAIL then s.done
  else
    let (s1, ok) := s.bootFirmware copyA copyB
    if ok then s1.mgmtRelease.done else s1.done

/-- RST_PART_GO (R628). -/
def execRstPartGo (who : Requester) (part : Nat) (s : State) : Res :=
  (s.withAccess who (State.offOf pgRST RST_PART.GO) 4 true fun t => if part < 24 then t.partHotReset part else t).done

/-- PART_RESET_BUSY_END (R630): the partition is served again; its downstream ports train from Detect. -/
def execPartResetBusyEnd (part : Nat) (s : State) : Res :=
  if part < 24 ∧ s.flag pgRST RST_PSTS.BUSY part = true then
    let s1 := s.setFlag pgRST RST_PSTS.BUSY false part
    (s1.each ((s1.partPorts part).filter fun p => s1.linkState p == 8) fun t p => t.setF (pgLNK p) LNK_STS.STATE 0).done
  else s.done

/-- BOOT_STEP_DONE (R632, Table 19.6): the step that runs ends and the next begins. A configuration with an undefined result stops at its load. -/
def execBootStepDone (info : BootInfo) (s : State) : Res :=
  if s.boot.step = 6 then
    match (s.bootConfig info).configBad with
    | some r => .fault (.undefinedResult r)
    | none => (s.bootStep info).done
  else (s.bootStep info).done

end Sys2Proof.Machine
end

