-- ==== Sys2Proof/Machine/Clocks.lean ====
section
/-! DEFINITION. The root PLL and the discipline of fabric time (R609 to R616). -/

namespace Sys2Proof.Machine

/-- Where fabric time comes from (Table 19.3). -/
inductive TimeSource where
  | none
  | ptm (p : Nat)
  | ffl (p : Nat)
  | mirror
  deriving DecidableEq, Repr

namespace State

/-- The source of fabric time (R614): a bound 9160 in SEEKING or STANDBY follows its partner. -/
def timeSource (s : State) : TimeSource :=
  let role := s.getF pgMIR MIR_STS.ROLE
  let m := s.getF pgCLK CLK_TSRC.MODE
  if role = 1 ∨ role = 3 then .mirror
  else if m = 1 then .ptm (s.getF pgCLK CLK_TSRC.PORT)
  else if m = 2 then .ffl (s.getF pgCLK CLK_TSRC.PORT) else .none

/-- CLK_TSRC names a port that cannot be its source (R634). -/
def sourceBad (s : State) : Bool :=
  match s.timeSource with
  | .ptm p => !s.isUp p
  | .ffl p => !s.isFfl p || !s.flag (pgFFL p) FFL_CFG.TIME_FOLLOW
  | .mirror => false
  | .none => false

/-- Sample interval in ns (Table 19.3). -/
def sampleInterval (s : State) : Nat :=
  match s.timeSource with
  | .ptm _ => 10000 * s.getF pgCLK CLK_TSRC.INT
  | .ffl p => 10000 * s.getF (pgFFL p) FFL_TMR2.TIME_INT
  | .mirror => 10000 * s.getL 64 FFL_TMR2.TIME_INT
  | .none => 0

/-- Some slot of the image store is active or armed (R615). -/
def schedBusy (s : State) : Bool := (List.range 8).any fun i => s.slotState i == 4 || s.slotState i == 5 || s.slotState i == 6

/-- θ of a sample: PTM from the exchange given (PTM Master Time and fabric time at its instant), the others from the last exchange of R281. -/
def sampleTheta (s : State) (ptm : Option (Nat × Nat)) : Option Int :=
  match s.timeSource with
  | .none => none
  | .ptm _ => ptm.map fun x => (x.1 : Int) + toInt64 (s.getF pgCLK CLK_PTM_OFS.OFS) - (x.2 : Int)
  | .ffl _ => s.timeSample
  | .mirror => s.timeSample

/-- The trim of R615, every division rounded towards zero. -/
def trimOf (s : State) (theta acc : Int) : Int :=
  let v := Int.tdiv (s.getF pgCLK CLK_GAIN.KP * theta) 16 + Int.tdiv (s.getF pgCLK CLK_GAIN.KI * acc) 1024
  max (-100000) (min 100000 v)

/-- A valid sample is processed (R135, R615, R616). -/
def timeApply (s : State) (theta : Int) : State :=
  let big := decide (1000 < theta.natAbs)
  let s0 : State := { s with timeSample := none }
  let s1 := ((s0.setF pgCLK CLK_THETA.THETA (ofInt64 theta)).addF pgCLK CLK_CNT.SAMPLES).setFlag pgCLK CLK_STS.HOLDOVER false
  let good := if theta.natAbs ≤ 100 then min 8 (s.clk.good + 1) else 0
  let s2 := if good = 8 then s1.setFlag pgCLK CLK_STS.LOCKED true else if big then s1.setFlag pgCLK CLK_STS.LOCKED false else s1
  if big && !s.schedBusy then
    let s3 : State := { s2 with fabric := ofInt64 ((s.fabric : Int) + theta), clk := { s.clk with acc := 0, good := good, lastAt := s.ticks } }
    ((s3.setF pgCLK CLK_TRIM.TRIM 0).addF pgCLK CLK_CNT.STEPS).fire pgCLK 2
  else
    let acc := s.clk.acc + theta
    let s3 : State := { s2 with clk := { s.clk with acc := acc, good := good, lastAt := s.ticks } }
    (s3.setF pgCLK CLK_TRIM.TRIM (ofInt32 (s.trimOf theta acc))).onlyIf (big && s.sched.active.isSome) fun t =>
      t.each (List.range 4) fun u c => u.fire (pgSCH c) 4

end State

/-! ## Commands -/

/-- PLL_UNLOCK (R612). -/
def execPllUnlock (s : State) : Res :=
  if s.flag pgCLK CLK_STS.PLL_LOCK then ((s.setFlag pgCLK CLK_STS.PLL_LOCK false).fire pgCLK 0).done else s.done

/-- PLL_RELOCK (R612): the derived clocks run again. -/
def execPllRelock (s : State) : Res :=
  if 3 ≤ s.boot.step then (s.setFlag pgCLK CLK_STS.PLL_LOCK true).done else s.done

/-- TIME_SAMPLE (R614 to R616): a sample of the time source. -/
def execTimeSample (ptm : Option (Nat × Nat)) (s : State) : Res :=
  if s.sourceBad then .fault (.undefinedResult 634)
  else match s.sampleTheta ptm with
    | none => s.done
    | some t => (s.timeApply t).done

/-- PTM_INTERVAL (R614): a PTM exchange is made. -/
def execPtmInterval (s : State) : Res :=
  match s.timeSource with
  | .ptm p =>
    if s.sourceBad then .fault (.undefinedResult 634)
    else if decide (s.clk.ptmAt + s.sampleInterval ≤ s.ticks) && s.inL0 p then
      State.done ({ (s.emit (.ptm p)) with clk := { s.clk with ptmAt := s.ticks } } : State)
    else s.done
  | .ffl _ => s.done
  | .mirror => s.done
  | .none => s.done

/-- TSRC_LOST_TIMEOUT (R616): 16 sample intervals without a valid sample. -/
def execTsrcLostTimeout (s : State) : Res :=
  if s.timeSource != .none && !s.flag pgCLK CLK_STS.HOLDOVER && decide (s.clk.lastAt + 16 * s.sampleInterval ≤ s.ticks) then
    let s1 : State := { s with clk := { s.clk with good := 0 } }
    (((s1.setFlag pgCLK CLK_STS.LOCKED false).setFlag pgCLK CLK_STS.HOLDOVER true).fire pgCLK 1).done
  else s.done

end Sys2Proof.Machine
end

