-- ==== Sys2Proof/Machine/Power.lean ====
section
/-! DEFINITION. Power domains (R617 to R620), the supply monitor (R621 to R623), delay monitors and thermal trip (R576, R648). -/

namespace Sys2Proof.Machine

/-- The domain is under software control (Table 19.4). -/
def softDomain (d : Nat) : Bool :=
  decide (d ≤ 40) || (decide (41 ≤ d) && decide (d < 77) && decide (1 ≤ (d - 41) % 9) && decide ((d - 41) % 9 ≤ 4)) || (decide (87 ≤ d) && decide (d ≤ 93))

/-- Nominal voltage of a rail in mV (Table 20.5); VDD_CORE follows TARGET. -/
def railNominal (r : Nat) : Nat :=
  if r = 1 then 800 else if r = 2 then 900 else if r = 3 then 1200 else if r = 4 then 1100 else if r = 5 then 400
  else if r = 6 then 1800 else if r = 7 then 1800 else if r = 8 then 3300 else 0

namespace State

/-- Change the power record. -/
def modPwr (s : State) (f : PwrSt → PwrSt) : State := { s with pwr := f s.pwr }

/-! ## Domains -/

/-- GATE bit of a domain. -/
def gateBit (s : State) (d : Nat) : Bool := bitAt (s.getF pgPWR PWR_GATE.GATE (d / 32)) (d % 32)
/-- Set the GATE bit of a domain. -/
def setGate (s : State) (d : Nat) (b : Bool) : State :=
  let v := s.getF pgPWR PWR_GATE.GATE (d / 32)
  s.setF pgPWR PWR_GATE.GATE (if b then bitSet v (d % 32) else bitClr v (d % 32)) (d / 32)
/-- The domain is gated. -/
def gated (s : State) (d : Nat) : Bool := bitAt (s.getF pgPWR PWR_STS.GATED (d / 32)) (d % 32)

/-- Time that a domain under software control takes to wake, in ns (Table 19.4). -/
def wakeTime (d : Nat) : Nat :=
  if d ≤ 20 then 500000 else if d ≤ 40 then 20000 else if d < 77 then 10000 else if d < 92 then 1000000 else 50000

/-- SRAM quarter Qj of a Cellar may be gated (R619); cells fill the quarters that are not gated from the lowest (log 53). -/
def quarterFree (s : State) (c j : Nat) : Bool :=
  let used := ((cellarQueues c).map s.sramOf).sum
  let ing := 1024 * s.getF (pgBUF c) BUF_POOL.ING_K
  let more := if s.quarterGated c j then 0 else 24576
  decide (j ≠ 0) && decide (ing + used ≤ 24576 * ((List.range j).filter fun i => !s.quarterGated c i).length)
    && decide (((cellarQueues c).map s.qMin).sum + more ≤ s.egressPool c)

/-- The condition of Table 19.4 for gating a domain under software control. -/
def gateAllowed (s : State) (d : Nat) : Bool :=
  if d < 20 then ((List.range 8).map (8 * d + ·)).all fun l => (s.portOfLane l).isNone || s.laneRetired l
  else if d = 20 then !s.flag pgMIR MIR_CFG.BOUND
  else if d ≤ 40 then (List.range 64).all fun p => !s.portEn p || s.laneOf p 0 / 8 != d - 21
  else if d < 77 then s.quarterFree ((d - 41) / 9) ((d - 42) % 9)
  else if d = 92 then (List.range 4).all fun c => !s.flag (pgPMUT c) PMU_RING_CTL.EN
  else if d = 93 then !s.flag pgSPL SPL_CTL.EN
  else ((List.range 8).map (8 * (d - 87) + ·)).all fun i => !s.flag (pgSLOT i) SPC_SCFG.EN

/-- A request to gate a domain (R618). -/
def gateReq (s : State) (d : Nat) : State :=
  if !softDomain d || s.gateBit d then s
  else if s.gateAllowed d then (s.setGate d true).modPwr fun p => { p with gating := d :: p.gating.erase d, waking := storeErase p.waking d }
  else
    let v := s.getF pgPWR PWR_REFUSED.REFUSED (d / 32)
    (s.setF pgPWR PWR_REFUSED.REFUSED (bitSet v (d % 32)) (d / 32)).fire pgPWR 1

/-- A request to wake a domain (R618). -/
def wakeReq (s : State) (d : Nat) : State :=
  if !softDomain d || !s.gateBit d then s
  else
    let g := s.gated d
    (s.setGate d false).modPwr fun p => { p with gating := p.gating.erase d, waking := if g then storeInsert p.waking d s.ticks else p.waking }

/-- Registers and storage of a woken domain are at reset values (R618). -/
def domainReset (s : State) (d : Nat) : State :=
  if d < 20 then { s with lanes := s.lanes.filter fun e => decide (e.1 / 8 ≠ d ∨ 160 ≤ e.1) }
  else if d = 20 then { s with lanes := s.lanes.filter fun e => decide (e.1 < 160) }
  else if d ≤ 40 then
    let ps := (List.range 64).filter fun p => cellarOf p == (d - 21) / 5 && s.laneOf p 0 / 8 == d - 21
    s.resetPages fun g => ps.any fun p => g == pgFFL p
  else if d < 77 then s
  else if d = 92 then
    ({ s with trace := [] } : State).resetPages fun g => (List.range 4).any fun c => g == pgPMUT c
  else if d = 93 then s.resetPages fun g => g == pgSPL
  else s.resetPages fun g => decide (pgSLOT (8 * (d - 87)) ≤ g) && decide (g < pgSLOT (8 * (d - 87) + 8))

/-! ## Supply monitor -/

/-- Target or nominal of a rail, in mV. -/
def railBase (s : State) (r : Nat) : Nat := if r = 0 then s.avsTarget else railNominal r

/-- Warning and reset level of a rail (R621). -/
def railWarn (s : State) (r : Nat) : Nat := s.railBase r * 94 / 100
def railReset (s : State) (r : Nat) : Nat := s.railBase r * 90 / 100

/-- Consecutive samples of a rail below its two levels after one at `v`. -/
def railCounts (s : State) (r v : Nat) : Nat × Nat :=
  let (a, b) := storeGet (fun _ => (0, 0)) s.pwr.below r
  (if v < s.railWarn r then a + 1 else 0, if v < s.railReset r then b + 1 else 0)

/-- A warning of a rail begins (R586, R622). -/
def warnBegin (s : State) (r core : Nat) : State :=
  let s1 := (s.modPwr fun p => { p with warning := storeInsert p.warning r none }).setFlag pgPWR PWR_SUPPLY.WARN true
  let s2 := ((s1.setF pgPWR PWR_SUPPLY.MIN_MV core).addF pgPWR PWR_SUPPLY.WARNS).fire pgPWR 0
  let l := s.warns24 ++ [s.fabric]
  (s2.modAge fun a => { a with warns := l, third := a.third || decide (3 ≤ l.length) }).ageLog 7 0x3F 0xFF 0 0 0

/-- One rail's sample: counts, start of a warning, and how long a rail in warning has stayed above its level plus 1 %. -/
def railSample (s : State) (core : Nat) (x : Nat × Nat) : State :=
  let (r, v) := x
  let (a, b) := s.railCounts r v
  let s1 := s.modPwr fun p => { p with below := storeSet (fun _ => (0, 0)) p.below r (a, b) }
  match s1.pwr.warning.find? fun e => e.1 == r with
  | some (_, t) =>
    let up := decide (100 * s.railWarn r + s.railBase r ≤ 100 * v)
    s1.modPwr fun p => { p with warning := storeInsert p.warning r (if up then some (t.getD s.ticks) else none) }
  | none => if 2 ≤ a then s1.warnBegin r core else s1

/-- A sample of every rail (R621 to R623): the reset comes before any warning. -/
def supplySample (s : State) (core : Nat) (rails : List (Nat × Nat)) : State :=
  let xs := (0, core) :: rails.filter fun x => decide (1 ≤ x.1) && decide (x.1 ≤ 8)
  match xs.find? fun x => decide (2 ≤ (s.railCounts x.1 x.2).2) with
  | some _ => s.powerUp 2 (xs.all fun x => x.1 != 1 || decide ((s.railCounts x.1 x.2).2 < 2))
  | none =>
    let s1 := (s.modPwr fun p => { p with sampleAt := some s.ticks }).each xs fun t x => t.railSample core x
    s1.onlyIf (s1.flag pgPWR PWR_SUPPLY.WARN) fun t => t.setF pgPWR PWR_SUPPLY.MIN_MV (min (t.getF pgPWR PWR_SUPPLY.MIN_MV) core)

/-- Rails that have stayed above their level plus 1 % for 10 µs leave the warning; with the last of them it ends, and a raise that waited is made
(R585, R622). -/
def supplyOver (s : State) : State :=
  let left := s.pwr.warning.filter fun e => match e.2 with
    | some t => decide (s.ticks < t + 10000)
    | none => true
  let s1 := s.modPwr fun p => { p with warning := left }
  if !left.isEmpty || !s.flag pgPWR PWR_SUPPLY.WARN then s1
  else
    let s2 := s1.setFlag pgPWR PWR_SUPPLY.WARN false
    if s.age.raise then (s2.modAge fun a => { a with raise := false }).avsRaise else s2

/-! ## Monitors -/

/-- Readings of the delay monitors (R576), and the thermal trip (R648). -/
def monSample (s : State) (mons : List (Nat × Nat)) : State :=
  let s1 := s.each ((List.range 8).zip mons) fun t (x : Nat × Nat × Nat) =>
    let u := (t.setF pgAGE AGE_MON.SLACK x.2.1 x.1).setF pgAGE AGE_MON.TEMP x.2.2 x.1
    u.onlyIf (u.flag pgAGE AGE_STS.PASS_BUSY) fun w =>
      w.modAge fun a => { a with slack := storeInsert a.slack x.1 (min (w.monSlack x.1) x.2.1) }
  let s2 := s1.onlyIf (mons.any fun x => decide (110 ≤ x.2)) fun t => t.fire pgPWR 2
  if (mons.any fun x => decide (120 ≤ x.2)) && !s.pwr.thermtrip then
    let s3 := s2.modPwr fun p => { p with thermtrip := true }
    let s4 := if s3.devFatal then s3 else ((s3.enterDevFatal).raiseInt pgFLT 32).setPin true
    s4.each ((List.range 96).filter softDomain) fun t d => if t.gateAllowed d then t.gateReq d else t
  else s2

end State

/-! ## Commands -/

/-- POWER_GATE_REQ (R618): a write of 1 to a PWR_GATE bit. -/
def execPowerGateReq (who : Requester) (d : Nat) (s : State) : Res :=
  if 96 ≤ d then s.done else (s.withAccess who (State.offOf pgPWR PWR_GATE.GATE (d / 32)) 4 true fun t => t.gateReq d).done

/-- POWER_WAKE_REQ (R618): a write of 0 to a PWR_GATE bit. -/
def execPowerWakeReq (who : Requester) (d : Nat) (s : State) : Res :=
  if 96 ≤ d then s.done else (s.withAccess who (State.offOf pgPWR PWR_GATE.GATE (d / 32)) 4 true fun t => t.wakeReq d).done

/-- POWER_DOMAIN_GATED (R618). -/
def execPowerDomainGated (d : Nat) (s : State) : Res :=
  if s.pwr.gating.contains d then ((s.modPwr fun p => { p with gating := p.gating.erase d }).setGated d true).done else s.done

/-- POWER_DOMAIN_WOKEN (R618): after its wake time. -/
def execPowerDomainWoken (d : Nat) (s : State) : Res :=
  match s.pwr.waking.find? (·.1 == d) with
  | none => s.done
  | some (_, t) =>
    if t + State.wakeTime d ≤ s.ticks then (((s.modPwr fun p => { p with waking := storeErase p.waking d }).setGated d false).domainReset d).done
    else s.done

/-- SUPPLY_SAMPLE (R621 to R623): every 100 ns; VDD_CORE and the other rails, in mV. -/
def execSupplySample (core : Nat) (rails : List (Nat × Nat)) (s : State) : Res :=
  let soon := match s.pwr.sampleAt with
    | some t => decide (s.ticks < t + 100)
    | none => false
  if soon then s.done else (s.supplySample core rails).done

/-- SUPPLY_WARN_END (R622). -/
def execSupplyWarnEnd (s : State) : Res := s.supplyOver.done

/-- MONITOR_SAMPLE (R576, R648): slack in ps and temperature in °C of monitors 0 to 7. -/
def execMonitorSample (mons : List (Nat × Nat)) (s : State) : Res := (s.monSample mons).done

end Sys2Proof.Machine
end

