-- ==== Sys2Proof/Machine/View.lean ====
section
/-! DEFINITION. What a read of each register returns: fields that the tables define as current values are computed from the state, all
others are as stored. -/

namespace Sys2Proof.Machine

/-- A fault log entry as its 16 B (Table 13.4). -/
def logBytes (e : LogEntry) : List Byte :=
  let b := fun (x : Bool) (n : Nat) => if x then 2 ^ n else 0
  leBytes 8 e.time ++ leBytes 2 e.src ++ leBytes 1 (16 * (e.prog % 8) + e.eff % 8)
    ++ leBytes 1 (b e.first 7 + b e.same 6 + b e.real 5 + b e.forced 4 + b e.esc 3) ++ leBytes 1 (e.part % 32)
    ++ leBytes 1 (e.port % 64) ++ leBytes 1 e.rep ++ leBytes 1 e.seq

/-- A Lees Log record as its 64 B (Table 13.7). -/
def leesBytes (r : LeesRec) : List Byte :=
  let b := fun (x : Bool) (n : Nat) => if x then 2 ^ n else 0
  leBytes 8 r.time ++ leBytes 8 r.addr ++ leBytes 4 r.wseq ++ leBytes 4 r.count ++ leBytes 2 r.rid ++ leBytes 1 (r.port % 64)
    ++ leBytes 1 (r.part % 32)
    ++ leBytes 4 (match r.pasid with
      | some x => 2 ^ 31 + x % 2 ^ 20
      | none => 0)
    ++ leBytes 2 (match r.vi with
      | some x => 2 ^ 15 + x % 2 ^ 11
      | none => 0)
    ++ leBytes 1 (r.gen % 64) ++ leBytes 1 r.reason ++ leBytes 1 (r.chan.getD 0) ++ leBytes 1 (r.cellar % 4)
    ++ leBytes 1 (r.fdid.getD 0xFF) ++ leBytes 1 (b r.chan.isSome 7 + b r.summary 6 + b r.nofence 5) ++ leBytes 4 r.length
    ++ leBytes 2 r.src ++ leBytes 2 0 ++ leBytes 4 r.rseq ++ leBytes 12 0

/-- Word `j` of a record. -/
def wordOf (l : List Byte) (j : Nat) : Nat := leNat ((l.drop (4 * j)).take 4)

/-- A register value with a field of another register layout set. -/
def withF (v : Dword) (f : FRef) (x : Nat) : Dword := bitsPut v f.hi f.lo x

namespace State

/-! ## Parts of the views -/

/-- The position lies from RD up to, but not including, WR (R481). -/
def inRing (rd wr n i : Nat) : Bool := decide ((i + n - rd) % n < (wr + n - rd) % n)

/-- Word `j` of the selected fault log entry (R481). -/
def logWord (s : State) (j : Nat) : Nat :=
  let i := s.getF pgFLT FLT_FL_IDX.ENTRY
  if inRing (s.getF pgFLT FLT_FL_PTR.RD) (s.getF pgFLT FLT_FL_PTR.WR) 1024 i then
    (match s.flt.log.find? (·.1 == i) with
     | some (_, e) => wordOf (logBytes e) j
     | none => 0)
  else 0

/-- Word `j` of the selected Lees Log record (R481). -/
def leesWord (s : State) (j : Nat) : Nat :=
  let i := s.getF pgFLT FLT_LL_IDX.RECORD
  if inRing (s.getF pgFLT FLT_LL_PTR.RD) (s.getF pgFLT FLT_LL_PTR.WR) 4096 i then
    (match s.flt.lees.find? (·.1 == i) with
     | some (_, r) => wordOf (leesBytes r) j
     | none => 0)
  else 0

/-- GLB_PEND_SUM word `n` (Table 2.6). -/
def pendSum (s : State) (n : Nat) : Nat :=
  (List.range 32).foldl (fun a b =>
    if s.intPend (32 * n + b) || s.fltPend (32 * n + b) then bitSet a b else a) 0

/-- The stream that FTX_SIDX of Cellar `c` selects (R306): SDATA0 to SDATA2. -/
def ftxView (s : State) (c : Nat) : Nat × Nat × Nat :=
  let cls := s.getF (pgFTX c) FTX_SIDX.FCLASS
  let fd := s.getF (pgFTX c) FTX_SIDX.FDID
  let b := fun (x : Bool) => if x then 2 ^ 31 else 0
  if cls = 3 then (0, 0, 0)
  else if s.flag (pgFTX c) FTX_SIDX.DIR then
    let r := s.rx? (rxKey fd c cls)
    (r.exp, s.ackdOf (rxKey fd c cls),
      b (!r.synced) + ((s.rxWaiting (rxKey fd c cls)).filter fun p => p.fab.any fun h => !s.pbarMet h).length % 2 ^ 24)
  else
    let t := s.tx? (txKey c fd cls)
    let old := match t.unacked with
      | x :: _ => x.tseq
      | [] => t.next
    (t.next, old, b t.sync + 2 ^ 24 * (t.timeouts % 16) + t.unacked.length % 2 ^ 24)

/-- A packet of a Cellar waits for room in the replay store (R297). -/
def ftxFull (s : State) (c : Nat) : Bool :=
  s.packets.any fun p => p.place == .ingress && p.cell0 == c && s.toNumber p && !s.storeRoom c p

/-- NS, U − 1 and ER, HELD of a link layer (Tables 8.17, 8.18): the low word and the high word. -/
def seqView (s : State) (p : Nat) : Nat × Nat :=
  let x := s.fflSt p
  (x.ns % 4096 * 2 ^ 20 + (x.unack + 4095) % 4096 * 2 ^ 8, x.er % 4096 * 2 ^ 20 + x.hold.length % 1024 * 2 ^ 10)

/-- VIM_ICTL of an instance as read (Table 11.6). -/
def ictlView (s : State) (i : Nat) (v : Dword) : Dword :=
  let x := s.inst i
  let v1 := withF (withF v VIM_ICTL.STATE x.stt) VIM_ICTL.DRAINED (!s.carriesOld i).toNat
  withF (withF v1 VIM_ICTL.GEN x.gen) VIM_ICTL.PART (s.partOfInst i)

/-- Staging room that a Cellar's channels use, in units of 4 KiB rounded up (Table 12.5). -/
def stagedView (s : State) (c : Nat) : Nat :=
  ceilDiv (((s.chans.filter fun e => e.1 / 256 == c).map fun e => s.stagingUsed e.1).sum) 4096

/-- SCH registers at 0x800 to 0x86F are one device-wide set, and the snapshot registers of block 0x60 from 0x800 (R184, R597): the
page index under which an access finds its register. -/
def homePage (page o : Nat) : Nat :=
  match pageKind page with
  | some .sch => if 0x800 ≤ o then pgDEVSCH else page
  | some .pmuc => if 0x800 ≤ o then pgDEVPMU else page
  | some _ => page
  | none => page

/-- Register at page offset `o` of hierarchy window `w` as read (R89, R90): PART reads 0 while no partition owns the port (log 20). -/
def hierView (s : State) (w o : Nat) (v : Dword) : Dword :=
  let x := s.window w
  if o = 0x080 then withF v WIN_BASE.ADDR (x.base / 4096)
  else if o = 0x088 then withF v WIN_LIMIT.ADDR (x.limit / 4096)
  else if o = 0x090 then
    withF (withF (withF v WIN_ROUTE.KIND x.kind) WIN_ROUTE.PART (if x.part < 24 then x.part else 0)) WIN_ROUTE.TARGET x.target
  else 0

/-! ## Views by page type -/

/-- Header registers (R65 to R75). -/
def viewHdr (s : State) (page : Nat) (k : PageKind) (o : Nat) (v : Dword) : Dword :=
  if o = 0x000 then BitVec.ofNat 64 (k.typeCode * 65536 + page)
  else if o = 0x008 then BitVec.ofNat 64 (k.nint * 256 + k.faults.length)
  else if o = 0x010 then
    withF (withF (withF 0 PAGE_STS.PRESENT (s.pagePresent page).toNat) PAGE_STS.FLT_PEND (s.fltPend page).toNat)
      PAGE_STS.INT_PEND (s.intPend page).toNat
  else if o = 0x014 then
    withF (withF v PAGE_LOCK.SECURE (pageSecure page).toNat) PAGE_LOCK.SEALED (s.pageSealed page).toNat
  else v

/-- Global pages. -/
def viewGlobal (s : State) (k : PageKind) (o i : Nat) (v : Dword) : Dword :=
  match k with
  | .glb =>
    if o = 0x204 then withF v GLB_CEL_STS.EMPTY ((List.range 4).foldl (fun a c => if s.cellarEmpty c then bitSet a c else a) 0)
    else if o = 0x400 then BitVec.ofNat 64 (s.pendSum i)
    else v
  | .clk =>
    if o = 0x080 then
      withF (withF v CLK_STS.MIRROR (s.timeSource == .mirror).toNat) CLK_STS.LOCKED
        (if s.timeSource = .none then 1 else (s.flag pgCLK CLK_STS.LOCKED).toNat)
    else if o = 0x08C ∧ s.timeSource = .none then 0
    else v
  | .fwd =>
    if o = 0x0A4 then (storeGet (fun _ => (0 : Word)) s.ept (s.getF pgFWD FWD_EPT_IDX.EP)).zeroExtend 64 else v
  | .flt =>
    if o = 0x0B0 then BitVec.ofNat 64 (s.logWord i) else if o = 0x100 then BitVec.ofNat 64 (s.leesWord i) else v
  | .tru =>
    if o = 0x08C then BitVec.ofNat 64 (min 0x1FFF s.trust.uncovered * 65536 + min 0x1FFF s.trust.held.length) else v
  | .age => if o = 0x144 then s.ldataNow else if o = 0x098 then withF v AGE_STS.WARN24 (min 255 s.warns24.length) else v
  | .mir =>
    if o = 0x0B0 then withF v MIR_STS.PEER_HB s.peerHb.toNat
    else if o = 0x0BC then
      BitVec.ofNat 64 (min 1024 (ceilDiv ((s.mir.txq.map mirBytes).sum) 4096) * 65536 + min 8192 s.mir.streams.length)
    else if o = 0x418 then BitVec.ofNat 64 (s.seqView (64 + i)).1
    else if o = 0x41C then BitVec.ofNat 64 (s.seqView (64 + i)).2
    else v
  | .vim =>
    let e := s.getF pgVIM VIM_BIND_IDX.ENTRY
    if o = 0x204 then
      (match s.bindHeld with
       | some (h, x) => if h = e then x.zeroExtend 64 else (s.bindAt e).d0.zeroExtend 64
       | none => (s.bindAt e).d0.zeroExtend 64)
    else if o = 0x208 then (s.bindAt e).d1.zeroExtend 64
    else v
  | .hbmm => if o = 0x200 then BitVec.ofNat 64 (s.resv.length * 65536 + s.swb.length) else v
  | .spc =>
    if o = 0x084 then withF v SPC_BUDGET.USED (s.feedUsed i)
    else if o = 0x098 then withF (withF v SPC_STS.SUPPLY_HOLD s.supplyHold.toNat) SPC_STS.FATAL_HOLD s.devFatal.toNat
    else v
  | .rst | .pwr | .spn | .spl | .acc | .win | .vimi | .cel | .buf | .sch | .qsh | .lnk | .ffl | .ftx | .dma | .dmac | .ttu | .pmuc
  | .pmut | .pmua | .hbmc | .spcs | .mgt | .mgtm | .ic => v

/-- The port trains from Detect: which of DETECT, POLLING, CONFIG and LOOPBACK it stands in belongs to the physical layer, below the commands, so a read
of STATE shows a free one of them (R246, log 61). -/
def inDetect (s : State) (p : Nat) : Bool := s.inTraining p && s.linkState p == 0

/-- Pages of the Cellars, of instances and of slots. -/
def viewBlock (s : State) (page : Nat) (k : PageKind) (o i : Nat) (v : Dword) : Dword :=
  let c := page / 256 - 1
  let b := page % 256
  match k with
  | .win => if 8064 ≤ 128 * (page - 0x40) + i then s.hierView (128 * (page - 0x40) + i) o v else v
  | .vimi => if o = 0x800 then s.ictlView (64 * (b - 0x80) + i) v else v
  | .ic =>
    let n := page - 0x1000
    if o = 0x080 then
      withF (withF (withF 0 IC_ID.GEN (s.inst n).gen) IC_ID.STATE (s.inst n).stt) IC_ID.VI n
    else v
  | .buf =>
    if o = 0x600 then
      withF (withF 0 BUF_QOCC.SPILLING (s.spilling (128 * c + i)).toNat) BUF_QOCC.CELLS (s.sramOf (128 * c + i))
    else v
  | .sch =>
    if o = 0x098 then BitVec.ofNat 64 s.fabric
    else if o = 0x0A0 then (if s.sched.active.isSome then BitVec.ofNat 64 (s.cycPos s.fabric) else 0)
    else v
  | .qsh =>
    let q := 128 * c + 64 * (b - 3) + i
    if o = 0x500 then BitVec.ofNat 64 (min 0xFFFFFF (s.depth q))
    else if o = 0x600 then BitVec.ofNat 64 (max v.toNat (min 0xFFFFFF (s.depth q)))
    else v
  | .lnk =>
    if o = 0x100 ∧ s.portWidth (16 * c + b % 16) ≤ i then 0
    else if o = 0x090 ∧ s.inDetect (16 * c + b % 16) = true then withF v LNK_STS.STATE ([0, 1, 2, 9].getD (Config.free s.free % 4) 0) else v
  | .ffl =>
    let p := 16 * c + b % 16
    if o = 0x098 then BitVec.ofNat 64 (s.seqView p).1 else if o = 0x09C then BitVec.ofNat 64 (s.seqView p).2 else v
  | .ftx =>
    if o = 0x084 then BitVec.ofNat 64 ((if s.ftxFull c then 2 ^ 31 else 0) + ceilDiv (s.storeUsed c) (2 ^ 20))
    else if o = 0x088 then BitVec.ofNat 64 ((s.frt.filter fun e => e.cellar == c).length)
    else if o = 0x094 then BitVec.ofNat 64 (s.ftxView c).1
    else if o = 0x098 then BitVec.ofNat 64 (s.ftxView c).2.1
    else if o = 0x09C then BitVec.ofNat 64 (s.ftxView c).2.2
    else v
  | .dma =>
    if o = 0x080 then
      withF (withF (withF 0 DMA_ENG_STS.RD_BUSY (s.eng (2 * c)).run.isSome.toNat) DMA_ENG_STS.WR_BUSY
        (s.eng (2 * c + 1)).run.isSome.toNat) DMA_ENG_STS.STAGED (min 1024 (s.stagedView c))
    else v
  | .ttu =>
    if o = 0x080 then BitVec.ofNat 64 (((s.ttu.filter fun e => e.1 / 4096 == c).map fun e => e.2.length).sum) else v
  | .glb | .clk | .rst | .pwr | .spn | .fwd | .spl | .acc | .flt | .tru | .age | .mir | .vim | .cel | .dmac | .pmuc
  | .pmut | .pmua | .hbmc | .hbmm | .spc | .spcs | .mgt | .mgtm => v

/-- Value that a read of copy `i` of a register returns. -/
def viewReg (s : State) (page : Nat) (k : PageKind) (r : RegDef) (i : Nat) : Dword :=
  let v := s.heldRead (page * 4096 + r.off + r.stride * i)
  let v1 := if k ≠ .ic ∧ r.off < 0x080 then s.viewHdr page k r.off v else s.viewBlock page k r.off i (s.viewGlobal k r.off i v)
  r.flds.foldl (fun a f => if f.acc = .wo then bitsPut a f.hi f.lo 0 else a) v1

end State
end Sys2Proof.Machine
end

