-- ==== Sys2Proof/Machine/Write.lean ====
section
/-! DEFINITION. What a write of each register does beyond storing its fields (R6, R68 to R77 and the register tables of every chapter). -/

namespace Sys2Proof.Machine
namespace State

/-! ## Undefined writes -/

/-- Channels `first` to `first + count − 1` of a Cellar meet those of another instance, or leave the tenant channels (R421). -/
def ichanBad (s : State) (inst c first count : Nat) : Bool :=
  decide (192 < first + count) || s.regs.any fun e =>
    let pg := e.1 / 4096
    let o := e.1 % 4096
    let j := 64 * (pg - 0x80) + (o - 0x810) / 32
    decide (0x80 ≤ pg ∧ pg ≤ 0x9F ∧ 0x810 ≤ o ∧ (o - 0x810) % 32 = 0) && j != inst && bitsOf e.2 31 30 == c && decide (0 < count ∧ 0 < bitsOf e.2 4 0)
      && overlaps first count (bitsOf e.2 23 16) (bitsOf e.2 4 0)

/-- The rule that leaves the result of a register write undefined (R132, R170, R354, R419, R420, R421, R453, R454, R545). Three undefined writes are not judged
here and go on by the plain access rules (DESIGN CHOICE, log 11): of a field that may change only while its block is disabled (R81), of BUF_POOL or
BUF_QLIM in a Cellar without an enabled port so that MIN exceeds MAX or the pool (R130), and of SPL_QUOTA with SPL_CTL.EN 0 so that the sum exceeds
the spill region (R131). -/
def writeUndefined (s : State) (page : Nat) (k : PageKind) (r : RegDef) (i : Nat) (v : Dword) : Option Nat :=
  let key := page * 4096 + r.off + r.stride * i
  let new := regAfter r.flds (s.pageSealed page) (s.reg key) v
  let c := page / 256 - 1
  let b := page % 256
  if k = .win ∧ r.off = 0x090 then s.winUndefined (128 * (page - 0x40) + i)
  else if new = s.reg key then none
  else match k with
    | .buf => if 0x080 ≤ r.off ∧ (cellarPorts c).any (fun p => !s.portDisabled p) = true then some 132 else none
    | .spl => if r.off = 0x090 ∧ s.flag pgSPL SPL_CTL.EN = true then some 132 else none
    | .sch =>
      if r.off = 0x100 ∧ s.sched.active.isSome ∧ (s.gatesOf (16 * c + i)).any (fun g => g.kind == 0) = true then some 170 else none
    | .vimi =>
      let n := 64 * (b - 0x80) + i
      if r.off = 0x810 ∧ ((s.instChans n).any (fun ch => s.chState ch != 0)
          || s.ichanBad n (bitsOf new 31 30) (bitsOf new 23 16) (bitsOf new 4 0)) = true then some 421 else none
    | .dma =>
      if r.off ≠ 0x400 then none
      else if s.chState (256 * c + i) ≠ 0 then some 454
      else if (s.setReg key new).stageBad c then some 453 else none
    | .vim =>
      if r.off = 0x100 ∧ (s.setReg key new).pallocBad = true then some 419
      else if r.off = 0x180 ∧ (s.setReg key new).pxlatBad = true then some 420 else none
    | .spcs =>
      let st := s.slotSt (b - 0x10)
      if 0x080 ≤ r.off ∧ r.off < 0x090 ∧ st ≠ 0 ∧ st ≠ 1 ∧ st ≠ 8 then some 545 else none
    | .glb | .clk | .rst | .pwr | .spn | .fwd | .acc | .flt | .tru | .age | .mir | .win | .cel | .qsh | .lnk | .ffl | .ftx
    | .dmac | .ttu | .pmuc | .pmut | .pmua | .hbmc | .hbmm | .spc | .mgt | .mgtm | .ic => none

/-! ## Header -/

/-- PAGE_LOCK.LOCK is set (R75). -/
def lockPage (s : State) (page : Nat) : State := s.setFlag page PAGE_LOCK.LOCK true

/-- GLB_SEAL.SEAL is set: every page is sealed, and the Cellar Book takes a SEAL record and a checkpoint (R75, R554, R556). -/
def sealAll (s : State) : State :=
  if s.flag pgGLB GLB_SEAL.SEAL then s else ((s.setFlag pgGLB GLB_SEAL.SEAL true).bookAdd 0xA []).checkpointDue

/-- A write of a header register. -/
def writeHdr (s : State) (page : Nat) (r : RegDef) (i : Nat) (v : Dword) : State :=
  let plain := s.plainWrite (page * 4096 + r.off + r.stride * i) r.flds v
  let w := v.toNat % 2 ^ 32
  if r.off = 0x014 then s.onlyIf (w.testBit 0) fun t => t.lockPage page
  else if r.off = 0x020 ∨ r.off = 0x024 then
    s.withIntPend page fun t => t.plainWrite (page * 4096 + r.off) r.flds v
  else if r.off = 0x028 then s.forceInts page w
  else if r.off = 0x048 then s.forceFaults page w
  else if r.off = 0x04C then s.ackFaults page w
  else plain

/-! ## Global pages -/

/-- Modes of GLB_CEL_CTL, Cellar by Cellar (Table 1.5). -/
def writeModes (s : State) (w : Nat) : State :=
  s.each (List.range 4) fun t c =>
    let m := w / 4 ^ c % 4
    if m = t.cellarMode c then t else t.cellarReq c m

/-- Bits of a PWR_GATE register (R618). -/
def writeGate (s : State) (n w : Nat) : State :=
  s.each (List.range 32) fun t j =>
    let d := 32 * n + j
    if w.testBit j = t.gateBit d then t else if w.testBit j then t.gateReq d else t.wakeReq d

/-- Commands of AGE_CMD (R584). -/
def writeAgeCmd (s : State) (w : Nat) : State :=
  let s1 := s.onlyIf (w.testBit 31) fun t => t.ageApply
  let s2 := s1.onlyIf (w.testBit 30) fun t => t.setFlag pgAGE AGE_PROP.VALID false
  let s3 := s2.onlyIf (w.testBit 29) fun t => t.ageScanNow (w % 64)
  s3.onlyIf (w.testBit 28) fun t => t.ageUnretire (w / 2 ^ 20 % 256)

/-- A request of FFL_CTL (R291): a width that the port may have, while no request of its own waits. -/
def writeLinkReq (s : State) (port w : Nat) : State :=
  let width := w % 32
  let ok := if port < 64 then [4, 8, 16].contains width else [1, 2, 4].contains width
  if w.testBit 31 && s.linkActive port && ok && (s.fflSt port).req.isNone then s.fflRequest port width 0 else s

/-- Commands of MIR_CMD (Table 14.13). -/
def writeMirCmd (s : State) (code : Nat) : State :=
  if code = 1 then s.switchover else if code = 2 then s.take else if code = 3 then s.takeForce
  else if code = 4 then s.resyncCmd else s.mirRes 4

/-- A write that would set an enable whose power domain is gated is dropped (R620). -/
def gatedEnable (s : State) (page dom : Nat) (set : Bool) (f : State → State) : State :=
  if set && s.gated dom then s.pageAccess page else f s

/-- A write of a register of a global page. -/
def writeGlobal (s : State) (who : Requester) (page : Nat) (k : PageKind) (r : RegDef) (i : Nat) (v : Dword) : State :=
  let key := page * 4096 + r.off + r.stride * i
  let plain := s.plainWrite key r.flds v
  let w := v.toNat % 2 ^ 32
  let o := r.off
  match k with
  | .glb =>
    if o = 0x200 then s.writeModes w
    else if o = 0x0C0 then s.onlyIf (w.testBit 0) fun t => t.sealAll
    else plain
  | .rst =>
    if o = 0x080 then
      (s.onlyIf (w.testBit 30) fun t => t.mgmtReset).onlyIf (w.testBit 31) fun t => t.warmRequest 5
    else if o = 0x084 then s.onlyIf (w.testBit 31 && decide (w % 32 < 24)) fun t => t.partHotReset (w % 32)
    else plain
  | .pwr => if o = 0x080 then s.writeGate i w else plain
  | .fwd => if o = 0x0A4 then s.eptAccess (some (v.setWidth 32)) else if o = 0x100 then plain.breakUnreachable else plain
  | .spl => if o = 0x080 then s.gatedEnable page 93 (w.testBit 0) fun t => t.plainWrite key r.flds v else plain
  | .acc =>
    if o = 0x080 then s.accField i .base v else if o = 0x088 then s.accField i .limit v
    else if o = 0x094 then s.accField i .wr v else if o = 0x090 then s.accRd i (v.setWidth 32) else plain
  | .flt =>
    if o = 0x080 then
      let m := s.flag pgFLT FLT_CTL.PIN_MODE
      let t := s.plainWrite key r.flds (withF v FLT_CTL.PIN_MODE m.toNat)
      ((t.sealedWrite page (m != w.testBit 31) fun u => u.pinMode (w.testBit 31))).evalPin
    else if o = 0x084 then
      let t := s.plainWrite key r.flds (withF v FLT_PIN.DRIVE (s.getF pgFLT FLT_PIN.DRIVE))
      (t.pinDrive (w.testBit 28)).onlyIf (w.testBit 29) fun u => u.rearm
    else if o = 0x0A0 then s.moveRd FLT_FL_PTR.RD FLT_FL_PTR.WR 1024 (w % 1024)
    else if o = 0x0C0 then s.moveRd FLT_LL_PTR.RD FLT_LL_PTR.WR 4096 (w % 4096)
    else plain
  | .tru => if o = 0x098 then s.onlyIf (w.testBit 31) fun t => t.attRedo (w % 64) else plain
  | .age =>
    if o = 0x084 then
      let t := s.plainWrite key r.flds (withF v AGE_AVS.TARGET s.avsTarget)
      t.avsWrite (w / 65536)
    else if o = 0x090 then s.writeAgeCmd w
    else plain
  | .mir =>
    if o = 0x0A4 then s.writeMirCmd (w / 2 ^ 28)
    else if o = 0x0E0 then s.each ((List.range 8).filter (bitAt w)) fun t l => t.retireLane (160 + l) false
    else if o = 0x420 then s.writeLinkReq (64 + i) w
    else plain
  | .vim =>
    if o = 0x204 then s.bindD0 (v.setWidth 32) else if o = 0x208 then s.bindD1 (v.setWidth 32)
    else if o = 0x300 then s.invGo who (v.setWidth 32) else plain
  | .win =>
    let n := 128 * (page - 0x40) + i
    if o = 0x080 then s.winField n .base v else if o = 0x088 then s.winField n .limit v
    else if o = 0x094 then s.winField n .attr v else s.winRoute n (v.setWidth 32)
  | .clk | .spn | .vimi | .cel | .buf | .sch | .qsh | .lnk | .ffl | .ftx | .dma | .dmac | .ttu | .pmuc | .pmut | .pmua | .hbmc
  | .hbmm | .spc | .spcs | .mgt | .mgtm | .ic => plain

/-! ## Pages of Cellars, instances and slots -/

/-- A write of SCH_IMG_CMD (Table 5.13, R185). -/
def writeImgCmd (s : State) (w : Nat) : State :=
  let code := w / 2 ^ 28
  let slot := w % 8
  if s.flag pgDEVSCH SCH_IMG_RES.BUSY then s.schFire 5
  else if code = 1 then s.schLoad slot else if code = 2 then s.schHold slot else if code = 3 then s.schRelease slot
  else if code = 4 then s.schArm slot else if code = 5 then s.schDisarm slot
  else s.imgRes code slot 0x1F

/-- A write of LNK_CTL (R249): DISABLE, then RETRAIN and RESTORE, which a disabled port ignores. -/
def writeLnkCtl (s : State) (p w : Nat) : State :=
  let pg := pgLNK p
  let s1 := s.setDisable p (w.testBit 29)
  if s1.portDisabled p then s1
  else if w.testBit 30 then (s1.setCap p (s1.getF pg LNK_CFG.MAXRATE)).retrainSame p
  else s1.onlyIf (w.testBit 31) fun t => t.retrainSame p

/-- A write of a channel's registers through BAR0 or through the VF BAR2 page (R428, R443, R448). -/
def writeChan (s : State) (ch : Nat) (r : RegDef) (v : Dword) : State :=
  let w := v.toNat
  if r.off = 0x100 then s.shadowWrite ch .src v
  else if r.off = 0x108 then s.shadowWrite ch .dst v
  else if r.off = 0x110 then s.shadowWrite ch .count v
  else if r.off = 0x114 then s.shadowWrite ch .xctl v
  else if r.off = 0x118 then
    (if w.testBit 1 then s.dmaStop ch (w.testBit 0) else s.onlyIf (w.testBit 0) fun t => t.dmaGo ch)
  else s.plainWrite (chPage ch * 4096 + r.off + r.stride * chIx ch) r.flds v

/-- A sampler whose EN goes from 0 to 1 counts its matches from 0 (R602). -/
def writeSampler (s : State) (page i : Nat) (r : RegDef) (v : Dword) : State :=
  let was := s.flag page PMU_SMPCFG.EN i
  let t := s.plainWrite (page * 4096 + r.off + r.stride * i) r.flds v
  t.onlyIf (!was && t.flag page PMU_SMPCFG.EN i) fun u => u.setF page PMU_SMPSEQ.MSEQ 0 i

/-- RD of a trace ring (Table 18.6): moved within the unread records. -/
def writeRingRd (s : State) (c rd : Nat) : State :=
  let n := max 1 s.ringSize
  let v := rd % 2 ^ 24
  if v < n ∧ (v + n - s.getF (pgPMUT c) PMU_RING_RD.RD % n) % n ≤ s.ringCount c then s.setF (pgPMUT c) PMU_RING_RD.RD v else s

/-- A write of a device-wide register through a Cellar's page, whose seal governs its RWS fields (R184, R75). -/
def writeShared (s : State) (page : Nat) (r : RegDef) (i : Nat) (v : Dword) : State :=
  let key := homePage page r.off * 4096 + r.off + r.stride * i
  let locked := s.pageSealed page
  let t := s.setReg key (regAfter r.flds locked (s.reg key) v)
  t.onlyIf (locked && changesRws r.flds (s.reg key) v) fun u => u.pageAccess page

/-- A write of a register of a Cellar's page, an instance page or a slot page. -/
def writeBlock (s : State) (who : Requester) (page : Nat) (k : PageKind) (r : RegDef) (i : Nat) (v : Dword) : State :=
  let key := page * 4096 + r.off + r.stride * i
  let plain := s.plainWrite key r.flds v
  let w := v.toNat % 2 ^ 32
  let o := r.off
  let c := page / 256 - 1
  let b := page % 256
  match k with
  | .vimi =>
    if o = 0x800 then
      let n := 64 * (b - 0x80) + i
      (s.plainWrite key r.flds (withF v VIM_ICTL.RESET 0)).onlyIf (w.testBit 31) fun t => t.instReset n false false
    else plain
  | .cel => if o = 0x100 then s.each ((List.range 40).filter (bitAt v.toNat)) fun t l => t.retireLane (40 * c + l) false else plain
  | .sch => if o = 0x810 then s.writeImgCmd w else if 0x800 ≤ o then s.writeShared page r i v else plain
  | .qsh =>
    if (decide (0x200 ≤ o) && decide (o < 0x400)) || (decide (0xA00 ≤ o) && decide (o < 0xA80)) then s.shaperWrite key (v.setWidth 32)
    else plain
  | .lnk =>
    if o = 0x088 then s.writeLnkCtl (16 * c + b % 16) w
    else if o = 0x080 then
      let p := 16 * c + b % 16
      ((plain.laneStatus c).setCap p (s.getF page LNK_DERATE.CAP)).onlyIf (!s.portEn p && plain.portEn p) fun t =>
        t.setF page LNK_STS.STATE (t.restState p)
    else plain
  | .ffl => if o = 0x0A0 then s.writeLinkReq (16 * c + b % 16) w else plain
  | .dma =>
    if o = 0x800 ∨ o = 0x804 then
      (s.onlyIf (o == 0x804) fun t => t.noteBurst key).plainWrite key r.flds v
    else plain
  | .dmac =>
    let ch := 256 * c + 32 * (b - 0x48) + i
    s.onlyIf (!s.chanResetting ch) fun t => t.writeChan ch r v
  | .pmuc =>
    if o = 0x100 then s.pmuWrite c i false v
    else if o = 0x180 then s.evtWrite c i v
    else if o = 0x800 then
      (if w.testBit 31 && s.snapAt.isNone then { s with snapAt := some (s.ticks + 16) } else s)
    else plain
  | .pmut =>
    if o = 0x080 then s.gatedEnable page 92 (w.testBit 31) fun t => t.plainWrite key r.flds v
    else if o = 0x088 then s.writeRingRd c w
    else if o = 0x100 then s.writeSampler page i r v
    else plain
  | .pmua =>
    if o = 0x080 then s.saClear c (b - 0x62) w else plain
  | .spcs =>
    if o = 0x09C then
      let n := b - 0x10
      let s1 := s.onlyIf (w.testBit 31) fun t => t.clrLatch n
      let s2 := s1.onlyIf (w.testBit 30) fun t => t.slotService n
      s2.onlyIf (w.testBit 29) fun t => t.connReset n
    else plain
  | .glb | .clk | .rst | .pwr | .spn | .fwd | .spl | .acc | .flt | .tru | .age | .mir | .vim | .win =>
    s.writeGlobal who page k r i v
  | .buf | .ftx | .ttu | .hbmc | .hbmm | .spc | .mgt | .mgtm | .ic => plain

/-- A write of copy `i` of a register, whole. -/
def writeReg (s : State) (who : Requester) (page : Nat) (k : PageKind) (r : RegDef) (i : Nat) (v : Dword) : State :=
  if k ≠ .ic ∧ r.off < 0x080 then s.writeHdr page r i v else s.writeBlock who page k r i v

end State
end Sys2Proof.Machine
end

