-- ==== Sys2Proof/Machine/Bus.lean ====
section
/-! DEFINITION. Accesses to the register space (R54 to R64, R67, R78, R82, R380 to R383) and the commands that make them. -/

namespace Sys2Proof.Machine
namespace State

/-! ## Reads -/

/-- Latch the high word of a 64-bit register for a requester (R59). -/
def latch (s : State) (who : Requester) (key high : Nat) : State :=
  { s with latches := (who, key, some high) :: s.latches.filter fun e => !(e.1 == who && e.2.1 == key) }

/-- Effects of a read of a 32-bit register: RC fields clear, PEAK restarts from σ and QSH_DPEAK from the depth, indexed data moves its index (R6, R60, R101, R155, R230, Table 17.11). -/
def readEffects (s : State) (page : Nat) (k : PageKind) (r : RegDef) (i : Nat) : State :=
  let key := page * 4096 + r.off + r.stride * i
  let rc := r.flds.filter fun f => f.acc == .rc
  let s1 := if rc.isEmpty then s else s.setReg key (rc.foldl (fun v f => bitsPut v f.hi f.lo 0) (s.reg key))
  match k with
  | .qsh => if r.off = QSH_DPEAK.PEAK.off then s1.peakDepth (128 * (page / 256 - 1) + 64 * (page % 256 - 3) + i) else s1
  | .sch => if r.off = 0x140 then s1.setF page SCH_PORTSTS.PEAK (s.getF page SCH_PORTSTS.SLIP i) i else s1
  | .age => if r.off = 0x144 then s1.ldataStep else s1
  | .lnk => if r.off = 0x090 ∧ s.inDetect (16 * (page / 256 - 1) + page % 16) = true then { s1 with free := s1.free + 1 } else s1
  | .fwd =>
    if r.off = 0x0A4 ∧ s.flag pgFWD FWD_EPT_IDX.AUTOINC then
      s1.setF pgFWD FWD_EPT_IDX.EP ((s.getF pgFWD FWD_EPT_IDX.EP + 1) % 4096)
    else s1
  | .glb | .clk | .rst | .pwr | .spn | .spl | .acc | .flt | .tru | .mir | .vim | .win | .vimi | .cel | .buf | .ffl | .ftx
  | .dma | .dmac | .ttu | .pmuc | .pmut | .pmua | .hbmc | .hbmm | .spc | .spcs | .mgt | .mgtm | .ic => s1

/-- The register that byte offset `a` of the register space reaches: its page, page type, definition and copy; none where no register
answers (R56, R62, R67). -/
def regFor (s : State) (a : Nat) : Option (Nat × PageKind × RegDef × Nat) :=
  let page := a / 4096
  let o := a % 4096
  match pageKind page with
  | none => none
  | some k =>
    if 0x080 ≤ o ∧ s.pagePresent page = false then none
    else match findReg (allRegs k) o with
      | none => none
      | some (r, i) => some (page, k, r, i)

/-- Key of the 64-bit register that the word at offset `a` is part of, and whether it is the low word: a register of 64 bits, or two counters that
CHAIN joins (R595). -/
def wordOf (s : State) (a : Nat) : Option (Nat × Bool) :=
  match s.regFor a with
  | none => none
  | some (page, k, r, i) =>
    let key := homePage page r.off * 4096 + r.off + r.stride * i
    if r.wide then some (key, a % 4096 == r.off + r.stride * i)
    else if k = .pmuc ∧ r.off = PMU_CTR.COUNT.off ∧ s.flag page PMU_EVT.CHAIN (i / 2 * 2 + 1) = true then
      some (homePage page r.off * 4096 + r.off + r.stride * (i / 2 * 2), i % 2 == 0)
    else none

/-- Value of the high word of the 64-bit register at `key`, as it stands. -/
def highWord (s : State) (key : Nat) : Nat :=
  match regAt (key / 4096) (key % 4096) with
  | some (r, i) =>
    (match pageKind (key / 4096) with
     | some k => if r.wide then (s.viewReg (key / 4096) k r i).toNat / 2 ^ 32 else (s.viewReg (key / 4096) k r (i + 1)).toNat % 2 ^ 32
     | none => 0)
  | none => 0

/-- A 4 B read at offset `a` (R58, R59, R82, R595). -/
def read4 (s : State) (who : Requester) (a : Nat) : State × Nat :=
  if s.pageDead (a / 4096) then (s, 0xFFFFFFFF)
  else match s.regFor a with
    | none => (s, 0)
    | some (page, k, r, i) =>
      let home := homePage page r.off
      let v := (s.viewReg home k r i).toNat
      match s.wordOf a with
      | none => (s.readEffects home k r i, v % 2 ^ 32)
      | some (key, true) => ((s.touch who key).latch who key (s.highWord key), v % 2 ^ 32)
      | some (key, false) =>
        let s1 := s.touch who key
        let rest := { s1 with latches := s1.latches.filter fun e => !(e.1 == who && e.2.1 == key) }
        match s1.latches.find? fun e => e.1 == who && e.2.1 == key with
        | some (_, _, some h) => (rest, h)
        | some (_, _, none) => let (x, t) := rest.draw; (t, x % 2 ^ 32)
        | none => (s1, s1.highWord key)

/-- An aligned 8 B read: both words of a 64-bit register from one cycle, or two 4 B reads (R58). -/
def read8 (s : State) (who : Requester) (a : Nat) : State × Nat :=
  let two : State × Nat :=
    let (s1, lo) := s.read4 who a
    let (s2, hi) := s1.read4 who (a + 4)
    (s2, lo + 2 ^ 32 * hi)
  if s.pageDead (a / 4096) then two
  else match s.regFor a with
    | none => two
    | some (page, k, r, i) =>
      if r.wide ∧ a % 4096 = r.off + r.stride * i then
        (s.touch who (homePage page r.off * 4096 + r.off + r.stride * i), (s.viewReg (homePage page r.off) k r i).toNat)
      else two

/-- 4 B reads at `n` consecutive offsets from `a` (R61). -/
def readWords (s : State) (who : Requester) : Nat → Nat → State × List Byte
  | _, 0 => (s, [])
  | a, n + 1 =>
    let (s1, v) := s.read4 who a
    let (s2, l) := s1.readWords who (a + 4) n
    (s2, leBytes 4 v ++ l)

/-- The offset lies in what the requester's access reaches: the 8 MiB of BAR0 (R54), or for a tenant its own control page and its own
channels (R399, Table 11.1). -/
def tenantMay (s : State) (who : Requester) (a : Nat) : Bool :=
  match who with
  | .tenant i =>
    let page := a / 4096
    !s.partFatal (s.partOfInst i) && (page == pgIC i || (match s.regFor a with
      | some (_, .dmac, _, j) => (s.instChans i).contains (256 * (page / 256 - 1) + 32 * (page % 256 - 0x48) + j)
      | some _ => false
      | none => false))
  | .host _ | .mgmt | .debug => decide (a < 0x800000)

/-- A read of `n` bytes from offset `a`, once the slots have allowed it: all ones from a page the requester may not reach, else the bytes,
with the effects of a read of each word touched (R30, R60, R61, R78, R380). -/
def busRead (s : State) (who : Requester) (a n : Nat) : State × List Byte :=
  if !s.tenantMay who a then (s, List.replicate n 0)
  else
    let (s1, ok) := s.guardPage who a false
    if !ok then (s1, List.replicate n 0xFF)
    else if a % 8 = 0 ∧ n = 8 then
      let (s2, v) := s1.read8 who a
      (s2, leBytes 8 v)
    else
      let w := a / 4 * 4
      let (s2, l) := s1.readWords who w (ceilDiv (a + max 1 n - w) 4)
      (s2, (l.drop (a - w)).take n)

/-! ## Writes -/

/-- A write of a whole register, or the rule that leaves its result undefined. -/
def putReg (s : State) (who : Requester) (page : Nat) (k : PageKind) (r : RegDef) (i : Nat) (v : Dword) : State × Option Nat :=
  match s.writeUndefined page k r i v with
  | some n => (s, some n)
  | none => (s.writeReg who page k r i v, none)

/-- A 4 B write: a 32-bit register, or one word of a 64-bit register. -/
def write4 (s : State) (who : Requester) (a v : Nat) : State × Option Nat :=
  match s.regFor a with
  | none => (s, none)
  | some (page, k, r, i) =>
    let base := r.off + r.stride * i
    let key := homePage page r.off * 4096 + base
    if r.wide then
      let old := if r.flds.any fun f => f.acc == .w1s then 0 else (s.heldRead key).toNat
      let x := if a % 4096 = base then old / 2 ^ 32 * 2 ^ 32 + v else v * 2 ^ 32 + old % 2 ^ 32
      (s.touch who key).putReg who page k r i (BitVec.ofNat 64 x)
    else ((s.wordOf a).elim s fun x => s.touch who x.1).putReg who page k r i (BitVec.ofNat 64 v)

/-- An aligned 8 B write: a 64-bit register, or two 4 B writes (R58). -/
def write8 (s : State) (who : Requester) (a v : Nat) : State × Option Nat :=
  let two : State × Option Nat :=
    match s.write4 who a (v % 2 ^ 32) with
    | (t, none) => t.write4 who (a + 4) (v / 2 ^ 32)
    | (t, some n) => (t, some n)
  match s.regFor a with
  | none => two
  | some (page, k, r, i) =>
    if r.wide ∧ a % 4096 = r.off + r.stride * i then
      (s.touch who (homePage page r.off * 4096 + r.off + r.stride * i)).putReg who page k r i (BitVec.ofNat 64 v)
    else two

/-- The bytes of a word, all enabled. -/
def wholeWord (l : List (Option Byte)) : Option Nat :=
  if l.length = 4 ∧ l.all Option.isSome then some (leNat (l.map fun b => b.getD 0)) else none

/-- Consecutive 4 B writes of an access longer than 8 B (R61); a word with only some bytes enabled is dropped with PAGE_ACCESS (R60). -/
def writeWords (s : State) (who : Requester) (a : Nat) : List (List (Option Byte)) → State × Option Nat
  | [] => (s, none)
  | w :: r =>
    let one : State × Option Nat :=
      match wholeWord w with
      | some v => s.write4 who a v
      | none => (s.onlyIf (w.any Option.isSome) fun t => t.pageAccess (a / 4096), none)
    match one with
    | (t, some n) => (t, some n)
    | (t, none) => t.writeWords who (a + 4) r

/-- A write of bytes from offset `a`, once the slots have allowed it: absent bytes are not enabled (R30, R56, R60, R61, R78, R380). Of an access of up
to 8 B all four bytes of one register or all eight of an aligned 8 B access are enabled, else it is dropped whole. PAGE_ACCESS of an instance control
page, which has no header to hold it, fires as source 31 of that page's index (DESIGN CHOICE, log 67). -/
def busWrite (s : State) (who : Requester) (a : Nat) (bs : List (Option Byte)) (req : Nat := 1) : State × Option Nat :=
  if !s.tenantMay who a then (s, none)
  else
    let (s1, ok) := s.guardPage who a true req
    if !ok || (pageKind (a / 4096)).isNone || s1.pageDead (a / 4096) then (s1, none)
    else if bs.all Option.isNone then (s1.pageAccess (a / 4096), none)
    else
      let pre : List (Option Byte) := List.replicate (a % 4) none ++ bs
      let full := pre ++ List.replicate ((4 - pre.length % 4) % 4) none
      let ws := chunks 4 (full.length / 4) full
      let w := a / 4 * 4
      if 2 < ws.length then s1.writeWords who w ws
      else if w % 8 = 0 ∧ ws.length = 2 ∧ full.all Option.isSome then s1.write8 who w (leNat (full.map fun b => b.getD 0))
      else
        match (ws.zip [w, w + 4]).filter fun x => x.1.any Option.isSome with
        | [(one, b)] => (match wholeWord one with
          | some v => s1.write4 who b v
          | none => (s1.pageAccess (a / 4096), none))
        | _ => (s1.pageAccess (a / 4096), none)

end State

/-- End of an access: the state it leaves, or the undefined result it met. -/
def accessEnd (r : State × Option Nat) : Res :=
  match r with
  | (_, some n) => .fault (.undefinedResult n)
  | (t, none) => t.done

/-! ## Commands -/

/-- REGISTER_WRITE (R6): a 4 B access, or an aligned 8 B one, with byte enables `be`. -/
def execRegisterWrite (who : Requester) (off : Nat) (wide : Bool) (be : Nat) (data : Dword) (s : State) : Res :=
  let n := if wide then 8 else 4
  let bs := (List.range n).map fun i => if be.testBit i then some (BitVec.ofNat 8 (data.toNat / 256 ^ i)) else none
  if s.writesStopped who then s.done
  else
    let named := ((List.range n).filter fun i => be.testBit i).map (off + ·)
    let (s1, ok) := s.guardBytes who off (if named.isEmpty then [off] else named) true
    if !ok then s1.done else accessEnd (s1.busWrite who off bs)

/-- RC_READ (R7): a read of 4 B or 8 B clears the RC fields it reads. -/
def execRcRead (who : Requester) (off : Nat) (wide : Bool) (s : State) : Res :=
  let n := if wide then 8 else 4
  let (s1, ok) := s.guardSlots who off n false
  if !ok then s1.done
  else
    let (s2, l) := s1.busRead who off n
    (s2.emit (.regRead off (BitVec.ofNat 64 (leNat l)))).done

/-- LOW_WORD_READ (R59): a 4 B read of the low word of a 64-bit register latches its high word. -/
def execLowWordRead (who : Requester) (off : Nat) (s : State) : Res :=
  let (s1, ok) := s.guardSlots who off 4 false
  if !ok then s1.done
  else
    let (s2, l) := s1.busRead who off 4
    (s2.emit (.regRead off (BitVec.ofNat 64 (leNat l)))).done

/-- PAGE_LOCK_WRITE (R75). -/
def execPageLockWrite (who : Requester) (page : Nat) (s : State) : Res :=
  if 2048 ≤ page then s.done
  else (s.withAccess who (State.offOf page PAGE_LOCK.LOCK) 4 true fun t => t.lockPage page).done

/-- GLB_SEAL_WRITE (R75). -/
def execGlbSealWrite (who : Requester) (s : State) : Res :=
  (s.withAccess who (State.offOf pgGLB GLB_SEAL.SEAL) 4 true fun t => t.sealAll).done

/-- DEBUG_PORT_ACCESS (R380, R382): a write of `data`, or a read. -/
def execDebugPortAccess (off : Nat) (wide : Bool) (data : Option Dword) (s : State) : Res :=
  let n := if wide then 8 else 4
  match data with
  | some v => accessEnd (s.busWrite .debug off ((leBytes n v.toNat).map some))
  | none =>
    let (s1, l) := s.busRead .debug off n
    (s1.emit (.regRead off (BitVec.ofNat 64 (leNat l)))).done

end Sys2Proof.Machine
end

