-- ==== Sys2Proof/Machine/Pass.lean ====
section
/-! DEFINITION. The ingress ordering point (R111 to R115): room, numbering, mirror records, the parts a request is sent as, and where it
goes: an egress queue, the fabric transport, a multicast group, the shared window, or a BAR of the services endpoint. -/

namespace Sys2Proof.Machine

/-- How the cells of a packet find room (R112): SRAM, the spill part, or a wait with the SPL source that fires. -/
inductive Room where
  | sram
  | spill
  | wait (bit : Option Nat)
  deriving DecidableEq, Repr

/-- Runs of enabled bytes of a request: offset from its address and length. -/
def enabledRuns (t : Tlp) : List (Nat × Nat) :=
  ((List.range t.len).foldl (fun (acc : List (Nat × Nat)) i =>
    if !enabledAt t i then acc
    else match acc with
      | [] => [(i, 1)]
      | (o, n) :: r => if o + n = i then (o, n + 1) :: r else (i, 1) :: (o, n) :: r) []).reverse

/-- The `n` bytes of a request from offset `o`, as a request of its own. -/
def subTlp (t : Tlp) (o n : Nat) : Tlp :=
  { t with addr := t.addr + o, len := n, mask := if t.mask.isEmpty then [] else (t.mask.drop o).take n, data := (t.data.drop o).take n }

/-- Largest payload of a DMWr in PCI Express (R362). -/
def dmwrMax : Nat := 128

/-- The requests that a packet is sent on as: one, the allowed parts of a split one (R376), and DMWrs of a write through an NPW window
(R362). -/
def sendParts (p : Packet) : List Tlp :=
  let whole := if p.forbidden then (enabledRuns p.tlp).map fun r => subTlp { p.tlp with mask := [] } r.1 r.2 else [p.tlp]
  if p.attr.npw && isWrite p.tlp then
    whole.flatMap fun t => if t.len ≤ dmwrMax then [{ t with kind := .dmwr }]
      else (cuts (t.len + 1) 0 t.len dmwrMax).map fun c => { subTlp t c.1 c.2 with kind := .dmwr }
  else whole

/-- A fabric packet that ends here: it does not go on over the fabric. -/
def arrives (p : Packet) : Bool :=
  match p.fab, p.route with
  | none, _ => false
  | some _, .fabric _ => false
  | some _, .port _ => true
  | some _, .shared _ => true
  | some _, .mcast _ => true
  | some _, .bar _ _ _ => true
  | some _, .vfBar _ _ _ => true
  | some _, .none => true

/-- A posted write that takes a number here: not one on its way over the fabric, which has its own. -/
def isNewWrite (p : Packet) : Bool := isWrite p.tlp && (p.fab.isNone || arrives p)

/-- The request may pass at a standby (R487). -/
def standbyAdmits (p : Packet) : Bool :=
  match p.route with
  | .bar _ b _ => b == 0
  | .vfBar _ _ _ => true
  | .port _ | .shared _ | .fabric _ | .mcast _ | .none => p.tlp.kind == .cfg || p.tlp.kind == .cpl || (p.fab.isSome && !arrives p)

/-- The request may pass under DEVICE_FATAL, as may the 9160's own completions and those of configuration requests (R469). -/
def fatalAdmits (p : Packet) : Bool :=
  match p.route with
  | .bar _ b _ => b == 0 && p.tlp.kind == .mrd
  | .port _ | .fabric _ => p.tlp.kind == .cfg || (p.tlp.kind == .cpl && (decide (64 ≤ p.ing) || p.cfgCpl))
  | .vfBar _ _ _ | .shared _ | .mcast _ | .none => p.tlp.kind == .cfg

/-- The request reads or writes a FENCE register as a fence does (R330). -/
def isFence (p : Packet) : Bool :=
  match p.route with
  | .vfBar _ 0 off => decide (off ≤ 0x100 ∧ 0x100 < off + max 1 p.tlp.len) && (p.tlp.kind == .mrd || p.tlp.kind == .dmwr)
  | .vfBar _ _ _ | .bar _ _ _ | .port _ | .shared _ | .fabric _ | .mcast _ | .none => false

/-- First tag of the read engine of a Cellar, and of a port's tracker (DESIGN CHOICE, log 17): they meet no other tag. -/
def engineTags (c : Nat) : Nat := 16384 + 1024 * c
def trackerTags : Nat := 32768

namespace State

/-! ## Room -/

/-- Room for `n` cells in queue `q` (R112, R118, R120, R121). -/
def roomFor (s : State) (q n : Nat) : Room :=
  let spilled : Room := match s.spillRoom q n with
    | none => .spill
    | some b => .wait (some b)
  if s.spilling q then (if s.spillRuns then spilled else .wait none)
  else if s.sramAdmits q n then .sram
  else if s.spillRuns && s.flag (pgBUF (q / 128)) BUF_QSPILL.EN (q % 128) then spilled
  else .wait none

/-- A cause of a wait is noted once for a packet. -/
def waitOnce (s : State) (p : Packet) (bit : Nat) (f : State → State) : State :=
  if bitAt p.held bit then s else f (s.modPacket p.id fun x => { x with held := bitSet x.held bit })

/-- A packet waits for room (R121). -/
def waitRoom (s : State) (p : Packet) (b : Option Nat) : State :=
  match b with
  | none => s
  | some b => s.waitOnce p b fun t => t.fire pgSPL b p.part (faultPort p)

/-! ## Commitment to a queue -/

/-- Rate of a lane in tenths of GT/s by its code (Table 7.2). -/
def rateOf (code : Nat) : Nat := [25, 50, 80, 160, 320, 640, 1280].getD code 0

/-- The ingress port's data rate is at least that of the egress port (R113). -/
def feedsFast (s : State) (ing d : Nat) : Bool :=
  let speed := fun (p : Nat) => s.getF (pgLNK p) LNK_STS.WIDTH * rateOf (s.getF (pgLNK p) LNK_STS.RATE)
  decide (ing < 64) && decide (speed d ≤ speed ing)

/-- Half-ticks in which the cells of a packet enter the local turn (R38); none where it takes the spine. -/
def turnTimes (s : State) (p : Packet) (d : Nat) : List Nat :=
  if cellarOf d ≠ p.cell0 then []
  else (List.range p.ncell).map fun i =>
    if p.acc.isEmpty then 2 * s.fabric else max (2 * (p.acc.getD i (p.acc.getLastD s.fabric) + 38)) (2 * s.fabric)

/-- Commit a packet to the queue of a port (R111, R113, R120, R143): `mc` for a multicast copy, `look` when the samplers see it. -/
def commit (s : State) (p : Packet) (d : Nat) (mc spill look : Bool) : State :=
  let q := queueOf d p.tlp.tc
  let st := s.streamOf q
  let cut := !mc && !spill && ((s.inQueue q).all fun k => k.arrived == k.left && (!k.spill || k.spilled == 0)) && s.inL0 d && s.feedsFast p.ing d
  let p1 := { p with queue := q, place := Place.egress, ordTick := s.fabric, cut := cut, spill := spill,
                     spilled := if spill then p.ncell else 0, spillBusy := 0, arrived := 0, left := 0, entered := s.turnTimes p d }
  let p2 := if st.sched then { p1 with mark := s.streamMark q p1 } else { p1 with mark := Mark.best }
  let (s1, smp) := if look then s.samplePass p2 (some d) mc else (s, none)
  let s2 : State := { s1 with packets := s1.packets ++ [{ p2 with sample := smp }] }
  let s3 := if p2.mark = Mark.excess then s2.markOut q p2 Mark.excess else s2
  let s4 := s3.onlyIf (st.sched && p.ing == st.ing) fun t => t.noteWindow q p2
  let s5 := s4.onlyIf (cut && decide (p.ing < 64)) fun t => t.count p.cell0 5 (localPort p.ing) 0 1
  s5.peakDepth q

/-! ## Leaving the ingress buffer -/

/-- A packet leaves the ingress buffer, and its credit goes back; the copy that replaces a bad one takes the credit again (R115). -/
def leaveIngress (s : State) (p : Packet) : State :=
  (s.dropPacket p.id).onlyIf (!p.bad) fun t => t.freeIngress p.ing p.tlp p.ncell

/-- Credit of packets that were in ingress buffers and are gone. -/
def freeGone (s before : State) : State :=
  s.each (before.packets.filter fun p => (p.place == Place.ingress || p.place == Place.walk) && decide (p.ing < 64) && (s.packet? p.id).isNone)
    fun t p => t.freeIngress p.ing p.tlp p.ncell

/-- A posted write takes its number and waits to be resolved at `left` end points (R314, R332). -/
def takeNumber (s : State) (p : Packet) (left : Nat) (mir : Bool) : State × Packet :=
  if !isNewWrite p then (s, p)
  else
    let i := s.seqIni p
    let n := p.wseq.getD (s.nextWseq i)
    let s1 := if p.wseq.isSome then s else s.setWseq i (n + 1)
    let w : OpenWrite := { pkt := p.group, ini := p.ini, wseq := n, order := p.order, left := left, mirrored := mir, lost := false,
                           dma := dmaOf p }
    ({ s1 with openW := if left = 0 then s1.openW else s1.openW ++ [w] }, { p with wseq := some n })

/-- A packet passes the ordering point (R111, R313, R314, R299): it takes its place in the order, the instance's current generation and, if
it is a write, its number; an arrival over the fabric moves its stream's ACKD. A channel's request keeps the generation of its burst (R411). -/
def enter (s : State) (p : Packet) (left : Nat) (mir : Bool) : State × Packet :=
  let s0 := s.leaveIngress p
  let fresh := match p.ini with
    | .port q _ _ => decide (q < 64)
    | .chan _ => false
    | .fabric _ _ _ _ | .cxl _ | .block _ => true
  let b := if fresh then p.bound.map fun (b : Bound) => { b with gen := (s0.inst b.vi).gen } else p.bound
  let p1 := { p with order := s0.order, ordTick := s0.fabric, bound := b, place := Place.egress }
  let s1 := ({ s0 with order := s0.order + 1 } : State).count p.cell0 4 (if p.ing < 64 then localPort p.ing else 16) (p.tlp.tc % 8) 1
  let s2 := match p.fab with
    | some h => if arrives p then s1.rxPassed h else s1
    | none => s1
  s2.takeNumber p1 left mir

/-! ## The mirror (R493, R495, R503) -/

/-- Key of a posted write that enters a PCIe port of a mirrored partition (R491, R493). -/
def mirroredKey (s : State) (p : Packet) : Option StreamKey :=
  if decide (p.ing < 64) && isWrite p.tlp && p.fab.isNone && bitAt (s.getF pgMIR MIR_PMIRROR.PARTS) (s.portPart p.ing) then s.keyOf p.ini else none

/-- Key of a covered write, when the packet is one (R493). -/
def coveredKey (s : State) (p : Packet) : Option StreamKey := if s.mirroring then s.mirroredKey p else none

/-- Its record (Table 14.3): a COPY through a window with IDEM, a MARK otherwise. -/
def coverRecord (p : Packet) (k : StreamKey) : MirRec :=
  { emptyRec with
    kind := if p.attr.idem then 1 else 2
    key := k
    window := p.attr.win
    wseq := p.wseq.getD 0
    addr := p.tlp.addr
    len := p.tlp.len
    vi := p.bound.map (·.vi)
    gen := (p.bound.map (·.gen)).getD 0
    idem := p.attr.idem
    shared := (match p.route with
      | .shared _ => true
      | .port _ | .fabric _ | .mcast _ | .bar _ _ _ | .vfBar _ _ _ | .none => false)
    mask := p.tlp.mask
    data := if p.attr.idem then p.tlp.data else []
    grp := p.group }

/-- Bytes of the mirror transmit queue (R493). -/
def mirQueued (s : State) : Nat := (s.mir.txq.map mirBytes).sum

/-- A replayed write of the stream stands before the ordering point (R503). -/
def replayAhead (s : State) (p : Packet) (k : StreamKey) : Bool :=
  s.packets.any fun x => (x.place == Place.ingress || x.place == Place.walk) && x.ini == keyIni k && x.id != p.id

/-- A covered write has passed: its record is queued, its stream is in the table, and under MIR_PSYNC its cells wait (R493, R495, R497). -/
def cover (s : State) (p : Packet) (k : StreamKey) : State :=
  let s1 := ((s.mirSend (coverRecord p k)).addStream k (p.wseq.getD 0)).modStream k fun x => { x with high := p.wseq.getD 0, changed := true }
  if bitAt (s1.getF pgMIR MIR_PSYNC.PARTS) p.part then { s1 with mir := { s1.mir with unacked := s1.mir.unacked ++ [p.group] } } else s1

/-- `enter`, with the record of a covered write. -/
def pass (s : State) (p : Packet) (left : Nat) : State × Packet :=
  match s.coveredKey p with
  | none => s.enter p left false
  | some k =>
    let (s1, p1) := s.enter p left (decide (left ≠ 0))
    (s1.cover p1 k, p1)

/-! ## Destinations that cannot take traffic -/

/-- A packet whose destination cannot take traffic as it passes (R99, R109, R110). -/
def passDown (s : State) (p : Packet) : State :=
  let s1 := s.leaveIngress p
  let cap := fun (t : State) => (t.fwdCapture 3 p.part p.ing (fwdReq p) p.orig).fire pgFWD 3 p.part (faultPort p)
  match p.route with
  | .port d =>
    if p.tlp.kind == .cpl then s1.onlyIf (s1.portEn d) fun t => t.addF (pgLNK d) LNK_LDCNT1.CPL
    else if isMsg p.tlp then s1
    else if nonPosted p.tlp then (cap s1).stopReq p .ur 6
    else (cap s1).failLater p 1 (pgFWD * 32 + 3)
  | .fabric _ =>
    (match p.fab with
     | some h => if h.kind = 1 ∨ h.kind = 3 then cap s1 else s1
     | none => if nonPosted p.tlp then (cap s1).stopReq p .ur 6 else if isNewWrite p then (cap s1).failLater p 1 (pgFWD * 32 + 3) else s1)
  | .shared _ | .mcast _ | .bar _ _ _ | .vfBar _ _ _ | .none => s1

/-! ## Trackers (R264, R359, R368, R425) -/

/-- A tag from `base` on that no entry uses. -/
def freeTag (base n : Nat) (used : List Nat) : Option Nat := (List.range n).findSome? fun i => if used.contains (base + i) then none else some (base + i)

/-- DMA reads past the ordering point that no tracker holds: at the shared window, or waiting for a prefetched block. -/
def engineReads (s : State) : List Packet :=
  ((s.packets.filter fun p => p.place == Place.window) ++ s.pf.flatMap (·.waiting)).filter fun p => (engOf p).isSome && p.tlp.kind == .mrd

/-- Requester ID and tag under which a packet's request is sent through port `d`; none while no tag is free. `taken` are tags given to
earlier parts of the same request. -/
def sendTag (s : State) (p : Packet) (d : Nat) (taken : List Nat) : Option (Nat × Nat) :=
  let mine := (s.trk.filter fun e => e.port == d).map (·.tag) ++ taken
  let block := (s.part (s.portPart d)).pfRid
  match p.owner with
  | .requester => if p.forbidden then (freeTag trackerTags 8192 mine).map fun t => (p.tlp.rid, t) else some (p.tlp.rid, p.tlp.tag)
  | .fabric e => if p.forbidden then (freeTag trackerTags 8192 mine).map fun t => (p.tlp.rid, t) else some ((s.part p.part).pfRid, e)
  | .dma _ _ _ | .dmaList _ _ _ =>
    (freeTag (engineTags p.cell0) 1024 (s.trk.map (·.tag) ++ s.engineReads.map (·.tlp.tag) ++ taken)).map fun t => (p.tlp.rid, t)
  | .npw _ | .prefetch _ => (freeTag trackerTags 8192 mine).map fun t => (block, t)
  | .split _ | .load _ => (freeTag trackerTags 8192 mine).map fun t => (p.tlp.rid, t)

/-- Tags of all parts. -/
def sendTags (s : State) (p : Packet) (d : Nat) : Nat → List Nat → Option (List (Nat × Nat))
  | 0, _ => some []
  | n + 1, taken =>
    match s.sendTag p d taken with
    | none => none
    | some x => (s.sendTags p d n (x.2 :: taken)).map (x :: ·)

/-- A tracker entry for a request that goes out of port `d`; 66 stands for the fabric. -/
def trkAdd (s : State) (d : Nat) (p : Packet) : State :=
  { s with trk := s.trk ++ [({ port := d, rid := p.tlp.rid, tag := p.tlp.tag, pkt := p, born := s.ticks, orphan := none } : TrkEntry)] }

/-- A DMA read that no tracker holds takes a tag of its engine too (R425): it waits for one while 1,024 reads of the engine are outstanding. -/
def engineTag (s : State) (p : Packet) : Option Packet :=
  match p.owner with
  | .dma _ _ _ | .dmaList _ _ _ =>
    (freeTag (engineTags p.cell0) 1024 (s.trk.map (·.tag) ++ s.engineReads.map (·.tlp.tag))).map fun t => { p with tlp := { p.tlp with tag := t } }
  | .requester | .npw _ | .prefetch _ | .split _ | .fabric _ | .load _ => some p

/-- An orphan entry of the port has the request's Requester ID and tag (R368). -/
def tagOrphan (s : State) (d : Nat) (l : List (Nat × Nat)) : Bool :=
  s.trk.any fun e => e.port == d && e.orphan.isSome && l.any fun x => x.1 == e.rid && x.2 == e.tag

/-- The transfer of a DMA write moves on as its request passes (R430, R431). -/
def dmaPassed (s : State) (p : Packet) : State :=
  match p.owner with
  | .dma ch num _ =>
    if !isWrite p.tlp then s
    else
      let s1 := s.modXfer ch num fun x => { x with prog := x.prog + p.tlp.data.length }
      let s2 := match s1.running ch with
        | some x => if x.num = num then s1.setF (chPage ch) DMA_PROG.BYTES x.prog (chIx ch) else s1
        | none => s1
      s2.drainCheck ch
  | .requester | .npw _ | .split _ | .prefetch _ | .fabric _ | .dmaList _ _ _ | .load _ => s

/-! ## Ports -/

/-- The parts of a request are committed to port `d`: each takes its identity, its tag and its tracker entry. -/
def commitParts (s : State) (p : Packet) (d : Nat) (spill look : Bool) : List (Tlp × Option (Nat × Nat)) → State
  | [] => s
  | (t, tag) :: r =>
    let t1 := match tag with
      | some x => { t with rid := x.1, tag := x.2 }
      | none => t
    let k := { p with tlp := t1, ncell := cellsOf (tlpBytes t1) }
    let k1 := if look then k else { k with id := s.nextId }
    let s1 := if look then s else { s with nextId := s.nextId + 1 }
    let s2 := if tag.isSome then s1.trkAdd d k1 else s1
    (s2.commit k1 d false spill look).commitParts p d spill false r

/-- A packet goes out of port `d` (R113, R118, R120, R264, R362, R365, R368, R376). -/
def portPass (s : State) (p : Packet) (d : Nat) : State :=
  let np := nonPosted p.tlp
  let pf := s.pfEligible p d
  let npw := p.attr.npw && isWrite p.tlp
  let parts := sendParts p
  let q := queueOf d p.tlp.tc
  let closed := p.tlp.kind != .cpl && s.partFatal (s.portPart d) && s.portPart d != p.part
  let owner := if npw then Owner.npw p.id else if p.forbidden && np && (engOf p).isNone then Owner.split p.id else p.owner
  let p0 := { p with owner := owner }
  let used := (s.trk.filter fun e => e.port == d).length
  if s.noTraffic d || closed then s.passDown p
  else if pf then
    if s.earlierPosted p.ini p.id || s.pfFull p then s
    else if s.tagOrphan d [(p.tlp.rid, p.tlp.tag)] then s.waitOnce p 4 fun t => t.addF pgFWD FWD_REAP_CNT1.TAG_WAIT
    else
      match s.engineTag p with
      | none => s
      | some p0 =>
      let (s1, p1) := s.pass p0 0
      let (s2, smp) := s1.samplePass p1 none false
      ((s2.packetOut { p1 with sample := smp } 2).pfRead p1 d)
  else
    match s.roomFor q (parts.map fun t => cellsOf (tlpBytes t)).sum with
    | .wait b => s.waitRoom p b
    | room =>
      let tracked := np || npw
      match (if tracked then s.sendTags p0 d parts.length [] else some []) with
      | none => s
      | some tags =>
        if tracked && decide (8192 < used + parts.length) then s
        else if tracked && s.tagOrphan d (if p.owner == .requester then (p.tlp.rid, p.tlp.tag) :: tags else tags) then s.waitOnce p 4 fun t => t.addF pgFWD FWD_REAP_CNT1.TAG_WAIT
        else
          let (s1, p2) := s.pass p parts.length
          let p1 := { p2 with owner := owner }
          let s2 : State := { s1 with
            npw := if npw then s1.npw ++ [{ id := p.id, pkt := { p1 with owner := p.owner }, left := parts.length, failed := false }] else s1.npw
            splits := if owner = Owner.split p.id then
                s1.splits ++ [{ id := p.id, pkt := { p1 with owner := p.owner }, left := parts.length, failed := false }] else s1.splits }
          let s3 := s2.onlyIf (needsWr p.tlp) fun t => t.pfWrite d p.tlp
          let pairs := if tracked then (parts.zip tags).map fun x => (x.1, some x.2) else parts.map fun t => (t, none)
          (s3.commitParts p1 d (room == .spill) true pairs).dmaPassed p

/-! ## The fabric -/

/-- A packet goes to another 9160 (R98, R297): numbered when it originates here, as it stands when it is in transit or a replay. -/
def fabricPass (s : State) (p : Packet) (fea : Nat) : State :=
  match s.fabPort p.ing p.tlp.tc (fea / 4096) with
  | none => s.passDown p
  | some x =>
    let own := s.toNumber p
    let t := (sendParts { p with attr := { p.attr with npw := false } }).headD p.tlp
    let p0 := { p with tlp := t }
    let q := queueOf x t.tc
    let np := nonPosted t && p.fab.isNone
    match s.roomFor q (if own then cellsOf (copyBytes p0) else p.ncell) with
    | .wait b => s.waitRoom p b
    | room =>
      if own && !s.storeRoom p.cell0 p0 then s.waitOnce p 2 fun u => u.fire (pgFTX p.cell0) 2 p.part (faultPort p)
      else
        match (if np then s.sendTags p0 66 1 [] else some []) with
        | none => s
        | some tags =>
          if np && s.tagOrphan 66 tags then s.waitOnce p 4 fun u => u.addF pgFWD FWD_REAP_CNT1.TAG_WAIT
          else
            let (s1, p1) := s.pass { p0 with ncell := p.ncell } 1
            let t1 := match tags.head? with
              | some y => { p1.tlp with rid := y.1, tag := y.2 }
              | none => p1.tlp
            let p2 := { p1 with tlp := t1, queue := q }
            let (s2, p3) := if own then s1.numberPacket p2 fea 1 0 else (s1, p2)
            let s3 := if np then s2.trkAdd 66 p3 else s2
            (s3.commit p3 x false (room == .spill) true).dmaPassed p

/-! ## Multicast (R103 to R106) -/

/-- Fabric devices of a multicast write; none for one that came over FFL (R104). -/
def mcastDevs (s : State) (p : Packet) (g : Nat) : List Nat :=
  if p.fab.isSome || decide (64 ≤ g) then []
  else (List.range 16).filter fun d => bitAt (s.getF pgFWD FWD_MCG_CTL.FDMASK g) d && d != s.getF pgFWD FWD_CTL.FDID

/-- End points of a write grow by `n` as a copy is cut into parts. -/
def moreCopies (s : State) (grp n : Nat) : State :=
  { s with openW := s.openW.map fun w => if w.pkt = grp then { w with left := w.left + n } else w }

/-- MC_Overlay_BAR of an upstream port's bridge replaces the upper address bits of a write of a Multicast group (R105). -/
def mcOverlay (s : State) (p : Packet) (d : Nat) (t : Tlp) : Tlp :=
  let b := (s.port d).br
  let n := b.mcOverlay % 64
  if s.isUp d && p.attr.win.isNone && p.fab.isNone && decide (6 ≤ n)
  then { t with addr := b.mcOverlay / 2 ^ n * 2 ^ n + t.addr % 2 ^ n } else t

/-- One copy to a port: attestation judges it (R563), and the port slot has at the route decision, or does now for a port that joined the group since
(R374). -/
def mcastCopy (s : State) (p : Packet) (g d : Nat) (look : Bool) : State :=
  if s.attBlocked d then (s.missOther p pgTRU 5).onlyIf (isWrite p.tlp) fun t => t.writeDone p.group
  else if !isWrite p.tlp then ({ s with nextId := s.nextId + 1 } : State).commit { p with id := s.nextId, route := .mcast g } d true false look
  else
    let (s1, lost) := match p.mcSeen.find? fun x => x.1 == d with
      | some x => (s, x.2)
      | none => s.mcastJudge p d
    let q := if lost.isEmpty then p else { p with tlp := keepBytes p.tlp (fun a => !lost.contains (a - p.tlp.addr)), forbidden := true }
    if (enabledRuns q.tlp).isEmpty && !lost.isEmpty then s1.writeDone p.group
    else
      let parts := sendParts { q with attr := { q.attr with npw := false } }
      let s2 := (s1.moreCopies p.group (parts.length - 1)).pfWrite d q.tlp
      (parts.foldl (fun (a : State × Bool) t =>
        (({ a.1 with nextId := a.1.nextId + 1 } : State).commit
          { p with id := a.1.nextId, tlp := a.1.mcOverlay p d t, ncell := cellsOf (tlpBytes t), route := .mcast g } d true false a.2, false)) (s2, look)).1

/-- A multicast write passes once every destination queue that can take traffic admits it to SRAM (R106). -/
def mcastPass (s : State) (p : Packet) (g : Nat) : State :=
  let ports := s.mcastPorts p g
  let devs := s.mcastDevs p g
  let closed := fun (d : Nat) => s.partFatal (s.portPart d) && s.portPart d != p.part
  let live := ports.filter fun d => !s.noTraffic d && !closed d
  let far := devs.filterMap fun d => (s.fabPort p.ing p.tlp.tc d).map fun x => (d, x)
  let dead := ports.length - live.length + (devs.length - far.length)
  let fits := fun (x n : Nat) => !s.spilling (queueOf x p.tlp.tc) && s.sramAdmits (queueOf x p.tlp.tc) n
  let ok := (live.all fun d => fits d p.ncell) && (far.all fun x => fits x.2 (cellsOf (copyBytes p)))
  if !ok then s
  else if !far.isEmpty && decide (s.regionSize 4 / 4 < s.storeUsed p.cell0 + far.length * copyBytes p) then
    s.waitOnce p 2 fun t => t.fire (pgFTX p.cell0) 2 p.part (faultPort p)
  else
    let (s1, p1) := s.pass p (ports.length + devs.length)
    let s2 := s1.onlyIf (dead != 0 && isWrite p.tlp) fun t =>
      let t1 := (t.fwdCapture 3 p.part p.ing (fwdReq p) p.orig).fire pgFWD 3 p.part (faultPort p)
      t1.each (List.range dead) fun u _ => u.writeLost p1 1 (pgFWD * 32 + 3)
    let s3 := (live.foldl (fun (a : State × Bool) d => (a.1.mcastCopy p1 g d a.2, false)) (s2, true)).1
    let s4 := s3.each far fun t x =>
      let k := { p1 with id := t.nextId, route := Route.fabric (x.1 * 4096), queue := queueOf x.2 p.tlp.tc, ing := p1.ing }
      let (t1, k1) := ({ t with nextId := t.nextId + 1 } : State).numberPacket k (x.1 * 4096) 3 g
      t1.commit { k1 with route := .mcast g } x.2 true false live.isEmpty
    s4.dmaPassed p

/-! ## The shared window -/

/-- A request to the shared window passes to its engine (R319, R320). -/
def sharedPass (s : State) (p : Packet) : State :=
  if isWrite p.tlp then
    if p.attr.view ≠ 2 && !s.swRoom p then s
    else
      let (s1, p1) := s.pass p 1
      let (s2, smp) := s1.samplePass p1 none false
      (s2.swAccept { p1 with sample := smp }).dmaPassed p
  else
    match s.engineTag p with
    | none => s
    | some p0 =>
      let (s1, p1) := s.pass p0 0
      let (s2, smp) := s1.samplePass p1 none false
      { s2 with packets := s2.packets ++ [{ p1 with place := .window, sample := smp }] }

/-! ## BARs of the services endpoint (R393, R394) -/

/-- Words of an MSI-X table with the bytes that a write changes. -/
def msixWrite (m : Store Word) (off : Nat) (bs : List (Option Byte)) : Store Word :=
  (List.range bs.length).foldl (fun t i => match bs.getD i none with
    | none => t
    | some b =>
      let w := (off + i) / 4
      let v := (storeGet msixWord t w).toNat
      let j := 8 * ((off + i) % 4)
      storeSet msixWord t w (BitVec.ofNat 32 (v - v / 2 ^ j % 256 * 2 ^ j + b.toNat * 2 ^ j))) m

/-- Bytes of an MSI-X table and its Pending Bit Array at `pba`. -/
def msixRead (m : Store Word) (pend : List Nat) (pba off n : Nat) : List Byte :=
  (List.range n).map fun i =>
    let a := off + i
    if pba ≤ a then BitVec.ofNat 8 ((List.range 8).foldl (fun v j => if pend.contains (8 * (a - pba) + j) then v + 2 ^ j else v) 0)
    else BitVec.ofNat 8 ((storeGet msixWord m (a / 4)).toNat / 2 ^ (8 * (a % 4)))

/-- Vectors of a list that are no longer masked. -/
def unmasked (m : Store Word) (l : List Nat) : List Nat := l.filter fun v => !vecMasked m v

/-- A write of BAR4 of PARTk: the MSI-X table; vectors that become unmasked while pending are sent. -/
def bar4Write (s : State) (k off : Nat) (bs : List (Option Byte)) : State :=
  let m := msixWrite (s.part k).msix off (bs.take (0x8000 - off))
  let go := if (s.part k).msixEn && !(s.part k).msixMask then unmasked m (s.part k).msixPending else []
  (s.modPart k fun x => { x with msix := m, msixPending := x.msixPending.filter fun v => !go.contains v }).emitHost k (go.map fun v => .msix k v)

/-- A write of the MSI-X table of an instance's function. -/
def vfMsixWrite (s : State) (i off : Nat) (bs : List (Option Byte)) : State :=
  let m := msixWrite (s.inst i).msix off (bs.take (0x100 - off))
  let go := if (s.inst i).msixEn && !(s.inst i).msixMask then unmasked m (s.inst i).pend else []
  (s.modInst i fun x => { x with msix := m, pend := x.pend.filter fun v => !go.contains v }).emitHost (s.partOfInst i) (go.map fun v => .vfMsix i v)

/-- Bytes of a translation slice as its partition sees them: writes that wait are seen. -/
def sliceRead (s : State) (a n : Nat) : List Byte :=
  s.bar2.foldl (fun l w => (List.range l.length).map fun i =>
    if w.hbm ≤ a + i then (w.data.getD (a + i - w.hbm) none).getD (l.getD i 0) else l.getD i 0) (s.hbmRead a n)

/-- Place in the register space of an offset of a VF's BAR: its control page, or the block of one of its channels (R399, R426). -/
def vfPlace (s : State) (i bar off : Nat) : Option Nat :=
  if bar = 0 then (if off < 0x1000 then some (pgIC i * 4096 + off) else none)
  else
    match (s.instChans i)[off / 4096]? with
    | none => none
    | some ch => if off % 4096 < 96 then some (chPage ch * 4096 + 0x100 + 96 * chIx ch + off % 4096) else none

/-- Bytes of an access of `n` that lie in the block of the channel at an offset of BAR2, or in the control page of BAR0; the others read 0 and ignore
writes (R394, R399). -/
def vfSpan (bar off n : Nat) : Nat := min n (if bar = 0 then 4096 - off % 4096 else 96 - off % 4096)

/-- A write of bytes in a claimed BAR, with the rule of an undefined result it meets; `req` is the request's code. -/
def barWrite (s : State) (r : Route) (bs : List (Option Byte)) (grp : Nat) (req : Nat := 1) : State × Option Nat :=
  match r with
  | .bar k b off =>
    if b = 0 then s.busWrite (.host k) off bs req
    else if b = 2 then
      ({ s with bar2 := s.bar2 ++ [{ part := k, hbm := s.sliceBase k + off, data := bs, pkt := grp, born := s.ticks }] }, none)
    else (s.bar4Write k off bs, none)
  | .vfBar i b off =>
    (match s.vfPlace i b off with
     | some a => s.busWrite (.tenant i) a (bs.take (vfSpan b off bs.length))
     | none => (if b = 0 ∧ 0x1000 ≤ off ∧ off < 0x1100 then s.vfMsixWrite i (off - 0x1000) bs else s, none))
  | .port _ | .shared _ | .fabric _ | .mcast _ | .none => (s, none)

/-- A read of `n` bytes in a claimed BAR. -/
def barRead (s : State) (r : Route) (n : Nat) : State × List Byte :=
  match r with
  | .bar k b off =>
    if b = 0 then s.busRead (.host k) off n
    else if b = 2 then (s, s.sliceRead (s.sliceBase k + off) n)
    else (s, msixRead (s.part k).msix (s.part k).msixPending 0x8000 off n)
  | .vfBar i b off =>
    (match s.vfPlace i b off with
     | some a =>
       let m := vfSpan b off n
       let (t, l) := s.busRead (.tenant i) a m
       (t, l ++ List.replicate (n - m) 0)
     | none => (s, if b = 0 ∧ 0x1000 ≤ off then msixRead (s.inst i).msix (s.inst i).pend 0x800 (off - 0x1000) n else List.replicate n 0))
  | .port _ | .shared _ | .fabric _ | .mcast _ | .none => (s, [])

/-- The same BAR `o` bytes further. -/
def barAt (r : Route) (o : Nat) : Route :=
  match r with
  | .bar k b off => .bar k b (off + o)
  | .vfBar i b off => .vfBar i b (off + o)
  | .port p => .port p
  | .shared h => .shared h
  | .fabric f => .fabric f
  | .mcast g => .mcast g
  | .none => .none

/-- Each run of allowed bytes of a read is read (R376); a read that enables no byte reads none (R373), and meets the checks of its page (R381). -/
def barReadRuns (s : State) (p : Packet) : State × List Byte :=
  if !p.forbidden && !(enabledAddrs p.tlp).isEmpty then s.barRead p.route p.tlp.len
  else if (enabledAddrs p.tlp).isEmpty then
    (match p.route with
     | .bar k b off => (if b = 0 then (s.guardPage (.host k) off false).1 else s)
     | .vfBar _ _ _ | .port _ | .shared _ | .fabric _ | .mcast _ | .none => s, List.replicate p.tlp.len 0)
  else
    ((enabledRuns p.tlp).foldl (fun (t : State) r => (t.barRead (barAt p.route r.1) r.2).1) s, List.replicate p.tlp.len 0)

/-- A fence completes (R334): by DMWr with its status, by read with the word of FENCE, in its place among the registers that a longer read covers,
whose 4 B accesses go in ascending order (R58, R61). -/
def fenceFinish (s : State) (f : FenceOp) : State :=
  let n := min (s.bindAt (f.entry.getD 0)).lost 0xFFFFFF
  if f.dmwr then (s.fenceReport f).fenceAnswer f (if n = 0 then .sc else .rrs) []
  else
    let below := 0x100 - f.off
    let above := f.off + f.len - 0x104
    let (s1, a) := if below = 0 then (s, []) else s.barRead (.vfBar f.inst 0 f.off) below
    let s2 := s1.fenceReport f
    let (s3, b) := if above = 0 then (s2, []) else s2.barRead (.vfBar f.inst 0 0x104) above
    s3.fenceAnswer f .sc ((a ++ leBytes 4 (fenceWord n) ++ b).take f.len)

/-- A request claimed in a BAR is performed as it passes (R63, R330, R376, R394). -/
def barPass (s : State) (p : Packet) : State × Option Nat :=
  let slice := match p.route with
    | .bar _ b _ => b == 2
    | .vfBar _ _ _ | .port _ | .shared _ | .fabric _ | .mcast _ | .none => false
  let (s1, p1) := s.pass p (if slice then 1 else 0)
  let (s2, smp) := s1.samplePass p1 none false
  let s3 := s2.packetOut { p1 with sample := smp } 2
  if isFence p then
    match p.route with
    | .vfBar i _ off => (s3.fenceStart p1 i off, none)
    | .bar _ _ _ | .port _ | .shared _ | .fabric _ | .mcast _ | .none => (s3, none)
  else if p.tlp.kind == .mwr then s3.barWrite p.route (writeBytes p.tlp) p.group
  else if p.tlp.kind == .dmwr then
    match s3.barWrite p.route (writeBytes p.tlp) p.group 3 with
    | (s4, none) => (s4.reply p1 .sc [], none)
    | (s4, some n) => (s4, some n)
  else if p.tlp.kind == .mrd then
    let (s4, data) := s3.barReadRuns p
    (s4.reply p1 .sc data, none)
  else (s3.refuse p1, none)

/-! ## Completions over the fabric (R102, R304) -/

/-- A completion of a request that a block of the 9160 issued or keeps (R97): the answer to a request that arrived over the fabric goes on as it
comes; any other owner gets all the data with the last completion. -/
def blockCpl (s : State) (e : TrkEntry) (c : Tlp) : State :=
  let last := lastCpl e.pkt.tlp c
  match e.pkt.owner with
  | .fabric n =>
    (s.onlyIf last fun t => t.trkDrop e).frtReply n { c with data := pieceToRequester e.pkt (cplOffset e.pkt.tlp c) c.data } last
  | .requester | .npw _ | .split _ | .prefetch _ | .dma _ _ _ | .dmaList _ _ _ | .load _ =>
    let all := e.got ++ c.data
    let s1 : State := match e.pkt.owner with
      | .prefetch b => { s with pf := s.pf.map fun x => if x.id == b then { x with cid := c.cid } else x }
      | .requester | .npw _ | .split _ | .fabric _ | .dma _ _ _ | .dmaList _ _ _ | .load _ => s
    if last then (s1.trkDrop e).reply e.pkt c.status (backToRequester e.pkt all) (e.poison || c.poisoned)
    else { s with trk := s.trk.map fun x =>
      if x.port == e.port && x.rid == e.rid && x.tag == e.tag then { x with got := all, poison := x.poison || c.poisoned } else x }

/-- Lower Address of a completion in the requester's byte order (R359). -/
def cplLow (p : Packet) (c : Tlp) : Nat :=
  if p.attr.swap = 0 ∨ p.tlp.kind ≠ .mrd then c.low
  else if cplOffset p.tlp c = 0 then p.reqAddr % 128 else (p.tlp.addr + cplOffset p.tlp c) % 128

/-- The completion data of a request whose result R387 leaves undefined is free. -/
def taintCpl (s : State) (p : Packet) (c : Tlp) : State × Tlp :=
  if p.taint then ({ s with free := s.free + 1 }, { c with data := freeBytesN s.free c.data.length }) else (s, c)

/-- A completion on its way to the requester of the request it answers (R359): under the request's own tag, in the requester's byte order. -/
def cplFor (e : TrkEntry) (c : Tlp) : Tlp :=
  { c with rid := (match e.pkt.ini with
             | .port _ rid _ => rid
             | .fabric _ _ _ _ | .cxl _ | .chan _ | .block _ => c.rid)
           data := pieceToRequester e.pkt (cplOffset e.pkt.tlp c) c.data
           low := cplLow e.pkt c }

/-- Port by which a completion returns to the requester (R96), in the partition of the port that the request came in by (R101). -/
def cplPort (s : State) (e : TrkEntry) : Option Nat :=
  match e.pkt.ini with
  | .port q rid _ => s.routeId (s.portPart q) rid
  | .fabric _ _ _ _ | .cxl _ | .chan _ | .block _ => none

/-- A completion that the fabric brought: it answers the request that went out, or is unexpected (R97, R264, R368). -/
def fabricCpl (s : State) (p : Packet) : State :=
  match s.trk.find? fun e => e.port == 66 && e.rid == p.tlp.rid && e.tag == p.tlp.tag && e.pkt.part == p.part with
  | none => (s.pass p 0).1.fire pgFWD 5 p.part 63
  | some e =>
    if e.orphan.isSome then
      let s1 := ((s.pass p 0).1.trkDrop e).addF pgFWD FWD_REAP_CNT1.ORPHAN_CPL
      s1.onlyIf (s1.stale e.pkt) fun t => t.addF pgVIM VIM_CNT.STALE
    else
      match e.pkt.owner, e.pkt.ini with
      | .requester, .port _ _ _ =>
        let done := fun (t : State) => t.onlyIf (lastCpl e.pkt.tlp p.tlp) fun u => u.trkDrop e
        (match s.cplPort e with
         | none => done (s.pass p 0).1
         | some d =>
           let (s0, c) := s.taintCpl e.pkt p.tlp
           let s1 := s0.portPass { p with tlp := cplFor e c, route := .port d } d
           if (s1.packets.any fun x => x.id == p.id && x.place == Place.ingress) then s1 else done s1)
      | _, _ => (s.pass p 0).1.blockCpl e p.tlp

/-! ## The head of a class -/

/-- Oldest packet of an ingress and flow-control class that has not passed (R112). -/
def ingressHead (s : State) (ing cls : Nat) : Option Packet :=
  s.packets.find? fun p => (p.place == Place.ingress || p.place == Place.walk) && p.ing == ing && tlpCls p.tlp == cls

/-- A request is turned away at the ordering point. -/
def turnAway (s : State) (p : Packet) (status : CplStatus) : State :=
  let s1 := s.leaveIngress p
  if nonPosted p.tlp then s1.stopReq p status 6 else s1

/-- A write of a BROKEN stream through a window that is not IDEMPOTENT (R503). -/
def brokenWrite (s : State) (p : Packet) : Bool :=
  isWrite p.tlp && decide (p.ing < 64) && !p.attr.idem && (match s.keyOf p.ini with
    | some k => (s.mirStream k).any (·.broken)
    | none => false)

/-- A covered write waits for the mirror (R493, R495, R503): the state with MIR_TXQ_FULL where that is the cause. A write of a stream under replay waits
whether or not the new active has a partner (DEDUCED, log 56). -/
def mirrorWaits (s : State) (p : Packet) : Option State :=
  match s.mirroredKey p with
  | none => none
  | some k =>
    if s.replayAhead p k then some s
    else if !s.mirroring then none
    else if (s.mirStream k).isNone && decide (8192 ≤ s.mir.streams.length) then some (s.waitOnce p 3 fun t => t.fire pgMIR 7 p.part (faultPort p))
    else if 4194304 < s.mirQueued + mirBytes (coverRecord p k) then some (s.waitOnce p 3 fun t => t.fire pgMIR 7 p.part (faultPort p))
    else none

/-- A non-posted arrival over the fabric goes on under an entry of the fabric request table (R304); none while the table is full. -/
def frtTake (s : State) (p : Packet) : Option (State × Packet) :=
  match p.fab with
  | none => some (s, p)
  | some h =>
    if !(arrives p) || !(nonPosted p.tlp) || p.owner != .requester then some (s, p)
    else
      let used := s.frt.map (·.entry)
      match freeTag (4096 * p.cell0) 4096 used with
      | none => none
      | some n =>
        let e : FrtEntry := { cellar := p.cell0, entry := n, fdid := h.src, srcCellar := h.cellar, part := h.part, rid := p.tlp.rid,
                              tag := p.tlp.tag, localPart := p.part, born := s.ticks, tc := p.tlp.tc, ro := p.tlp.ro, ido := p.tlp.ido }
        some ({ s with frt := s.frt ++ [e] },
          { p with owner := .fabric n, tlp := { p.tlp with rid := (s.part p.part).pfRid, tag := n } })

/-- The packet still waits before the ordering point. -/
def stillWaits (s : State) (p : Packet) : Bool := s.packets.any fun x => x.id == p.id && x.place == Place.ingress

/-- An access to BAR registers waits for those that came before it (R63). -/
def barAhead (s : State) (p : Packet) : Bool :=
  let regs := fun (r : Route) => match r with
    | .bar _ b _ => b == 0
    | .vfBar _ _ _ => true
    | .port _ | .shared _ | .fabric _ | .mcast _ | .none => false
  regs p.route && (s.packets.takeWhile (·.id != p.id)).any fun x => x.place == Place.ingress && x.ing == p.ing && regs x.route

/-- A CXL.mem request of a port one of whose HDM decoders maps an address beyond the end of the shared window region (R353). It is judged, as R128 is, when a
request meets it: any CXL.mem request of that port, not only one past the end (DESIGN CHOICE, log 80). -/
def hdmPast (s : State) (p : Packet) : Bool :=
  match p.ini with
  | .cxl q => (s.port q).br.hdm.any fun d => decide (0 < d.2.1 ∧ s.regionSize 1 < d.2.2 + d.2.1)
  | .port _ _ _ | .fabric _ _ _ _ | .chan _ | .block _ => false

/-- A routed packet whose turn it is goes on, or waits. The answer names the rule of an undefined result that it meets (R127, R128,
R353); R128 speaks of SHARED windows, and an access past the region's end by another way is taken as its case (DESIGN CHOICE, log 80). -/
def passRoute (s : State) (p : Packet) : State × Option Nat :=
  match p.route with
  | .port d => if s.isFfl d then (s, some 127) else (s.portPass p d, none)
  | .fabric fea => (s.fabricPass p fea, none)
  | .mcast g =>
    if g < 64 && (List.range 64).any (fun d => bitAt (s.getF pgFWD FWD_MCG_MASK.PORTS g) d && s.isFfl d) then (s, some 127)
    else (s.mcastPass p g, none)
  | .shared h =>
    if s.hdmPast p then (s, some 353)
    else if s.regionBase 1 + s.regionSize 1 < h + max 1 p.tlp.len then (s, some 128) else (s.sharedPass p, none)
  | .bar _ _ _ => s.barPass p
  | .vfBar _ _ _ => s.barPass p
  | .none => (if p.tlp.kind == .cpl && p.fab.isSome then s.fabricCpl p else s.leaveIngress p, none)

/-- The packet of one part may go on by cut-through to port `d` (R113, R118). -/
def cutGoes (s : State) (p : Packet) (d n : Nat) : Bool :=
  let q := queueOf d p.tlp.tc
  !s.noTraffic d && (s.inQueue q).isEmpty && s.inL0 d && s.feedsFast p.ing d && s.sramAdmits q n
    && ((s.coveredKey p).isNone || !bitAt (s.getF pgMIR MIR_PSYNC.PARTS) p.part)

/-- A packet that will prove bad goes on by cut-through where it may (R113), and has no other effect; found bad first, it is discarded. One
that its own link cut off stays for the link's count (R115). Over the fabric it goes under its stream's next number, which it does not use up: its end
is nullified, and no receiver takes it (DESIGN CHOICE, log 35). -/
def badPass (s : State) (p : Packet) : State :=
  if s.foundBad p then (if (s.port p.ing).cleanup then s else s.dropPacket p.id)
  else
    match p.route with
    | .port d =>
      let t := (sendParts p).headD p.tlp
      let k := { p with tlp := t, ncell := if t = p.tlp then p.ncell else cellsOf (tlpBytes t) }
      if !s.isFfl d && s.cutGoes k d k.ncell then (s.dropPacket p.id).commit k d false false false else s
    | .fabric fea =>
      (match s.fabPort p.ing p.tlp.tc (fea / 4096) with
       | none => s
       | some d =>
         let k := if s.toNumber p then (s.numberPacket p fea 1 0).2 else p
         if s.cutGoes p d k.ncell then (s.dropPacket p.id).commit k d false false false else s)
    | .shared _ | .mcast _ | .bar _ _ _ | .vfBar _ _ _ | .none => s

/-- The head of an ingress and class passes the ordering point if it may (R111, R112, R299, R304, R315, R469, R487, R493); none of a port whose link
is down and whose ingress waits to be discarded (Tables 7.13 and 8.9). -/
def ingressPass (s : State) (p : Packet) : State × Option Nat :=
  let through := match p.route with
    | .port _ | .fabric _ => true
    | .shared _ | .mcast _ | .bar _ _ _ | .vfBar _ _ _ | .none => false
  let early := match p.acc with
    | [] => false
    | a :: l => decide (s.fabric < (if through then a else l.getLastD a) + 30)
  let window := match p.route with
    | .shared _ => !isWrite p.tlp
    | .port _ | .fabric _ | .mcast _ | .bar _ _ _ | .vfBar _ _ _ | .none => false
  let ahead := ((window || isFence p) && s.earlierPosted p.ini p.id) || s.barAhead p
  let held := match p.fab with
    | some h => arrives p && (!s.pbarMet h || !s.streamTurn p h)
    | none => false
  if p.place == Place.walk || early || ahead || held then (s, none)
  else if p.bad then (s.badPass p, none)
  else if decide (p.ing < 64) && (s.port p.ing).cleanup then (s, none)
  else if s.devFatal && !fatalAdmits p then (if p.tlp.kind == .cpl then s else s.turnAway p .ca, none)
  else if s.standby && !standbyAdmits p then
    (((s.turnAway p .ur).onlyIf (isWrite p.tlp) fun t => t.aerPort p.ing).fire pgMIR 9 p.part (faultPort p), none)
  else if s.brokenWrite p then (((s.leaveIngress p).aerPort p.ing).fire pgMIR 6 p.part (faultPort p), none)
  else
    match s.mirrorWaits p with
    | some t => (t, none)
    | none =>
      match s.frtTake p with
      | none => (s, none)
      | some (s1, p1) =>
        let (s2, u) := s1.passRoute p1
        if s2.stillWaits p then ({ s2 with frt := s.frt }, u) else (s2, u)

end State

/-! ## Commands -/

/-- FENCE_COMPLETE (R332): fence `index` completes once its covered writes are resolved. -/
def execFenceComplete (index : Nat) (s : State) : Res :=
  match s.fences[index]? with
  | none => s.done
  | some f => if s.fenceReady f then (s.fenceFinish f).done else s.done

/-- INGRESS_ORDER_PASS (R111): the oldest packet of class `cls` (0 posted, 1 non-posted, 2 completion) of port `ing`, or of the internal
requester of Cellar `ing` − 64, that waits at the ordering point. -/
def execIngressOrderPass (ing cls : Nat) (s : State) : Res :=
  if s.cellarRun (if ing < 64 then cellarOf ing else ing - 64) = false then s.done
  else
    match s.ingressHead ing cls with
    | none => s.done
    | some p => accessEnd (s.ingressPass p)

end Sys2Proof.Machine
end

