-- ==== Sys2Proof/Machine/ConfigSpace.lean ====
section
/-! DEFINITION. Configuration requests (R96) and what they read and write: the virtual bridges of a partition's ports (R90, R96, R105, R108, R237,
R241, R242), its services bridge, and the functions of its Felura Services Endpoint (R391 to R395). -/

namespace Sys2Proof.Machine

/-- A function that a configuration request reaches: the virtual bridge of a port, the services bridge of PARTk, its physical function, the virtual
function of instance `i`. -/
inductive CfgFn where
  | bridge (p : Nat)
  | services (k : Nat)
  | phys (k : Nat)
  | virt (k i : Nat)
  deriving DecidableEq, Repr

/-- Fields of a register, each as its lowest bit, its width and its value, over bits that the spec leaves open. -/
def fillFields (free : Nat) : List (Nat × Nat × Nat) → Nat
  | [] => free % 2 ^ 32
  | (lo, w, v) :: r =>
    let x := fillFields free r
    x - x / 2 ^ lo % 2 ^ w * 2 ^ lo + v % 2 ^ w * 2 ^ lo

/-- One bit of a register. -/
def bitField (lo : Nat) (b : Bool) : Nat × Nat × Nat := (lo, 1, b.toNat)

/-- Code of a size of Device Control: 128 B is 0, 4,096 B is 5. -/
def sizeCode (n : Nat) : Nat := if 4096 ≤ n then 5 else if 2048 ≤ n then 4 else if 1024 ≤ n then 3 else if 512 ≤ n then 2 else if 256 ≤ n then 1 else 0

/-- A word of a Type 1 header by its offset: the command register, class code 06_0400, header type 1, no BARs, bus numbers, no I/O window, memory and
prefetchable windows of 1 MiB granularity. -/
def type1Fields (b : BridgeCfg) (off : Nat) : List (Nat × Nat × Nat) :=
  if off = 0x00 then [(0, 16, Config.vendorId)]
  else if off = 0x04 then [bitField 0 false, bitField 1 b.memEn, bitField 2 b.bme, bitField 20 true]
  else if off = 0x08 then [(8, 24, 0x060400)]
  else if off = 0x0C then [(16, 7, 1), (24, 8, 0)]
  else if off = 0x18 then [(0, 8, b.priBus), (8, 8, b.secBus), (16, 8, b.subBus), (24, 8, 0)]
  else if off = 0x1C then [(0, 16, 0)]
  else if off = 0x20 then [(0, 4, 0), (4, 12, b.memBase / 2 ^ 20), (16, 4, 0), (20, 12, b.memLimit / 2 ^ 20)]
  else if off = 0x24 then [(0, 4, 1), (4, 12, b.pfBase / 2 ^ 20), (16, 4, 1), (20, 12, b.pfLimit / 2 ^ 20)]
  else if off = 0x28 then [(0, 32, b.pfBase / 2 ^ 32)]
  else if off = 0x2C then [(0, 32, b.pfLimit / 2 ^ 32)]
  else if off = 0x34 then [(8, 24, 0)]
  else if off = 0x3C then []
  else [(0, 32, 0)]

/-- A half of a 64-bit non-prefetchable BAR; one that is not enabled holds 0. -/
def barFields (b : Option Nat) (high : Bool) : List (Nat × Nat × Nat) :=
  if high then [(0, 32, b.getD 0 / 2 ^ 32)] else [(0, 32, b.getD 0 % 2 ^ 32 / 16 * 16 + 4)]

/-- A BAR value: 0 is a BAR that is not enabled. -/
def barOf (v : Nat) : Option Nat := if v = 0 then none else some v

/-- A BAR with one half replaced, its address a multiple of its size. -/
def barHalf (b : Option Nat) (size : Nat) (high : Bool) (v : Nat) : Option Nat :=
  let old := b.getD 0
  let new := if high then v % 2 ^ 32 * 2 ^ 32 + old % 2 ^ 32 else old / 2 ^ 32 * 2 ^ 32 + v % 2 ^ 32
  if size = 0 then none else barOf (new / size * size)

namespace State

/-! ## Capability registers

The spec places none of them but the shared window DVSEC: register `r` of the lists below stands at `Config.capReg` of its number (log 30). -/

/-- Number of capability registers that the model gives contents. -/
def capCount : Nat := 48

/-- Registers of a bridge's capability structures: 0 Device Capabilities, 1 Device Control, 2 Link Capabilities, 3 Slot Capabilities, 4 Device
Capabilities 2, 5 Device Control 2, 6 Link Capabilities 2, 7 Device Capabilities 3, 8 ACS Capability and Control, 9 and 10 Egress Control Vector,
11 Multicast Capability and Control, 12 to 21 its base, receive, block and overlay registers, 22 DPC Capability, 23 PTM Capability, 24 Margining Port
Capabilities and Status, 25 to 27 AER Uncorrectable Error Status, Mask and Severity, and the headers of the extended capabilities: 28 AER, 29 ACS,
30 Multicast, 31 DPC, 32 PTM, 33 Lane Margining, 34 IDE. A field of a feature that R11 rules out reads 0. -/
def bridgeCap (s : State) (p r : Nat) : List (Nat × Nat × Nat) :=
  let b := (s.port p).br
  let down := s.isDown p
  let up := s.isUp p
  let rate := s.getF (pgLNK p) LNK_CFG.MAXRATE
  let hp := down && s.flag (pgLNK p) LNK_SLOT.HP_EN
  let half := fun (v : Nat) (hi : Bool) => [((0 : Nat), (32 : Nat), if hi then v / 2 ^ 32 else v)]
  let head := fun (id : Nat) => [((0 : Nat), (16 : Nat), id)]
  if r = 0 then [(0, 3, 5), bitField 5 true, bitField 15 true, bitField 28 false]
  else if r = 1 then [bitField 15 false]
  else if r = 2 then [(0, 4, rate + 1), (4, 6, 2 ^ s.getF (pgLNK p) LNK_CFG.WIDTH), (10, 2, 2), bitField 19 down]
  else if r = 3 then
    (if hp then [bitField 1 true, bitField 2 false, bitField 3 true, bitField 4 true, bitField 5 true, bitField 6 true, bitField 17 false,
                 (19, 13, s.getF (pgLNK p) LNK_SLOT.SLOT)] else [(0, 32, 0)])
  else if r = 4 then [bitField 5 down, bitField 6 true, bitField 7 true, bitField 8 true, bitField 9 true, bitField 11 false, (12, 2, 0), (14, 2, 0), bitField 16 true,
    bitField 17 true, (18, 2, 0), (24, 2, 0), bitField 31 false]
  else if r = 5 then [bitField 5 (down && b.ariFwd), bitField 10 false, (13, 2, 0)]
  else if r = 6 then [(1, 7, 2 ^ (rate + 1) - 1), (9, 7, 0), (16, 7, 0)]
  else if r = 7 then [bitField 0 true, bitField 1 true, bitField 2 true, bitField 3 true]
  else if r = 8 then (if down then [(0, 7, 0x7F), (7, 1, 0), (8, 8, 64), (16, 7, b.acs), (23, 9, 0)] else [])
  else if r = 9 ∨ r = 10 then (if down then half b.egressVec (r == 10) else [])
  else if 11 ≤ r ∧ r ≤ 21 then
    (if !up then []
     else if r = 11 then [(0, 6, 63), (16, 6, b.mcNum), bitField 31 b.mcEn]
     else if r = 12 then [(0, 6, b.mcShift), (12, 20, b.mcBase / 2 ^ 12)]
     else if r = 13 then half b.mcBase true
     else if r ≤ 15 then half b.mcReceive (r == 15)
     else if r ≤ 17 then half b.mcBlock (r == 17)
     else if r ≤ 19 then half b.mcBlockUntr (r == 19)
     else if r = 20 then [(0, 6, b.mcOverlay), (6, 26, b.mcOverlay / 2 ^ 6)]
     else half b.mcOverlay true)
  else if r = 22 then (if down then [bitField 5 false, bitField 6 true] else [])
  else if r = 23 then [bitField 0 up, bitField 1 down]
  else if r = 24 then [bitField 0 false, bitField 16 (s.inL0 p)]
  else if r = 25 then [(0, 32, b.aerSts)]
  else if r = 26 then [(0, 32, b.aerMask)]
  else if r = 27 then [(0, 32, b.aerSev)]
  else if r = 28 then head 0x01
  else if r = 29 then (if down then head 0x0D else [])
  else if r = 30 then (if up then head 0x12 else [])
  else if r = 31 then (if down then head 0x1D else [])
  else if r = 32 then head 0x1F
  else if r = 33 then head 0x27
  else if r = 34 then head 0x30
  else []

/-- Registers of the physical function's capability structures: 0 Device Capabilities, 1 Device Control, 4 Device Capabilities 2, 7 Device
Capabilities 3, 24 MSI-X Message Control, 25 SR-IOV Control, 26 InitialVFs and TotalVFs, 27 NumVFs; First VF Offset, VF Device ID and page sizes
follow at 11 to 13 of the list, PTM at 23; 28 and 29 place the MSI-X table and its Pending Bit Array, 30 to 33 are the VF BARs, 34 the ARI
Capability, 35 to 39 the AER registers, 40 to 43 the headers of ARI, SR-IOV, AER and PTM. -/
def physCap (s : State) (k r : Nat) : List (Nat × Nat × Nat) :=
  let p := s.part k
  let n := s.getF pgVIM VIM_PALLOC.COUNT k
  let head := fun (id : Nat) => [((0 : Nat), (16 : Nat), id)]
  if r = 0 then [(0, 3, 5), bitField 5 true, bitField 15 true, bitField 28 true]
  else if r = 1 then [(5, 3, sizeCode p.maxPay), (12, 3, sizeCode p.maxRead)]
  else if r = 4 then [bitField 5 false, bitField 6 false, bitField 11 false, (12, 2, 0), (14, 2, 0), bitField 16 true, bitField 17 true, (18, 2, 0),
    (24, 2, 0), bitField 31 false]
  else if r = 7 then [bitField 1 true, bitField 2 true]
  else if r = 11 then [(0, 16, 1), (16, 16, 1)]
  else if r = 12 then [(16, 16, 0x9161)]
  else if r = 13 then [(0, 32, 1)]
  else if r = 23 then [bitField 0 true]
  else if r = 24 then [(0, 8, 0x11), (16, 11, 2047), bitField 30 p.msixMask, bitField 31 p.msixEn]
  else if r = 25 then [bitField 0 p.vfEnable, bitField 3 p.vfMemEn]
  else if r = 26 then [(0, 16, n), (16, 16, n)]
  else if r = 27 then [(0, 16, p.numVfs)]
  else if r = 28 then [(0, 32, 4)]
  else if r = 29 then [(0, 32, 0x8000 + 4)]
  else if r = 30 then barFields p.vfBar0 false
  else if r = 31 then barFields p.vfBar0 true
  else if r = 32 then barFields p.vfBar2 false
  else if r = 33 then barFields p.vfBar2 true
  else if r = 34 then [bitField 0 false, bitField 1 false, (8, 8, 0)]
  else if r = 35 then [bitField 22 p.aerUnc]
  else if r = 36 then [bitField 22 p.aerUncMask]
  else if r = 37 then [bitField 22 false]
  else if r = 38 then [bitField 14 p.aerCor]
  else if r = 39 then [bitField 14 p.aerCorMask]
  else if r = 40 then head 0x0E
  else if r = 41 then head 0x10
  else if r = 42 then head 0x01
  else if r = 43 then head 0x1F
  else []

/-- Fields of a word beyond the header: those of the capability register that stands there, none that the spec fixes where a register stands that the
model does not name, and 0 where none stands, as PCI Express prescribes (log 30). -/
def capWord (f : Nat → List (Nat × Nat × Nat)) (off : Nat) : List (Nat × Nat × Nat) :=
  match (List.range capCount).find? fun r => Config.capReg r == off && !(f r).isEmpty with
  | some r => f r
  | none => if Config.capHeld off then [] else [(0, 32, 0)]

/-! ## The shared window DVSEC (R395) -/

/-- SHARED windows that the DVSEC of PARTk's function describes, rising (R395). -/
def dvsecWindows (s : State) (k : Nat) : List Win :=
  (s.configWindows.map s.configWindow).filter fun w => w.kind == 4 && (w.part == k || w.part == 31)

/-- A word of the shared window DVSEC (Table 11.2); none beyond it. -/
def dvsecWord (s : State) (k off : Nat) : Option Nat :=
  let l := s.dvsecWindows k
  let j := (s.part k).dvsecIdx
  let w := l[j]?
  let get := fun (f : Win → Nat) => (w.map f).getD 0
  if off = 4 then some (Config.vendorId % 65536 + 0x28 * 2 ^ 20)
  else if off = 8 then some 1
  else if off = 0x0C then some (l.length % 2 ^ 14)
  else if off = 0x10 then some (j % 2 ^ 13)
  else if off = 0x14 then some (get fun x => 2 ^ 31 + 2 ^ 30 + x.attr / 2 ^ 28 % 2 * 2 ^ 29 + x.attr / 2 ^ 26 % 4 * 2 ^ 27 + x.num % 2 ^ 13)
  else if off = 0x18 then some (get fun x => x.base % 2 ^ 32)
  else if off = 0x1C then some (get fun x => x.base / 2 ^ 32)
  else if off = 0x20 then some (get fun x => x.limit % 2 ^ 32)
  else if off = 0x24 then some (get fun x => x.limit / 2 ^ 32)
  else none

/-! ## Reads -/

/-- Header and capability fields of the services bridge: a Type 1 function without a port (R391). -/
def servicesBridge (s : State) (k : Nat) : BridgeCfg :=
  let up := ((s.upPort k).map fun u => (s.port u).br.secBus).getD 0
  { BridgeCfg.init with priBus := up, secBus := (s.part k).pfRid / 256, subBus := (s.part k).svcSub, memEn := true }

/-- Fields of a word of the physical function (R391 to R393, R395). -/
def physFields (s : State) (k off : Nat) : List (Nat × Nat × Nat) :=
  let p := s.part k
  if off = 0x00 then [(0, 16, Config.vendorId), (16, 16, 0x9160)]
  else if off = 0x04 then [bitField 0 false, bitField 1 p.memEn, bitField 2 p.busMaster, bitField 20 true]
  else if off = 0x08 then [(8, 24, 0x088000)]
  else if off = 0x0C then [(16, 7, 0), (24, 8, 0)]
  else if off = 0x10 then barFields p.bar0 false
  else if off = 0x14 then barFields p.bar0 true
  else if off = 0x18 then (if s.sliceSize k = 0 then [(0, 32, 0)] else barFields p.bar2 false)
  else if off = 0x1C then (if s.sliceSize k = 0 then [(0, 32, 0)] else barFields p.bar2 true)
  else if off = 0x20 then barFields p.bar4 false
  else if off = 0x24 then barFields p.bar4 true
  else if off = 0x28 ∨ off = 0x30 ∨ off = 0x38 then [(0, 32, 0)]
  else if off = 0x34 then [(8, 24, 0)]
  else if off < 0x40 then []
  else if off = 0x400 then [(0, 16, 0x23)]
  else match s.dvsecWord k (off - 0x400) with
    | some v => if 0x400 < off then [(0, 32, v)] else capWord (s.physCap k) off
    | none => capWord (s.physCap k) off

/-- Fields of a word of a virtual function: its IDs read all ones and its BARs 0 as PCI Express prescribes for SR-IOV. -/
def virtFields (s : State) (k i off : Nat) : List (Nat × Nat × Nat) :=
  if off = 0x00 then [(0, 32, 0xFFFFFFFF)]
  else if off = 0x04 then [bitField 0 false, bitField 1 false, bitField 20 true]
  else if off = 0x08 then [(8, 24, 0x088000)]
  else if off = 0x0C then [(16, 7, 0), (24, 8, 0)]
  else if off < 0x2C ∨ off = 0x30 ∨ off = 0x38 then [(0, 32, 0)]
  else if off = 0x34 then [(8, 24, 0)]
  else if off < 0x40 then []
  else capWord (fun r => if r = 24 then [(0, 8, 0x11), (16, 11, 15), bitField 30 (s.inst i).msixMask, bitField 31 (s.inst i).msixEn]
    else if r = 28 then [(0, 32, 0x1000)]
    else if r = 29 then [(0, 32, 0x1800)]
    else if r = 0 ∨ r = 4 ∨ r = 7 then s.physCap k r else []) off

/-- A word of a function's configuration space: what the spec and PCI Express fix, over a free value for what they leave open. -/
def cfgWord (s : State) (fn : CfgFn) (off : Nat) : State × Nat :=
  let l := match fn with
    | .bridge p => if off < 0x40 then type1Fields (s.port p).br off else capWord (s.bridgeCap p) off
    | .services k => if off < 0x40 then type1Fields (s.servicesBridge k) off else capWord (fun _ => []) off
    | .phys k => s.physFields k off
    | .virt k i => s.virtFields k i off
  let (x, s1) := s.draw
  (s1, fillFields x l)

/-! ## Writes (R90, R96, R105, R108, R242, R349, R392 to R395) -/

/-- Decoder `i` of a port changes (R349). -/
def setHdm (x : BridgeCfg) (i : Nat) (f : Nat × Nat × Nat → Nat × Nat × Nat) : BridgeCfg :=
  if 4 ≤ i then x
  else
    let l := x.hdm ++ List.replicate (4 - x.hdm.length) (0, 0, 0)
    { x with hdm := l.set i (f (l.getD i (0, 0, 0))) }

/-- MSI-X Message Control of PARTk's function: bit 0 Function Mask, bit 1 MSI-X Enable; vectors that become unmasked while pending are sent (R69). -/
def msixControl (s : State) (k v : Nat) : State :=
  let s1 := s.modPart k fun x => { x with msixMask := bitAt v 0, msixEn := bitAt v 1 }
  let go := if bitAt v 1 && !bitAt v 0 then unmasked (s1.part k).msix (s1.part k).msixPending else []
  (s1.modPart k fun x => { x with msixPending := x.msixPending.filter fun n => !go.contains n }).emitHost k (go.map fun n => .msix k n)

/-- MSI-X Message Control of the function of instance `i`. -/
def vfMsixControl (s : State) (i v : Nat) : State :=
  let s1 := s.modInst i fun x => { x with msixMask := bitAt v 0, msixEn := bitAt v 1 }
  let go := if bitAt v 1 && !bitAt v 0 then unmasked (s1.inst i).msix (s1.inst i).pend else []
  (s1.modInst i fun x => { x with pend := x.pend.filter fun n => !go.contains n }).emitHost (s.partOfInst i) (go.map fun n => .vfMsix i n)

/-- A configuration write reaches a register of a virtual bridge, or of the services endpoint through its upstream port. A base or limit comes as one
whole byte address, whose granularity and halves the configuration request settles (DESIGN CHOICE, log 65). -/
def cfgWrite (s : State) (port : Nat) (reg : CfgReg) (v : Nat) : State :=
  let b := fun (f : BridgeCfg → BridgeCfg) => s.modPort port fun x => { x with br := f x.br }
  let down := fun (f : BridgeCfg → BridgeCfg) => s.onlyIf (s.isDown port) fun t => t.modPort port fun x => { x with br := f x.br }
  let up := fun (f : BridgeCfg → BridgeCfg) => s.onlyIf (s.isUp port) fun t => t.modPort port fun x => { x with br := f x.br }
  let e := fun (f : PartSt → PartSt) => if s.isUp port then s.modPart (s.portPart port) f else s
  match reg with
  | .memBase => b fun x => { x with memBase := v }
  | .memLimit => b fun x => { x with memLimit := v }
  | .pfBase => b fun x => { x with pfBase := v }
  | .pfLimit => b fun x => { x with pfLimit := v }
  | .memEnable => b fun x => { x with memEn := v != 0 }
  | .priBus => b fun x => { x with priBus := v % 256 }
  | .secBus => b fun x => { x with secBus := v % 256 }
  | .subBus => b fun x => { x with subBus := v % 256 }
  | .redirect => down fun x => { x with acs := if v = 0 then bitClr x.acs 2 else bitSet x.acs 2 }
  | .acs => down fun x => { x with acs := v % 128 }
  | .egressVec => down fun x => { x with egressVec := v % 2 ^ 64 }
  | .ariForward => down fun x => { x with ariFwd := v != 0 }
  | .dpcControl => down fun x => { x with dpcUr := v != 0 }
  | .bridgeMaster => b fun x => { x with bme := v != 0 }
  | .bridgeAerStatus => b fun x => { x with aerSts := x.aerSts &&& (v ^^^ (2 ^ 32 - 1)) % 2 ^ 32 }
  | .bridgeAerMask => b fun x => { x with aerMask := v % 2 ^ 32 }
  | .bridgeAerSeverity => b fun x => { x with aerSev := v % 2 ^ 32 }
  | .mcBase => up fun x => { x with mcBase := v }
  | .mcShift => up fun x => { x with mcShift := v % 64 }
  | .mcEnable => up fun x => { x with mcEn := v != 0 }
  | .mcNum => up fun x => { x with mcNum := v % 64 }
  | .mcReceive => up fun x => { x with mcReceive := v % 2 ^ 64 }
  | .mcBlock => up fun x => { x with mcBlock := v % 2 ^ 64 }
  | .mcBlockUntr => up fun x => { x with mcBlockUntr := v % 2 ^ 64 }
  | .mcOverlay => up fun x => { x with mcOverlay := v % 2 ^ 64 }
  | .bar0 => e fun x => { x with bar0 := barOf v }
  | .bar2 => e fun x => { x with bar2 := barOf v }
  | .bar4 => e fun x => { x with bar4 := barOf v }
  | .vfBar0 => e fun x => { x with vfBar0 := barOf v }
  | .vfBar2 => e fun x => { x with vfBar2 := barOf v }
  | .functionRid => e fun x => { x with pfRid := v / 256 % 256 * 256 }
  | .svcSubBus => e fun x => { x with svcSub := v % 256 }
  | .busMaster => e fun x => { x with busMaster := v != 0 }
  | .pfMemEnable => e fun x => { x with memEn := v != 0 }
  | .vfMemEnable => e fun x => { x with vfMemEn := v != 0 }
  | .maxRead => e fun x => { x with maxRead := 128 * 2 ^ sizeCode v }
  | .maxPayload => e fun x => { x with maxPay := 128 * 2 ^ sizeCode v }
  | .cplTimeout => e fun x => { x with cplTimeout := v }
  | .aerCorMask => e fun x => { x with aerCorMask := v != 0 }
  | .aerUncMask => e fun x => { x with aerUncMask := v != 0 }
  | .aerStatus => e fun x => { x with aerCor := x.aerCor && !bitAt v 0, aerUnc := x.aerUnc && !bitAt v 1 }
  | .msixControl => if s.isUp port then s.msixControl (s.portPart port) v else s
  | .vfMsixControl i => if s.isUp port && s.partOfInst i == s.portPart port then s.vfMsixControl i v else s
  | .slotStatus =>
    (match s.portSlot port with
     | some i => s.modSlot i fun x => { x with pfd := x.pfd && !bitAt v 1, pdc := x.pdc && !bitAt v 3 }
     | none => s)
  | .hdmBase i => up fun x => setHdm x i fun d => (v, d.2.1, d.2.2)
  | .hdmSize i => up fun x => setHdm x i fun d => (d.1, v, d.2.2)
  | .hdmOffset i => up fun x => setHdm x i fun d => (d.1, d.2.1, v)

/-- A write of a word of a Type 1 header: the command register, the bus numbers and the windows, whose limits end on a 1 MiB boundary. -/
def type1Write (b : BridgeCfg) (off v : Nat) : BridgeCfg :=
  let base := fun (x : Nat) => x / 16 % 4096 * 2 ^ 20
  let limit := fun (x : Nat) => x / 16 % 4096 * 2 ^ 20 + (2 ^ 20 - 1)
  if off = 0x04 then { b with memEn := bitAt v 1, bme := bitAt v 2 }
  else if off = 0x18 then { b with priBus := v % 256, secBus := v / 2 ^ 8 % 256, subBus := v / 2 ^ 16 % 256 }
  else if off = 0x20 then { b with memBase := base (v % 65536), memLimit := limit (v / 65536) }
  else if off = 0x24 then { b with pfBase := b.pfBase / 2 ^ 32 * 2 ^ 32 + base (v % 65536), pfLimit := b.pfLimit / 2 ^ 32 * 2 ^ 32 + limit (v / 65536) }
  else if off = 0x28 then { b with pfBase := v * 2 ^ 32 + b.pfBase % 2 ^ 32 }
  else if off = 0x2C then { b with pfLimit := v * 2 ^ 32 + b.pfLimit % 2 ^ 32 }
  else b

/-- A write of a word of the physical function: the command register, its BARs, the index of the shared window DVSEC (R393, R395). -/
def physWrite (s : State) (k off v : Nat) (x : PartSt) : PartSt :=
  if off = 0x04 then { x with memEn := bitAt v 1, busMaster := bitAt v 2 }
  else if off = 0x10 ∨ off = 0x14 then { x with bar0 := barHalf x.bar0 (8 * 2 ^ 20) (off == 0x14) v }
  else if off = 0x18 ∨ off = 0x1C then { x with bar2 := barHalf x.bar2 (s.sliceSize k) (off == 0x1C) v }
  else if off = 0x20 ∨ off = 0x24 then { x with bar4 := barHalf x.bar4 65536 (off == 0x24) v }
  else if off = 0x410 then { x with dvsecIdx := v % 2 ^ 13 }
  else x

/-- A write of a word of a function. The capability registers that hosts write come with BRIDGE_CONFIG_WRITE and the commands of chapter 11, since
the spec does not place them (log 30). -/
def cfgPut (s : State) (fn : CfgFn) (off v : Nat) : State :=
  match fn with
  | .bridge p => s.modPort p fun x => { x with br := type1Write x.br off v }
  | .services k =>
    s.onlyIf (off == 0x18) fun t => t.modPart k fun x => { x with pfRid := v / 2 ^ 8 % 256 * 256, svcSub := v / 2 ^ 16 % 256 }
  | .phys k => s.modPart k (s.physWrite k off v)
  | .virt _ _ => s

/-! ## Requests -/

/-- A configuration request at one of the 9160's own functions: a read of a word, or a write of its enabled bytes. -/
def cfgOwn (s : State) (p : Packet) (fn : CfgFn) : State :=
  let off := p.tlp.addr % 4096 / 4 * 4
  let (s1, old) := s.cfgWord fn off
  if p.tlp.data.isEmpty then s1.reply p .sc (leBytes 4 old)
  else
    let bs := writeBytes p.tlp
    let new := leNat ((List.range 4).map fun i => (bs.getD i none).getD ((leBytes 4 old).getD i 0))
    (s.cfgPut fn off new).reply p .sc []

/-- Where a configuration request that came in through upstream port `u` goes (R96): to one of the 9160's own functions, or out of a downstream port,
as a Type 0 request where its bus lies right below it. -/
inductive CfgGoal where
  | own (fn : CfgFn)
  | out (d : Nat) (typ1 : Bool)
  | unsupported

/-- The goal of a configuration request for Routing ID `id`, as PCI Express prescribes for a switch (R96): Type 0 ends at the upstream bridge; on the
secondary bus stand the downstream bridges and, at device 31, the services bridge (R391), below which the functions of the services endpoint lie
(R392). -/
def cfgGoal (s : State) (u id : Nat) (typ1 : Bool) : CfgGoal :=
  let k := s.portPart u
  let bus := id / 256 % 256
  let dev := id / 8 % 32
  let fn := id % 8
  let p := s.part k
  let base := s.getF pgVIM VIM_PALLOC.BASE k
  if !typ1 then (if fn = 0 then .own (.bridge u) else .unsupported)
  else if bus = (s.port u).br.secBus then
    if fn ≠ 0 then .unsupported
    else if dev = 31 then .own (.services k)
    else match (List.range 64).find? fun n => s.isDown n && s.portPart n == k && Config.bridgeDev n % 31 == dev with
      | some n => .own (.bridge n)
      | none => .unsupported
  else match s.busPort k bus with
    | some d =>
      if bus = (s.port d).br.secBus then (if dev ≠ 0 ∧ (s.port d).br.ariFwd = false then .unsupported else .out d false) else .out d true
    | none =>
      if p.pfRid / 256 = 0 ∨ bus < p.pfRid / 256 ∨ max (p.pfRid / 256) p.svcSub < bus then .unsupported
      else if id = p.pfRid then .own (.phys k)
      else if p.vfEnable && decide (p.pfRid < id) && decide (id ≤ p.pfRid + p.numVfs) then .own (.virt k (base + (id - p.pfRid) - 1))
      else .unsupported

/-- A configuration request (R96). One from a downstream port, and one for a function or bus that is not there, is an Unsupported Request. -/
def cfgRequest (s : State) (p : Packet) : State :=
  if s.isUp p.ing = false then (s.refuse p).dropPacket p.id
  else
    match s.cfgGoal p.ing (p.tlp.addr / 4096) p.tlp.typ1 with
    | .own fn =>
      (match fn with
       | .phys _ | .virt _ _ => if p.ideBad then (s.ideSet p.ing (p.tlp.ide.getD 0) false true).ideDrop p else (s.cfgOwn p fn).dropPacket p.id
       | .bridge _ | .services _ => (s.cfgOwn p fn).dropPacket p.id)
    | .unsupported => (s.refuse p).dropPacket p.id
    | .out d typ1 =>
      if s.noTraffic d then
        (((s.fwdCapture 3 p.part p.ing (fwdReq p) p.orig).fire pgFWD 3 p.part (faultPort p)).stopReq p .ur 6).dropPacket p.id
      else s.modPacket p.id fun _ => { p with tlp := { p.tlp with typ1 := typ1 }, route := .port d, place := .ingress }

end State
end Sys2Proof.Machine
end

