-- ==== Sys2Proof/Machine/Receive.lean ====
section
/-! DEFINITION. What ports receive: requests, messages and completions (R85, R96, R97, R243, R312, R402), configuration requests and the
registers they write (R90, R391 to R395), fabric packets (R289, R298), messages for the management complex (R44), and translation walks
(R407). -/

namespace Sys2Proof.Machine
namespace State

/-! ## Acceptance -/

/-- Acceptance ticks of the `n` cells of a packet (R141): the last given stands for those that are not. -/
def accTicks (s : State) (acc : List Nat) (n : Nat) : List Nat := (List.range n).map fun i => acc.getD i (acc.getLastD s.fabric)

/-- The port takes packets: it is a PCIe port in L0 of a Cellar in RUN, and not in DPC. -/
def takesTlp (s : State) (port : Nat) : Bool :=
  (s.isUp port || s.isDown port) && s.inL0 port && !(s.port port).dpc && s.cellarRun (cellarOf port)

/-- The packet of a TLP received at a port (R312, R313, R402): bound where a binding entry says so, with VIM_BIND_BAD where the entry is
bad. It stands in the ingress buffer. -/
def receive (s : State) (port : Nat) (t : Tlp) (acc : List Nat) : State × Packet :=
  let s0 := s.acceptCells port (tlpCls t) t.tc (s.accTicks acc (cellsOf (tlpBytes t)))
  let cxl := t.kind == .cxlRd || t.kind == .cxlWr
  let ini := if cxl then Initiator.cxl port else Initiator.port port t.rid t.pasid
  let (b, bad) := if cxl || t.kind == .cpl then (none, false) else s0.bindLookup port t.rid t.pasid
  let p := { s0.newPacket t port (cellarOf port) ini (s0.portPart port) .requester with
    bound := b, acc := if acc.isEmpty then [s0.fabric] else acc, place := Place.walk }
  let s1 := s0.onlyIf bad fun u => u.fire pgVIM 0 p.part port
  (s1.addPacket p, p)

/-- The partition is not served yet, or not for the moment (R630, Table 19.6). -/
def notServed (s : State) (k : Nat) : Bool := !s.ready || s.flag pgRST RST_PSTS.BUSY k

/-! ## Messages (R85, R96) -/

/-- A message goes out of a port, or is discarded where the port cannot take it (R110) or is not attested (R563). One whose way leads back to its
ingress ends here. -/
def sendMsg (s : State) (p : Packet) (d : Option Nat) : State :=
  match d with
  | none => s.dropPacket p.id
  | some d =>
    if d = p.ing ∨ s.noTraffic d = true then s.dropPacket p.id
    else if s.attBlocked d then (s.missOther p pgTRU 5).dropPacket p.id
    else s.modPacket p.id fun _ => { p with route := .port d, place := .ingress }

/-- Routing of a message: by ID, to the root, from the root to every downstream port, or ended at its receiver (R85, R96). -/
def routeMsg (s : State) (p : Packet) : State :=
  match p.tlp.kind with
  | .msgId => s.sendMsg p (s.routeId p.part p.tlp.addr)
  | .msgRoot => s.sendMsg p (s.upPort p.part)
  | .msgBroadcast =>
    if s.isUp p.ing then s.modPacket p.id fun _ => { p with route := .mcast (64 + p.part), place := .ingress } else s.dropPacket p.id
  | .msgLocal | .mrd | .mwr | .atomic | .dmwr | .io | .cfg | .cxlRd | .cxlWr | .cpl => s.dropPacket p.id

/-! ## CXL.mem (R349) -/

/-- A CXL.mem request of an upstream port: its HDM decoder gives its place in the shared window. One that no decoder holds completes as
Unsupported Request (DESIGN CHOICE, log 19). -/
def cxlRequest (s : State) (p : Packet) : State :=
  let kind := if p.tlp.kind == .cxlRd then TlpKind.mrd else .dmwr
  let hit := (s.port p.ing).br.hdm.find? fun d => decide (d.1 ≤ p.tlp.addr) && decide (p.tlp.addr < d.1 + d.2.1)
  match hit with
  | none => (s.refuse p).dropPacket p.id
  | some (base, _, off) =>
    if s.isUp p.ing && s.flag (pgLNK p.ing) LNK_STS.CXL then
      let q := { p with tlp := { p.tlp with kind := kind }, route := .shared (s.swBase + off + (p.tlp.addr - base)) }
      s.settlePacket p.id (s.ideThen q fun t => t.accessCheck q)
    else (s.refuse p).dropPacket p.id

/-! ## Requests and messages -/

/-- PCI Express turns the request away (R10, R11): a locked read, which no port supports, or a memory request that comes from below a downstream
bridge whose Bus Master Enable is 0. -/
def masterOff (s : State) (p : Packet) : Bool := p.tlp.locked || (s.isDown p.ing && !(s.port p.ing).br.bme)

/-- A request or message goes its way (R85); of a port in REQUIRE mode without PASS only configuration requests do (R563). PARTITION_FATAL and DEVICE_FATAL admit of these only configuration requests and what BAR0
claims (R468, R469). -/
def routeTlp (s : State) (p : Packet) : State :=
  let closed := s.devFatal || s.partFatal p.part
  if s.notServed p.part then
    (if p.tlp.kind == .cfg then s.reply p .rrs [] else if nonPosted p.tlp then s.reply p .ur [] else s).dropPacket p.id
  else if s.attBlocked p.ing && p.tlp.kind != .cfg then (s.missOther p pgTRU 5).dropPacket p.id
  else if s.acsBlocks p.ing p.tlp then (s.refuse p .ca 2).dropPacket p.id
  else
    match p.tlp.kind with
    | .cfg => s.cfgRequest p
    | .mrd | .mwr | .atomic | .dmwr => if s.masterOff p then (s.refuse p (if closed then .ca else .ur)).dropPacket p.id else s.ingestMem p
    | .io => (s.refuse p (if closed then .ca else .ur)).dropPacket p.id
    | .cxlRd | .cxlWr => if closed then (s.refuse p .ca).dropPacket p.id else s.cxlRequest p
    | .msgId | .msgRoot | .msgBroadcast | .msgLocal => if closed then s.dropPacket p.id else s.routeMsg p
    | .cpl => s.dropPacket p.id

/-! ## Completions (R96, R97, R368) -/

/-- A completion that no request waits for (R97): discarded, and reported as PCI Express prescribes. -/
def unexpectedCpl (s : State) (p : Packet) : State := ((s.leaveIngress p).fire pgFWD 5 p.part p.ing).aerPort p.ing 1

/-- Where a completion goes on: P2P Completion Redirect of a downstream port sends one without Relaxed Ordering upstream in place of a peer (R108). -/
def cplTarget (s : State) (p : Packet) (d : Nat) : Option Nat :=
  if s.acsOn p.ing 3 && !p.tlp.ro && s.isDown d then s.upPort (s.portPart p.ing) else some d

/-- A completion answers the request of a tracker entry: it goes to its requester by ID, in the requester's byte order (R96, R359), or is
claimed by the block that owns the request. The entry stays until the completion has fully returned (R264). -/
def answer (s : State) (p : Packet) (e : TrkEntry) : State :=
  match e.pkt.owner, e.pkt.ini with
  | .requester, .port _ _ _ =>
    let (s0, c) := s.taintCpl e.pkt p.tlp
    let s1 := s0.onlyIf (lastCpl e.pkt.tlp p.tlp) fun t => t.trkDrop e
    (match (s1.cplPort e).bind (s1.cplTarget p) with
     | none => s1.leaveIngress p
     | some d =>
       if s1.noTraffic d then (s1.leaveIngress p).onlyIf (s1.portEn d) fun t => t.addF (pgLNK d) LNK_LDCNT1.CPL
       else s1.modPacket p.id fun _ =>
         { p with tlp := cplFor e c, route := .port d, place := .ingress, cfgCpl := e.pkt.tlp.kind == .cfg })
  | _, _ =>
    let (s2, p1) := s.enter p 0 false
    let (s3, smp) := s2.samplePass p1 none false
    (s3.packetOut { p1 with sample := smp } 2).blockCpl e p.tlp

/-- A completion received at a port. -/
def takeCpl (s : State) (p : Packet) : State :=
  match s.trkFind p.ing p.tlp.rid p.tlp.tag with
  | none => s.unexpectedCpl p
  | some e =>
    if e.orphan.isSome then
      ((((s.trkDrop e).leaveIngress p).addF pgFWD FWD_REAP_CNT1.ORPHAN_CPL).onlyIf (s.stale e.pkt)) fun t => t.addF pgVIM VIM_CNT.STALE
    else s.answer p e

/-- A TLP that the ingress will find bad (R115): of its reception and routing (`routed`), only the way by cut-through remains; its link layer
has it sent again. -/
def badTlp (s : State) (port : Nat) (p : Packet) (routed : State) : State :=
  let s1 := s.acceptCells port (tlpCls p.tlp) p.tlp.tc (s.accTicks p.acc p.ncell)
  match routed.packet? p.id with
  | none => s1
  | some k => if k.place == .ingress then s1.addPacket { k with bad := true } else s1

end State

/-! ## Commands -/

/-- TLP_RECEIVE (R85): a request or message whose first cell is accepted at a PCIe port, with the acceptance tick of each of its cells,
whether its IDE check failed, and whether the ingress will find it bad (R115). -/
def execTlpReceive (port : Nat) (tlp : Tlp) (acc : List Nat) (ideFail bad : Bool) (s : State) : Res :=
  if !s.takesTlp port || tlp.kind == .cpl then s.done
  else
    let (s1, p0) := s.receive port tlp acc
    let fails := s.ideFails port tlp ideFail
    let p := { p0 with ideBad := fails && tlp.ide != some 0 }
    let s1 := s1.modPacket p.id fun _ => p
    if bad then (s.badTlp port p (s1.routeTlp p)).done
    else if fails && tlp.ide == some 0 then (((s1.ideSet port 0 false true).ideDrop p).freeGone s1).done
    else ((s1.routeTlp p).freeGone s1).done

/-- The completion fails the check of an IDE stream that ends at the port (R243, R244): the link stream, or a selective one of a request of the
9160 itself. -/
def State.cplIdeFails (s : State) (port : Nat) (t : Tlp) (fail : Bool) : Bool :=
  let own := match s.trkFind port t.rid t.tag with
    | some e => (match e.pkt.ini with
      | .block _ | .chan _ => true
      | .port _ _ _ | .fabric _ _ _ _ | .cxl _ => e.pkt.owner != .requester)
    | none => false
  s.ideFails port t fail && (t.ide == some 0 || own)

/-- COMPLETION_RECEIVE (R97): a completion whose first cell is accepted at a PCIe port, with the outcome of its IDE check. -/
def execCompletionReceive (port : Nat) (tlp : Tlp) (acc : List Nat) (ended : TlpEnd) (s : State) : Res :=
  if !s.takesTlp port || tlp.kind != .cpl then s.done
  else
    let (s1, p) := s.receive port tlp acc
    if ended = .bad then (s.badTlp port p (s1.takeCpl p)).done
    else if s.cplIdeFails port tlp (ended == .ideFail) then
      ((((s1.ideSet port (tlp.ide.getD 0) false true).leaveIngress p).fire (pgLNK port) 5 p.part port)).done
    else (s1.takeCpl p).done

/-- MCTP_RECEIVE (R44): a message reaches the management complex, whose answer the spec does not give; none while it is in reset (R631). -/
def execMctpReceive (body : List Byte) (s : State) : Res :=
  if s.mgmtUp then (s.emit (.mctp (Config.firmwareReply body))).done else s.done

/-- BRIDGE_CONFIG_WRITE (R91): a configuration write of the host of the partition that owns `port`, performed before its completion; none
while the partition is not served (R630). -/
def execBridgeConfigWrite (port : Nat) (reg : CfgReg) (value : Nat) (s : State) : Res :=
  if !(s.isUp port || s.isDown port) || s.notServed (s.portPart port) then s.done else (s.cfgWrite port reg value).done

/-- FABRIC_PACKET_RECEIVE (R298) at an ACTIVE FFL port. A header that breaks Table 8.10 has no defined result (R311). -/
def execFabricPacketReceive (port : Nat) (hdr : FabHdr) (tlp : Tlp) (s : State) : Res :=
  if !s.isFfl port || s.lkState port != 3 then s.done
  else if badHdr hdr then .fault (.undefinedResult 311)
  else
    let n := cellsOf (16 + tlpBytes tlp)
    let (s0, acc) := s.takeWhole port
    let s1 := s0.acceptCells port (if (s.fflSt port).whole.isEmpty then tlpCls tlp else 2) tlp.tc (s.accTicks acc n)
    let s2 := s1.fabricPacket port hdr tlp acc
    (if (s2.packet? s1.nextId).any (·.ing == port) then s2 else s2.freeIngress port tlp n).done

/-- TACK_RECEIVE (R300). A TACK for another device goes on. -/
def execTackReceive (port : Nat) (hdr : FabHdr) (entries : List TackEntry) (s : State) : Res :=
  if !s.isFfl port || s.lkState port != 3 || s.devFatal then s.done
  else
    let t : Tlp := { kind := .cpl, rid := 0, tag := 0, pasid := none, tc := 0, addr := 0, len := 8 * entries.length, mask := [],
                     data := entries.flatMap fun e => tackBytes e.cls e.cellar e.resync e.ackd, hdr := 0, ro := false,
                     ido := false, poisoned := false, op := .fetchAdd, status := .sc }
    let n := cellsOf (16 + tlpBytes t)
    let (s0, acc) := s.takeWhole port
    let s1 := s0.acceptCells port 2 0 (s.accTicks acc n)
    if hdr.dst / 4096 = s.getF pgFWD FWD_CTL.FDID then ((s1.each entries fun u e => u.tackEntry hdr.src e).freeIngress port t n).done
    else
      let s2 := s1.fabricPacket port hdr t acc
      (if (s2.packet? s1.nextId).isNone then s2.freeIngress port t n else s2).done

/-- TTU_WALK_READ_DONE (R407): the read of walk `walk` completes. -/
def execTtuWalkReadDone (walk : Nat) (ecc : Ecc) (s : State) : Res :=
  match s.walks.find? (·.id == walk) with
  | none => s.done
  | some w => ((s.walkRead w ecc).freeGone s).done

end Sys2Proof.Machine
end

