-- ==== Sys2Proof/Machine/Dispatch.lean ====
section
/-! DEFINITION. The dispatcher: one arm for each command, a direct call of its meaning. -/

namespace Sys2Proof.Machine

/-- The effect of a command on everything but the queue. -/
def exec (i : Instr) (s : State) : Host.Outcome State Fault Refusal :=
  match i with
  | .cellarHoldReq who c => Sys2Proof.Machine.execCellarHoldReq who c s
  | .cellarGateReq who c => Sys2Proof.Machine.execCellarGateReq who c s
  | .cellarRunReq who c => Sys2Proof.Machine.execCellarRunReq who c s
  | .cellarModeReached c => Sys2Proof.Machine.execCellarModeReached c s
  | .registerWrite who off wide be data => Sys2Proof.Machine.execRegisterWrite who off wide be data s
  | .rcRead who off wide => Sys2Proof.Machine.execRcRead who off wide s
  | .lowWordRead who off => Sys2Proof.Machine.execLowWordRead who off s
  | .pageLockWrite who page => Sys2Proof.Machine.execPageLockWrite who page s
  | .glbSealWrite who => Sys2Proof.Machine.execGlbSealWrite who s
  | .intForceWrite who page bits => Sys2Proof.Machine.execIntForceWrite who page bits s
  | .fltForceWrite who page bits => Sys2Proof.Machine.execFltForceWrite who page bits s
  | .fltAckWrite who page bits => Sys2Proof.Machine.execFltAckWrite who page bits s
  | .tlpReceive port tlp acc ideFail bad => Sys2Proof.Machine.execTlpReceive port tlp acc ideFail bad s
  | .completionReceive port tlp acc ended => Sys2Proof.Machine.execCompletionReceive port tlp acc ended s
  | .mctpReceive body => Sys2Proof.Machine.execMctpReceive body s
  | .bridgeConfigWrite port reg value => Sys2Proof.Machine.execBridgeConfigWrite port reg value s
  | .secondaryBusReset part => Sys2Proof.Machine.execSecondaryBusReset part s
  | .winFieldWrite who w field value => Sys2Proof.Machine.execWinFieldWrite who w field value s
  | .winRouteWrite who w value => Sys2Proof.Machine.execWinRouteWrite who w value s
  | .fwdEptDataAccess who value => Sys2Proof.Machine.execFwdEptDataAccess who value s
  | .ingressOrderPass ing cls => Sys2Proof.Machine.execIngressOrderPass ing cls s
  | .spineSlot src dst half ecc => Sys2Proof.Machine.execSpineSlot src dst half ecc s
  | .cellEgressArrive queue ecc => Sys2Proof.Machine.execCellEgressArrive queue ecc s
  | .flitPeriodStart port ecc => Sys2Proof.Machine.execFlitPeriodStart port ecc s
  | .nonflitStartOpportunity port ecc => Sys2Proof.Machine.execNonflitStartOpportunity port ecc s
  | .repairItemDue port item => Sys2Proof.Machine.execRepairItemDue port item s
  | .repairWaitExpire port => Sys2Proof.Machine.execRepairWaitExpire port s
  | .tlpDllAck port count => Sys2Proof.Machine.execTlpDllAck port count s
  | .fcUpdateReceive port cls headers units => Sys2Proof.Machine.execFcUpdateReceive port cls headers units s
  | .policerRelease port cls => Sys2Proof.Machine.execPolicerRelease port cls s
  | .shaperParamWrite who off value => Sys2Proof.Machine.execShaperParamWrite who off value s
  | .queueSnapshot page => Sys2Proof.Machine.execQueueSnapshot page s
  | .queueStallDetect queue => Sys2Proof.Machine.execQueueStallDetect queue s
  | .spillPlacedBurst index => Sys2Proof.Machine.execSpillPlacedBurst index s
  | .spillBeBurst back => Sys2Proof.Machine.execSpillBeBurst back s
  | .spillBurstDone ecc => Sys2Proof.Machine.execSpillBurstDone ecc s
  | .schLoad who slot => Sys2Proof.Machine.execSchLoad who slot s
  | .schLoadDone slot => Sys2Proof.Machine.execSchLoadDone slot s
  | .loadCompletionTimeout => Sys2Proof.Machine.execLoadCompletionTimeout s
  | .schHold who slot => Sys2Proof.Machine.execSchHold who slot s
  | .schRelease who slot => Sys2Proof.Machine.execSchRelease who slot s
  | .schArm who slot => Sys2Proof.Machine.execSchArm who slot s
  | .shadowFillDone => Sys2Proof.Machine.execShadowFillDone s
  | .schDisarm who slot => Sys2Proof.Machine.execSchDisarm who slot s
  | .schBadCmd who code slot => Sys2Proof.Machine.execSchBadCmd who code slot s
  | .armPairCheck => Sys2Proof.Machine.execArmPairCheck s
  | .armedSwap => Sys2Proof.Machine.execArmedSwap s
  | .fallbackSwap => Sys2Proof.Machine.execFallbackSwap s
  | .laneErrorEvent lane ev => Sys2Proof.Machine.execLaneErrorEvent lane ev s
  | .laneScoreDecay => Sys2Proof.Machine.execLaneScoreDecay s
  | .laneRetireWrite who c lanes => Sys2Proof.Machine.execLaneRetireWrite who c lanes s
  | .lnkRetrain who port => Sys2Proof.Machine.execLnkRetrain who port s
  | .lnkRestore who port => Sys2Proof.Machine.execLnkRestore who port s
  | .lnkDisableSet who port => Sys2Proof.Machine.execLnkDisableSet who port s
  | .lnkDisableClear who port => Sys2Proof.Machine.execLnkDisableClear who port s
  | .portRecoveryEntry port => Sys2Proof.Machine.execPortRecoveryEntry port s
  | .portL0Entry port rate width low cxl rev failed => Sys2Proof.Machine.execPortL0Entry port rate width low cxl rev failed s
  | .derateWindowEnd port => Sys2Proof.Machine.execDerateWindowEnd port s
  | .dlDown port => Sys2Proof.Machine.execDlDown port s
  | .lockLossTimeout port => Sys2Proof.Machine.execLockLossTimeout port s
  | .linkDownCleanupDone port => Sys2Proof.Machine.execLinkDownCleanupDone port s
  | .dpcTrigger port => Sys2Proof.Machine.execDpcTrigger port s
  | .dpcExit port => Sys2Proof.Machine.execDpcExit port s
  | .hotResetReceived port => Sys2Proof.Machine.execHotResetReceived port s
  | .fflFlitDecide port flit => Sys2Proof.Machine.execFflFlitDecide port flit s
  | .fflCreditReceive port p np cpl => Sys2Proof.Machine.execFflCreditReceive port p np cpl s
  | .fflNakReceive port seq => Sys2Proof.Machine.execFflNakReceive port seq s
  | .fflHelloReceive port fdid peerPort echo width ident => Sys2Proof.Machine.execFflHelloReceive port fdid peerPort echo width ident s
  | .fflLinkreqReceive port width tag => Sys2Proof.Machine.execFflLinkreqReceive port width tag s
  | .fflLinkgoReceive port width tag => Sys2Proof.Machine.execFflLinkgoReceive port width tag s
  | .fflTimeReqReceive port t1 acc => Sys2Proof.Machine.execFflTimeReqReceive port t1 acc s
  | .fflTimeRspReceive port t1 t2 t3 acc => Sys2Proof.Machine.execFflTimeRspReceive port t1 t2 t3 acc s
  | .fflSwaptickReceive port tick vintage cls peerPort => Sys2Proof.Machine.execFflSwaptickReceive port tick vintage cls peerPort s
  | .fflMctpReceive port body => Sys2Proof.Machine.execFflMctpReceive port body s
  | .fflReplayTimeout port => Sys2Proof.Machine.execFflReplayTimeout port s
  | .fflHelloInterval port => Sys2Proof.Machine.execFflHelloInterval port s
  | .fflHelloTimeout port => Sys2Proof.Machine.execFflHelloTimeout port s
  | .fflUpkeepTimer port => Sys2Proof.Machine.execFflUpkeepTimer port s
  | .fflTimeIntTimer port => Sys2Proof.Machine.execFflTimeIntTimer port s
  | .fflLinkreqTimeout port => Sys2Proof.Machine.execFflLinkreqTimeout port s
  | .fflReqCmd who port width => Sys2Proof.Machine.execFflReqCmd who port width s
  | .fflLockLossTimeout port => Sys2Proof.Machine.execFflLockLossTimeout port s
  | .fflLinkDownCleanupDone done => Sys2Proof.Machine.execFflLinkDownCleanupDone done s
  | .fabricPacketReceive port hdr tlp => Sys2Proof.Machine.execFabricPacketReceive port hdr tlp s
  | .tackReceive port hdr entries => Sys2Proof.Machine.execTackReceive port hdr entries s
  | .tackDelayExpire key => Sys2Proof.Machine.execTackDelayExpire key s
  | .e2eTimeout key ecc => Sys2Proof.Machine.execE2eTimeout key ecc s
  | .replayStoreWritten key => Sys2Proof.Machine.execReplayStoreWritten key s
  | .frtCompletionTimeout entry => Sys2Proof.Machine.execFrtCompletionTimeout entry s
  | .swEntryCommit index ecc => Sys2Proof.Machine.execSwEntryCommit index ecc s
  | .swSerialize index ecc => Sys2Proof.Machine.execSwSerialize index ecc s
  | .fenceRead port rid tag pasid inst => Sys2Proof.Machine.execFenceRead port rid tag pasid inst s
  | .fenceDmwr port rid tag pasid inst => Sys2Proof.Machine.execFenceDmwr port rid tag pasid inst s
  | .fenceComplete index => Sys2Proof.Machine.execFenceComplete index s
  | .prefetchFillDone block => Sys2Proof.Machine.execPrefetchFillDone block s
  | .prefetchHoldExpire block => Sys2Proof.Machine.execPrefetchHoldExpire block s
  | .orphanReap port rid tag => Sys2Proof.Machine.execOrphanReap port rid tag s
  | .liveReap port rid tag => Sys2Proof.Machine.execLiveReap port rid tag s
  | .accHeldWrite who slot field value => Sys2Proof.Machine.execAccHeldWrite who slot field value s
  | .accRdWrite who slot value => Sys2Proof.Machine.execAccRdWrite who slot value s
  | .debugPortAccess off wide data => Sys2Proof.Machine.execDebugPortAccess off wide data s
  | .vimBindD0Write who value => Sys2Proof.Machine.execVimBindD0Write who value s
  | .vimBindD1Write who value => Sys2Proof.Machine.execVimBindD1Write who value s
  | .ttuWalkReadDone walk ecc => Sys2Proof.Machine.execTtuWalkReadDone walk ecc s
  | .ttuInvGo who value => Sys2Proof.Machine.execTtuInvGo who value s
  | .ttuInvEffect => Sys2Proof.Machine.execTtuInvEffect s
  | .ttuInvDone => Sys2Proof.Machine.execTtuInvDone s
  | .vfFlr inst => Sys2Proof.Machine.execVfFlr inst s
  | .vimResetWrite who inst => Sys2Proof.Machine.execVimResetWrite who inst s
  | .vfEnableChange part enable num => Sys2Proof.Machine.execVfEnableChange part enable num s
  | .pfFlr part => Sys2Proof.Machine.execPfFlr part s
  | .heldResetEffect inst => Sys2Proof.Machine.execHeldResetEffect inst s
  | .instanceResetEnd inst => Sys2Proof.Machine.execInstanceResetEnd inst s
  | .dmaGo who chan => Sys2Proof.Machine.execDmaGo who chan s
  | .dmaStop who chan go => Sys2Proof.Machine.execDmaStop who chan go s
  | .dmaPaceWrite who chan req => Sys2Proof.Machine.execDmaPaceWrite who chan req s
  | .dmaShadowWrite who chan reg value => Sys2Proof.Machine.execDmaShadowWrite who chan reg value s
  | .dmaPlacedBurst c index ecc word => Sys2Proof.Machine.execDmaPlacedBurst c index ecc word s
  | .dmaBeBurst c eng ecc word => Sys2Proof.Machine.execDmaBeBurst c eng ecc word s
  | .dmaBurstEnd c eng => Sys2Proof.Machine.execDmaBurstEnd c eng s
  | .dmaListFetchDone chan => Sys2Proof.Machine.execDmaListFetchDone chan s
  | .dmaXferComplete chan => Sys2Proof.Machine.execDmaXferComplete chan s
  | .leesRecordMake => Sys2Proof.Machine.execLeesRecordMake s
  | .pinPulseEnd => Sys2Proof.Machine.execPinPulseEnd s
  | .pinRearm who => Sys2Proof.Machine.execPinRearm who s
  | .pinDriveWrite who level => Sys2Proof.Machine.execPinDriveWrite who level s
  | .pinModeWrite who mode => Sys2Proof.Machine.execPinModeWrite who mode s
  | .logRdWrite who lees rd => Sys2Proof.Machine.execLogRdWrite who lees rd s
  | .mirRoleReceive m role takeOk resyncReq vintage epoch => Sys2Proof.Machine.execMirRoleReceive m role takeOk resyncReq vintage epoch s
  | .mirArmreportReceive m tick vintage => Sys2Proof.Machine.execMirArmreportReceive m tick vintage s
  | .mirYieldReceive m cause => Sys2Proof.Machine.execMirYieldReceive m cause s
  | .mirResyncMsgReceive m ended => Sys2Proof.Machine.execMirResyncMsgReceive m ended s
  | .mirCopyReceive m body => Sys2Proof.Machine.execMirCopyReceive m body s
  | .mirCommitReceive m body => Sys2Proof.Machine.execMirCommitReceive m body s
  | .mirLedgerReceive m body => Sys2Proof.Machine.execMirLedgerReceive m body s
  | .mirBlockReceive m body => Sys2Proof.Machine.execMirBlockReceive m body s
  | .roleInterval => Sys2Proof.Machine.execRoleInterval s
  | .seekTimeout => Sys2Proof.Machine.execSeekTimeout s
  | .ledgerEpochEnd => Sys2Proof.Machine.execLedgerEpochEnd s
  | .heartbeatLoss => Sys2Proof.Machine.execHeartbeatLoss s
  | .hbOutToggle => Sys2Proof.Machine.execHbOutToggle s
  | .mirSwitchover who => Sys2Proof.Machine.execMirSwitchover who s
  | .switchoverDrained => Sys2Proof.Machine.execSwitchoverDrained s
  | .mirTake who => Sys2Proof.Machine.execMirTake who s
  | .mirTakeForce who => Sys2Proof.Machine.execMirTakeForce who s
  | .mirResyncCmd who => Sys2Proof.Machine.execMirResyncCmd who s
  | .mirBadCmd who code => Sys2Proof.Machine.execMirBadCmd who code s
  | .resyncBlockSend => Sys2Proof.Machine.execResyncBlockSend s
  | .resyncTimeout => Sys2Proof.Machine.execResyncTimeout s
  | .presenceConfirm slot level ok => Sys2Proof.Machine.execPresenceConfirm slot level ok s
  | .rearmWindowEnd slot => Sys2Proof.Machine.execRearmWindowEnd slot s
  | .slotPowerControlWrite port on ok => Sys2Proof.Machine.execSlotPowerControlWrite port on ok s
  | .slotSample va vb meas ok => Sys2Proof.Machine.execSlotSample va vb meas ok s
  | .prechgTimeout slot => Sys2Proof.Machine.execPrechgTimeout slot s
  | .gateTimeout slot ok => Sys2Proof.Machine.execGateTimeout slot ok s
  | .holdoffEnd slot => Sys2Proof.Machine.execHoldoffEnd slot s
  | .perstReleaseTimer slot => Sys2Proof.Machine.execPerstReleaseTimer slot s
  | .mainFetOpenDelay slot => Sys2Proof.Machine.execMainFetOpenDelay slot s
  | .retryClearTimer slot => Sys2Proof.Machine.execRetryClearTimer slot s
  | .feedSwitchBbmEnd slot ok => Sys2Proof.Machine.execFeedSwitchBbmEnd slot ok s
  | .feedReturnTimer slot => Sys2Proof.Machine.execFeedReturnTimer slot s
  | .fruReadDone slot fru => Sys2Proof.Machine.execFruReadDone slot fru s
  | .lifeCountWritten slot ok => Sys2Proof.Machine.execLifeCountWritten slot ok s
  | .slotOnHourWrite slot ok => Sys2Proof.Machine.execSlotOnHourWrite slot ok s
  | .spcClrLatch who slot => Sys2Proof.Machine.execSpcClrLatch who slot s
  | .spcService who slot => Sys2Proof.Machine.execSpcService who slot s
  | .spcConnReset who slot => Sys2Proof.Machine.execSpcConnReset who slot s
  | .limderLinkFail => Sys2Proof.Machine.execLimderLinkFail s
  | .limderLinkRestore => Sys2Proof.Machine.execLimderLinkRestore s
  | .getBook bootNo start room => Sys2Proof.Machine.execGetBook bootNo start room s
  | .getNonce => Sys2Proof.Machine.execGetNonce s
  | .provisionOwner blk => Sys2Proof.Machine.execProvisionOwner blk s
  | .revokeOwner blk => Sys2Proof.Machine.execRevokeOwner blk s
  | .provisionDbgauth blk => Sys2Proof.Machine.execProvisionDbgauth blk s
  | .revokeDbgauth blk => Sys2Proof.Machine.execRevokeDbgauth blk s
  | .commitSvn blk => Sys2Proof.Machine.execCommitSvn blk s
  | .debugToken token => Sys2Proof.Machine.execDebugToken token s
  | .dbgtoken token => Sys2Proof.Machine.execDbgtoken token s
  | .flashprog addr op => Sys2Proof.Machine.execFlashprog addr op s
  | .bootsts => Sys2Proof.Machine.execBootsts s
  | .spdmRequest req => Sys2Proof.Machine.execSpdmRequest req s
  | .checkpointTimer => Sys2Proof.Machine.execCheckpointTimer s
  | .checkpointMade => Sys2Proof.Machine.execCheckpointMade s
  | .bookFlashWritten ok => Sys2Proof.Machine.execBookFlashWritten ok s
  | .attestOutcome port reply => Sys2Proof.Machine.execAttestOutcome port reply s
  | .attestTimeout port => Sys2Proof.Machine.execAttestTimeout port s
  | .truAttRedo who port => Sys2Proof.Machine.execTruAttRedo who port s
  | .plannerPass => Sys2Proof.Machine.execPlannerPass s
  | .marginScanDone port lanes => Sys2Proof.Machine.execMarginScanDone port lanes s
  | .monitorSample mons => Sys2Proof.Machine.execMonitorSample mons s
  | .ageApply who => Sys2Proof.Machine.execAgeApply who s
  | .ageDiscard who => Sys2Proof.Machine.execAgeDiscard who s
  | .ageScanNow who port => Sys2Proof.Machine.execAgeScanNow who port s
  | .ageUnretire who lane => Sys2Proof.Machine.execAgeUnretire who lane s
  | .ageStateHourly ok => Sys2Proof.Machine.execAgeStateHourly ok s
  | .ageMonthlyRecord ok => Sys2Proof.Machine.execAgeMonthlyRecord ok s
  | .avsTargetWrite who mv => Sys2Proof.Machine.execAvsTargetWrite who mv s
  | .pmuCounterWrite who c j wide value => Sys2Proof.Machine.execPmuCounterWrite who c j wide value s
  | .pmuEvtWrite who c j value => Sys2Proof.Machine.execPmuEvtWrite who c j value s
  | .pmuGsnapGo who c => Sys2Proof.Machine.execPmuGsnapGo who c s
  | .pmuSnapshotTick => Sys2Proof.Machine.execPmuSnapshotTick s
  | .pmuSaClr who c half ports => Sys2Proof.Machine.execPmuSaClr who c half ports s
  | .traceRecordWrite c => Sys2Proof.Machine.execTraceRecordWrite c s
  | .samplePendingTimeout => Sys2Proof.Machine.execSamplePendingTimeout s
  | .ringRdWrite who c rd => Sys2Proof.Machine.execRingRdWrite who c rd s
  | .pllUnlock => Sys2Proof.Machine.execPllUnlock s
  | .pllRelock => Sys2Proof.Machine.execPllRelock s
  | .pllLockTimeout => Sys2Proof.Machine.execPllLockTimeout s
  | .timeSample ptm => Sys2Proof.Machine.execTimeSample ptm s
  | .ptmInterval => Sys2Proof.Machine.execPtmInterval s
  | .tsrcLostTimeout => Sys2Proof.Machine.execTsrcLostTimeout s
  | .powerGateReq who d => Sys2Proof.Machine.execPowerGateReq who d s
  | .powerWakeReq who d => Sys2Proof.Machine.execPowerWakeReq who d s
  | .powerDomainGated d => Sys2Proof.Machine.execPowerDomainGated d s
  | .powerDomainWoken d => Sys2Proof.Machine.execPowerDomainWoken d s
  | .supplySample core rails => Sys2Proof.Machine.execSupplySample core rails s
  | .supplyWarnEnd => Sys2Proof.Machine.execSupplyWarnEnd s
  | .vddAonRise => Sys2Proof.Machine.execVddAonRise s
  | .qporNAssert => Sys2Proof.Machine.execQporNAssert s
  | .powerUpResetEnd => Sys2Proof.Machine.execPowerUpResetEnd s
  | .qwarmNAssert => Sys2Proof.Machine.execQwarmNAssert s
  | .rstCmdWarm who => Sys2Proof.Machine.execRstCmdWarm who s
  | .warmResetStart => Sys2Proof.Machine.execWarmResetStart s
  | .rstCmdMgmt who => Sys2Proof.Machine.execRstCmdMgmt who s
  | .mgmtWatchdogExpire => Sys2Proof.Machine.execMgmtWatchdogExpire s
  | .firmwareActivate => Sys2Proof.Machine.execFirmwareActivate s
  | .rstPartGo who part => Sys2Proof.Machine.execRstPartGo who part s
  | .partResetBusyEnd part => Sys2Proof.Machine.execPartResetBusyEnd part s
  | .bootStepDone info => Sys2Proof.Machine.execBootStepDone info s
  | .managementComplexRelease copyA copyB => Sys2Proof.Machine.execManagementComplexRelease copyA copyB s
  | .pairHbInEdge level => Sys2Proof.Machine.execPairHbInEdge level s
  | .ageLdataRead who => Sys2Proof.Machine.execAgeLdataRead who s
  | .bar2WriteCommit => Sys2Proof.Machine.execBar2WriteCommit s
  | .partnerL0pL1Request port low => Sys2Proof.Machine.execPartnerL0pL1Request port low s

end Sys2Proof.Machine
end

