-- ==== Sys2Proof/Machine/Tick.lean ====
section
/-! DEFINITION. One CK_SCHED tick: what the 9160 does while no command waits (log 2). Fabric time (R133, R613), the refill of shapers
(R221), policers (R227) and DMA rate limiters (R442), the counters that count every tick (R593, Table 18.1) and the OFFLINE accounts
(R598). Everything else that time brings comes as a command of its own. -/

namespace Sys2Proof.Machine

/-- A bucket after the refill of one tick: `gain` more, and not over its cap (R221, R227, R442). -/
def refill (tokens : Int) (gain burst : Nat) : Int := min (tokens + gain) (65536 * (burst : Int))

/-- Registers of copies `off + stride · i` of a page that are not at their reset values, by page and copy. -/
def State.copiesSet (s : State) (off stride n : Nat) (kind : PageKind) : List (Nat × Nat) :=
  s.regs.filterMap fun e =>
    let o := e.1 % 4096
    if pageKind (e.1 / 4096) == some kind && decide (off ≤ o) && (o - off) % stride == 0 && decide ((o - off) / stride < n)
    then some (e.1 / 4096, (o - off) / stride) else none

namespace State

/-- Global queue of a QSH page and index (Table 6.1). -/
def queueAt (page i : Nat) : Nat := 128 * (page / 256 - 1) + 64 * (page % 256 - 3) + i

/-- Refill of a shaper (R221); the bucket of a queue that is not best-effort-served stands still (R223). -/
def refillShaper (s : State) (x : Nat × Nat) : State :=
  if s.flag x.1 QSH_SRATE.SHAPE_EN x.2 && s.beServed (queueAt x.1 x.2) then
    s.setF x.1 QSH_TOK.TOKENS (ofInt32 (refill (toInt32 (s.getF x.1 QSH_TOK.TOKENS x.2)) (s.getF x.1 QSH_SRATE.RATE x.2)
      (s.getF x.1 QSH_SBURST.BURST x.2))) x.2
  else s

/-- Refill of a policer (R227). -/
def refillPolicer (s : State) (x : Nat × Nat) : State :=
  if s.flag x.1 QSH_PRATE.EN x.2 then
    s.setF x.1 QSH_PTOK.TOKENS (ofInt32 (refill (toInt32 (s.getF x.1 QSH_PTOK.TOKENS x.2)) (s.getF x.1 QSH_PRATE.RATE x.2)
      (s.getF x.1 QSH_PBURST.BURST x.2))) x.2
  else s

/-- Refill of the rate limiter of a channel (R442). -/
def refillChannel (s : State) (x : Nat × Nat) : State :=
  if s.flag x.1 DMA_RATE.EN x.2 then
    s.modChan (256 * (x.1 / 256 - 1) + x.2) fun c =>
      { c with bucket := refill c.bucket (s.getF x.1 DMA_RATE.RATE x.2) (s.getF x.1 DMA_RBURST.BURST x.2) }
  else s

/-- Every bucket refills (R221, R227, R442). -/
def refillAll (s : State) : State :=
  let s1 := s.each (s.copiesSet QSH_SRATE.RATE.off QSH_SRATE.RATE.stride 64 .qsh) refillShaper
  let s2 := s1.each (s.copiesSet QSH_PRATE.RATE.off QSH_PRATE.RATE.stride 16 .qsh) refillPolicer
  s2.each (s.copiesSet DMA_RATE.RATE.off DMA_RATE.RATE.stride 256 .dma) refillChannel

/-- A cell of an ingress that holds ingress memory: its packet has not passed the ordering point (R114). -/
def ingressCells (s : State) (c : Nat) : Nat :=
  ((s.packets.filter fun p => p.place == Place.ingress && p.cell0 == c).map (·.ncell)).sum

/-- Allocated cells of a Cellar's SRAM: its queues' and those at its ingress (R112). -/
def sramCells (s : State) (c : Nat) : Nat := ((cellarQueues c).map s.sramOf).sum + s.ingressCells c

/-- A policer of a port holds credit (R228). -/
def policed (s : State) (p : Nat) : Bool :=
  s.flag (polPage p) QSH_PSTS.P_HOLD (p % 8) || s.flag (polPage p) QSH_PSTS.NP_HOLD (p % 8)

/-- The counters of a Cellar that count every tick (Table 18.1): ticks, allocated cells, ticks with held credit. -/
def tickCounts (s : State) (c : Nat) : State :=
  if !(s.regs.any fun e => e.1 / 4096 == pgPMUC c) then s
  else
    let s1 := (s.count c 1 0 0 1).count c 0xE 0 0 (s.sramCells c)
    s1.each ((cellarPorts c).filter s1.policed) fun t p => t.count c 0xF (localPort p) 0 1

/-- OFFLINE of a port with no flit period (R598). -/
def tickOffline (s : State) (p : Nat) : State :=
  if s.fper p = 0 && !s.edge.clrNow.contains p then s.addF (pgPMUA (cellarOf p) (p % 16)) PMU_SA_OFFLINE.TICKS 1 (p % 8) else s

/-- What a tick does in a Cellar in RUN. -/
def tickCellar (s : State) (c : Nat) : State :=
  if s.cellarRun c then (s.tickCounts c).each (cellarPorts c) tickOffline else s

/-- One tick of CK_SCHED (R133, R613): the one that was ends with what a yield into DEVICE_FATAL withdraws (R498), the selection for its capacity events (R199) and the sign test of the policers (R228),
fabric time advances, then what each tick does is done, in its new value. -/
def schedTick (s : State) : State :=
  let s1 := s.yieldEnd.selectEnd.endFreed.relMark.settle
  let s0 : State := { s1 with fabric := (s1.fabric + 1) % 2 ^ 64 }
  (s0.cutsNow.pmuTick.refillAll.dueDebits.each (List.range 4) tickCellar).snapStart

/-- One tick of the model's clock. The clocks derived from the root PLL stand still while it is not in lock (R612). -/
def tick (s : State) : State :=
  let s0 : State := { s with ticks := s.ticks + 1 }
  if s.flag pgCLK CLK_STS.PLL_LOCK then s0.schedTick else s0

end State
end Sys2Proof.Machine
end

