-- ==== Sys2Proof/Safety.lean ====
section
/-! DEFINITION. What counts as a safe state and as an access that the rules let through, in the terms the statements use. -/

namespace Sys2Proof.Machine

/-- A memory of bytes is in canonical form: addresses rise, and no byte listed reads as an unlisted one, `unlisted`. -/
def Memory.wf (unlisted : Byte) (m : List Host.Cell) : Bool := storeWf (fun _ => unlisted) m

namespace State

/-- No fault source has fired without having been handled: between commands the collector has nothing left (R460). -/
def Quiet (s : State) : Prop := s.firing = []

/-- Every sampled packet that has no outcome yet is still held by the 9160 (R603). -/
def SamplesClosed (s : State) : Prop := ∀ r ∈ s.trace, r.out = none → s.sampleHeld r.id = true

/-- What every step keeps: no firing is left unhandled, and no sample is left without an outcome once its packet is gone. -/
structure Inv (s : State) : Prop where
  quiet : s.Quiet
  closed : s.SamplesClosed

/-- The management-region slots let an access of a host through; other requesters are not judged (R374). -/
def slotsGrant (s : State) (who : Requester) (bytes : List Nat) (wr : Bool) : Bool :=
  match who with
  | .host k => (s.judge 3 0 k (!wr) wr bytes).isNone
  | .mgmt => true
  | .debug => true
  | .tenant _ => true

/-- The page lets an access through: its Cellar is in RUN (R30), a host meets no secure page (R378), and the debug port meets only what
R380 opens to it. -/
def pageGrants (s : State) (who : Requester) (page : Nat) : Bool :=
  (s.offlineHit page).isNone &&
    match who with
    | .mgmt => true
    | .tenant _ => true
    | .host _ => !pageSecure page
    | .debug =>
      if s.flag pgACC ACC_DBG_STS.UNLOCKED then !pageSecure page || s.flag pgACC ACC_DBG_STS.SECURE_SCOPE
      else !pageSecure page && !s.pageSealed page

/-- A write reaches its register: the page is implemented (R56), present (R67), and neither its block is in reset nor its power is off. -/
def pageLive (s : State) (off : Nat) : Bool :=
  (pageKind (off / 4096)).isSome && (decide (off % 4096 < 0x80) || s.pagePresent (off / 4096)) && !s.pageDead (off / 4096)

/-- A register write of `len` bytes at `off` by `who` is performed: DEVICE_FATAL does not drop it (R469), the slots and the page let it
through, and a register is there. -/
def granted (s : State) (who : Requester) (off len : Nat) : Bool :=
  !s.writesStopped who && s.slotsGrant who ((List.range len).map (off + ·)) true && s.pageGrants who (off / 4096) && s.pageLive off

/-- A register read of `len` bytes at `off` by `who` returns the register: the slots and the page let it through, the page is implemented and
present, and neither is its block in reset nor its power off. -/
def readable (s : State) (who : Requester) (off len : Nat) : Bool :=
  s.slotsGrant who ((List.range len).map (off + ·)) false && s.pageGrants who (off / 4096) && s.pageLive off && s.tenantMay who off

/-- `t` differs from `s` in nothing but registers, and in the high words that a read has latched (an access of a 64-bit register leaves those
of other requesters open: R82). -/
def OnlyRegs (s t : State) : Prop := { t with regs := s.regs, latches := s.latches } = s

/-- A completion `c` of the 9160's own, for data from address `a` on, stands at an ordering point on its way to port `q`, in the pieces that the
Max_Payload_Size of the port's host makes of it. -/
def Completes (s : State) (q a : Nat) (c : Tlp) : Prop :=
  ∀ x ∈ cplPieces c.data.length (max 128 (s.part (s.portPart q)).maxPay) a c, ∃ k ∈ s.packets, k.tlp = x ∧ k.route = .port q

/-- `granted`, for the register of copy `i` of a field, `len` bytes wide. -/
def grants (s : State) (who : Requester) (page : Nat) (f : FRef) (i : Nat := 0) (len : Nat := 4) : Bool :=
  s.granted who (offOf page f i) len

/-- SCH_IMG_CMD lets `who` through, in the page of the lowest Cellar in RUN (R184), and no command is going on. -/
def imgReady (s : State) (who : Requester) : Bool :=
  s.granted who (pgSCH (((List.range 4).find? fun c => s.cellarRun c).getD 0) * 4096 + 0x810) 4 && !s.flag pgDEVSCH SCH_IMG_RES.BUSY

/-- SCH_IMG_RES says how a command on a slot ended. -/
def ImgAnswer (t : State) (cmd slot result : Nat) : Prop :=
  t.flag pgDEVSCH SCH_IMG_RES.DONE = true ∧ t.getF pgDEVSCH SCH_IMG_RES.CMD = cmd ∧ t.getF pgDEVSCH SCH_IMG_RES.SLOT = slot ∧
    t.getF pgDEVSCH SCH_IMG_RES.RESULT = result

/-- PCIe port `p` has declared link down in `t`, and is then in state `st` (R262): the declaration counts, the port has no flit period, what it was
sending is gone, and the actions of Table 7.13 are due. -/
def DeclaredDown (s t : State) (p st : Nat) : Prop :=
  t.linkState p = st ∧ t.flag (pgLNK p) LNK_STS.LDOWN = true ∧ t.flag (pgLNK p) LNK_STS.UP = false ∧
    t.getF (pgLNK p) LNK_LDSTS.DOWNS = satAdd (fmax LNK_LDSTS.DOWNS) (s.getF (pgLNK p) LNK_LDSTS.DOWNS) 1 ∧ t.fper p = 0 ∧
    (t.port p).cleanup = true ∧ (t.port p).sending = none ∧ t.hbm = s.hbm

/-- The reset of partition `k` goes on in `t` (R628): the posted writes that had not passed the ordering point are counted as lost, every virtual
bridge of the partition is at reset and no other's is touched, and none of its reservations is left. -/
def PartReset (s t : State) (k : Nat) : Prop :=
  t.flag pgRST RST_PSTS.BUSY k = true ∧ t.getF pgRST RST_PSTS.LOST_POSTED k = min 0xFFFFFF (s.packets.filter fun x =>
      (x.place == .ingress || x.place == .walk) && (s.partPorts k).contains x.ing && isWrite x.tlp).length ∧
    (∀ q ∈ s.partPorts k, (t.port q).br = BridgeCfg.init) ∧ (∀ q, q < 64 → q ∉ s.partPorts k → (t.port q).br = (s.port q).br) ∧
    (∀ r ∈ t.resv, s.iniPart r.ini ≠ k) ∧ t.hbm = s.hbm

/-- The reset of instance `i` has taken effect in `t` (R412, R413). -/
def InstReset (s t : State) (i : Nat) : Prop :=
  (t.inst i).gen = ((s.inst i).gen + 1) % 64 ∧ (t.inst i).stt = 2 ∧ (t.inst i).endTick = s.ticks + 2000 ∧ (∀ r ∈ t.resv, r.vi ≠ i) ∧
    (∀ e ∈ t.ttu, ∀ y ∈ e.2, y.vi ≠ i) ∧ (∀ f ∈ t.fences, f.inst ≠ i) ∧ (∀ j, j ≠ i → t.inst j = s.inst j) ∧ t.hbm = s.hbm

/-- The reset of instance `i` is held in `t` until nothing carries its next generation (R416). -/
def InstHeld (s t : State) (i : Nat) : Prop :=
  (t.inst i).stt = 3 ∧ (t.inst i).heldReset = true ∧ (t.inst i).gen = (s.inst i).gen ∧ t.flag (pgVIMI i) VIM_ICTL.RESET (i % 64) = true ∧
    (∀ j, j ≠ i → t.inst j = s.inst j) ∧ t.packets = s.packets ∧ t.resv = s.resv ∧ t.hbm = s.hbm

/-- Owner command `b` has burned its fuses in `t` and answers 0 (R566). -/
def OwnerBurned (s t : State) (b : List Byte) : Prop :=
  t.trust.owner = (s.burn b).trust.owner ∧ t.trust.ownerRevoke = (s.burn b).trust.ownerRevoke ∧ t.trust.dbg = (s.burn b).trust.dbg ∧
    t.trust.dbgRevoke = (s.burn b).trust.dbgRevoke ∧ t.trust.svn = (s.burn b).trust.svn ∧ Output.spdm [3, 0] ∈ t.out ∧ t.hbm = s.hbm

/-- Owner command `b` is refused in `t`: it burns nothing, is reported and answers its code (R566). -/
def OwnerRefused (s t : State) (b : List Byte) : Prop :=
  t.trust.owner = s.trust.owner ∧ t.trust.ownerRevoke = s.trust.ownerRevoke ∧ t.trust.dbg = s.trust.dbg ∧
    t.trust.dbgRevoke = s.trust.dbgRevoke ∧ t.trust.svn = s.trust.svn ∧ t.trust.nonce = s.trust.nonce ∧
    Output.spdm [3, BitVec.ofNat 8 (s.ownerRefusal b)] ∈ t.out ∧ (s.fltMasked (pgTRU * 32 + 8) = false → t.fltSet (pgTRU * 32 + 8) = true) ∧
    t.hbm = s.hbm

/-- Debug token `b` stands in flash in `t` (R568). -/
def TokenStored (s t : State) (b : List Byte) : Prop := (∀ i, i < 288 → t.flashByte (0x37FF000 + i) = b.getD i 0) ∧ t.hbm = s.hbm

/-- A debug token is refused in `t`: nothing is stored, and the refusal is reported (R568). -/
def TokenRefused (s t : State) : Prop :=
  t.flash = s.flash ∧ t.trust = s.trust ∧ (s.fltMasked (pgTRU * 32 + 7) = false → t.fltSet (pgTRU * 32 + 7) = true) ∧ t.hbm = s.hbm

/-- Every image slot but one is in `t` what it is in `s`. -/
def SlotsKept (s t : State) (slot : Nat) : Prop := ∀ i, i < 8 → i ≠ slot → t.slotState i = s.slotState i ∧ t.slotImg i = s.slotImg i

end State

/-- Commands that can meet a result which the spec leaves undefined, where they stop (log 10). -/
def mayBeUndefined (c : Instr) : Bool :=
  match c with
  | .registerWrite _ _ _ _ _ | .debugPortAccess _ _ _ | .ingressOrderPass _ _ | .winRouteWrite _ _ _ | .armedSwap | .fallbackSwap
  | .fabricPacketReceive _ _ _ | .slotSample _ _ _ _ | .plannerPass | .traceRecordWrite _ | .timeSample _ | .ptmInterval
  | .bootStepDone _ | .vfEnableChange _ _ _ => true
  | _ => false

end Sys2Proof.Machine
end

