-- ==== Sys2Proof/Certificates/Slice0/Obligations.lean ====
section
/-! DEFINITION. The statements for the provers: what each command does, to what extent, and what every step keeps. A statement says in its
docstring which rules of spec/ it formalises; a clause that rests on a choice of the model names its log entry. -/

open Sys2Proof Sys2Proof.Machine

/-! ## The machine -/

/-- A step with a command in front of the queue is that command's effect on the state with the queue's rest. -/
def Obligations.StepRunsTheFrontCommand : Prop :=
  ∀ (c : Instr) (r : List Instr) (s : State), step { s with pending := c :: r } = exec c { s with pending := r }

/-- With no command waiting, a step is one tick (log 2): the model's clock advances; while the root PLL is not in lock nothing else changes
(R612); while it is, and no selection of a Vintage, no freed credit and no YIELD is due at the tick's end, fabric time advances modulo 2^64 (R133,
R613), and packets, samples and memories stay as they are. -/
def Obligations.EmptyQueueIsATick : Prop :=
  ∀ s : State, s.pending = [] →
    (s.flag pgCLK CLK_STS.PLL_LOCK = false → step s = .next { s with ticks := s.ticks + 1 }) ∧
    (s.flag pgCLK CLK_STS.PLL_LOCK = true → s.sched.events = [] → s.edge.freed = [] → s.mir.yieldDue = false → s.firing = [] → ∃ t, step s = .next t ∧
      t.ticks = s.ticks + 1 ∧ t.fabric = (s.fabric + 1) % 2 ^ 64 ∧ t.pending = [] ∧ t.packets = s.packets ∧ t.hbm = s.hbm ∧
      t.trace = s.trace ∧ t.swb = s.swb ∧ t.flash = s.flash ∧ t.firing = [])

/-- Reset values that the spec states: an identity, the Cellar states and modes, masks, the seal, severities, fabric time, and the states of
links, slots and the fault logs. -/
def Obligations.ResetValues : Prop :=
  State.reset.pending = [] ∧ State.reset.fabric = 0 ∧ State.reset.reg 0x80 = 0x91602102 ∧ (∀ c < 4, State.reset.cellarState c = 0) ∧
  (∀ c < 4, State.reset.cellarMode c = 0) ∧ (∀ c < 4, State.reset.getF pgGLB GLB_CEL_STS.EMPTY / 2 ^ c % 2 = 1) ∧
  State.reset.flag pgGLB GLB_SEAL.SEAL = false ∧ State.reset.reg (pgFLT * 4096 + 0x24) = 0xFFFFFFFF ∧
  State.reset.getF pgFLT PAGE_CTL.INT_DEST = 0x1F ∧ State.reset.devFatal = false ∧ State.reset.logCount = 0 ∧ State.reset.leesCount = 0 ∧
  (∀ p < 64, State.reset.linkState p = 0) ∧ (∀ n < 40, State.reset.slotSt n = 0)

/-- Between commands no firing waits and every open sample is held, and the memories of bytes are in canonical form: this holds at reset. -/
def Obligations.InvariantAtReset : Prop :=
  State.reset.Inv ∧ Memory.wf 0 State.reset.hbm = true ∧ Memory.wf 0xFF State.reset.flash = true

/-- Every step keeps the invariant: the collector has handled every firing of the cycle (R460), and each sampled packet that is gone has its
outcome (R603). -/
def Obligations.EveryStepKeepsTheInvariant : Prop :=
  ∀ s t : State, s.Inv → step s = .next t → t.Inv

/-- Every step keeps the canonical form of HBM and of the boot flash, whose unlisted bytes read 0x00 (log 9) and, being erased, 0xFF (R557). -/
def Obligations.EveryStepKeepsMemoriesCanonical : Prop :=
  ∀ s t : State, step s = .next t →
    (Memory.wf 0 s.hbm = true → Memory.wf 0 t.hbm = true) ∧ (Memory.wf 0xFF s.flash = true → Memory.wf 0xFF t.flash = true)

/-- A write of bytes to HBM keeps the canonical form of the memory, and reads back: a byte that the list gives is that byte, every other byte
is as before. -/
def Obligations.HbmWriteReadsBack : Prop :=
  ∀ (s : State) (a : Nat) (l : List (Option Byte)),
    (Memory.wf 0 s.hbm = true → Memory.wf 0 (s.hbmWrite a l).hbm = true) ∧
    ∀ c, (s.hbmWrite a l).hbmByte c = if a ≤ c ∧ c < a + l.length then (l.getD (c - a) none).getD (s.hbmByte c) else s.hbmByte c

/-- Every command answers a next state, in every state and for every operand, but for the fourteen that can meet a result which the spec leaves
undefined (log 10). What that next state is, the statements of each family say. -/
def Obligations.EveryOtherCommandCompletes : Prop :=
  ∀ (c : Instr) (s : State), mayBeUndefined c = false → ∃ t, exec c s = .next t

/-- Log 10: a command stops, with the rule that calls its result undefined, where an image that breaks a rule of chapter 5 would become active, a
header breaks Table 8.10 (R311), the thresholds of the planner (R591), of a slot (R544) or the source of fabric time (R634) break their rules, the
trace region has no room (R607), the loaded configuration is undefined, NumVFs rises over an instance whose channels another uses (R423), a request
meets a SHARED window beyond the region (R128), or a write applies a window (R354), or a channel's configuration (R454), whose change is
undefined. -/
def Obligations.UndefinedResultsStop : Prop :=
  ∀ (s : State) (who : Requester) (a : ArmOp) (f : FbOp) (v : Vintage) (p c r n : Nat) (en : Bool) (d : Dword) (k : Packet) (h : FabHdr) (tlp : Tlp) (va vb : Nat) (ms : List SlotMeas)
    (ok : Bool) (ptm : Option (Nat × Nat)) (x : TraceRec) (info : BootInfo) (w : Word), s.Inv →
    (s.sched.arm = some a → s.devFatal = false → a.tick ≤ s.fabric → s.slotImg a.slot = some v → a.pair = false → (∀ d < 4, givesTo v d = true → s.cellarRun d = true) →
      s.imageBad v = some r → exec .armedSwap s = .fault (.undefinedResult r)) ∧
    (s.sched.fb = some f → s.devFatal = false → f.tick ≤ s.fabric → s.slotImg f.slot = some v → s.imageBad v = some r →
      exec .fallbackSwap s = .fault (.undefinedResult r)) ∧
    (s.isFfl p = true → s.lkState p = 3 → badHdr h = true →
      exec (.fabricPacketReceive p h tlp) s = .fault (.undefinedResult 311)) ∧
    (s.ageMode ≠ 0 → s.flag pgAGE AGE_STS.PASS_BUSY = false → s.age.passAt + s.getF pgAGE AGE_CTL.PLAN_INT * 60000000000 ≤ s.fabric →
      s.ageBad = true → exec .plannerPass s = .fault (.undefinedResult 591)) ∧
    ((∀ t, s.spc.sampleAt = some t → t + 1000 ≤ s.ticks) → s.slotBad = true → exec (.slotSample va vb ms ok) s = .fault (.undefinedResult 544)) ∧
    (s.sourceBad = true → exec (.timeSample ptm) s = .fault (.undefinedResult 634) ∧
      (s.timeSource = .ptm p → exec .ptmInterval s = .fault (.undefinedResult 634))) ∧
    (s.traceNext c = some x → s.cellarRun c = true → s.flag (pgPMUT c) PMU_RING_CTL.EN = true → s.spillDue = none →
      (s.regionSize 2 = 0 ∨ s.regionSize 2 % 256 ≠ 0) → exec (.traceRecordWrite c) s = .fault (.undefinedResult 607)) ∧
    (s.boot.step = 6 → (s.bootConfig info).configBad = some r → exec (.bootStepDone info) s = .fault (.undefinedResult r)) ∧
    (s.granted who (State.offOf (pgWIN p) WIN_ROUTE.KIND (p % 128)) 4 = true → s.winUndefined p = some r →
      exec (.winRouteWrite who p w) s = .fault (.undefinedResult r)) ∧
    (s.partOn p = true → s.vfClash p en n = true → exec (.vfEnableChange p en n) s = .fault (.undefinedResult 423)) ∧
    (c < 1024 → s.grants .mgmt (pgDMA (c / 256)) DMA_CHCFG.STAGE (c % 256) = true → s.pageSealed (pgDMA (c / 256)) = false → s.chState c ≠ 0 →
      s.getF (pgDMA (c / 256)) DMA_CHCFG.STAGE (c % 256) ≠ d.toNat % 512 → d.toNat % 512 ≤ 256 →
      exec (.registerWrite .mgmt (State.offOf (pgDMA (c / 256)) DMA_CHCFG.STAGE (c % 256)) false 0xF d) s = .fault (.undefinedResult 454)) ∧
    (p < 64 → s.cellarRun (cellarOf p) = true → s.ingressHead p 1 = some k → k.place = .ingress → k.tlp.kind = .mrd → k.route = .shared n →
      k.fab = none → k.bad = false → k.acc.getLastD 0 + 30 ≤ s.fabric → s.earlierPosted k.ini k.id = false → (s.port p).cleanup = false →
      s.devFatal = false → s.standby = false → s.hdmPast k = false → s.regionBase 1 + s.regionSize 1 < n + max 1 k.tlp.len →
      exec (.ingressOrderPass p 1) s = .fault (.undefinedResult 128))

/-! ## Register pages (chapters 1 and 2) -/

/-- R27, R28: what a write of a mode does to the mode and to the state of its Cellar. A Cellar that is CHANGING, or already there, stays as it
is; one that is in RUN and not empty refuses a HOLD or a GATE; else it changes, and the prefetch blocks of its ports go.
R28, R29, R30, R33: a Cellar in CHANGING reaches the state of its mode, and one in another state stays as it is; no other Cellar's state changes,
and no packet and no byte of HBM. One that returns to RUN keeps the locks of its pages, their interrupt masks and causes are at reset, and
its TTU slice and its prefetch store hold nothing. -/
def Obligations.CellarModes : Prop :=
  (∀ (s : State) (who : Requester) (c : Nat), s.Inv → c < 4 → s.grants who pgGLB GLB_CEL_CTL.C0_MODE = true →
      ((s.cellarState c = 3 ∨ s.cellarState c = 1) → exec (.cellarHoldReq who c) s = .next s) ∧
      ((s.cellarState c = 3 ∨ s.cellarState c = 2) → exec (.cellarGateReq who c) s = .next s) ∧
      ((s.cellarState c = 3 ∨ s.cellarState c = 0) → exec (.cellarRunReq who c) s = .next s) ∧
      (s.cellarState c = 0 → s.cellarEmpty c = false →
        exec (.cellarHoldReq who c) s =
          .next ((s.setCellarMode c 0).setF pgGLB GLB_CEL_STS.REFUSED (bitSet (s.getF pgGLB GLB_CEL_STS.REFUSED) c)) ∧
        exec (.cellarGateReq who c) s =
          .next ((s.setCellarMode c 0).setF pgGLB GLB_CEL_STS.REFUSED (bitSet (s.getF pgGLB GLB_CEL_STS.REFUSED) c))) ∧
      (s.cellarState c = 2 ∨ (s.cellarState c = 0 ∧ s.cellarEmpty c = true) → exec (.cellarHoldReq who c) s =
        .next (((s.setCellarMode c 1).setCellarState c 3).pfDiscard fun b => cellarOf b.port == c)) ∧
      (s.cellarState c = 1 ∨ (s.cellarState c = 0 ∧ s.cellarEmpty c = true) → exec (.cellarGateReq who c) s =
        .next (((s.setCellarMode c 2).setCellarState c 3).pfDiscard fun b => cellarOf b.port == c)) ∧
      (s.cellarState c = 1 ∨ s.cellarState c = 2 → exec (.cellarRunReq who c) s =
        .next (((s.setCellarMode c 0).setCellarState c 3).pfDiscard fun b => cellarOf b.port == c))) ∧
  (∀ (s : State) (c : Nat), s.Inv → c < 4 →
      (s.cellarState c ≠ 3 → exec (.cellarModeReached c) s = .next s) ∧
      (s.cellarState c = 3 → ∃ t, exec (.cellarModeReached c) s = .next t ∧
        t.cellarState c = s.cellarMode c ∧ (∀ d, d < 4 → d ≠ c → t.cellarState d = s.cellarState d) ∧ (∀ d, d < 4 → t.cellarMode d = s.cellarMode d) ∧
        t.packets = s.packets ∧ t.hbm = s.hbm ∧ t.sched = s.sched ∧ t.trk = s.trk ∧ t.flash = s.flash ∧
        (s.cellarMode c ≠ 0 → t.ports = s.ports ∧ t.lanes = s.lanes ∧ t.chans = s.chans ∧ t.out = s.out ∧
          ∀ g o, g / 256 = c + 1 → o < 4096 → t.reg (4096 * g + o) = s.reg (4096 * g + o)) ∧
        (s.cellarMode c = 0 →
          (∀ g, g / 256 = c + 1 → (pageKind g).isSome = true → t.flag g PAGE_LOCK.LOCK = s.flag g PAGE_LOCK.LOCK ∧
            t.getF g INT_MASK.BITS = 0xFFFFFFFF ∧ t.getF g INT_CAUSE.BITS = 0) ∧
          (∀ e ∈ t.ttu, e.1 / 4096 ≠ c) ∧ (∀ b ∈ t.pf, b.cellar ≠ c) ∧ (∀ w ∈ t.walks, w.cellar ≠ c))))

/-- R6, R60: a write of all four bytes of PAGE_CTL stores its three RW fields and nothing else; one whose byte enables are partial stores
nothing and raises PAGE_ACCESS, which sets bit 31 of FLT_CAUSE unless it is masked.
R75: PAGE_LOCK.LOCK seals its page, and GLB_SEAL.SEAL all of them; a SEAL record (type 0xA, R554) is added to the Cellar Book with a
checkpoint due (R556). -/
def Obligations.RegisterWritesAndLocks : Prop :=
  (∀ (s : State) (who : Requester) (page be : Nat) (data : Dword), s.Inv → page < 2048 → s.tenantMay who (page * 4096 + 0xC) = true →
      s.granted who (page * 4096 + 0xC) 4 = true →
      (exec (.registerWrite who (page * 4096 + 0xC) false 0xF data) s = .next
        (((s.setF page PAGE_CTL.INT_DEST (bitsOf data 28 24)).setF page PAGE_CTL.FORCE_NOESC (bitsOf data 11 11)).setF page PAGE_CTL.INT_VEC
          (bitsOf data 10 0))) ∧
      ((who = .mgmt ∨ who = .debug) → 0 < be → be < 15 → s.fltMasked (page * 32 + 31) = false → ∃ t,
        exec (.registerWrite who (page * 4096 + 0xC) false be data) s = .next t ∧ t.fltSet (page * 32 + 31) = true ∧
        t.reg (page * 4096 + 0xC) = s.reg (page * 4096 + 0xC) ∧ t.hbm = s.hbm ∧ t.ports = s.ports ∧ t.lanes = s.lanes ∧ t.sched = s.sched)) ∧
  (∀ (s : State) (who : Requester) (page : Nat), s.Inv →
      (page < 2048 → s.grants who page PAGE_LOCK.LOCK = true →
        exec (.pageLockWrite who page) s = .next (s.setFlag page PAGE_LOCK.LOCK true) ∧ (s.setFlag page PAGE_LOCK.LOCK true).pageSealed page = true) ∧
      (s.grants who pgGLB GLB_SEAL.SEAL = true → s.flag pgGLB GLB_SEAL.SEAL = false → s.trust.held.length < 4096 → ∃ t,
        exec (.glbSealWrite who) s = .next t ∧ t.flag pgGLB GLB_SEAL.SEAL = true ∧ (∀ x, t.pageSealed x = true) ∧
        t.trust.held.length = s.trust.held.length + 1 ∧ t.trust.cpDue.isSome = true ∧ t.packets = s.packets ∧ t.hbm = s.hbm ∧ t.out = s.out))

/-- R6, R7: a read of a count of log entries by class returns the count and clears it; nothing else changes.
R59: a read of the low word of the 64-bit time of the first fault returns that word and latches the high one; the same requester's read of
the high word then returns what was latched, whatever the register holds by then.
R380, Table 2.4: the debug port reads GLB_DEV_ID. -/
def Obligations.RegisterReads : Prop :=
  (∀ (s : State) (who : Requester) (i : Nat), s.Inv → i < 5 → s.readable who (State.offOf pgFLT FLT_CNT.ENTRIES i) 4 = true → s.heldRegs = [] →
      exec (.rcRead who (State.offOf pgFLT FLT_CNT.ENTRIES i) false) s = .next ((s.setF pgFLT FLT_CNT.ENTRIES 0 i).emit
        (.regRead (State.offOf pgFLT FLT_CNT.ENTRIES i) (BitVec.ofNat 64 (s.getF pgFLT FLT_CNT.ENTRIES i))))) ∧
  (∀ (s : State) (who : Requester) (v : Dword), s.Inv → s.readable who (State.offOf pgFLT FLT_FIRST_T.TIME) 4 = true →
      s.readable who (State.offOf pgFLT FLT_FIRST_T.TIME + 4) 4 = true → s.heldRegs = [] →
      ∃ t, exec (.lowWordRead who (State.offOf pgFLT FLT_FIRST_T.TIME)) s = .next t ∧
        t.out = .regRead (State.offOf pgFLT FLT_FIRST_T.TIME) (BitVec.ofNat 64 (s.getF pgFLT FLT_FIRST_T.TIME % 2 ^ 32)) :: s.out ∧
        t.regs = s.regs ∧ t.hbm = s.hbm ∧
        ∃ u, exec (.rcRead who (State.offOf pgFLT FLT_FIRST_T.TIME + 4) false) (t.setReg (State.offOf pgFLT FLT_FIRST_T.TIME) v) = .next u ∧
          u.out = .regRead (State.offOf pgFLT FLT_FIRST_T.TIME + 4) (BitVec.ofNat 64 (s.getF pgFLT FLT_FIRST_T.TIME / 2 ^ 32)) :: t.out) ∧
  (∀ s : State, s.Inv → s.readable .debug 0x80 4 = true → s.heldRegs = [] →
      exec (.debugPortAccess 0x80 false none) s = .next (s.emit (.regRead 0x80 (s.reg 0x80))))

/-! ## Interrupt and fault bits of a page (chapters 2 and 13) -/

/-- R68, R457: INT_FORCE sets the causes written as 1; FLT_FORCE makes each source written as 1 fire, and the collector sets the FLT_CAUSE bit of
every one that is not masked. Memory, ports and schedule stay as they are.
R71, R474: a write of FLT_ACK clears exactly the FLT_CAUSE bits written as 1, and nothing but that register and the pin's own changes. -/
def Obligations.FaultsAndInterrupts : Prop :=
  (∀ (s : State) (who : Requester) (page bits : Nat) (k : PageKind), s.Inv → page < 2048 → pageKind page = some k →
      (s.grants who page INT_FORCE.BITS = true → ∃ t, exec (.intForceWrite who page bits) s = .next t ∧
        t.getF page INT_CAUSE.BITS = (s.getF page INT_CAUSE.BITS ||| bits % 2 ^ k.nint) % 2 ^ 32 ∧
        (∀ j, j ≠ State.fkey page INT_CAUSE.BITS 0 → t.reg j = s.reg j) ∧ t.packets = s.packets ∧ t.hbm = s.hbm ∧ t.ports = s.ports) ∧
      (s.grants who page FLT_FORCE.BITS = true → ∃ t, exec (.fltForceWrite who page bits) s = .next t ∧
        (∀ b ∈ State.srcBits k, bitAt bits b = true → s.fltMasked (page * 32 + b) = false → t.fltSet (page * 32 + b) = true) ∧
        t.hbm = s.hbm ∧ t.ports = s.ports ∧ t.sched = s.sched ∧ t.lanes = s.lanes)) ∧
  (∀ (s : State) (who : Requester) (page bits : Nat), s.Inv → page < 2048 → s.grants who page FLT_ACK.BITS = true → ∃ t,
      exec (.fltAckWrite who page bits) s = .next t ∧
      t.getF page FLT_CAUSE.BITS = s.getF page FLT_CAUSE.BITS &&& (bits ^^^ 0xFFFFFFFF) % 2 ^ 32 ∧ s.OnlyRegs t ∧
      ∀ j, j ≠ State.fkey page FLT_CAUSE.BITS 0 → j ≠ State.fkey pgFLT FLT_PIN.ASSERTED 0 → t.reg j = s.reg j)

/-! ## Forwarding and buffers (chapters 3 and 10) -/

/-- R85, R374: a memory request received at a port, which no BAR claims, no instance holds and a window routes to another port, stands at the
ordering point of its ingress with that route, when the byte-lane rule moves nothing, the destination takes traffic and its slot allows it. `a` is
the state with the packet in the ingress; every packet held before stays. -/
def Obligations.MemoryRequestIsAccepted : Prop :=
  ∀ (s a : State) (p d : Nat) (tlp : Tlp) (acc : List Nat) (k : Packet) (attr : Attr) (limit : Option Nat), s.Inv → s.takesTlp p = true →
    (tlp.kind = .mrd ∨ tlp.kind = .mwr) → tlp.ide = none → s.receive p tlp acc = (a, k) → a.firing = [] → k.bound = none →
    a.notServed k.part = false → a.attBlocked p = false → a.acsBlocks p tlp = false → a.masterOff k = false → a.devFatal = false → a.partFatal k.part = false →
    (a.isUp p = true → a.barHit k.part tlp.addr = none) →
    a.routeWin 4 k.part p false tlp = .ok (.port d) attr limit k.part → (∀ l, limit = some l → tlp.addr + tlp.len ≤ l + 1) → attr.swap = 0 →
    a.noTraffic d = false → a.isFfl d = false →
    a.partFatal (a.portPart d) = false → a.attBlocked d = false →
    a.judge 0 d k.part (needsRd tlp) (needsWr tlp) (judgedAddrs tlp) = none →
    ∃ t q, exec (.tlpReceive p tlp acc false false) s = .next t ∧ q ∈ t.packets ∧ q.id = s.nextId ∧ q.tlp = tlp ∧ q.ing = p ∧
      q.route = .port d ∧ q.place = .ingress ∧ t.nextId = s.nextId + 1 ∧ (∀ x ∈ s.packets, x.id ≠ s.nextId → x ∈ t.packets) ∧
      t.hbm = s.hbm ∧ t.trk = s.trk ∧ t.sched = s.sched

/-- R96, R97, R264: a completion that answers a tracked request of a host stands at the ordering point on its way to the port of its requester, with
the request's Requester ID; the tracker entry is free once the completion has fully returned, and stays until then. -/
def Obligations.CompletionReturnsToItsRequester : Prop :=
  ∀ (s a : State) (p d rid : Nat) (tlp : Tlp) (acc : List Nat) (k : Packet) (e : TrkEntry) (g : Nat) (x : Option Nat), s.Inv →
    s.takesTlp p = true → tlp.kind = .cpl → tlp.ide = none → s.devFatal = false → s.receive p tlp acc = (a, k) → a.firing = [] →
    a.trkFind p tlp.rid tlp.tag = some e → e.orphan = none → e.pkt.owner = .requester → e.pkt.ini = .port g rid x →
    a.routeId (a.portPart g) rid = some d → a.acsOn p 3 = false → a.noTraffic d = false →
    ∃ t q, exec (.completionReceive p tlp acc .good) s = .next t ∧ q ∈ t.packets ∧ q.id = s.nextId ∧ q.route = .port d ∧ q.place = .ingress ∧
      q.tlp.rid = rid ∧ t.trk = (if State.lastCpl e.pkt.tlp tlp = true then
        s.trk.filter (fun y => !(y.port == e.port && y.rid == e.rid && y.tag == e.tag)) else s.trk) ∧
      (∀ y ∈ s.packets, y.id ≠ s.nextId → y ∈ t.packets) ∧ t.hbm = s.hbm

/-- R91, R242: a configuration write of the host sets the windows, the memory enable and the bus numbers of a virtual bridge, the access control of
a downstream one, the multicast registers of an upstream one, or the registers of its partition's function, and nothing else; no write is performed while the partition is not served (R630).
R92, R366, R379: a write of WIN_BASE is held and no register changes; a write of WIN_ROUTE then makes what is held take effect with it, leaves
nothing held for the window, and makes the window's prefetch blocks invalid. The access slots hold and apply alike.
R101: a write of FWD_EPT_DATA sets the entry that FWD_EPT_IDX names, in an unsealed page, and moves the index on where AUTOINC is set. -/
def Obligations.ForwardingTables : Prop :=
  (∀ (s : State) (p v : Nat) (reg : CfgReg), s.Inv → (s.isUp p || s.isDown p) = true →
      (s.notServed (s.portPart p) = true → exec (.bridgeConfigWrite p reg v) s = .next s) ∧
      (s.notServed (s.portPart p) = false →
        exec (.bridgeConfigWrite p .memBase v) s = .next (s.modPort p fun x => { x with br := { x.br with memBase := v } }) ∧
        exec (.bridgeConfigWrite p .memLimit v) s = .next (s.modPort p fun x => { x with br := { x.br with memLimit := v } }) ∧
        exec (.bridgeConfigWrite p .pfBase v) s = .next (s.modPort p fun x => { x with br := { x.br with pfBase := v } }) ∧
        exec (.bridgeConfigWrite p .pfLimit v) s = .next (s.modPort p fun x => { x with br := { x.br with pfLimit := v } }) ∧
        exec (.bridgeConfigWrite p .memEnable v) s = .next (s.modPort p fun x => { x with br := { x.br with memEn := v != 0 } }) ∧
        exec (.bridgeConfigWrite p .priBus v) s = .next (s.modPort p fun x => { x with br := { x.br with priBus := v % 256 } }) ∧
        exec (.bridgeConfigWrite p .secBus v) s = .next (s.modPort p fun x => { x with br := { x.br with secBus := v % 256 } }) ∧
        exec (.bridgeConfigWrite p .subBus v) s = .next (s.modPort p fun x => { x with br := { x.br with subBus := v % 256 } }) ∧
        (s.isDown p = true →
          exec (.bridgeConfigWrite p .acs v) s = .next (s.modPort p fun x => { x with br := { x.br with acs := v % 128 } }) ∧
          exec (.bridgeConfigWrite p .egressVec v) s = .next (s.modPort p fun x => { x with br := { x.br with egressVec := v % 2 ^ 64 } }) ∧
          exec (.bridgeConfigWrite p .ariForward v) s = .next (s.modPort p fun x => { x with br := { x.br with ariFwd := v != 0 } }) ∧
          exec (.bridgeConfigWrite p .dpcControl v) s = .next (s.modPort p fun x => { x with br := { x.br with dpcUr := v != 0 } })) ∧
        (s.isUp p = true →
          exec (.bridgeConfigWrite p .mcBase v) s = .next (s.modPort p fun x => { x with br := { x.br with mcBase := v } }) ∧
          exec (.bridgeConfigWrite p .mcEnable v) s = .next (s.modPort p fun x => { x with br := { x.br with mcEn := v != 0 } }) ∧
          exec (.bridgeConfigWrite p .mcNum v) s = .next (s.modPort p fun x => { x with br := { x.br with mcNum := v % 64 } }) ∧
          exec (.bridgeConfigWrite p .mcReceive v) s = .next (s.modPort p fun x => { x with br := { x.br with mcReceive := v % 2 ^ 64 } }) ∧
          exec (.bridgeConfigWrite p .mcBlock v) s = .next (s.modPort p fun x => { x with br := { x.br with mcBlock := v % 2 ^ 64 } }) ∧
          exec (.bridgeConfigWrite p .functionRid v) s = .next (s.modPart (s.portPart p) fun x => { x with pfRid := v / 256 % 256 * 256 }) ∧
          exec (.bridgeConfigWrite p .busMaster v) s = .next (s.modPart (s.portPart p) fun x => { x with busMaster := v != 0 }) ∧
          exec (.bridgeConfigWrite p .pfMemEnable v) s = .next (s.modPart (s.portPart p) fun x => { x with memEn := v != 0 }) ∧
          exec (.bridgeConfigWrite p .vfMemEnable v) s = .next (s.modPart (s.portPart p) fun x => { x with vfMemEn := v != 0 }) ∧
          exec (.bridgeConfigWrite p .cplTimeout v) s = .next (s.modPart (s.portPart p) fun x => { x with cplTimeout := v })))) ∧
  (∀ (s : State) (who : Requester) (w n : Nat) (v : Dword) (r : Word), s.Inv → w < 8064 → n < 96 →
      (s.pageSealed (pgWIN w) = false → s.grants who (pgWIN w) WIN_BASE.ADDR (w % 128) 8 = true → ∃ t,
        exec (.winFieldWrite who w .base v) s = .next t ∧ { t with heldRegs := s.heldRegs, latches := s.latches } = s ∧
        t.heldRead (State.fkey (pgWIN w) WIN_BASE.ADDR (w % 128)) = bitsPut (s.heldRead (State.fkey (pgWIN w) WIN_BASE.ADDR (w % 128))) 63 12 (bitsOf v 63 12)) ∧
      (s.pageSealed (pgWIN w) = false → s.grants who (pgWIN w) WIN_ROUTE.KIND (w % 128) = true → s.winUndefined w = none → ∃ t,
        exec (.winRouteWrite who w r) s = .next t ∧
        (∀ f ∈ [WIN_BASE.ADDR, WIN_LIMIT.ADDR, WIN_ATTR.PFSZ],
          t.reg (State.fkey (pgWIN w) f (w % 128)) = s.heldRead (State.fkey (pgWIN w) f (w % 128)) ∧
          t.heldRead (State.fkey (pgWIN w) f (w % 128)) = s.heldRead (State.fkey (pgWIN w) f (w % 128))) ∧
        t.reg (State.fkey (pgWIN w) WIN_ROUTE.KIND (w % 128)) = BitVec.ofNat 64 (r.toNat &&& 0xF1FFFFFF) ∧
        (∀ b ∈ t.pf, b.win = w → b.valid = false) ∧ (s.winLosesRule w = false → t.packets = s.packets) ∧
        (∀ p ∈ s.packets, p.attr.win ≠ some w → p ∈ t.packets) ∧ t.hbm = s.hbm ∧ t.trk = s.trk) ∧
      (s.pageSealed pgACC = false → s.grants who pgACC ACC_BASE.ADDR n 8 = true → ∃ t,
        exec (.accHeldWrite who n .base v) s = .next t ∧ { t with heldRegs := s.heldRegs, latches := s.latches } = s ∧
        t.heldRead (State.fkey pgACC ACC_BASE.ADDR n) = bitsPut (s.heldRead (State.fkey pgACC ACC_BASE.ADDR n)) 63 6 (bitsOf v 63 6)) ∧
      (s.pageSealed pgACC = false → s.grants who pgACC ACC_RD.EN n = true → ∃ t,
        exec (.accRdWrite who n r) s = .next t ∧
        (∀ f ∈ [ACC_BASE.ADDR, ACC_LIMIT.ADDR, ACC_WR.PARTS], t.reg (State.fkey pgACC f n) = s.heldRead (State.fkey pgACC f n)) ∧
        t.reg (State.fkey pgACC ACC_RD.EN n) = BitVec.ofNat 64 (r.toNat &&& 0x80FFFFFF) ∧ t.packets = s.packets ∧ t.hbm = s.hbm ∧ t.pf = s.pf)) ∧
  (∀ (s : State) (who : Requester) (v : Word), s.Inv → s.grants who pgFWD FWD_EPT_DATA.KIND = true → s.pageSealed pgFWD = false → ∃ t,
      exec (.fwdEptDataAccess who (some v)) s = .next t ∧
      (∀ e, storeGet (fun _ => (0 : Word)) t.ept e = if e = s.getF pgFWD FWD_EPT_IDX.EP then v &&& 0xF01F003F else storeGet (fun _ => 0) s.ept e) ∧
      t.getF pgFWD FWD_EPT_IDX.EP = (if s.flag pgFWD FWD_EPT_IDX.AUTOINC then (s.getF pgFWD FWD_EPT_IDX.EP + 1) % 4096 else s.getF pgFWD FWD_EPT_IDX.EP) ∧
      t.packets = s.packets ∧ t.hbm = s.hbm ∧ t.out = s.out)

/-- R111, R313, R319: the oldest non-posted packet of an ingress that reads the shared window passes the ordering point once its last cell has been
there 30 ticks and no earlier posted write of its initiator waits: it takes the next place in the order and waits at the window's engine. -/
def Obligations.SharedReadPassesTheOrderingPoint : Prop :=
  ∀ (s : State) (ing h : Nat) (p : Packet), s.Inv → ing < 64 → s.cellarRun (cellarOf ing) = true → s.ingressHead ing 1 = some p →
    p.place = .ingress → p.tlp.kind = .mrd → p.route = .shared h → p.fab = none → p.bad = false → s.fabric ≥ p.acc.getLastD 0 + 30 →
    s.earlierPosted p.ini p.id = false → (s.port ing).cleanup = false → s.devFatal = false → s.standby = false → s.engineTag p = some p →
    s.hdmPast p = false → h + max 1 p.tlp.len ≤ s.regionBase 1 + s.regionSize 1 →
    ∃ t q, exec (.ingressOrderPass ing 1) s = .next t ∧ t.order = s.order + 1 ∧ q.id = p.id ∧ q.tlp = p.tlp ∧ q.place = .window ∧
      q.order = s.order ∧ t.packets = s.packets.filter (fun x => x.id != p.id) ++ [q] ∧ t.hbm = s.hbm ∧ t.swb = s.swb ∧ t.trk = s.trk

/-- R365, R366: the data of a completed fetch goes to the reads that wait, and the block holds it as the most recently filled; a block whose HOLD
time has passed is discarded.
R369, R370: an orphan tracker entry that has held for ORPHAN_T µs is freed and counted; one that is no orphan and has held for LIVE_T ms is
freed, counted, reported as FWD source 8, and a host's request completes as Completer Abort. -/
def Obligations.PrefetchAndReaper : Prop :=
  (∀ (s : State) (id : Nat) (b : PfBlock), s.Inv → s.pf.find? (·.id == id) = some b →
      (∀ data, b.result = some (.sc, data, false) → b.valid = true → b.waiting = [] → exec (.prefetchFillDone id) s = .next { s with
        pf := s.pf.filter (fun x => x.id != b.id) ++ [{ b with data := some data, result := none, waiting := [], born := s.ticks, got := [] }] }) ∧
      (b.data.isSome = true → b.born + 16 * s.getF pgFWD FWD_PF_CTL.HOLD ≤ s.ticks → ∃ t, exec (.prefetchHoldExpire id) s = .next t ∧
        (∀ x ∈ t.pf, x.id = id → x.valid = false) ∧ (∀ x ∈ s.pf, x.id ≠ id → x ∈ t.pf) ∧ t.packets = s.packets ∧ t.out = s.out)) ∧
  (∀ (s : State) (port rid tag : Nat) (e : TrkEntry), s.Inv → s.trkFind port rid tag = some e →
      (∀ t0, e.orphan = some t0 → t0 + 1000 * s.getF pgFWD FWD_REAP_CTL.ORPHAN_T ≤ s.ticks →
        exec (.orphanReap port rid tag) s = .next ((s.trkDrop e).addF pgFWD FWD_REAP_CNT0.ORPHAN)) ∧
      (∀ g x y, e.orphan = none → s.getF pgFWD FWD_REAP_CTL.LIVE_T ≠ 0 → e.born + 1000000 * s.getF pgFWD FWD_REAP_CTL.LIVE_T ≤ s.ticks →
        e.pkt.owner = .requester → e.pkt.ini = .port g x y → s.stale e.pkt = false → e.pkt.forbidden = false → s.noTraffic g = false →
        ∃ t, exec (.liveReap port rid tag) s = .next t ∧ t.trk = (s.trkDrop e).trk ∧ t.Completes g e.pkt.ebase (s.ownCpl e.pkt x .ca [] false) ∧
          t.hbm = s.hbm))

/-! ## The spine, spill and queues (chapters 1, 3 and 6) -/

/-- R36, R37, R149, R160: a spine slot owned by a stream carries the next cell of that stream's oldest packet on the path; another carries the cell
of the requester that round-robin selects, and the pointer moves past it. The oldest cell due at a queue reaches its egress pipeline.
R122, R123: a placed burst of the active Vintage moves the cells of its queue and takes 144 ticks back to SRAM, 96 to HBM; a best-effort burst
moves up to eight cells of the queue that round-robin picks, where placed bursts leave room; the oldest burst that is over takes its cells to where they go. -/
def Obligations.SpineAndSpill : Prop :=
  (∀ (s : State) (a b half q : Nat) (p : Packet), s.Inv →
      (a < 4 → b < 4 → a ≠ b → half < 2 → s.cellarRun a = true → s.cellarRun b = true →
        bitAt (s.slotsUsed (4 * a + b)) half = false →
        (∀ x, (s.pathSlots a b).find? (fun x => x.1 == 2 * s.cycPos s.fabric + half) = some x → s.ownsSlots x.2 = true →
          (s.onPath a b).find? (fun p => p.queue == x.2 && (State.nextCell p (2 * s.fabric + half)).isSome) = some p → ∃ t,
          exec (.spineSlot a b half .ok) s = .next t ∧ t.sched.spinePtr = s.sched.spinePtr ∧ t.hbm = s.hbm ∧
          t.packets = s.packets.map fun y => if y.id == p.id then { y with entered := y.entered ++ [2 * s.fabric + half] } else y) ∧
        ((s.pathSlots a b).find? (fun x => x.1 == 2 * s.cycPos s.fabric + half) = none → s.spineBest a b (2 * s.fabric + half) = some p → ∃ t,
          exec (.spineSlot a b half .ok) s = .next t ∧ t.hbm = s.hbm ∧
          storeGet (fun _ => 0) t.sched.spinePtr (4 * a + b) = (State.spineReq p + 1) % 17 ∧
          t.packets = s.packets.map fun y => if y.id == p.id then { y with entered := y.entered ++ [2 * s.fabric + half] } else y)) ∧
      (q < 512 → s.cellarRun (q / 128) = true → (s.inQueue q).find? (fun p => match p.entered[p.arrived]? with
          | some e => decide (State.reachHalf e ≤ 2 * s.fabric + 1)
          | none => false) = some p → ∃ t, exec (.cellEgressArrive q .ok) s = .next t ∧ t.hbm = s.hbm ∧ t.out = s.out ∧
        t.packets = s.packets.map fun y => if y.id == p.id then { y with arrived := y.arrived + 1 } else y)) ∧
  (∀ (s : State) (i q : Nat) (back : Bool) (v : Vintage) (e : SpillSlot) (l : List (Nat × Nat)) (o : SpillOp), s.Inv →
      (s.sched.active = some v → v.spill[i]? = some e → s.spillRuns = true → s.cycPos s.fabric = e.start → s.cellarRun e.cellar = true →
        s.edge.spillAt ≠ some s.ticks → s.spillBurst (128 * e.cellar + e.queue % 128) e.cells (e.dir == 1) = l → l ≠ [] → ∃ t, exec (.spillPlacedBurst i) s = .next t ∧
        t.spillOps = s.spillOps ++ [⟨l, e.dir == 1, s.ticks + (if e.dir = 1 then 144 else 96)⟩] ∧ t.packets = s.packets ∧ t.hbm = s.hbm) ∧
      (s.spillRuns = true → s.spillFree back = true → s.spillPick back = some q → s.spillBurst q 8 back = l → l ≠ [] → ∃ t, exec (.spillBeBurst back) s = .next t ∧
        t.spillOps = s.spillOps ++ [⟨l, back, s.ticks⟩] ∧ t.spillPtr = (q / 128 + 1) % 4 ∧ t.packets = s.packets ∧ t.hbm = s.hbm) ∧
      (s.spillOps.find? (fun o => decide (o.endTick ≤ s.ticks)) = some o → ∃ t, exec (.spillBurstDone []) s = .next t ∧
        t.spillOps = s.spillOps.erase o ∧ t.hbm = s.hbm ∧ t.out = s.out ∧
        t.packets = o.parts.foldl (fun ps x => ps.map fun p => if p.id == x.1 then
          (if o.back then { p with spilled := p.spilled - x.2 } else { p with spillBusy := p.spillBusy + x.2 }) else p) s.packets))

/-- R225, R228: credit that a policer held goes back when its bucket has ended a tick at 0 or more, in an UpdateFC of a PCIe port, in the credit
grants of an FFL port, unless the link is down; else nothing happens. A write of a shaper's RATE or BURST stores it in an unsealed page, and a
bucket above a new BURST is cut to it in the next tick.
R232, R233: a tick at which a snapshot of a page is due keeps, for each of its 64 queues, the depth and the age of the head as they stand at
its start, and the snapshot stores these, with the time and the next sequence number, and sets cause 0 of its page; a head that has stood longer than
LIMIT is found stalled once, which QSH_STALL reports, and the first one is captured. -/
def Obligations.PolicersAndQueues : Prop :=
  (∀ (s : State) (who : Requester) (p c h i : Nat) (v : Word), s.Inv →
      (p < 64 → c < 2 →
        ((p, c) ∉ s.edge.relDue → exec (.policerRelease p c) s = .next s) ∧
        ((p, c) ∈ s.edge.relDue → ∃ t, exec (.policerRelease p c) s = .next t ∧ t.heldOf p c = 0 ∧ t.edge.relDue = s.edge.relDue.erase (p, c) ∧
          (∀ q, q ≠ p → t.port q = s.port q) ∧ t.packets = s.packets ∧ t.hbm = s.hbm ∧ t.trk = s.trk ∧ t.sched = s.sched ∧
          (s.isFfl p = false → t.ffl = s.ffl ∧ t.out = (if s.flag (pgLNK p) LNK_STS.LDOWN = false ∧ (s.heldFcOf p c).1 ≠ 0 then
            .fcUpdate p c (s.heldFcOf p c).1 (s.heldFcOf p c).2 :: s.out else s.out)) ∧
          (s.isFfl p = true → s.flag (pgFFL p) FFL_STS.LDOWN = false → t.out = s.out ∧
            (if c = 0 then (t.fflSt p).ownP = ((s.fflSt p).ownP + s.heldOf p 0) % 65536 ∧ (t.fflSt p).ownNP = (s.fflSt p).ownNP
              else (t.fflSt p).ownNP = ((s.fflSt p).ownNP + s.heldOf p 1) % 65536 ∧ (t.fflSt p).ownP = (s.fflSt p).ownP)))) ∧
      (c < 4 → h < 2 → i < 64 → s.pageSealed (celPage c (3 + h)) = false →
        (s.grants who (celPage c (3 + h)) QSH_SRATE.RATE i = true →
          ∃ t, exec (.shaperParamWrite who (State.offOf (celPage c (3 + h)) QSH_SRATE.RATE i) v) s = .next t ∧
          t.getF (celPage c (3 + h)) QSH_SRATE.RATE i = (if v.toNat % 2 ^ 17 ≤ 0x10000 then v.toNat % 2 ^ 17
            else s.getF (celPage c (3 + h)) QSH_SRATE.RATE i) ∧
          t.flag (celPage c (3 + h)) QSH_SRATE.SHAPE_EN i = v.toNat.testBit 31 ∧ s.OnlyRegs t ∧
          ∀ j, j ≠ State.fkey (celPage c (3 + h)) QSH_SRATE.RATE i → t.reg j = s.reg j) ∧
        (s.grants who (celPage c (3 + h)) QSH_SBURST.BURST i = true → 1 ≤ v.toNat % 4096 → ∃ t,
          exec (.shaperParamWrite who (State.offOf (celPage c (3 + h)) QSH_SBURST.BURST i) v) s = .next t ∧
          t.getF (celPage c (3 + h)) QSH_SBURST.BURST i = v.toNat % 4096 ∧
          t.getF (celPage c (3 + h)) QSH_TOK.TOKENS i = s.getF (celPage c (3 + h)) QSH_TOK.TOKENS i ∧
          (State.offOf (celPage c (3 + h)) QSH_SBURST.BURST i) ∈ t.edge.cuts.map (·.1) ∧
          (t.cutNow (State.offOf (celPage c (3 + h)) QSH_SBURST.BURST i, 0)).getF (celPage c (3 + h)) QSH_TOK.TOKENS i =
            (if toInt32 (s.getF (celPage c (3 + h)) QSH_TOK.TOKENS i) ≤ 65536 * (v.toNat % 4096 : Nat)
              then s.getF (celPage c (3 + h)) QSH_TOK.TOKENS i else 65536 * (v.toNat % 4096)) ∧
          { t with regs := s.regs, edge := s.edge } = s))) ∧
  (∀ (s : State) (n q : Nat) (k : Packet) (r : List Packet) (l : List (Nat × Nat)), s.Inv →
      (s.pending = [] → s.flag pgCLK CLK_STS.PLL_LOCK = true → ∃ t, step s = .next t ∧ ∀ m < 8,
        t.flag (celPage (m / 2) (3 + m % 2)) QSH_SAMP.EN = true → t.fabric % 2 ^ t.getF (celPage (m / 2) (3 + m % 2)) QSH_SAMP.EXP = 0 →
        (m, (List.range 64).map fun i => (t.depth (128 * (m / 2) + 64 * (m % 2) + i), t.headAge (128 * (m / 2) + 64 * (m % 2) + i))) ∈ t.edge.snaps) ∧
      (n < 8 → s.edge.snaps.find? (fun x => x.1 == n) = some (n, l) → l.length = 64 → s.cellarRun (n / 2) = true → ∃ t,
        exec (.queueSnapshot n) s = .next t ∧
        (∀ i < 64, t.getF (celPage (n / 2) (3 + n % 2)) QSH_SNAPD.CELLS i = min 0xFFFFFF (l.getD i (0, 0)).1 ∧
          t.getF (celPage (n / 2) (3 + n % 2)) QSH_SNAPA.AGE i = min 0xFFFFFFFF (l.getD i (0, 0)).2) ∧
        t.getF (celPage (n / 2) (3 + n % 2)) QSH_SNAP_T.TIME = s.fabric % 2 ^ 64 ∧
        t.getF (celPage (n / 2) (3 + n % 2)) QSH_SNAP_SEQ.SEQ = (s.getF (celPage (n / 2) (3 + n % 2)) QSH_SNAP_SEQ.SEQ + 1) % 2 ^ 32 ∧
        bitAt (t.getF (celPage (n / 2) (3 + n % 2)) INT_CAUSE.BITS) 0 = true ∧ t.edge.snaps = storeErase s.edge.snaps n ∧
        t.packets = s.packets ∧ t.hbm = s.hbm ∧ t.sched = s.sched ∧ t.ports = s.ports) ∧
      (q < 512 → s.inQueue q = k :: r → (s.queue q).stalled = some k.id → exec (.queueStallDetect q) s = .next s) ∧
      (q < 512 → s.inQueue q = k :: r → s.getF (qpg q) QSH_STALL_CTL.LIMIT ≠ 0 → 1000 * s.getF (qpg q) QSH_STALL_CTL.LIMIT < s.headAge q →
        (s.queue q).stalled ≠ some k.id → ∃ t, exec (.queueStallDetect q) s = .next t ∧ (t.devFatal = false → (t.queue q).stalled = some k.id) ∧
        t.flag (qpg q) QSH_STALL_INFO.VALID = true ∧ (s.fltMasked (qpg q * 32) = false → t.fltSet (qpg q * 32) = true) ∧
        (s.flag (qpg q) QSH_STALL_INFO.VALID = false → t.getF (qpg q) QSH_STALL_INFO.QUEUE = qix q) ∧ t.hbm = s.hbm ∧ t.ports = s.ports))

/-! ## Egress (chapters 4 and 6) -/

/-- R144, R146, R598, R599: in a flit period that a queue owns, with no slip and no repair item that has waited, the head packet bound to this
period leaves when its cells are there and the partner holds credit. A packet of one cell is then gone; a longer one goes on in the next period.
The period counts as delivered, owned, and delivered by its owner. -/
def Obligations.OwnedPeriodCarriesItsPacket : Prop :=
  ∀ (s : State) (p q : Nat) (h : Packet), s.Inv → p < 64 → s.devFatal = false → s.portEn p = true → s.inL0 p = true → s.isFfl p = false →
    s.onGrid p s.fabric = true → (s.port p).nextPer ≤ s.fabric → (s.port p).sending = none → (s.port p).nullOwed = false →
    s.sched.active.isSome = true → s.beOnly p = false → s.slip p = 0 → (s.periodKind p (s.cycPos s.fabric)).1 = some q →
    s.repairWaited p = false → (∀ k ∈ s.packets, k.bad = false) → s.headOf q = some h → s.packet? h.id = some h → h.poison = none →
    s.packetBound q h = some s.fabric → s.startReady h s.fabric = true → s.linkCredit p h = true →
    ∃ t, exec (.flitPeriodStart p .ok) s = .next t ∧ (t.port p).nextPer = s.fabric + s.fper p ∧
      (if h.ncell ≤ 1 then Output.tlp p h.tlp ∈ t.out ∧ (t.port p).sending = none ∧ ∀ x ∈ t.packets, x.id ≠ h.id
        else (t.port p).sending = some (h.id, 1)) ∧
      (∀ f ∈ [PMU_SA_DELIV.COUNT, PMU_SA_OWNED.COUNT, PMU_SA_OWNDLV.COUNT], t.getF (pgPMUA (cellarOf p) (p % 16)) f (p % 8) =
        satAdd (State.fmax f) (s.getF (pgPMUA (cellarOf p) (p % 16)) f (p % 8)) 1) ∧ t.hbm = s.hbm ∧ t.trk = s.trk

/-- R217, R218, R220: a port in non-FLIT mode, with no repair item pending, sends the whole TLP that best-effort selection gives it; the packet
leaves its queue and is kept until the partner acknowledges it.
R217, R332: the link partner's acknowledgement frees the oldest TLPs it was sent, and each of their writes is one delivery fewer to wait for;
a flow-control update adds to the credit of one class. -/
def Obligations.PortsSendTlps : Prop :=
  (∀ (s a : State) (p : Nat) (k : Packet), s.Inv → p < 64 → s.devFatal = false → s.portEn p = true → s.inL0 p = true → s.isFfl p = false →
      s.fper p = 0 → (s.port p).nullOwed = false → s.repairPending p = false → (∀ x ∈ s.packets, x.bad = false) →
      s.beSelect p 4096 s.fabric = (a, some k) → s.packet? k.id = some k → k.poison = none →
      s.startReady { k with cut := false } s.fabric = true →
      ∃ t, exec (.nonflitStartOpportunity p .ok) s = .next t ∧ Output.tlp p k.tlp ∈ t.out ∧ (∀ y ∈ t.packets, y.id ≠ k.id) ∧
        (t.port p).sent.map (fun x => (x.id, x.tlp)) = (s.port p).sent.map (fun x => (x.id, x.tlp)) ++ [(k.id, k.tlp)] ∧ t.hbm = s.hbm ∧ t.trk = s.trk) ∧
  (∀ (s : State) (p n h u : Nat), s.Inv → p < 64 →
      (∃ t, exec (.tlpDllAck p n) s = .next t ∧ (t.port p).sent = (s.port p).sent.drop n ∧ t.packets = s.packets ∧ t.hbm = s.hbm ∧
        t.regs = s.regs ∧ t.out = s.out ∧
        (∀ w ∈ s.openW, (∀ k ∈ (s.port p).sent.take n, k.group ≠ w.pkt) → w ∈ t.openW) ∧
        (∀ k, (s.port p).sent.take n = [k] → isWrite k.tlp = true → t.openW = (s.writeDone k.group).openW)) ∧
      (s.portEn p = true → s.isFfl p = false → s.inL0 p = true →
        exec (.fcUpdateReceive p 0 h u) s = .next (s.modPort p fun x => { x with crP := x.crP.map (· + h), crPD := x.crPD.map (· + u) }) ∧
        exec (.fcUpdateReceive p 1 h u) s = .next (s.modPort p fun x => { x with crNP := x.crNP.map (· + h), crNPD := x.crNPD.map (· + u) }) ∧
        exec (.fcUpdateReceive p 2 h u) s = .next (s.modPort p fun x => { x with crCPL := x.crCPL.map (· + h), crCPLD := x.crCPLD.map (· + u) })))

/-- R151, R153, R155, R156: a replay or an upkeep item becomes pending at the current tick. One that has waited takes the period in which a
stream packet would start, and σ grows by one; at SLIP_MAX it waits, and SLIP_LIMIT is reported. -/
def Obligations.RepairItemsTakePeriods : Prop :=
  ∀ (s : State) (p q : Nat), s.Inv → p < 64 → s.portEn p = true → s.isFfl p = false →
    exec (.repairItemDue p 0) s = .next (s.modPort p fun x => { x with repair := x.repair ++ [s.fabric] }) ∧
    exec (.repairItemDue p 1) s = .next (s.modPort p fun x => { x with upkeep := x.upkeep ++ [s.fabric] }) ∧
    (s.devFatal = false → s.inL0 p = true → s.onGrid p s.fabric = true → (s.port p).nextPer ≤ s.fabric → s.stealQueue p = some q →
      (s.slip p < s.slipMax p → ∃ t, exec (.repairWaitExpire p) s = .next t ∧ t.slip p = min 15 (s.slip p + 1) ∧
        t.getF (pgSCH (cellarOf p)) SCH_PORTSTS.STOLEN (p % 16) =
          satAdd (State.fmax SCH_PORTSTS.STOLEN) (s.getF (pgSCH (cellarOf p)) SCH_PORTSTS.STOLEN (p % 16)) 1 ∧
        (Output.replayed p ∈ t.out ∨ Output.upkeep p ∈ t.out) ∧ (t.port p).nextPer = s.fabric + s.fper p ∧ t.hbm = s.hbm) ∧
      (s.slipMax p ≤ s.slip p → (s.port p).limitHit = false → s.fltMasked (pgSCH (cellarOf p) * 32 + 1) = false → ∃ t,
        exec (.repairWaitExpire p) s = .next t ∧ (t.port p).limitHit = true ∧ t.fltSet (pgSCH (cellarOf p) * 32 + 1) = true ∧
        t.slip p = s.slip p ∧ t.hbm = s.hbm))

/-! ## Schedule images (chapter 5) -/

/-- R185, R186, R188: LOAD of a flash image begins on an EMPTY slot; HOLD takes a READY fallback image, RELEASE empties a slot that no swap needs,
ARM latches the swap when R188's conditions hold, DISARM ends it more than 20 µs before the swap, and a code outside Table 5.13 is refused with
0x1F. Slots are 0 EMPTY, 1 LOADING, 2 READY, 3 HELD, 4 ARMED. -/
def Obligations.ImageCommandsMoveTheirSlot : Prop :=
  ∀ (s : State) (who : Requester) (i code : Nat) (v : Vintage) (a : ArmOp), s.Inv → i < 8 → s.imgReady who = true →
    (s.slotState i = 0 → s.getF pgDEVSCH SCH_IMG_SRCCTL.KIND = 1 →
      s.getF pgDEVSCH SCH_IMG_SRC.ADDR + s.getF pgDEVSCH SCH_IMG_LEN.BYTES ≤ 0x4000000 → ∃ t, exec (.schLoad who i) s = .next t ∧
      t.slotState i = 1 ∧ s.SlotsKept t i ∧ t.flag pgDEVSCH SCH_IMG_RES.BUSY = true ∧ t.packets = s.packets ∧
      t.sched.load = some ⟨i, s.getF pgDEVSCH SCH_IMG_SRC.ADDR, 1, s.getF pgDEVSCH SCH_IMG_SRCCTL.PART, s.getF pgDEVSCH SCH_IMG_LEN.BYTES, false, [], s.ticks⟩) ∧
    (s.slotState i = 2 → s.slotImg i = some v → v.kind = 1 → ((List.range 8).filter fun j => s.slotState j == 3).length < 4 →
      (∀ c < 4, givesTo v c = true → s.cellarRun c = true) → ∃ t, exec (.schHold who i) s = .next t ∧ t.slotState i = 3 ∧ s.SlotsKept t i ∧
      t.ImgAnswer 2 i 0 ∧ s.OnlyRegs t) ∧
    (s.slotState i ∈ [2, 3, 6] → (∀ f, s.sched.fb = some f → f.slot ≠ i) → ∃ t, exec (.schRelease who i) s = .next t ∧ t.slotState i = 0 ∧
      t.slotImg i = none ∧ s.SlotsKept t i ∧ t.ImgAnswer 3 i 0 ∧ (s.slotState i = 6 → t.homeSlot = none) ∧ t.sched.active = s.sched.active) ∧
    (s.armCheck i = 0 → ∃ t, exec (.schArm who i) s = .next t ∧ t.slotState i = 4 ∧ s.SlotsKept t i ∧ t.ImgAnswer 4 i 0 ∧
      t.sched.arm = some ⟨i, s.getF pgDEVSCH SCH_ARM_T.TIME, s.flag pgDEVSCH SCH_ARM_CTL.PAIR, false, false⟩ ∧ t.packets = s.packets) ∧
    (s.sched.arm = some a → a.slot = i → s.fabric + 20000 < a.tick → ∃ t, exec (.schDisarm who i) s = .next t ∧ t.slotState i = 2 ∧
      s.SlotsKept t i ∧ t.ImgAnswer 5 i 0 ∧ t.sched.arm = none ∧ t.sched.active = s.sched.active ∧ t.packets = s.packets) ∧
    (code < 16 → (code = 0 ∨ 5 < code) → ∃ t, exec (.schBadCmd who code i) s = .next t ∧ t.ImgAnswer code i 0x1F ∧ t.sched = s.sched ∧
      ∀ c < 4, s.cellarRun c = true → s.fltMasked (pgSCH c * 32 + 5) = false → t.fltSet (pgSCH c * 32 + 5) = true)

/-- R171, R180, R183, R186: when its reads are over, a LOAD puts what they brought into the slot's place of HBM and runs the checks of Table 5.12: a
code leaves the slot EMPTY, none makes it READY with the image that the bytes spell and adds a record to the Book. A read that reaches the Completion
Timeout makes check 1 fail. R187: the shadow tables fill. -/
def Obligations.LoadsEndInAReadyOrEmptySlot : Prop :=
  ∀ (s : State) (l : LoadOp) (a : ArmOp) (e : TrkEntry) (b : List Byte), s.Inv → l.slot < 8 →
    (s.sched.load = some l → s.loadOutstanding = false → b = (if l.kind = 1 then s.flashRead l.src l.len else l.got.flatMap (·.2)) →
      (s.loadCheck l b ≠ 0 → ∃ t, exec (.schLoadDone l.slot) s = .next t ∧ t.slotState l.slot = 0 ∧ t.slotImg l.slot = none ∧
        s.SlotsKept t l.slot ∧ t.ImgAnswer 1 l.slot (s.loadCheck l b) ∧ t.sched.load = none ∧ t.trust = s.trust) ∧
      (s.loadCheck l b = 0 → s.trust.held.length < 4096 → ∃ t, exec (.schLoadDone l.slot) s = .next t ∧
        (∀ a, t.hbmByte a = if 0xBF0000000 + 0x2000000 * l.slot ≤ a ∧ a < 0xBF0000000 + 0x2000000 * l.slot + min b.length 0x2000000
          then b.getD (a - (0xBF0000000 + 0x2000000 * l.slot)) 0 else s.hbmByte a) ∧ t.slotState l.slot = 2 ∧
        t.slotImg l.slot = some (parseImage b) ∧ s.SlotsKept t l.slot ∧ t.ImgAnswer 1 l.slot 0 ∧ t.sched.load = none ∧
        t.trust.held.length = s.trust.held.length + 1 ∧ t.packets = s.packets)) ∧
    (s.sched.load = some l → e ∈ s.trk → State.ofLoad e.pkt.owner = true → e.born + (s.part l.part).cplTimeout ≤ s.ticks → ∃ t,
      exec .loadCompletionTimeout s = .next t ∧ t.sched.load = some { l with failed := true } ∧ e ∉ t.trk ∧
      (∀ x ∈ t.trk, x ∈ s.trk) ∧ t.regs = s.regs ∧ (∀ k ∈ t.packets, k ∈ s.packets)) ∧
    (s.sched.arm = some a → exec .shadowFillDone s = .next { s with sched := { s.sched with arm := some { a with filled := true } } })

/-- R187, R189, R190, R191, R202: at its tick an armed Vintage becomes active in the ACTIVE (5) slot and is the home, those before are READY, its
epoch is its swap tick, and a capacity event of class ARM (8) waits for the selection at the tick's end; a fallback Vintage becomes active likewise,
and the one before goes back to HELD, or to 6 where it was the home. A Cellar that is not in RUN, or a partner's report that differs or is missing
20,000 ticks before, ends the ARM. -/
def Obligations.SwapsChangeTheActiveVintage : Prop :=
  ∀ (s : State) (a : ArmOp) (f : FbOp) (v : Vintage) (t0 : Nat), s.Inv → a.slot < 8 → f.slot < 8 →
    (s.sched.arm = some a → a.pair = true → a.checked = false → a.tick ≤ s.fabric + 20000 → s.slotImg a.slot = some v →
      (s.mir.armReport = some (a.tick, v.number, t0) → t0 + 20000 ≤ a.tick → exec .armPairCheck s =
        .next { s with sched := { s.sched with arm := some { a with checked := true } } }) ∧
      ((∀ u, s.mir.armReport = some (a.tick, v.number, u) → a.tick < u + 20000) → ∃ t, exec .armPairCheck s = .next t ∧
        t.sched.arm = none ∧ t.slotState a.slot = 2 ∧ t.getF pgDEVSCH SCH_IMG_RES.RESULT = 0x20 ∧ t.sched.active = s.sched.active)) ∧
    (s.sched.arm = some a → s.devFatal = false → a.tick ≤ s.fabric → s.slotImg a.slot = some v → (a.pair = true → a.checked = true ∨ s.pairAgrees a = true) →
      ((∃ c < 4, givesTo v c = true ∧ s.cellarRun c = false) → ∃ t, exec .armedSwap s = .next t ∧ t.sched.arm = none ∧
        t.slotState a.slot = 2 ∧ t.getF pgDEVSCH SCH_IMG_RES.RESULT = 0x21 ∧ t.getF pgDEVSCH SCH_IMG_RES.CMD = 0xF ∧ t.sched.active = s.sched.active ∧
        ∀ c < 4, s.cellarRun c = true → s.fltMasked (pgSCH c * 32 + 6) = false → t.fltSet (pgSCH c * 32 + 6) = true) ∧
      ((∀ c < 4, givesTo v c = true → s.cellarRun c = true) → s.imageBad v = none → ∃ t, exec .armedSwap s = .next t ∧
          t.sched.active = some v ∧ t.sched.arm = none ∧ t.sched.epoch = a.tick ∧
          t.slotState a.slot = 5 ∧ t.homeSlot = some a.slot ∧ (∀ i, i < 8 → i ≠ a.slot → s.slotState i ∈ [5, 6] → t.slotState i = 2) ∧
          (∀ c < 4, t.getF (pgSCH c) SCH_CYCLE.LEN = v.cycle % 2 ^ 21 ∧ t.getF (pgSCH c) SCH_EPOCH.E = a.tick % 2 ^ 64) ∧
          t.sched.events = s.sched.events ++ [(8, 0x3F)] ∧ t.hbm = s.hbm)) ∧
    (s.sched.fb = some f → s.devFatal = false → f.tick ≤ s.fabric → s.slotImg f.slot = some v → s.imageBad v = none →
      ∃ t, exec .fallbackSwap s = .next t ∧ t.sched.active = some v ∧ t.sched.epoch = f.tick ∧ t.slotState f.slot = 5 ∧
        t.sched.fb = none ∧ t.getF pgDEVSCH SCH_FB_T.TIME = 0 ∧ t.homeSlot = s.homeSlot ∧ t.sched.events = s.sched.events ++ f.again ∧
        (∀ i, s.activeSlot = some i → i ≠ f.slot → t.slotState i = if s.homeSlot = some i then 6 else 3) ∧ t.hbm = s.hbm)

/-! ## Lanes and ports (chapter 7) -/

/-- R250, R251: an error event counts and raises the score of its lane by the weight of its kind; at THR, with no soft failure within the window
and no run of failed trainings, the lane fails softly: every score of the port restarts from 0 and the time is kept. Lock that comes back ends the
port's loss. Scores fall by one at each point of the port's decay grid. R254, R511: a lane written as 1 is retired, and stays so. -/
def Obligations.LanesAreScoredAndRetired : Prop :=
  ∀ (s : State) (who : Requester) (lane p k w lanes : Nat) (ev : LaneEvent), s.Inv →
    (s.portOfLane lane = some (p, k) → s.laneRetired lane = false → (ev, w) ∈ [(LaneEvent.symbols, 1), (.flit, 8), (.framing, 8)] →
      (s.laneScore p k + w < s.lerrThr p → exec (.laneErrorEvent lane ev) s =
        .next ((s.laneEvent p k).setScore p k (s.laneScore p k + w))) ∧
      (s.lerrThr p ≤ s.laneScore p k + w → s.lerrThr p ≤ 255 → (s.lane lane).soft = none → (s.lane lane).fails < 3 → ∃ t,
        exec (.laneErrorEvent lane ev) s = .next t ∧ (t.lane lane).soft = some s.fabric ∧ (∀ j < s.portWidth p, t.laneScore p j = 0) ∧
        t.laneRetired lane = false ∧ t.hbm = s.hbm)) ∧
    (s.portOfLane lane = some (p, k) → s.laneRetired lane = false → s.laneInLink lane = true → exec (.laneErrorEvent lane .lockBack) s =
      .next ((s.setLock lane true).modPort p fun x => { x with lockLost := none })) ∧
    (s.decayAt ≠ some s.fabric → ∃ t, exec .laneScoreDecay s = .next t ∧ t.decayAt = some s.fabric ∧ t.packets = s.packets ∧
      t.ports = s.ports ∧ t.lanes = s.lanes ∧ t.hbm = s.hbm ∧ ∀ q j, q < 66 → j < s.portWidth q → t.laneScore q j =
        if (64 ≤ q ∨ s.portEn q = true) ∧ 0 < s.lerrDecay q ∧ s.fabric % s.lerrDecay q = 0 then s.laneScore q j - 1 else s.laneScore q j) ∧
    (∀ c < 4, s.grants who (pgCEL c) CEL_LRETIRE.LANES 0 8 = true → ∃ t, exec (.laneRetireWrite who c lanes) s = .next t ∧ t.hbm = s.hbm ∧
      ∀ l < 40, t.laneRetired (40 * c + l) = (s.laneRetired (40 * c + l) || bitAt lanes l)) ∧
    (s.grants who pgMIR MIR_LRETIRE.LANES = true → ∃ t, exec (.laneRetireWrite who 4 lanes) s = .next t ∧ t.hbm = s.hbm ∧
      ∀ l < 8, t.laneRetired (160 + l) = (s.laneRetired (160 + l) || bitAt lanes l))

/-- R247, R249, R255, R257, R258, R260: a PCIe port in L0 enters Recovery (5) when software retrains or restores it (which lifts CAP to MAXRATE), when
its partner asks, and when enough windows had too many errors (which lowers CAP); its flit period is then 0. A training that its lanes and CAP
allow takes it to L0 (3), at the width and rate reached, with the flit period these give.
R138: a port with a SCHED entry in its gate list declines a partner's request for a low-power state; another port in L0 enters L0p (4) or
L1 (6). -/
def Obligations.PortTrainingAndLowPower : Prop :=
  (∀ (s : State) (who : Requester) (p rate width : Nat) (cxl rev : Bool), s.Inv → p < 64 → s.portEn p = true → s.isFfl p = false →
      (s.inL0 p = true → s.portDisabled p = false → s.grants who (pgLNK p) LNK_CTL.RETRAIN = true →
        (∃ t, exec (.lnkRetrain who p) s = .next t ∧ t.linkState p = 5 ∧ t.fper p = 0 ∧ t.flag (pgLNK p) LNK_STS.UP = false ∧ t.hbm = s.hbm) ∧
        ∃ t, exec (.lnkRestore who p) s = .next t ∧ t.linkState p = 5 ∧ t.fper p = 0 ∧
          t.getF (pgLNK p) LNK_DERATE.CAP = s.getF (pgLNK p) LNK_CFG.MAXRATE ∧ t.flag (pgLNK p) LNK_STS.DERATED = false) ∧
      (s.inL0 p = true → ∃ t, exec (.portRecoveryEntry p) s = .next t ∧ t.linkState p = 5 ∧ t.fper p = 0 ∧ t.trk = s.trk ∧ t.hbm = s.hbm) ∧
      (s.trainable p rate width rev = true → (s.port p).again = false → ∃ t, exec (.portL0Entry p rate width false cxl rev []) s = .next t ∧
        t.linkState p = 3 ∧ t.flag (pgLNK p) LNK_STS.UP = true ∧ t.getF (pgLNK p) LNK_STS.RATE = rate ∧ t.getF (pgLNK p) LNK_STS.WIDTH = width ∧
        t.fper p = State.fperOf width rate (decide (5 ≤ rate)) ∧ t.flag (pgLNK p) LNK_STS.LDOWN = false ∧ (t.port p).everL0 = true ∧ t.hbm = s.hbm) ∧
      (s.flag (pgLNK p) LNK_DERATE.AUTO = true → s.inL0 p = true → s.fabric % 1000000 = 0 → (s.port p).winAt ≠ some s.fabric →
        ((s.port p).errs ≤ s.getF (pgLNK p) LNK_DERATE.THR → s.getF (pgLNK p) LNK_DERATE.WINS ≠ 0 → exec (.derateWindowEnd p) s =
          .next (s.modPort p fun x => { x with errs := 0, winOver := 0, winAt := some s.fabric })) ∧
        (s.getF (pgLNK p) LNK_DERATE.THR < (s.port p).errs → s.getF (pgLNK p) LNK_DERATE.WINS ≤ (s.port p).winOver + 1 →
          0 < s.getF (pgLNK p) LNK_STS.RATE → ∃ t, exec (.derateWindowEnd p) s = .next t ∧ t.linkState p = 5 ∧ (t.port p).winOver = 0 ∧
          t.getF (pgLNK p) LNK_DERATE.CAP = min (s.getF (pgLNK p) LNK_DERATE.CAP - 1) (s.getF (pgLNK p) LNK_STS.RATE - 1)))) ∧
  (∀ (s : State) (p : Nat) (low : Bool), s.Inv → s.portEn p = true → s.isFfl p = false → s.inL0 p = true →
      exec (.partnerL0pL1Request p low) s = .next (if (s.gatesOf p).any fun g => g.kind == 0 then s.emit (.declined p)
        else (s.emit (.accepted p)).setF (pgLNK p) LNK_STS.STATE (if low then 4 else 6)))

/-- R249, R262, R263, R267: a PCIe port declares link down once: DISABLE takes it to Disabled (7), DL_Down and LINK_DOWN_T without lock to Detect
(0). The declaration is counted, the flit period is 0 and the actions of Table 7.13 begin. Clearing DISABLE lets it train again.
R263, R265, R266: the actions of Table 7.13 discard what stands at a downstream port: its queues, what it sent without acknowledgement, its
tracker entries and its ingress packets are gone and counted. DPC does the same and holds the port in state 0xA until it is left. -/
def Obligations.LinkDownAndDpc : Prop :=
  (∀ (s : State) (who : Requester) (p t0 : Nat), s.Inv → p < 64 → s.portEn p = true → s.isFfl p = false →
      (s.flag (pgLNK p) LNK_STS.LDOWN = false → s.portDisabled p = false → (s.port p).noLanes = false →
        (s.grants who (pgLNK p) LNK_CTL.DISABLE = true → s.flag (pgLNK p) LNK_CTL.DISABLE = false → ∃ t,
          exec (.lnkDisableSet who p) s = .next t ∧ t.flag (pgLNK p) LNK_CTL.DISABLE = true ∧ s.DeclaredDown t p 7) ∧
        ((s.port p).dpc = false → ∃ t, exec (.dlDown p) s = .next t ∧ s.DeclaredDown t p 0) ∧
        ((s.port p).lockLost = some t0 → t0 + 1000 * s.getF (pgLNK p) LNK_DOWN_T.US ≤ s.ticks → ∃ t,
          exec (.lockLossTimeout p) s = .next t ∧ s.DeclaredDown t p 0)) ∧
      (s.flag (pgLNK p) LNK_STS.LDOWN = true → s.portDisabled p = false → (s.port p).dpc = false → (s.port p).noLanes = false →
        exec (.dlDown p) s = .next (s.setF (pgLNK p) LNK_STS.STATE 0)) ∧
      (s.grants who (pgLNK p) LNK_CTL.DISABLE = true → s.flag (pgLNK p) LNK_CTL.DISABLE = true → exec (.lnkDisableClear who p) s =
        .next ((s.setFlag (pgLNK p) LNK_CTL.DISABLE false).setF (pgLNK p) LNK_STS.STATE (if (s.port p).noLanes then 0xB else 0)))) ∧
  (∀ (s : State) (p : Nat), s.Inv → p < 64 → s.portEn p = true → s.isDown p = true → s.isFfl p = false →
      ((s.port p).cleanup = true → ∃ t, exec (.linkDownCleanupDone p) s = .next t ∧ (t.port p).cleanup = false ∧ (t.port p).sent = [] ∧
        t.queuedTo p = [] ∧ (∀ e ∈ t.trk, e.port ≠ p) ∧
        t.getF (pgLNK p) LNK_LDCNT0.POSTED = satAdd (State.fmax LNK_LDCNT0.POSTED) (s.getF (pgLNK p) LNK_LDCNT0.POSTED)
          ((s.queuedTo p ++ (s.port p).sent).filter fun k => isWrite k.tlp).length ∧
        t.getF (pgLNK p) LNK_LDCNT1.ING = satAdd (State.fmax LNK_LDCNT1.ING) (s.getF (pgLNK p) LNK_LDCNT1.ING) (s.ingressOf p).length) ∧
      ((s.port p).dpc = false → s.portDisabled p = false → (s.port p).noLanes = false → ∃ t, exec (.dpcTrigger p) s = .next t ∧ t.linkState p = 0xA ∧ (t.port p).dpc = true ∧
        (t.port p).sent = [] ∧ (t.port p).sending = none ∧ t.queuedTo p = [] ∧ ∀ e ∈ t.trk, e.port ≠ p) ∧
      ((s.port p).dpc = true → exec (.dpcExit p) s =
        .next ((s.modPort p fun x => { x with dpc := false }).setF (pgLNK p) LNK_STS.STATE 0)))

/-- R628, R629: Hot Reset at an upstream port, or Secondary Bus Reset in its bridge, resets a partition: posted writes that had not passed the
ordering point are counted as lost, every virtual bridge of the partition returns to reset, its reservations are gone, and the reset goes on. -/
def Obligations.PartitionHotReset : Prop :=
  ∀ (s : State) (p k : Nat), s.Inv → k < 32 → s.partOn k = true →
    (s.flag pgRST RST_PSTS.BUSY k = false →
      (∃ t, exec (.secondaryBusReset k) s = .next t ∧ s.PartReset t k) ∧
      (s.isUp p = true → s.portPart p = k → ∃ t, exec (.hotResetReceived p) s = .next t ∧ s.PartReset t k)) ∧
    (s.flag pgRST RST_PSTS.BUSY k = true → exec (.secondaryBusReset k) s = .next s)

/-! ## Fabric links and the fabric transport (chapter 8) -/

/-- R275, R276, R277, R278, R286, R287, R289, Tables 8.6 and 8.7: an FFL port decides the 256 bytes of a DATA flit: the next in order is taken and,
at the end of a packet, its acceptance ticks wait; one ahead is held and NAKs become pending for the gap; one that fails its CRC is counted and changes
no sequence state.
R286, R290, Table 8.5: a NAK, or the replay timer, makes a flit pending for replay; beyond REPLAY_MAX the port goes to RETRAIN (4). A CREDIT
gives the peer's grants, and ends INIT (2) in ACTIVE (3). -/
def Obligations.FlitsTakenAndReplayed : Prop :=
  (∀ (s : State) (p : Nat) (f : List Byte), s.Inv → p < 64 → s.fflReceives p = true → f.length = 256 →
      (flitGood f = true → flitKind f = 1 → seqSub (flitAck f + 1) (s.fflSt p).unack = 0 → (s.fflSt p).hold = [] →
        (flitSeq f = (s.fflSt p).er → (s.fflSt p).er < 4096 → ∃ t, exec (.fflFlitDecide p f) s = .next t ∧
          (t.fflSt p).er = ((s.fflSt p).er + 1) % 4096 ∧ (t.fflSt p).hold = [] ∧
          (t.fflSt p).whole.length = (s.fflSt p).whole.length + (if flitEop f && !flitNull f then 1 else 0) ∧
          (t.fflSt p).replay = (s.fflSt p).replay ∧ t.regs = s.regs ∧ t.packets = s.packets) ∧
        (1 ≤ seqSub (flitSeq f) (s.fflSt p).er → seqSub (flitSeq f) (s.fflSt p).er ≤ 511 → (s.fflSt p).naked = [] → ∃ t,
          exec (.fflFlitDecide p f) s = .next t ∧ (t.fflSt p).er = (s.fflSt p).er ∧
          (t.fflSt p).hold = [⟨flitSeq f, flitSop f, flitEop f, flitNull f, flitPayload f⟩] ∧
          (t.fflSt p).naked = (List.range (seqSub (flitSeq f) (s.fflSt p).er)).map (fun i => ((s.fflSt p).er + i) % 4096) ∧
          t.regs = s.regs ∧ t.packets = s.packets)) ∧
      (flitGood f = false → flitBadLanes (s.linkWidth p) f = [] → ∃ t, exec (.fflFlitDecide p f) s = .next t ∧ t.fflSt p = s.fflSt p ∧
        t.getF (pgFFL p) FFL_CNT0.CRC_BAD = satAdd (State.fmax FFL_CNT0.CRC_BAD) (s.getF (pgFFL p) FFL_CNT0.CRC_BAD) 1 ∧ t.hbm = s.hbm)) ∧
  (∀ (s : State) (p q a b c t0 : Nat), s.Inv → p < 64 → s.isFfl p = true →
      (s.lkState p = 3 → seqSub q (s.fflSt p).unack < s.inFlight p → q ∉ (s.fflSt p).resend → ∃ t, exec (.fflNakReceive p q) s = .next t ∧
        (t.fflSt p).resend = (s.fflSt p).resend ++ [q] ∧ (t.port p).repair = (s.port p).repair ++ [s.fabric + 1] ∧
        t.getF (pgFFL p) FFL_CNT1.NAK_RX = satAdd (State.fmax FFL_CNT1.NAK_RX) (s.getF (pgFFL p) FFL_CNT1.NAK_RX) 1 ∧ t.packets = s.packets) ∧
      (s.lkState p = 3 → (s.fflSt p).timer = some t0 → t0 + 16 * s.getF (pgFFL p) FFL_TMR.REPLAY_T ≤ s.ticks →
        ((s.fflSt p).replayNum + 1 ≤ s.getF (pgFFL p) FFL_TMR.REPLAY_MAX → ∃ t, exec (.fflReplayTimeout p) s = .next t ∧
          (s.fflSt p).unack ∈ (t.fflSt p).resend ∧ (t.fflSt p).replayNum = (s.fflSt p).replayNum + 1 ∧ (t.fflSt p).timer = some s.ticks ∧
          t.lkState p = 3 ∧ t.packets = s.packets) ∧
        (s.getF (pgFFL p) FFL_TMR.REPLAY_MAX < (s.fflSt p).replayNum + 1 → ∃ t, exec (.fflReplayTimeout p) s = .next t ∧ t.lkState p = 4 ∧
          t.linkState p = 5 ∧ t.fper p = 0)) ∧
      (s.lkState p = 3 → exec (.fflCreditReceive p a b c) s =
        .next (s.modFfl p fun x => { x with grantP := a, grantNP := b, grantCPL := c })) ∧
      (s.lkState p = 2 → ∃ t, exec (.fflCreditReceive p a b c) s = .next t ∧ t.lkState p = 3 ∧ t.linkState p = 3 ∧
        (t.fflSt p).grantP = a ∧ (t.fflSt p).grantNP = b ∧ (t.fflSt p).grantCPL = c ∧ t.flag (pgFFL p) FFL_STS.LDOWN = false ∧ t.hbm = s.hbm))

/-- R283, R284, R285: in HELLO (1) a HELLO leaves every 1 µs; an acceptable one sets FFL_PEER, and one that answers ours, as ours answers, ends
the phase in INIT (2). One of our own FDID, or none in 1 ms, fails: the physical layer goes to Recovery (5) and HELLO starts again. -/
def Obligations.FabricLinkTraining : Prop :=
  ∀ (s : State) (p fdid port w ident : Nat), s.Inv → p < 64 → s.isFfl p = true → s.lkState p = 1 → fdid < 16 → port < 64 →
    (fdid ≠ s.getF pgFWD FWD_CTL.FDID → (s.fflSt p).fromRetrain = false →
      ((s.fflSt p).gotEcho = false → ∃ t, exec (.fflHelloReceive p fdid port false w ident) s = .next t ∧ (t.fflSt p).gotHello = true ∧
        t.getF (pgFFL p) FFL_PEER.FDID = fdid ∧ t.getF (pgFFL p) FFL_PEER.PORT = port ∧ t.flag (pgFFL p) FFL_PEER.VALID = true ∧
        t.lkState p = 1 ∧ t.packets = s.packets) ∧
      ((s.fflSt p).sentEcho = true → ∃ t, exec (.fflHelloReceive p fdid port true w ident) s = .next t ∧ t.lkState p = 2 ∧
        t.getF (pgFFL p) FFL_PEER.FDID = fdid ∧ (t.fflSt p).er = 0 ∧ (t.fflSt p).ns = 0 ∧ t.packets = s.packets)) ∧
    ((fdid = s.getF pgFWD FWD_CTL.FDID → ∃ t, exec (.fflHelloReceive p fdid port false w ident) s = .next t ∧ t.linkState p = 5 ∧
        t.lkState p = 1 ∧ (t.fflSt p).gotHello = false ∧ (t.fflSt p).phaseAt = s.ticks) ∧
      ((s.fflSt p).gotHello = false → (s.fflSt p).phaseAt + 1000000 ≤ s.ticks → ∃ t, exec (.fflHelloTimeout p) s = .next t ∧
        t.linkState p = 5 ∧ t.lkState p = 1 ∧ (t.fflSt p).phaseAt = s.ticks)) ∧
    ((s.fflSt p).helloAt ≤ s.ticks → s.linkState p = 3 → (s.fflSt p).gotEcho = false → ∃ t msgs, exec (.fflHelloInterval p) s = .next t ∧
      (t.fflSt p).helloAt = s.ticks + 1000 ∧ Output.ctrl p (s.fflSt p).ns (s.ackField p) msgs ∈ t.out ∧
      CtrlMsg.hello (s.getF pgFWD FWD_CTL.FDID) p (s.flag (pgFFL p) FFL_CFG.PHY_DSP) (s.flag (pgFFL p) FFL_CFG.TIME_FOLLOW) (s.fflSt p).gotHello
        (s.getF (pgLNK p) LNK_STS.WIDTH) s.myIdent ∈ msgs)

/-- R291, R292: an ACTIVE port asks for a width and waits for LINKGO; it retrains (4), at the width granted, when the answer comes, and at the width
asked for after 10 µs without it; to its peer's request it answers with the width it grants, in a CTRL flit after which it retrains.
R249, R293, R294: an FFL port whose lanes lack lock for FFL_DOWN_T declares link down with cause 0, one that is disabled with cause 3, and its
link layer goes to DOWN (0); when the actions of Table 8.9 are over it holds no copy, and its sequence state is as at reset. -/
def Obligations.FabricLinkRequestsAndDown : Prop :=
  (∀ (s : State) (who : Requester) (p w tag cause : Nat), s.Inv → p < 64 → s.isFfl p = true → s.lkState p = 3 →
      (s.grants who (pgFFL p) FFL_CTL.REQ = true → w ∈ [4, 8, 16] → (s.fflSt p).req = none → ∃ t, exec (.fflReqCmd who p w) s = .next t ∧
        (t.fflSt p).req = some (w, 0, (s.fflSt p).reqTag % 65536) ∧ t.flag (pgFFL p) FFL_STS.REQ_PEND = true ∧ t.lkState p = 3 ∧
        t.packets = s.packets) ∧
      ((s.fflSt p).req = some (w, cause, tag) → ∃ t, exec (.fflLinkgoReceive p w tag) s = .next t ∧ t.lkState p = 4 ∧ t.fper p = 0 ∧
        (t.fflSt p).req = none) ∧
      ((s.fflSt p).req = some (w, cause, tag) → (s.fflSt p).reqAt + 10000 ≤ s.ticks → ∃ t, exec (.fflLinkreqTimeout p) s = .next t ∧
        t.lkState p = 4 ∧ t.fper p = 0 ∧ (t.fflSt p).req = none) ∧
      ((s.fflSt p).req = none → s.widest p ≠ 0 → ∃ t, exec (.fflLinkreqReceive p w tag) s = .next t ∧ t.lkState p = 3 ∧
        (t.fflSt p).granted = some (min w (s.widest p)) ∧ (CtrlMsg.linkGo (min w (s.widest p)) tag, 1) ∈ (t.fflSt p).ctrl ∧
        (t.port p).upkeep ≠ [] ∧ t.packets = s.packets)) ∧
  (∀ (s : State) (who : Requester) (p t0 : Nat), s.Inv → p < 64 → s.isFfl p = true →
      (s.grants who (pgLNK p) LNK_CTL.DISABLE = true → s.flag (pgLNK p) LNK_CTL.DISABLE = false → s.flag (pgFFL p) FFL_STS.LDOWN = false → ∃ t,
        exec (.lnkDisableSet who p) s = .next t ∧ t.linkState p = 7 ∧ t.lkState p = 0 ∧ t.flag (pgFFL p) FFL_STS.LDOWN = true ∧ t.fper p = 0 ∧
        t.getF (pgFFL p) FFL_STS.LD_CAUSE = 3 ∧ (t.port p).cleanup = true ∧ t.hbm = s.hbm) ∧
      ((s.port p).lockLost = some t0 → t0 + 1000 * s.getF (pgFFL p) FFL_DOWN_T.US ≤ s.ticks → s.flag (pgFFL p) FFL_STS.LDOWN = false → ∃ t,
        exec (.fflLockLossTimeout p) s = .next t ∧ t.lkState p = 0 ∧ t.flag (pgFFL p) FFL_STS.LDOWN = true ∧ t.fper p = 0 ∧
        t.getF (pgFFL p) FFL_STS.LD_CAUSE = 0 ∧ (t.port p).cleanup = true ∧ t.hbm = s.hbm) ∧
      ((s.port p).cleanup = true → ∃ t, exec (.fflLinkDownCleanupDone ⟨p, []⟩) s = .next t ∧ (t.port p).cleanup = false ∧ t.fflSt p = FflSt.init))

/-- R280, R281, R282, R204, R564: what a CTRL flit brings on an ACTIVE port (a time exchange, a swap tick, an MCTP message), and the timers that
make one leave. -/
def Obligations.FabricControlMessages : Prop :=
  ∀ (s : State) (p t1 t2 t3 acc tick v cls pp : Nat) (body : List Byte) (f : FbOp), s.Inv → p < 64 → s.isFfl p = true → s.lkState p = 3 →
    exec (.fflTimeReqReceive p t1 acc) s = .next (s.ctrlAdd p (.timeRsp t1 (acc + 1 - s.fper p) 0)) ∧
    (s.timeFollow p = true → s.standby = false → s.getF pgCLK CLK_TSRC.MODE = 2 → s.getF pgCLK CLK_TSRC.PORT = p →
      ∃ t, exec (.fflTimeRspReceive p t1 t2 t3 acc) s = .next t ∧ { t with timeSample := s.timeSample, ffl := s.ffl } = s ∧
        t.timeSample = some ((((t2 : Int) - t1) - (((acc + 1 - s.fper p : Nat) : Int) - t3)).tdiv 2) ∧
        (t.fflSt p).timeOff = some ((((t2 : Int) - t1) - (((acc + 1 - s.fper p : Nat) : Int) - t3)).tdiv 2,
          ((((acc + 1 - s.fper p : Nat) : Int) - t1) - ((t3 : Int) - t2)).tdiv 2)) ∧
    (s.sched.fb = some f → (cls, p) ∈ f.evs → s.getF (pgFFL p) FFL_PEER.PORT = pp → s.leads p = false → s.fabric + 20000 ≤ tick → (v, tick) ∉ (s.fflSt p).swapSeen → ∃ t,
      exec (.fflSwaptickReceive p tick v cls pp) s = .next t ∧ t.sched.fb = some { f with tick := tick } ∧
      t.getF pgDEVSCH SCH_FB_T.TIME = tick % 2 ^ 64 ∧ t.packets = s.packets) ∧
    (s.mgmtUp = true → exec (.fflMctpReceive p body) s = .next (s.ctrlAdd p (.mctp (Config.firmwareReply body)))) ∧
    ((s.fflSt p).ctrlAt + 64 * s.getF (pgFFL p) FFL_TMR2.UPKEEP_INT ≤ s.ticks → exec (.fflUpkeepTimer p) s = .next (s.upkeepDue p)) ∧
    (s.timeFollow p = true → (s.fflSt p).timeAt + 10000 * s.getF (pgFFL p) FFL_TMR2.TIME_INT ≤ s.ticks → exec (.fflTimeIntTimer p) s =
      .next ((s.modFfl p fun x => { x with timeAt := s.ticks }).ctrlAdd p (.timeReq 0)))

/-- R298, R299, R300, R311: a packet for this device is taken from its receive stream in order; one ahead is counted and discarded; a stream that is
not in step asks for RESYNC. A TACK acknowledges what lies before ACKD, and leaves when
ACK_DELAY has passed.
R297, R301, R302, R304: copies are written to the replay store oldest first; a transmit stream whose timer expires replays every unacknowledged
packet, and breaks past E2E_MAX. A fabric request whose completion does not return in time completes as Completer Abort. -/
def Obligations.FabricTransport : Prop :=
  (∀ (s : State) (p key t0 : Nat) (h : FabHdr) (tlp : Tlp) (e : TackEntry), s.Inv → p < 64 → s.isFfl p = true → s.lkState p = 3 → s.devFatal = false →
      (badHdr h = false → h.dst / 4096 = s.getF pgFWD FWD_CTL.FDID → h.sync = false → (s.rx? (rxKey h.src h.cellar h.cls)).synced = true →
        (h.tseq = (s.rx? (rxKey h.src h.cellar h.cls)).exp → h.kind = 2 → s.pbarMet h = true → ∃ t q,
          exec (.fabricPacketReceive p h tlp) s = .next t ∧
          (t.rx? (rxKey h.src h.cellar h.cls)).exp = serialNext h.tseq ∧ q ∈ t.packets ∧ q.id = s.nextId ∧ q.fab = some h ∧ q.tlp = tlp ∧
          q.place = .ingress ∧ q.part = h.part ∧ t.hbm = s.hbm) ∧
        (serialLt (s.rx? (rxKey h.src h.cellar h.cls)).exp h.tseq = true → ∃ t, exec (.fabricPacketReceive p h tlp) s = .next t ∧
          t.rx = s.rx ∧ t.packets = s.packets ∧ t.getF (pgFTX h.cellar) FTX_CNT1.AHEAD =
            satAdd (State.fmax FTX_CNT1.AHEAD) (s.getF (pgFTX h.cellar) FTX_CNT1.AHEAD) 1)) ∧
      (h.dst / 4096 = s.getF pgFWD FWD_CTL.FDID → e.resync = false → e.cls < 3 → e.cellar < 4 → ∃ t, exec (.tackReceive p h [e]) s = .next t ∧
        (t.tx? (txKey e.cellar h.src e.cls)).unacked =
          (s.tx? (txKey e.cellar h.src e.cls)).unacked.filter (fun z => !serialLt z.tseq e.ackd) ∧ t.packets = s.packets ∧ t.hbm = s.hbm) ∧
      ((s.rx? key).uncovered = some t0 → t0 + 128 * s.getF (pgFTX (key / 4 % 4)) FTX_CTL.ACK_DELAY ≤ s.ticks → ∃ t q,
        exec (.tackDelayExpire key) s = .next t ∧ (t.rx? key).uncovered = none ∧ (t.rx? key).since = 0 ∧ t.packets = s.packets ++ [q] ∧
        q.route = .fabric (key / 16 * 4096) ∧ q.tlp.data = tackBytes (key % 4) (key / 4 % 4) false (s.ackdOf key))) ∧
  (∀ (s : State) (key : Nat) (c : TxCopy) (r : List TxCopy) (e : FrtEntry), s.Inv →
      ((s.tx? key).unacked = c :: r → c.written = false → ∃ t, exec (.replayStoreWritten key) s = .next t ∧
        (∃ u, (t.tx? key).unacked = { c with written := true } :: u ∧ u.length = r.length) ∧ t.packets = s.packets ∧ t.regs = s.regs) ∧
      ((s.tx? key).unacked = c :: r → (s.tx? key).timer + 1000 * s.getF (pgFTX (key / 64)) FTX_CTL.E2E_TIMEOUT ≤ s.ticks →
        ((s.tx? key).timeouts + 1 ≤ s.getF (pgFTX (key / 64)) FTX_CTL.E2E_MAX → ∃ t, exec (.e2eTimeout key .ok) s = .next t ∧
          (t.tx? key).timeouts = (s.tx? key).timeouts + 1 ∧ (t.tx? key).timer = s.ticks ∧
          ∀ y ∈ c :: r, ∃ q ∈ t.packets, q.tlp = y.pkt.tlp ∧ q.place = .ingress ∧ ∀ f, y.pkt.fab = some f → q.fab = some { f with replay := true }) ∧
        (s.getF (pgFTX (key / 64)) FTX_CTL.E2E_MAX < (s.tx? key).timeouts + 1 → ∃ t, exec (.e2eTimeout key .ok) s = .next t ∧
          (t.tx? key).unacked = [] ∧ (t.tx? key).sync = true ∧ t.getF (pgFTX (key / 64)) FTX_CNT0.BROKEN =
            satAdd (State.fmax FTX_CNT0.BROKEN) (s.getF (pgFTX (key / 64)) FTX_CNT0.BROKEN) 1)) ∧
      (s.frt.find? (·.entry == e.entry) = some e → e.born + (s.part e.localPart).cplTimeout ≤ s.ticks → ∃ t,
        exec (.frtCompletionTimeout e.entry) s = .next t ∧ (∀ x ∈ t.frt, x.entry ≠ e.entry) ∧ t.hbm = s.hbm))

/-! ## The shared window and fences (chapter 9) -/

/-- R321, R340: an entry of the write buffer that may commit writes its bytes to its granule, and every other byte of HBM stays; it leaves the buffer,
and a reservation that another initiator held on the granule is gone. A poisoned entry is discarded with its write. R410: a write through BAR2 goes
to the translation tables. -/
def Obligations.BufferedWritesCommit : Prop :=
  ∀ (s : State) (i : Nat) (e : SwEntry) (w : Bar2Write) (r : List Bar2Write), s.Inv →
    (s.swb[i]? = some e → s.swMayCommit e = true → s.mir.yieldDue = false →
      (e.poisoned = false → e.bytes.length = 64 → ∃ t, exec (.swEntryCommit i .ok) s = .next t ∧ t.swb = s.swb.eraseIdx i ∧
        (∀ a, t.hbmByte a = if a / 64 = e.gran then (e.bytes.getD (a % 64) none).getD (s.hbmByte a) else s.hbmByte a) ∧
        t.resv = s.resv.filter (fun x => decide (x.gran ≠ e.gran) || x.ini == e.ini)) ∧
      (e.poisoned = true → ∃ t, exec (.swEntryCommit i .ok) s = .next t ∧ t.swb = s.swb.filter (·.pkt != e.pkt) ∧ t.hbm = s.hbm)) ∧
    (s.bar2 = w :: r → ∃ t, exec .bar2WriteCommit s = .next t ∧ t.bar2 = r ∧ t.hbm = (s.hbmWrite w.hbm w.data).hbm ∧ t.swb = s.swb ∧
      t.packets = s.packets)

/-- R322, R323, R327, R337, R341: a request of a host at the window's engine that may serialise completes: a read with the bytes of HBM under its own
buffered writes, and with a reservation in an R view; an AtomicOp with the old value, its new value being written; a conditional store writes where
its reservation holds, and else completes as a retry and writes nothing. -/
def Obligations.SharedWindowSerialisation : Prop :=
  ∀ (s : State) (i g rid : Nat) (x : Option Nat) (p : Packet), s.Inv → s.atWindow[i]? = some p → s.swMaySerialize p = true → p.poison = none →
    p.owner = .requester → p.ini = .port g rid x → s.stale p = false → p.forbidden = false → p.taint = false → s.noTraffic g = false →
    (p.tlp.kind = .mrd → (p.attr.view = 1 → granOf (State.swAddr p) = granOf (State.swAddr p + max 1 p.tlp.len - 1)) → ∃ t,
      exec (.swSerialize i .ok) s = .next t ∧ t.hbm = s.hbm ∧ t.swb = s.swb ∧ (∀ y ∈ t.packets, y.id = p.id → y.tlp.kind = .cpl) ∧
      t.Completes g p.ebase (s.ownCpl p rid .sc (State.backToRequester p (s.swReadBytes p).1) false) ∧
      (p.attr.view = 1 → p.bound.isSome = true → s.resv.length < 8192 →
        ∃ y ∈ t.resv, y.ini = p.ini ∧ y.gran = granOf (State.swAddr p))) ∧
    (p.tlp.kind = .atomic → p.tlp.op = .fetchAdd → 0 < p.tlp.data.length → State.swAddr p % p.tlp.data.length = 0 → ∃ t,
      exec (.swSerialize i .ok) s = .next t ∧ (∀ y ∈ t.packets, y.id = p.id → y.tlp.kind = .cpl) ∧
      t.hbm = (s.hbmWrite (State.swAddr p) ((leBytes p.tlp.data.length (leNat (s.hbmRead (State.swAddr p) p.tlp.data.length) + leNat p.tlp.data)).map some)).hbm ∧
      t.Completes g p.ebase (s.ownCpl p rid .sc (State.backToRequester p (s.hbmRead (State.swAddr p) p.tlp.data.length)) false)) ∧
    (p.tlp.kind = .dmwr → p.attr.view = 2 → granOf (State.swAddr p) = granOf (State.swAddr p + max 1 p.tlp.len - 1) → ∃ t,
      exec (.swSerialize i .ok) s = .next t ∧ (∀ y ∈ t.packets, y.id = p.id → y.tlp.kind = .cpl) ∧ (∀ y ∈ t.resv, y.ini ≠ p.ini) ∧
      (if s.resv.any (fun r => r.ini == p.ini && r.gran == granOf (State.swAddr p) && r.gen == (s.inst r.vi).gen)
        then t.hbm = (s.hbmWrite (State.swAddr p) (writeBytes p.tlp)).hbm ∧ t.Completes g p.ebase (s.ownCpl p rid .sc [] false)
        else t.hbm = s.hbm ∧ t.Completes g p.ebase (s.ownCpl p rid .rrs [] false)))

/-- R315, R330, R333, R334: a request to FENCE with no posted write of its initiator ahead waits as a fence of its instance, and is an Unsupported
Request from any other initiator; one with such a write ahead waits. A fence whose writes are resolved completes with the count of lost writes, which
starts again at 0; a read that spans more than FENCE resets the count alike. -/
def Obligations.FencesReportLostWrites : Prop :=
  ∀ (s : State) (p rid tag inst i : Nat) (pasid : Option Nat) (b : Bound) (f : FenceOp), s.Inv →
    (s.earlierPosted (.port p rid pasid) s.nextId = true →
      exec (.fenceRead p rid tag pasid inst) s = .next s ∧ exec (.fenceDmwr p rid tag pasid inst) s = .next s) ∧
    (s.earlierPosted (.port p rid pasid) s.nextId = false → (s.port p).cleanup = false → s.devFatal = false → s.partFatal (s.portPart p) = false →
      ((s.bindLookup p rid pasid).1 = some b → b.vi = inst →
        exec (.fenceRead p rid tag pasid inst) s = .next { s with fences := s.fences ++
          [⟨.port p rid pasid, b.entry, inst, s.portPart p, p, false, rid, tag, s.order, 0, false, false, 0x100, 4⟩], order := s.order + 1 } ∧
        exec (.fenceDmwr p rid tag pasid inst) s = .next { s with fences := s.fences ++
          [⟨.port p rid pasid, b.entry, inst, s.portPart p, p, true, rid, tag, s.order, 0, false, false, 0x100, 4⟩], order := s.order + 1 }) ∧
      ((s.bindLookup p rid pasid).1 = none → s.noTraffic p = false →
        (∃ t, exec (.fenceRead p rid tag pasid inst) s = .next t ∧ t.fences = s.fences ∧
          t.Completes p 0 (s.ownCpl (s.fencePacket .mrd p rid tag pasid) rid .ur [] false)) ∧
        ∃ t, exec (.fenceDmwr p rid tag pasid inst) s = .next t ∧ t.fences = s.fences ∧
          t.Completes p 0 (s.ownCpl (s.fencePacket .dmwr p rid tag pasid) rid .ur [] false))) ∧
    (s.fences[i]? = some f → s.fenceReady f = true → f.off ≤ 0x100 → 0x104 ≤ f.off + f.len → ∃ t, exec (.fenceComplete i) s = .next t ∧
      t.fences = s.fences.filter (fun g => decide (g.order ≠ f.order)) ∧ (t.bindAt (f.entry.getD 0)).lost = 0 ∧
      (∀ e, e ≠ f.entry.getD 0 → t.bindAt e = s.bindAt e) ∧
      t.getF (pgIC f.inst) FENCE_LAST.COUNT = min (s.bindAt (f.entry.getD 0)).lost 0xFFFFFF ∧ t.hbm = s.hbm ∧ (∀ k ∈ s.packets, k ∈ t.packets) ∧
      (s.noTraffic f.ing = false → f.dmwr = true ∨ (f.off = 0x100 ∧ f.len = 4) → t.Completes f.ing 0 (State.cplTlp f.rid f.tag f.tc f.ro f.ido
        (s.vfRid f.part f.inst) (if f.dmwr && (s.bindAt (f.entry.getD 0)).lost != 0 then .rrs else .sc)
        (if f.dmwr then [] else leBytes 4 (State.fenceWord (min (s.bindAt (f.entry.getD 0)).lost 0xFFFFFF))) false)))

/-! ## Partitions and instances (chapter 11) -/

/-- R403: a write of VIM_BIND_D0 is held with the entry that the index names; a write of VIM_BIND_D1 applies both words to the entry and moves the
index on. R405, R407: a walk reads the entry of its level and goes down, or ends with a fault, or a leaf is cached.
R410: TTU_INV_CTL begins an invalidation; when the requester's earlier BAR2 writes are in HBM it discards the cached entries in its range
and restarts the walks of the instance, and it is done when none of these goes on. A second one meanwhile is refused. -/
def Obligations.BindingsAndInvalidations : Prop :=
  (∀ (s : State) (who : Requester) (v d0 : Word) (w : Walk) (off : Nat), s.Inv →
      (s.grants who pgVIM VIM_BIND_D0.EN = true → exec (.vimBindD0Write who v) s =
        .next { s with bindHeld := some (s.getF pgVIM VIM_BIND_IDX.ENTRY, v &&& 0xBF00FFFF) }) ∧
      (s.grants who pgVIM VIM_BIND_D1.VI = true → s.bindHeld = some (s.getF pgVIM VIM_BIND_IDX.ENTRY, d0) → ∃ t,
        exec (.vimBindD1Write who v) s = .next t ∧ (t.bindAt (s.getF pgVIM VIM_BIND_IDX.ENTRY)).d0 = d0 ∧
        (t.bindAt (s.getF pgVIM VIM_BIND_IDX.ENTRY)).d1 = v ∧ t.bindHeld = none ∧
        (∀ e, e ≠ s.getF pgVIM VIM_BIND_IDX.ENTRY → t.bindAt e = s.bindAt e) ∧
        t.getF pgVIM VIM_BIND_IDX.ENTRY = (s.getF pgVIM VIM_BIND_IDX.ENTRY + (if s.flag pgVIM VIM_BIND_IDX.AUTOINC then 1 else 0)) % 4096 ∧
        t.packets = s.packets ∧ t.hbm = s.hbm) ∧
      ((∀ x ∈ s.bar2, State.overlaps x.hbm x.data.length (s.sliceBase w.part + State.walkOffset w) 8 = false) →
        s.walks.find? (·.id == w.id) = some w → w.table < s.sliceSize w.part →
        State.walkEntry w.level (s.sliceSize w.part) (leNat (s.hbmRead (s.sliceBase w.part + State.walkOffset w) 8)) = .table off →
        exec (.ttuWalkReadDone w.id .ok) s = .next { s with walks := s.walks.map fun x =>
          if x.id == w.id then { x with level := w.level - 1, table := off } else x }) ∧
      ((∀ x ∈ s.bar2, State.overlaps x.hbm x.data.length (s.sliceBase w.part + State.walkOffset w) 8 = false) →
        s.walks.find? (·.id == w.id) = some w → w.table < s.sliceSize w.part → w.restart = false → w.gen = (s.inst w.vi).gen → s.packets = [] →
        w.level ≤ 2 → s.ttuFind w.cellar w.vi w.addr = none →
        State.walkEntry w.level (s.sliceSize w.part) (leNat (s.hbmRead (s.sliceBase w.part + State.walkOffset w) 8)) =
          .leaf (12 + 9 * w.level) → ∃ t, exec (.ttuWalkReadDone w.id .ok) s = .next t ∧ (∀ x ∈ t.walks, x.id ≠ w.id) ∧
          (∃ key e, t.ttuFind w.cellar w.vi w.addr = some (key, e) ∧ e.gen = w.gen ∧
            e.leaf = BitVec.ofNat 64 (leNat (s.hbmRead (s.sliceBase w.part + State.walkOffset w) 8))) ∧ t.hbm = s.hbm)) ∧
  (∀ (s : State) (who : Requester) (v : Word) (x : Inval), s.Inv →
      (s.grants who pgVIM TTU_INV_CTL.GO = true → v.toNat.testBit 31 = true →
        (s.flag pgVIM TTU_INV_STS.BUSY = false → ∃ t, exec (.ttuInvGo who v) s = .next t ∧ t.flag pgVIM TTU_INV_STS.BUSY = true ∧
          (∃ y, t.inval = some y ∧ y.vi = v.toNat % 2048 ∧ y.range = v.toNat.testBit 30 ∧ y.effected = false) ∧ t.ttu = s.ttu ∧ t.walks = s.walks) ∧
        (s.flag pgVIM TTU_INV_STS.BUSY = true → ∃ t, exec (.ttuInvGo who v) s = .next t ∧ t.flag pgVIM TTU_INV_STS.REFUSED = true ∧
          t.inval = s.inval ∧ t.ttu = s.ttu)) ∧
      (s.inval = some x → x.effected = false → (∀ w ∈ s.bar2, w.part = x.part → x.go ≤ w.pkt) → ∃ t, exec .ttuInvEffect s = .next t ∧
        t.inval = some { x with effected := true } ∧ (∀ e ∈ t.ttu, ∀ y ∈ e.2, State.inInval x y = false) ∧
        (∀ w ∈ t.walks, w.vi = x.vi → w.restart = true) ∧ t.regs = s.regs ∧ t.packets = s.packets ∧ t.hbm = s.hbm) ∧
      (s.inval = some x → x.effected = true → (∀ w ∈ s.walks, w.vi = x.vi → w.restart = false ∧ w.again = false) → ∃ t,
        exec .ttuInvDone s = .next t ∧ t.inval = none ∧ t.flag pgVIM TTU_INV_STS.BUSY = false ∧ t.flag pgVIM TTU_INV_STS.DONE = true ∧
        t.ttu = s.ttu ∧ t.packets = s.packets))

/-- R397, R412, R413, R415, R416: the reset of an instance that is there gives it its next generation and RESETTING (2), and discards its cached
translations, its reservations and its fences, unless something outstanding carries that generation: then it is held (3). Its end, 2 µs later,
leaves the instance LIVE (1), or ABSENT (0) where it goes away.
R396, R397, R412: VF Enable makes the first NumVFs instances of a partition's allocation present; a function level reset of the physical
function takes all of them away, and the function's own registers return to reset. -/
def Obligations.InstancesAndFunctions : Prop :=
  (∀ (s : State) (who : Requester) (i : Nat), s.Inv → i < 2048 →
      ((s.inst i).stt ≠ 0 → s.carriesGen i (((s.inst i).gen + 1) % 64) = false →
        (∃ t, exec (.vfFlr i) s = .next t ∧ s.InstReset t i) ∧
        (s.grants who (pgVIMI i) VIM_ICTL.RESET (i % 64) = true → ∃ t, exec (.vimResetWrite who i) s = .next t ∧ s.InstReset t i)) ∧
      ((s.inst i).stt ≠ 0 → s.carriesGen i (((s.inst i).gen + 1) % 64) = true →
        (∃ t, exec (.vfFlr i) s = .next t ∧ s.InstHeld t i) ∧
        (s.grants who (pgVIMI i) VIM_ICTL.RESET (i % 64) = true → ∃ t, exec (.vimResetWrite who i) s = .next t ∧ s.InstHeld t i)) ∧
      ((s.inst i).heldReset = true → s.carriesGen i (((s.inst i).gen + 1) % 64) = false → ∃ t, exec (.heldResetEffect i) s = .next t ∧
        (t.inst i).gen = ((s.inst i).gen + 1) % 64 ∧ (t.inst i).stt = 2 ∧ (t.inst i).heldReset = false ∧
        t.flag (pgVIMI i) VIM_ICTL.RESET (i % 64) = false ∧ t.hbm = s.hbm) ∧
      ((s.inst i).stt = 2 → (s.inst i).endTick ≤ s.ticks → ∃ t, exec (.instanceResetEnd i) s = .next t ∧
        (t.inst i).stt = (if (s.inst i).toAbsent then 0 else 1) ∧ (t.inst i).gen = (s.inst i).gen ∧ (∀ j, j ≠ i → t.inst j = s.inst j) ∧
        (∀ c ∈ s.instChans i, t.chan c = ChanSt.init) ∧ t.packets = s.packets)) ∧
  (∀ (s : State) (k n : Nat), s.Inv → k < 24 → s.partOn k = true →
      (s.vfClash k true n = false → ∃ t, exec (.vfEnableChange k true n) s = .next t ∧ (t.part k).vfEnable = true ∧
        (t.part k).numVfs = min n (s.getF pgVIM VIM_PALLOC.COUNT k) ∧ t.hbm = s.hbm ∧
        ∀ j, j < min n (s.getF pgVIM VIM_PALLOC.COUNT k) → (s.inst (s.getF pgVIM VIM_PALLOC.BASE k + j)).stt = 0 →
          (t.inst (s.getF pgVIM VIM_PALLOC.BASE k + j)).stt = 1) ∧
      (∃ t, exec (.pfFlr k) s = .next t ∧ t.part k = { PartSt.init with pfRid := (s.part k).pfRid } ∧ t.hbm = s.hbm ∧
        ∀ j, j < s.getF pgVIM VIM_PALLOC.COUNT k → (t.inst (s.getF pgVIM VIM_PALLOC.BASE k + j)).stt ≠ 1))

/-! ## DMA engines (chapter 12) -/

/-- R428, R429, R443, R448: GO starts the register set as a transfer, waits behind a tenant's running one, and is dropped where one waits already;
STOP takes the channel to STOP (3); writes of the register set and of the pace are stored, unless a transfer waits. -/
def Obligations.DmaChannelCommands : Prop :=
  ∀ (s : State) (who : Requester) (ch : Nat) (v : Dword) (b : Bool), s.Inv → ch < 1024 → (∀ i, who = .tenant i → ch ∈ s.instChans i) →
    (s.granted who (State.offOf (chPage ch) DMA_CMD.GO (chIx ch)) 4 = true → s.partOfChan ch ≠ 31 →
      (s.chState ch = 0 → s.devFatal = false → s.partFatal (s.partOfChan ch) = false → s.flag (chPage ch) DMA_XCTL.SRC_SG (chIx ch) = false → s.flag (chPage ch) DMA_XCTL.DST_SG (chIx ch) = false →
        s.getF (chPage ch) DMA_COUNT.BYTES (chIx ch) ≠ 0 → ∃ t x, exec (.dmaGo who ch) s = .next t ∧ t.chState ch = 1 ∧
        (t.chan ch).xfers = (s.chan ch).xfers ++ [x] ∧ x.count = s.getF (chPage ch) DMA_COUNT.BYTES (chIx ch) ∧ x.rd = 0 ∧ x.wr = 0 ∧
        x.src.elems = [(s.getF (chPage ch) DMA_SRC.ADDR (chIx ch), x.count)] ∧
        x.dst.elems = [(s.getF (chPage ch) DMA_DST.ADDR (chIx ch), x.count)] ∧ t.packets = s.packets ∧ t.hbm = s.hbm) ∧
      (s.chState ch ∈ [1, 2] → isService ch = false → s.flag (chPage ch) DMA_STS.PENDING (chIx ch) = false →
        exec (.dmaGo who ch) s = .next (s.setFlag (chPage ch) DMA_STS.PENDING true (chIx ch))) ∧
      (s.chState ch ∈ [1, 2] → s.flag (chPage ch) DMA_STS.PENDING (chIx ch) = true → s.fltMasked (pgDMA (ch / 256) * 32 + 1) = false → ∃ t,
        exec (.dmaGo who ch) s = .next t ∧ t.chans = s.chans ∧ t.fltSet (pgDMA (ch / 256) * 32 + 1) = true)) ∧
    (s.granted who (State.offOf (chPage ch) DMA_CMD.STOP (chIx ch)) 4 = true → s.chState ch ∈ [1, 2] → ∃ t,
      exec (.dmaStop who ch false) s = .next t ∧ t.chState ch = 3 ∧ t.flag (chPage ch) DMA_STS.PENDING (chIx ch) = false ∧ t.packets = s.packets) ∧
    (s.granted who (State.offOf (chPage ch) DMA_PACE.REQ (chIx ch)) 4 = true →
      exec (.dmaPaceWrite who ch b) s = .next (s.setFlag (chPage ch) DMA_PACE.REQ b (chIx ch))) ∧
    (isService ch = false → s.flag (chPage ch) DMA_STS.PENDING (chIx ch) = false →
      (s.granted who (State.offOf (chPage ch) DMA_SRC.ADDR (chIx ch)) 8 = true → ∃ t, exec (.dmaShadowWrite who ch .src v) s = .next t ∧
        t.getF (chPage ch) DMA_SRC.ADDR (chIx ch) = v.toNat ∧ s.OnlyRegs t) ∧
      (s.granted who (State.offOf (chPage ch) DMA_DST.ADDR (chIx ch)) 8 = true → ∃ t, exec (.dmaShadowWrite who ch .dst v) s = .next t ∧
        t.getF (chPage ch) DMA_DST.ADDR (chIx ch) = v.toNat ∧ s.OnlyRegs t) ∧
      (s.granted who (State.offOf (chPage ch) DMA_COUNT.BYTES (chIx ch)) 4 = true → ∃ t, exec (.dmaShadowWrite who ch .count v) s = .next t ∧
        t.getF (chPage ch) DMA_COUNT.BYTES (chIx ch) = v.toNat % 2 ^ 32 ∧ s.OnlyRegs t) ∧
      (s.granted who (State.offOf (chPage ch) DMA_XCTL.SRC_SG (chIx ch)) 4 = true → ∃ t, exec (.dmaShadowWrite who ch .xctl v) s = .next t ∧
        t.flag (chPage ch) DMA_XCTL.SRC_SG (chIx ch) = v.toNat.testBit 31 ∧ t.flag (chPage ch) DMA_XCTL.INT_EN (chIx ch) = v.toNat.testBit 28 ∧
        s.OnlyRegs t))

/-- R436, R437, R439, R441: a placed burst on a free engine occupies it for two ticks a 256 B, and moves the channel's read or write side on by
its length; one that finds nothing to move is counted as unused, and one that finds the engine occupied starts later. A best-effort burst is that of
the channel that round-robin picks. An engine whose time and writes are over is free.
R430, R434, R444: a returned list read gives its side the elements that its entries spell; one that failed fails the transfer. A transfer that
has drained and resolved completes: DONE, STATUS 0 and the whole count where nothing failed or was lost, and the channel is IDLE. -/
def Obligations.DmaEnginesAndLists : Prop :=
  (∀ (s : State) (c i e ch l t0 : Nat) (v : Vintage) (d : DmaSlot) (x : Xfer), s.Inv → c < 4 → s.devFatal = false → s.cellarRun c = true →
      (s.sched.active = some v → (storeGet (fun _ => ([] : List DmaSlot)) v.dma c)[i]? = some d → s.cycPos s.fabric = d.start →
        (s.eng (2 * c + d.eng % 2)).placed ≠ some s.fabric →
        ((s.eng (2 * c + d.eng % 2)).run.isSome = true → exec (.dmaPlacedBurst c i .ok 0) s =
          .next (s.modEng (2 * c + d.eng % 2) fun y => { y with placed := some s.fabric, late := y.late ++ [d] })) ∧
        ((s.eng (2 * c + d.eng % 2)).run = none → s.burstLen (256 * c + d.chan % 256) (d.eng % 2) (256 * d.len) = 0 →
          exec (.dmaPlacedBurst c i .ok 0) s =
            .next ((s.modEng (2 * c + d.eng % 2) fun y => { y with placed := some s.fabric }).addF (pgDMA c) DMA_CNT0.UNUSED)) ∧
        ((s.eng (2 * c + d.eng % 2)).run = none → 0 < s.burstLen (256 * c + d.chan % 256) (d.eng % 2) (256 * d.len) →
          s.running (256 * c + d.chan % 256) = some x → ∃ t y, exec (.dmaPlacedBurst c i .ok 0) s = .next t ∧
          (t.eng (2 * c + d.eng % 2)).run = some (256 * c + d.chan % 256,
            s.ticks + 2 * ceilDiv (s.burstLen (256 * c + d.chan % 256) (d.eng % 2) (256 * d.len)) 256) ∧
          y ∈ (t.chan (256 * c + d.chan % 256)).xfers ∧ y.num = x.num ∧
          (if d.eng % 2 = 0 then y.rd = x.rd + s.burstLen (256 * c + d.chan % 256) 0 (256 * d.len) ∧ y.wr = x.wr
            else y.wr = x.wr + s.burstLen (256 * c + d.chan % 256) 1 (256 * d.len) ∧ y.rd = x.rd) ∧ t.hbm = s.hbm)) ∧
      (e < 2 → (s.eng (2 * c + e)).run = none → (s.eng (2 * c + e)).late = [] → s.placedDue c e = false → s.bePick c e = some (ch, l) → s.running ch = some x → ∃ t y,
        exec (.dmaBeBurst c e .ok 0) s = .next t ∧ (t.eng (2 * c + e)).run = some (ch, s.ticks + 2 * ceilDiv (s.beLen c e ch) 256) ∧
        y ∈ (t.chan ch).xfers ∧ y.num = x.num ∧ (if e = 0 then y.rd = x.rd + s.beLen c e ch else y.wr = x.wr + s.beLen c e ch) ∧ t.hbm = s.hbm) ∧
      (e < 2 → (s.eng (2 * c + e)).run = some (ch, t0) → t0 ≤ s.ticks → (s.eng (2 * c + e)).late = [] →
        (e = 1 → ∀ y ∈ (s.chan ch).xfers, s.unpassed ch y.num (fun p => isWrite p.tlp) = []) → ∃ t, exec (.dmaBurstEnd c e) s = .next t ∧
        (t.eng (2 * c + e)).run = none ∧ t.hbm = s.hbm)) ∧
  (∀ (s : State) (ch num side : Nat) (st : CplStatus) (data : List Byte) (bad : Bool) (r : List (Nat × Nat × CplStatus × List Byte × Bool)) (x : Xfer)
      (sd : SgSide), s.Inv → ch < 1024 → side < 2 →
      ((s.chan ch).lists = (num, side, st, data, bad) :: r → s.running ch = some x → x.num = num →
        (st = .sc → bad = false → State.listParse x.count 17 { sideOf x side with busy := false } data = (sd, none) → ∃ t y,
          exec (.dmaListFetchDone ch) s = .next t ∧ y ∈ (t.chan ch).xfers ∧ y.num = num ∧ (sideOf y side).elems = sd.elems ∧ t.hbm = s.hbm) ∧
        ((st ≠ .sc ∨ bad = true) → ∃ t y, exec (.dmaListFetchDone ch) s = .next t ∧ (t.chan ch).lists = r ∧ y ∈ (t.chan ch).xfers ∧
          y.num = num ∧ y.fail.isSome = true ∧ t.hbm = s.hbm)) ∧
      ((s.chan ch).xfers = [x] → s.chanResetting ch = false → s.xferResolved ch x = true → x.fail = none → x.lost = 0 → x.lostAt = none → x.wr = x.count → x.count < 2 ^ 32 →
        s.flag (chPage ch) DMA_STS.PENDING (chIx ch) = false → ∃ t, exec (.dmaXferComplete ch) s = .next t ∧ t.chState ch = 0 ∧
        (t.chan ch).xfers = [] ∧ t.flag (chPage ch) DMA_STS.DONE (chIx ch) = true ∧ t.getF (chPage ch) DMA_STS.STATUS (chIx ch) = 0 ∧
        t.getF (chPage ch) DMA_DONEB.BYTES (chIx ch) = x.count ∧ t.packets = s.packets ∧ t.hbm = s.hbm))

/-! ## Faults, the pin and the logs (chapter 13) -/

/-- R471, R472, R473: the record of the first late write goes into the Lees Log with the next record number and the time, and the loss counts in the
binding entry of its writer.
R475, R476, R477: the end of a pulse gives the pin to software, whose DRIVE it then follows unless a fault state holds it; REARM gives it back,
and a change of PIN_MODE ends pulse and ownership.
R481: RD of a log moves to a place between RD and WR of its ring; a write of any other value changes nothing. -/
def Obligations.LateWritesPinAndLogs : Prop :=
  (∀ (s : State) (l : LateWrite), s.Inv → s.mir.yieldDue = false → nextLate s.flt.late = some l → s.leesCount < 4095 → ∃ t r, exec .leesRecordMake s = .next t ∧
      t.flt.late = s.flt.late.erase l ∧ t.getF pgFLT FLT_LL_SEQ.RSEQ = (s.getF pgFLT FLT_LL_SEQ.RSEQ + 1) % 2 ^ 32 ∧
      (s.getF pgFLT FLT_LL_PTR.WR, r) ∈ t.flt.lees ∧ r.rseq = s.getF pgFLT FLT_LL_SEQ.RSEQ ∧ r.time = s.fabric ∧ r.addr = l.body.addr ∧
      r.wseq = l.body.wseq ∧ r.reason = l.body.reason ∧ r.part = l.body.part ∧ t.leesCount = s.leesCount + 1 ∧ t.hbm = s.hbm ∧
      (∀ e, l.others = [] → s.lossEntry l.body.reason l.body.summary l.bound = some e → (t.bindAt e).lost = (s.bindAt e).lost + 1)) ∧
  (∀ (s : State) (who : Requester) (t0 : Nat) (b : Bool), s.Inv →
      (s.flt.pulseEnd = some t0 → t0 ≤ s.ticks → ∃ t, exec .pinPulseEnd s = .next t ∧ t.flag pgFLT FLT_PIN.OWNED = true ∧
        t.flt.pulseEnd = none ∧ t.flag pgFLT FLT_PIN.ASSERTED = (s.pinForced || s.flag pgFLT FLT_PIN.DRIVE) ∧ t.packets = s.packets) ∧
      (s.grants who pgFLT FLT_PIN.REARM = true → s.flag pgFLT FLT_PIN.OWNED = true → ∃ t, exec (.pinRearm who) s = .next t ∧
        t.flag pgFLT FLT_PIN.OWNED = false ∧ t.flag pgFLT FLT_PIN.ASSERTED = s.pinForced ∧ s.OnlyRegs t) ∧
      (s.grants who pgFLT FLT_PIN.DRIVE = true → ∃ t, exec (.pinDriveWrite who b) s = .next t ∧ t.flag pgFLT FLT_PIN.DRIVE = b ∧
        t.flag pgFLT FLT_PIN.ASSERTED = (if s.flag pgFLT FLT_PIN.OWNED then s.pinForced || b else s.flag pgFLT FLT_PIN.ASSERTED) ∧ s.OnlyRegs t) ∧
      (s.grants who pgFLT FLT_CTL.PIN_MODE = true → s.pageSealed pgFLT = false → s.flag pgFLT FLT_CTL.PIN_MODE ≠ b → ∃ t,
        exec (.pinModeWrite who b) s = .next t ∧ t.flag pgFLT FLT_CTL.PIN_MODE = b ∧ t.flag pgFLT FLT_PIN.OWNED = false ∧
        t.flt.pulseEnd = none ∧ t.flag pgFLT FLT_PIN.ASSERTED = (s.pinForced || (!b && s.pinLevel)) ∧ t.packets = s.packets)) ∧
  (∀ (s : State) (who : Requester) (rd n : Nat) (lees : Bool) (rf wf : FRef), s.Inv →
      (lees, n, rf, wf) ∈ [(true, 4096, FLT_LL_PTR.RD, FLT_LL_PTR.WR), (false, 1024, FLT_FL_PTR.RD, FLT_FL_PTR.WR)] →
      rd < n → s.grants who pgFLT rf = true → exec (.logRdWrite who lees rd) s =
        .next (if (rd + n - s.getF pgFLT rf) % n ≤ (s.getF pgFLT wf + n - s.getF pgFLT rf) % n then s.setF pgFLT rf rd else s))

/-! ## The redundant pair (chapter 14) -/

/-- R486, R488, R493, R499, R501, R507: what a 9160 does on its partner's messages. SEEKING (1) hears an ACTIVE (2) and becomes STANDBY (3); an
ACTIVE that a standby asks for a resync begins one; two ACTIVEs are reported; a YIELD makes a standby that may take over rack, and one that may not
refuse; the messages of a resync set TAKE_OK and the pair state. -/
def Obligations.PartnerMessages : Prop :=
  ∀ (s : State) (m cause v ep tick : Nat) (tk rq : Bool), s.Inv → s.mirHears m = true →
    (s.mirRole = 1 → ∃ t, exec (.mirRoleReceive m 2 tk rq v ep) s = .next t ∧ t.mirRole = 3 ∧ t.flag pgMIR MIR_STS.TAKE_OK = false ∧
      t.mir.journal = [] ∧ t.mir.resyncReq = true ∧ t.getF pgMIR MIR_PVIN.VINTAGE = v % 2 ^ 32 ∧ (∀ e ∈ t.rx, e.2.synced = false)) ∧
    (s.mirRole = 2 → s.mir.resync = none → s.mir.switchEnd = none → ∃ t, exec (.mirRoleReceive m 3 tk true v ep) s = .next t ∧
      t.mirRole = 2 ∧ t.mir.resync = some (0, s.ticks) ∧ t.getF pgMIR MIR_STS.PSTATE = 1 ∧ t.packets = s.packets) ∧
    (s.mirRole = 2 → s.mir.role = none → s.fltMasked (pgMIR * 32 + 10) = false → ∃ t, exec (.mirRoleReceive m 2 tk rq v ep) s = .next t ∧
      t.mirRole = 2 ∧ t.fltSet (pgMIR * 32 + 10) = true) ∧
    (∃ t, exec (.mirArmreportReceive m tick v) s = .next t ∧ t.mir.armReport = some (tick, v, s.fabric) ∧ t.mir.dihus = some s.ticks ∧
      t.regs = s.regs ∧ t.packets = s.packets ∧ t.sched = s.sched) ∧
    (s.mirRole = 3 → s.flag pgMIR MIR_CFG.AUTO_TAKE = true →
      (s.flag pgMIR MIR_STS.TAKE_OK = true → ∃ t, exec (.mirYieldReceive m cause) s = .next t ∧ t.mirRole = 2 ∧ t.mir.journal = [] ∧
        t.flag pgMIR MIR_RACK_INFO.VALID = true ∧ t.getF pgMIR MIR_RACK_INFO.CAUSE = 0 ∧ t.getF pgMIR MIR_RACK_INFO.YCAUSE = cause % 256 ∧
        t.getF pgMIR MIR_RACK_T.TIME = s.fabric % 2 ^ 64 ∧ t.resv = []) ∧
      (s.flag pgMIR MIR_STS.TAKE_OK = false → ∃ t, exec (.mirYieldReceive m cause) s = .next t ∧ t.mirRole = 3 ∧
        t.mir.journal = s.mir.journal ∧ (s.fltMasked (pgMIR * 32 + 4) = false → t.fltSet (pgMIR * 32 + 4) = true))) ∧
    (s.mirRole = 3 → (∃ t, exec (.mirResyncMsgReceive m true) s = .next t ∧ t.flag pgMIR MIR_STS.TAKE_OK = true ∧
        t.getF pgMIR MIR_STS.PSTATE = 2 ∧ t.getF pgMIR MIR_STS.RESYNC_PCT = 100 ∧ t.hbm = s.hbm) ∧
      ∃ t, exec (.mirResyncMsgReceive m false) s = .next t ∧ t.flag pgMIR MIR_STS.TAKE_OK = false ∧ t.getF pgMIR MIR_STS.PSTATE = 1 ∧
        t.mir.got = [] ∧ t.mir.commits = [] ∧ t.mir.expect = none ∧ t.mir.journal = s.mir.journal ∧ t.hbm = s.hbm)

/-- R490, R495, R496, R507: a standby stores COPY and MARK records in its journal, each once and none that a ledger already covers, applies COMMIT records to HBM in order, frees the records that a ledger
covers, and takes the blocks of a resync whole. -/
def Obligations.StandbyAppliesRecords : Prop :=
  ∀ (s : State) (m n l lost : Nat) (b : MirRec), s.Inv → s.mirHears m = true → s.mirRole = 3 →
    (b.kind = 1 ∨ b.kind = 2 → ∃ t, exec (.mirCopyReceive m b) s = .next t ∧ t.mir.journal =
      (if (s.mir.journal.any fun x => x.key == b.key && x.wseq == b.wseq) = false ∧
          ((s.mirStream b.key).all fun x => x.point.all (serialLt · b.wseq)) = true then s.mir.journal ++ [b] else s.mir.journal) ∧
      (∃ x ∈ t.mir.streams, x.key = b.key ∧ serialLt x.high b.wseq = false) ∧ t.hbm = s.hbm ∧ t.regs = s.regs) ∧
    (b.kind = 3 → s.mir.expect = some n → s.getF pgMIR MIR_STS.PSTATE = 2 →
      (b.cseq = n → s.mir.commits = [] → ∃ t, exec (.mirCommitReceive m b) s = .next t ∧ t.mir.expect = some (n + 1) ∧ t.mir.commits = [] ∧
        ∀ a, t.hbmByte a = if b.addr ≤ a ∧ a < b.addr + 64 ∧ b.mask.getD (a - b.addr) false = true then b.data.getD (a - b.addr) 0
          else s.hbmByte a) ∧
      (n < b.cseq → (∀ r ∈ s.mir.commits, r.cseq ≠ n) → ∃ t, exec (.mirCommitReceive m b) s = .next t ∧ t.mir.expect = some n ∧
        t.mir.commits = s.mir.commits ++ [b] ∧ t.hbm = s.hbm)) ∧
    (b.kind = 4 → b.entries = [(b.key, l, lost)] → ∃ t, exec (.mirLedgerReceive m b) s = .next t ∧ t.hbm = s.hbm ∧
      t.mir.journal = s.mir.journal.filter (fun j => !(decide (j.key = b.key) && decide (j.wseq ≤ l))) ∧
      t.getF pgMIR MIR_LEDGER.EPOCH = max (s.getF pgMIR MIR_LEDGER.EPOCH) b.epoch % 2 ^ 32) ∧
    (b.kind = 5 → s.mir.commits = [] → ∃ t, exec (.mirBlockReceive m b) s = .next t ∧ t.hbm = (s.hbmWrite b.addr (b.data.map some)).hbm ∧
      (State.blockOf b.addr, b.cseq) ∈ t.mir.got ∧ t.mir.journal = s.mir.journal)

/-- R486, R492, R496, R499, R500: the timers of the pair. ROLE leaves on each ACTIVE mirror port, a lone seat A stops seeking and is ACTIVE, a ledger
epoch ends, a silent partner is taken over from where TAKE_OK allows it, and the heartbeat toggles and is watched. -/
def Obligations.PairTimers : Prop :=
  ∀ (s : State) (b : Bool), s.Inv → s.devFatal = false →
    (s.mirRole ≠ 0 → s.mir.roleAt + 1000 * s.getF pgMIR MIR_TMR.ROLE_INT ≤ s.ticks → ∃ t, exec .roleInterval s = .next t ∧
      t.mir.roleAt = s.ticks ∧ t.regs = s.regs ∧ ∀ p ∈ s.mirPorts, (t.fflSt p).ctrl = (s.fflSt p).ctrl ++ [(.role s.mirRole
        (s.flag pgMIR MIR_STS.TAKE_OK) (s.mirRole == 3 && s.mir.resyncReq) s.activeNumber (s.getF pgMIR MIR_LEDGER.EPOCH), 1)]) ∧
    (s.mirRole = 1 → s.mir.seekStart + 10000000 * s.getF pgMIR MIR_CFG.SEEK_T ≤ s.ticks → s.flag pgMIR MIR_CFG.SEAT = false →
      s.flag pgMIR MIR_CFG.ALONE = true → ∃ t, exec .seekTimeout s = .next t ∧ t.mirRole = 2 ∧ t.hbm = s.hbm) ∧
    (s.mirroring = true → s.mir.epochAt + 250 * s.getF pgMIR MIR_EPOCH.LEN ≤ s.ticks → ∃ t recs, exec .ledgerEpochEnd s = .next t ∧
      t.mir.epochAt = s.ticks ∧ t.mir.txq = s.mir.txq ++ recs ∧ (∀ r ∈ recs, r.kind = 4 ∧ r.time = s.fabric) ∧
      (∀ x ∈ t.mir.streams, x.changed = false) ∧
      ((∃ x ∈ s.mir.streams, x.changed = true) → recs ≠ [] ∧
        t.getF pgMIR MIR_LEDGER.EPOCH = (s.getF pgMIR MIR_LEDGER.EPOCH + 1) % 2 ^ 32)) ∧
    (s.silent = true → (s.flag pgMIR MIR_STS.TAKE_OK = true → ∃ t, exec .heartbeatLoss s = .next t ∧ t.mirRole = 2 ∧
        t.getF pgMIR MIR_RACK_INFO.CAUSE = 1 ∧ t.mir.journal = []) ∧
      (s.flag pgMIR MIR_STS.TAKE_OK = false → ∃ t, exec .heartbeatLoss s = .next t ∧ t.mirRole = 3 ∧ t.mir.handled = true ∧
        t.mir.journal = s.mir.journal)) ∧
    (s.mirRole ≠ 0 → s.fabric % 1000 = 0 → s.mir.hbAt ≠ some s.fabric → exec .hbOutToggle s =
      .next { s with mir := { s.mir with hbOut := !s.mir.hbOut, hbAt := some s.fabric } }) ∧
    (s.mir.hbIn ≠ b → s.silent = false → s.mirPorts ≠ [] → exec (.pairHbInEdge b) s =
      .next { s with mir := { s.mir with hbIn := b, hbEdge := some s.ticks, handled := false } })

/-- R498, R499, R500, R507, R508, R509, Table 14.14: the commands of MIR_CMD and what ends them. A switchover ends with a YIELD and the STANDBY
role, and no covered write is left; TAKE racks, TAKE_FORCE makes ACTIVE without the journal; a resync sends every block and then ends, and begins
again when it takes too long. -/
def Obligations.PairCommands : Prop :=
  ∀ (s : State) (who : Requester) (code i t0 a region : Nat), s.Inv → s.devFatal = false →
    (s.grants who pgMIR MIR_CMD.CMD = true →
      (s.mirRole = 2 → s.mir.switchEnd = none → s.getF pgMIR MIR_STS.PSTATE = 2 → ∃ t, exec (.mirSwitchover who) s = .next t ∧
        t.mir.switchEnd = some (s.ticks + 10000000) ∧ t.getF pgMIR MIR_CMDRES.RESULT = 0 ∧ t.mirRole = 2 ∧ t.packets = s.packets) ∧
      (s.mirRole = 3 → s.flag pgMIR MIR_STS.TAKE_OK = true → ∃ t, exec (.mirTake who) s = .next t ∧ t.mirRole = 2 ∧
        t.getF pgMIR MIR_CMDRES.RESULT = 0 ∧ t.getF pgMIR MIR_RACK_INFO.CAUSE = 2 ∧ t.mir.journal = []) ∧
      (s.mirRole = 1 ∨ s.mirRole = 3 → ∃ t, exec (.mirTakeForce who) s = .next t ∧ t.mirRole = 2 ∧ t.getF pgMIR MIR_CMDRES.RESULT = 0 ∧
        t.flag pgMIR MIR_STS.TAKE_OK = false ∧ t.mir.journal = [] ∧ t.mir.streams = []) ∧
      (s.mirRole = 2 → s.mir.switchEnd = none → s.mirPorts ≠ [] → ∃ t, exec (.mirResyncCmd who) s = .next t ∧
        t.mir.resync = some (0, s.ticks) ∧ t.getF pgMIR MIR_STS.PSTATE = 1 ∧ t.getF pgMIR MIR_CMDRES.RESULT = 0 ∧ t.packets = s.packets) ∧
      (code < 16 → (code = 0 ∨ 4 < code) → exec (.mirBadCmd who code) s =
        .next ((s.setFlag pgMIR MIR_CMDRES.DONE true).setF pgMIR MIR_CMDRES.RESULT 4))) ∧
    (s.mir.switchEnd = some t0 → (s.coveredDone = true ∨ t0 ≤ s.ticks) → ∃ t, exec .switchoverDrained s = .next t ∧ t.mirRole = 3 ∧
      t.flag pgMIR MIR_STS.TAKE_OK = false ∧ t.mir.switchEnd = none ∧ (∀ w ∈ t.openW, w.mirrored = false) ∧ t.fences = [] ∧
      ∀ p ∈ s.mirPorts, (.yield 0, 1) ∈ (t.fflSt p).ctrl) ∧
    (s.mir.resync = some (i, t0) → s.mirroring = true → s.mirPorts ≠ [] →
      (s.blockList i = some (a, region) → i = 0 → ∃ t r, exec .resyncBlockSend s = .next t ∧ t.mir.txq = s.mir.txq ++ [r] ∧ r.kind = 5 ∧
        r.addr = a ∧ r.data = s.hbmRead a 4096 ∧ t.mir.resync = some (1, t0) ∧ t.hbm = s.hbm) ∧
      (s.blockList i = none → (∀ r ∈ s.mir.txq, r.kind ≠ 5) → (∀ p ∈ [64, 65], (s.fflSt p).replay = []) → ∃ t,
        exec .resyncBlockSend s = .next t ∧ t.mir.resync = none ∧ t.getF pgMIR MIR_STS.PSTATE = 2 ∧ t.packets = s.packets)) ∧
    (s.mir.resync = some (i, t0) → s.mirRole = 2 → t0 + 40000000000 ≤ s.ticks → ∃ t, exec .resyncTimeout s = .next t ∧
      t.getF pgMIR MIR_STS.PSTATE = 1 ∧ (t.devFatal = false → t.mir.resync = some (0, s.ticks)) ∧ t.mirRole = 2)

/-! ## Slot power and module life (chapter 15) -/

/-- R519, R520, R522, R528, R532, R537, R538, R541: a module that arrives is present, counts as a mating and waits for its FRU record; one that goes
leaves the slot EMPTY with its FETs open. Power Controller Control takes a slot in OFF (1) to WAIT (2), and one in ON (5) to OFF with PERST_N
asserted and the FETs open 100 µs later. The commands of SPC_CMD act on LATCHED (7) and RETIRED (8) slots and on the connector's count. -/
def Obligations.SlotPresenceAndCommands : Prop :=
  ∀ (s : State) (who : Requester) (i p t0 : Nat) (ok : Bool), s.Inv → i < 40 → s.slotEn i = true →
    (s.spcUp = true → s.flag (pgSLOT i) SPC_SSTS.PRESENT = false → s.slotSt i = 0 → s.flag (pgSLOT i) SPC_SCFG.AUTO_ON = false →
      (s.slot i).req = false → (s.slot i).pcc = false → ∃ t, exec (.presenceConfirm i true ok) s = .next t ∧ t.slotSt i = 1 ∧
      t.flag (pgSLOT i) SPC_SSTS.PRESENT = true ∧ t.flag (pgSLOT i) SPC_SSTS.FRU_OK = false ∧ (t.slot i).fruDue = true ∧ (t.slot i).pds = true ∧
      t.getF (pgSLOT i) SPC_MATE.COUNT = satAdd (State.fmax SPC_MATE.COUNT) (s.getF (pgSLOT i) SPC_MATE.COUNT) 1) ∧
    (s.spcUp = true → s.flag (pgSLOT i) SPC_SSTS.PRESENT = true → s.slotSt i ≠ 8 → ∃ t, exec (.presenceConfirm i false ok) s = .next t ∧
      t.slotSt i = 0 ∧ t.flag (pgSLOT i) SPC_SSTS.PRESENT = false ∧ (t.slot i).fetA = false ∧ (t.slot i).fetB = false ∧
      (t.slot i).main = false ∧ (t.slot i).perst = true ∧ (t.slot i).removedAt = some s.ticks ∧ (t.slot i).pds = false) ∧
    ((s.slot i).removedAt = some t0 → t0 + 100000000 ≤ s.ticks → ∃ t, exec (.rearmWindowEnd i) s = .next t ∧
      (t.slot i).removedAt = none ∧ t.slotSt i = s.slotSt i ∧ t.packets = s.packets) ∧
    (s.isDown p = true → s.flag (pgLNK p) LNK_SLOT.HP_EN = true → s.getF (pgLNK p) LNK_SLOT.SLOT = i → s.spcUp = true →
      ((s.slot i).req = false → s.slotSt i = 1 → ∃ t, exec (.slotPowerControlWrite p true ok) s = .next t ∧ t.slotSt i = 2 ∧
        (t.slot i).req = true ∧ (t.slot i).pcc = true ∧ t.packets = s.packets) ∧
      ((s.slot i).req = true → s.slotSt i = 5 → ∃ t, exec (.slotPowerControlWrite p false ok) s = .next t ∧ t.slotSt i = 1 ∧
        (t.slot i).req = false ∧ (t.slot i).perst = true ∧ (t.slot i).openAt = some (s.ticks + 100000))) ∧
    (s.grants who (pgSLOT i) SPC_CMD.CLR_LATCH = true → s.slotSt i = 7 → ∃ t, exec (.spcClrLatch who i) s = .next t ∧ t.slotSt i = 1 ∧
      t.flag (pgSLOT i) SPC_SSTS.LATCH = false ∧ t.packets = s.packets) ∧
    (s.grants who (pgSLOT i) SPC_CMD.SERVICE = true → s.slotSt i = 8 → s.flag (pgSLOT i) SPC_SSTS.PRESENT = false → ∃ t,
      exec (.spcService who i) s = .next t ∧ t.slotSt i = 0 ∧ t.getF (pgSLOT i) SPC_HEAT.H = 0 ∧ t.getF (pgSLOT i) SPC_SSTS.RETRY = 0 ∧
      t.getF (pgSLOT i) SPC_SSTS.LAST_TRIP = 0 ∧ (t.slot i).retired = false) ∧
    (s.grants who (pgSLOT i) SPC_CMD.CONN_RESET = true → ∃ t, exec (.spcConnReset who i) s = .next t ∧
      t.getF (pgSLOT i) SPC_MATE.COUNT = 0 ∧ (t.slot i).connT = s.fabric ∧ t.slotSt i = s.slotSt i ∧ t.hbm = s.hbm)

/-- R518, R524, R525, R526, R528, R529, R530, R531, R532, R534: each µs a sample gives the feeds' voltages and every slot's current, voltage and heat, and
a current above IFAST trips a slot that carries it. A slot whose pre-charge takes too long goes to HOLDOFF (6), or LATCHED (7) past RETRY_MAX; one
whose gate does is RETIRED (8). The other timers of a slot end its hold-off, its reset, its open delay, its retry count and its feed switch. -/
def Obligations.SlotSamplesAndTimers : Prop :=
  ∀ (s : State) (i va vb f t0 : Nat) (ms : List SlotMeas) (m : SlotMeas) (ok : Bool), s.Inv → i < 40 → s.slotEn i = true →
    ((∀ t, s.spc.sampleAt = some t → t + 1000 ≤ s.ticks) → s.slotBad = false →
      (ms.find? (fun x => x.slot == i) = some m → ∃ t, exec (.slotSample va vb ms ok) s = .next t ∧
        t.getF pgSPC SPC_FEEDSTS.VA = va % 4096 ∧ t.getF pgSPC SPC_FEEDSTS.VB = vb % 4096 ∧ t.spc.sampleAt = some s.ticks ∧
        t.getF (pgSLOT i) SPC_MEAS.I = m.cur % (State.fmax SPC_MEAS.I + 1) ∧ t.getF (pgSLOT i) SPC_HEAT.H = (if s.getF (pgSLOT i) SPC_SCFG.I_RATED < m.cur
          then min 0xFFFFFFFF (s.getF (pgSLOT i) SPC_HEAT.H + (m.cur - s.getF (pgSLOT i) SPC_SCFG.I_RATED))
          else s.getF (pgSLOT i) SPC_HEAT.H - s.getF (pgSLOT i) SPC_LIM.COOL) ∧
        (s.slotSt i = 5 → s.getF (pgSLOT i) SPC_LIM.IFAST < m.cur → (s.slot i).retry + 1 ≤ s.getF (pgSLOT i) SPC_TMR.RETRY_MAX →
          t.slotSt i = 6 ∧ (t.slot i).main = false ∧ (t.slot i).perst = true ∧ t.getF (pgSLOT i) SPC_SSTS.LAST_TRIP = 2 ∧
          (t.slot i).retry = (s.slot i).retry + 1))) ∧
    (s.slotSt i = 3 → (s.slot i).since + s.getF (pgSLOT i) SPC_TMR.PRECHG_T_MAX * 1000000 ≤ s.ticks → ∃ t,
      exec (.prechgTimeout i) s = .next t ∧ t.slotSt i = (if s.getF (pgSLOT i) SPC_TMR.RETRY_MAX < (s.slot i).retry + 1 then 7 else 6) ∧
      t.getF (pgSLOT i) SPC_SSTS.LAST_TRIP = 3 ∧ (t.slot i).pre = false ∧ (t.slot i).fetA = false ∧ (t.slot i).fetB = false) ∧
    (s.slotSt i = 4 → (s.slot i).since + s.getF (pgSLOT i) SPC_TMR.GATE_T_MAX * 100000 ≤ s.ticks → ∃ t,
      exec (.gateTimeout i ok) s = .next t ∧ t.slotSt i = 8 ∧ t.getF (pgSLOT i) SPC_SSTS.LAST_TRIP = 4 ∧ (t.slot i).main = false ∧
      (t.slot i).retired = true) ∧
    (s.slotSt i = 6 → (s.slot i).holdEnd ≤ s.ticks → ∃ t, exec (.holdoffEnd i) s = .next t ∧
      t.slotSt i = (if (s.slot i).req then 2 else 1) ∧ t.packets = s.packets) ∧
    (s.slotSt i = 5 → (s.slot i).since + 100000000 ≤ s.ticks → exec (.perstReleaseTimer i) s =
      .next (s.modSlot i fun x => { x with perst := false })) ∧
    ((s.slot i).openAt = some t0 → t0 ≤ s.ticks → exec (.mainFetOpenDelay i) s = .next (s.modSlot i fun x =>
      { x with fetA := false, fetB := false, pre := false, main := false, perst := true, openAt := none, gap := none })) ∧
    (s.slotSt i = 5 → (s.slot i).since + 10000000000 ≤ s.ticks → ∃ t, exec (.retryClearTimer i) s = .next t ∧ (t.slot i).retry = 0 ∧
      t.getF (pgSLOT i) SPC_SSTS.RETRY = 0 ∧ t.slotSt i = 5) ∧
    ((s.slot i).gap = some (f, t0) → t0 ≤ s.ticks → f < 2 →
      (s.flag (pgSLOT i) SPC_SCFG.ALT_EN = true → s.feedGood f = true → ∃ t, exec (.feedSwitchBbmEnd i ok) s = .next t ∧
        t.getF (pgSLOT i) SPC_SSTS.FEED = f ∧ (t.slot i).gap = none ∧ (t.slot i).fetA = (f == 0) ∧ (t.slot i).fetB = (f == 1) ∧
        t.slotSt i = s.slotSt i) ∧
      (s.feedGood f = false → ∃ t, exec (.feedSwitchBbmEnd i ok) s = .next t ∧ t.slotSt i = (if (s.slot i).req then 2 else 1) ∧
        (t.slot i).main = false ∧ (t.slot i).gap = none)) ∧
    (s.slotSt i = 5 → s.flag (pgSLOT i) SPC_SCFG.RETURN = true → s.flag (pgSLOT i) SPC_SCFG.ALT_EN = true → (s.slot i).gap = none →
      s.getF (pgSLOT i) SPC_SSTS.FEED = 1 → s.getF (pgSLOT i) SPC_SCFG.PRI_FEED = 0 → s.spc.goodA = some t0 →
      t0 + s.getF pgSPC SPC_CTL.RETURN_T * 1000000 ≤ s.ticks → t0 + 4000 ≤ s.ticks → ∃ t, exec (.feedReturnTimer i) s = .next t ∧
      (t.slot i).gap = some (0, s.ticks + s.getF pgSPC SPC_CTL.BBM * 1000) ∧ (t.slot i).fetA = false ∧ (t.slot i).fetB = false ∧ t.slotSt i = 5)

/-- R537, R538, R539, R540: the FRU record gives a module its key, and its insertion counts; records that are written stand in flash with the module
table, and a write that fails is reported. A lost Limder link is reported, and its return ends what waited for it. -/
def Obligations.ModuleLifeAndLimderLink : Prop :=
  ∀ (s : State) (i : Nat) (r : FruRead), s.Inv → i < 40 → s.slotEn i = true →
    ((s.slot i).fruDue = true → (∃ t, exec (.fruReadDone i (some r)) s = .next t ∧ (t.slot i).fruDue = false ∧
        t.flag (pgSLOT i) SPC_SSTS.FRU_OK = true ∧ (t.slot i).key = some (sha384 (r.mfr ++ r.part ++ r.serial) % 2 ^ 128) ∧
        (t.modEntry i).ins = ((s.spc.mods.find? fun e => e.key == sha384 (r.mfr ++ r.part ++ r.serial) % 2 ^ 128).getD ⟨0, 0, 0, 0⟩).ins + 1) ∧
      ∃ t, exec (.fruReadDone i none) s = .next t ∧ (t.slot i).fruDue = false ∧ (s.spcUp = true → s.fltMasked (pgSLOT i * 32 + 7) = false →
        t.fltSet (pgSLOT i * 32 + 7) = true)) ∧
    (s.flag (pgSLOT i) SPC_SSTS.PRESENT = true → (s.slot i).fruDue = false → (s.slot i).written = false →
      (∃ t, exec (.lifeCountWritten i true) s = .next t ∧ (t.slot i).written = true ∧ t.spc.flashMods = s.spc.mods ∧
        (∃ b, (i, b) ∈ t.spc.flashLife) ∧ t.slotSt i = s.slotSt i ∧ t.packets = s.packets) ∧
      ∃ t, exec (.lifeCountWritten i false) s = .next t ∧ (t.slot i).written = true ∧ t.spc.flashLife = s.spc.flashLife ∧
        (s.fltMasked (pgSPC * 32 + 1) = false → t.fltSet (pgSPC * 32 + 1) = true)) ∧
    (s.slotSt i = 5 → (s.slot i).hourAt + 3600000000000 ≤ s.ticks → ∃ t, exec (.slotOnHourWrite i true) s = .next t ∧
      (t.slot i).hourAt = s.ticks ∧ t.spc.flashMods = t.spc.mods ∧ (∃ b, (i, b) ∈ t.spc.flashLife) ∧ t.slotSt i = 5) ∧
    (s.spcUp = true → ∃ t, exec .limderLinkFail s = .next t ∧ t.spcUp = false ∧
      (s.fltMasked (pgSPC * 32) = false → t.fltSet (pgSPC * 32) = true)) ∧
    (s.spcUp = false → ∃ t, exec .limderLinkRestore s = .next t ∧ t.spcUp = true ∧ t.spc.held = [])

/-! ## The Cellar Book and trust (chapter 16) -/

/-- R555, R556, R557, R558, R559, R560, R567: GET_BOOK answers with the whole records that fit, and covers what is uncovered with a CHECKPOINT first;
GET_NONCE answers the nonce, SPDM its measurements or a refusal. A CHECKPOINT becomes due in time, and takes the next BSEQ; a held record goes to
flash. -/
def Obligations.BookIsServedAndStored : Prop :=
  ∀ (s : State) (n start room t0 : Nat) (rq : SpdmReq) (r : List Byte) (l rs : List (List Byte)), s.Inv →
    (s.mgmtUp = true → exec .getNonce s = .next (s.emit (.spdm ([2, 0, 0, 0] ++ leBytes 32 s.trust.nonce))) ∧
      exec (.spdmRequest rq) s = .next ((s.spdmReply rq).2.emit (.spdm (s.spdmReply rq).1)) ∧
      (s.trust.uncovered = 0 → s.trust.tainted = false → rs = (s.bookEntry n).filter (fun x => decide (start ≤ recSeq x)) → exec (.getBook n start room) s =
        .next (s.emit (.spdm ([1, if (State.fitRecs room rs).length < rs.length then 1 else 0, 0, 0] ++
          leBytes 4 (State.fitRecs room rs).length ++ (State.fitRecs room rs).flatten)))) ∧
      (s.trust.uncovered ≠ 0 → s.trust.held.length < 4096 → ∃ t, exec (.getBook n start room) s = .next t ∧ t.trust.uncovered = 0 ∧
        t.trust.held.length = s.trust.held.length + 1 ∧ t.trust.since = none ∧ t.packets = s.packets ∧ t.hbm = s.hbm)) ∧
    (s.trust.since = some t0 → t0 + s.getF pgTRU TRU_CP_CTL.CP_INT * 10000000 ≤ s.ticks → exec .checkpointTimer s =
      .next { s with trust := { s.trust with cpDue := some (s.trust.cpDue.getD s.ticks) } }) ∧
    (s.trust.cpDue.isSome = true → s.trust.held.length < 4096 → ∃ t, exec .checkpointMade s = .next t ∧ t.trust.cpDue = none ∧
      t.trust.uncovered = 0 ∧ t.getF pgTRU TRU_BSEQ.NEXT = (s.getF pgTRU TRU_BSEQ.NEXT + 1) % 2 ^ 32 ∧
      t.trust.held.length = s.trust.held.length + 1 ∧ t.packets = s.packets) ∧
    (s.trust.held = r :: l → (s.trust.lost = 0 → ∃ t, exec (.bookFlashWritten true) s = .next t ∧ t.trust.held = l ∧
        t.trust.place = s.bookPlace r.length + r.length ∧ t.regs = s.regs ∧
        t.flash = ((if s.bookPlace r.length % 0x10000 = 0 then s.flashErase (s.bookPlace r.length) 0x10000 else s).flashWrite
          (s.bookPlace r.length) r).flash) ∧
      ∃ t, exec (.bookFlashWritten false) s = .next t ∧ t.trust = s.trust ∧ t.flash = s.flash ∧
        (s.fltMasked (pgTRU * 32 + 1) = false → t.fltSet (pgTRU * 32 + 1) = true))

/-- R549: in BOOT_FAIL the debug port reads, programs and erases the boot flash, and at any time the boot status; otherwise the flash commands do
nothing. R44: the management complex answers what its firmware makes of an MCTP message. -/
def Obligations.BootFlashAccess : Prop :=
  ∀ (s : State) (a n : Nat) (d b : List Byte), s.Inv →
    exec .bootsts s = .next (s.emit (.jtag (s.reg (State.fkey pgTRU TRU_BOOT_STS.DEBUG 0)).toNat)) ∧
    (s.flag pgTRU TRU_BOOT_STS.BOOT_FAIL = false → ∀ op, exec (.flashprog a op) s = .next s) ∧
    (s.flag pgTRU TRU_BOOT_STS.BOOT_FAIL = true → exec (.flashprog a (.read n)) s = .next (s.emit (.jtag (leNat (s.flashRead a n)))) ∧
      (∃ t, exec (.flashprog a (.erase n)) s = .next t ∧ t.flash = (s.flashErase a n).flash ∧ t.regs = s.regs ∧ t.out = s.out) ∧
      (a + d.length ≤ 0x4000000 → ∃ t, exec (.flashprog a (.program d)) s = .next t ∧ t.flash = (s.flashWrite a d).flash ∧ t.regs = s.regs ∧
        t.out = s.out)) ∧
    (s.mgmtUp = true → exec (.mctpReceive b) s = .next (s.emit (.mctp (Config.firmwareReply b))))

/-- R565, R566, R567, R568: an owner command that is authorised and refused by no condition burns its fuses and answers 0; a refused one is
reported, burns nothing and answers its code. A debug token that passes is stored in flash; another is refused. -/
def Obligations.OwnerCommandsAndDebugTokens : Prop :=
  ∀ (s : State) (b : List Byte), s.Inv → s.mgmtUp = true →
    (b.length = 288 →
      (leNat (slice b 0 1) = 1 →
        (s.ownerRefusal b = 0 → ∃ t, exec (.provisionOwner b) s = .next t ∧ s.OwnerBurned t b) ∧
        (s.ownerRefusal b ≠ 0 → ∃ t, exec (.provisionOwner b) s = .next t ∧ s.OwnerRefused t b)) ∧
      (leNat (slice b 0 1) = 2 →
        (s.ownerRefusal b = 0 → ∃ t, exec (.revokeOwner b) s = .next t ∧ s.OwnerBurned t b) ∧
        (s.ownerRefusal b ≠ 0 → ∃ t, exec (.revokeOwner b) s = .next t ∧ s.OwnerRefused t b)) ∧
      (leNat (slice b 0 1) = 3 →
        (s.ownerRefusal b = 0 → ∃ t, exec (.provisionDbgauth b) s = .next t ∧ s.OwnerBurned t b) ∧
        (s.ownerRefusal b ≠ 0 → ∃ t, exec (.provisionDbgauth b) s = .next t ∧ s.OwnerRefused t b)) ∧
      (leNat (slice b 0 1) = 4 →
        (s.ownerRefusal b = 0 → ∃ t, exec (.revokeDbgauth b) s = .next t ∧ s.OwnerBurned t b) ∧
        (s.ownerRefusal b ≠ 0 → ∃ t, exec (.revokeDbgauth b) s = .next t ∧ s.OwnerRefused t b)) ∧
      (leNat (slice b 0 1) = 5 →
        (s.ownerRefusal b = 0 → ∃ t, exec (.commitSvn b) s = .next t ∧ s.OwnerBurned t b) ∧
        (s.ownerRefusal b ≠ 0 → ∃ t, exec (.commitSvn b) s = .next t ∧ s.OwnerRefused t b))) ∧
    (s.tokenOk b = true → leNat (slice b 0x40 32) = s.trust.nonce →
      (∃ t, exec (.debugToken b) s = .next t ∧ s.TokenStored t b ∧ Output.spdm [4, 0] ∈ t.out) ∧
      ∃ t, exec (.dbgtoken b) s = .next t ∧ s.TokenStored t b) ∧
    (s.tokenOk b = false →
      (∃ t, exec (.debugToken b) s = .next t ∧ s.TokenRefused t ∧ Output.spdm [4, 1] ∈ t.out) ∧
      ∃ t, exec (.dbgtoken b) s = .next t ∧ s.TokenRefused t)

/-- R562, R564: the attestation of a downstream port ends with the outcome of its reply, or as timed out after ATT_T, in a record and in
TRU_ATTSTS (2 passed, 3 failed); software may have it run again. -/
def Obligations.ModuleAttestation : Prop :=
  ∀ (s : State) (who : Requester) (p t0 : Nat) (r : Option AttReply), s.Inv → p < 64 → s.isDown p = true → s.isFfl p = false →
    (s.attRuns p = true → s.trust.held.length < 4096 →
      (∃ t, exec (.attestOutcome p r) s = .next t ∧ t.attRuns p = false ∧
        t.getP pgTRU TRU_ATTSTS.STS 2 (p % 16) (p / 16) = (if s.attOutcome r = 0 then 2 else 3) ∧
        t.trust.held.length = s.trust.held.length + 1 ∧
        (s.attOutcome r ≠ 0 → s.fltMasked (pgTRU * 32 + 4) = false → t.fltSet (pgTRU * 32 + 4) = true)) ∧
      ((s.attOf p).start = some t0 → t0 + s.getF pgTRU TRU_ATT_CTL.ATT_T * 1000000 ≤ s.ticks → ∃ t,
        exec (.attestTimeout p) s = .next t ∧ t.attRuns p = false ∧ t.getP pgTRU TRU_ATTSTS.STS 2 (p % 16) (p / 16) = 3 ∧
        t.trust.held.length = s.trust.held.length + 1)) ∧
    (s.grants who pgTRU TRU_ATT_REDO.GO = true → s.getP pgTRU TRU_ATTMODE.MODE 2 (p % 16) (p / 16) ≠ 0 → s.inL0 p = true → ∃ t,
      exec (.truAttRedo who p) s = .next t ∧ t.attRuns p = true ∧ (t.attOf p).start = some s.ticks ∧
      t.getP pgTRU TRU_ATTSTS.STS 2 (p % 16) (p / 16) = 1 ∧ t.packets = s.packets)

/-! ## Ageing and margins (chapter 17) -/

/-- R577, R578, R579, R580, R581, R584, R585, R591, R621: a planner pass that is due begins with the scans it finds to do; a scan's results give each trained lane its margin ratio. An accepted re-equalisation retrains its port, a discarded proposal is gone, a scan
that software asks for waits or begins, and TARGET takes a value up to CEIL with the monitor's levels.
R576, R579, R587, R588, R589, R648: the delay monitors' readings go to AGE_MON, one at 110 °C or more is reported, and one at 120 °C or more trips
THERMTRIP_N into DEVICE_FATAL. Every hour and every 720 hours of power-on time the ageing state and a record go to flash, or the failure is reported; a
lane is taken from the list of retired lanes of the next reset; a read of AGE_LDATA gives the selected lane and may move the index on. -/
def Obligations.AgeingAndMargins : Prop :=
  (∀ (s : State) (who : Requester) (p mv : Nat) (e : LaneEye), s.Inv →
      (s.ageMode ≠ 0 → s.flag pgAGE AGE_STS.PASS_BUSY = false → s.age.passAt + s.getF pgAGE AGE_CTL.PLAN_INT * 60000000000 ≤ s.fabric →
        (s.ageBad = false → ∃ t, exec .plannerPass s = .next t ∧ t.age.passAt = s.fabric ∧ t.age.toScan = s.passPorts ∧
          t.flag pgAGE AGE_STS.PASS_BUSY = !s.passPorts.isEmpty ∧ t.hbm = s.hbm)) ∧
      (s.flag pgAGE AGE_STS.PASS_BUSY = false → p ∈ s.age.toScan →
        (∃ t, exec (.marginScanDone p none) s = .next t ∧ t.age.toScan = s.age.toScan.erase p ∧ t.age.ldata = s.age.ldata ∧ t.packets = s.packets) ∧
        (s.scannable p = true → s.laneOf p e.lane ∈ s.trainedLanes p → ∃ t, exec (.marginScanDone p (some [e])) s = .next t ∧
          (∀ r ∈ [(0, 50, 40), (1, 50, 40), (2, 15, 28), (3, 15, 24), (4, 15, 20), (5, 20, 16), (6, 16, 12)], s.scanRate p = r.1 →
            t.laneMr (s.laneOf p e.lane) = min 255 (min (100 * e.eh / r.2.1) (100 * e.ew / r.2.2))) ∧ t.age.toScan = s.age.toScan.erase p ∧
          (∀ l, l ≠ s.laneOf p e.lane → t.laneMr l = s.laneMr l) ∧ t.packets = s.packets)) ∧
      (s.grants who pgAGE AGE_CMD.APPLY = true → s.flag pgAGE AGE_PROP.VALID = true → s.getF pgAGE AGE_PROP.ACTION = 0 →
        s.getF pgAGE AGE_PROP.PORT = p → (s.port p).l0s = s.age.propL0 → s.portEn p = true → s.inL0 p = true → s.isFfl p = false → ∃ t,
        exec (.ageApply who) s = .next t ∧ t.flag pgAGE AGE_PROP.VALID = false ∧ t.linkState p = 5 ∧
        t.getF pgAGE AGE_CNT.REEQ = satAdd (State.fmax AGE_CNT.REEQ) (s.getF pgAGE AGE_CNT.REEQ) 1) ∧
      (s.grants who pgAGE AGE_CMD.DISCARD = true → exec (.ageDiscard who) s = .next (s.setFlag pgAGE AGE_PROP.VALID false)) ∧
      (s.grants who pgAGE AGE_CMD.SCAN_NOW = true → p < 64 →
        (s.ageMode ≠ 0 → ∃ t, exec (.ageScanNow who p) s = .next t ∧ p ∈ t.age.scanNow ∧ t.age.toScan = s.age.toScan ∧ t.regs = s.regs) ∧
        (s.ageMode = 0 → s.scannable p = true → p ∉ s.age.toScan → ∃ t, exec (.ageScanNow who p) s = .next t ∧
          t.age.toScan = s.age.toScan ++ [p] ∧ t.flag pgAGE AGE_STS.SCAN_BUSY = true ∧ t.packets = s.packets)) ∧
      (s.grants who pgAGE AGE_AVS.TARGET = true → s.pageSealed pgAGE = false → s.avsTarget < mv → mv ≤ s.getF pgAGE AGE_AVS.CEIL → ∃ t,
        exec (.avsTargetWrite who mv) s = .next t ∧ t.avsTarget = mv ∧ t.getF pgPWR PWR_LEVEL.WARN_MV = mv * 94 / 100 ∧
        t.getF pgPWR PWR_LEVEL.RESET_MV = mv * 90 / 100 ∧ t.packets = s.packets)) ∧
  (∀ (s : State) (who : Requester) (l : Nat) (mons : List (Nat × Nat)), s.Inv →
      (∃ t, exec (.monitorSample mons) s = .next t ∧
        (∀ j < 8, ∀ x, mons[j]? = some x → t.getF pgAGE AGE_MON.SLACK j = x.1 % (State.fmax AGE_MON.SLACK + 1) ∧
          t.getF pgAGE AGE_MON.TEMP j = x.2 % (State.fmax AGE_MON.TEMP + 1)) ∧
        ((∃ x ∈ mons, 110 ≤ x.2) → s.fltMasked (pgPWR * 32 + 2) = false → t.fltSet (pgPWR * 32 + 2) = true) ∧
        ((∃ x ∈ mons, 120 ≤ x.2) → s.pwr.thermtrip = false → t.pwr.thermtrip = true ∧ t.devFatal = true) ∧ t.fabric = s.fabric ∧ t.hbm = s.hbm) ∧
      (s.age.hourAt + hourNs ≤ s.ticks →
        (∃ t, exec (.ageStateHourly true) s = .next t ∧ t.age.hours = s.age.hours + 1 ∧ t.age.hourAt = s.ticks ∧ t.age.seq = s.age.seq + 1 ∧
          t.regs = s.regs ∧ t.packets = s.packets) ∧
        ∃ t, exec (.ageStateHourly false) s = .next t ∧ t.age.hours = s.age.hours + 1 ∧ t.flash = s.flash ∧
          (s.fltMasked (pgAGE * 32 + 4) = false → t.fltSet (pgAGE * 32 + 4) = true)) ∧
      (s.age.monthAt + 720 ≤ s.age.hours → (∃ t, exec (.ageMonthlyRecord true) s = .next t ∧ t.age.monthAt = s.age.hours ∧
          t.age.logPos = s.age.logPos + 4 ∧ t.regs = s.regs ∧ t.packets = s.packets) ∧
        ∃ t, exec (.ageMonthlyRecord false) s = .next t ∧ t.age.monthAt = s.age.hours ∧ t.flash = s.flash ∧
          (s.fltMasked (pgAGE * 32 + 4) = false → t.fltSet (pgAGE * 32 + 4) = true)) ∧
      (s.grants who pgAGE AGE_CMD.UNRETIRE = true → l < 168 → bitAt s.age.retired l = true → ∃ t, exec (.ageUnretire who l) s = .next t ∧
        t.age.retired = bitClr s.age.retired l ∧ t.age.logPos = s.age.logPos + 1 ∧ t.regs = s.regs ∧ t.packets = s.packets) ∧
      (s.readable who (State.offOf pgAGE AGE_LDATA.VALID) 4 = true → ∃ t, exec (.ageLdataRead who) s = .next t ∧
        t.out = .regRead (State.offOf pgAGE AGE_LDATA.VALID) s.ldataNow :: s.out ∧
        t.getF pgAGE AGE_LIDX.LANE = (if s.flag pgAGE AGE_LIDX.AUTOINC then (s.getF pgAGE AGE_LIDX.LANE + 1) % 168 else s.getF pgAGE AGE_LIDX.LANE) ∧
        t.packets = s.packets ∧ t.hbm = s.hbm))

/-! ## Performance monitoring and tracing (chapter 18) -/

/-- R593, R595, R596, R597, R600: a counter takes the value written, an even counter never chains, what a counter counts changes with the next
tick, a snapshot is taken 16 ticks after it is asked for, of every counter of every Cellar in RUN in one tick, and the accounts of the ports named are
cleared in the next tick. -/
def Obligations.CountersSnapshotsAndAccounts : Prop :=
  ∀ (s : State) (who : Requester) (c j t0 half ports : Nat) (v : Dword) (w : Word), s.Inv → c < 4 → j < 32 →
    (s.grants who (pgPMUC c) PMU_CTR.COUNT j = true → ∃ t, exec (.pmuCounterWrite who c j false v) s = .next t ∧
      t.getF (pgPMUC c) PMU_CTR.COUNT j = v.toNat % 2 ^ 32 ∧ (∀ i < 32, i ≠ j → t.getF (pgPMUC c) PMU_CTR.COUNT i = s.getF (pgPMUC c) PMU_CTR.COUNT i) ∧
      s.OnlyRegs t) ∧
    (s.grants who (pgPMUC c) PMU_CTR.COUNT j 8 = true → j % 2 = 0 → ∃ t, exec (.pmuCounterWrite who c j true v) s = .next t ∧
      t.getF (pgPMUC c) PMU_CTR.COUNT j = v.toNat % 2 ^ 32 ∧ t.getF (pgPMUC c) PMU_CTR.COUNT (j + 1) = v.toNat / 2 ^ 32 ∧ s.OnlyRegs t) ∧
    (s.grants who (pgPMUC c) PMU_EVT.EVENT j = true → ∃ t, exec (.pmuEvtWrite who c j w) s = .next t ∧
      t.getF (pgPMUC c) PMU_EVT.EVENT j = w.toNat % 256 ∧ t.getF (pgPMUC c) PMU_EVT.TCMASK j = w.toNat / 256 % 256 ∧
      t.flag (pgPMUC c) PMU_EVT.CHAIN j = (w.toNat.testBit 31 && j % 2 == 1) ∧
      (∀ f ∈ [PMU_EVT.EVENT, PMU_EVT.TCMASK, PMU_EVT.PORT], t.evtNow c j f = s.evtNow c j f) ∧ t.packets = s.packets ∧ t.hbm = s.hbm) ∧
    (s.grants who (pgPMUC c) PMU_GSNAP.GO = true → s.snapAt = none → exec (.pmuGsnapGo who c) s = .next { s with snapAt := some (s.ticks + 16) }) ∧
    (s.snapAt = some t0 → t0 ≤ s.ticks → ∃ t, exec .pmuSnapshotTick s = .next t ∧ t.snapAt = none ∧
      t.getF pgDEVPMU PMU_SNAP_T.TIME = s.fabric % 2 ^ 64 ∧ t.getF pgDEVPMU PMU_SNAP_SEQ.SEQ = (s.getF pgDEVPMU PMU_SNAP_SEQ.SEQ + 1) % 2 ^ 32 ∧
      (s.cellarRun c = true → t.getF (pgPMUC c) PMU_SCTR.COUNT j = s.getF (pgPMUC c) PMU_CTR.COUNT j) ∧
      (s.cellarRun c = false → t.getF (pgPMUC c) PMU_SCTR.COUNT j = s.getF (pgPMUC c) PMU_SCTR.COUNT j) ∧ t.packets = s.packets ∧ t.hbm = s.hbm) ∧
    (half < 2 → s.grants who (pgPMUA c (8 * half)) PMU_SA_CLR.CLR = true → ∃ t, exec (.pmuSaClr who c half ports) s = .next t ∧
      { t with edge := s.edge, latches := s.latches } = s ∧
      ∀ i < 8, bitAt ports i = true → 16 * c + 8 * half + i ∈ t.edge.clrDue ∧ ∀ f ∈ State.saFields,
        t.pmuTick.getF (pgPMUA c (8 * half)) f i = 0)

/-- R603, R604, R607: a record whose packet has its outcome goes to its Cellar's ring of HBM, where a full ring in the mode that keeps the oldest
counts it as lost; a sampled packet with no outcome for 1 s is closed as pending; RD of a ring moves within the unread records. -/
def Obligations.TraceRecordsAndRings : Prop :=
  ∀ (s : State) (who : Requester) (c rd : Nat) (r : TraceRec), s.Inv → c < 4 →
    (s.traceNext c = some r → s.cellarRun c = true → s.flag (pgPMUT c) PMU_RING_CTL.EN = true →
      (s.spillDue = none → s.regionSize 2 ≠ 0 → s.regionSize 2 % 256 = 0 →
        (s.ringCount c + 1 < s.ringSize → ∃ t, exec (.traceRecordWrite c) s = .next t ∧ (∀ x ∈ t.trace, x.id ≠ r.id) ∧
          t.getF (pgPMUT c) PMU_RING_WR.WR = (s.getF (pgPMUT c) PMU_RING_WR.WR + 1) % s.ringSize % 2 ^ 24 ∧
          t.hbm = (s.hbmWrite (s.ringAddr c (s.getF (pgPMUT c) PMU_RING_WR.WR)) ((traceBytes r).map some)).hbm ∧ t.packets = s.packets) ∧
        (s.ringSize ≤ s.ringCount c + 1 → s.flag (pgPMUT c) PMU_RING_CTL.MODE = true → ∃ t, exec (.traceRecordWrite c) s = .next t ∧
          (∀ x ∈ t.trace, x.id ≠ r.id) ∧ t.hbm = s.hbm ∧
          t.getF (pgPMUT c) PMU_RING_LOST.LOST = satAdd (State.fmax PMU_RING_LOST.LOST) (s.getF (pgPMUT c) PMU_RING_LOST.LOST) 1))) ∧
    (s.trace.find? (fun x => x.out.isNone && decide (x.acc + 1000000000 ≤ s.fabric)) = some r → ∃ t x, exec .samplePendingTimeout s = .next t ∧
      x ∈ t.trace ∧ x.id = r.id ∧ x.out = some (4, s.fabric, 0xFF) ∧ t.packets = s.packets ∧ t.regs = s.regs) ∧
    (s.grants who (pgPMUT c) PMU_RING_RD.RD = true → rd < s.ringSize → s.ringSize ≤ 2 ^ 24 →
      (rd + s.ringSize - s.getF (pgPMUT c) PMU_RING_RD.RD % s.ringSize) % s.ringSize ≤ s.ringCount c →
      exec (.ringRdWrite who c rd) s = .next (s.setF (pgPMUT c) PMU_RING_RD.RD rd))

/-! ## Clocks, power and resets (chapter 19) -/

/-- R135, R612, R614, R615, R616, R634: a loss of lock of the root PLL is reported, and a relock lets the derived clocks run. A sample of the source of
fabric time gives THETA, steps fabric time where no slot is armed or active and the offset is over 1 µs, and trims otherwise. A PTM exchange is made each sample interval, and 16 intervals without a sample lose LOCKED.
R618, R619, R621, R622, R623: a domain under software control is gated where Table 19.4 allows it and refused otherwise, and wakes with its
registers reset. The second sample in a row below a warning level begins a warning, which ends 10 µs after the supply is back; the second below a
reset level begins a power-up reset with cause SUPPLY (2). -/
def Obligations.ClocksAndPower : Prop :=
  (∀ (s : State) (ptm : Option (Nat × Nat)) (p : Nat) (θ : Int), s.Inv →
      (s.flag pgCLK CLK_STS.PLL_LOCK = true → ∃ t, exec .pllUnlock s = .next t ∧ t.flag pgCLK CLK_STS.PLL_LOCK = false ∧ t.fabric = s.fabric ∧
        (s.fltMasked (pgCLK * 32) = false → t.fltSet (pgCLK * 32) = true)) ∧
      (3 ≤ s.boot.step → exec .pllRelock s = .next (s.setFlag pgCLK CLK_STS.PLL_LOCK true)) ∧
      (s.sourceBad = false → s.sampleTheta ptm = some θ → ∃ t, exec (.timeSample ptm) s = .next t ∧
        t.getF pgCLK CLK_THETA.THETA = ofInt64 θ ∧ t.flag pgCLK CLK_STS.HOLDOVER = false ∧ t.clk.lastAt = s.ticks ∧
        t.getF pgCLK CLK_CNT.SAMPLES = satAdd (State.fmax CLK_CNT.SAMPLES) (s.getF pgCLK CLK_CNT.SAMPLES) 1 ∧
        (θ.natAbs ≤ 100 → 7 ≤ s.clk.good → t.flag pgCLK CLK_STS.LOCKED = true) ∧ (1000 < θ.natAbs → t.flag pgCLK CLK_STS.LOCKED = false) ∧
        (1000 < θ.natAbs → s.schedBusy = false → t.fabric = ofInt64 ((s.fabric : Int) + θ) ∧ t.getF pgCLK CLK_TRIM.TRIM = 0 ∧ t.clk.acc = 0 ∧
          t.getF pgCLK CLK_CNT.STEPS = satAdd (State.fmax CLK_CNT.STEPS) (s.getF pgCLK CLK_CNT.STEPS) 1) ∧
        (θ.natAbs ≤ 1000 ∨ s.schedBusy = true → t.fabric = s.fabric ∧ t.clk.acc = s.clk.acc + θ ∧
          t.getF pgCLK CLK_TRIM.TRIM = ofInt32 (s.trimOf θ (s.clk.acc + θ)) ∧ t.getF pgCLK CLK_CNT.STEPS = s.getF pgCLK CLK_CNT.STEPS) ∧
        t.hbm = s.hbm) ∧
      (s.timeSource = .ptm p → s.sourceBad = false → s.clk.ptmAt + s.sampleInterval ≤ s.ticks → s.inL0 p = true → exec .ptmInterval s =
        .next { s with out := .ptm p :: s.out, clk := { s.clk with ptmAt := s.ticks } }) ∧
      (s.timeSource ≠ .none → s.flag pgCLK CLK_STS.HOLDOVER = false → s.clk.lastAt + 16 * s.sampleInterval ≤ s.ticks → ∃ t,
        exec .tsrcLostTimeout s = .next t ∧ t.flag pgCLK CLK_STS.HOLDOVER = true ∧ t.flag pgCLK CLK_STS.LOCKED = false ∧ t.clk.good = 0 ∧
        t.getF pgCLK CLK_TRIM.TRIM = s.getF pgCLK CLK_TRIM.TRIM ∧ t.fabric = s.fabric ∧ t.hbm = s.hbm ∧
        (s.fltMasked (pgCLK * 32 + 1) = false → t.fltSet (pgCLK * 32 + 1) = true))) ∧
  (∀ (s : State) (who : Requester) (d core t0 : Nat) (rails : List (Nat × Nat)), s.Inv → d < 96 →
      (s.grants who pgPWR PWR_GATE.GATE (d / 32) = true →
        (softDomain d = false → exec (.powerGateReq who d) s = .next s) ∧
        (softDomain d = true → s.gateBit d = false → s.gateAllowed d = true → ∃ t, exec (.powerGateReq who d) s = .next t ∧
          t.gateBit d = true ∧ d ∈ t.pwr.gating ∧ t.gated d = s.gated d ∧ t.packets = s.packets ∧ t.hbm = s.hbm) ∧
        (softDomain d = true → s.gateBit d = false → s.gateAllowed d = false → ∃ t, exec (.powerGateReq who d) s = .next t ∧
          t.gateBit d = false ∧ bitAt (t.getF pgPWR PWR_REFUSED.REFUSED (d / 32)) (d % 32) = true ∧ t.pwr = s.pwr ∧ t.hbm = s.hbm ∧
          (s.fltMasked (pgPWR * 32 + 1) = false → t.fltSet (pgPWR * 32 + 1) = true)) ∧
        (softDomain d = true → s.gateBit d = true → ∃ t, exec (.powerWakeReq who d) s = .next t ∧ t.gateBit d = false ∧
          (s.gated d = true → (d, s.ticks) ∈ t.pwr.waking) ∧ t.gated d = s.gated d ∧ t.packets = s.packets ∧ t.hbm = s.hbm)) ∧
      (d ∈ s.pwr.gating → ∃ t, exec (.powerDomainGated d) s = .next t ∧ t.gated d = true ∧ t.pwr.gating = s.pwr.gating.erase d ∧
        (∀ e < 96, e ≠ d → t.gated e = s.gated e) ∧ t.packets = s.packets) ∧
      ((d, t0) ∈ s.pwr.waking → (∀ x ∈ s.pwr.waking, x.1 = d → x = (d, t0)) → t0 + State.wakeTime d ≤ s.ticks → ∃ t, exec (.powerDomainWoken d) s = .next t ∧
        t.gated d = false ∧ (∀ x ∈ t.pwr.waking, x ∈ s.pwr.waking ∧ x.1 ≠ d) ∧ (∀ x ∈ s.pwr.waking, x.1 ≠ d → x ∈ t.pwr.waking) ∧
        (∀ e < 96, e ≠ d → t.gated e = s.gated e) ∧ (d = 92 → t.trace = []) ∧
        (d = 93 → ∀ o < 4096, t.reg (pgSPL * 4096 + o) = State.reset.reg (pgSPL * 4096 + o)) ∧ t.hbm = s.hbm) ∧
      ((∀ t, s.pwr.sampleAt = some t → t + 100 ≤ s.ticks) →
        (s.pwr.warning = [] → (∀ x ∈ (0, core) :: rails, s.railWarn x.1 ≤ x.2 ∨ 8 < x.1) → ∃ t, exec (.supplySample core rails) s = .next t ∧
          t.pwr.sampleAt = some s.ticks ∧ t.pwr.warning = [] ∧ t.boot = s.boot ∧ t.packets = s.packets ∧ t.hbm = s.hbm) ∧
        (s.pwr.warning = [] → core < s.railWarn 0 → (s.railCounts 0 core).1 = 2 → (s.railCounts 0 core).2 < 2 → ∃ t,
          exec (.supplySample core []) s = .next t ∧ t.flag pgPWR PWR_SUPPLY.WARN = true ∧ t.getF pgPWR PWR_SUPPLY.MIN_MV = core ∧
          t.getF pgPWR PWR_SUPPLY.WARNS = satAdd (State.fmax PWR_SUPPLY.WARNS) (s.getF pgPWR PWR_SUPPLY.WARNS) 1 ∧ t.boot = s.boot ∧ t.hbm = s.hbm ∧
          (s.fltMasked (pgPWR * 32) = false → t.fltSet (pgPWR * 32) = true)) ∧
        (2 ≤ (s.railCounts 0 core).2 → ∃ t, exec (.supplySample core rails) s = .next t ∧ t.getF pgRST RST_STS.CAUSE = 2 ∧ t.boot.step = 0 ∧
          t.boot.since = s.ticks ∧ t.fabric = 0 ∧ t.hbm = [] ∧ t.packets = [])) ∧
      (s.flag pgPWR PWR_SUPPLY.WARN = true →
        ((∀ e ∈ s.pwr.warning, ∃ t0, e.2 = some t0 ∧ t0 + 10000 ≤ s.ticks) → ∃ t, exec .supplyWarnEnd s = .next t ∧
          t.flag pgPWR PWR_SUPPLY.WARN = false ∧ t.pwr.warning = [] ∧ t.hbm = s.hbm) ∧
        ((∃ e ∈ s.pwr.warning, ∀ t0, e.2 = some t0 → s.ticks < t0 + 10000) → ∃ t, exec .supplyWarnEnd s = .next t ∧
          t.flag pgPWR PWR_SUPPLY.WARN = true ∧ t.pwr.warning ≠ [] ∧ t.regs = s.regs)))

/-- R624, R625, R626, R627, R628, R630, R631: what begins a power-up reset leaves the device at step 0 with its cause and fabric time 0; a device warm
reset, at once or 10 µs after an ACTIVE member's YIELD, keeps HBM, fabric time and the PLL's lock; a software hot reset makes its partition busy until
it is served again; and a management complex reset takes down the complex alone. -/
def Obligations.ResetsOfTheDevice : Prop :=
  ∀ (s : State) (who : Requester) (part t0 c : Nat), s.Inv →
    (∃ t, exec .vddAonRise s = .next t ∧ t.boot.step = 0 ∧ t.fabric = 0 ∧ t.hbm = [] ∧ t.packets = [] ∧ t.flash = s.flash ∧ t.devFatal = false ∧
      t.getF pgRST RST_STS.CAUSE = 0 ∧ t.flag pgRST RST_STS.AON_KEPT = false ∧ t.getF pgRST RST_STS.WARMS = 0 ∧ t.pending = s.pending) ∧
    (∃ t, exec .qporNAssert s = .next t ∧ t.boot.step = 0 ∧ t.fabric = 0 ∧ t.hbm = [] ∧ t.packets = [] ∧ t.flash = s.flash ∧
      t.boot.fatal = (s.devFatal || s.boot.fatal) ∧ t.getF pgRST RST_STS.CAUSE = 1 ∧ t.flag pgRST RST_STS.AON_KEPT = true ∧
      t.getF pgRST RST_STS.WARMS = s.getF pgRST RST_STS.WARMS ∧ t.getF pgRST RST_STS.MGMTS = s.getF pgRST RST_STS.MGMTS) ∧
    (s.boot.step = 2 → s.boot.since + 100000 ≤ s.ticks → s.flag pgCLK CLK_STS.PLL_LOCK = false → ∃ t, exec .pllLockTimeout s = .next t ∧
      t.boot.step = 0 ∧ t.boot.since = s.ticks ∧ t.getF pgRST RST_STS.CAUSE = 3 ∧ t.flag pgRST RST_STS.AON_KEPT = true ∧ t.hbm = []) ∧
    (s.boot.step = 0 → s.boot.since + 1000000 ≤ s.ticks → exec .powerUpResetEnd s = .next (s.bootAt 1)) ∧
    (s.devFatal = true → exec .qwarmNAssert s = .next s) ∧
    (s.devFatal = false → s.boot.warm = none → s.boot.step ≠ 0 →
      (s.getF pgMIR MIR_STS.ROLE ≠ 2 → ∃ t, exec .qwarmNAssert s = .next t ∧ t.boot.step = 1 ∧ t.fabric = s.fabric ∧ t.hbm = s.hbm ∧
        t.packets = [] ∧ t.flag pgCLK CLK_STS.PLL_LOCK = s.flag pgCLK CLK_STS.PLL_LOCK ∧
        t.getF pgRST RST_STS.CAUSE = 4 ∧ t.getF pgRST RST_STS.WARMS = satAdd (State.fmax RST_STS.WARMS) (s.getF pgRST RST_STS.WARMS) 1) ∧
      (s.getF pgMIR MIR_STS.ROLE = 2 → ∃ t, exec .qwarmNAssert s = .next t ∧ t.boot.warm = some (s.ticks + 10000, 4) ∧ t.boot.step = s.boot.step ∧
        t.mir.yielded = true ∧ t.hbm = s.hbm) ∧
      (s.grants who pgRST RST_CMD.WARM = true → s.getF pgMIR MIR_STS.ROLE ≠ 2 → ∃ t, exec (.rstCmdWarm who) s = .next t ∧ t.boot.step = 1 ∧
        t.fabric = s.fabric ∧ t.hbm = s.hbm ∧ t.packets = [] ∧ t.getF pgRST RST_STS.CAUSE = 5)) ∧
    (s.boot.warm = some (t0, c) → s.devFatal = false → t0 ≤ s.ticks → c < 16 → ∃ t, exec .warmResetStart s = .next t ∧ t.boot.step = 1 ∧ t.boot.warm = none ∧
      t.fabric = s.fabric ∧ t.hbm = s.hbm ∧ t.packets = [] ∧ t.getF pgRST RST_STS.CAUSE = c) ∧
    (s.mgmtUp = true → ∃ t, t = ({ s with mgmtUp := false } : State).addF pgRST RST_STS.MGMTS ∧
      (s.grants who pgRST RST_CMD.MGMT = true → exec (.rstCmdMgmt who) s = .next t) ∧
      exec .mgmtWatchdogExpire s = .next t ∧ exec .firmwareActivate s = .next t) ∧
    (s.grants who pgRST RST_PART.GO = true → (24 ≤ part → exec (.rstPartGo who part) s = .next s) ∧
      (part < 24 → s.partOn part = true → s.flag pgRST RST_PSTS.BUSY part = false → ∃ t, exec (.rstPartGo who part) s = .next t ∧
        t.flag pgRST RST_PSTS.BUSY part = true ∧
        t.getF pgRST RST_PSTS.LOST_POSTED part = min 0xFFFFFF (s.packets.countP fun x =>
          (x.place == .ingress || x.place == .walk) && s.portPart x.ing == part && decide (x.ing < 64) && isWrite x.tlp) ∧
        (∀ x ∈ t.packets, x.place = .ingress → x.ing < 64 → s.portPart x.ing = part → isWrite x.tlp = false))) ∧
    (part < 24 → s.flag pgRST RST_PSTS.BUSY part = true → ∃ t, exec (.partResetBusyEnd part) s = .next t ∧ s.OnlyRegs t ∧
      t.flag pgRST RST_PSTS.BUSY part = false ∧
      ∀ p < 64, t.linkState p = if s.portPart p = part ∧ s.linkState p = 8 then 0 else s.linkState p)

/-- R552, R625, R632: the boot sequence goes on step by step; its configuration is measured and loaded at step 6; step 8
waits for LOCKED or 200 ms; step 10 sets the seal; after step 11 the device is served. Step 3, and a release after a management complex reset,
bring the complex up where a firmware copy is accepted. -/
def Obligations.BootSequence : Prop :=
  ∀ (s : State) (info : BootInfo) (a b : Option FwCopy), s.Inv →
    (s.boot.step = 1 → exec (.bootStepDone info) s = .next (s.bootAt 2)) ∧
    (s.boot.step = 2 → exec (.bootStepDone info) s = .next ((s.setFlag pgCLK CLK_STS.PLL_LOCK true).bootAt 3)) ∧
    (s.boot.step = 3 → ∃ t, exec (.bootStepDone info) s = .next t ∧ t.mgmtUp = (s.bootRom (!s.boot.cold) info).mgmtUp ∧
      t.boot.step = (if t.mgmtUp then (if s.boot.cold then 4 else 6) else 13) ∧
      (t.mgmtUp = true → s.boot.fatal = true → t.devFatal = true ∧ t.flag pgFLT FLT_PIN.ASSERTED = true)) ∧
    (s.boot.step = 4 → exec (.bootStepDone info) s = .next (s.bootAt 5)) ∧
    (s.boot.step = 5 → ∃ t, exec (.bootStepDone info) s = .next t ∧ t.boot.step = 6 ∧ t.regs = s.regs ∧
      (∀ e ∈ t.hbm, e.1 < s.regionBase 1 ∨ s.regionBase 1 + s.regionSize 1 ≤ e.1) ∧ ∀ e ∈ t.hbm, e ∈ s.hbm) ∧
    (s.boot.step = 6 → ((s.bootConfig info).configBad = none → ∃ t, exec (.bootStepDone info) s = .next t ∧ t.boot.step = 7 ∧
        t.trust.cfgHash = sha384 info.config ∧ t.fabric = s.fabric ∧ t.hbm = s.hbm)) ∧
    (s.boot.step = 7 ∨ s.boot.step = 9 ∨ s.boot.step = 11 → exec (.bootStepDone info) s = .next (s.bootAt (s.boot.step + 1))) ∧
    (s.boot.step = 11 → (s.bootAt 12).ready = true) ∧
    (s.boot.step = 8 → (s.flag pgCLK CLK_STS.LOCKED = true ∨ s.getF pgCLK CLK_TSRC.MODE = 0 → exec (.bootStepDone info) s = .next (s.bootAt 9)) ∧
      (s.flag pgCLK CLK_STS.LOCKED = false → s.getF pgCLK CLK_TSRC.MODE ≠ 0 →
        (s.ticks < s.boot.since + 200000000 → exec (.bootStepDone info) s = .next s) ∧
        (s.boot.since + 200000000 ≤ s.ticks → ∃ t, exec (.bootStepDone info) s = .next t ∧ t.boot.step = 9 ∧
          (s.fltMasked (pgCLK * 32 + 1) = false → t.fltSet (pgCLK * 32 + 1) = true)))) ∧
    (s.boot.step = 10 → ∃ t, exec (.bootStepDone info) s = .next t ∧ t.boot.step = 11 ∧ t.flag pgGLB GLB_SEAL.SEAL = true ∧ t.trust.cpDue ≠ none) ∧
    (s.mgmtUp = false → 4 ≤ s.boot.step → s.boot.step ≠ 13 → s.flag pgTRU TRU_BOOT_STS.BOOT_FAIL = false → ∃ t,
      exec (.managementComplexRelease a b) s = .next t ∧ t.boot = s.boot ∧ t.hbm = s.hbm ∧
      (s.copyAccepted a = none → s.copyAccepted b = none → t.mgmtUp = false ∧ t.flag pgTRU TRU_BOOT_STS.BOOT_FAIL = true ∧
        t.getF pgTRU TRU_BOOT_STS.FW_COPY = 3) ∧
      (s.copyAccepted a ≠ none → t.mgmtUp = true ∧ t.getF pgTRU TRU_BOOT_STS.FW_COPY = 0) ∧
      (s.copyAccepted a = none → s.copyAccepted b ≠ none → t.mgmtUp = true ∧ t.getF pgTRU TRU_BOOT_STS.FW_COPY = 1))
end

