-- ==== Sys2Proof/Laws/State.lean ====
section
/-! SUPPORT. What each update of the state leaves alone: one lemma for each field and update, so that no proof unfolds one. -/

namespace Sys2Proof.Machine.State

section
variable (s : State) (k : Nat) (v : Dword)
@[simp] theorem setReg_pending : (s.setReg k v).pending = s.pending := rfl
@[simp] theorem setReg_heldRegs : (s.setReg k v).heldRegs = s.heldRegs := rfl
@[simp] theorem setReg_latches : (s.setReg k v).latches = s.latches := rfl
@[simp] theorem setReg_ticks : (s.setReg k v).ticks = s.ticks := rfl
@[simp] theorem setReg_fabric : (s.setReg k v).fabric = s.fabric := rfl
@[simp] theorem setReg_out : (s.setReg k v).out = s.out := rfl
@[simp] theorem setReg_free : (s.setReg k v).free = s.free := rfl
@[simp] theorem setReg_firing : (s.setReg k v).firing = s.firing := rfl
@[simp] theorem setReg_flt : (s.setReg k v).flt = s.flt := rfl
@[simp] theorem setReg_ept : (s.setReg k v).ept = s.ept := rfl
@[simp] theorem setReg_packets : (s.setReg k v).packets = s.packets := rfl
@[simp] theorem setReg_nextId : (s.setReg k v).nextId = s.nextId := rfl
@[simp] theorem setReg_order : (s.setReg k v).order = s.order := rfl
@[simp] theorem setReg_wseq : (s.setReg k v).wseq = s.wseq := rfl
@[simp] theorem setReg_trk : (s.setReg k v).trk = s.trk := rfl
@[simp] theorem setReg_openW : (s.setReg k v).openW = s.openW := rfl
@[simp] theorem setReg_fences : (s.setReg k v).fences = s.fences := rfl
@[simp] theorem setReg_swb : (s.setReg k v).swb = s.swb := rfl
@[simp] theorem setReg_resv : (s.setReg k v).resv = s.resv := rfl
@[simp] theorem setReg_pf : (s.setReg k v).pf = s.pf := rfl
@[simp] theorem setReg_npw : (s.setReg k v).npw = s.npw := rfl
@[simp] theorem setReg_splits : (s.setReg k v).splits = s.splits := rfl
@[simp] theorem setReg_parts : (s.setReg k v).parts = s.parts := rfl
@[simp] theorem setReg_bind : (s.setReg k v).bind = s.bind := rfl
@[simp] theorem setReg_bindHeld : (s.setReg k v).bindHeld = s.bindHeld := rfl
@[simp] theorem setReg_insts : (s.setReg k v).insts = s.insts := rfl
@[simp] theorem setReg_ttu : (s.setReg k v).ttu = s.ttu := rfl
@[simp] theorem setReg_ttuHits : (s.setReg k v).ttuHits = s.ttuHits := rfl
@[simp] theorem setReg_walks : (s.setReg k v).walks = s.walks := rfl
@[simp] theorem setReg_inval : (s.setReg k v).inval = s.inval := rfl
@[simp] theorem setReg_bar2 : (s.setReg k v).bar2 = s.bar2 := rfl
@[simp] theorem setReg_hbm : (s.setReg k v).hbm = s.hbm := rfl
@[simp] theorem setReg_regions : (s.setReg k v).regions = s.regions := rfl
@[simp] theorem setReg_ports : (s.setReg k v).ports = s.ports := rfl
@[simp] theorem setReg_lanes : (s.setReg k v).lanes = s.lanes := rfl
@[simp] theorem setReg_sched : (s.setReg k v).sched = s.sched := rfl
@[simp] theorem setReg_queues : (s.setReg k v).queues = s.queues := rfl
@[simp] theorem setReg_prioPtr : (s.setReg k v).prioPtr = s.prioPtr := rfl
@[simp] theorem setReg_ffl : (s.setReg k v).ffl = s.ffl := rfl
@[simp] theorem setReg_tx : (s.setReg k v).tx = s.tx := rfl
@[simp] theorem setReg_rx : (s.setReg k v).rx = s.rx := rfl
@[simp] theorem setReg_frt : (s.setReg k v).frt = s.frt := rfl
@[simp] theorem setReg_spillPtr : (s.setReg k v).spillPtr = s.spillPtr := rfl
@[simp] theorem setReg_spillOps : (s.setReg k v).spillOps = s.spillOps := rfl
@[simp] theorem setReg_edge : (s.setReg k v).edge = s.edge := rfl
@[simp] theorem setReg_chans : (s.setReg k v).chans = s.chans := rfl
@[simp] theorem setReg_engs : (s.setReg k v).engs = s.engs := rfl
@[simp] theorem setReg_mir : (s.setReg k v).mir = s.mir := rfl
@[simp] theorem setReg_flash : (s.setReg k v).flash = s.flash := rfl
@[simp] theorem setReg_trust : (s.setReg k v).trust = s.trust := rfl
@[simp] theorem setReg_age : (s.setReg k v).age = s.age := rfl
@[simp] theorem setReg_decayAt : (s.setReg k v).decayAt = s.decayAt := rfl
@[simp] theorem setReg_timeSample : (s.setReg k v).timeSample = s.timeSample := rfl
@[simp] theorem setReg_mgmtUp : (s.setReg k v).mgmtUp = s.mgmtUp := rfl
@[simp] theorem setReg_trace : (s.setReg k v).trace = s.trace := rfl
@[simp] theorem setReg_snapAt : (s.setReg k v).snapAt = s.snapAt := rfl
@[simp] theorem setReg_slots : (s.setReg k v).slots = s.slots := rfl
@[simp] theorem setReg_spc : (s.setReg k v).spc = s.spc := rfl
@[simp] theorem setReg_clk : (s.setReg k v).clk = s.clk := rfl
@[simp] theorem setReg_pwr : (s.setReg k v).pwr = s.pwr := rfl
@[simp] theorem setReg_boot : (s.setReg k v).boot = s.boot := rfl
@[simp] theorem setReg_heldOut : (s.setReg k v).heldOut = s.heldOut := rfl
@[simp] theorem setReg_listDirty : (s.setReg k v).listDirty = s.listDirty := rfl
end

section
variable (s : State) (pg : Nat) (f : FRef) (v i : Nat)
@[simp] theorem setF_pending : (s.setF pg f v i).pending = s.pending := rfl
@[simp] theorem setF_heldRegs : (s.setF pg f v i).heldRegs = s.heldRegs := rfl
@[simp] theorem setF_latches : (s.setF pg f v i).latches = s.latches := rfl
@[simp] theorem setF_ticks : (s.setF pg f v i).ticks = s.ticks := rfl
@[simp] theorem setF_fabric : (s.setF pg f v i).fabric = s.fabric := rfl
@[simp] theorem setF_out : (s.setF pg f v i).out = s.out := rfl
@[simp] theorem setF_free : (s.setF pg f v i).free = s.free := rfl
@[simp] theorem setF_firing : (s.setF pg f v i).firing = s.firing := rfl
@[simp] theorem setF_flt : (s.setF pg f v i).flt = s.flt := rfl
@[simp] theorem setF_ept : (s.setF pg f v i).ept = s.ept := rfl
@[simp] theorem setF_packets : (s.setF pg f v i).packets = s.packets := rfl
@[simp] theorem setF_nextId : (s.setF pg f v i).nextId = s.nextId := rfl
@[simp] theorem setF_order : (s.setF pg f v i).order = s.order := rfl
@[simp] theorem setF_wseq : (s.setF pg f v i).wseq = s.wseq := rfl
@[simp] theorem setF_trk : (s.setF pg f v i).trk = s.trk := rfl
@[simp] theorem setF_openW : (s.setF pg f v i).openW = s.openW := rfl
@[simp] theorem setF_fences : (s.setF pg f v i).fences = s.fences := rfl
@[simp] theorem setF_swb : (s.setF pg f v i).swb = s.swb := rfl
@[simp] theorem setF_resv : (s.setF pg f v i).resv = s.resv := rfl
@[simp] theorem setF_pf : (s.setF pg f v i).pf = s.pf := rfl
@[simp] theorem setF_npw : (s.setF pg f v i).npw = s.npw := rfl
@[simp] theorem setF_splits : (s.setF pg f v i).splits = s.splits := rfl
@[simp] theorem setF_parts : (s.setF pg f v i).parts = s.parts := rfl
@[simp] theorem setF_bind : (s.setF pg f v i).bind = s.bind := rfl
@[simp] theorem setF_bindHeld : (s.setF pg f v i).bindHeld = s.bindHeld := rfl
@[simp] theorem setF_insts : (s.setF pg f v i).insts = s.insts := rfl
@[simp] theorem setF_ttu : (s.setF pg f v i).ttu = s.ttu := rfl
@[simp] theorem setF_ttuHits : (s.setF pg f v i).ttuHits = s.ttuHits := rfl
@[simp] theorem setF_walks : (s.setF pg f v i).walks = s.walks := rfl
@[simp] theorem setF_inval : (s.setF pg f v i).inval = s.inval := rfl
@[simp] theorem setF_bar2 : (s.setF pg f v i).bar2 = s.bar2 := rfl
@[simp] theorem setF_hbm : (s.setF pg f v i).hbm = s.hbm := rfl
@[simp] theorem setF_regions : (s.setF pg f v i).regions = s.regions := rfl
@[simp] theorem setF_ports : (s.setF pg f v i).ports = s.ports := rfl
@[simp] theorem setF_lanes : (s.setF pg f v i).lanes = s.lanes := rfl
@[simp] theorem setF_sched : (s.setF pg f v i).sched = s.sched := rfl
@[simp] theorem setF_queues : (s.setF pg f v i).queues = s.queues := rfl
@[simp] theorem setF_prioPtr : (s.setF pg f v i).prioPtr = s.prioPtr := rfl
@[simp] theorem setF_ffl : (s.setF pg f v i).ffl = s.ffl := rfl
@[simp] theorem setF_tx : (s.setF pg f v i).tx = s.tx := rfl
@[simp] theorem setF_rx : (s.setF pg f v i).rx = s.rx := rfl
@[simp] theorem setF_frt : (s.setF pg f v i).frt = s.frt := rfl
@[simp] theorem setF_spillPtr : (s.setF pg f v i).spillPtr = s.spillPtr := rfl
@[simp] theorem setF_spillOps : (s.setF pg f v i).spillOps = s.spillOps := rfl
@[simp] theorem setF_edge : (s.setF pg f v i).edge = s.edge := rfl
@[simp] theorem setF_chans : (s.setF pg f v i).chans = s.chans := rfl
@[simp] theorem setF_engs : (s.setF pg f v i).engs = s.engs := rfl
@[simp] theorem setF_mir : (s.setF pg f v i).mir = s.mir := rfl
@[simp] theorem setF_flash : (s.setF pg f v i).flash = s.flash := rfl
@[simp] theorem setF_trust : (s.setF pg f v i).trust = s.trust := rfl
@[simp] theorem setF_age : (s.setF pg f v i).age = s.age := rfl
@[simp] theorem setF_decayAt : (s.setF pg f v i).decayAt = s.decayAt := rfl
@[simp] theorem setF_timeSample : (s.setF pg f v i).timeSample = s.timeSample := rfl
@[simp] theorem setF_mgmtUp : (s.setF pg f v i).mgmtUp = s.mgmtUp := rfl
@[simp] theorem setF_trace : (s.setF pg f v i).trace = s.trace := rfl
@[simp] theorem setF_snapAt : (s.setF pg f v i).snapAt = s.snapAt := rfl
@[simp] theorem setF_slots : (s.setF pg f v i).slots = s.slots := rfl
@[simp] theorem setF_spc : (s.setF pg f v i).spc = s.spc := rfl
@[simp] theorem setF_clk : (s.setF pg f v i).clk = s.clk := rfl
@[simp] theorem setF_pwr : (s.setF pg f v i).pwr = s.pwr := rfl
@[simp] theorem setF_boot : (s.setF pg f v i).boot = s.boot := rfl
@[simp] theorem setF_heldOut : (s.setF pg f v i).heldOut = s.heldOut := rfl
@[simp] theorem setF_listDirty : (s.setF pg f v i).listDirty = s.listDirty := rfl
end

section
variable (s : State) (pg : Nat) (f : FRef) (b : Bool) (i : Nat)
@[simp] theorem setFlag_pending : (s.setFlag pg f b i).pending = s.pending := rfl
@[simp] theorem setFlag_heldRegs : (s.setFlag pg f b i).heldRegs = s.heldRegs := rfl
@[simp] theorem setFlag_latches : (s.setFlag pg f b i).latches = s.latches := rfl
@[simp] theorem setFlag_ticks : (s.setFlag pg f b i).ticks = s.ticks := rfl
@[simp] theorem setFlag_fabric : (s.setFlag pg f b i).fabric = s.fabric := rfl
@[simp] theorem setFlag_out : (s.setFlag pg f b i).out = s.out := rfl
@[simp] theorem setFlag_free : (s.setFlag pg f b i).free = s.free := rfl
@[simp] theorem setFlag_firing : (s.setFlag pg f b i).firing = s.firing := rfl
@[simp] theorem setFlag_flt : (s.setFlag pg f b i).flt = s.flt := rfl
@[simp] theorem setFlag_ept : (s.setFlag pg f b i).ept = s.ept := rfl
@[simp] theorem setFlag_packets : (s.setFlag pg f b i).packets = s.packets := rfl
@[simp] theorem setFlag_nextId : (s.setFlag pg f b i).nextId = s.nextId := rfl
@[simp] theorem setFlag_order : (s.setFlag pg f b i).order = s.order := rfl
@[simp] theorem setFlag_wseq : (s.setFlag pg f b i).wseq = s.wseq := rfl
@[simp] theorem setFlag_trk : (s.setFlag pg f b i).trk = s.trk := rfl
@[simp] theorem setFlag_openW : (s.setFlag pg f b i).openW = s.openW := rfl
@[simp] theorem setFlag_fences : (s.setFlag pg f b i).fences = s.fences := rfl
@[simp] theorem setFlag_swb : (s.setFlag pg f b i).swb = s.swb := rfl
@[simp] theorem setFlag_resv : (s.setFlag pg f b i).resv = s.resv := rfl
@[simp] theorem setFlag_pf : (s.setFlag pg f b i).pf = s.pf := rfl
@[simp] theorem setFlag_npw : (s.setFlag pg f b i).npw = s.npw := rfl
@[simp] theorem setFlag_splits : (s.setFlag pg f b i).splits = s.splits := rfl
@[simp] theorem setFlag_parts : (s.setFlag pg f b i).parts = s.parts := rfl
@[simp] theorem setFlag_bind : (s.setFlag pg f b i).bind = s.bind := rfl
@[simp] theorem setFlag_bindHeld : (s.setFlag pg f b i).bindHeld = s.bindHeld := rfl
@[simp] theorem setFlag_insts : (s.setFlag pg f b i).insts = s.insts := rfl
@[simp] theorem setFlag_ttu : (s.setFlag pg f b i).ttu = s.ttu := rfl
@[simp] theorem setFlag_ttuHits : (s.setFlag pg f b i).ttuHits = s.ttuHits := rfl
@[simp] theorem setFlag_walks : (s.setFlag pg f b i).walks = s.walks := rfl
@[simp] theorem setFlag_inval : (s.setFlag pg f b i).inval = s.inval := rfl
@[simp] theorem setFlag_bar2 : (s.setFlag pg f b i).bar2 = s.bar2 := rfl
@[simp] theorem setFlag_hbm : (s.setFlag pg f b i).hbm = s.hbm := rfl
@[simp] theorem setFlag_regions : (s.setFlag pg f b i).regions = s.regions := rfl
@[simp] theorem setFlag_ports : (s.setFlag pg f b i).ports = s.ports := rfl
@[simp] theorem setFlag_lanes : (s.setFlag pg f b i).lanes = s.lanes := rfl
@[simp] theorem setFlag_sched : (s.setFlag pg f b i).sched = s.sched := rfl
@[simp] theorem setFlag_queues : (s.setFlag pg f b i).queues = s.queues := rfl
@[simp] theorem setFlag_prioPtr : (s.setFlag pg f b i).prioPtr = s.prioPtr := rfl
@[simp] theorem setFlag_ffl : (s.setFlag pg f b i).ffl = s.ffl := rfl
@[simp] theorem setFlag_tx : (s.setFlag pg f b i).tx = s.tx := rfl
@[simp] theorem setFlag_rx : (s.setFlag pg f b i).rx = s.rx := rfl
@[simp] theorem setFlag_frt : (s.setFlag pg f b i).frt = s.frt := rfl
@[simp] theorem setFlag_spillPtr : (s.setFlag pg f b i).spillPtr = s.spillPtr := rfl
@[simp] theorem setFlag_spillOps : (s.setFlag pg f b i).spillOps = s.spillOps := rfl
@[simp] theorem setFlag_edge : (s.setFlag pg f b i).edge = s.edge := rfl
@[simp] theorem setFlag_chans : (s.setFlag pg f b i).chans = s.chans := rfl
@[simp] theorem setFlag_engs : (s.setFlag pg f b i).engs = s.engs := rfl
@[simp] theorem setFlag_mir : (s.setFlag pg f b i).mir = s.mir := rfl
@[simp] theorem setFlag_flash : (s.setFlag pg f b i).flash = s.flash := rfl
@[simp] theorem setFlag_trust : (s.setFlag pg f b i).trust = s.trust := rfl
@[simp] theorem setFlag_age : (s.setFlag pg f b i).age = s.age := rfl
@[simp] theorem setFlag_decayAt : (s.setFlag pg f b i).decayAt = s.decayAt := rfl
@[simp] theorem setFlag_timeSample : (s.setFlag pg f b i).timeSample = s.timeSample := rfl
@[simp] theorem setFlag_mgmtUp : (s.setFlag pg f b i).mgmtUp = s.mgmtUp := rfl
@[simp] theorem setFlag_trace : (s.setFlag pg f b i).trace = s.trace := rfl
@[simp] theorem setFlag_snapAt : (s.setFlag pg f b i).snapAt = s.snapAt := rfl
@[simp] theorem setFlag_slots : (s.setFlag pg f b i).slots = s.slots := rfl
@[simp] theorem setFlag_spc : (s.setFlag pg f b i).spc = s.spc := rfl
@[simp] theorem setFlag_clk : (s.setFlag pg f b i).clk = s.clk := rfl
@[simp] theorem setFlag_pwr : (s.setFlag pg f b i).pwr = s.pwr := rfl
@[simp] theorem setFlag_boot : (s.setFlag pg f b i).boot = s.boot := rfl
@[simp] theorem setFlag_heldOut : (s.setFlag pg f b i).heldOut = s.heldOut := rfl
@[simp] theorem setFlag_listDirty : (s.setFlag pg f b i).listDirty = s.listDirty := rfl
end

section
variable (s : State) (pg : Nat) (f : FRef) (v i : Nat)
@[simp] theorem addF_pending : (s.addF pg f v i).pending = s.pending := rfl
@[simp] theorem addF_heldRegs : (s.addF pg f v i).heldRegs = s.heldRegs := rfl
@[simp] theorem addF_latches : (s.addF pg f v i).latches = s.latches := rfl
@[simp] theorem addF_ticks : (s.addF pg f v i).ticks = s.ticks := rfl
@[simp] theorem addF_fabric : (s.addF pg f v i).fabric = s.fabric := rfl
@[simp] theorem addF_out : (s.addF pg f v i).out = s.out := rfl
@[simp] theorem addF_free : (s.addF pg f v i).free = s.free := rfl
@[simp] theorem addF_firing : (s.addF pg f v i).firing = s.firing := rfl
@[simp] theorem addF_flt : (s.addF pg f v i).flt = s.flt := rfl
@[simp] theorem addF_ept : (s.addF pg f v i).ept = s.ept := rfl
@[simp] theorem addF_packets : (s.addF pg f v i).packets = s.packets := rfl
@[simp] theorem addF_nextId : (s.addF pg f v i).nextId = s.nextId := rfl
@[simp] theorem addF_order : (s.addF pg f v i).order = s.order := rfl
@[simp] theorem addF_wseq : (s.addF pg f v i).wseq = s.wseq := rfl
@[simp] theorem addF_trk : (s.addF pg f v i).trk = s.trk := rfl
@[simp] theorem addF_openW : (s.addF pg f v i).openW = s.openW := rfl
@[simp] theorem addF_fences : (s.addF pg f v i).fences = s.fences := rfl
@[simp] theorem addF_swb : (s.addF pg f v i).swb = s.swb := rfl
@[simp] theorem addF_resv : (s.addF pg f v i).resv = s.resv := rfl
@[simp] theorem addF_pf : (s.addF pg f v i).pf = s.pf := rfl
@[simp] theorem addF_npw : (s.addF pg f v i).npw = s.npw := rfl
@[simp] theorem addF_splits : (s.addF pg f v i).splits = s.splits := rfl
@[simp] theorem addF_parts : (s.addF pg f v i).parts = s.parts := rfl
@[simp] theorem addF_bind : (s.addF pg f v i).bind = s.bind := rfl
@[simp] theorem addF_bindHeld : (s.addF pg f v i).bindHeld = s.bindHeld := rfl
@[simp] theorem addF_insts : (s.addF pg f v i).insts = s.insts := rfl
@[simp] theorem addF_ttu : (s.addF pg f v i).ttu = s.ttu := rfl
@[simp] theorem addF_ttuHits : (s.addF pg f v i).ttuHits = s.ttuHits := rfl
@[simp] theorem addF_walks : (s.addF pg f v i).walks = s.walks := rfl
@[simp] theorem addF_inval : (s.addF pg f v i).inval = s.inval := rfl
@[simp] theorem addF_bar2 : (s.addF pg f v i).bar2 = s.bar2 := rfl
@[simp] theorem addF_hbm : (s.addF pg f v i).hbm = s.hbm := rfl
@[simp] theorem addF_regions : (s.addF pg f v i).regions = s.regions := rfl
@[simp] theorem addF_ports : (s.addF pg f v i).ports = s.ports := rfl
@[simp] theorem addF_lanes : (s.addF pg f v i).lanes = s.lanes := rfl
@[simp] theorem addF_sched : (s.addF pg f v i).sched = s.sched := rfl
@[simp] theorem addF_queues : (s.addF pg f v i).queues = s.queues := rfl
@[simp] theorem addF_prioPtr : (s.addF pg f v i).prioPtr = s.prioPtr := rfl
@[simp] theorem addF_ffl : (s.addF pg f v i).ffl = s.ffl := rfl
@[simp] theorem addF_tx : (s.addF pg f v i).tx = s.tx := rfl
@[simp] theorem addF_rx : (s.addF pg f v i).rx = s.rx := rfl
@[simp] theorem addF_frt : (s.addF pg f v i).frt = s.frt := rfl
@[simp] theorem addF_spillPtr : (s.addF pg f v i).spillPtr = s.spillPtr := rfl
@[simp] theorem addF_spillOps : (s.addF pg f v i).spillOps = s.spillOps := rfl
@[simp] theorem addF_edge : (s.addF pg f v i).edge = s.edge := rfl
@[simp] theorem addF_chans : (s.addF pg f v i).chans = s.chans := rfl
@[simp] theorem addF_engs : (s.addF pg f v i).engs = s.engs := rfl
@[simp] theorem addF_mir : (s.addF pg f v i).mir = s.mir := rfl
@[simp] theorem addF_flash : (s.addF pg f v i).flash = s.flash := rfl
@[simp] theorem addF_trust : (s.addF pg f v i).trust = s.trust := rfl
@[simp] theorem addF_age : (s.addF pg f v i).age = s.age := rfl
@[simp] theorem addF_decayAt : (s.addF pg f v i).decayAt = s.decayAt := rfl
@[simp] theorem addF_timeSample : (s.addF pg f v i).timeSample = s.timeSample := rfl
@[simp] theorem addF_mgmtUp : (s.addF pg f v i).mgmtUp = s.mgmtUp := rfl
@[simp] theorem addF_trace : (s.addF pg f v i).trace = s.trace := rfl
@[simp] theorem addF_snapAt : (s.addF pg f v i).snapAt = s.snapAt := rfl
@[simp] theorem addF_slots : (s.addF pg f v i).slots = s.slots := rfl
@[simp] theorem addF_spc : (s.addF pg f v i).spc = s.spc := rfl
@[simp] theorem addF_clk : (s.addF pg f v i).clk = s.clk := rfl
@[simp] theorem addF_pwr : (s.addF pg f v i).pwr = s.pwr := rfl
@[simp] theorem addF_boot : (s.addF pg f v i).boot = s.boot := rfl
@[simp] theorem addF_heldOut : (s.addF pg f v i).heldOut = s.heldOut := rfl
@[simp] theorem addF_listDirty : (s.addF pg f v i).listDirty = s.listDirty := rfl
end

section
variable (s : State) (pg : Nat) (f : FRef) (w j v i : Nat)
@[simp] theorem setP_pending : (s.setP pg f w j v i).pending = s.pending := rfl
@[simp] theorem setP_heldRegs : (s.setP pg f w j v i).heldRegs = s.heldRegs := rfl
@[simp] theorem setP_latches : (s.setP pg f w j v i).latches = s.latches := rfl
@[simp] theorem setP_ticks : (s.setP pg f w j v i).ticks = s.ticks := rfl
@[simp] theorem setP_fabric : (s.setP pg f w j v i).fabric = s.fabric := rfl
@[simp] theorem setP_out : (s.setP pg f w j v i).out = s.out := rfl
@[simp] theorem setP_free : (s.setP pg f w j v i).free = s.free := rfl
@[simp] theorem setP_firing : (s.setP pg f w j v i).firing = s.firing := rfl
@[simp] theorem setP_flt : (s.setP pg f w j v i).flt = s.flt := rfl
@[simp] theorem setP_ept : (s.setP pg f w j v i).ept = s.ept := rfl
@[simp] theorem setP_packets : (s.setP pg f w j v i).packets = s.packets := rfl
@[simp] theorem setP_nextId : (s.setP pg f w j v i).nextId = s.nextId := rfl
@[simp] theorem setP_order : (s.setP pg f w j v i).order = s.order := rfl
@[simp] theorem setP_wseq : (s.setP pg f w j v i).wseq = s.wseq := rfl
@[simp] theorem setP_trk : (s.setP pg f w j v i).trk = s.trk := rfl
@[simp] theorem setP_openW : (s.setP pg f w j v i).openW = s.openW := rfl
@[simp] theorem setP_fences : (s.setP pg f w j v i).fences = s.fences := rfl
@[simp] theorem setP_swb : (s.setP pg f w j v i).swb = s.swb := rfl
@[simp] theorem setP_resv : (s.setP pg f w j v i).resv = s.resv := rfl
@[simp] theorem setP_pf : (s.setP pg f w j v i).pf = s.pf := rfl
@[simp] theorem setP_npw : (s.setP pg f w j v i).npw = s.npw := rfl
@[simp] theorem setP_splits : (s.setP pg f w j v i).splits = s.splits := rfl
@[simp] theorem setP_parts : (s.setP pg f w j v i).parts = s.parts := rfl
@[simp] theorem setP_bind : (s.setP pg f w j v i).bind = s.bind := rfl
@[simp] theorem setP_bindHeld : (s.setP pg f w j v i).bindHeld = s.bindHeld := rfl
@[simp] theorem setP_insts : (s.setP pg f w j v i).insts = s.insts := rfl
@[simp] theorem setP_ttu : (s.setP pg f w j v i).ttu = s.ttu := rfl
@[simp] theorem setP_ttuHits : (s.setP pg f w j v i).ttuHits = s.ttuHits := rfl
@[simp] theorem setP_walks : (s.setP pg f w j v i).walks = s.walks := rfl
@[simp] theorem setP_inval : (s.setP pg f w j v i).inval = s.inval := rfl
@[simp] theorem setP_bar2 : (s.setP pg f w j v i).bar2 = s.bar2 := rfl
@[simp] theorem setP_hbm : (s.setP pg f w j v i).hbm = s.hbm := rfl
@[simp] theorem setP_regions : (s.setP pg f w j v i).regions = s.regions := rfl
@[simp] theorem setP_ports : (s.setP pg f w j v i).ports = s.ports := rfl
@[simp] theorem setP_lanes : (s.setP pg f w j v i).lanes = s.lanes := rfl
@[simp] theorem setP_sched : (s.setP pg f w j v i).sched = s.sched := rfl
@[simp] theorem setP_queues : (s.setP pg f w j v i).queues = s.queues := rfl
@[simp] theorem setP_prioPtr : (s.setP pg f w j v i).prioPtr = s.prioPtr := rfl
@[simp] theorem setP_ffl : (s.setP pg f w j v i).ffl = s.ffl := rfl
@[simp] theorem setP_tx : (s.setP pg f w j v i).tx = s.tx := rfl
@[simp] theorem setP_rx : (s.setP pg f w j v i).rx = s.rx := rfl
@[simp] theorem setP_frt : (s.setP pg f w j v i).frt = s.frt := rfl
@[simp] theorem setP_spillPtr : (s.setP pg f w j v i).spillPtr = s.spillPtr := rfl
@[simp] theorem setP_spillOps : (s.setP pg f w j v i).spillOps = s.spillOps := rfl
@[simp] theorem setP_edge : (s.setP pg f w j v i).edge = s.edge := rfl
@[simp] theorem setP_chans : (s.setP pg f w j v i).chans = s.chans := rfl
@[simp] theorem setP_engs : (s.setP pg f w j v i).engs = s.engs := rfl
@[simp] theorem setP_mir : (s.setP pg f w j v i).mir = s.mir := rfl
@[simp] theorem setP_flash : (s.setP pg f w j v i).flash = s.flash := rfl
@[simp] theorem setP_trust : (s.setP pg f w j v i).trust = s.trust := rfl
@[simp] theorem setP_age : (s.setP pg f w j v i).age = s.age := rfl
@[simp] theorem setP_decayAt : (s.setP pg f w j v i).decayAt = s.decayAt := rfl
@[simp] theorem setP_timeSample : (s.setP pg f w j v i).timeSample = s.timeSample := rfl
@[simp] theorem setP_mgmtUp : (s.setP pg f w j v i).mgmtUp = s.mgmtUp := rfl
@[simp] theorem setP_trace : (s.setP pg f w j v i).trace = s.trace := rfl
@[simp] theorem setP_snapAt : (s.setP pg f w j v i).snapAt = s.snapAt := rfl
@[simp] theorem setP_slots : (s.setP pg f w j v i).slots = s.slots := rfl
@[simp] theorem setP_spc : (s.setP pg f w j v i).spc = s.spc := rfl
@[simp] theorem setP_clk : (s.setP pg f w j v i).clk = s.clk := rfl
@[simp] theorem setP_pwr : (s.setP pg f w j v i).pwr = s.pwr := rfl
@[simp] theorem setP_boot : (s.setP pg f w j v i).boot = s.boot := rfl
@[simp] theorem setP_heldOut : (s.setP pg f w j v i).heldOut = s.heldOut := rfl
@[simp] theorem setP_listDirty : (s.setP pg f w j v i).listDirty = s.listDirty := rfl
end

section
variable (s : State) (p : Nat) (g : PortSt → PortSt)
@[simp] theorem modPort_pending : (s.modPort p g).pending = s.pending := rfl
@[simp] theorem modPort_regs : (s.modPort p g).regs = s.regs := rfl
@[simp] theorem modPort_heldRegs : (s.modPort p g).heldRegs = s.heldRegs := rfl
@[simp] theorem modPort_latches : (s.modPort p g).latches = s.latches := rfl
@[simp] theorem modPort_ticks : (s.modPort p g).ticks = s.ticks := rfl
@[simp] theorem modPort_fabric : (s.modPort p g).fabric = s.fabric := rfl
@[simp] theorem modPort_out : (s.modPort p g).out = s.out := rfl
@[simp] theorem modPort_free : (s.modPort p g).free = s.free := rfl
@[simp] theorem modPort_firing : (s.modPort p g).firing = s.firing := rfl
@[simp] theorem modPort_flt : (s.modPort p g).flt = s.flt := rfl
@[simp] theorem modPort_ept : (s.modPort p g).ept = s.ept := rfl
@[simp] theorem modPort_packets : (s.modPort p g).packets = s.packets := rfl
@[simp] theorem modPort_nextId : (s.modPort p g).nextId = s.nextId := rfl
@[simp] theorem modPort_order : (s.modPort p g).order = s.order := rfl
@[simp] theorem modPort_wseq : (s.modPort p g).wseq = s.wseq := rfl
@[simp] theorem modPort_trk : (s.modPort p g).trk = s.trk := rfl
@[simp] theorem modPort_openW : (s.modPort p g).openW = s.openW := rfl
@[simp] theorem modPort_fences : (s.modPort p g).fences = s.fences := rfl
@[simp] theorem modPort_swb : (s.modPort p g).swb = s.swb := rfl
@[simp] theorem modPort_resv : (s.modPort p g).resv = s.resv := rfl
@[simp] theorem modPort_pf : (s.modPort p g).pf = s.pf := rfl
@[simp] theorem modPort_npw : (s.modPort p g).npw = s.npw := rfl
@[simp] theorem modPort_splits : (s.modPort p g).splits = s.splits := rfl
@[simp] theorem modPort_parts : (s.modPort p g).parts = s.parts := rfl
@[simp] theorem modPort_bind : (s.modPort p g).bind = s.bind := rfl
@[simp] theorem modPort_bindHeld : (s.modPort p g).bindHeld = s.bindHeld := rfl
@[simp] theorem modPort_insts : (s.modPort p g).insts = s.insts := rfl
@[simp] theorem modPort_ttu : (s.modPort p g).ttu = s.ttu := rfl
@[simp] theorem modPort_ttuHits : (s.modPort p g).ttuHits = s.ttuHits := rfl
@[simp] theorem modPort_walks : (s.modPort p g).walks = s.walks := rfl
@[simp] theorem modPort_inval : (s.modPort p g).inval = s.inval := rfl
@[simp] theorem modPort_bar2 : (s.modPort p g).bar2 = s.bar2 := rfl
@[simp] theorem modPort_hbm : (s.modPort p g).hbm = s.hbm := rfl
@[simp] theorem modPort_regions : (s.modPort p g).regions = s.regions := rfl
@[simp] theorem modPort_lanes : (s.modPort p g).lanes = s.lanes := rfl
@[simp] theorem modPort_sched : (s.modPort p g).sched = s.sched := rfl
@[simp] theorem modPort_queues : (s.modPort p g).queues = s.queues := rfl
@[simp] theorem modPort_prioPtr : (s.modPort p g).prioPtr = s.prioPtr := rfl
@[simp] theorem modPort_ffl : (s.modPort p g).ffl = s.ffl := rfl
@[simp] theorem modPort_tx : (s.modPort p g).tx = s.tx := rfl
@[simp] theorem modPort_rx : (s.modPort p g).rx = s.rx := rfl
@[simp] theorem modPort_frt : (s.modPort p g).frt = s.frt := rfl
@[simp] theorem modPort_spillPtr : (s.modPort p g).spillPtr = s.spillPtr := rfl
@[simp] theorem modPort_spillOps : (s.modPort p g).spillOps = s.spillOps := rfl
@[simp] theorem modPort_edge : (s.modPort p g).edge = s.edge := rfl
@[simp] theorem modPort_chans : (s.modPort p g).chans = s.chans := rfl
@[simp] theorem modPort_engs : (s.modPort p g).engs = s.engs := rfl
@[simp] theorem modPort_mir : (s.modPort p g).mir = s.mir := rfl
@[simp] theorem modPort_flash : (s.modPort p g).flash = s.flash := rfl
@[simp] theorem modPort_trust : (s.modPort p g).trust = s.trust := rfl
@[simp] theorem modPort_age : (s.modPort p g).age = s.age := rfl
@[simp] theorem modPort_decayAt : (s.modPort p g).decayAt = s.decayAt := rfl
@[simp] theorem modPort_timeSample : (s.modPort p g).timeSample = s.timeSample := rfl
@[simp] theorem modPort_mgmtUp : (s.modPort p g).mgmtUp = s.mgmtUp := rfl
@[simp] theorem modPort_trace : (s.modPort p g).trace = s.trace := rfl
@[simp] theorem modPort_snapAt : (s.modPort p g).snapAt = s.snapAt := rfl
@[simp] theorem modPort_slots : (s.modPort p g).slots = s.slots := rfl
@[simp] theorem modPort_spc : (s.modPort p g).spc = s.spc := rfl
@[simp] theorem modPort_clk : (s.modPort p g).clk = s.clk := rfl
@[simp] theorem modPort_pwr : (s.modPort p g).pwr = s.pwr := rfl
@[simp] theorem modPort_boot : (s.modPort p g).boot = s.boot := rfl
@[simp] theorem modPort_heldOut : (s.modPort p g).heldOut = s.heldOut := rfl
@[simp] theorem modPort_listDirty : (s.modPort p g).listDirty = s.listDirty := rfl
end

section
variable (s : State) (p : Nat) (g : PartSt → PartSt)
@[simp] theorem modPart_pending : (s.modPart p g).pending = s.pending := rfl
@[simp] theorem modPart_regs : (s.modPart p g).regs = s.regs := rfl
@[simp] theorem modPart_heldRegs : (s.modPart p g).heldRegs = s.heldRegs := rfl
@[simp] theorem modPart_latches : (s.modPart p g).latches = s.latches := rfl
@[simp] theorem modPart_ticks : (s.modPart p g).ticks = s.ticks := rfl
@[simp] theorem modPart_fabric : (s.modPart p g).fabric = s.fabric := rfl
@[simp] theorem modPart_out : (s.modPart p g).out = s.out := rfl
@[simp] theorem modPart_free : (s.modPart p g).free = s.free := rfl
@[simp] theorem modPart_firing : (s.modPart p g).firing = s.firing := rfl
@[simp] theorem modPart_flt : (s.modPart p g).flt = s.flt := rfl
@[simp] theorem modPart_ept : (s.modPart p g).ept = s.ept := rfl
@[simp] theorem modPart_packets : (s.modPart p g).packets = s.packets := rfl
@[simp] theorem modPart_nextId : (s.modPart p g).nextId = s.nextId := rfl
@[simp] theorem modPart_order : (s.modPart p g).order = s.order := rfl
@[simp] theorem modPart_wseq : (s.modPart p g).wseq = s.wseq := rfl
@[simp] theorem modPart_trk : (s.modPart p g).trk = s.trk := rfl
@[simp] theorem modPart_openW : (s.modPart p g).openW = s.openW := rfl
@[simp] theorem modPart_fences : (s.modPart p g).fences = s.fences := rfl
@[simp] theorem modPart_swb : (s.modPart p g).swb = s.swb := rfl
@[simp] theorem modPart_resv : (s.modPart p g).resv = s.resv := rfl
@[simp] theorem modPart_pf : (s.modPart p g).pf = s.pf := rfl
@[simp] theorem modPart_npw : (s.modPart p g).npw = s.npw := rfl
@[simp] theorem modPart_splits : (s.modPart p g).splits = s.splits := rfl
@[simp] theorem modPart_bind : (s.modPart p g).bind = s.bind := rfl
@[simp] theorem modPart_bindHeld : (s.modPart p g).bindHeld = s.bindHeld := rfl
@[simp] theorem modPart_insts : (s.modPart p g).insts = s.insts := rfl
@[simp] theorem modPart_ttu : (s.modPart p g).ttu = s.ttu := rfl
@[simp] theorem modPart_ttuHits : (s.modPart p g).ttuHits = s.ttuHits := rfl
@[simp] theorem modPart_walks : (s.modPart p g).walks = s.walks := rfl
@[simp] theorem modPart_inval : (s.modPart p g).inval = s.inval := rfl
@[simp] theorem modPart_bar2 : (s.modPart p g).bar2 = s.bar2 := rfl
@[simp] theorem modPart_hbm : (s.modPart p g).hbm = s.hbm := rfl
@[simp] theorem modPart_regions : (s.modPart p g).regions = s.regions := rfl
@[simp] theorem modPart_ports : (s.modPart p g).ports = s.ports := rfl
@[simp] theorem modPart_lanes : (s.modPart p g).lanes = s.lanes := rfl
@[simp] theorem modPart_sched : (s.modPart p g).sched = s.sched := rfl
@[simp] theorem modPart_queues : (s.modPart p g).queues = s.queues := rfl
@[simp] theorem modPart_prioPtr : (s.modPart p g).prioPtr = s.prioPtr := rfl
@[simp] theorem modPart_ffl : (s.modPart p g).ffl = s.ffl := rfl
@[simp] theorem modPart_tx : (s.modPart p g).tx = s.tx := rfl
@[simp] theorem modPart_rx : (s.modPart p g).rx = s.rx := rfl
@[simp] theorem modPart_frt : (s.modPart p g).frt = s.frt := rfl
@[simp] theorem modPart_spillPtr : (s.modPart p g).spillPtr = s.spillPtr := rfl
@[simp] theorem modPart_spillOps : (s.modPart p g).spillOps = s.spillOps := rfl
@[simp] theorem modPart_edge : (s.modPart p g).edge = s.edge := rfl
@[simp] theorem modPart_chans : (s.modPart p g).chans = s.chans := rfl
@[simp] theorem modPart_engs : (s.modPart p g).engs = s.engs := rfl
@[simp] theorem modPart_mir : (s.modPart p g).mir = s.mir := rfl
@[simp] theorem modPart_flash : (s.modPart p g).flash = s.flash := rfl
@[simp] theorem modPart_trust : (s.modPart p g).trust = s.trust := rfl
@[simp] theorem modPart_age : (s.modPart p g).age = s.age := rfl
@[simp] theorem modPart_decayAt : (s.modPart p g).decayAt = s.decayAt := rfl
@[simp] theorem modPart_timeSample : (s.modPart p g).timeSample = s.timeSample := rfl
@[simp] theorem modPart_mgmtUp : (s.modPart p g).mgmtUp = s.mgmtUp := rfl
@[simp] theorem modPart_trace : (s.modPart p g).trace = s.trace := rfl
@[simp] theorem modPart_snapAt : (s.modPart p g).snapAt = s.snapAt := rfl
@[simp] theorem modPart_slots : (s.modPart p g).slots = s.slots := rfl
@[simp] theorem modPart_spc : (s.modPart p g).spc = s.spc := rfl
@[simp] theorem modPart_clk : (s.modPart p g).clk = s.clk := rfl
@[simp] theorem modPart_pwr : (s.modPart p g).pwr = s.pwr := rfl
@[simp] theorem modPart_boot : (s.modPart p g).boot = s.boot := rfl
@[simp] theorem modPart_heldOut : (s.modPart p g).heldOut = s.heldOut := rfl
@[simp] theorem modPart_listDirty : (s.modPart p g).listDirty = s.listDirty := rfl
end

section
variable (s : State) (p : Nat) (g : FflSt → FflSt)
@[simp] theorem modFfl_pending : (s.modFfl p g).pending = s.pending := rfl
@[simp] theorem modFfl_regs : (s.modFfl p g).regs = s.regs := rfl
@[simp] theorem modFfl_heldRegs : (s.modFfl p g).heldRegs = s.heldRegs := rfl
@[simp] theorem modFfl_latches : (s.modFfl p g).latches = s.latches := rfl
@[simp] theorem modFfl_ticks : (s.modFfl p g).ticks = s.ticks := rfl
@[simp] theorem modFfl_fabric : (s.modFfl p g).fabric = s.fabric := rfl
@[simp] theorem modFfl_out : (s.modFfl p g).out = s.out := rfl
@[simp] theorem modFfl_free : (s.modFfl p g).free = s.free := rfl
@[simp] theorem modFfl_firing : (s.modFfl p g).firing = s.firing := rfl
@[simp] theorem modFfl_flt : (s.modFfl p g).flt = s.flt := rfl
@[simp] theorem modFfl_ept : (s.modFfl p g).ept = s.ept := rfl
@[simp] theorem modFfl_packets : (s.modFfl p g).packets = s.packets := rfl
@[simp] theorem modFfl_nextId : (s.modFfl p g).nextId = s.nextId := rfl
@[simp] theorem modFfl_order : (s.modFfl p g).order = s.order := rfl
@[simp] theorem modFfl_wseq : (s.modFfl p g).wseq = s.wseq := rfl
@[simp] theorem modFfl_trk : (s.modFfl p g).trk = s.trk := rfl
@[simp] theorem modFfl_openW : (s.modFfl p g).openW = s.openW := rfl
@[simp] theorem modFfl_fences : (s.modFfl p g).fences = s.fences := rfl
@[simp] theorem modFfl_swb : (s.modFfl p g).swb = s.swb := rfl
@[simp] theorem modFfl_resv : (s.modFfl p g).resv = s.resv := rfl
@[simp] theorem modFfl_pf : (s.modFfl p g).pf = s.pf := rfl
@[simp] theorem modFfl_npw : (s.modFfl p g).npw = s.npw := rfl
@[simp] theorem modFfl_splits : (s.modFfl p g).splits = s.splits := rfl
@[simp] theorem modFfl_parts : (s.modFfl p g).parts = s.parts := rfl
@[simp] theorem modFfl_bind : (s.modFfl p g).bind = s.bind := rfl
@[simp] theorem modFfl_bindHeld : (s.modFfl p g).bindHeld = s.bindHeld := rfl
@[simp] theorem modFfl_insts : (s.modFfl p g).insts = s.insts := rfl
@[simp] theorem modFfl_ttu : (s.modFfl p g).ttu = s.ttu := rfl
@[simp] theorem modFfl_ttuHits : (s.modFfl p g).ttuHits = s.ttuHits := rfl
@[simp] theorem modFfl_walks : (s.modFfl p g).walks = s.walks := rfl
@[simp] theorem modFfl_inval : (s.modFfl p g).inval = s.inval := rfl
@[simp] theorem modFfl_bar2 : (s.modFfl p g).bar2 = s.bar2 := rfl
@[simp] theorem modFfl_hbm : (s.modFfl p g).hbm = s.hbm := rfl
@[simp] theorem modFfl_regions : (s.modFfl p g).regions = s.regions := rfl
@[simp] theorem modFfl_ports : (s.modFfl p g).ports = s.ports := rfl
@[simp] theorem modFfl_lanes : (s.modFfl p g).lanes = s.lanes := rfl
@[simp] theorem modFfl_sched : (s.modFfl p g).sched = s.sched := rfl
@[simp] theorem modFfl_queues : (s.modFfl p g).queues = s.queues := rfl
@[simp] theorem modFfl_prioPtr : (s.modFfl p g).prioPtr = s.prioPtr := rfl
@[simp] theorem modFfl_tx : (s.modFfl p g).tx = s.tx := rfl
@[simp] theorem modFfl_rx : (s.modFfl p g).rx = s.rx := rfl
@[simp] theorem modFfl_frt : (s.modFfl p g).frt = s.frt := rfl
@[simp] theorem modFfl_spillPtr : (s.modFfl p g).spillPtr = s.spillPtr := rfl
@[simp] theorem modFfl_spillOps : (s.modFfl p g).spillOps = s.spillOps := rfl
@[simp] theorem modFfl_edge : (s.modFfl p g).edge = s.edge := rfl
@[simp] theorem modFfl_chans : (s.modFfl p g).chans = s.chans := rfl
@[simp] theorem modFfl_engs : (s.modFfl p g).engs = s.engs := rfl
@[simp] theorem modFfl_mir : (s.modFfl p g).mir = s.mir := rfl
@[simp] theorem modFfl_flash : (s.modFfl p g).flash = s.flash := rfl
@[simp] theorem modFfl_trust : (s.modFfl p g).trust = s.trust := rfl
@[simp] theorem modFfl_age : (s.modFfl p g).age = s.age := rfl
@[simp] theorem modFfl_decayAt : (s.modFfl p g).decayAt = s.decayAt := rfl
@[simp] theorem modFfl_timeSample : (s.modFfl p g).timeSample = s.timeSample := rfl
@[simp] theorem modFfl_mgmtUp : (s.modFfl p g).mgmtUp = s.mgmtUp := rfl
@[simp] theorem modFfl_trace : (s.modFfl p g).trace = s.trace := rfl
@[simp] theorem modFfl_snapAt : (s.modFfl p g).snapAt = s.snapAt := rfl
@[simp] theorem modFfl_slots : (s.modFfl p g).slots = s.slots := rfl
@[simp] theorem modFfl_spc : (s.modFfl p g).spc = s.spc := rfl
@[simp] theorem modFfl_clk : (s.modFfl p g).clk = s.clk := rfl
@[simp] theorem modFfl_pwr : (s.modFfl p g).pwr = s.pwr := rfl
@[simp] theorem modFfl_boot : (s.modFfl p g).boot = s.boot := rfl
@[simp] theorem modFfl_heldOut : (s.modFfl p g).heldOut = s.heldOut := rfl
@[simp] theorem modFfl_listDirty : (s.modFfl p g).listDirty = s.listDirty := rfl
end

section
variable (s : State) (p : Nat) (g : InstSt → InstSt)
@[simp] theorem modInst_pending : (s.modInst p g).pending = s.pending := rfl
@[simp] theorem modInst_regs : (s.modInst p g).regs = s.regs := rfl
@[simp] theorem modInst_heldRegs : (s.modInst p g).heldRegs = s.heldRegs := rfl
@[simp] theorem modInst_latches : (s.modInst p g).latches = s.latches := rfl
@[simp] theorem modInst_ticks : (s.modInst p g).ticks = s.ticks := rfl
@[simp] theorem modInst_fabric : (s.modInst p g).fabric = s.fabric := rfl
@[simp] theorem modInst_out : (s.modInst p g).out = s.out := rfl
@[simp] theorem modInst_free : (s.modInst p g).free = s.free := rfl
@[simp] theorem modInst_firing : (s.modInst p g).firing = s.firing := rfl
@[simp] theorem modInst_flt : (s.modInst p g).flt = s.flt := rfl
@[simp] theorem modInst_ept : (s.modInst p g).ept = s.ept := rfl
@[simp] theorem modInst_packets : (s.modInst p g).packets = s.packets := rfl
@[simp] theorem modInst_nextId : (s.modInst p g).nextId = s.nextId := rfl
@[simp] theorem modInst_order : (s.modInst p g).order = s.order := rfl
@[simp] theorem modInst_wseq : (s.modInst p g).wseq = s.wseq := rfl
@[simp] theorem modInst_trk : (s.modInst p g).trk = s.trk := rfl
@[simp] theorem modInst_openW : (s.modInst p g).openW = s.openW := rfl
@[simp] theorem modInst_fences : (s.modInst p g).fences = s.fences := rfl
@[simp] theorem modInst_swb : (s.modInst p g).swb = s.swb := rfl
@[simp] theorem modInst_resv : (s.modInst p g).resv = s.resv := rfl
@[simp] theorem modInst_pf : (s.modInst p g).pf = s.pf := rfl
@[simp] theorem modInst_npw : (s.modInst p g).npw = s.npw := rfl
@[simp] theorem modInst_splits : (s.modInst p g).splits = s.splits := rfl
@[simp] theorem modInst_parts : (s.modInst p g).parts = s.parts := rfl
@[simp] theorem modInst_bind : (s.modInst p g).bind = s.bind := rfl
@[simp] theorem modInst_bindHeld : (s.modInst p g).bindHeld = s.bindHeld := rfl
@[simp] theorem modInst_ttu : (s.modInst p g).ttu = s.ttu := rfl
@[simp] theorem modInst_ttuHits : (s.modInst p g).ttuHits = s.ttuHits := rfl
@[simp] theorem modInst_walks : (s.modInst p g).walks = s.walks := rfl
@[simp] theorem modInst_inval : (s.modInst p g).inval = s.inval := rfl
@[simp] theorem modInst_bar2 : (s.modInst p g).bar2 = s.bar2 := rfl
@[simp] theorem modInst_hbm : (s.modInst p g).hbm = s.hbm := rfl
@[simp] theorem modInst_regions : (s.modInst p g).regions = s.regions := rfl
@[simp] theorem modInst_ports : (s.modInst p g).ports = s.ports := rfl
@[simp] theorem modInst_lanes : (s.modInst p g).lanes = s.lanes := rfl
@[simp] theorem modInst_sched : (s.modInst p g).sched = s.sched := rfl
@[simp] theorem modInst_queues : (s.modInst p g).queues = s.queues := rfl
@[simp] theorem modInst_prioPtr : (s.modInst p g).prioPtr = s.prioPtr := rfl
@[simp] theorem modInst_ffl : (s.modInst p g).ffl = s.ffl := rfl
@[simp] theorem modInst_tx : (s.modInst p g).tx = s.tx := rfl
@[simp] theorem modInst_rx : (s.modInst p g).rx = s.rx := rfl
@[simp] theorem modInst_frt : (s.modInst p g).frt = s.frt := rfl
@[simp] theorem modInst_spillPtr : (s.modInst p g).spillPtr = s.spillPtr := rfl
@[simp] theorem modInst_spillOps : (s.modInst p g).spillOps = s.spillOps := rfl
@[simp] theorem modInst_edge : (s.modInst p g).edge = s.edge := rfl
@[simp] theorem modInst_chans : (s.modInst p g).chans = s.chans := rfl
@[simp] theorem modInst_engs : (s.modInst p g).engs = s.engs := rfl
@[simp] theorem modInst_mir : (s.modInst p g).mir = s.mir := rfl
@[simp] theorem modInst_flash : (s.modInst p g).flash = s.flash := rfl
@[simp] theorem modInst_trust : (s.modInst p g).trust = s.trust := rfl
@[simp] theorem modInst_age : (s.modInst p g).age = s.age := rfl
@[simp] theorem modInst_decayAt : (s.modInst p g).decayAt = s.decayAt := rfl
@[simp] theorem modInst_timeSample : (s.modInst p g).timeSample = s.timeSample := rfl
@[simp] theorem modInst_mgmtUp : (s.modInst p g).mgmtUp = s.mgmtUp := rfl
@[simp] theorem modInst_trace : (s.modInst p g).trace = s.trace := rfl
@[simp] theorem modInst_snapAt : (s.modInst p g).snapAt = s.snapAt := rfl
@[simp] theorem modInst_slots : (s.modInst p g).slots = s.slots := rfl
@[simp] theorem modInst_spc : (s.modInst p g).spc = s.spc := rfl
@[simp] theorem modInst_clk : (s.modInst p g).clk = s.clk := rfl
@[simp] theorem modInst_pwr : (s.modInst p g).pwr = s.pwr := rfl
@[simp] theorem modInst_boot : (s.modInst p g).boot = s.boot := rfl
@[simp] theorem modInst_heldOut : (s.modInst p g).heldOut = s.heldOut := rfl
@[simp] theorem modInst_listDirty : (s.modInst p g).listDirty = s.listDirty := rfl
end

section
variable (s : State) (p : Nat) (g : LaneSt → LaneSt)
@[simp] theorem modLane_pending : (s.modLane p g).pending = s.pending := rfl
@[simp] theorem modLane_regs : (s.modLane p g).regs = s.regs := rfl
@[simp] theorem modLane_heldRegs : (s.modLane p g).heldRegs = s.heldRegs := rfl
@[simp] theorem modLane_latches : (s.modLane p g).latches = s.latches := rfl
@[simp] theorem modLane_ticks : (s.modLane p g).ticks = s.ticks := rfl
@[simp] theorem modLane_fabric : (s.modLane p g).fabric = s.fabric := rfl
@[simp] theorem modLane_out : (s.modLane p g).out = s.out := rfl
@[simp] theorem modLane_free : (s.modLane p g).free = s.free := rfl
@[simp] theorem modLane_firing : (s.modLane p g).firing = s.firing := rfl
@[simp] theorem modLane_flt : (s.modLane p g).flt = s.flt := rfl
@[simp] theorem modLane_ept : (s.modLane p g).ept = s.ept := rfl
@[simp] theorem modLane_packets : (s.modLane p g).packets = s.packets := rfl
@[simp] theorem modLane_nextId : (s.modLane p g).nextId = s.nextId := rfl
@[simp] theorem modLane_order : (s.modLane p g).order = s.order := rfl
@[simp] theorem modLane_wseq : (s.modLane p g).wseq = s.wseq := rfl
@[simp] theorem modLane_trk : (s.modLane p g).trk = s.trk := rfl
@[simp] theorem modLane_openW : (s.modLane p g).openW = s.openW := rfl
@[simp] theorem modLane_fences : (s.modLane p g).fences = s.fences := rfl
@[simp] theorem modLane_swb : (s.modLane p g).swb = s.swb := rfl
@[simp] theorem modLane_resv : (s.modLane p g).resv = s.resv := rfl
@[simp] theorem modLane_pf : (s.modLane p g).pf = s.pf := rfl
@[simp] theorem modLane_npw : (s.modLane p g).npw = s.npw := rfl
@[simp] theorem modLane_splits : (s.modLane p g).splits = s.splits := rfl
@[simp] theorem modLane_parts : (s.modLane p g).parts = s.parts := rfl
@[simp] theorem modLane_bind : (s.modLane p g).bind = s.bind := rfl
@[simp] theorem modLane_bindHeld : (s.modLane p g).bindHeld = s.bindHeld := rfl
@[simp] theorem modLane_insts : (s.modLane p g).insts = s.insts := rfl
@[simp] theorem modLane_ttu : (s.modLane p g).ttu = s.ttu := rfl
@[simp] theorem modLane_ttuHits : (s.modLane p g).ttuHits = s.ttuHits := rfl
@[simp] theorem modLane_walks : (s.modLane p g).walks = s.walks := rfl
@[simp] theorem modLane_inval : (s.modLane p g).inval = s.inval := rfl
@[simp] theorem modLane_bar2 : (s.modLane p g).bar2 = s.bar2 := rfl
@[simp] theorem modLane_hbm : (s.modLane p g).hbm = s.hbm := rfl
@[simp] theorem modLane_regions : (s.modLane p g).regions = s.regions := rfl
@[simp] theorem modLane_ports : (s.modLane p g).ports = s.ports := rfl
@[simp] theorem modLane_sched : (s.modLane p g).sched = s.sched := rfl
@[simp] theorem modLane_queues : (s.modLane p g).queues = s.queues := rfl
@[simp] theorem modLane_prioPtr : (s.modLane p g).prioPtr = s.prioPtr := rfl
@[simp] theorem modLane_ffl : (s.modLane p g).ffl = s.ffl := rfl
@[simp] theorem modLane_tx : (s.modLane p g).tx = s.tx := rfl
@[simp] theorem modLane_rx : (s.modLane p g).rx = s.rx := rfl
@[simp] theorem modLane_frt : (s.modLane p g).frt = s.frt := rfl
@[simp] theorem modLane_spillPtr : (s.modLane p g).spillPtr = s.spillPtr := rfl
@[simp] theorem modLane_spillOps : (s.modLane p g).spillOps = s.spillOps := rfl
@[simp] theorem modLane_edge : (s.modLane p g).edge = s.edge := rfl
@[simp] theorem modLane_chans : (s.modLane p g).chans = s.chans := rfl
@[simp] theorem modLane_engs : (s.modLane p g).engs = s.engs := rfl
@[simp] theorem modLane_mir : (s.modLane p g).mir = s.mir := rfl
@[simp] theorem modLane_flash : (s.modLane p g).flash = s.flash := rfl
@[simp] theorem modLane_trust : (s.modLane p g).trust = s.trust := rfl
@[simp] theorem modLane_age : (s.modLane p g).age = s.age := rfl
@[simp] theorem modLane_decayAt : (s.modLane p g).decayAt = s.decayAt := rfl
@[simp] theorem modLane_timeSample : (s.modLane p g).timeSample = s.timeSample := rfl
@[simp] theorem modLane_mgmtUp : (s.modLane p g).mgmtUp = s.mgmtUp := rfl
@[simp] theorem modLane_trace : (s.modLane p g).trace = s.trace := rfl
@[simp] theorem modLane_snapAt : (s.modLane p g).snapAt = s.snapAt := rfl
@[simp] theorem modLane_slots : (s.modLane p g).slots = s.slots := rfl
@[simp] theorem modLane_spc : (s.modLane p g).spc = s.spc := rfl
@[simp] theorem modLane_clk : (s.modLane p g).clk = s.clk := rfl
@[simp] theorem modLane_pwr : (s.modLane p g).pwr = s.pwr := rfl
@[simp] theorem modLane_boot : (s.modLane p g).boot = s.boot := rfl
@[simp] theorem modLane_heldOut : (s.modLane p g).heldOut = s.heldOut := rfl
@[simp] theorem modLane_listDirty : (s.modLane p g).listDirty = s.listDirty := rfl
end

section
variable (s : State) (p : Nat) (g : QueueSt → QueueSt)
@[simp] theorem modQueue_pending : (s.modQueue p g).pending = s.pending := rfl
@[simp] theorem modQueue_regs : (s.modQueue p g).regs = s.regs := rfl
@[simp] theorem modQueue_heldRegs : (s.modQueue p g).heldRegs = s.heldRegs := rfl
@[simp] theorem modQueue_latches : (s.modQueue p g).latches = s.latches := rfl
@[simp] theorem modQueue_ticks : (s.modQueue p g).ticks = s.ticks := rfl
@[simp] theorem modQueue_fabric : (s.modQueue p g).fabric = s.fabric := rfl
@[simp] theorem modQueue_out : (s.modQueue p g).out = s.out := rfl
@[simp] theorem modQueue_free : (s.modQueue p g).free = s.free := rfl
@[simp] theorem modQueue_firing : (s.modQueue p g).firing = s.firing := rfl
@[simp] theorem modQueue_flt : (s.modQueue p g).flt = s.flt := rfl
@[simp] theorem modQueue_ept : (s.modQueue p g).ept = s.ept := rfl
@[simp] theorem modQueue_packets : (s.modQueue p g).packets = s.packets := rfl
@[simp] theorem modQueue_nextId : (s.modQueue p g).nextId = s.nextId := rfl
@[simp] theorem modQueue_order : (s.modQueue p g).order = s.order := rfl
@[simp] theorem modQueue_wseq : (s.modQueue p g).wseq = s.wseq := rfl
@[simp] theorem modQueue_trk : (s.modQueue p g).trk = s.trk := rfl
@[simp] theorem modQueue_openW : (s.modQueue p g).openW = s.openW := rfl
@[simp] theorem modQueue_fences : (s.modQueue p g).fences = s.fences := rfl
@[simp] theorem modQueue_swb : (s.modQueue p g).swb = s.swb := rfl
@[simp] theorem modQueue_resv : (s.modQueue p g).resv = s.resv := rfl
@[simp] theorem modQueue_pf : (s.modQueue p g).pf = s.pf := rfl
@[simp] theorem modQueue_npw : (s.modQueue p g).npw = s.npw := rfl
@[simp] theorem modQueue_splits : (s.modQueue p g).splits = s.splits := rfl
@[simp] theorem modQueue_parts : (s.modQueue p g).parts = s.parts := rfl
@[simp] theorem modQueue_bind : (s.modQueue p g).bind = s.bind := rfl
@[simp] theorem modQueue_bindHeld : (s.modQueue p g).bindHeld = s.bindHeld := rfl
@[simp] theorem modQueue_insts : (s.modQueue p g).insts = s.insts := rfl
@[simp] theorem modQueue_ttu : (s.modQueue p g).ttu = s.ttu := rfl
@[simp] theorem modQueue_ttuHits : (s.modQueue p g).ttuHits = s.ttuHits := rfl
@[simp] theorem modQueue_walks : (s.modQueue p g).walks = s.walks := rfl
@[simp] theorem modQueue_inval : (s.modQueue p g).inval = s.inval := rfl
@[simp] theorem modQueue_bar2 : (s.modQueue p g).bar2 = s.bar2 := rfl
@[simp] theorem modQueue_hbm : (s.modQueue p g).hbm = s.hbm := rfl
@[simp] theorem modQueue_regions : (s.modQueue p g).regions = s.regions := rfl
@[simp] theorem modQueue_ports : (s.modQueue p g).ports = s.ports := rfl
@[simp] theorem modQueue_lanes : (s.modQueue p g).lanes = s.lanes := rfl
@[simp] theorem modQueue_sched : (s.modQueue p g).sched = s.sched := rfl
@[simp] theorem modQueue_prioPtr : (s.modQueue p g).prioPtr = s.prioPtr := rfl
@[simp] theorem modQueue_ffl : (s.modQueue p g).ffl = s.ffl := rfl
@[simp] theorem modQueue_tx : (s.modQueue p g).tx = s.tx := rfl
@[simp] theorem modQueue_rx : (s.modQueue p g).rx = s.rx := rfl
@[simp] theorem modQueue_frt : (s.modQueue p g).frt = s.frt := rfl
@[simp] theorem modQueue_spillPtr : (s.modQueue p g).spillPtr = s.spillPtr := rfl
@[simp] theorem modQueue_spillOps : (s.modQueue p g).spillOps = s.spillOps := rfl
@[simp] theorem modQueue_edge : (s.modQueue p g).edge = s.edge := rfl
@[simp] theorem modQueue_chans : (s.modQueue p g).chans = s.chans := rfl
@[simp] theorem modQueue_engs : (s.modQueue p g).engs = s.engs := rfl
@[simp] theorem modQueue_mir : (s.modQueue p g).mir = s.mir := rfl
@[simp] theorem modQueue_flash : (s.modQueue p g).flash = s.flash := rfl
@[simp] theorem modQueue_trust : (s.modQueue p g).trust = s.trust := rfl
@[simp] theorem modQueue_age : (s.modQueue p g).age = s.age := rfl
@[simp] theorem modQueue_decayAt : (s.modQueue p g).decayAt = s.decayAt := rfl
@[simp] theorem modQueue_timeSample : (s.modQueue p g).timeSample = s.timeSample := rfl
@[simp] theorem modQueue_mgmtUp : (s.modQueue p g).mgmtUp = s.mgmtUp := rfl
@[simp] theorem modQueue_trace : (s.modQueue p g).trace = s.trace := rfl
@[simp] theorem modQueue_snapAt : (s.modQueue p g).snapAt = s.snapAt := rfl
@[simp] theorem modQueue_slots : (s.modQueue p g).slots = s.slots := rfl
@[simp] theorem modQueue_spc : (s.modQueue p g).spc = s.spc := rfl
@[simp] theorem modQueue_clk : (s.modQueue p g).clk = s.clk := rfl
@[simp] theorem modQueue_pwr : (s.modQueue p g).pwr = s.pwr := rfl
@[simp] theorem modQueue_boot : (s.modQueue p g).boot = s.boot := rfl
@[simp] theorem modQueue_heldOut : (s.modQueue p g).heldOut = s.heldOut := rfl
@[simp] theorem modQueue_listDirty : (s.modQueue p g).listDirty = s.listDirty := rfl
end

section
variable (s : State) (p : Nat) (g : SlotSt → SlotSt)
@[simp] theorem modSlot_pending : (s.modSlot p g).pending = s.pending := rfl
@[simp] theorem modSlot_regs : (s.modSlot p g).regs = s.regs := rfl
@[simp] theorem modSlot_heldRegs : (s.modSlot p g).heldRegs = s.heldRegs := rfl
@[simp] theorem modSlot_latches : (s.modSlot p g).latches = s.latches := rfl
@[simp] theorem modSlot_ticks : (s.modSlot p g).ticks = s.ticks := rfl
@[simp] theorem modSlot_fabric : (s.modSlot p g).fabric = s.fabric := rfl
@[simp] theorem modSlot_out : (s.modSlot p g).out = s.out := rfl
@[simp] theorem modSlot_free : (s.modSlot p g).free = s.free := rfl
@[simp] theorem modSlot_firing : (s.modSlot p g).firing = s.firing := rfl
@[simp] theorem modSlot_flt : (s.modSlot p g).flt = s.flt := rfl
@[simp] theorem modSlot_ept : (s.modSlot p g).ept = s.ept := rfl
@[simp] theorem modSlot_packets : (s.modSlot p g).packets = s.packets := rfl
@[simp] theorem modSlot_nextId : (s.modSlot p g).nextId = s.nextId := rfl
@[simp] theorem modSlot_order : (s.modSlot p g).order = s.order := rfl
@[simp] theorem modSlot_wseq : (s.modSlot p g).wseq = s.wseq := rfl
@[simp] theorem modSlot_trk : (s.modSlot p g).trk = s.trk := rfl
@[simp] theorem modSlot_openW : (s.modSlot p g).openW = s.openW := rfl
@[simp] theorem modSlot_fences : (s.modSlot p g).fences = s.fences := rfl
@[simp] theorem modSlot_swb : (s.modSlot p g).swb = s.swb := rfl
@[simp] theorem modSlot_resv : (s.modSlot p g).resv = s.resv := rfl
@[simp] theorem modSlot_pf : (s.modSlot p g).pf = s.pf := rfl
@[simp] theorem modSlot_npw : (s.modSlot p g).npw = s.npw := rfl
@[simp] theorem modSlot_splits : (s.modSlot p g).splits = s.splits := rfl
@[simp] theorem modSlot_parts : (s.modSlot p g).parts = s.parts := rfl
@[simp] theorem modSlot_bind : (s.modSlot p g).bind = s.bind := rfl
@[simp] theorem modSlot_bindHeld : (s.modSlot p g).bindHeld = s.bindHeld := rfl
@[simp] theorem modSlot_insts : (s.modSlot p g).insts = s.insts := rfl
@[simp] theorem modSlot_ttu : (s.modSlot p g).ttu = s.ttu := rfl
@[simp] theorem modSlot_ttuHits : (s.modSlot p g).ttuHits = s.ttuHits := rfl
@[simp] theorem modSlot_walks : (s.modSlot p g).walks = s.walks := rfl
@[simp] theorem modSlot_inval : (s.modSlot p g).inval = s.inval := rfl
@[simp] theorem modSlot_bar2 : (s.modSlot p g).bar2 = s.bar2 := rfl
@[simp] theorem modSlot_hbm : (s.modSlot p g).hbm = s.hbm := rfl
@[simp] theorem modSlot_regions : (s.modSlot p g).regions = s.regions := rfl
@[simp] theorem modSlot_ports : (s.modSlot p g).ports = s.ports := rfl
@[simp] theorem modSlot_lanes : (s.modSlot p g).lanes = s.lanes := rfl
@[simp] theorem modSlot_sched : (s.modSlot p g).sched = s.sched := rfl
@[simp] theorem modSlot_queues : (s.modSlot p g).queues = s.queues := rfl
@[simp] theorem modSlot_prioPtr : (s.modSlot p g).prioPtr = s.prioPtr := rfl
@[simp] theorem modSlot_ffl : (s.modSlot p g).ffl = s.ffl := rfl
@[simp] theorem modSlot_tx : (s.modSlot p g).tx = s.tx := rfl
@[simp] theorem modSlot_rx : (s.modSlot p g).rx = s.rx := rfl
@[simp] theorem modSlot_frt : (s.modSlot p g).frt = s.frt := rfl
@[simp] theorem modSlot_spillPtr : (s.modSlot p g).spillPtr = s.spillPtr := rfl
@[simp] theorem modSlot_spillOps : (s.modSlot p g).spillOps = s.spillOps := rfl
@[simp] theorem modSlot_edge : (s.modSlot p g).edge = s.edge := rfl
@[simp] theorem modSlot_chans : (s.modSlot p g).chans = s.chans := rfl
@[simp] theorem modSlot_engs : (s.modSlot p g).engs = s.engs := rfl
@[simp] theorem modSlot_mir : (s.modSlot p g).mir = s.mir := rfl
@[simp] theorem modSlot_flash : (s.modSlot p g).flash = s.flash := rfl
@[simp] theorem modSlot_trust : (s.modSlot p g).trust = s.trust := rfl
@[simp] theorem modSlot_age : (s.modSlot p g).age = s.age := rfl
@[simp] theorem modSlot_decayAt : (s.modSlot p g).decayAt = s.decayAt := rfl
@[simp] theorem modSlot_timeSample : (s.modSlot p g).timeSample = s.timeSample := rfl
@[simp] theorem modSlot_mgmtUp : (s.modSlot p g).mgmtUp = s.mgmtUp := rfl
@[simp] theorem modSlot_trace : (s.modSlot p g).trace = s.trace := rfl
@[simp] theorem modSlot_snapAt : (s.modSlot p g).snapAt = s.snapAt := rfl
@[simp] theorem modSlot_spc : (s.modSlot p g).spc = s.spc := rfl
@[simp] theorem modSlot_clk : (s.modSlot p g).clk = s.clk := rfl
@[simp] theorem modSlot_pwr : (s.modSlot p g).pwr = s.pwr := rfl
@[simp] theorem modSlot_boot : (s.modSlot p g).boot = s.boot := rfl
@[simp] theorem modSlot_heldOut : (s.modSlot p g).heldOut = s.heldOut := rfl
@[simp] theorem modSlot_listDirty : (s.modSlot p g).listDirty = s.listDirty := rfl
end

section
variable (s : State) (p : Nat) (g : Packet → Packet)
@[simp] theorem modPacket_pending : (s.modPacket p g).pending = s.pending := rfl
@[simp] theorem modPacket_regs : (s.modPacket p g).regs = s.regs := rfl
@[simp] theorem modPacket_heldRegs : (s.modPacket p g).heldRegs = s.heldRegs := rfl
@[simp] theorem modPacket_latches : (s.modPacket p g).latches = s.latches := rfl
@[simp] theorem modPacket_ticks : (s.modPacket p g).ticks = s.ticks := rfl
@[simp] theorem modPacket_fabric : (s.modPacket p g).fabric = s.fabric := rfl
@[simp] theorem modPacket_out : (s.modPacket p g).out = s.out := rfl
@[simp] theorem modPacket_free : (s.modPacket p g).free = s.free := rfl
@[simp] theorem modPacket_firing : (s.modPacket p g).firing = s.firing := rfl
@[simp] theorem modPacket_flt : (s.modPacket p g).flt = s.flt := rfl
@[simp] theorem modPacket_ept : (s.modPacket p g).ept = s.ept := rfl
@[simp] theorem modPacket_nextId : (s.modPacket p g).nextId = s.nextId := rfl
@[simp] theorem modPacket_order : (s.modPacket p g).order = s.order := rfl
@[simp] theorem modPacket_wseq : (s.modPacket p g).wseq = s.wseq := rfl
@[simp] theorem modPacket_trk : (s.modPacket p g).trk = s.trk := rfl
@[simp] theorem modPacket_openW : (s.modPacket p g).openW = s.openW := rfl
@[simp] theorem modPacket_fences : (s.modPacket p g).fences = s.fences := rfl
@[simp] theorem modPacket_swb : (s.modPacket p g).swb = s.swb := rfl
@[simp] theorem modPacket_resv : (s.modPacket p g).resv = s.resv := rfl
@[simp] theorem modPacket_pf : (s.modPacket p g).pf = s.pf := rfl
@[simp] theorem modPacket_npw : (s.modPacket p g).npw = s.npw := rfl
@[simp] theorem modPacket_splits : (s.modPacket p g).splits = s.splits := rfl
@[simp] theorem modPacket_parts : (s.modPacket p g).parts = s.parts := rfl
@[simp] theorem modPacket_bind : (s.modPacket p g).bind = s.bind := rfl
@[simp] theorem modPacket_bindHeld : (s.modPacket p g).bindHeld = s.bindHeld := rfl
@[simp] theorem modPacket_insts : (s.modPacket p g).insts = s.insts := rfl
@[simp] theorem modPacket_ttu : (s.modPacket p g).ttu = s.ttu := rfl
@[simp] theorem modPacket_ttuHits : (s.modPacket p g).ttuHits = s.ttuHits := rfl
@[simp] theorem modPacket_walks : (s.modPacket p g).walks = s.walks := rfl
@[simp] theorem modPacket_inval : (s.modPacket p g).inval = s.inval := rfl
@[simp] theorem modPacket_bar2 : (s.modPacket p g).bar2 = s.bar2 := rfl
@[simp] theorem modPacket_hbm : (s.modPacket p g).hbm = s.hbm := rfl
@[simp] theorem modPacket_regions : (s.modPacket p g).regions = s.regions := rfl
@[simp] theorem modPacket_ports : (s.modPacket p g).ports = s.ports := rfl
@[simp] theorem modPacket_lanes : (s.modPacket p g).lanes = s.lanes := rfl
@[simp] theorem modPacket_sched : (s.modPacket p g).sched = s.sched := rfl
@[simp] theorem modPacket_queues : (s.modPacket p g).queues = s.queues := rfl
@[simp] theorem modPacket_prioPtr : (s.modPacket p g).prioPtr = s.prioPtr := rfl
@[simp] theorem modPacket_ffl : (s.modPacket p g).ffl = s.ffl := rfl
@[simp] theorem modPacket_tx : (s.modPacket p g).tx = s.tx := rfl
@[simp] theorem modPacket_rx : (s.modPacket p g).rx = s.rx := rfl
@[simp] theorem modPacket_frt : (s.modPacket p g).frt = s.frt := rfl
@[simp] theorem modPacket_spillPtr : (s.modPacket p g).spillPtr = s.spillPtr := rfl
@[simp] theorem modPacket_spillOps : (s.modPacket p g).spillOps = s.spillOps := rfl
@[simp] theorem modPacket_edge : (s.modPacket p g).edge = s.edge := rfl
@[simp] theorem modPacket_chans : (s.modPacket p g).chans = s.chans := rfl
@[simp] theorem modPacket_engs : (s.modPacket p g).engs = s.engs := rfl
@[simp] theorem modPacket_mir : (s.modPacket p g).mir = s.mir := rfl
@[simp] theorem modPacket_flash : (s.modPacket p g).flash = s.flash := rfl
@[simp] theorem modPacket_trust : (s.modPacket p g).trust = s.trust := rfl
@[simp] theorem modPacket_age : (s.modPacket p g).age = s.age := rfl
@[simp] theorem modPacket_decayAt : (s.modPacket p g).decayAt = s.decayAt := rfl
@[simp] theorem modPacket_timeSample : (s.modPacket p g).timeSample = s.timeSample := rfl
@[simp] theorem modPacket_mgmtUp : (s.modPacket p g).mgmtUp = s.mgmtUp := rfl
@[simp] theorem modPacket_trace : (s.modPacket p g).trace = s.trace := rfl
@[simp] theorem modPacket_snapAt : (s.modPacket p g).snapAt = s.snapAt := rfl
@[simp] theorem modPacket_slots : (s.modPacket p g).slots = s.slots := rfl
@[simp] theorem modPacket_spc : (s.modPacket p g).spc = s.spc := rfl
@[simp] theorem modPacket_clk : (s.modPacket p g).clk = s.clk := rfl
@[simp] theorem modPacket_pwr : (s.modPacket p g).pwr = s.pwr := rfl
@[simp] theorem modPacket_boot : (s.modPacket p g).boot = s.boot := rfl
@[simp] theorem modPacket_heldOut : (s.modPacket p g).heldOut = s.heldOut := rfl
@[simp] theorem modPacket_listDirty : (s.modPacket p g).listDirty = s.listDirty := rfl
end

section
variable (s : State) (g : AgeSt → AgeSt)
@[simp] theorem modAge_pending : (s.modAge g).pending = s.pending := rfl
@[simp] theorem modAge_regs : (s.modAge g).regs = s.regs := rfl
@[simp] theorem modAge_heldRegs : (s.modAge g).heldRegs = s.heldRegs := rfl
@[simp] theorem modAge_latches : (s.modAge g).latches = s.latches := rfl
@[simp] theorem modAge_ticks : (s.modAge g).ticks = s.ticks := rfl
@[simp] theorem modAge_fabric : (s.modAge g).fabric = s.fabric := rfl
@[simp] theorem modAge_out : (s.modAge g).out = s.out := rfl
@[simp] theorem modAge_free : (s.modAge g).free = s.free := rfl
@[simp] theorem modAge_firing : (s.modAge g).firing = s.firing := rfl
@[simp] theorem modAge_flt : (s.modAge g).flt = s.flt := rfl
@[simp] theorem modAge_ept : (s.modAge g).ept = s.ept := rfl
@[simp] theorem modAge_packets : (s.modAge g).packets = s.packets := rfl
@[simp] theorem modAge_nextId : (s.modAge g).nextId = s.nextId := rfl
@[simp] theorem modAge_order : (s.modAge g).order = s.order := rfl
@[simp] theorem modAge_wseq : (s.modAge g).wseq = s.wseq := rfl
@[simp] theorem modAge_trk : (s.modAge g).trk = s.trk := rfl
@[simp] theorem modAge_openW : (s.modAge g).openW = s.openW := rfl
@[simp] theorem modAge_fences : (s.modAge g).fences = s.fences := rfl
@[simp] theorem modAge_swb : (s.modAge g).swb = s.swb := rfl
@[simp] theorem modAge_resv : (s.modAge g).resv = s.resv := rfl
@[simp] theorem modAge_pf : (s.modAge g).pf = s.pf := rfl
@[simp] theorem modAge_npw : (s.modAge g).npw = s.npw := rfl
@[simp] theorem modAge_splits : (s.modAge g).splits = s.splits := rfl
@[simp] theorem modAge_parts : (s.modAge g).parts = s.parts := rfl
@[simp] theorem modAge_bind : (s.modAge g).bind = s.bind := rfl
@[simp] theorem modAge_bindHeld : (s.modAge g).bindHeld = s.bindHeld := rfl
@[simp] theorem modAge_insts : (s.modAge g).insts = s.insts := rfl
@[simp] theorem modAge_ttu : (s.modAge g).ttu = s.ttu := rfl
@[simp] theorem modAge_ttuHits : (s.modAge g).ttuHits = s.ttuHits := rfl
@[simp] theorem modAge_walks : (s.modAge g).walks = s.walks := rfl
@[simp] theorem modAge_inval : (s.modAge g).inval = s.inval := rfl
@[simp] theorem modAge_bar2 : (s.modAge g).bar2 = s.bar2 := rfl
@[simp] theorem modAge_hbm : (s.modAge g).hbm = s.hbm := rfl
@[simp] theorem modAge_regions : (s.modAge g).regions = s.regions := rfl
@[simp] theorem modAge_ports : (s.modAge g).ports = s.ports := rfl
@[simp] theorem modAge_lanes : (s.modAge g).lanes = s.lanes := rfl
@[simp] theorem modAge_sched : (s.modAge g).sched = s.sched := rfl
@[simp] theorem modAge_queues : (s.modAge g).queues = s.queues := rfl
@[simp] theorem modAge_prioPtr : (s.modAge g).prioPtr = s.prioPtr := rfl
@[simp] theorem modAge_ffl : (s.modAge g).ffl = s.ffl := rfl
@[simp] theorem modAge_tx : (s.modAge g).tx = s.tx := rfl
@[simp] theorem modAge_rx : (s.modAge g).rx = s.rx := rfl
@[simp] theorem modAge_frt : (s.modAge g).frt = s.frt := rfl
@[simp] theorem modAge_spillPtr : (s.modAge g).spillPtr = s.spillPtr := rfl
@[simp] theorem modAge_spillOps : (s.modAge g).spillOps = s.spillOps := rfl
@[simp] theorem modAge_edge : (s.modAge g).edge = s.edge := rfl
@[simp] theorem modAge_chans : (s.modAge g).chans = s.chans := rfl
@[simp] theorem modAge_engs : (s.modAge g).engs = s.engs := rfl
@[simp] theorem modAge_mir : (s.modAge g).mir = s.mir := rfl
@[simp] theorem modAge_flash : (s.modAge g).flash = s.flash := rfl
@[simp] theorem modAge_trust : (s.modAge g).trust = s.trust := rfl
@[simp] theorem modAge_decayAt : (s.modAge g).decayAt = s.decayAt := rfl
@[simp] theorem modAge_timeSample : (s.modAge g).timeSample = s.timeSample := rfl
@[simp] theorem modAge_mgmtUp : (s.modAge g).mgmtUp = s.mgmtUp := rfl
@[simp] theorem modAge_trace : (s.modAge g).trace = s.trace := rfl
@[simp] theorem modAge_snapAt : (s.modAge g).snapAt = s.snapAt := rfl
@[simp] theorem modAge_slots : (s.modAge g).slots = s.slots := rfl
@[simp] theorem modAge_spc : (s.modAge g).spc = s.spc := rfl
@[simp] theorem modAge_clk : (s.modAge g).clk = s.clk := rfl
@[simp] theorem modAge_pwr : (s.modAge g).pwr = s.pwr := rfl
@[simp] theorem modAge_boot : (s.modAge g).boot = s.boot := rfl
@[simp] theorem modAge_heldOut : (s.modAge g).heldOut = s.heldOut := rfl
@[simp] theorem modAge_listDirty : (s.modAge g).listDirty = s.listDirty := rfl
end

section
variable (s : State) (g : BootSt → BootSt)
@[simp] theorem modBoot_pending : (s.modBoot g).pending = s.pending := rfl
@[simp] theorem modBoot_regs : (s.modBoot g).regs = s.regs := rfl
@[simp] theorem modBoot_heldRegs : (s.modBoot g).heldRegs = s.heldRegs := rfl
@[simp] theorem modBoot_latches : (s.modBoot g).latches = s.latches := rfl
@[simp] theorem modBoot_ticks : (s.modBoot g).ticks = s.ticks := rfl
@[simp] theorem modBoot_fabric : (s.modBoot g).fabric = s.fabric := rfl
@[simp] theorem modBoot_out : (s.modBoot g).out = s.out := rfl
@[simp] theorem modBoot_free : (s.modBoot g).free = s.free := rfl
@[simp] theorem modBoot_firing : (s.modBoot g).firing = s.firing := rfl
@[simp] theorem modBoot_flt : (s.modBoot g).flt = s.flt := rfl
@[simp] theorem modBoot_ept : (s.modBoot g).ept = s.ept := rfl
@[simp] theorem modBoot_packets : (s.modBoot g).packets = s.packets := rfl
@[simp] theorem modBoot_nextId : (s.modBoot g).nextId = s.nextId := rfl
@[simp] theorem modBoot_order : (s.modBoot g).order = s.order := rfl
@[simp] theorem modBoot_wseq : (s.modBoot g).wseq = s.wseq := rfl
@[simp] theorem modBoot_trk : (s.modBoot g).trk = s.trk := rfl
@[simp] theorem modBoot_openW : (s.modBoot g).openW = s.openW := rfl
@[simp] theorem modBoot_fences : (s.modBoot g).fences = s.fences := rfl
@[simp] theorem modBoot_swb : (s.modBoot g).swb = s.swb := rfl
@[simp] theorem modBoot_resv : (s.modBoot g).resv = s.resv := rfl
@[simp] theorem modBoot_pf : (s.modBoot g).pf = s.pf := rfl
@[simp] theorem modBoot_npw : (s.modBoot g).npw = s.npw := rfl
@[simp] theorem modBoot_splits : (s.modBoot g).splits = s.splits := rfl
@[simp] theorem modBoot_parts : (s.modBoot g).parts = s.parts := rfl
@[simp] theorem modBoot_bind : (s.modBoot g).bind = s.bind := rfl
@[simp] theorem modBoot_bindHeld : (s.modBoot g).bindHeld = s.bindHeld := rfl
@[simp] theorem modBoot_insts : (s.modBoot g).insts = s.insts := rfl
@[simp] theorem modBoot_ttu : (s.modBoot g).ttu = s.ttu := rfl
@[simp] theorem modBoot_ttuHits : (s.modBoot g).ttuHits = s.ttuHits := rfl
@[simp] theorem modBoot_walks : (s.modBoot g).walks = s.walks := rfl
@[simp] theorem modBoot_inval : (s.modBoot g).inval = s.inval := rfl
@[simp] theorem modBoot_bar2 : (s.modBoot g).bar2 = s.bar2 := rfl
@[simp] theorem modBoot_hbm : (s.modBoot g).hbm = s.hbm := rfl
@[simp] theorem modBoot_regions : (s.modBoot g).regions = s.regions := rfl
@[simp] theorem modBoot_ports : (s.modBoot g).ports = s.ports := rfl
@[simp] theorem modBoot_lanes : (s.modBoot g).lanes = s.lanes := rfl
@[simp] theorem modBoot_sched : (s.modBoot g).sched = s.sched := rfl
@[simp] theorem modBoot_queues : (s.modBoot g).queues = s.queues := rfl
@[simp] theorem modBoot_prioPtr : (s.modBoot g).prioPtr = s.prioPtr := rfl
@[simp] theorem modBoot_ffl : (s.modBoot g).ffl = s.ffl := rfl
@[simp] theorem modBoot_tx : (s.modBoot g).tx = s.tx := rfl
@[simp] theorem modBoot_rx : (s.modBoot g).rx = s.rx := rfl
@[simp] theorem modBoot_frt : (s.modBoot g).frt = s.frt := rfl
@[simp] theorem modBoot_spillPtr : (s.modBoot g).spillPtr = s.spillPtr := rfl
@[simp] theorem modBoot_spillOps : (s.modBoot g).spillOps = s.spillOps := rfl
@[simp] theorem modBoot_edge : (s.modBoot g).edge = s.edge := rfl
@[simp] theorem modBoot_chans : (s.modBoot g).chans = s.chans := rfl
@[simp] theorem modBoot_engs : (s.modBoot g).engs = s.engs := rfl
@[simp] theorem modBoot_mir : (s.modBoot g).mir = s.mir := rfl
@[simp] theorem modBoot_flash : (s.modBoot g).flash = s.flash := rfl
@[simp] theorem modBoot_trust : (s.modBoot g).trust = s.trust := rfl
@[simp] theorem modBoot_age : (s.modBoot g).age = s.age := rfl
@[simp] theorem modBoot_decayAt : (s.modBoot g).decayAt = s.decayAt := rfl
@[simp] theorem modBoot_timeSample : (s.modBoot g).timeSample = s.timeSample := rfl
@[simp] theorem modBoot_mgmtUp : (s.modBoot g).mgmtUp = s.mgmtUp := rfl
@[simp] theorem modBoot_trace : (s.modBoot g).trace = s.trace := rfl
@[simp] theorem modBoot_snapAt : (s.modBoot g).snapAt = s.snapAt := rfl
@[simp] theorem modBoot_slots : (s.modBoot g).slots = s.slots := rfl
@[simp] theorem modBoot_spc : (s.modBoot g).spc = s.spc := rfl
@[simp] theorem modBoot_clk : (s.modBoot g).clk = s.clk := rfl
@[simp] theorem modBoot_pwr : (s.modBoot g).pwr = s.pwr := rfl
@[simp] theorem modBoot_heldOut : (s.modBoot g).heldOut = s.heldOut := rfl
@[simp] theorem modBoot_listDirty : (s.modBoot g).listDirty = s.listDirty := rfl
end

section
variable (s : State) (g : PwrSt → PwrSt)
@[simp] theorem modPwr_pending : (s.modPwr g).pending = s.pending := rfl
@[simp] theorem modPwr_regs : (s.modPwr g).regs = s.regs := rfl
@[simp] theorem modPwr_heldRegs : (s.modPwr g).heldRegs = s.heldRegs := rfl
@[simp] theorem modPwr_latches : (s.modPwr g).latches = s.latches := rfl
@[simp] theorem modPwr_ticks : (s.modPwr g).ticks = s.ticks := rfl
@[simp] theorem modPwr_fabric : (s.modPwr g).fabric = s.fabric := rfl
@[simp] theorem modPwr_out : (s.modPwr g).out = s.out := rfl
@[simp] theorem modPwr_free : (s.modPwr g).free = s.free := rfl
@[simp] theorem modPwr_firing : (s.modPwr g).firing = s.firing := rfl
@[simp] theorem modPwr_flt : (s.modPwr g).flt = s.flt := rfl
@[simp] theorem modPwr_ept : (s.modPwr g).ept = s.ept := rfl
@[simp] theorem modPwr_packets : (s.modPwr g).packets = s.packets := rfl
@[simp] theorem modPwr_nextId : (s.modPwr g).nextId = s.nextId := rfl
@[simp] theorem modPwr_order : (s.modPwr g).order = s.order := rfl
@[simp] theorem modPwr_wseq : (s.modPwr g).wseq = s.wseq := rfl
@[simp] theorem modPwr_trk : (s.modPwr g).trk = s.trk := rfl
@[simp] theorem modPwr_openW : (s.modPwr g).openW = s.openW := rfl
@[simp] theorem modPwr_fences : (s.modPwr g).fences = s.fences := rfl
@[simp] theorem modPwr_swb : (s.modPwr g).swb = s.swb := rfl
@[simp] theorem modPwr_resv : (s.modPwr g).resv = s.resv := rfl
@[simp] theorem modPwr_pf : (s.modPwr g).pf = s.pf := rfl
@[simp] theorem modPwr_npw : (s.modPwr g).npw = s.npw := rfl
@[simp] theorem modPwr_splits : (s.modPwr g).splits = s.splits := rfl
@[simp] theorem modPwr_parts : (s.modPwr g).parts = s.parts := rfl
@[simp] theorem modPwr_bind : (s.modPwr g).bind = s.bind := rfl
@[simp] theorem modPwr_bindHeld : (s.modPwr g).bindHeld = s.bindHeld := rfl
@[simp] theorem modPwr_insts : (s.modPwr g).insts = s.insts := rfl
@[simp] theorem modPwr_ttu : (s.modPwr g).ttu = s.ttu := rfl
@[simp] theorem modPwr_ttuHits : (s.modPwr g).ttuHits = s.ttuHits := rfl
@[simp] theorem modPwr_walks : (s.modPwr g).walks = s.walks := rfl
@[simp] theorem modPwr_inval : (s.modPwr g).inval = s.inval := rfl
@[simp] theorem modPwr_bar2 : (s.modPwr g).bar2 = s.bar2 := rfl
@[simp] theorem modPwr_hbm : (s.modPwr g).hbm = s.hbm := rfl
@[simp] theorem modPwr_regions : (s.modPwr g).regions = s.regions := rfl
@[simp] theorem modPwr_ports : (s.modPwr g).ports = s.ports := rfl
@[simp] theorem modPwr_lanes : (s.modPwr g).lanes = s.lanes := rfl
@[simp] theorem modPwr_sched : (s.modPwr g).sched = s.sched := rfl
@[simp] theorem modPwr_queues : (s.modPwr g).queues = s.queues := rfl
@[simp] theorem modPwr_prioPtr : (s.modPwr g).prioPtr = s.prioPtr := rfl
@[simp] theorem modPwr_ffl : (s.modPwr g).ffl = s.ffl := rfl
@[simp] theorem modPwr_tx : (s.modPwr g).tx = s.tx := rfl
@[simp] theorem modPwr_rx : (s.modPwr g).rx = s.rx := rfl
@[simp] theorem modPwr_frt : (s.modPwr g).frt = s.frt := rfl
@[simp] theorem modPwr_spillPtr : (s.modPwr g).spillPtr = s.spillPtr := rfl
@[simp] theorem modPwr_spillOps : (s.modPwr g).spillOps = s.spillOps := rfl
@[simp] theorem modPwr_edge : (s.modPwr g).edge = s.edge := rfl
@[simp] theorem modPwr_chans : (s.modPwr g).chans = s.chans := rfl
@[simp] theorem modPwr_engs : (s.modPwr g).engs = s.engs := rfl
@[simp] theorem modPwr_mir : (s.modPwr g).mir = s.mir := rfl
@[simp] theorem modPwr_flash : (s.modPwr g).flash = s.flash := rfl
@[simp] theorem modPwr_trust : (s.modPwr g).trust = s.trust := rfl
@[simp] theorem modPwr_age : (s.modPwr g).age = s.age := rfl
@[simp] theorem modPwr_decayAt : (s.modPwr g).decayAt = s.decayAt := rfl
@[simp] theorem modPwr_timeSample : (s.modPwr g).timeSample = s.timeSample := rfl
@[simp] theorem modPwr_mgmtUp : (s.modPwr g).mgmtUp = s.mgmtUp := rfl
@[simp] theorem modPwr_trace : (s.modPwr g).trace = s.trace := rfl
@[simp] theorem modPwr_snapAt : (s.modPwr g).snapAt = s.snapAt := rfl
@[simp] theorem modPwr_slots : (s.modPwr g).slots = s.slots := rfl
@[simp] theorem modPwr_spc : (s.modPwr g).spc = s.spc := rfl
@[simp] theorem modPwr_clk : (s.modPwr g).clk = s.clk := rfl
@[simp] theorem modPwr_boot : (s.modPwr g).boot = s.boot := rfl
@[simp] theorem modPwr_heldOut : (s.modPwr g).heldOut = s.heldOut := rfl
@[simp] theorem modPwr_listDirty : (s.modPwr g).listDirty = s.listDirty := rfl
end

section
variable (s : State) (p : Nat)
@[simp] theorem dropPacket_pending : (s.dropPacket p).pending = s.pending := rfl
@[simp] theorem dropPacket_regs : (s.dropPacket p).regs = s.regs := rfl
@[simp] theorem dropPacket_heldRegs : (s.dropPacket p).heldRegs = s.heldRegs := rfl
@[simp] theorem dropPacket_latches : (s.dropPacket p).latches = s.latches := rfl
@[simp] theorem dropPacket_ticks : (s.dropPacket p).ticks = s.ticks := rfl
@[simp] theorem dropPacket_fabric : (s.dropPacket p).fabric = s.fabric := rfl
@[simp] theorem dropPacket_out : (s.dropPacket p).out = s.out := rfl
@[simp] theorem dropPacket_free : (s.dropPacket p).free = s.free := rfl
@[simp] theorem dropPacket_firing : (s.dropPacket p).firing = s.firing := rfl
@[simp] theorem dropPacket_flt : (s.dropPacket p).flt = s.flt := rfl
@[simp] theorem dropPacket_ept : (s.dropPacket p).ept = s.ept := rfl
@[simp] theorem dropPacket_nextId : (s.dropPacket p).nextId = s.nextId := rfl
@[simp] theorem dropPacket_order : (s.dropPacket p).order = s.order := rfl
@[simp] theorem dropPacket_wseq : (s.dropPacket p).wseq = s.wseq := rfl
@[simp] theorem dropPacket_trk : (s.dropPacket p).trk = s.trk := rfl
@[simp] theorem dropPacket_openW : (s.dropPacket p).openW = s.openW := rfl
@[simp] theorem dropPacket_fences : (s.dropPacket p).fences = s.fences := rfl
@[simp] theorem dropPacket_swb : (s.dropPacket p).swb = s.swb := rfl
@[simp] theorem dropPacket_resv : (s.dropPacket p).resv = s.resv := rfl
@[simp] theorem dropPacket_pf : (s.dropPacket p).pf = s.pf := rfl
@[simp] theorem dropPacket_npw : (s.dropPacket p).npw = s.npw := rfl
@[simp] theorem dropPacket_splits : (s.dropPacket p).splits = s.splits := rfl
@[simp] theorem dropPacket_parts : (s.dropPacket p).parts = s.parts := rfl
@[simp] theorem dropPacket_bind : (s.dropPacket p).bind = s.bind := rfl
@[simp] theorem dropPacket_bindHeld : (s.dropPacket p).bindHeld = s.bindHeld := rfl
@[simp] theorem dropPacket_insts : (s.dropPacket p).insts = s.insts := rfl
@[simp] theorem dropPacket_ttu : (s.dropPacket p).ttu = s.ttu := rfl
@[simp] theorem dropPacket_ttuHits : (s.dropPacket p).ttuHits = s.ttuHits := rfl
@[simp] theorem dropPacket_walks : (s.dropPacket p).walks = s.walks := rfl
@[simp] theorem dropPacket_inval : (s.dropPacket p).inval = s.inval := rfl
@[simp] theorem dropPacket_bar2 : (s.dropPacket p).bar2 = s.bar2 := rfl
@[simp] theorem dropPacket_hbm : (s.dropPacket p).hbm = s.hbm := rfl
@[simp] theorem dropPacket_regions : (s.dropPacket p).regions = s.regions := rfl
@[simp] theorem dropPacket_ports : (s.dropPacket p).ports = s.ports := rfl
@[simp] theorem dropPacket_lanes : (s.dropPacket p).lanes = s.lanes := rfl
@[simp] theorem dropPacket_sched : (s.dropPacket p).sched = s.sched := rfl
@[simp] theorem dropPacket_queues : (s.dropPacket p).queues = s.queues := rfl
@[simp] theorem dropPacket_prioPtr : (s.dropPacket p).prioPtr = s.prioPtr := rfl
@[simp] theorem dropPacket_ffl : (s.dropPacket p).ffl = s.ffl := rfl
@[simp] theorem dropPacket_tx : (s.dropPacket p).tx = s.tx := rfl
@[simp] theorem dropPacket_rx : (s.dropPacket p).rx = s.rx := rfl
@[simp] theorem dropPacket_frt : (s.dropPacket p).frt = s.frt := rfl
@[simp] theorem dropPacket_spillPtr : (s.dropPacket p).spillPtr = s.spillPtr := rfl
@[simp] theorem dropPacket_spillOps : (s.dropPacket p).spillOps = s.spillOps := rfl
@[simp] theorem dropPacket_edge : (s.dropPacket p).edge = s.edge := rfl
@[simp] theorem dropPacket_chans : (s.dropPacket p).chans = s.chans := rfl
@[simp] theorem dropPacket_engs : (s.dropPacket p).engs = s.engs := rfl
@[simp] theorem dropPacket_mir : (s.dropPacket p).mir = s.mir := rfl
@[simp] theorem dropPacket_flash : (s.dropPacket p).flash = s.flash := rfl
@[simp] theorem dropPacket_trust : (s.dropPacket p).trust = s.trust := rfl
@[simp] theorem dropPacket_age : (s.dropPacket p).age = s.age := rfl
@[simp] theorem dropPacket_decayAt : (s.dropPacket p).decayAt = s.decayAt := rfl
@[simp] theorem dropPacket_timeSample : (s.dropPacket p).timeSample = s.timeSample := rfl
@[simp] theorem dropPacket_mgmtUp : (s.dropPacket p).mgmtUp = s.mgmtUp := rfl
@[simp] theorem dropPacket_trace : (s.dropPacket p).trace = s.trace := rfl
@[simp] theorem dropPacket_snapAt : (s.dropPacket p).snapAt = s.snapAt := rfl
@[simp] theorem dropPacket_slots : (s.dropPacket p).slots = s.slots := rfl
@[simp] theorem dropPacket_spc : (s.dropPacket p).spc = s.spc := rfl
@[simp] theorem dropPacket_clk : (s.dropPacket p).clk = s.clk := rfl
@[simp] theorem dropPacket_pwr : (s.dropPacket p).pwr = s.pwr := rfl
@[simp] theorem dropPacket_boot : (s.dropPacket p).boot = s.boot := rfl
@[simp] theorem dropPacket_heldOut : (s.dropPacket p).heldOut = s.heldOut := rfl
@[simp] theorem dropPacket_listDirty : (s.dropPacket p).listDirty = s.listDirty := rfl
end

section
variable (s : State) (o : Output)
@[simp] theorem emit_pending : (s.emit o).pending = s.pending := rfl
@[simp] theorem emit_regs : (s.emit o).regs = s.regs := rfl
@[simp] theorem emit_heldRegs : (s.emit o).heldRegs = s.heldRegs := rfl
@[simp] theorem emit_latches : (s.emit o).latches = s.latches := rfl
@[simp] theorem emit_ticks : (s.emit o).ticks = s.ticks := rfl
@[simp] theorem emit_fabric : (s.emit o).fabric = s.fabric := rfl
@[simp] theorem emit_free : (s.emit o).free = s.free := rfl
@[simp] theorem emit_firing : (s.emit o).firing = s.firing := rfl
@[simp] theorem emit_flt : (s.emit o).flt = s.flt := rfl
@[simp] theorem emit_ept : (s.emit o).ept = s.ept := rfl
@[simp] theorem emit_packets : (s.emit o).packets = s.packets := rfl
@[simp] theorem emit_nextId : (s.emit o).nextId = s.nextId := rfl
@[simp] theorem emit_order : (s.emit o).order = s.order := rfl
@[simp] theorem emit_wseq : (s.emit o).wseq = s.wseq := rfl
@[simp] theorem emit_trk : (s.emit o).trk = s.trk := rfl
@[simp] theorem emit_openW : (s.emit o).openW = s.openW := rfl
@[simp] theorem emit_fences : (s.emit o).fences = s.fences := rfl
@[simp] theorem emit_swb : (s.emit o).swb = s.swb := rfl
@[simp] theorem emit_resv : (s.emit o).resv = s.resv := rfl
@[simp] theorem emit_pf : (s.emit o).pf = s.pf := rfl
@[simp] theorem emit_npw : (s.emit o).npw = s.npw := rfl
@[simp] theorem emit_splits : (s.emit o).splits = s.splits := rfl
@[simp] theorem emit_parts : (s.emit o).parts = s.parts := rfl
@[simp] theorem emit_bind : (s.emit o).bind = s.bind := rfl
@[simp] theorem emit_bindHeld : (s.emit o).bindHeld = s.bindHeld := rfl
@[simp] theorem emit_insts : (s.emit o).insts = s.insts := rfl
@[simp] theorem emit_ttu : (s.emit o).ttu = s.ttu := rfl
@[simp] theorem emit_ttuHits : (s.emit o).ttuHits = s.ttuHits := rfl
@[simp] theorem emit_walks : (s.emit o).walks = s.walks := rfl
@[simp] theorem emit_inval : (s.emit o).inval = s.inval := rfl
@[simp] theorem emit_bar2 : (s.emit o).bar2 = s.bar2 := rfl
@[simp] theorem emit_hbm : (s.emit o).hbm = s.hbm := rfl
@[simp] theorem emit_regions : (s.emit o).regions = s.regions := rfl
@[simp] theorem emit_ports : (s.emit o).ports = s.ports := rfl
@[simp] theorem emit_lanes : (s.emit o).lanes = s.lanes := rfl
@[simp] theorem emit_sched : (s.emit o).sched = s.sched := rfl
@[simp] theorem emit_queues : (s.emit o).queues = s.queues := rfl
@[simp] theorem emit_prioPtr : (s.emit o).prioPtr = s.prioPtr := rfl
@[simp] theorem emit_ffl : (s.emit o).ffl = s.ffl := rfl
@[simp] theorem emit_tx : (s.emit o).tx = s.tx := rfl
@[simp] theorem emit_rx : (s.emit o).rx = s.rx := rfl
@[simp] theorem emit_frt : (s.emit o).frt = s.frt := rfl
@[simp] theorem emit_spillPtr : (s.emit o).spillPtr = s.spillPtr := rfl
@[simp] theorem emit_spillOps : (s.emit o).spillOps = s.spillOps := rfl
@[simp] theorem emit_edge : (s.emit o).edge = s.edge := rfl
@[simp] theorem emit_chans : (s.emit o).chans = s.chans := rfl
@[simp] theorem emit_engs : (s.emit o).engs = s.engs := rfl
@[simp] theorem emit_mir : (s.emit o).mir = s.mir := rfl
@[simp] theorem emit_flash : (s.emit o).flash = s.flash := rfl
@[simp] theorem emit_trust : (s.emit o).trust = s.trust := rfl
@[simp] theorem emit_age : (s.emit o).age = s.age := rfl
@[simp] theorem emit_decayAt : (s.emit o).decayAt = s.decayAt := rfl
@[simp] theorem emit_timeSample : (s.emit o).timeSample = s.timeSample := rfl
@[simp] theorem emit_mgmtUp : (s.emit o).mgmtUp = s.mgmtUp := rfl
@[simp] theorem emit_trace : (s.emit o).trace = s.trace := rfl
@[simp] theorem emit_snapAt : (s.emit o).snapAt = s.snapAt := rfl
@[simp] theorem emit_slots : (s.emit o).slots = s.slots := rfl
@[simp] theorem emit_spc : (s.emit o).spc = s.spc := rfl
@[simp] theorem emit_clk : (s.emit o).clk = s.clk := rfl
@[simp] theorem emit_pwr : (s.emit o).pwr = s.pwr := rfl
@[simp] theorem emit_boot : (s.emit o).boot = s.boot := rfl
@[simp] theorem emit_heldOut : (s.emit o).heldOut = s.heldOut := rfl
@[simp] theorem emit_listDirty : (s.emit o).listDirty = s.listDirty := rfl
end

section
variable (s : State) (l : List Output)
@[simp] theorem emitAll_pending : (s.emitAll l).pending = s.pending := rfl
@[simp] theorem emitAll_regs : (s.emitAll l).regs = s.regs := rfl
@[simp] theorem emitAll_heldRegs : (s.emitAll l).heldRegs = s.heldRegs := rfl
@[simp] theorem emitAll_latches : (s.emitAll l).latches = s.latches := rfl
@[simp] theorem emitAll_ticks : (s.emitAll l).ticks = s.ticks := rfl
@[simp] theorem emitAll_fabric : (s.emitAll l).fabric = s.fabric := rfl
@[simp] theorem emitAll_free : (s.emitAll l).free = s.free := rfl
@[simp] theorem emitAll_firing : (s.emitAll l).firing = s.firing := rfl
@[simp] theorem emitAll_flt : (s.emitAll l).flt = s.flt := rfl
@[simp] theorem emitAll_ept : (s.emitAll l).ept = s.ept := rfl
@[simp] theorem emitAll_packets : (s.emitAll l).packets = s.packets := rfl
@[simp] theorem emitAll_nextId : (s.emitAll l).nextId = s.nextId := rfl
@[simp] theorem emitAll_order : (s.emitAll l).order = s.order := rfl
@[simp] theorem emitAll_wseq : (s.emitAll l).wseq = s.wseq := rfl
@[simp] theorem emitAll_trk : (s.emitAll l).trk = s.trk := rfl
@[simp] theorem emitAll_openW : (s.emitAll l).openW = s.openW := rfl
@[simp] theorem emitAll_fences : (s.emitAll l).fences = s.fences := rfl
@[simp] theorem emitAll_swb : (s.emitAll l).swb = s.swb := rfl
@[simp] theorem emitAll_resv : (s.emitAll l).resv = s.resv := rfl
@[simp] theorem emitAll_pf : (s.emitAll l).pf = s.pf := rfl
@[simp] theorem emitAll_npw : (s.emitAll l).npw = s.npw := rfl
@[simp] theorem emitAll_splits : (s.emitAll l).splits = s.splits := rfl
@[simp] theorem emitAll_parts : (s.emitAll l).parts = s.parts := rfl
@[simp] theorem emitAll_bind : (s.emitAll l).bind = s.bind := rfl
@[simp] theorem emitAll_bindHeld : (s.emitAll l).bindHeld = s.bindHeld := rfl
@[simp] theorem emitAll_insts : (s.emitAll l).insts = s.insts := rfl
@[simp] theorem emitAll_ttu : (s.emitAll l).ttu = s.ttu := rfl
@[simp] theorem emitAll_ttuHits : (s.emitAll l).ttuHits = s.ttuHits := rfl
@[simp] theorem emitAll_walks : (s.emitAll l).walks = s.walks := rfl
@[simp] theorem emitAll_inval : (s.emitAll l).inval = s.inval := rfl
@[simp] theorem emitAll_bar2 : (s.emitAll l).bar2 = s.bar2 := rfl
@[simp] theorem emitAll_hbm : (s.emitAll l).hbm = s.hbm := rfl
@[simp] theorem emitAll_regions : (s.emitAll l).regions = s.regions := rfl
@[simp] theorem emitAll_ports : (s.emitAll l).ports = s.ports := rfl
@[simp] theorem emitAll_lanes : (s.emitAll l).lanes = s.lanes := rfl
@[simp] theorem emitAll_sched : (s.emitAll l).sched = s.sched := rfl
@[simp] theorem emitAll_queues : (s.emitAll l).queues = s.queues := rfl
@[simp] theorem emitAll_prioPtr : (s.emitAll l).prioPtr = s.prioPtr := rfl
@[simp] theorem emitAll_ffl : (s.emitAll l).ffl = s.ffl := rfl
@[simp] theorem emitAll_tx : (s.emitAll l).tx = s.tx := rfl
@[simp] theorem emitAll_rx : (s.emitAll l).rx = s.rx := rfl
@[simp] theorem emitAll_frt : (s.emitAll l).frt = s.frt := rfl
@[simp] theorem emitAll_spillPtr : (s.emitAll l).spillPtr = s.spillPtr := rfl
@[simp] theorem emitAll_spillOps : (s.emitAll l).spillOps = s.spillOps := rfl
@[simp] theorem emitAll_edge : (s.emitAll l).edge = s.edge := rfl
@[simp] theorem emitAll_chans : (s.emitAll l).chans = s.chans := rfl
@[simp] theorem emitAll_engs : (s.emitAll l).engs = s.engs := rfl
@[simp] theorem emitAll_mir : (s.emitAll l).mir = s.mir := rfl
@[simp] theorem emitAll_flash : (s.emitAll l).flash = s.flash := rfl
@[simp] theorem emitAll_trust : (s.emitAll l).trust = s.trust := rfl
@[simp] theorem emitAll_age : (s.emitAll l).age = s.age := rfl
@[simp] theorem emitAll_decayAt : (s.emitAll l).decayAt = s.decayAt := rfl
@[simp] theorem emitAll_timeSample : (s.emitAll l).timeSample = s.timeSample := rfl
@[simp] theorem emitAll_mgmtUp : (s.emitAll l).mgmtUp = s.mgmtUp := rfl
@[simp] theorem emitAll_trace : (s.emitAll l).trace = s.trace := rfl
@[simp] theorem emitAll_snapAt : (s.emitAll l).snapAt = s.snapAt := rfl
@[simp] theorem emitAll_slots : (s.emitAll l).slots = s.slots := rfl
@[simp] theorem emitAll_spc : (s.emitAll l).spc = s.spc := rfl
@[simp] theorem emitAll_clk : (s.emitAll l).clk = s.clk := rfl
@[simp] theorem emitAll_pwr : (s.emitAll l).pwr = s.pwr := rfl
@[simp] theorem emitAll_boot : (s.emitAll l).boot = s.boot := rfl
@[simp] theorem emitAll_heldOut : (s.emitAll l).heldOut = s.heldOut := rfl
@[simp] theorem emitAll_listDirty : (s.emitAll l).listDirty = s.listDirty := rfl
end

section
variable (s : State) (pg b k p : Nat)
@[simp] theorem fire_pending : (s.fire pg b k p).pending = s.pending := rfl
@[simp] theorem fire_regs : (s.fire pg b k p).regs = s.regs := rfl
@[simp] theorem fire_heldRegs : (s.fire pg b k p).heldRegs = s.heldRegs := rfl
@[simp] theorem fire_latches : (s.fire pg b k p).latches = s.latches := rfl
@[simp] theorem fire_ticks : (s.fire pg b k p).ticks = s.ticks := rfl
@[simp] theorem fire_fabric : (s.fire pg b k p).fabric = s.fabric := rfl
@[simp] theorem fire_out : (s.fire pg b k p).out = s.out := rfl
@[simp] theorem fire_free : (s.fire pg b k p).free = s.free := rfl
@[simp] theorem fire_flt : (s.fire pg b k p).flt = s.flt := rfl
@[simp] theorem fire_ept : (s.fire pg b k p).ept = s.ept := rfl
@[simp] theorem fire_packets : (s.fire pg b k p).packets = s.packets := rfl
@[simp] theorem fire_nextId : (s.fire pg b k p).nextId = s.nextId := rfl
@[simp] theorem fire_order : (s.fire pg b k p).order = s.order := rfl
@[simp] theorem fire_wseq : (s.fire pg b k p).wseq = s.wseq := rfl
@[simp] theorem fire_trk : (s.fire pg b k p).trk = s.trk := rfl
@[simp] theorem fire_openW : (s.fire pg b k p).openW = s.openW := rfl
@[simp] theorem fire_fences : (s.fire pg b k p).fences = s.fences := rfl
@[simp] theorem fire_swb : (s.fire pg b k p).swb = s.swb := rfl
@[simp] theorem fire_resv : (s.fire pg b k p).resv = s.resv := rfl
@[simp] theorem fire_pf : (s.fire pg b k p).pf = s.pf := rfl
@[simp] theorem fire_npw : (s.fire pg b k p).npw = s.npw := rfl
@[simp] theorem fire_splits : (s.fire pg b k p).splits = s.splits := rfl
@[simp] theorem fire_parts : (s.fire pg b k p).parts = s.parts := rfl
@[simp] theorem fire_bind : (s.fire pg b k p).bind = s.bind := rfl
@[simp] theorem fire_bindHeld : (s.fire pg b k p).bindHeld = s.bindHeld := rfl
@[simp] theorem fire_insts : (s.fire pg b k p).insts = s.insts := rfl
@[simp] theorem fire_ttu : (s.fire pg b k p).ttu = s.ttu := rfl
@[simp] theorem fire_ttuHits : (s.fire pg b k p).ttuHits = s.ttuHits := rfl
@[simp] theorem fire_walks : (s.fire pg b k p).walks = s.walks := rfl
@[simp] theorem fire_inval : (s.fire pg b k p).inval = s.inval := rfl
@[simp] theorem fire_bar2 : (s.fire pg b k p).bar2 = s.bar2 := rfl
@[simp] theorem fire_hbm : (s.fire pg b k p).hbm = s.hbm := rfl
@[simp] theorem fire_regions : (s.fire pg b k p).regions = s.regions := rfl
@[simp] theorem fire_ports : (s.fire pg b k p).ports = s.ports := rfl
@[simp] theorem fire_lanes : (s.fire pg b k p).lanes = s.lanes := rfl
@[simp] theorem fire_sched : (s.fire pg b k p).sched = s.sched := rfl
@[simp] theorem fire_queues : (s.fire pg b k p).queues = s.queues := rfl
@[simp] theorem fire_prioPtr : (s.fire pg b k p).prioPtr = s.prioPtr := rfl
@[simp] theorem fire_ffl : (s.fire pg b k p).ffl = s.ffl := rfl
@[simp] theorem fire_tx : (s.fire pg b k p).tx = s.tx := rfl
@[simp] theorem fire_rx : (s.fire pg b k p).rx = s.rx := rfl
@[simp] theorem fire_frt : (s.fire pg b k p).frt = s.frt := rfl
@[simp] theorem fire_spillPtr : (s.fire pg b k p).spillPtr = s.spillPtr := rfl
@[simp] theorem fire_spillOps : (s.fire pg b k p).spillOps = s.spillOps := rfl
@[simp] theorem fire_edge : (s.fire pg b k p).edge = s.edge := rfl
@[simp] theorem fire_chans : (s.fire pg b k p).chans = s.chans := rfl
@[simp] theorem fire_engs : (s.fire pg b k p).engs = s.engs := rfl
@[simp] theorem fire_mir : (s.fire pg b k p).mir = s.mir := rfl
@[simp] theorem fire_flash : (s.fire pg b k p).flash = s.flash := rfl
@[simp] theorem fire_trust : (s.fire pg b k p).trust = s.trust := rfl
@[simp] theorem fire_age : (s.fire pg b k p).age = s.age := rfl
@[simp] theorem fire_decayAt : (s.fire pg b k p).decayAt = s.decayAt := rfl
@[simp] theorem fire_timeSample : (s.fire pg b k p).timeSample = s.timeSample := rfl
@[simp] theorem fire_mgmtUp : (s.fire pg b k p).mgmtUp = s.mgmtUp := rfl
@[simp] theorem fire_trace : (s.fire pg b k p).trace = s.trace := rfl
@[simp] theorem fire_snapAt : (s.fire pg b k p).snapAt = s.snapAt := rfl
@[simp] theorem fire_slots : (s.fire pg b k p).slots = s.slots := rfl
@[simp] theorem fire_spc : (s.fire pg b k p).spc = s.spc := rfl
@[simp] theorem fire_clk : (s.fire pg b k p).clk = s.clk := rfl
@[simp] theorem fire_pwr : (s.fire pg b k p).pwr = s.pwr := rfl
@[simp] theorem fire_boot : (s.fire pg b k p).boot = s.boot := rfl
@[simp] theorem fire_heldOut : (s.fire pg b k p).heldOut = s.heldOut := rfl
@[simp] theorem fire_listDirty : (s.fire pg b k p).listDirty = s.listDirty := rfl
end

section
variable (s : State) (a : Nat) (b : Byte)
@[simp] theorem setHbm_pending : (s.setHbm a b).pending = s.pending := rfl
@[simp] theorem setHbm_regs : (s.setHbm a b).regs = s.regs := rfl
@[simp] theorem setHbm_heldRegs : (s.setHbm a b).heldRegs = s.heldRegs := rfl
@[simp] theorem setHbm_latches : (s.setHbm a b).latches = s.latches := rfl
@[simp] theorem setHbm_ticks : (s.setHbm a b).ticks = s.ticks := rfl
@[simp] theorem setHbm_fabric : (s.setHbm a b).fabric = s.fabric := rfl
@[simp] theorem setHbm_out : (s.setHbm a b).out = s.out := rfl
@[simp] theorem setHbm_free : (s.setHbm a b).free = s.free := rfl
@[simp] theorem setHbm_firing : (s.setHbm a b).firing = s.firing := rfl
@[simp] theorem setHbm_flt : (s.setHbm a b).flt = s.flt := rfl
@[simp] theorem setHbm_ept : (s.setHbm a b).ept = s.ept := rfl
@[simp] theorem setHbm_packets : (s.setHbm a b).packets = s.packets := rfl
@[simp] theorem setHbm_nextId : (s.setHbm a b).nextId = s.nextId := rfl
@[simp] theorem setHbm_order : (s.setHbm a b).order = s.order := rfl
@[simp] theorem setHbm_wseq : (s.setHbm a b).wseq = s.wseq := rfl
@[simp] theorem setHbm_trk : (s.setHbm a b).trk = s.trk := rfl
@[simp] theorem setHbm_openW : (s.setHbm a b).openW = s.openW := rfl
@[simp] theorem setHbm_fences : (s.setHbm a b).fences = s.fences := rfl
@[simp] theorem setHbm_swb : (s.setHbm a b).swb = s.swb := rfl
@[simp] theorem setHbm_resv : (s.setHbm a b).resv = s.resv := rfl
@[simp] theorem setHbm_pf : (s.setHbm a b).pf = s.pf := rfl
@[simp] theorem setHbm_npw : (s.setHbm a b).npw = s.npw := rfl
@[simp] theorem setHbm_splits : (s.setHbm a b).splits = s.splits := rfl
@[simp] theorem setHbm_parts : (s.setHbm a b).parts = s.parts := rfl
@[simp] theorem setHbm_bind : (s.setHbm a b).bind = s.bind := rfl
@[simp] theorem setHbm_bindHeld : (s.setHbm a b).bindHeld = s.bindHeld := rfl
@[simp] theorem setHbm_insts : (s.setHbm a b).insts = s.insts := rfl
@[simp] theorem setHbm_ttu : (s.setHbm a b).ttu = s.ttu := rfl
@[simp] theorem setHbm_ttuHits : (s.setHbm a b).ttuHits = s.ttuHits := rfl
@[simp] theorem setHbm_walks : (s.setHbm a b).walks = s.walks := rfl
@[simp] theorem setHbm_inval : (s.setHbm a b).inval = s.inval := rfl
@[simp] theorem setHbm_bar2 : (s.setHbm a b).bar2 = s.bar2 := rfl
@[simp] theorem setHbm_regions : (s.setHbm a b).regions = s.regions := rfl
@[simp] theorem setHbm_ports : (s.setHbm a b).ports = s.ports := rfl
@[simp] theorem setHbm_lanes : (s.setHbm a b).lanes = s.lanes := rfl
@[simp] theorem setHbm_sched : (s.setHbm a b).sched = s.sched := rfl
@[simp] theorem setHbm_queues : (s.setHbm a b).queues = s.queues := rfl
@[simp] theorem setHbm_prioPtr : (s.setHbm a b).prioPtr = s.prioPtr := rfl
@[simp] theorem setHbm_ffl : (s.setHbm a b).ffl = s.ffl := rfl
@[simp] theorem setHbm_tx : (s.setHbm a b).tx = s.tx := rfl
@[simp] theorem setHbm_rx : (s.setHbm a b).rx = s.rx := rfl
@[simp] theorem setHbm_frt : (s.setHbm a b).frt = s.frt := rfl
@[simp] theorem setHbm_spillPtr : (s.setHbm a b).spillPtr = s.spillPtr := rfl
@[simp] theorem setHbm_spillOps : (s.setHbm a b).spillOps = s.spillOps := rfl
@[simp] theorem setHbm_edge : (s.setHbm a b).edge = s.edge := rfl
@[simp] theorem setHbm_chans : (s.setHbm a b).chans = s.chans := rfl
@[simp] theorem setHbm_engs : (s.setHbm a b).engs = s.engs := rfl
@[simp] theorem setHbm_mir : (s.setHbm a b).mir = s.mir := rfl
@[simp] theorem setHbm_flash : (s.setHbm a b).flash = s.flash := rfl
@[simp] theorem setHbm_trust : (s.setHbm a b).trust = s.trust := rfl
@[simp] theorem setHbm_age : (s.setHbm a b).age = s.age := rfl
@[simp] theorem setHbm_decayAt : (s.setHbm a b).decayAt = s.decayAt := rfl
@[simp] theorem setHbm_timeSample : (s.setHbm a b).timeSample = s.timeSample := rfl
@[simp] theorem setHbm_mgmtUp : (s.setHbm a b).mgmtUp = s.mgmtUp := rfl
@[simp] theorem setHbm_trace : (s.setHbm a b).trace = s.trace := rfl
@[simp] theorem setHbm_snapAt : (s.setHbm a b).snapAt = s.snapAt := rfl
@[simp] theorem setHbm_slots : (s.setHbm a b).slots = s.slots := rfl
@[simp] theorem setHbm_spc : (s.setHbm a b).spc = s.spc := rfl
@[simp] theorem setHbm_clk : (s.setHbm a b).clk = s.clk := rfl
@[simp] theorem setHbm_pwr : (s.setHbm a b).pwr = s.pwr := rfl
@[simp] theorem setHbm_boot : (s.setHbm a b).boot = s.boot := rfl
@[simp] theorem setHbm_heldOut : (s.setHbm a b).heldOut = s.heldOut := rfl
@[simp] theorem setHbm_listDirty : (s.setHbm a b).listDirty = s.listDirty := rfl
end

section
variable (s : State) (a b c e : Nat)
@[simp] theorem traceOut_pending : (s.traceOut a b c e).pending = s.pending := rfl
@[simp] theorem traceOut_regs : (s.traceOut a b c e).regs = s.regs := rfl
@[simp] theorem traceOut_heldRegs : (s.traceOut a b c e).heldRegs = s.heldRegs := rfl
@[simp] theorem traceOut_latches : (s.traceOut a b c e).latches = s.latches := rfl
@[simp] theorem traceOut_ticks : (s.traceOut a b c e).ticks = s.ticks := rfl
@[simp] theorem traceOut_fabric : (s.traceOut a b c e).fabric = s.fabric := rfl
@[simp] theorem traceOut_out : (s.traceOut a b c e).out = s.out := rfl
@[simp] theorem traceOut_free : (s.traceOut a b c e).free = s.free := rfl
@[simp] theorem traceOut_firing : (s.traceOut a b c e).firing = s.firing := rfl
@[simp] theorem traceOut_flt : (s.traceOut a b c e).flt = s.flt := rfl
@[simp] theorem traceOut_ept : (s.traceOut a b c e).ept = s.ept := rfl
@[simp] theorem traceOut_packets : (s.traceOut a b c e).packets = s.packets := rfl
@[simp] theorem traceOut_nextId : (s.traceOut a b c e).nextId = s.nextId := rfl
@[simp] theorem traceOut_order : (s.traceOut a b c e).order = s.order := rfl
@[simp] theorem traceOut_wseq : (s.traceOut a b c e).wseq = s.wseq := rfl
@[simp] theorem traceOut_trk : (s.traceOut a b c e).trk = s.trk := rfl
@[simp] theorem traceOut_openW : (s.traceOut a b c e).openW = s.openW := rfl
@[simp] theorem traceOut_fences : (s.traceOut a b c e).fences = s.fences := rfl
@[simp] theorem traceOut_swb : (s.traceOut a b c e).swb = s.swb := rfl
@[simp] theorem traceOut_resv : (s.traceOut a b c e).resv = s.resv := rfl
@[simp] theorem traceOut_pf : (s.traceOut a b c e).pf = s.pf := rfl
@[simp] theorem traceOut_npw : (s.traceOut a b c e).npw = s.npw := rfl
@[simp] theorem traceOut_splits : (s.traceOut a b c e).splits = s.splits := rfl
@[simp] theorem traceOut_parts : (s.traceOut a b c e).parts = s.parts := rfl
@[simp] theorem traceOut_bind : (s.traceOut a b c e).bind = s.bind := rfl
@[simp] theorem traceOut_bindHeld : (s.traceOut a b c e).bindHeld = s.bindHeld := rfl
@[simp] theorem traceOut_insts : (s.traceOut a b c e).insts = s.insts := rfl
@[simp] theorem traceOut_ttu : (s.traceOut a b c e).ttu = s.ttu := rfl
@[simp] theorem traceOut_ttuHits : (s.traceOut a b c e).ttuHits = s.ttuHits := rfl
@[simp] theorem traceOut_walks : (s.traceOut a b c e).walks = s.walks := rfl
@[simp] theorem traceOut_inval : (s.traceOut a b c e).inval = s.inval := rfl
@[simp] theorem traceOut_bar2 : (s.traceOut a b c e).bar2 = s.bar2 := rfl
@[simp] theorem traceOut_hbm : (s.traceOut a b c e).hbm = s.hbm := rfl
@[simp] theorem traceOut_regions : (s.traceOut a b c e).regions = s.regions := rfl
@[simp] theorem traceOut_ports : (s.traceOut a b c e).ports = s.ports := rfl
@[simp] theorem traceOut_lanes : (s.traceOut a b c e).lanes = s.lanes := rfl
@[simp] theorem traceOut_sched : (s.traceOut a b c e).sched = s.sched := rfl
@[simp] theorem traceOut_queues : (s.traceOut a b c e).queues = s.queues := rfl
@[simp] theorem traceOut_prioPtr : (s.traceOut a b c e).prioPtr = s.prioPtr := rfl
@[simp] theorem traceOut_ffl : (s.traceOut a b c e).ffl = s.ffl := rfl
@[simp] theorem traceOut_tx : (s.traceOut a b c e).tx = s.tx := rfl
@[simp] theorem traceOut_rx : (s.traceOut a b c e).rx = s.rx := rfl
@[simp] theorem traceOut_frt : (s.traceOut a b c e).frt = s.frt := rfl
@[simp] theorem traceOut_spillPtr : (s.traceOut a b c e).spillPtr = s.spillPtr := rfl
@[simp] theorem traceOut_spillOps : (s.traceOut a b c e).spillOps = s.spillOps := rfl
@[simp] theorem traceOut_edge : (s.traceOut a b c e).edge = s.edge := rfl
@[simp] theorem traceOut_chans : (s.traceOut a b c e).chans = s.chans := rfl
@[simp] theorem traceOut_engs : (s.traceOut a b c e).engs = s.engs := rfl
@[simp] theorem traceOut_mir : (s.traceOut a b c e).mir = s.mir := rfl
@[simp] theorem traceOut_flash : (s.traceOut a b c e).flash = s.flash := rfl
@[simp] theorem traceOut_trust : (s.traceOut a b c e).trust = s.trust := rfl
@[simp] theorem traceOut_age : (s.traceOut a b c e).age = s.age := rfl
@[simp] theorem traceOut_decayAt : (s.traceOut a b c e).decayAt = s.decayAt := rfl
@[simp] theorem traceOut_timeSample : (s.traceOut a b c e).timeSample = s.timeSample := rfl
@[simp] theorem traceOut_mgmtUp : (s.traceOut a b c e).mgmtUp = s.mgmtUp := rfl
@[simp] theorem traceOut_snapAt : (s.traceOut a b c e).snapAt = s.snapAt := rfl
@[simp] theorem traceOut_slots : (s.traceOut a b c e).slots = s.slots := rfl
@[simp] theorem traceOut_spc : (s.traceOut a b c e).spc = s.spc := rfl
@[simp] theorem traceOut_clk : (s.traceOut a b c e).clk = s.clk := rfl
@[simp] theorem traceOut_pwr : (s.traceOut a b c e).pwr = s.pwr := rfl
@[simp] theorem traceOut_boot : (s.traceOut a b c e).boot = s.boot := rfl
@[simp] theorem traceOut_heldOut : (s.traceOut a b c e).heldOut = s.heldOut := rfl
@[simp] theorem traceOut_listDirty : (s.traceOut a b c e).listDirty = s.listDirty := rfl
end

section
variable (s : State)
@[simp] theorem sweepTrace_pending : (s.sweepTrace).pending = s.pending := rfl
@[simp] theorem sweepTrace_regs : (s.sweepTrace).regs = s.regs := rfl
@[simp] theorem sweepTrace_heldRegs : (s.sweepTrace).heldRegs = s.heldRegs := rfl
@[simp] theorem sweepTrace_latches : (s.sweepTrace).latches = s.latches := rfl
@[simp] theorem sweepTrace_ticks : (s.sweepTrace).ticks = s.ticks := rfl
@[simp] theorem sweepTrace_fabric : (s.sweepTrace).fabric = s.fabric := rfl
@[simp] theorem sweepTrace_out : (s.sweepTrace).out = s.out := rfl
@[simp] theorem sweepTrace_free : (s.sweepTrace).free = s.free := rfl
@[simp] theorem sweepTrace_firing : (s.sweepTrace).firing = s.firing := rfl
@[simp] theorem sweepTrace_flt : (s.sweepTrace).flt = s.flt := rfl
@[simp] theorem sweepTrace_ept : (s.sweepTrace).ept = s.ept := rfl
@[simp] theorem sweepTrace_packets : (s.sweepTrace).packets = s.packets := rfl
@[simp] theorem sweepTrace_nextId : (s.sweepTrace).nextId = s.nextId := rfl
@[simp] theorem sweepTrace_order : (s.sweepTrace).order = s.order := rfl
@[simp] theorem sweepTrace_wseq : (s.sweepTrace).wseq = s.wseq := rfl
@[simp] theorem sweepTrace_trk : (s.sweepTrace).trk = s.trk := rfl
@[simp] theorem sweepTrace_openW : (s.sweepTrace).openW = s.openW := rfl
@[simp] theorem sweepTrace_fences : (s.sweepTrace).fences = s.fences := rfl
@[simp] theorem sweepTrace_swb : (s.sweepTrace).swb = s.swb := rfl
@[simp] theorem sweepTrace_resv : (s.sweepTrace).resv = s.resv := rfl
@[simp] theorem sweepTrace_pf : (s.sweepTrace).pf = s.pf := rfl
@[simp] theorem sweepTrace_npw : (s.sweepTrace).npw = s.npw := rfl
@[simp] theorem sweepTrace_splits : (s.sweepTrace).splits = s.splits := rfl
@[simp] theorem sweepTrace_parts : (s.sweepTrace).parts = s.parts := rfl
@[simp] theorem sweepTrace_bind : (s.sweepTrace).bind = s.bind := rfl
@[simp] theorem sweepTrace_bindHeld : (s.sweepTrace).bindHeld = s.bindHeld := rfl
@[simp] theorem sweepTrace_insts : (s.sweepTrace).insts = s.insts := rfl
@[simp] theorem sweepTrace_ttu : (s.sweepTrace).ttu = s.ttu := rfl
@[simp] theorem sweepTrace_ttuHits : (s.sweepTrace).ttuHits = s.ttuHits := rfl
@[simp] theorem sweepTrace_walks : (s.sweepTrace).walks = s.walks := rfl
@[simp] theorem sweepTrace_inval : (s.sweepTrace).inval = s.inval := rfl
@[simp] theorem sweepTrace_bar2 : (s.sweepTrace).bar2 = s.bar2 := rfl
@[simp] theorem sweepTrace_hbm : (s.sweepTrace).hbm = s.hbm := rfl
@[simp] theorem sweepTrace_regions : (s.sweepTrace).regions = s.regions := rfl
@[simp] theorem sweepTrace_ports : (s.sweepTrace).ports = s.ports := rfl
@[simp] theorem sweepTrace_lanes : (s.sweepTrace).lanes = s.lanes := rfl
@[simp] theorem sweepTrace_sched : (s.sweepTrace).sched = s.sched := rfl
@[simp] theorem sweepTrace_queues : (s.sweepTrace).queues = s.queues := rfl
@[simp] theorem sweepTrace_prioPtr : (s.sweepTrace).prioPtr = s.prioPtr := rfl
@[simp] theorem sweepTrace_ffl : (s.sweepTrace).ffl = s.ffl := rfl
@[simp] theorem sweepTrace_tx : (s.sweepTrace).tx = s.tx := rfl
@[simp] theorem sweepTrace_rx : (s.sweepTrace).rx = s.rx := rfl
@[simp] theorem sweepTrace_frt : (s.sweepTrace).frt = s.frt := rfl
@[simp] theorem sweepTrace_spillPtr : (s.sweepTrace).spillPtr = s.spillPtr := rfl
@[simp] theorem sweepTrace_spillOps : (s.sweepTrace).spillOps = s.spillOps := rfl
@[simp] theorem sweepTrace_edge : (s.sweepTrace).edge = s.edge := rfl
@[simp] theorem sweepTrace_chans : (s.sweepTrace).chans = s.chans := rfl
@[simp] theorem sweepTrace_engs : (s.sweepTrace).engs = s.engs := rfl
@[simp] theorem sweepTrace_mir : (s.sweepTrace).mir = s.mir := rfl
@[simp] theorem sweepTrace_flash : (s.sweepTrace).flash = s.flash := rfl
@[simp] theorem sweepTrace_trust : (s.sweepTrace).trust = s.trust := rfl
@[simp] theorem sweepTrace_age : (s.sweepTrace).age = s.age := rfl
@[simp] theorem sweepTrace_decayAt : (s.sweepTrace).decayAt = s.decayAt := rfl
@[simp] theorem sweepTrace_timeSample : (s.sweepTrace).timeSample = s.timeSample := rfl
@[simp] theorem sweepTrace_mgmtUp : (s.sweepTrace).mgmtUp = s.mgmtUp := rfl
@[simp] theorem sweepTrace_snapAt : (s.sweepTrace).snapAt = s.snapAt := rfl
@[simp] theorem sweepTrace_slots : (s.sweepTrace).slots = s.slots := rfl
@[simp] theorem sweepTrace_spc : (s.sweepTrace).spc = s.spc := rfl
@[simp] theorem sweepTrace_clk : (s.sweepTrace).clk = s.clk := rfl
@[simp] theorem sweepTrace_pwr : (s.sweepTrace).pwr = s.pwr := rfl
@[simp] theorem sweepTrace_boot : (s.sweepTrace).boot = s.boot := rfl
@[simp] theorem sweepTrace_heldOut : (s.sweepTrace).heldOut = s.heldOut := rfl
@[simp] theorem sweepTrace_listDirty : (s.sweepTrace).listDirty = s.listDirty := rfl
end

end Sys2Proof.Machine.State
end

