-- ==== Sys2Proof/Laws/Store.lean ====
section
/-! SUPPORT. Laws of the sparse stores: a read after a write, and that every write keeps the canonical form. -/

namespace Sys2Proof.Laws

open Sys2Proof.Machine

variable {α : Type} (d : Nat → α)

theorem storeGet_erase_self (m : Store α) (k : Nat) : storeGet d (storeErase m k) k = d k := by
  induction m with
  | nil => rfl
  | cons e r ih =>
    obtain ⟨j, v⟩ := e
    by_cases h : j = k
    · simpa [storeErase, h] using ih
    · simpa [storeErase, h, storeGet] using ih

theorem storeGet_erase_other (m : Store α) {k j : Nat} (hj : j ≠ k) :
    storeGet d (storeErase m k) j = storeGet d m j := by
  induction m with
  | nil => rfl
  | cons e r ih =>
    obtain ⟨i, v⟩ := e
    by_cases h : i = k
    · have hi : i ≠ j := fun e => hj (by omega)
      simpa [storeErase, h, storeGet, h ▸ hi] using ih
    · by_cases hi : i = j
      · simp [storeErase, storeGet, hi, hj]
      · simpa [storeErase, h, storeGet, hi] using ih

theorem storeGet_insert_self (m : Store α) (k : Nat) (x : α) : storeGet d (storeInsert m k x) k = x := by
  induction m with
  | nil => simp [storeInsert, storeGet]
  | cons e r ih =>
    obtain ⟨j, v⟩ := e
    simp only [storeInsert]
    split
    · simp [storeGet]
    · split
      · simp [storeGet]
      · simp [storeGet, *]

theorem storeGet_insert_other (m : Store α) {k j : Nat} (x : α) (hj : j ≠ k) :
    storeGet d (storeInsert m k x) j = storeGet d m j := by
  induction m with
  | nil => simp [storeInsert, storeGet, hj.symm]
  | cons e r ih =>
    obtain ⟨i, v⟩ := e
    simp only [storeInsert]
    split
    · subst_vars; simp [storeGet, hj.symm]
    · split
      · simp [storeGet, hj.symm]
      · simp [storeGet, ih]

theorem mem_storeInsert {m : Store α} {k : Nat} {x : α} {e : Nat × α} (h : e ∈ storeInsert m k x) :
    e = (k, x) ∨ e ∈ m := by
  induction m with
  | nil => simpa [storeInsert] using h
  | cons f r ih =>
    obtain ⟨j, v⟩ := f
    simp only [storeInsert] at h
    split at h
    · rcases List.mem_cons.1 h with h | h
      · exact .inl h
      · exact .inr (List.mem_cons_of_mem _ h)
    · split at h
      · rcases List.mem_cons.1 h with h | h
        · exact .inl h
        · exact .inr h
      · rcases List.mem_cons.1 h with h | h
        · exact .inr (h ▸ List.mem_cons_self)
        · exact (ih h).imp_right (List.mem_cons_of_mem _)

variable [DecidableEq α]

/-- A read of the key just written gives the value written. -/
@[simp] theorem storeGet_set_self (m : Store α) (k : Nat) (x : α) : storeGet d (storeSet d m k x) k = x := by
  unfold storeSet
  split
  · rw [storeGet_erase_self]; exact Eq.symm ‹_›
  · exact storeGet_insert_self d m k x

/-- A write leaves every other key alone. -/
theorem storeGet_set_other (m : Store α) {k j : Nat} (x : α) (hj : j ≠ k) :
    storeGet d (storeSet d m k x) j = storeGet d m j := by
  unfold storeSet
  split
  · exact storeGet_erase_other d m hj
  · exact storeGet_insert_other d m x hj

/-- Both read laws at once. -/
theorem storeGet_set (m : Store α) (k j : Nat) (x : α) :
    storeGet d (storeSet d m k x) j = if j = k then x else storeGet d m j := by
  split
  · subst_vars; exact storeGet_set_self d m _ x
  · exact storeGet_set_other d m x ‹_›

/-! ## Canonical form -/

/-- Canonical form, said by elements: keys rise, and no entry equals its default. -/
theorem storeWf_cons (j : Nat) (v : α) (r : Store α) :
    storeWf d ((j, v) :: r) = true ↔ v ≠ d j ∧ (∀ e ∈ r, j < e.1) ∧ storeWf d r = true := by
  induction r generalizing j v with
  | nil => simp [storeWf]
  | cons e r ih =>
    obtain ⟨k, w⟩ := e
    simp only [storeWf, Bool.and_eq_true, decide_eq_true_eq, ih, List.mem_cons, forall_eq_or_imp]
    constructor
    · rintro ⟨⟨h1, h2⟩, h3, h4, h5⟩
      exact ⟨h1, ⟨h2, fun e he => Nat.lt_trans h2 (h4 e he)⟩, h3, h4, h5⟩
    · rintro ⟨h1, ⟨h2, _⟩, h3⟩
      exact ⟨⟨h1, h2⟩, h3⟩

theorem storeWf_erase {m : Store α} (k : Nat) (h : storeWf d m = true) : storeWf d (storeErase m k) = true := by
  induction m with
  | nil => rfl
  | cons e r ih =>
    obtain ⟨j, v⟩ := e
    obtain ⟨h1, h2, h3⟩ := (storeWf_cons d j v r).1 h
    by_cases hj : j = k
    · simpa [storeErase, hj] using ih h3
    · have : storeErase ((j, v) :: r) k = (j, v) :: storeErase r k := by simp [storeErase, hj]
      rw [this, storeWf_cons]
      refine ⟨h1, fun e he => h2 e ?_, ih h3⟩
      exact List.mem_of_mem_filter he

theorem storeWf_insert {m : Store α} {k : Nat} {x : α} (hx : x ≠ d k) (h : storeWf d m = true) :
    storeWf d (storeInsert m k x) = true := by
  induction m with
  | nil => simpa [storeInsert, storeWf] using hx
  | cons e r ih =>
    obtain ⟨j, v⟩ := e
    obtain ⟨h1, h2, h3⟩ := (storeWf_cons d j v r).1 h
    simp only [storeInsert]
    split
    · subst_vars; exact (storeWf_cons d _ x r).2 ⟨hx, h2, h3⟩
    · split
      · refine (storeWf_cons d k x _).2 ⟨hx, fun e he => ?_, h⟩
        rcases List.mem_cons.1 he with he | he
        · subst he; assumption
        · exact Nat.lt_trans ‹k < j› (h2 e he)
      · refine (storeWf_cons d j v _).2 ⟨h1, fun e he => ?_, ih h3⟩
        rcases mem_storeInsert he with he | he
        · subst he; show j < k; omega
        · exact h2 e he

/-- Every write keeps the canonical form. -/
theorem storeWf_set {m : Store α} (k : Nat) (x : α) (h : storeWf d m = true) :
    storeWf d (storeSet d m k x) = true := by
  unfold storeSet
  split
  · exact storeWf_erase d k h
  · exact storeWf_insert d ‹_› h

end Sys2Proof.Laws
end

