-- ==== Sys2Proof/Laws/Regs.lean ====
section
/-! SUPPORT. Laws of the register file and of the fields of a register, and of the records kept in stores. -/

namespace Sys2Proof.Laws

open Sys2Proof.Machine

/-! ## Bits -/

theorem testBit_bitsOf (v : Dword) (hi lo i : Nat) :
    (bitsOf v hi lo).testBit i = (decide (i < hi + 1 - lo) && v.getLsbD (lo + i)) := by
  simp [bitsOf, Nat.testBit_mod_two_pow, Nat.testBit_shiftRight, BitVec.getLsbD]

theorem getLsbD_bitsPut (v : Dword) (hi lo x j : Nat) :
    (bitsPut v hi lo x).getLsbD j =
      if lo ≤ j ∧ j ≤ hi ∧ j < 64 then x.testBit (j - lo) else v.getLsbD j := by
  simp only [bitsPut, BitVec.getLsbD_or, BitVec.getLsbD_and, BitVec.getLsbD_not, BitVec.getLsbD_shiftLeft,
    BitVec.getLsbD_ofNat, Nat.testBit_two_pow_sub_one]
  by_cases h : j < 64
  · by_cases h1 : lo ≤ j
    · by_cases h2 : j ≤ hi
      · have : j - lo < hi + 1 - lo := by omega
        have h3 : j - lo < 64 := by omega
        have h4 : ¬ j < lo := by omega
        simp [h, h1, h2, h3, h4, this]
      · have : ¬ j - lo < hi + 1 - lo := by omega
        simp [h, h2, this]
    · have : j < lo := by omega
      simp [h, h1, this]
  · have : v.getLsbD j = false := BitVec.getLsbD_of_ge v j (by omega)
    simp [h, this]

/-- A field read after it is written gives the low bits of what was written. -/
theorem bitsOf_bitsPut_self (v : Dword) {hi lo : Nat} (x : Nat) (h : hi < 64) :
    bitsOf (bitsPut v hi lo x) hi lo = x % 2 ^ (hi + 1 - lo) := by
  apply Nat.eq_of_testBit_eq
  intro i
  rw [testBit_bitsOf, getLsbD_bitsPut, Nat.testBit_mod_two_pow]
  by_cases hi' : i < hi + 1 - lo
  · have : lo ≤ lo + i ∧ lo + i ≤ hi ∧ lo + i < 64 := by omega
    simp [hi', this]
  · simp [hi']

/-- A field that shares no bit with the one written keeps its value. -/
theorem bitsOf_bitsPut_other (v : Dword) {hi lo hi' lo' : Nat} (x : Nat) (h : hi < lo' ∨ hi' < lo) :
    bitsOf (bitsPut v hi lo x) hi' lo' = bitsOf v hi' lo' := by
  apply Nat.eq_of_testBit_eq
  intro i
  rw [testBit_bitsOf, testBit_bitsOf, getLsbD_bitsPut]
  by_cases hi' : i < hi' + 1 - lo'
  · have : ¬ (lo ≤ lo' + i ∧ lo' + i ≤ hi ∧ lo' + i < 64) := by omega
    simp [this]
  · simp [hi']

/-! ## Registers -/

variable (s : State)

theorem reg_setReg (k j : Nat) (v : Dword) : (s.setReg k v).reg j = if j = k then v else s.reg j :=
  storeGet_set regReset s.regs k j v

theorem reg_setF (pg : Nat) (f : FRef) (v i j : Nat) :
    (s.setF pg f v i).reg j =
      if j = State.fkey pg f i then bitsPut (s.reg (State.fkey pg f i)) f.hi f.lo v else s.reg j :=
  reg_setReg s _ j _

theorem getF_setF_self (pg : Nat) (f : FRef) (v i : Nat) (h : f.hi < 64) :
    (s.setF pg f v i).getF pg f i = v % 2 ^ (f.hi + 1 - f.lo) := by
  rw [State.getF, reg_setF, if_pos rfl, bitsOf_bitsPut_self _ _ h]

/-- A field of another register, or of other bits of the same register, keeps its value. -/
theorem getF_setF_other (pg pg' : Nat) (f f' : FRef) (v i i' : Nat)
    (h : State.fkey pg' f' i' ≠ State.fkey pg f i ∨ f.hi < f'.lo ∨ f'.hi < f.lo) :
    (s.setF pg f v i).getF pg' f' i' = s.getF pg' f' i' := by
  rw [State.getF, State.getF, reg_setF]
  split
  · rcases h with h | h
    · exact absurd ‹_› h
    · rw [bitsOf_bitsPut_other _ _ h, ‹State.fkey pg' f' i' = _›]
  · rfl

/-- The page and the offset of a register key, for a register inside its page. -/
theorem fkey_page (pg : Nat) (f : FRef) (i : Nat) (h : f.off + f.stride * i < 4096) :
    State.fkey pg f i / 4096 = pg ∧ State.fkey pg f i % 4096 = f.off + f.stride * i := by
  unfold State.fkey; omega

/-! ## Records kept in stores -/

@[simp] theorem port_modPort_self (p : Nat) (g : PortSt → PortSt) : (s.modPort p g).port p = g (s.port p) :=
  storeGet_set_self _ _ _ _
theorem port_modPort_other {p q : Nat} (g : PortSt → PortSt) (h : q ≠ p) : (s.modPort p g).port q = s.port q :=
  storeGet_set_other _ _ _ h
@[simp] theorem part_modPart_self (k : Nat) (g : PartSt → PartSt) : (s.modPart k g).part k = g (s.part k) :=
  storeGet_set_self _ _ _ _
theorem part_modPart_other {k j : Nat} (g : PartSt → PartSt) (h : j ≠ k) : (s.modPart k g).part j = s.part j :=
  storeGet_set_other _ _ _ h
@[simp] theorem fflSt_modFfl_self (p : Nat) (g : FflSt → FflSt) : (s.modFfl p g).fflSt p = g (s.fflSt p) :=
  storeGet_set_self _ _ _ _
theorem fflSt_modFfl_other {p q : Nat} (g : FflSt → FflSt) (h : q ≠ p) : (s.modFfl p g).fflSt q = s.fflSt q :=
  storeGet_set_other _ _ _ h
@[simp] theorem inst_modInst_self (p : Nat) (g : InstSt → InstSt) : (s.modInst p g).inst p = g (s.inst p) :=
  storeGet_set_self _ _ _ _
theorem inst_modInst_other {p q : Nat} (g : InstSt → InstSt) (h : q ≠ p) : (s.modInst p g).inst q = s.inst q :=
  storeGet_set_other _ _ _ h
@[simp] theorem lane_modLane_self (p : Nat) (g : LaneSt → LaneSt) : (s.modLane p g).lane p = g (s.lane p) :=
  storeGet_set_self _ _ _ _
theorem lane_modLane_other {p q : Nat} (g : LaneSt → LaneSt) (h : q ≠ p) : (s.modLane p g).lane q = s.lane q :=
  storeGet_set_other _ _ _ h
@[simp] theorem queue_modQueue_self (p : Nat) (g : QueueSt → QueueSt) : (s.modQueue p g).queue p = g (s.queue p) :=
  storeGet_set_self _ _ _ _
theorem queue_modQueue_other {p q : Nat} (g : QueueSt → QueueSt) (h : q ≠ p) : (s.modQueue p g).queue q = s.queue q :=
  storeGet_set_other _ _ _ h
@[simp] theorem slot_modSlot_self (p : Nat) (g : SlotSt → SlotSt) : (s.modSlot p g).slot p = g (s.slot p) :=
  storeGet_set_self _ _ _ _
theorem slot_modSlot_other {p q : Nat} (g : SlotSt → SlotSt) (h : q ≠ p) : (s.modSlot p g).slot q = s.slot q :=
  storeGet_set_other _ _ _ h
@[simp] theorem part_emit (o : Output) (k : Nat) : (s.emit o).part k = s.part k := rfl
@[simp] theorem reg_emit (o : Output) (k : Nat) : (s.emit o).reg k = s.reg k := rfl

/-! ## HBM -/

theorem hbmByte_setHbm (a c : Nat) (b : Byte) : (s.setHbm a b).hbmByte c = if c = a then b else s.hbmByte c :=
  storeGet_set _ _ _ _ _

theorem hbm_wf_setHbm (a : Nat) (b : Byte) (h : Memory.wf 0 s.hbm = true) : Memory.wf 0 (s.setHbm a b).hbm = true :=
  storeWf_set _ a b h

theorem hbm_wf_reset : Memory.wf 0 State.reset.hbm = true := rfl

theorem regs_wf_setReg (k : Nat) (v : Dword) (h : storeWf regReset s.regs = true) :
    storeWf regReset (s.setReg k v).regs = true := storeWf_set _ k v h

end Sys2Proof.Laws
end

