-- ==== Sys2Proof/Laws/Settle.lean ====
section
/-! SUPPORT. The end of a command's cycle: what the fault collector and the close of samples change, said once. -/

namespace Sys2Proof.Laws

open Sys2Proof.Machine

/-- What the collector never touches: the state with the parts that it may change made equal. -/
def rest (s : State) : State :=
  { s with regs := [], parts := [], out := [], flt := ⟨[], 0, [], [], [], [], none⟩, mir := MirSt.init, packets := [], spillOps := [],
           queues := [], tx := [], firing := [], heldOut := [] }

/-- A step of the collector: nothing but those parts changes, and no firing is added. -/
def Kept (s t : State) : Prop := rest t = rest s ∧ t.firing = s.firing

theorem Kept.refl (s : State) : Kept s s := ⟨rfl, rfl⟩
theorem Kept.trans {a b c : State} (h : Kept a b) (g : Kept b c) : Kept a c := ⟨g.1.trans h.1, g.2.trans h.2⟩

theorem Kept.onlyIf {s t : State} {b : Bool} {f : State → State} (h : Kept s t) (hf : Kept t (f t)) : Kept s (t.onlyIf b f) := by
  cases b
  · exact h
  · exact h.trans hf

theorem Kept.each {α : Type} (l : List α) {f : State → α → State} (hf : ∀ t x, Kept t (f t x)) (s : State) :
    Kept s (s.each l f) := by
  induction l generalizing s with
  | nil => exact .refl s
  | cons x r ih => exact (hf s x).trans (ih (f s x))

theorem kept_setF (s : State) (pg : Nat) (f : FRef) (v i : Nat) : Kept s (s.setF pg f v i) := ⟨rfl, rfl⟩

theorem kept_emitHost (s : State) (k : Nat) (l : List Output) : Kept s (s.emitHost k l) := by
  unfold State.emitHost; repeat' split
  all_goals exact ⟨rfl, rfl⟩

theorem kept_flt (s : State) (x : FltSt) : Kept s { s with flt := x } := ⟨rfl, rfl⟩

theorem kept_sendMsix (s : State) (k v : Nat) : Kept s (s.sendMsix k v) := by
  unfold State.sendMsix; repeat' split
  · exact .refl s
  · exact ⟨rfl, rfl⟩
  · exact kept_emitHost ..

theorem kept_unpend (s : State) (k v : Nat) : Kept s (s.unpend k v) := by
  unfold State.unpend; dsimp only; split <;> exact ⟨rfl, rfl⟩

theorem kept_raiseInt (s : State) (pg b : Nat) : Kept s (s.raiseInt pg b) := by
  unfold State.raiseInt State.withIntPend
  simp only
  split
  · exact (kept_setF ..).trans (kept_sendMsix ..)
  split
  · exact (kept_setF ..).trans (kept_unpend ..)
  · exact kept_setF ..

theorem kept_sendAer (s : State) (k n : Nat) : Kept s (s.sendAer k n) := by
  unfold State.sendAer
  split
  · exact .refl s
  extract_lets masked s1 recent s2
  have h1 : Kept s s1 := ⟨rfl, rfl⟩
  clear_value s1
  split
  · exact h1
  · exact (h1.trans (kept_emitHost ..)).trans (kept_flt ..)

theorem kept_stopChannel (s : State) (ch : Nat) : Kept s (s.stopChannel ch) := by
  unfold State.stopChannel
  repeat' (first | split | simp only)
  all_goals exact ⟨rfl, rfl⟩

theorem kept_enterPartFatal (s : State) (k : Nat) : Kept s (s.enterPartFatal k) :=
  (kept_setF ..).trans (.each _ (fun t ch => kept_stopChannel t ch) _)

theorem kept_mirFatal (s : State) : Kept s s.mirFatal := by
  unfold State.mirFatal
  exact Kept.trans ((Kept.refl s).onlyIf ⟨rfl, rfl⟩) ⟨rfl, rfl⟩

theorem kept_enterDevFatal (s : State) : Kept s s.enterDevFatal := by
  have h : Kept s (((s.setFlag pgFLT FLT_STATE.DEV_FATAL true).each (s.setFlag pgFLT FLT_STATE.DEV_FATAL true).busyChannels
      fun t ch => t.stopChannel ch).mirFatal) :=
    ((kept_setF ..).trans (.each _ (fun t ch => kept_stopChannel t ch) _)).trans (kept_mirFatal _)
  exact h.trans ⟨rfl, rfl⟩

theorem kept_fatalAct (s : State) (ks : List Nat) (b : Bool) :
    Kept s (((s.each ks fun t k => (t.sendAer k 2).enterPartFatal k).raiseInt pgFLT 1).onlyIf b fun t => t.raiseInt pgFLT 16) :=
  ((Kept.each ks (fun t k => (kept_sendAer t k 2).trans (kept_enterPartFatal ..)) s).trans (kept_raiseInt ..)).onlyIf (kept_raiseInt ..)

theorem kept_classAct (s : State) (a p e : Nat) : Kept s (s.classAct a p e) := by
  unfold State.classAct
  by_cases h0 : e = 0
  · rw [if_pos h0]; exact .refl s
  rw [if_neg h0]
  by_cases h1 : e = 1
  · rw [if_pos h1]
    refine Kept.trans ?_ (kept_raiseInt ..)
    split
    · exact .refl s
    · exact kept_sendAer ..
  rw [if_neg h1]
  by_cases h2 : e = 2
  · rw [if_pos h2]
    refine Kept.trans ?_ (kept_raiseInt ..)
    split
    · exact .refl s
    · exact kept_sendAer ..
  rw [if_neg h2]
  extract_lets ks fresh s1 s2
  have h : Kept s s2 := kept_fatalAct s ks fresh
  clear_value s2
  split
  · split
    · exact h
    · exact h.trans ((kept_enterDevFatal _).trans (kept_raiseInt ..))
  · exact h

theorem kept_pulse (s : State) (e : Nat) : Kept s (s.pulse e) := by
  unfold State.pulse; split <;> exact ⟨rfl, rfl⟩

theorem kept_evalPin (s : State) : Kept s s.evalPin := by
  unfold State.evalPin State.setPin State.setFlag; repeat' split
  all_goals exact ⟨rfl, rfl⟩

theorem kept_logFault (s : State) (f : Firing) (e : Nat) (x y z : Bool) : Kept s (s.logFault f e x y z).1 := by
  unfold State.logFault
  simp only
  refine Kept.trans ?_ ((kept_classAct ..).trans (kept_pulse ..))
  refine Kept.onlyIf ?_ (kept_raiseInt ..)
  split <;> exact ⟨rfl, rfl⟩

theorem kept_logRepeat (s : State) (f : Firing) : Kept s (s.logRepeat f) := by
  unfold State.logRepeat
  simp only
  repeat' split
  all_goals exact ⟨rfl, rfl⟩

theorem kept_capFirst (s : State) (f : Firing) (e : Nat) (x : Bool) : Kept s (s.capFirst f e x) := by
  unfold State.capFirst State.setFlag
  exact (((((((kept_setF ..).trans (kept_setF ..)).trans (kept_setF ..)).trans (kept_setF ..)).trans (kept_setF ..)).trans
    (kept_setF ..)).trans (kept_setF ..)).trans (kept_setF ..)

theorem kept_logAll (l : List (Nat × Firing × Bool)) (s : State) (a d : Bool) : Kept s (s.logAll l a d).1 := by
  induction l generalizing s a d with
  | nil => exact .refl s
  | cons x r ih =>
    obtain ⟨eff, f, esc⟩ := x
    simp only [State.logAll]
    refine Kept.trans ?_ (ih ..)
    refine Kept.onlyIf ?_ (kept_setF ..)
    refine Kept.trans ?_ (kept_logFault ..)
    exact (Kept.refl s).onlyIf (kept_capFirst ..)

theorem kept_logDropFault (s : State) : Kept s s.logDropFault := by
  unfold State.logDropFault
  simp only
  split
  · exact .refl s
  · exact .refl s
  all_goals
    refine Kept.trans ?_ (kept_pulse ..)
    refine Kept.trans ?_ (kept_classAct ..)
    exact ⟨rfl, rfl⟩

/-- A command that fired nothing is not changed by the collector. -/
@[simp] theorem settle_nil {s : State} (h : s.firing = []) : s.settle = s := by
  unfold State.settle; rw [h]

theorem settle_kept (s : State) : rest s.settle = rest s ∧ s.settle.firing = [] := by
  cases h : s.firing with
  | nil => rw [settle_nil h]; exact ⟨rfl, h⟩
  | cons x r =>
    unfold State.settle
    rw [h]
    simp only
    have h0 : rest { s with firing := [] } = rest s := rfl
    have hk : ∀ t, Kept { s with firing := [] } t → rest t = rest s ∧ t.firing = [] := fun t ht => ⟨ht.1.trans h0, ht.2⟩
    refine hk _ ?_
    refine Kept.trans ?_ (kept_evalPin _)
    refine Kept.onlyIf ?_ (kept_logDropFault _)
    have h1 := Kept.each ((mergeFirings (x :: r)).filter fun f => ({ s with firing := [] } : State).handling f == .repeated)
      (f := State.logRepeat) kept_logRepeat { s with firing := [] }
    split <;> exact h1.trans (kept_logAll ..)

/-- After the collector no firing is left (R460). -/
@[simp] theorem settle_firing (s : State) : s.settle.firing = [] := (settle_kept s).2

/-! ## Fields that the collector never touches -/

@[simp] theorem settle_pending (s : State) : s.settle.pending = s.pending :=
  show (rest s.settle).pending = (rest s).pending from congrArg _ (settle_kept s).1
@[simp] theorem settle_heldRegs (s : State) : s.settle.heldRegs = s.heldRegs :=
  show (rest s.settle).heldRegs = (rest s).heldRegs from congrArg _ (settle_kept s).1
@[simp] theorem settle_latches (s : State) : s.settle.latches = s.latches :=
  show (rest s.settle).latches = (rest s).latches from congrArg _ (settle_kept s).1
@[simp] theorem settle_ticks (s : State) : s.settle.ticks = s.ticks :=
  show (rest s.settle).ticks = (rest s).ticks from congrArg _ (settle_kept s).1
@[simp] theorem settle_fabric (s : State) : s.settle.fabric = s.fabric :=
  show (rest s.settle).fabric = (rest s).fabric from congrArg _ (settle_kept s).1
@[simp] theorem settle_free (s : State) : s.settle.free = s.free :=
  show (rest s.settle).free = (rest s).free from congrArg _ (settle_kept s).1
@[simp] theorem settle_ept (s : State) : s.settle.ept = s.ept :=
  show (rest s.settle).ept = (rest s).ept from congrArg _ (settle_kept s).1
@[simp] theorem settle_nextId (s : State) : s.settle.nextId = s.nextId :=
  show (rest s.settle).nextId = (rest s).nextId from congrArg _ (settle_kept s).1
@[simp] theorem settle_order (s : State) : s.settle.order = s.order :=
  show (rest s.settle).order = (rest s).order from congrArg _ (settle_kept s).1
@[simp] theorem settle_wseq (s : State) : s.settle.wseq = s.wseq :=
  show (rest s.settle).wseq = (rest s).wseq from congrArg _ (settle_kept s).1
@[simp] theorem settle_trk (s : State) : s.settle.trk = s.trk :=
  show (rest s.settle).trk = (rest s).trk from congrArg _ (settle_kept s).1
@[simp] theorem settle_openW (s : State) : s.settle.openW = s.openW :=
  show (rest s.settle).openW = (rest s).openW from congrArg _ (settle_kept s).1
@[simp] theorem settle_fences (s : State) : s.settle.fences = s.fences :=
  show (rest s.settle).fences = (rest s).fences from congrArg _ (settle_kept s).1
@[simp] theorem settle_swb (s : State) : s.settle.swb = s.swb :=
  show (rest s.settle).swb = (rest s).swb from congrArg _ (settle_kept s).1
@[simp] theorem settle_resv (s : State) : s.settle.resv = s.resv :=
  show (rest s.settle).resv = (rest s).resv from congrArg _ (settle_kept s).1
@[simp] theorem settle_pf (s : State) : s.settle.pf = s.pf :=
  show (rest s.settle).pf = (rest s).pf from congrArg _ (settle_kept s).1
@[simp] theorem settle_npw (s : State) : s.settle.npw = s.npw :=
  show (rest s.settle).npw = (rest s).npw from congrArg _ (settle_kept s).1
@[simp] theorem settle_splits (s : State) : s.settle.splits = s.splits :=
  show (rest s.settle).splits = (rest s).splits from congrArg _ (settle_kept s).1
@[simp] theorem settle_bind (s : State) : s.settle.bind = s.bind :=
  show (rest s.settle).bind = (rest s).bind from congrArg _ (settle_kept s).1
@[simp] theorem settle_bindHeld (s : State) : s.settle.bindHeld = s.bindHeld :=
  show (rest s.settle).bindHeld = (rest s).bindHeld from congrArg _ (settle_kept s).1
@[simp] theorem settle_insts (s : State) : s.settle.insts = s.insts :=
  show (rest s.settle).insts = (rest s).insts from congrArg _ (settle_kept s).1
@[simp] theorem settle_ttu (s : State) : s.settle.ttu = s.ttu :=
  show (rest s.settle).ttu = (rest s).ttu from congrArg _ (settle_kept s).1
@[simp] theorem settle_ttuHits (s : State) : s.settle.ttuHits = s.ttuHits :=
  show (rest s.settle).ttuHits = (rest s).ttuHits from congrArg _ (settle_kept s).1
@[simp] theorem settle_walks (s : State) : s.settle.walks = s.walks :=
  show (rest s.settle).walks = (rest s).walks from congrArg _ (settle_kept s).1
@[simp] theorem settle_inval (s : State) : s.settle.inval = s.inval :=
  show (rest s.settle).inval = (rest s).inval from congrArg _ (settle_kept s).1
@[simp] theorem settle_bar2 (s : State) : s.settle.bar2 = s.bar2 :=
  show (rest s.settle).bar2 = (rest s).bar2 from congrArg _ (settle_kept s).1
@[simp] theorem settle_hbm (s : State) : s.settle.hbm = s.hbm :=
  show (rest s.settle).hbm = (rest s).hbm from congrArg _ (settle_kept s).1
@[simp] theorem settle_regions (s : State) : s.settle.regions = s.regions :=
  show (rest s.settle).regions = (rest s).regions from congrArg _ (settle_kept s).1
@[simp] theorem settle_ports (s : State) : s.settle.ports = s.ports :=
  show (rest s.settle).ports = (rest s).ports from congrArg _ (settle_kept s).1
@[simp] theorem settle_lanes (s : State) : s.settle.lanes = s.lanes :=
  show (rest s.settle).lanes = (rest s).lanes from congrArg _ (settle_kept s).1
@[simp] theorem settle_sched (s : State) : s.settle.sched = s.sched :=
  show (rest s.settle).sched = (rest s).sched from congrArg _ (settle_kept s).1
@[simp] theorem settle_prioPtr (s : State) : s.settle.prioPtr = s.prioPtr :=
  show (rest s.settle).prioPtr = (rest s).prioPtr from congrArg _ (settle_kept s).1
@[simp] theorem settle_ffl (s : State) : s.settle.ffl = s.ffl :=
  show (rest s.settle).ffl = (rest s).ffl from congrArg _ (settle_kept s).1
@[simp] theorem settle_rx (s : State) : s.settle.rx = s.rx :=
  show (rest s.settle).rx = (rest s).rx from congrArg _ (settle_kept s).1
@[simp] theorem settle_frt (s : State) : s.settle.frt = s.frt :=
  show (rest s.settle).frt = (rest s).frt from congrArg _ (settle_kept s).1
@[simp] theorem settle_spillPtr (s : State) : s.settle.spillPtr = s.spillPtr :=
  show (rest s.settle).spillPtr = (rest s).spillPtr from congrArg _ (settle_kept s).1
@[simp] theorem settle_chans (s : State) : s.settle.chans = s.chans :=
  show (rest s.settle).chans = (rest s).chans from congrArg _ (settle_kept s).1
@[simp] theorem settle_engs (s : State) : s.settle.engs = s.engs :=
  show (rest s.settle).engs = (rest s).engs from congrArg _ (settle_kept s).1
@[simp] theorem settle_flash (s : State) : s.settle.flash = s.flash :=
  show (rest s.settle).flash = (rest s).flash from congrArg _ (settle_kept s).1
@[simp] theorem settle_trust (s : State) : s.settle.trust = s.trust :=
  show (rest s.settle).trust = (rest s).trust from congrArg _ (settle_kept s).1
@[simp] theorem settle_age (s : State) : s.settle.age = s.age :=
  show (rest s.settle).age = (rest s).age from congrArg _ (settle_kept s).1
@[simp] theorem settle_decayAt (s : State) : s.settle.decayAt = s.decayAt :=
  show (rest s.settle).decayAt = (rest s).decayAt from congrArg _ (settle_kept s).1
@[simp] theorem settle_timeSample (s : State) : s.settle.timeSample = s.timeSample :=
  show (rest s.settle).timeSample = (rest s).timeSample from congrArg _ (settle_kept s).1
@[simp] theorem settle_mgmtUp (s : State) : s.settle.mgmtUp = s.mgmtUp :=
  show (rest s.settle).mgmtUp = (rest s).mgmtUp from congrArg _ (settle_kept s).1
@[simp] theorem settle_trace (s : State) : s.settle.trace = s.trace :=
  show (rest s.settle).trace = (rest s).trace from congrArg _ (settle_kept s).1
@[simp] theorem settle_snapAt (s : State) : s.settle.snapAt = s.snapAt :=
  show (rest s.settle).snapAt = (rest s).snapAt from congrArg _ (settle_kept s).1
@[simp] theorem settle_slots (s : State) : s.settle.slots = s.slots :=
  show (rest s.settle).slots = (rest s).slots from congrArg _ (settle_kept s).1
@[simp] theorem settle_spc (s : State) : s.settle.spc = s.spc :=
  show (rest s.settle).spc = (rest s).spc from congrArg _ (settle_kept s).1
@[simp] theorem settle_clk (s : State) : s.settle.clk = s.clk :=
  show (rest s.settle).clk = (rest s).clk from congrArg _ (settle_kept s).1
@[simp] theorem settle_pwr (s : State) : s.settle.pwr = s.pwr :=
  show (rest s.settle).pwr = (rest s).pwr from congrArg _ (settle_kept s).1
@[simp] theorem settle_boot (s : State) : s.settle.boot = s.boot :=
  show (rest s.settle).boot = (rest s).boot from congrArg _ (settle_kept s).1

end Sys2Proof.Laws
end

