-- ==== Sys2Proof/Laws/Access.lean ====
section
/-! SUPPORT. Commands that stand for a register write: a granted one does exactly its own effect, and a command under the invariant that
fires nothing and moves no packet ends in exactly the state it made. -/

namespace Sys2Proof.Laws

open Sys2Proof.Machine

theorem guardBytes_grant {s : State} {who : Requester} {off : Nat} {bytes : List Nat} {wr : Bool}
    (h : s.slotsGrant who bytes wr = true) : s.guardBytes who off bytes wr = (s, true) := by
  cases who with
  | host k =>
    simp only [State.slotsGrant, Option.isNone_iff_eq_none] at h
    simp [State.guardBytes, h]
  | mgmt => rfl
  | debug => rfl
  | tenant i => rfl

theorem guardPage_grant {s : State} {who : Requester} {off req : Nat} {wr : Bool} (h : s.pageGrants who (off / 4096) = true) :
    s.guardPage who off wr req = (s, true) := by
  simp only [State.pageGrants, Bool.and_eq_true, Option.isNone_iff_eq_none] at h
  obtain ⟨h5, h6⟩ := h
  cases who with
  | host k => simp only [Bool.not_eq_true'] at h6; simp [State.guardPage, h5, h6]
  | mgmt => simp [State.guardPage, h5]
  | tenant i => simp [State.guardPage, h5]
  | debug =>
    simp only [State.guardPage, h5]
    cases hu : s.flag pgACC ACC_DBG_STS.UNLOCKED <;> cases hc : State.pageSecure (off / 4096) <;>
      cases hd : s.flag pgACC ACC_DBG_STS.SECURE_SCOPE <;> cases he : s.pageSealed (off / 4096) <;> simp_all

/-- A granted write does its effect, and leaves open what others have latched of its register (R82). -/
theorem withAccess_granted {s : State} {who : Requester} {off len : Nat} (f : State → State)
    (h : s.granted who off len = true) : s.withAccess who off len true f = f (s.touchAt who off) := by
  simp only [State.granted, Bool.and_eq_true, Bool.not_eq_true'] at h
  obtain ⟨⟨⟨h1, h2⟩, h3⟩, h4⟩ := h
  have hs : s.guardSlots who off len true = (s, true) := guardBytes_grant h2
  have hp : s.guardPage who off true 1 = (s, true) := guardPage_grant h3
  simp only [State.pageLive, Bool.and_eq_true, Bool.or_eq_true, decide_eq_true_eq, Bool.not_eq_true'] at h4
  obtain ⟨⟨h7, h8⟩, h9⟩ := h4
  have hn : (pageKind (off / 4096)).isNone = false := by
    cases hk : pageKind (off / 4096) <;> simp_all
  have hq : (decide (0x80 ≤ off % 4096) && !s.pagePresent (off / 4096)) = false := by
    rcases h8 with h8 | h8
    · have : ¬ 0x80 ≤ off % 4096 := by omega
      simp [this]
    · simp [h8]
  unfold State.withAccess
  simp [h1, hs, hp, hn, hq, h9]

/-- Closing samples changes nothing while every open one is held. -/
theorem sweepTrace_closed {s : State} (h : s.SamplesClosed) : s.sweepTrace = s := by
  have key : s.sweepTrace.trace = s.trace := by
    conv => rhs; rw [← List.map_id s.trace]
    apply List.map_congr_left
    intro r hr
    have hh := h r hr
    cases ho : r.out with
    | some x => simp
    | none => simp [hh ho]
  have : s.sweepTrace = { s with trace := s.sweepTrace.trace } := rfl
  rw [this, key]

/-- The packets and the shared-window buffer decide which samples are held. -/
theorem SamplesClosed.of_eq {s t : State} (h : s.SamplesClosed) (h1 : t.trace = s.trace) (h2 : t.packets = s.packets)
    (h3 : t.swb = s.swb) : t.SamplesClosed := by
  intro r hr ho
  have := h r (h1 ▸ hr) ho
  simpa [State.sampleHeld, h2, h3] using this

/-- A command that fires nothing and moves neither packets nor samples ends in exactly the state it made. -/
theorem done_eq {s t : State} (h : s.Inv) (h0 : t.firing = s.firing) (h1 : t.trace = s.trace) (h2 : t.packets = s.packets)
    (h3 : t.swb = s.swb) : t.done = .next t := by
  have hq : t.firing = [] := h0.trans h.quiet
  rw [State.done, settle_nil hq, sweepTrace_closed (SamplesClosed.of_eq h.closed h1 h2 h3)]

/-- The registers alone change. -/
theorem done_regs {s t : State} (h : s.Inv) (ho : s.OnlyRegs t) : t.done = .next t := by
  have hf : ∀ {β : Type} (g : State → β), (g { t with regs := s.regs, latches := s.latches } = g s) := fun g => congrArg g ho
  exact done_eq h (hf State.firing) (hf State.trace) (hf State.packets) (hf State.swb)

theorem onlyRegs_touchAt (s : State) (who : Requester) (off : Nat) : s.OnlyRegs (s.touchAt who off) := by
  unfold State.touchAt; split <;> rfl
@[simp] theorem reg_touchAt (s : State) (who : Requester) (off k : Nat) : (s.touchAt who off).reg k = s.reg k := by
  unfold State.touchAt; split <;> rfl
theorem onlyRegs_setReg (s : State) (k : Nat) (v : Dword) : s.OnlyRegs (s.setReg k v) := rfl
theorem onlyRegs_setF (s : State) (pg : Nat) (f : FRef) (v i : Nat) : s.OnlyRegs (s.setF pg f v i) := rfl
theorem OnlyRegs.trans {a b c : State} (h : a.OnlyRegs b) (g : b.OnlyRegs c) : a.OnlyRegs c := by
  have e := congrArg (fun x : State => ({ x with regs := a.regs, latches := a.latches } : State)) (show { c with regs := b.regs, latches := b.latches } = b from g)
  exact e.trans (show { b with regs := a.regs, latches := a.latches } = a from h)

/-- Changing registers for each element of a list changes nothing but registers. -/
theorem onlyRegs_each {α : Type} (l : List α) {f : State → α → State} (hf : ∀ (t : State) x, t.OnlyRegs (f t x)) (s : State) :
    s.OnlyRegs (s.each l f) := by
  induction l generalizing s with
  | nil => rfl
  | cons x r ih => exact OnlyRegs.trans (hf s x) (ih (f s x))

theorem grants_iff {s : State} {who : Requester} {page : Nat} {f : FRef} {i len : Nat} (g : State → State)
    (h : s.grants who page f i len = true) : s.withAccess who (State.offOf page f i) len true g = g (s.touchAt who (State.offOf page f i)) := withAccess_granted g h

end Sys2Proof.Laws
end

