-- ==== Sys2Proof/Laws/Bytes.lean ====
section
/-! SUPPORT. The laws of little-endian numbers (R4). -/

namespace Sys2Proof.Laws

open Sys2Proof Sys2Proof.Machine

@[simp] theorem length_leBytes (n x : Nat) : (leBytes n x).length = n := by
  induction n generalizing x with
  | zero => rfl
  | succ n ih => simp [leBytes, ih]

/-- A number that fits is what its bytes spell. -/
theorem leNat_leBytes (n x : Nat) (h : x < 256 ^ n) : leNat (leBytes n x) = x := by
  induction n generalizing x with
  | zero => simp [leBytes, leNat] at *; omega
  | succ n ih =>
    have : x / 256 < 256 ^ n := by rw [pow_succ] at h; omega
    simp [leBytes, leNat, ih _ this]; omega

/-- What bytes spell fits them. -/
theorem leNat_lt (l : List Byte) : leNat l < 256 ^ l.length := by
  induction l with
  | nil => simp [leNat]
  | cons b r ih =>
    have hb := b.isLt
    simp only [leNat, List.length_cons, pow_succ]
    omega

@[simp] theorem length_beBytes (n x : Nat) : (beBytes n x).length = n := by simp [beBytes]

/-- A SHA-384 digest has 48 bytes. -/
theorem length_sha384Bytes (m : List Byte) : (sha384Bytes m).length = 48 := by simp [sha384Bytes]

/-- A SHA-384 digest fits 48 bytes. -/
theorem sha384_lt (b : List Byte) : sha384 b < 256 ^ 48 := by
  have h := leNat_lt (sha384Bytes b)
  rwa [length_sha384Bytes] at h

@[simp] theorem each_nil {α : Type} (s : State) (f : State → α → State) : s.each [] f = s := rfl

/-- A change that leaves `s` as it is for each element leaves it so for the whole list. -/
theorem each_fix {α : Type} {l : List α} {f : State → α → State} (s : State) (h : ∀ x ∈ l, f s x = s) : s.each l f = s := by
  induction l with
  | nil => rfl
  | cons x r ih =>
    show State.each (f s x) r f = s
    rw [h x (by simp)]
    exact ih fun y hy => h y (by simp [hy])

end Sys2Proof.Laws
end

