-- ==== Sys2Proof/Laws/SettleRegs.lean ====
section
/-! SUPPORT. Which registers the fault collector may change: those of the fault page, FLT_CAUSE of any page, and the states of DMA channels. Every
other register is as the command left it. -/

namespace Sys2Proof.Laws

open Sys2Proof.Machine

/-- A register that the collector never writes. -/
def Apart (k : Nat) : Prop := k / 4096 ≠ pgFLT ∧ k % 4096 ≠ FLT_CAUSE.BITS.off ∧ pageKind (k / 4096) ≠ some .dmac

theorem reg_each {α : Type} {k : Nat} (l : List α) {f : State → α → State} (hf : ∀ t, ∀ x ∈ l, (f t x).reg k = t.reg k) (s : State) :
    (s.each l f).reg k = s.reg k := by
  induction l generalizing s with
  | nil => rfl
  | cons x r ih =>
    have h1 : ((f s x).each r f).reg k = (f s x).reg k := ih (fun t y hy => hf t y (List.mem_cons_of_mem _ hy)) (f s x)
    exact h1.trans (hf s x List.mem_cons_self)

theorem reg_onlyIf {k : Nat} {s : State} {b : Bool} {f : State → State} (hf : (f s).reg k = s.reg k) : (s.onlyIf b f).reg k = s.reg k := by
  cases b
  · rfl
  · exact hf

/-- A write to a register of the fault page. -/
theorem reg_setF_flt {k : Nat} (hk : Apart k) (s : State) (f : FRef) (v i : Nat) (h : f.off + f.stride * i < 4096) :
    (s.setF pgFLT f v i).reg k = s.reg k := by
  rw [reg_setF, if_neg]
  intro e
  exact hk.1 (by rw [e]; exact (fkey_page pgFLT f i h).1)

theorem reg_setF_cause {k : Nat} (hk : Apart k) (s : State) (pg v : Nat) : (s.setF pg FLT_CAUSE.BITS v).reg k = s.reg k := by
  rw [reg_setF, if_neg]
  intro e
  exact hk.2.1 (by rw [e]; exact (fkey_page pg FLT_CAUSE.BITS 0 (by decide)).2)

theorem reg_emitHost (s : State) (a : Nat) (l : List Output) (k : Nat) : (s.emitHost a l).reg k = s.reg k := by
  unfold State.emitHost; repeat' split
  all_goals rfl

theorem reg_sendMsix (s : State) (a b k : Nat) : (s.sendMsix a b).reg k = s.reg k := by
  unfold State.sendMsix; repeat' split
  · rfl
  · rfl
  · exact reg_emitHost ..

theorem reg_unpend (s : State) (a b k : Nat) : (s.unpend a b).reg k = s.reg k := by
  unfold State.unpend; dsimp only; split <;> rfl

theorem reg_raiseInt_flt {k : Nat} (hk : Apart k) (s : State) (b : Nat) : (s.raiseInt pgFLT b).reg k = s.reg k := by
  unfold State.raiseInt State.withIntPend
  simp only
  split
  · rw [reg_sendMsix]; exact reg_setF_flt hk s _ _ _ (by decide)
  split
  · rw [reg_unpend]; exact reg_setF_flt hk s _ _ _ (by decide)
  · exact reg_setF_flt hk s _ _ _ (by decide)

theorem reg_sendAer (s : State) (a b k : Nat) : (s.sendAer a b).reg k = s.reg k := by
  unfold State.sendAer
  repeat' (first | split | simp only)
  all_goals first
    | rfl
    | exact reg_emitHost ..

theorem pageKind_dmac : ∀ c < 4, ∀ j < 8, pageKind (celPage c (0x48 + j)) = some .dmac := by decide +kernel

theorem reg_setF_chan {k : Nat} (hk : Apart k) (s : State) (ch : Nat) (hc : ch < 1024) (f : FRef) (v : Nat)
    (h : f.off + f.stride * (ch % 32) < 4096) : (s.setF (pgDMAC (ch / 256) (ch % 256)) f v (ch % 32)).reg k = s.reg k := by
  rw [reg_setF, if_neg]
  intro e
  refine hk.2.2 ?_
  rw [e, (fkey_page _ f _ h).1]
  exact pageKind_dmac _ (by omega) _ (by omega)

theorem reg_stopChannel {k : Nat} (hk : Apart k) (s : State) (ch : Nat) (hc : ch < 1024) : (s.stopChannel ch).reg k = s.reg k := by
  have h1 : ∀ (t : State) v, (t.setF (pgDMAC (ch / 256) (ch % 256)) DMA_STS.PENDING v (ch % 32)).reg k = t.reg k := fun t v =>
    reg_setF_chan hk t ch hc _ v (by show _ + _ * (ch % 32) < 4096; simp only [DMA_STS.PENDING]; omega)
  have h2 : ∀ (t : State) v, (t.setF (pgDMAC (ch / 256) (ch % 256)) DMA_STS.STATE v (ch % 32)).reg k = t.reg k := fun t v =>
    reg_setF_chan hk t ch hc _ v (by show _ + _ * (ch % 32) < 4096; simp only [DMA_STS.STATE]; omega)
  unfold State.stopChannel
  simp only
  split
  · rw [h2]; exact h1 s _
  · exact h1 s _

theorem busy_lt {s : State} {ch : Nat} (h : ch ∈ s.busyChannels) : ch < 1024 := by
  simp only [State.busyChannels, List.mem_filter, List.mem_range] at h; exact h.1

theorem reg_enterPartFatal {k : Nat} (hk : Apart k) (s : State) (j : Nat) : (s.enterPartFatal j).reg k = s.reg k := by
  unfold State.enterPartFatal
  simp only
  rw [reg_each _ (fun t ch hm => reg_stopChannel hk t ch (busy_lt (List.mem_filter.1 hm).1))]
  exact reg_setF_flt hk s _ _ _ (by decide)

theorem reg_mirFatal (s : State) (k : Nat) : s.mirFatal.reg k = s.reg k := by
  unfold State.mirFatal; exact reg_onlyIf rfl

theorem reg_enterDevFatal {k : Nat} (hk : Apart k) (s : State) : s.enterDevFatal.reg k = s.reg k := by
  unfold State.enterDevFatal
  simp only
  show ((State.each _ _ _).mirFatal).reg k = _
  rw [reg_mirFatal, reg_each _ (fun t ch hm => reg_stopChannel hk t ch (busy_lt hm))]
  exact reg_setF_flt hk s _ _ _ (by decide)

theorem reg_classAct {k : Nat} (hk : Apart k) (s : State) (a p e : Nat) : (s.classAct a p e).reg k = s.reg k := by
  unfold State.classAct
  by_cases h0 : e = 0
  · rw [if_pos h0]
  rw [if_neg h0]
  by_cases h1 : e = 1
  · rw [if_pos h1, reg_raiseInt_flt hk]
    split
    · rfl
    · exact reg_sendAer ..
  rw [if_neg h1]
  by_cases h2 : e = 2
  · rw [if_pos h2, reg_raiseInt_flt hk]
    split
    · rfl
    · exact reg_sendAer ..
  rw [if_neg h2]
  extract_lets ks fresh s1 s2
  have h : s2.reg k = s.reg k := by
    show (State.onlyIf _ _ _).reg k = _
    rw [reg_onlyIf (reg_raiseInt_flt hk _ _), reg_raiseInt_flt hk,
      reg_each _ (fun t j _ => (reg_enterPartFatal hk _ j).trans (reg_sendAer ..))]
  clear_value s2
  split
  · split
    · exact h
    · rw [reg_raiseInt_flt hk, reg_enterDevFatal hk, h]
  · exact h

theorem reg_pulse {k : Nat} (hk : Apart k) (s : State) (e : Nat) : (s.pulse e).reg k = s.reg k := by
  unfold State.pulse; split
  · exact reg_setF_flt hk s _ _ _ (by decide)
  · rfl

theorem reg_evalPin {k : Nat} (hk : Apart k) (s : State) : s.evalPin.reg k = s.reg k := by
  unfold State.evalPin State.setPin State.setFlag; repeat' split
  all_goals first
    | rfl
    | exact reg_setF_flt hk s _ _ _ (by decide)

theorem reg_logFault {k : Nat} (hk : Apart k) (s : State) (f : Firing) (e : Nat) (x y z : Bool) (he : e < 16) :
    (s.logFault f e x y z).1.reg k = s.reg k := by
  unfold State.logFault
  simp only
  rw [reg_pulse hk, reg_classAct hk, reg_onlyIf (reg_raiseInt_flt hk _ _)]
  refine (reg_setF_flt hk _ _ _ _ (by show 0x180 + 4 * e < 4096; omega)).trans ?_
  refine (reg_setF_cause hk _ _ _).trans ?_
  show State.reg (State.mk ..) k = _
  split
  · rfl
  · exact reg_setF_flt hk s _ _ _ (by decide)

theorem reg_logRepeat {k : Nat} (s : State) (f : Firing) : (s.logRepeat f).reg k = s.reg k := by
  unfold State.logRepeat
  simp only
  repeat' split
  all_goals rfl

theorem reg_capFirst {k : Nat} (hk : Apart k) (s : State) (f : Firing) (e : Nat) (x : Bool) : (s.capFirst f e x).reg k = s.reg k := by
  have h : ∀ (t : State) (g : FRef) v, g.off + g.stride * 0 < 4096 → (t.setF pgFLT g v 0).reg k = t.reg k := fun t g v hg =>
    reg_setF_flt hk t g v 0 hg
  unfold State.capFirst State.setFlag
  simp only
  repeat rw [h _ _ _ (by decide)]

theorem reg_logAll {k : Nat} (hk : Apart k) (l : List (Nat × Firing × Bool)) (s : State) (a d : Bool) (hl : ∀ x ∈ l, x.1 < 16) :
    (s.logAll l a d).1.reg k = s.reg k := by
  induction l generalizing s a d with
  | nil => rfl
  | cons x r ih =>
    obtain ⟨eff, f, esc⟩ := x
    simp only [State.logAll]
    rw [ih _ _ _ (fun y hy => hl y (List.mem_cons_of_mem _ hy)), reg_onlyIf (reg_setF_flt hk _ _ _ _ (by decide)),
      reg_logFault hk _ _ _ _ _ _ (hl _ List.mem_cons_self), reg_onlyIf (reg_capFirst hk ..)]

theorem sevOf_lt (s : State) (src : Nat) : s.sevOf src < 16 := by
  have h : FLT_SEV.SEV.hi + 4 * (src % 32 % 8) + 1 - (FLT_SEV.SEV.lo + 4 * (src % 32 % 8)) = 3 := by simp only [FLT_SEV.SEV]; omega
  unfold State.sevOf State.getP bitsOf
  rw [h]
  omega

/-- Effective classes fit the field that counts by class. -/
theorem handling_lt (s : State) (f : Firing) (e : Nat) :
    (s.handling f = .new e → e < 16) ∧ (∀ m, s.handling f = .escalated e m → e < 16) := by
  have h := sevOf_lt s f.src
  unfold State.handling
  simp only
  constructor
  · intro hh
    repeat' split at hh
    all_goals simp at hh
    all_goals omega
  · intro m hh
    repeat' split at hh
    all_goals simp at hh
    all_goals omega

theorem mem_rankInsert {x y : Nat × Firing} {l : List (Nat × Firing)} (h : y ∈ rankInsert x l) : y = x ∨ y ∈ l := by
  induction l with
  | nil => simpa [rankInsert] using h
  | cons z r ih =>
    simp only [rankInsert] at h
    split at h
    · simpa using h
    · rcases List.mem_cons.1 h with h | h
      · exact .inr (h ▸ List.mem_cons_self)
      · exact (ih h).imp_right (List.mem_cons_of_mem _)

theorem mem_rankSort {y : Nat × Firing} {l : List (Nat × Firing)} (h : y ∈ rankSort l) : y ∈ l := by
  induction l with
  | nil => simp [rankSort] at h
  | cons z r ih =>
    rcases mem_rankInsert h with h | h
    · exact h ▸ List.mem_cons_self
    · exact List.mem_cons_of_mem _ (ih h)

theorem madeOf_lt {s : State} {fs : List Firing} {y : Nat × Firing} (h : y ∈ s.madeOf fs) : y.1 < 16 := by
  obtain ⟨f, _, hf⟩ := List.mem_filterMap.1 h
  have hl := handling_lt s f
  split at hf
  · rename_i e he
    cases hf
    exact (hl e).1 he
  · rename_i e m he
    cases hf
    exact (hl e).2 _ he
  · cases hf
  · cases hf

theorem ranked_lt {s : State} {l : List (Nat × Firing)} (hl : ∀ z ∈ l, z.1 < 16) {y : Nat × Firing × Bool} (h : y ∈ s.ranked l) : y.1 < 16 := by
  obtain ⟨z, hz, rfl⟩ := List.mem_map.1 h
  exact hl z (mem_rankSort hz)

theorem reg_logDropFault {k : Nat} (hk : Apart k) (s : State) : s.logDropFault.reg k = s.reg k := by
  have h := handling_lt s ⟨pgFLT * 32 + 2, 31, 63, true, false⟩
  unfold State.logDropFault
  simp only
  split
  · rfl
  · rfl
  · rename_i e he
    rw [reg_pulse hk, reg_classAct hk]
    refine (reg_setF_flt hk _ _ _ _ (by show 0x180 + 4 * e < 4096; have := (h e).1 he; omega)).trans ?_
    exact reg_setF_cause hk _ _ _
  · rename_i e m he
    rw [reg_pulse hk, reg_classAct hk]
    refine (reg_setF_flt hk _ _ _ _ (by show 0x180 + 4 * e < 4096; have := (h e).2 _ he; omega)).trans ?_
    exact reg_setF_cause hk _ _ _

/-- A register apart from the collector's own is as the command left it. -/
theorem settle_reg {k : Nat} (hk : Apart k) (s : State) : s.settle.reg k = s.reg k := by
  cases h : s.firing with
  | nil => rw [settle_nil h]
  | cons x r =>
    unfold State.settle
    rw [h]
    simp only
    rw [reg_evalPin hk, reg_onlyIf (reg_logDropFault hk _)]
    have hg : ∀ g, ∀ y ∈ ({ s with firing := [] } : State).ranked ((({ s with firing := [] } : State).madeOf (mergeFirings (x :: r))).filter g),
        y.1 < 16 := fun g y hy => ranked_lt (fun z hz => madeOf_lt (List.mem_filter.1 hz).1) hy
    split
    · rw [reg_logAll hk _ _ _ _ (hg _), reg_each _ (fun t f _ => reg_logRepeat t f)]; rfl
    · rw [reg_logAll hk _ _ _ _ (fun y hy => ranked_lt (fun z hz => madeOf_lt hz) hy), reg_each _ (fun t f _ => reg_logRepeat t f)]; rfl

end Sys2Proof.Laws
end

