-- ==== Sys2Proof/Laws/Tick.lean ====
section
/-! SUPPORT. What a tick leaves alone, said once. -/

namespace Sys2Proof.Laws

open Sys2Proof.Machine

/-- Packets, samples, memories, the queue and the clocks are as before. -/
structure Still (s t : State) : Prop where
  packets : t.packets = s.packets
  trace : t.trace = s.trace
  swb : t.swb = s.swb
  firing : t.firing = s.firing
  hbm : t.hbm = s.hbm
  flash : t.flash = s.flash
  pending : t.pending = s.pending
  ticks : t.ticks = s.ticks
  fabric : t.fabric = s.fabric

theorem Still.refl (s : State) : Still s s := ⟨rfl, rfl, rfl, rfl, rfl, rfl, rfl, rfl, rfl⟩

theorem Still.trans {a b c : State} (h : Still a b) (g : Still b c) : Still a c :=
  ⟨g.1.trans h.1, g.2.trans h.2, g.3.trans h.3, g.4.trans h.4, g.5.trans h.5, g.6.trans h.6, g.7.trans h.7, g.8.trans h.8, g.9.trans h.9⟩

theorem Still.each {α : Type} (l : List α) {f : State → α → State} (hf : ∀ t x, Still t (f t x)) (s : State) : Still s (s.each l f) := by
  induction l generalizing s with
  | nil => exact .refl s
  | cons x r ih => exact (hf s x).trans (ih (f s x))

theorem Still.onlyIf {s t : State} {b : Bool} {f : State → State} (h : Still s t) (hf : Still t (f t)) : Still s (t.onlyIf b f) := by
  cases b
  · exact h
  · exact h.trans hf

theorem still_setF (s : State) (pg : Nat) (f : FRef) (v i : Nat) : Still s (s.setF pg f v i) :=
  ⟨rfl, rfl, rfl, rfl, rfl, rfl, rfl, rfl, rfl⟩

theorem still_emitHost (s : State) (k : Nat) (l : List Output) : Still s (s.emitHost k l) := by
  unfold State.emitHost; repeat' split
  all_goals exact ⟨rfl, rfl, rfl, rfl, rfl, rfl, rfl, rfl, rfl⟩

theorem still_sendMsix (s : State) (k v : Nat) : Still s (s.sendMsix k v) := by
  unfold State.sendMsix; repeat' split
  · exact .refl s
  · exact ⟨rfl, rfl, rfl, rfl, rfl, rfl, rfl, rfl, rfl⟩
  · exact still_emitHost ..

theorem still_unpend (s : State) (k v : Nat) : Still s (s.unpend k v) := by
  unfold State.unpend; dsimp only; split
  all_goals exact ⟨rfl, rfl, rfl, rfl, rfl, rfl, rfl, rfl, rfl⟩

theorem still_raiseInt (s : State) (pg b : Nat) : Still s (s.raiseInt pg b) := by
  unfold State.raiseInt State.withIntPend
  simp only
  split
  · exact (still_setF ..).trans (still_sendMsix ..)
  split
  · exact (still_setF ..).trans (still_unpend ..)
  · exact still_setF ..

theorem still_pmuOverflow (s : State) (c j : Nat) : Still s (s.pmuOverflow c j) := (still_setF ..).trans (still_raiseInt ..)

theorem still_pmuAdd (s : State) (c j n : Nat) : Still s (s.pmuAdd c j n) := by
  unfold State.pmuAdd
  dsimp only
  repeat' split
  · exact still_setF ..
  · exact (still_setF ..).trans (still_setF ..)
  · exact ((still_setF ..).trans (still_setF ..)).trans (still_pmuOverflow ..)
  · exact (still_setF ..).trans (still_pmuOverflow ..)

theorem still_count (s : State) (c a p t n : Nat) : Still s (s.count c a p t n) := by
  unfold State.count
  split
  · exact .refl s
  · refine .each _ (fun t j => ?_) s
    dsimp only
    repeat' split
    all_goals first
      | exact still_pmuAdd ..
      | exact .refl _

theorem still_refillShaper (s : State) (x : Nat × Nat) : Still s (s.refillShaper x) := by
  unfold State.refillShaper; split
  · exact still_setF ..
  · exact .refl s

theorem still_refillPolicer (s : State) (x : Nat × Nat) : Still s (s.refillPolicer x) := by
  unfold State.refillPolicer; split
  · exact still_setF ..
  · exact .refl s

theorem still_refillChannel (s : State) (x : Nat × Nat) : Still s (s.refillChannel x) := by
  unfold State.refillChannel; split
  · exact ⟨rfl, rfl, rfl, rfl, rfl, rfl, rfl, rfl, rfl⟩
  · exact .refl s

theorem still_refillAll (s : State) : Still s s.refillAll :=
  ((Still.each _ still_refillShaper s).trans (.each _ still_refillPolicer _)).trans (.each _ still_refillChannel _)

theorem still_tickCounts (s : State) (c : Nat) : Still s (s.tickCounts c) := by
  unfold State.tickCounts
  split
  · exact .refl s
  · exact ((still_count ..).trans (still_count ..)).trans (.each _ (fun t p => still_count ..) _)

theorem still_tickOffline (s : State) (p : Nat) : Still s (s.tickOffline p) := by
  unfold State.tickOffline; split
  · exact still_setF ..
  · exact .refl s

theorem still_tickCellar (s : State) (c : Nat) : Still s (s.tickCellar c) := by
  unfold State.tickCellar; split
  · exact (still_tickCounts s c).trans (.each _ still_tickOffline _)
  · exact .refl s

theorem still_cutBucket (s : State) (pg : Nat) (f g : FRef) (i : Nat) : Still s (s.cutBucket pg f g i) := by
  unfold State.cutBucket; repeat' (first | split | dsimp only)
  all_goals first
    | exact .refl s
    | exact still_setF ..

theorem still_cutNow (s : State) (x : Nat × Nat) : Still s (s.cutNow x) := by
  unfold State.cutNow
  dsimp only
  repeat' split
  all_goals first
    | exact still_setF ..
    | exact still_cutBucket ..
    | exact ⟨rfl, rfl, rfl, rfl, rfl, rfl, rfl, rfl, rfl⟩

/-- The part that is worked off between ticks is none of these. -/
theorem still_edge (s : State) (e : EdgeSt) : Still s { s with edge := e } := ⟨rfl, rfl, rfl, rfl, rfl, rfl, rfl, rfl, rfl⟩

theorem still_cutsNow (s : State) : Still s s.cutsNow := by
  unfold State.cutsNow
  split
  · exact .refl s
  · exact (still_edge s _).trans (Still.each s.edge.cuts (f := State.cutNow) still_cutNow _)

theorem still_pmuTick (s : State) : Still s s.pmuTick :=
  (still_edge s _).trans (Still.each s.edge.clrDue
    (f := fun t p => t.each State.saFields fun u g => u.setF (pgPMUA (cellarOf p) (p % 16)) g 0 (p % 8))
    (fun t p => .each State.saFields (f := fun u g => u.setF (pgPMUA (cellarOf p) (p % 16)) g 0 (p % 8)) (fun _ _ => still_setF ..) t) _)

theorem still_polDebit (s : State) (p c n : Nat) : Still s (s.polDebit p c n) := by
  unfold State.polDebit; split
  · exact .refl s
  · exact still_setF ..

theorem still_dueDebits (s : State) : Still s s.dueDebits := by
  unfold State.dueDebits
  split
  · exact .refl s
  · exact (still_edge s _).trans (Still.each (s.edge.debits.filter fun x => decide (x.1 ≤ s.fabric))
      (f := fun t x => (t.polDebit x.2.1 x.2.2.1 1).onlyIf (decide (x.2.2.2 < 8)) fun u =>
        u.count (cellarOf x.2.1) 2 (State.localPort x.2.1) (x.2.2.2 % 8) 1)
      (fun t x => (still_polDebit ..).onlyIf (still_count ..)) _)

theorem still_relMark (s : State) : Still s s.relMark := still_edge s _

/-- Advancing fabric time keeps what is still. -/
theorem still_fabric {s t : State} (h : Still s t) (n : Nat) : Still { s with fabric := n } { t with fabric := n } :=
  ⟨h.1, h.2, h.3, h.4, h.5, h.6, h.7, h.8, rfl⟩

/-- The end of a tick in which nothing was left to select, to free or to settle. -/
theorem yieldEnd_nil {s : State} (h : s.mir.yieldDue = false) : s.yieldEnd = s := by unfold State.yieldEnd; rw [h]; rfl
theorem selectEnd_nil {s : State} (h : s.sched.events = []) : s.selectEnd = s := by unfold State.selectEnd; rw [h]
theorem endFreed_nil {s : State} (h : s.edge.freed = []) : s.endFreed = s := by unfold State.endFreed; rw [h]

/-- A tick of CK_SCHED with no selection and no credit due at its end moves fabric time on by one, and nothing else of these. -/
theorem still_schedTick {s : State} (h0 : s.mir.yieldDue = false) (h1 : s.sched.events = []) (h2 : s.edge.freed = []) (h3 : s.firing = []) :
    Still { s with fabric := (s.fabric + 1) % 2 ^ 64 } s.schedTick := by
  unfold State.schedTick
  rw [yieldEnd_nil h0, selectEnd_nil h1, endFreed_nil h2, settle_nil (s := s.relMark) h3]
  dsimp only
  have hs : ∀ u : State, Still u u.snapStart := fun _ => ⟨rfl, rfl, rfl, rfl, rfl, rfl, rfl, rfl, rfl⟩
  refine Still.trans (Still.trans ?_ (Still.each (List.range 4) (f := State.tickCellar) still_tickCellar _)) (hs _)
  exact ((((still_fabric (still_relMark s) _).trans (still_cutsNow _)).trans (still_pmuTick _)).trans (still_refillAll _)).trans (still_dueDebits _)

/-- A tick: the model's clock, and fabric time while the root PLL is in lock. -/
theorem still_tick {s : State} (h0 : s.mir.yieldDue = false) (h1 : s.sched.events = []) (h2 : s.edge.freed = []) (h3 : s.firing = []) :
    Still { s with ticks := s.ticks + 1, fabric := if s.flag pgCLK CLK_STS.PLL_LOCK then (s.fabric + 1) % 2 ^ 64 else s.fabric } s.tick := by
  unfold State.tick
  dsimp only
  split
  · exact still_schedTick (s := { s with ticks := s.ticks + 1 }) h0 h1 h2 h3
  · exact .refl _

end Sys2Proof.Laws
end

