-- ==== Sys2Proof/Machine/Package.lean ====
section
/-! DEFINITION. The package: its balls (R637 to R640) and the levels of the pins that the state decides (R474, R500, R643, R648). -/

namespace Sys2Proof.Machine

/-- Letters of the ball rows (R637). -/
def rowLetters : List String := ["A", "B", "C", "D", "E", "F", "G", "H", "J", "K", "L", "M", "N", "P", "T", "U", "V", "W", "Y"]

/-- Name of the row with index `i`, from 1 (R637). -/
def rowName (i : Nat) : String :=
  ["", "A", "B", "C", "D"].getD ((i - 1) / 19) "" ++ rowLetters.getD ((i - 1) % 19) ""

/-- Name of the ball at a row index and a column (R637). -/
def ballName (b : Nat × Nat) : String := rowName b.1 ++ toString b.2

/-- Row index and column of a ball of lane `l` (mirror lanes from 160): of its receiver or transmitter, P or N (R638, Table 20.1). -/
def laneBall (l : Nat) (tx neg : Bool) : Nat × Nat :=
  let n := if neg then 1 else 0
  let p := 5 + 2 * (l % 40) + n
  match l / 40 with
  | 0 => (if tx then 4 else 2, p)
  | 1 => (p, if tx then 85 else 87)
  | 2 => (if tx then 85 else 87, p)
  | 3 => (p, if tx then 4 else 2)
  | _ => (if tx then 12 else 10, 37 + 2 * (l - 160) + n)

/-- Row index and column of ball `i` of slot `s`: FEEDA_G, FEEDB_G, PRECHG_G, MAIN_G, SENSE_P, SENSE_N, VOUT_S, PRSNT_N, PERST_N, SB_SCL, SB_SDA
(R639, Table 20.2). -/
def slotBall (s i : Nat) : Nat × Nat := (60 + 2 * (s / 7), 6 + 11 * (s % 7) + i)

/-- The other signals, in the order of Table 20.3: row index, first column, signals of consecutive columns (R640). -/
def otherBalls : List (Nat × Nat × List String) :=
  [(7, 20, ["QF_FAULT_N", "PAIR_HB_OUT", "PAIR_HB_IN", "QPOR_N", "QWARM_N", "THERMTRIP_N"]), (7, 30, ["REFCLK_P", "REFCLK_N"]),
   (7, 34, ["TCK", "TMS", "TDI", "TDO", "TRST_N"]), (8, 20, ["XSPI_CLK", "XSPI_CS_N", "XSPI_DQS"]),
   (8, 23, ["XSPI_DQ0", "XSPI_DQ1", "XSPI_DQ2", "XSPI_DQ3", "XSPI_DQ4", "XSPI_DQ5", "XSPI_DQ6", "XSPI_DQ7"]), (8, 31, ["XSPI_RESET_N"]),
   (8, 34, ["SMB_SCL", "SMB_SDA", "SMB_ALERT_N"]), (8, 38, ["I3C_SCL", "I3C_SDA"]),
   (9, 20, ["AVS_VID0", "AVS_VID1", "AVS_VID2", "AVS_VID3", "AVS_VID4", "AVS_VID5", "AVS_VID6", "AVS_VID7"]),
   (72, 40, ["FEEDA_VS", "FEEDB_VS"])]

namespace State

/-- Code on AVS_VID7 to AVS_VID0 (R643). -/
def avsVid (s : State) : Nat := (s.getF pgAGE AGE_AVS.TARGET - 500) / 5

/-- QF_FAULT_N is at low level (R474 to R477, R649). -/
def faultPinLow (s : State) : Bool := s.flag pgFLT FLT_PIN.ASSERTED

/-- THERMTRIP_N is at low level (R648, R649). -/
def thermtripLow (s : State) : Bool := s.pwr.thermtrip

/-- Level of PAIR_HB_OUT (R500). -/
def heartbeatOut (s : State) : Bool := s.mir.hbOut

/-- PERST_N of slot `i` is at low level (R528, R649). -/
def perstLow (s : State) (i : Nat) : Bool := (s.slot i).perst

end State

end Sys2Proof.Machine
end

