-- ==== Sys2Proof/WellFormed.lean ====
section
/-! DEFINITION. Well-formed commands: every operand names something the 9160 has. exec is total on every command; one that is not well
formed names no part of the 9160 and has no sender. -/

namespace Sys2Proof

/-- A device port (R16). -/
def wfPort (p : Nat) : Bool := decide (p < 64)
/-- A device port or a mirror port, 64 and 65 (R275). -/
def wfLink (p : Nat) : Bool := decide (p < 66)
/-- A port with a non-posted tracker: a device port, or 66 for requests of the fabric (R264, log 17). -/
def wfTracker (p : Nat) : Bool := decide (p < 67)
/-- A Cellar (R14). -/
def wfCellar (c : Nat) : Bool := decide (c < 4)
/-- One of two. -/
def wfBit (b : Nat) : Bool := decide (b < 2)
/-- A partition (R84). -/
def wfPart (k : Nat) : Bool := decide (k < 24)
/-- A window (R87). -/
def wfWindow (w : Nat) : Bool := decide (w < 8192)
/-- An access slot (R372). -/
def wfAccSlot (n : Nat) : Bool := decide (n < 96)
/-- A slot of the image store (R171). -/
def wfImage (n : Nat) : Bool := decide (n < 8)
/-- A lane, mirror lanes from 160 (R13). -/
def wfLane (l : Nat) : Bool := decide (l < 168)
/-- A queue, 128 to a Cellar (R215). -/
def wfQueue (q : Nat) : Bool := decide (q < 512)
/-- A DMA channel, 256 to a Cellar (R426). -/
def wfChan (ch : Nat) : Bool := decide (ch < 1024)
/-- A slot (R517). -/
def wfSlot (n : Nat) : Bool := decide (n < 40)
/-- An instance (R397). -/
def wfInst (i : Nat) : Bool := decide (i < 2048)
/-- A flow-control class. -/
def wfCls (c : Nat) : Bool := decide (c < 3)
/-- A policed class (R226). -/
def wfPolicer (c : Nat) : Bool := decide (c < 2)
/-- A queue snapshot page, two to a Cellar (R232). -/
def wfSnapPage (n : Nat) : Bool := decide (n < 8)
/-- An event counter (R593). -/
def wfCounter (j : Nat) : Bool := decide (j < 32)
/-- A power domain (R617). -/
def wfDomain (d : Nat) : Bool := decide (d < 96)
/-- A page of BAR0 (R55). -/
def wfPage (x : Nat) : Bool := decide (x < 2048)
/-- Byte enables of an access of at most 8 B (R58). -/
def wfBytes (be : Nat) : Bool := decide (be < 256)
/-- A retirement register: a Cellar's, or 4 for that of the mirror lanes (R252). -/
def wfRetire (c : Nat) : Bool := decide (c < 5)
/-- An ingress that passes packets on: a device port, or 64 + Cellar for its internal requester (R111). -/
def wfIng (g : Nat) : Bool := decide (g < 68)
/-- Offset of a register of BAR0 (R54, R57). -/
def wfOff (o : Nat) : Bool := decide (o < 0x800000) && decide (o % 4 = 0)
/-- A flit sequence number of twelve bits (Table 8.3). -/
def wfSeq (n : Nat) : Bool := decide (n < 4096)

/-- A requester the 9160 has. -/
def Requester.wf : Requester → Bool
  | .host k => wfPart k
  | .mgmt => true
  | .debug => true
  | .tenant i => wfInst i

/-- A packet whose parts fit each other: a 64-bit address, at most 4,096 B, and a payload of the length it names. -/
def Tlp.wf (t : Tlp) : Bool :=
  decide (t.addr < 2 ^ 64) && decide (t.len <= 4096) && (t.data.isEmpty || t.data.length == t.len) && decide (t.tc < 8)

/-- A fabric header whose fields fit Table 8.10. -/
def FabHdr.wf (h : FabHdr) : Bool :=
  decide (h.kind < 256) && decide (h.dst < 65536) && decide (h.cellar < 4) && decide (h.tseq < 2 ^ 32) && decide (h.pbar < 2 ^ 32)

/-- A mirror record of a kind that Table 14.3 lists. -/
def MirRec.wf (r : MirRec) : Bool := decide (1 <= r.kind) && decide (r.kind <= 5)

/-- The operands of a command name something the 9160 has. -/
def Instr.wf : Instr → Bool
  | .cellarHoldReq who c => who.wf && wfCellar c
  | .cellarGateReq who c => who.wf && wfCellar c
  | .cellarRunReq who c => who.wf && wfCellar c
  | .cellarModeReached c => wfCellar c
  | .registerWrite who off _ be _ => who.wf && wfOff off && wfBytes be
  | .rcRead who off _ => who.wf && wfOff off
  | .lowWordRead who off => who.wf && wfOff off
  | .pageLockWrite who page => who.wf && wfPage page
  | .glbSealWrite who => who.wf
  | .intForceWrite who page _ => who.wf && wfPage page
  | .fltForceWrite who page _ => who.wf && wfPage page
  | .fltAckWrite who page _ => who.wf && wfPage page
  | .tlpReceive port tlp _ _ _ => wfPort port && tlp.wf
  | .completionReceive port tlp _ _ => wfPort port && tlp.wf
  | .mctpReceive _ => true
  | .bridgeConfigWrite port _ _ => wfPort port
  | .secondaryBusReset part => wfPart part
  | .winFieldWrite who w _ _ => who.wf && wfWindow w
  | .winRouteWrite who w _ => who.wf && wfWindow w
  | .fwdEptDataAccess who _ => who.wf
  | .ingressOrderPass ing cls => wfIng ing && wfCls cls
  | .spineSlot src dst half _ => wfCellar src && wfCellar dst && wfBit half
  | .cellEgressArrive queue _ => wfQueue queue
  | .flitPeriodStart port _ => wfLink port
  | .nonflitStartOpportunity port _ => wfPort port
  | .repairItemDue port item => wfPort port && wfBit item
  | .repairWaitExpire port => wfPort port
  | .tlpDllAck port _ => wfPort port
  | .fcUpdateReceive port cls _ _ => wfPort port && wfCls cls
  | .policerRelease port cls => wfPort port && wfPolicer cls
  | .shaperParamWrite who off _ => who.wf && wfOff off
  | .queueSnapshot page => wfSnapPage page
  | .queueStallDetect queue => wfQueue queue
  | .spillPlacedBurst _ => true
  | .spillBeBurst _ => true
  | .spillBurstDone _ => true
  | .schLoad who slot => who.wf && wfImage slot
  | .schLoadDone slot => wfImage slot
  | .loadCompletionTimeout => true
  | .schHold who slot => who.wf && wfImage slot
  | .schRelease who slot => who.wf && wfImage slot
  | .schArm who slot => who.wf && wfImage slot
  | .shadowFillDone => true
  | .schDisarm who slot => who.wf && wfImage slot
  | .schBadCmd who _ slot => who.wf && wfImage slot
  | .armPairCheck => true
  | .armedSwap => true
  | .fallbackSwap => true
  | .laneErrorEvent lane _ => wfLane lane
  | .laneScoreDecay => true
  | .laneRetireWrite who c _ => who.wf && wfRetire c
  | .lnkRetrain who port => who.wf && wfPort port
  | .lnkRestore who port => who.wf && wfPort port
  | .lnkDisableSet who port => who.wf && wfPort port
  | .lnkDisableClear who port => who.wf && wfPort port
  | .portRecoveryEntry port => wfLink port
  | .portL0Entry port _ _ _ _ _ _ => wfLink port
  | .derateWindowEnd port => wfPort port
  | .dlDown port => wfPort port
  | .lockLossTimeout port => wfPort port
  | .linkDownCleanupDone port => wfPort port
  | .dpcTrigger port => wfPort port
  | .dpcExit port => wfPort port
  | .hotResetReceived port => wfPort port
  | .fflFlitDecide port flit => wfLink port && flit.length == 256
  | .fflCreditReceive port _ _ _ => wfLink port
  | .fflNakReceive port seq => wfLink port && wfSeq seq
  | .fflHelloReceive port _ _ _ _ _ => wfLink port
  | .fflLinkreqReceive port _ _ => wfLink port
  | .fflLinkgoReceive port _ _ => wfLink port
  | .fflTimeReqReceive port _ _ => wfLink port
  | .fflTimeRspReceive port _ _ _ _ => wfLink port
  | .fflSwaptickReceive port _ _ _ _ => wfLink port
  | .fflMctpReceive port _ => wfLink port
  | .fflReplayTimeout port => wfLink port
  | .fflHelloInterval port => wfLink port
  | .fflHelloTimeout port => wfLink port
  | .fflUpkeepTimer port => wfLink port
  | .fflTimeIntTimer port => wfLink port
  | .fflLinkreqTimeout port => wfLink port
  | .fflReqCmd who port _ => who.wf && wfLink port
  | .fflLockLossTimeout port => wfLink port
  | .fflLinkDownCleanupDone d => wfLink d.port
  | .fabricPacketReceive port hdr tlp => wfPort port && hdr.wf && tlp.wf
  | .tackReceive port hdr _ => wfPort port && hdr.wf
  | .tackDelayExpire _ => true
  | .e2eTimeout _ _ => true
  | .replayStoreWritten _ => true
  | .frtCompletionTimeout _ => true
  | .swEntryCommit _ _ => true
  | .swSerialize _ _ => true
  | .fenceRead port _ _ _ inst => wfPort port && wfInst inst
  | .fenceDmwr port _ _ _ inst => wfPort port && wfInst inst
  | .fenceComplete _ => true
  | .prefetchFillDone _ => true
  | .prefetchHoldExpire _ => true
  | .orphanReap port _ _ => wfTracker port
  | .liveReap port _ _ => wfTracker port
  | .accHeldWrite who slot _ _ => who.wf && wfAccSlot slot
  | .accRdWrite who slot _ => who.wf && wfAccSlot slot
  | .debugPortAccess off _ _ => wfOff off
  | .vimBindD0Write who _ => who.wf
  | .vimBindD1Write who _ => who.wf
  | .ttuWalkReadDone _ _ => true
  | .ttuInvGo who _ => who.wf
  | .ttuInvEffect => true
  | .ttuInvDone => true
  | .vfFlr inst => wfInst inst
  | .vimResetWrite who inst => who.wf && wfInst inst
  | .vfEnableChange part _ _ => wfPart part
  | .pfFlr part => wfPart part
  | .heldResetEffect inst => wfInst inst
  | .instanceResetEnd inst => wfInst inst
  | .dmaGo who chan => who.wf && wfChan chan
  | .dmaStop who chan _ => who.wf && wfChan chan
  | .dmaPaceWrite who chan _ => who.wf && wfChan chan
  | .dmaShadowWrite who chan _ _ => who.wf && wfChan chan
  | .dmaPlacedBurst c _ _ _ => wfCellar c
  | .dmaBeBurst c eng _ _ => wfCellar c && wfBit eng
  | .dmaBurstEnd c eng => wfCellar c && wfBit eng
  | .dmaListFetchDone chan => wfChan chan
  | .dmaXferComplete chan => wfChan chan
  | .leesRecordMake => true
  | .pinPulseEnd => true
  | .pinRearm who => who.wf
  | .pinDriveWrite who _ => who.wf
  | .pinModeWrite who _ => who.wf
  | .logRdWrite who _ _ => who.wf
  | .mirRoleReceive m _ _ _ _ _ => wfBit m
  | .mirArmreportReceive m _ _ => wfBit m
  | .mirYieldReceive m _ => wfBit m
  | .mirResyncMsgReceive m _ => wfBit m
  | .mirCopyReceive m body => wfBit m && body.wf
  | .mirCommitReceive m body => wfBit m && body.wf
  | .mirLedgerReceive m body => wfBit m && body.wf
  | .mirBlockReceive m body => wfBit m && body.wf
  | .roleInterval => true
  | .seekTimeout => true
  | .ledgerEpochEnd => true
  | .heartbeatLoss => true
  | .hbOutToggle => true
  | .mirSwitchover who => who.wf
  | .switchoverDrained => true
  | .mirTake who => who.wf
  | .mirTakeForce who => who.wf
  | .mirResyncCmd who => who.wf
  | .mirBadCmd who _ => who.wf
  | .resyncBlockSend => true
  | .resyncTimeout => true
  | .presenceConfirm slot _ _ => wfSlot slot
  | .rearmWindowEnd slot => wfSlot slot
  | .slotPowerControlWrite port _ _ => wfPort port
  | .slotSample _ _ _ _ => true
  | .prechgTimeout slot => wfSlot slot
  | .gateTimeout slot _ => wfSlot slot
  | .holdoffEnd slot => wfSlot slot
  | .perstReleaseTimer slot => wfSlot slot
  | .mainFetOpenDelay slot => wfSlot slot
  | .retryClearTimer slot => wfSlot slot
  | .feedSwitchBbmEnd slot _ => wfSlot slot
  | .feedReturnTimer slot => wfSlot slot
  | .fruReadDone slot _ => wfSlot slot
  | .lifeCountWritten slot _ => wfSlot slot
  | .slotOnHourWrite slot _ => wfSlot slot
  | .spcClrLatch who slot => who.wf && wfSlot slot
  | .spcService who slot => who.wf && wfSlot slot
  | .spcConnReset who slot => who.wf && wfSlot slot
  | .limderLinkFail => true
  | .limderLinkRestore => true
  | .getBook _ _ _ => true
  | .getNonce => true
  | .provisionOwner _ => true
  | .revokeOwner _ => true
  | .provisionDbgauth _ => true
  | .revokeDbgauth _ => true
  | .commitSvn _ => true
  | .debugToken _ => true
  | .dbgtoken _ => true
  | .flashprog _ _ => true
  | .bootsts => true
  | .spdmRequest _ => true
  | .checkpointTimer => true
  | .checkpointMade => true
  | .bookFlashWritten _ => true
  | .attestOutcome port _ => wfLink port
  | .attestTimeout port => wfLink port
  | .truAttRedo who port => who.wf && wfLink port
  | .plannerPass => true
  | .marginScanDone port _ => wfLink port
  | .monitorSample _ => true
  | .ageApply who => who.wf
  | .ageDiscard who => who.wf
  | .ageScanNow who port => who.wf && wfLink port
  | .ageUnretire who lane => who.wf && wfLane lane
  | .ageStateHourly _ => true
  | .ageMonthlyRecord _ => true
  | .avsTargetWrite who _ => who.wf
  | .pmuCounterWrite who c j _ _ => who.wf && wfCellar c && wfCounter j
  | .pmuEvtWrite who c j _ => who.wf && wfCellar c && wfCounter j
  | .pmuGsnapGo who c => who.wf && wfCellar c
  | .pmuSnapshotTick => true
  | .pmuSaClr who c half _ => who.wf && wfCellar c && wfBit half
  | .traceRecordWrite c => wfCellar c
  | .samplePendingTimeout => true
  | .ringRdWrite who c _ => who.wf && wfCellar c
  | .pllUnlock => true
  | .pllRelock => true
  | .pllLockTimeout => true
  | .timeSample _ => true
  | .ptmInterval => true
  | .tsrcLostTimeout => true
  | .powerGateReq who d => who.wf && wfDomain d
  | .powerWakeReq who d => who.wf && wfDomain d
  | .powerDomainGated d => wfDomain d
  | .powerDomainWoken d => wfDomain d
  | .supplySample _ _ => true
  | .supplyWarnEnd => true
  | .vddAonRise => true
  | .qporNAssert => true
  | .powerUpResetEnd => true
  | .qwarmNAssert => true
  | .rstCmdWarm who => who.wf
  | .warmResetStart => true
  | .rstCmdMgmt who => who.wf
  | .mgmtWatchdogExpire => true
  | .firmwareActivate => true
  | .rstPartGo who part => who.wf && wfPart part
  | .partResetBusyEnd part => wfPart part
  | .bootStepDone _ => true
  | .managementComplexRelease _ _ => true
  | .pairHbInEdge _ => true
  | .ageLdataRead who => who.wf
  | .bar2WriteCommit => true
  | .partnerL0pL1Request port _ => wfPort port

end Sys2Proof
end

