-- ==== Sys2Proof/Tests/Slice0.lean ====
section
/-! SUPPORT. The model's own tests: what the checks of WellFormed refuse, small steps, and for each statement states and operands that meet its
hypotheses. -/

-- One theorem is checked at a time, so that the checks' stacks do not add up.
set_option Elab.async false

namespace Sys2Proof.Tests

open Sys2Proof Sys2Proof.Machine Sys2Proof.Laws

/-! ## Small states -/

/-- A memory request. -/
def req (kind : TlpKind) (rid addr : Nat) (data : List Byte) : Tlp :=
  { kind := kind, rid := rid, tag := 5, pasid := none, tc := 0, addr := addr, len := 4, mask := [], data := data, hdr := 0, ro := false,
    ido := false, poisoned := false, op := .fetchAdd, status := .sc }

/-- Configure port `p` as x4 at lane `lane0`. -/
def portOn (s : State) (p role part lane0 : Nat) : State :=
  let s1 := s.each (List.range 4) fun t k => t.setFlag (pgCEL (cellarOf p)) CEL_LANESTS.UNUSED false (lane0 + k)
  let s2 := ((s1.setFlag (pgLNK p) LNK_CFG.EN true).setF (pgLNK p) LNK_CFG.ROLE role).setF (pgLNK p) LNK_CFG.PART part
  ((s2.setF (pgLNK p) LNK_CFG.LANE0 lane0).setF (pgLNK p) LNK_CFG.WIDTH 2).setF (pgLNK p) LNK_CFG.MAXRATE 5

/-- Put port `p` into L0 at x4, 64 GT/s, with credit without limit. -/
def inUse (s : State) (p : Nat) : State :=
  let s1 := (s.setF (pgSCH (cellarOf p)) SCH_PORTSTS.FPER (State.fperOf 4 5 true) (p % 16)).setF (pgLNK p) LNK_STS.STATE 3
  (((s1.setFlag (pgLNK p) LNK_STS.UP true).setF (pgLNK p) LNK_STS.RATE 5).setF (pgLNK p) LNK_STS.WIDTH 4).modPort p fun x =>
    { x with everL0 := true, l0s := 1, crP := none, crNP := none, crCPL := none, crPD := none, crNPD := none, crCPLD := none }

/-- A served device: upstream port P0 and downstream ports P1 and P2 of PART0, all in L0. -/
def served : State :=
  inUse (inUse (inUse (portOn (portOn (portOn ((({ State.reset with mgmtUp := true } : State).bootAt 12).setFlag pgCLK CLK_STS.PLL_LOCK true)
    0 1 0 0) 1 0 0 4) 2 0 0 8) 0) 1) 2

/-- Slot `n` lets PART0 read and write bytes `lo` to `hi`. -/
def slotOpen (s : State) (n lo hi : Nat) : State :=
  ((((s.setF pgACC ACC_BASE.ADDR (lo / 64) n).setF pgACC ACC_LIMIT.ADDR (hi / 64) n).setFlag pgACC ACC_RD.EN true n).setF pgACC ACC_RD.PARTS 1 n).setF
    pgACC ACC_WR.PARTS 1 n

/-- Window 0 of PART0 routes a page at `base` to a target. -/
def window (s : State) (base kind target : Nat) : State :=
  ((((s.setF (pgWIN 0) WIN_BASE.ADDR (base / 4096) 0).setF (pgWIN 0) WIN_LIMIT.ADDR (base / 4096) 0).setF (pgWIN 0) WIN_ROUTE.KIND kind 0).setF (pgWIN 0)
    WIN_ROUTE.PART 0 0).setF (pgWIN 0) WIN_ROUTE.TARGET target 0

/-- A host's packet as port `p` accepts it. -/
def pkt (s : State) (p id : Nat) (t : Tlp) : Packet :=
  { s.newPacket t p (cellarOf p) (.port p t.rid t.pasid) (s.portPart p) .requester with id := id, group := id, acc := [0] }

/-- A packet in queue `q`, all of whose cells are there. -/
def queued (s : State) (p id q : Nat) (t : Tlp) : Packet :=
  { pkt s p id t with place := .egress, queue := q, route := .port (State.portOfQueue q), entered := [0], arrived := 1 }

/-- A schedule of cycle `n` with nothing planned. -/
def vintage (n : Nat) : Vintage :=
  { number := 7, home := 0, kind := 0, role := 0, triggers := 0, rank := 0, target := 0, cycle := n, digest := 0, plan := [], streams := [],
    gates := [], spine := [], spill := [], dma := [] }

/-- `v` is ACTIVE in slot 0. -/
def running (s : State) (v : Vintage) : State :=
  { s.setSlot 0 5 with sched := { s.sched with active := some v, slots := [(0, some v)] } }

/-- P16 beside the ports of `served`: an FFL port whose link layer is ACTIVE. -/
def onFabric : State :=
  let s := inUse (portOn served 16 2 0 0) 16
  (((s.setL 16 FFL_STS.STATE 3).setF pgFWD FWD_CTL.FDID 1).setFlag pgFWD FWD_CTL.FAB_EN true).modFfl 16 fun x =>
    { x with grantP := 1000, grantNP := 1000, grantCPL := 1000 }

/-! ## What the witnesses use -/

/-- The state a command leaves. -/
def after (r : Host.Outcome State Fault Refusal) : State :=
  match r with
  | .next t => t
  | _ => State.reset

/-- A state with no firing left, whose samples are closed or held, meets the invariant. -/
theorem invOf {s : State} (h : (s.firing.isEmpty && s.trace.all fun r => r.out.isSome || s.sampleHeld r.id) = true) : s.Inv := by
  rw [Bool.and_eq_true, List.isEmpty_iff, List.all_eq_true] at h
  exact ⟨h.1, fun r hr ho => by simpa [ho] using h.2 r hr⟩

/-- The outcome is a next state. -/
def isNext (r : Host.Outcome State Fault Refusal) : Bool :=
  match r with
  | .next _ => true
  | _ => false

theorem next_of {r : Host.Outcome State Fault Refusal} (h : isNext r = true) : r = .next (after r) := by
  cases r with
  | next t => rfl
  | fault f => simp [isNext] at h
  | refused f => simp [isNext] at h

/-! ## What the checks of WellFormed refuse -/

theorem test_wf_refuses_places : [Instr.dlDown 64, .fflReplayTimeout 66, .cellarModeReached 4, .secondaryBusReset 24, .pageLockWrite .mgmt 2048,
    .winRouteWrite .mgmt 8192 0, .schLoad .mgmt 8, .laneErrorEvent 168 .flit, .laneRetireWrite .mgmt 5 0, .cellEgressArrive 512 .ok,
    .queueSnapshot 8, .ingressOrderPass 68 0, .ingressOrderPass 0 3, .repairItemDue 0 2, .policerRelease 0 2, .spineSlot 0 1 2 .ok].all
    (fun c => !c.wf) = true := by decide

theorem test_wf_refuses_operands : [Instr.registerWrite .mgmt 0x800000 false 0xF 0, .registerWrite .mgmt 0x102 false 0xF 0,
    .registerWrite .mgmt 0x100 true 256 0, .rcRead (.host 24) 0 false, .lowWordRead (.tenant 2048) 0, .fflNakReceive 16 4096,
    .tlpReceive 0 (req .mwr 0 (2 ^ 64) []) [0] false false, .tlpReceive 0 (req .mwr 0 0 [1, 2]) [0] false false].all
    (fun c => !c.wf) = true := by decide

theorem test_wf_accepts : [Instr.dlDown 63, .secondaryBusReset 23, .registerWrite .mgmt 0x7FFFFC false 0xF 0, .schLoad (.host 0) 7,
    .tlpReceive 0 (req .mwr 0 0x10 [1, 2, 3, 4]) [0] false false].all Instr.wf = true := by decide

/-! ## Single steps, their results taken from the rules named -/

/-- Table 2.5: PAGE_CTL stores INT_DEST (28:24), FORCE_NOESC (11) and INT_VEC (10:0) and nothing else. -/
theorem test_page_ctl_write :
    (after (exec (.registerWrite .mgmt (pgLNK 1 * 4096 + 0xC) false 0xF 0xFFFFFFFF) served)).reg (pgLNK 1 * 4096 + 0xC) = 0x1F000FFF := by
  decide +kernel

/-- R60: a write with partial byte enables stores nothing and raises PAGE_ACCESS, bit 31. -/
theorem test_partial_write :
    let t := after (exec (.registerWrite .mgmt (pgLNK 1 * 4096 + 0xC) false 0x3 0) served)
    t.reg (pgLNK 1 * 4096 + 0xC) = served.reg (pgLNK 1 * 4096 + 0xC) ∧ bitsOf (t.reg (pgLNK 1 * 4096 + 0x40)) 31 31 = 1 := by decide +kernel

/-- R27: a Cellar asked for HOLD is in CHANGING (3). -/
theorem test_cellar_hold : (after (exec (.cellarHoldReq .mgmt 1) State.reset)).cellarState 1 = 3 := by decide +kernel

/-- R133: one tick is one nanosecond of fabric time. -/
theorem test_tick : (after (step served)).fabric = served.fabric + 1 := by decide +kernel

/-- R250, Table 7.7: eight points for a flit that fails. -/
theorem test_lane_score : (after (exec (.laneErrorEvent 4 .flit) served)).laneScore 1 0 = served.laneScore 1 0 + 8 := by decide +kernel

/-- R254: a lane is retired by a write of its bit. -/
theorem test_lane_retire :
    let t := after (exec (.laneRetireWrite .mgmt 1 0x2) served)
    t.laneRetired 41 = true ∧ t.laneRetired 40 = false ∧ t.laneRetired 1 = false := by decide +kernel

/-- R263: a port whose data link layer goes down shows LDOWN. -/
theorem test_link_down : (after (exec (.dlDown 1) served)).flag (pgLNK 1) LNK_STS.LDOWN = true := by decide +kernel

/-- R457: a forced fault sets its bit of FLT_CAUSE, and a write of FLT_ACK clears it. -/
theorem test_force_ack :
    let t := after (exec (.fltForceWrite .mgmt (pgLNK 1) 1) served)
    t.fltSet (pgLNK 1 * 32) = true ∧ (after (exec (.fltAckWrite .mgmt (pgLNK 1) 1) t)).fltSet (pgLNK 1 * 32) = false := by decide +kernel

/-- R557: erased flash reads 0xFF. -/
theorem test_erased : served.flashByte 5 = 0xFF := by decide +kernel

/-- R75: after GLB_SEAL every page is sealed. -/
theorem test_seal : (after (exec (.glbSealWrite .mgmt) served)).pageSealed 7 = true := by decide +kernel

/-- R638, R639: the worked examples. -/
theorem test_balls : ballName (laneBall 45 false false) = "T87" ∧ ballName (laneBall 45 false true) = "U87" ∧ ballName (slotBall 12 8) = "CE69" := by
  decide +kernel

/-- R643: 750 mV is code 50, and 780 mV 56. -/
theorem test_avs : State.reset.avsVid = 50 ∧ (State.reset.setF pgAGE AGE_AVS.TARGET 780).avsVid = 56 := by decide +kernel

/-- FIPS 180-4, the example of one block: SHA-384 of "abc". -/
theorem test_sha384 : sha384Bytes [0x61, 0x62, 0x63] = beBytes 48
    0xcb00753f45a35e8bb5a03d699ac65007272c32ab0eded1631a8b605a43ff5bed8086072ba1e7cc2358baeca134c825a7 := by decide +kernel

/-- R276: the CRC of the digits 1 to 9, as catalogues of CRCs give it for this polynomial, initial value, bit order and final XOR. -/
theorem test_crc64 : crc64 [0x31, 0x32, 0x33, 0x34, 0x35, 0x36, 0x37, 0x38, 0x39] = 0x62EC59E3F1A4F00A := by decide +kernel

/-! ## What every step keeps -/

theorem meets_EveryStepKeepsTheInvariant : served.Inv ∧ step served = .next (after (step served)) :=
  ⟨invOf (by decide +kernel), next_of (by decide +kernel)⟩

theorem meets_EveryStepKeepsMemoriesCanonical :
    let s := served.hbmWrite 0x200 [some 7, none, some 0]
    step s = .next (after (step s)) ∧ Memory.wf 0 s.hbm = true ∧ Memory.wf 0xFF s.flash = true ∧ s.hbm = [(0x200, 7)] :=
  ⟨next_of (by decide +kernel), by decide +kernel⟩

/-- A boundary of the list of exceptions: a read of a page is none, a write of one is. -/
theorem meets_EveryOtherCommandCompletes : mayBeUndefined (.rcRead .mgmt 0x48 false) = false ∧ mayBeUndefined (.registerWrite .mgmt 0x48 false 0xF 0) = true := by
  decide

theorem meets_HbmWriteReadsBack : Memory.wf 0 (served.hbmWrite 0x200 [some 7, none, some 0]).hbm = true := by decide +kernel

/-! ## Witnesses: registers, faults and requests (chapters 1 to 3, 13)

Each theorem `meets_X_…` shows that its state and operands meet together the hypotheses of a clause, or of several, of `Obligations.X`. -/

namespace Registers

def wHeld : State := State.reset.setCellarState 1 3
def wTrk : State := { served with trk := [{ port := 1, rid := 0x100, tag := 5, pkt := { served.newPacket (req .mrd 0x100 0x1000 []) 0 0 (.port 0 0x100 none) 0 .requester with place := .egress }, born := 0, orphan := none }] }
def wWin : State := slotOpen (window served 0x10000 1 1) 1 0x10000 0x10FFF
def st1 : State := State.reset.setCellarState 1 1
def st3 : State := wHeld.setCellarMode 1 2
def arg4 := (wWin.receive 0 (req .mrd 0 0x10010 []) [0]).1
def arg5 := req .mrd 0 0x10010 []
def arg6 := (wWin.receive 0 (req .mrd 0 0x10010 []) [0]).2
def arg10 := (wTrk.receive 1 (req .cpl 0x100 0 [1,2,3,4]) [0]).1
def arg11 := req .cpl 0x100 0 [1,2,3,4]
def arg12 := (wTrk.receive 1 (req .cpl 0x100 0 [1,2,3,4]) [0]).2
def arg13 := (wTrk.trk.head (by decide))

theorem meets_EmptyQueueIsATick_1 : (served.pending = []) ∧
    (served.flag pgCLK CLK_STS.PLL_LOCK = true) ∧
    (served.sched.events = []) ∧
    (served.edge.freed = []) ∧
    (served.mir.yieldDue = false) ∧
    (served.firing = []) := by decide +kernel

theorem meets_EmptyQueueIsATick_2 : (State.reset.pending = []) ∧
    (State.reset.flag pgCLK CLK_STS.PLL_LOCK = false) := by decide +kernel

theorem meets_CellarModes_1_1 : State.reset.Inv ∧
    1 < 4 ∧
    State.reset.grants Requester.mgmt pgGLB GLB_CEL_CTL.C0_MODE = true ∧
    (State.reset.cellarState 1 = 3 ∨ State.reset.cellarState 1 = 0) ∧
    (State.reset.cellarState 1 = 2 ∨ State.reset.cellarState 1 = 0 ∧ State.reset.cellarEmpty 1 = true) ∧
    (State.reset.cellarState 1 = 1 ∨ State.reset.cellarState 1 = 0 ∧ State.reset.cellarEmpty 1 = true) :=
  ⟨invOf (by decide +kernel), by decide +kernel⟩

theorem meets_CellarModes_1_2 : wHeld.Inv ∧
    1 < 4 ∧
    wHeld.grants Requester.mgmt pgGLB GLB_CEL_CTL.C0_MODE = true ∧
    (wHeld.cellarState 1 = 3 ∨ wHeld.cellarState 1 = 1) ∧
    (wHeld.cellarState 1 = 3 ∨ wHeld.cellarState 1 = 2) :=
  ⟨invOf (by decide +kernel), by decide +kernel⟩

theorem meets_CellarModes_1_3 : served.Inv ∧
    0 < 4 ∧
    served.grants Requester.mgmt pgGLB GLB_CEL_CTL.C0_MODE = true ∧
    served.cellarState 0 = 0 ∧
    served.cellarEmpty 0 = false :=
  ⟨invOf (by decide +kernel), by decide +kernel⟩

theorem meets_CellarModes_1_4 : st1.Inv ∧
    1 < 4 ∧
    st1.grants Requester.mgmt pgGLB GLB_CEL_CTL.C0_MODE = true ∧
    (st1.cellarState 1 = 1 ∨ st1.cellarState 1 = 2) :=
  ⟨invOf (by decide +kernel), by decide +kernel⟩

theorem meets_CellarModes_2_1 : st3.Inv ∧
    1 < 4 ∧
    st3.cellarState 1 = 3 ∧
    st3.cellarMode 1 ≠ 0 :=
  ⟨invOf (by decide +kernel), by decide +kernel⟩

theorem meets_CellarModes_2_2 : wHeld.Inv ∧
    1 < 4 ∧
    wHeld.cellarState 1 = 3 ∧
    wHeld.cellarMode 1 = 0 :=
  ⟨invOf (by decide +kernel), by decide +kernel⟩

theorem meets_CellarModes_2_3 : State.reset.Inv ∧
    1 < 4 ∧
    State.reset.cellarState 1 ≠ 3 :=
  ⟨invOf (by decide +kernel), by decide +kernel⟩

theorem meets_RegisterWritesAndLocks_1_1 : State.reset.Inv ∧
    1 < 2048 ∧
    State.reset.tenantMay Requester.mgmt (1 * 4096 + 12) = true ∧
    State.reset.granted Requester.mgmt (1 * 4096 + 12) 4 = true ∧
    (Requester.mgmt = Requester.mgmt ∨ Requester.mgmt = Requester.debug) ∧
    0 < 3 ∧
    3 < 15 ∧
    State.reset.fltMasked (1 * 32 + 31) = false :=
  ⟨invOf (by decide +kernel), by decide +kernel⟩

theorem meets_RegisterWritesAndLocks_2_1 : served.Inv ∧
    16 < 2048 ∧
    served.grants Requester.mgmt 16 PAGE_LOCK.LOCK = true ∧
    served.grants Requester.mgmt pgGLB GLB_SEAL.SEAL = true ∧
    served.flag pgGLB GLB_SEAL.SEAL = false ∧
    served.trust.held.length < 4096 :=
  ⟨invOf (by decide +kernel), by decide +kernel⟩

theorem meets_RegisterReads_1_1 : served.Inv ∧
    2 < 5 ∧
    served.readable Requester.mgmt (State.offOf pgFLT FLT_CNT.ENTRIES 2) 4 = true ∧
    served.heldRegs = [] :=
  ⟨invOf (by decide +kernel), by decide +kernel⟩

theorem meets_RegisterReads_2_1 : served.Inv ∧
    served.readable Requester.mgmt (State.offOf pgFLT FLT_FIRST_T.TIME) 4 = true ∧
    served.readable Requester.mgmt (State.offOf pgFLT FLT_FIRST_T.TIME + 4) 4 = true ∧
    served.heldRegs = [] :=
  ⟨invOf (by decide +kernel), by decide +kernel⟩

theorem meets_RegisterReads_3_1 : served.Inv ∧
    served.readable Requester.debug 128 4 = true ∧
    served.heldRegs = [] :=
  ⟨invOf (by decide +kernel), by decide +kernel⟩

theorem meets_FaultsAndInterrupts_1_1 : served.Inv ∧
    1 < 2048 ∧
    pageKind 1 = some PageKind.clk ∧
    served.grants Requester.mgmt 1 INT_FORCE.BITS = true ∧
    served.grants Requester.mgmt 1 FLT_FORCE.BITS = true :=
  ⟨invOf (by decide +kernel), by decide +kernel⟩

theorem meets_FaultsAndInterrupts_2_1 : served.Inv ∧
    1 < 2048 ∧
    served.grants Requester.mgmt 1 FLT_ACK.BITS = true :=
  ⟨invOf (by decide +kernel), by decide +kernel⟩

theorem meets_MemoryRequestIsAccepted_1 : wWin.Inv ∧
    wWin.takesTlp 0 = true ∧
    (arg5.kind = TlpKind.mrd ∨ arg5.kind = TlpKind.mwr) ∧
    arg5.ide = none ∧
    wWin.receive 0 arg5 [0] = (arg4, arg6) ∧
    arg4.firing = [] ∧
    arg6.bound = none ∧
    arg4.notServed arg6.part = false ∧
    arg4.attBlocked 0 = false ∧
    arg4.acsBlocks 0 arg5 = false ∧
    arg4.masterOff arg6 = false ∧
    arg4.devFatal = false ∧
    arg4.partFatal arg6.part = false ∧
    (arg4.isUp 0 = true → arg4.barHit arg6.part arg5.addr = none) ∧
    arg4.routeWin 4 arg6.part 0 false arg5 = Verdict.ok (Route.port 1) (attrOf (wWin.configWindow 0)) (some 69631) arg6.part ∧
    (∀ (l : ℕ), some 69631 = some l → arg5.addr + arg5.len ≤ l + 1) ∧
    (attrOf (wWin.configWindow 0)).swap = 0 ∧
    arg4.noTraffic 1 = false ∧
    arg4.isFfl 1 = false ∧
    arg4.partFatal (arg4.portPart 1) = false ∧
    arg4.attBlocked 1 = false ∧
    arg4.judge 0 1 arg6.part (needsRd arg5) (needsWr arg5) (judgedAddrs arg5) = none :=
  ⟨invOf (by decide +kernel), by decide +kernel⟩

theorem meets_CompletionReturnsToItsRequester_1 : wTrk.Inv ∧
    wTrk.takesTlp 1 = true ∧
    arg11.kind = TlpKind.cpl ∧
    arg11.ide = none ∧
    wTrk.devFatal = false ∧
    wTrk.receive 1 arg11 [0] = (arg10, arg12) ∧
    arg10.firing = [] ∧
    arg10.trkFind 1 arg11.rid arg11.tag = some arg13 ∧
    arg13.orphan = none ∧
    arg13.pkt.owner = Owner.requester ∧
    arg13.pkt.ini = Initiator.port 0 256 none ∧
    arg10.routeId (arg10.portPart 0) 256 = some 0 ∧
    arg10.acsOn 1 3 = false ∧
    arg10.noTraffic 0 = false :=
  ⟨invOf (by decide +kernel), by decide +kernel⟩

end Registers

/-! ## Witnesses: forwarding and the spine (chapters 1, 3)

Each theorem `meets_X_…` shows that its state and operands meet together the hypotheses of a clause, or of several, of `Obligations.X`. -/

namespace Forwarding

def wBusy : State := served.setFlag pgRST RST_PSTS.BUSY true 0
def wHeldReg : State := { window served 0x10000 1 1 with heldRegs := [], pf := [{ id := 3, cellar := 0, win := 0, part := 0, port := 1, base := 0x10000, size := 256, data := some [], result := none, valid := true, born := 0, cid := 0, got := [], waiting := [] }] }
def wShared : State := let s : State := { served with regions := [(1, (0x100000, 0x100000))], fabric := 100 }; { s with packets := [{ pkt s 0 3 (req .mrd 0 0x100040 []) with route := .shared 0x100040 }] }
def arg2 := (wShared.packets.headD (pkt served 0 9 (req .mrd 0 0 [])))
def blk : PfBlock := { id := 3, cellar := 0, win := 0, part := 0, port := 1, base := 0x10000, size := 256, data := none, result := some (.sc, [1,2], false), valid := true, born := 0, cid := 0, got := [], waiting := [] }
def wPf : State := { served with pf := [blk], ticks := 100000 }
def blk2 : PfBlock := { blk with data := some [1], result := none }
def wPf2 : State := { served with pf := [blk2, { blk with id := 4}], ticks := 100000 }
def trk1 : TrkEntry := { port := 1, rid := 0x100, tag := 5, pkt := { pkt served 0 3 (req .mrd 0x100 0x1000 []) with place := .egress }, born := 0, orphan := some 0 }
def wTrk1 : State := { served with trk := [trk1], ticks := 100000000000 }
def wTrk2 : State := { (served.setF pgFWD FWD_REAP_CTL.LIVE_T 5) with trk := [{trk1 with orphan := none}], ticks := 100000000000 }
def arg3 : TrkEntry := {trk1 with orphan := none}
def portsX : State := inUse (portOn served 16 0 0 0) 16
def wSpB : State := { portsX with fabric := 100, packets := [{ queued portsX 1 3 (128) (req .mwr 0x100 0x1000 [1,2,3,4]) with entered := [], arrived := 0 }] }
def arg4 := (wSpB.packets.headD (pkt served 0 9 (req .mrd 0 0 [])))
def v1 : Vintage := { vintage 1000 with streams := [(128, { sched := true, ing := 1, pmax := 1, offset := 0, cells := 1 })], spine := [(1, [(200, 0)])] }
def wSpS : State := { running wSpB v1 with fabric := 100 }
def wSpA : State := { portsX with fabric := 100, packets := [{ queued portsX 1 3 (128) (req .mwr 0x100 0x1000 [1,2,3,4]) with entered := [10], arrived := 0 }] }
def arg5 := (wSpA.packets.headD (pkt served 0 9 (req .mrd 0 0 [])))

theorem meets_ForwardingTables_1_1 : served.Inv ∧
    (served.isUp 0 || served.isDown 0) = true ∧
    served.notServed (served.portPart 0) = false ∧
    served.isUp 0 = true :=
  ⟨invOf (by decide +kernel), by decide +kernel⟩

theorem meets_ForwardingTables_1_2 : served.Inv ∧
    (served.isUp 1 || served.isDown 1) = true ∧
    served.notServed (served.portPart 1) = false ∧
    served.isDown 1 = true :=
  ⟨invOf (by decide +kernel), by decide +kernel⟩

theorem meets_ForwardingTables_1_3 : wBusy.Inv ∧
    (wBusy.isUp 1 || wBusy.isDown 1) = true ∧
    wBusy.notServed (wBusy.portPart 1) = true :=
  ⟨invOf (by decide +kernel), by decide +kernel⟩

theorem meets_ForwardingTables_2_1 : wHeldReg.Inv ∧
    0 < 8064 ∧
    0 < 96 ∧
    wHeldReg.pageSealed (pgWIN 0) = false ∧
    wHeldReg.grants Requester.mgmt (pgWIN 0) WIN_BASE.ADDR (0 % 128) 8 = true ∧
    wHeldReg.grants Requester.mgmt (pgWIN 0) WIN_ROUTE.KIND (0 % 128) = true ∧
    wHeldReg.winUndefined 0 = none ∧
    wHeldReg.winLosesRule 0 = false ∧
    wHeldReg.pageSealed pgACC = false ∧
    wHeldReg.grants Requester.mgmt pgACC ACC_BASE.ADDR 0 8 = true ∧
    wHeldReg.grants Requester.mgmt pgACC ACC_RD.EN = true :=
  ⟨invOf (by decide +kernel), by decide +kernel⟩

theorem meets_ForwardingTables_3_1 : served.Inv ∧
    served.grants Requester.mgmt pgFWD FWD_EPT_DATA.KIND = true ∧
    served.pageSealed pgFWD = false :=
  ⟨invOf (by decide +kernel), by decide +kernel⟩

theorem meets_SharedReadPassesTheOrderingPoint_1 : wShared.Inv ∧
    0 < 64 ∧
    wShared.cellarRun (cellarOf 0) = true ∧
    wShared.ingressHead 0 1 = some arg2 ∧
    arg2.place = Place.ingress ∧
    arg2.tlp.kind = TlpKind.mrd ∧
    arg2.route = Route.shared 1048640 ∧
    arg2.fab = none ∧
    arg2.bad = false ∧
    wShared.fabric ≥ arg2.acc.getLastD 0 + 30 ∧
    wShared.earlierPosted arg2.ini arg2.id = false ∧
    (wShared.port 0).cleanup = false ∧
    wShared.devFatal = false ∧
    wShared.standby = false ∧
    wShared.engineTag arg2 = some arg2 ∧
    wShared.hdmPast arg2 = false ∧
    1048640 + max 1 arg2.tlp.len ≤ wShared.regionBase 1 + wShared.regionSize 1 :=
  ⟨invOf (by decide +kernel), by decide +kernel⟩

theorem meets_PrefetchAndReaper_1_1 : wPf2.Inv ∧
    (List.find? (fun x => x.id == 3) wPf2.pf = some blk2) ∧
    blk2.data.isSome = true ∧
    blk2.born + 16 * wPf2.getF pgFWD FWD_PF_CTL.HOLD ≤ wPf2.ticks :=
  ⟨invOf (by decide +kernel), by decide +kernel⟩

theorem meets_PrefetchAndReaper_1_2 : wPf.Inv ∧
    (List.find? (fun x => x.id == 3) wPf.pf = some blk) ∧
    blk.result = some (CplStatus.sc, [1, 2], false) ∧
    blk.valid = true ∧
    blk.waiting = [] :=
  ⟨invOf (by decide +kernel), by decide +kernel⟩

theorem meets_PrefetchAndReaper_2_1 : wTrk2.Inv ∧
    wTrk2.trkFind 1 256 5 = some arg3 ∧
    arg3.orphan = none ∧
    wTrk2.getF pgFWD FWD_REAP_CTL.LIVE_T ≠ 0 ∧
    arg3.born + 1000000 * wTrk2.getF pgFWD FWD_REAP_CTL.LIVE_T ≤ wTrk2.ticks ∧
    arg3.pkt.owner = Owner.requester ∧
    arg3.pkt.ini = Initiator.port 0 256 none ∧
    wTrk2.stale arg3.pkt = false ∧
    arg3.pkt.forbidden = false ∧
    wTrk2.noTraffic 0 = false :=
  ⟨invOf (by decide +kernel), by decide +kernel⟩

theorem meets_PrefetchAndReaper_2_2 : wTrk1.Inv ∧
    wTrk1.trkFind 1 256 5 = some trk1 ∧
    trk1.orphan = some 0 ∧
    0 + 1000 * wTrk1.getF pgFWD FWD_REAP_CTL.ORPHAN_T ≤ wTrk1.ticks :=
  ⟨invOf (by decide +kernel), by decide +kernel⟩

theorem meets_SpineAndSpill_1_1 : wSpB.Inv ∧
    0 < 4 ∧
    1 < 4 ∧
    0 ≠ 1 ∧
    0 < 2 ∧
    wSpB.cellarRun 0 = true ∧
    wSpB.cellarRun 1 = true ∧
    bitAt (wSpB.slotsUsed (4 * 0 + 1)) 0 = false ∧
    (List.find? (fun x => x.1 == 2 * wSpB.cycPos wSpB.fabric + 0) (wSpB.pathSlots 0 1) = none) ∧
    wSpB.spineBest 0 1 (2 * wSpB.fabric + 0) = some arg4 :=
  ⟨invOf (by decide +kernel), by decide +kernel⟩

theorem meets_SpineAndSpill_1_2 : wSpS.Inv ∧
    0 < 4 ∧
    1 < 4 ∧
    0 ≠ 1 ∧
    0 < 2 ∧
    wSpS.cellarRun 0 = true ∧
    wSpS.cellarRun 1 = true ∧
    bitAt (wSpS.slotsUsed (4 * 0 + 1)) 0 = false ∧
    (List.find? (fun x => x.1 == 2 * wSpS.cycPos wSpS.fabric + 0) (wSpS.pathSlots 0 1) = some (200, 128)) ∧
    wSpS.ownsSlots (200, 128).2 = true ∧
    (List.find? (fun p => p.queue == (200, 128).2 && (State.nextCell p (2 * wSpS.fabric + 0)).isSome) (wSpS.onPath 0 1) = some arg4) :=
  ⟨invOf (by decide +kernel), by decide +kernel⟩

theorem meets_SpineAndSpill_1_3 : wSpA.Inv ∧
    128 < 512 ∧
    wSpA.cellarRun (128 / 128) = true ∧
    (List.find?     (fun p =>       match p.entered[p.arrived]? with       | some e => decide (State.reachHalf e ≤ 2 * wSpA.fabric + 1)       | none => false)     (wSpA.inQueue 128) =   some arg5) :=
  ⟨invOf (by decide +kernel), by decide +kernel⟩

end Forwarding

/-! ## Witnesses: queues and ports (chapters 4, 6)

Each theorem `meets_X_…` shows that its state and operands meet together the hypotheses of a clause, or of several, of `Obligations.X`. -/

namespace Queues

def spk : Packet := { queued served 0 3 8 (req .mwr 0x100 0x1000 [1,2,3,4]) with spill := true }
def wSpill : State := { (running (served.setFlag pgSPL SPL_CTL.EN true) { vintage 1000 with spill := [{ start := 100, cellar := 0, queue := 8, dir := 0, cells := 8 }] }) with fabric := 100, ticks := 200, packets := [spk], spillOps := [⟨[(3, 1)], true, 150⟩] }
def wSpill0 : State := { wSpill with spillOps := [] }
def arg1 : Vintage := { vintage 1000 with spill := [{ start := 100, cellar := 0, queue := 8, dir := 0, cells := 8 }] }
def arg2 : SpillSlot := { start := 100, cellar := 0, queue := 8, dir := 0, cells := 8 }
def st3 : State := { wSpill0 with fabric := 101 }
def wPol : State := served.modPort 1 fun x => { x with heldP := 5, heldFc := [(0, 1, 2), (1, 1, 0), (0, 1, 3)] }
def wPolR : State := { wPol with edge := { wPol.edge with relDue := [(1, 0), (1, 1)] } }
def wPolF : State := { onFabric.modPort 16 fun x => { x with heldP := 5, heldNP := 7 } with edge := { onFabric.edge with relDue := [(16, 1), (16, 0)] } }
def wSnap : State := { ((served.setFlag (celPage 0 3) QSH_SAMP.EN true).setF (celPage 0 3) QSH_SAMP.EXP 10) with fabric := 4096000, packets := [queued served 0 3 8 (req .mwr 0x100 0x1000 [1,2,3,4])] }
def wSnap1 : State := { wSnap with edge := { wSnap.edge with snaps := [(0, (List.range 64).map fun i => (i, 0x1000000000 + i))] } }
def arg6 : Packet := queued served 0 3 8 (req .mwr 0x100 0x1000 [1,2,3,4])
def wStall : State := wSnap.setF (qpg 8) QSH_STALL_CTL.LIMIT 2
def st8 : State := wStall.modQueue 8 fun x => { x with stalled := some 3 }
def vOwn : Vintage := { vintage 1000 with plan := [(1, State.fperOf 4 5 true)], streams := [(8, { sched := true, ing := 0, pmax := 1, offset := 0, cells := 1 })], gates := [(1, [{ start := 96, len := 2, kind := 0, queue := 8 }])] }
def kOwn : Packet := { queued served 0 3 8 (req .mwr 0x100 0x1000 [1,2,3,4]) with mark := .inWin 0 0 }
def wOwn : State := { running served vOwn with fabric := 96, packets := [kOwn] }
def kBe : Packet := queued served 0 3 8 (req .mwr 0x100 0x1000 [1,2,3,4])
def wBe : State := { (served.setF (pgSCH 0) SCH_PORTSTS.FPER 0 1) with fabric := 96, packets := [kBe] }
def arg9 := (wBe.beSelect 1 4096 96).1
def wSent : State := { (served.modPort 1 fun x => { x with sent := [kBe] }) with openW := [] }

theorem meets_SpineAndSpill_2_1 : wSpill.Inv ∧
    wSpill.sched.active = some arg1 ∧
    arg1.spill[0]? = some arg2 ∧
    wSpill.spillRuns = true ∧
    wSpill.cycPos wSpill.fabric = arg2.start ∧
    wSpill.cellarRun arg2.cellar = true ∧
    wSpill.edge.spillAt ≠ some wSpill.ticks ∧
    wSpill.spillBurst (128 * arg2.cellar + arg2.queue % 128) arg2.cells (arg2.dir == 1) = [(3, 1)] ∧
    [(3, 1)] ≠ [] ∧
    (List.find? (fun o => decide (o.endTick ≤ wSpill.ticks)) wSpill.spillOps = some { parts := [(3, 1)], back := true, endTick := 150 }) :=
  ⟨invOf (by decide +kernel), by decide +kernel⟩

theorem meets_SpineAndSpill_2_2 : st3.Inv ∧
    st3.spillRuns = true ∧
    st3.spillFree false = true ∧
    st3.spillPick false = some 8 ∧
    st3.spillBurst 8 8 false = [(3, 1)] ∧
    [(3, 1)] ≠ [] :=
  ⟨invOf (by decide +kernel), by decide +kernel⟩

theorem meets_PolicersAndQueues_1_1 : wPolF.Inv ∧
    16 < 64 ∧
    0 < 2 ∧
    (16, 0) ∈ wPolF.edge.relDue ∧
    wPolF.isFfl 16 = true ∧
    wPolF.flag (pgFFL 16) FFL_STS.LDOWN = false ∧
    0 < 4 ∧
    63 < 64 ∧
    wPolF.pageSealed (celPage 0 (3 + 0)) = false ∧
    wPolF.grants Requester.mgmt (celPage 0 (3 + 0)) QSH_SRATE.RATE 63 = true ∧
    wPolF.grants Requester.mgmt (celPage 0 (3 + 0)) QSH_SBURST.BURST 63 = true ∧
    1 ≤ (4097 : Word).toNat % 4096 :=
  ⟨invOf (by decide +kernel), by decide +kernel⟩

theorem meets_PolicersAndQueues_1_2 : wPolR.Inv ∧
    1 < 64 ∧
    0 < 2 ∧
    (1, 0) ∈ wPolR.edge.relDue ∧
    wPolR.isFfl 1 = false :=
  ⟨invOf (by decide +kernel), by decide +kernel⟩

theorem meets_PolicersAndQueues_1_3 : wPol.Inv ∧
    1 < 64 ∧
    0 < 2 ∧
    (1, 0) ∉ wPol.edge.relDue :=
  ⟨invOf (by decide +kernel), by decide +kernel⟩

theorem meets_PolicersAndQueues_2_1 : wSnap1.Inv ∧
    wSnap1.pending = [] ∧
    wSnap1.flag pgCLK CLK_STS.PLL_LOCK = true ∧
    0 < 8 ∧
    (List.find? (fun x => x.1 == 0) wSnap1.edge.snaps = some (0, List.map (fun i => (i, 68719476736 + i)) (List.range 64))) ∧
    ((List.map (fun i => (i, 68719476736 + i)) (List.range 64)).length = 64) ∧
    wSnap1.cellarRun (0 / 2) = true ∧
    8 < 512 ∧
    wSnap1.inQueue 8 = [arg6] ∧
    wSnap1.getF (qpg 8) QSH_STALL_CTL.LIMIT ≠ 0 ∧
    1000 * wSnap1.getF (qpg 8) QSH_STALL_CTL.LIMIT < wSnap1.headAge 8 ∧
    (wSnap1.queue 8).stalled ≠ some arg6.id ∧
    (after (exec (.queueStallDetect 8) wSnap1)).devFatal = false ∧
    wSnap1.fltMasked (qpg 8 * 32) = false ∧
    wSnap1.flag (qpg 8) QSH_STALL_INFO.VALID = false :=
  ⟨invOf (by decide +kernel), by decide +kernel⟩

theorem meets_PolicersAndQueues_2_2 : st8.Inv ∧
    8 < 512 ∧
    st8.inQueue 8 = [arg6] ∧
    (st8.queue 8).stalled = some arg6.id :=
  ⟨invOf (by decide +kernel), by decide +kernel⟩

theorem meets_OwnedPeriodCarriesItsPacket_1 : wOwn.Inv ∧
    1 < 64 ∧
    wOwn.devFatal = false ∧
    wOwn.portEn 1 = true ∧
    wOwn.inL0 1 = true ∧
    wOwn.isFfl 1 = false ∧
    wOwn.onGrid 1 wOwn.fabric = true ∧
    (wOwn.port 1).nextPer ≤ wOwn.fabric ∧
    (wOwn.port 1).sending = none ∧
    (wOwn.port 1).nullOwed = false ∧
    wOwn.sched.active.isSome = true ∧
    wOwn.beOnly 1 = false ∧
    wOwn.slip 1 = 0 ∧
    (wOwn.periodKind 1 (wOwn.cycPos wOwn.fabric)).1 = some 8 ∧
    wOwn.repairWaited 1 = false ∧
    (∀ k ∈ wOwn.packets, k.bad = false) ∧
    wOwn.headOf 8 = some kOwn ∧
    wOwn.packet? kOwn.id = some kOwn ∧
    kOwn.poison = none ∧
    wOwn.packetBound 8 kOwn = some wOwn.fabric ∧
    wOwn.startReady kOwn wOwn.fabric = true ∧
    wOwn.linkCredit 1 kOwn = true :=
  ⟨invOf (by decide +kernel), by decide +kernel⟩

theorem meets_PortsSendTlps_1_1 : wBe.Inv ∧
    1 < 64 ∧
    wBe.devFatal = false ∧
    wBe.portEn 1 = true ∧
    wBe.inL0 1 = true ∧
    wBe.isFfl 1 = false ∧
    wBe.fper 1 = 0 ∧
    (wBe.port 1).nullOwed = false ∧
    wBe.repairPending 1 = false ∧
    (∀ x ∈ wBe.packets, x.bad = false) ∧
    wBe.beSelect 1 4096 wBe.fabric = (arg9, some kBe) ∧
    wBe.packet? kBe.id = some kBe ∧
    kBe.poison = none ∧
    wBe.startReady { id := kBe.id, tlp := kBe.tlp, orig := kBe.orig, ing := kBe.ing, cell0 := kBe.cell0, ini := kBe.ini, part := kBe.part, bound := kBe.bound, wseq := kBe.wseq, route := kBe.route, attr := kBe.attr, forbidden := kBe.forbidden, fab := kBe.fab, acc := kBe.acc, ncell := kBe.ncell, place := kBe.place, queue := kBe.queue, ordTick := kBe.ordTick, order := kBe.order, cut := false, entered := kBe.entered, arrived := kBe.arrived, left := kBe.left, spill := kBe.spill, spilled := kBe.spilled, spillBusy := kBe.spillBusy, poison := kBe.poison, d1 := kBe.d1, mark := kBe.mark, bad := kBe.bad, group := kBe.group, held := kBe.held, ideBad := kBe.ideBad, skip := kBe.skip, walk := kBe.walk, cfgCpl := kBe.cfgCpl, sample := kBe.sample, owner := kBe.owner, ebase := kBe.ebase, elen := kBe.elen, reqAddr := kBe.reqAddr, reqLen := kBe.reqLen, mcSeen := kBe.mcSeen, taint := kBe.taint } wBe.fabric = true :=
  ⟨invOf (by decide +kernel), by decide +kernel⟩

theorem meets_PortsSendTlps_2_1 : wSent.Inv ∧
    1 < 64 ∧
    List.take 1 (wSent.port 1).sent = [kBe] ∧
    isWrite kBe.tlp = true ∧
    wSent.portEn 1 = true ∧
    wSent.isFfl 1 = false ∧
    wSent.inL0 1 = true :=
  ⟨invOf (by decide +kernel), by decide +kernel⟩

end Queues

/-! ## Witnesses: images and swaps (chapters 4, 5)

Each theorem `meets_X_…` shows that its state and operands meet together the hypotheses of a clause, or of several, of `Obligations.X`. -/

namespace Images

def p0 : Packet := pkt served 0 9 (req .mrd 0 0 [])
def kBe : Packet := queued served 0 3 8 (req .mwr 0x100 0x1000 [1,2,3,4])
def wBe : State := { (served.setF (pgSCH 0) SCH_PORTSTS.FPER 0 1) with fabric := 96, packets := [kBe] }
def arg1 := (wBe.beSelect 1 4096 96).1
def vOwn : Vintage := { vintage 1000 with plan := [(1, State.fperOf 4 5 true)], streams := [(8, { sched := true, ing := 0, pmax := 1, offset := 0, cells := 1 })], gates := [(1, [{ start := 96, len := 2, kind := 0, queue := 8 }])] }
def kOwn : Packet := { queued served 0 3 8 (req .mwr 0x100 0x1000 [1,2,3,4]) with mark := .inWin 0 0 }
def wOwn : State := { running ((served.modPort 1 fun x => { x with repair := [0]}).setF (pgSCH 0) SCH_PORTCFG.RP_WAIT 0 1) vOwn with fabric := 96, packets := [kOwn] }
def st2 : State := (wOwn.setF (pgSCH 0) SCH_PORTCFG.SLIP_MAX 0 1)
def img (s : State) (i st : Nat) (v : Vintage) : State := { s.setSlot i st with sched := { s.sched with slots := storeInsert s.sched.slots i (some v) } }
def fbV : Vintage := { vintage 1000 with kind := 1, number := 9 }
def st3 : State := (served.setF pgDEVSCH SCH_IMG_SRCCTL.KIND 1)
def st4 : State := (img served 2 2 fbV)
def wArm : State := { (img served 2 2 (vintage 1000)).setF pgDEVSCH SCH_ARM_T.TIME 200000 with fabric := 0 }
def armOp : ArmOp := ⟨2, 200000, false, false, false⟩
def wArmed : State := let s := img served 2 4 (vintage 1000); { s with sched := { s.sched with arm := some armOp } }
def st5 : State := ((img served 7 6 fbV).setF pgDEVSCH SCH_HOME.SLOT 7).setFlag pgDEVSCH SCH_HOME.VALID true
def ldOp : LoadOp := ⟨4, 0, 1, 0, 256, false, [], 0⟩
def wLd : State := let s := served.setSlot 4 1; { s with sched := { s.sched with load := some ldOp } }
def ldTrk : TrkEntry := { port := 0, rid := 0, tag := 5, pkt := { p0 with owner := .load 0 }, born := 0, orphan := none }
def wLd2 : State := { wLd with trk := [ldTrk], ticks := 10000000000 }
def imgBody : List Byte := leBytes 2 7 ++ leBytes 2 0 ++ leBytes 4 0x90 ++ leBytes 4 4 ++ leBytes 4 1 ++ leBytes 4 0
def goodImage : List Byte := leBytes 4 0x4C474D49 ++ leBytes 2 1 ++ leBytes 2 0x80 ++ leBytes 4 7 ++ leBytes 4 7 ++ leBytes 4 0x94 ++ leBytes 4 20 ++ leBytes 4 1000 ++ leBytes 2 1 ++ leBytes 1 0 ++ leBytes 1 0 ++ leBytes 4 0 ++ leBytes 4 0xFF ++ leBytes 8 0 ++ leBytes 48 (sha384 imgBody) ++ leBytes 32 0 ++ imgBody
def ldOp2 : LoadOp := ⟨4, 0x1000, 0, 0, 0x94, false, [(0, goodImage)], 0⟩
def wLd3 : State := let s := served.setSlot 4 1; { s with sched := { s.sched with load := some ldOp2 } }
def st6 : State := wLd3.setFlag pgDEVSCH SCH_POLICY.SIG_REQ false
def armC : ArmOp := ⟨2, 96, false, false, false⟩
def armP : ArmOp := ⟨2, 30000, true, false, false⟩
def fbC : FbOp := ⟨3, 96, [], []⟩
def wSw : State := let s := (img (img served 2 4 vOwn) 3 3 { vOwn with kind := 1, number := 12 }); { s with sched := { s.sched with arm := some armC, fb := some fbC }, fabric := 96, mir := { s.mir with armReport := some (96, 7, 0) } }
def wPr : State := { wSw with sched := { wSw.sched with arm := some armP }, fabric := 10000, mir := { wSw.mir with armReport := some (30000, 7, 0) } }
def st7 : State := { wPr with mir := { wSw.mir with armReport := none }}
def vFb : Vintage := { vOwn with kind := 1, number := 12 }
def wSwB : State := { wSw with sched := { wSw.sched with arm := none } }
def st11 : State := (wSw.setCellarState 0 1)

theorem meets_PortsSendTlps_1_1 : wBe.Inv ∧
    1 < 64 ∧
    wBe.devFatal = false ∧
    wBe.portEn 1 = true ∧
    wBe.inL0 1 = true ∧
    wBe.isFfl 1 = false ∧
    wBe.fper 1 = 0 ∧
    (wBe.port 1).nullOwed = false ∧
    wBe.repairPending 1 = false ∧
    (∀ x ∈ wBe.packets, x.bad = false) ∧
    wBe.beSelect 1 4096 wBe.fabric = (arg1, some kBe) ∧
    wBe.packet? kBe.id = some kBe ∧
    kBe.poison = none ∧
    wBe.startReady { id := kBe.id, tlp := kBe.tlp, orig := kBe.orig, ing := kBe.ing, cell0 := kBe.cell0, ini := kBe.ini, part := kBe.part, bound := kBe.bound, wseq := kBe.wseq, route := kBe.route, attr := kBe.attr, forbidden := kBe.forbidden, fab := kBe.fab, acc := kBe.acc, ncell := kBe.ncell, place := kBe.place, queue := kBe.queue, ordTick := kBe.ordTick, order := kBe.order, cut := false, entered := kBe.entered, arrived := kBe.arrived, left := kBe.left, spill := kBe.spill, spilled := kBe.spilled, spillBusy := kBe.spillBusy, poison := kBe.poison, d1 := kBe.d1, mark := kBe.mark, bad := kBe.bad, group := kBe.group, held := kBe.held, ideBad := kBe.ideBad, skip := kBe.skip, walk := kBe.walk, cfgCpl := kBe.cfgCpl, sample := kBe.sample, owner := kBe.owner, ebase := kBe.ebase, elen := kBe.elen, reqAddr := kBe.reqAddr, reqLen := kBe.reqLen, mcSeen := kBe.mcSeen, taint := kBe.taint } wBe.fabric = true :=
  ⟨invOf (by decide +kernel), by decide +kernel⟩

theorem meets_RepairItemsTakePeriods_1 : wOwn.Inv ∧
    1 < 64 ∧
    wOwn.portEn 1 = true ∧
    wOwn.isFfl 1 = false ∧
    wOwn.devFatal = false ∧
    wOwn.inL0 1 = true ∧
    wOwn.onGrid 1 wOwn.fabric = true ∧
    (wOwn.port 1).nextPer ≤ wOwn.fabric ∧
    wOwn.stealQueue 1 = some 8 ∧
    wOwn.slip 1 < wOwn.slipMax 1 :=
  ⟨invOf (by decide +kernel), by decide +kernel⟩

theorem meets_RepairItemsTakePeriods_2 : st2.Inv ∧
    1 < 64 ∧
    st2.portEn 1 = true ∧
    st2.isFfl 1 = false ∧
    st2.devFatal = false ∧
    st2.inL0 1 = true ∧
    st2.onGrid 1 st2.fabric = true ∧
    (st2.port 1).nextPer ≤ st2.fabric ∧
    st2.stealQueue 1 = some 8 ∧
    st2.slipMax 1 ≤ st2.slip 1 ∧
    (st2.port 1).limitHit = false ∧
    st2.fltMasked (pgSCH (cellarOf 1) * 32 + 1) = false :=
  ⟨invOf (by decide +kernel), by decide +kernel⟩

theorem meets_ImageCommandsMoveTheirSlot_1 : wArm.Inv ∧
    2 < 8 ∧
    wArm.imgReady Requester.mgmt = true ∧
    wArm.slotState 2 ∈ [2, 3, 6] ∧
    (∀ (f : FbOp), wArm.sched.fb = some f → f.slot ≠ 2) ∧
    wArm.armCheck 2 = 0 ∧
    15 < 16 ∧
    (15 = 0 ∨ 5 < 15) :=
  ⟨invOf (by decide +kernel), by decide +kernel⟩

theorem meets_ImageCommandsMoveTheirSlot_2 : wArmed.Inv ∧
    2 < 8 ∧
    wArmed.imgReady Requester.mgmt = true ∧
    wArmed.sched.arm = some armOp ∧
    armOp.slot = 2 ∧
    wArmed.fabric + 20000 < armOp.tick :=
  ⟨invOf (by decide +kernel), by decide +kernel⟩

theorem meets_ImageCommandsMoveTheirSlot_3 : st3.Inv ∧
    3 < 8 ∧
    st3.imgReady Requester.mgmt = true ∧
    st3.slotState 3 = 0 ∧
    st3.getF pgDEVSCH SCH_IMG_SRCCTL.KIND = 1 ∧
    st3.getF pgDEVSCH SCH_IMG_SRC.ADDR + st3.getF pgDEVSCH SCH_IMG_LEN.BYTES ≤ 67108864 :=
  ⟨invOf (by decide +kernel), by decide +kernel⟩

theorem meets_ImageCommandsMoveTheirSlot_4 : st4.Inv ∧
    2 < 8 ∧
    st4.imgReady Requester.mgmt = true ∧
    st4.slotState 2 = 2 ∧
    st4.slotImg 2 = some fbV ∧
    fbV.kind = 1 ∧
    ((List.filter (fun j => st4.slotState j == 3) (List.range 8)).length < 4) ∧
    (∀ c < 4, givesTo fbV c = true → st4.cellarRun c = true) :=
  ⟨invOf (by decide +kernel), by decide +kernel⟩

theorem meets_ImageCommandsMoveTheirSlot_5 : st5.Inv ∧
    7 < 8 ∧
    st5.imgReady Requester.mgmt = true ∧
    st5.slotState 7 ∈ [2, 3, 6] ∧
    (∀ (f : FbOp), st5.sched.fb = some f → f.slot ≠ 7) ∧
    st5.slotState 7 = 6 :=
  ⟨invOf (by decide +kernel), by decide +kernel⟩

theorem meets_LoadsEndInAReadyOrEmptySlot_1 : st6.Inv ∧
    ldOp2.slot < 8 ∧
    st6.sched.load = some ldOp2 ∧
    st6.loadOutstanding = false ∧
    (goodImage = if ldOp2.kind = 1 then st6.flashRead ldOp2.src ldOp2.len else List.flatMap (fun x => x.2) ldOp2.got) ∧
    st6.loadCheck ldOp2 goodImage = 0 ∧
    st6.trust.held.length < 4096 :=
  ⟨invOf (by decide +kernel), by decide +kernel⟩

theorem meets_LoadsEndInAReadyOrEmptySlot_2 : wLd.Inv ∧
    ldOp.slot < 8 ∧
    wLd.sched.load = some ldOp ∧
    wLd.loadOutstanding = false ∧
    (wLd.flashRead 0 256 = if ldOp.kind = 1 then wLd.flashRead ldOp.src ldOp.len else List.flatMap (fun x => x.2) ldOp.got) ∧
    wLd.loadCheck ldOp (wLd.flashRead 0 256) ≠ 0 :=
  ⟨invOf (by decide +kernel), by decide +kernel⟩

theorem meets_LoadsEndInAReadyOrEmptySlot_3 : wLd2.Inv ∧
    ldOp.slot < 8 ∧
    wLd2.sched.load = some ldOp ∧
    ldTrk ∈ wLd2.trk ∧
    State.ofLoad ldTrk.pkt.owner = true ∧
    ldTrk.born + (wLd2.part ldOp.part).cplTimeout ≤ wLd2.ticks :=
  ⟨invOf (by decide +kernel), by decide +kernel⟩

theorem meets_LoadsEndInAReadyOrEmptySlot_4 : wArmed.Inv ∧
    ldOp.slot < 8 ∧
    wArmed.sched.arm = some armOp :=
  ⟨invOf (by decide +kernel), by decide +kernel⟩

theorem meets_SwapsChangeTheActiveVintage_1 : wSw.Inv ∧
    armC.slot < 8 ∧
    fbC.slot < 8 ∧
    wSw.sched.arm = some armC ∧
    wSw.devFatal = false ∧
    armC.tick ≤ wSw.fabric ∧
    wSw.slotImg armC.slot = some vOwn ∧
    (armC.pair = true → armC.checked = true ∨ wSw.pairAgrees armC = true) ∧
    (∀ c < 4, givesTo vOwn c = true → wSw.cellarRun c = true) ∧
    wSw.imageBad vOwn = none :=
  ⟨invOf (by decide +kernel), by decide +kernel⟩

theorem meets_SwapsChangeTheActiveVintage_2 : wSwB.Inv ∧
    armC.slot < 8 ∧
    fbC.slot < 8 ∧
    wSwB.sched.fb = some fbC ∧
    wSwB.devFatal = false ∧
    fbC.tick ≤ wSwB.fabric ∧
    wSwB.slotImg fbC.slot = some vFb ∧
    wSwB.imageBad vFb = none :=
  ⟨invOf (by decide +kernel), by decide +kernel⟩

theorem meets_SwapsChangeTheActiveVintage_3 : st11.Inv ∧
    armC.slot < 8 ∧
    fbC.slot < 8 ∧
    st11.sched.arm = some armC ∧
    st11.devFatal = false ∧
    armC.tick ≤ st11.fabric ∧
    st11.slotImg armC.slot = some vOwn ∧
    (armC.pair = true → armC.checked = true ∨ st11.pairAgrees armC = true) ∧
    (∃ c < 4, givesTo vOwn c = true ∧ st11.cellarRun c = false) :=
  ⟨invOf (by decide +kernel), by decide +kernel⟩

theorem meets_SwapsChangeTheActiveVintage_4 : st7.Inv ∧
    armP.slot < 8 ∧
    fbC.slot < 8 ∧
    st7.sched.arm = some armP ∧
    armP.pair = true ∧
    armP.checked = false ∧
    armP.tick ≤ st7.fabric + 20000 ∧
    st7.slotImg armP.slot = some vOwn ∧
    (∀ (u : ℕ), st7.mir.armReport = some (armP.tick, vOwn.number, u) → armP.tick < u + 20000) :=
  ⟨invOf (by decide +kernel), by decide +kernel, by decide +kernel, by decide +kernel, by decide +kernel, by decide +kernel, by decide +kernel, by decide +kernel, 
    fun _ h => nomatch (show (none : Option (Nat × Nat × Nat)) = some _ from h)⟩

theorem meets_SwapsChangeTheActiveVintage_5 : wPr.Inv ∧
    armP.slot < 8 ∧
    fbC.slot < 8 ∧
    wPr.sched.arm = some armP ∧
    armP.pair = true ∧
    armP.checked = false ∧
    armP.tick ≤ wPr.fabric + 20000 ∧
    wPr.slotImg armP.slot = some vOwn ∧
    wPr.mir.armReport = some (armP.tick, vOwn.number, 0) ∧
    0 + 20000 ≤ armP.tick :=
  ⟨invOf (by decide +kernel), by decide +kernel⟩

end Images

/-! ## Witnesses: lanes and links (chapter 7)

Each theorem `meets_X_…` shows that its state and operands meet together the hypotheses of a clause, or of several, of `Obligations.X`. -/

namespace Links

def st1 : State := (served.setScore 1 0 255)
def w1 : State := served.setF (pgLNK 1) LNK_DERATE.CAP 5
def wTr : State := (w1.setF (pgLNK 1) LNK_STS.STATE 5)
def wDer : State := ((w1.setFlag (pgLNK 1) LNK_DERATE.AUTO true).setF (pgLNK 1) LNK_DERATE.THR 10).setF (pgLNK 1) LNK_DERATE.WINS 1
def st4 : State := (wDer.modPort 1 fun x => { x with errs := 11 })
def st5 : State := { served.modPort 1 fun x => { x with lockLost := some 0 } with ticks := 100000000}
def st6 : State := (served.setFlag (pgLNK 1) LNK_STS.LDOWN true)
def st7 : State := (served.setFlag (pgLNK 1) LNK_CTL.DISABLE true)
def trk1 : TrkEntry := { port := 1, rid := 0x100, tag := 5, pkt := { pkt served 0 3 (req .mrd 0x100 0x1000 []) with place := .egress }, born := 0, orphan := some 0 }
def kBe : Packet := queued served 0 3 8 (req .mwr 0x100 0x1000 [1,2,3,4])
def kIn : Packet := pkt served 1 4 (req .mwr 0x100 0x1000 [1,2,3,4])
def wCl : State := { served.modPort 1 fun x => { x with cleanup := true } with packets := [kBe, kIn], trk := [{trk1 with orphan := none}] }
def st8 : State := (served.modPort 1 fun x => { x with dpc := true })
def st9 : State := { wCl with resv := [⟨.port 0 5 none, 3, 0, 0⟩] }
def st10 : State := { wCl.setFlag pgRST RST_PSTS.BUSY true 0 with resv := [⟨.port 0 5 none, 3, 0, 0⟩] }

theorem meets_LanesAreScoredAndRetired_1 : st1.Inv ∧
    st1.portOfLane 4 = some (1, 0) ∧
    st1.laneRetired 4 = false ∧
    (LaneEvent.symbols, 1) ∈ [(LaneEvent.symbols, 1), (LaneEvent.flit, 8), (LaneEvent.framing, 8)] ∧
    st1.lerrThr 1 ≤ st1.laneScore 1 0 + 1 ∧
    st1.lerrThr 1 ≤ 255 ∧
    (st1.lane 4).soft = none ∧
    (st1.lane 4).fails < 3 ∧
    st1.laneInLink 4 = true ∧
    st1.decayAt ≠ some st1.fabric ∧
    3 < 4 ∧
    st1.grants Requester.mgmt (pgCEL 3) CEL_LRETIRE.LANES 0 8 = true ∧
    st1.grants Requester.mgmt pgMIR MIR_LRETIRE.LANES = true :=
  ⟨invOf (by decide +kernel), by decide +kernel⟩

theorem meets_LanesAreScoredAndRetired_2 : served.Inv ∧
    served.portOfLane 4 = some (1, 0) ∧
    served.laneRetired 4 = false ∧
    (LaneEvent.flit, 8) ∈ [(LaneEvent.symbols, 1), (LaneEvent.flit, 8), (LaneEvent.framing, 8)] ∧
    served.laneScore 1 0 + 8 < served.lerrThr 1 :=
  ⟨invOf (by decide +kernel), by decide +kernel⟩

theorem meets_PortTrainingAndLowPower_1_1 : st4.Inv ∧
    1 < 64 ∧
    st4.portEn 1 = true ∧
    st4.isFfl 1 = false ∧
    st4.inL0 1 = true ∧
    st4.portDisabled 1 = false ∧
    st4.grants Requester.mgmt (pgLNK 1) LNK_CTL.RETRAIN = true ∧
    st4.flag (pgLNK 1) LNK_DERATE.AUTO = true ∧
    st4.fabric % 1000000 = 0 ∧
    (st4.port 1).winAt ≠ some st4.fabric ∧
    st4.getF (pgLNK 1) LNK_DERATE.THR < (st4.port 1).errs ∧
    st4.getF (pgLNK 1) LNK_DERATE.WINS ≤ (st4.port 1).winOver + 1 ∧
    0 < st4.getF (pgLNK 1) LNK_STS.RATE :=
  ⟨invOf (by decide +kernel), by decide +kernel⟩

theorem meets_PortTrainingAndLowPower_1_2 : wTr.Inv ∧
    1 < 64 ∧
    wTr.portEn 1 = true ∧
    wTr.isFfl 1 = false ∧
    wTr.trainable 1 5 4 false = true ∧
    (wTr.port 1).again = false :=
  ⟨invOf (by decide +kernel), by decide +kernel⟩

theorem meets_PortTrainingAndLowPower_1_3 : w1.Inv ∧
    1 < 64 ∧
    w1.portEn 1 = true ∧
    w1.isFfl 1 = false ∧
    w1.flag (pgLNK 1) LNK_DERATE.AUTO = true ∧
    w1.inL0 1 = true ∧
    w1.fabric % 1000000 = 0 ∧
    (w1.port 1).winAt ≠ some w1.fabric ∧
    (w1.port 1).errs ≤ w1.getF (pgLNK 1) LNK_DERATE.THR ∧
    w1.getF (pgLNK 1) LNK_DERATE.WINS ≠ 0 :=
  ⟨invOf (by decide +kernel), by decide +kernel⟩

theorem meets_PortTrainingAndLowPower_2_1 : w1.Inv ∧
    w1.portEn 1 = true ∧
    w1.isFfl 1 = false ∧
    w1.inL0 1 = true :=
  ⟨invOf (by decide +kernel), by decide +kernel⟩

theorem meets_LinkDownAndDpc_1_1 : st5.Inv ∧
    1 < 64 ∧
    st5.portEn 1 = true ∧
    st5.isFfl 1 = false ∧
    st5.flag (pgLNK 1) LNK_STS.LDOWN = false ∧
    st5.portDisabled 1 = false ∧
    (st5.port 1).noLanes = false ∧
    st5.grants Requester.mgmt (pgLNK 1) LNK_CTL.DISABLE = true ∧
    st5.flag (pgLNK 1) LNK_CTL.DISABLE = false ∧
    (st5.port 1).dpc = false ∧
    (st5.port 1).lockLost = some 0 ∧
    0 + 1000 * st5.getF (pgLNK 1) LNK_DOWN_T.US ≤ st5.ticks :=
  ⟨invOf (by decide +kernel), by decide +kernel⟩

theorem meets_LinkDownAndDpc_1_2 : st6.Inv ∧
    1 < 64 ∧
    st6.portEn 1 = true ∧
    st6.isFfl 1 = false ∧
    st6.flag (pgLNK 1) LNK_STS.LDOWN = true ∧
    st6.portDisabled 1 = false ∧
    (st6.port 1).dpc = false ∧
    (st6.port 1).noLanes = false :=
  ⟨invOf (by decide +kernel), by decide +kernel⟩

theorem meets_LinkDownAndDpc_1_3 : st7.Inv ∧
    1 < 64 ∧
    st7.portEn 1 = true ∧
    st7.isFfl 1 = false ∧
    st7.grants Requester.mgmt (pgLNK 1) LNK_CTL.DISABLE = true ∧
    st7.flag (pgLNK 1) LNK_CTL.DISABLE = true :=
  ⟨invOf (by decide +kernel), by decide +kernel⟩

theorem meets_LinkDownAndDpc_2_1 : wCl.Inv ∧
    1 < 64 ∧
    wCl.portEn 1 = true ∧
    wCl.isDown 1 = true ∧
    wCl.isFfl 1 = false ∧
    (wCl.port 1).cleanup = true ∧
    (wCl.port 1).dpc = false ∧
    wCl.portDisabled 1 = false ∧
    (wCl.port 1).noLanes = false :=
  ⟨invOf (by decide +kernel), by decide +kernel⟩

theorem meets_LinkDownAndDpc_2_2 : st8.Inv ∧
    1 < 64 ∧
    st8.portEn 1 = true ∧
    st8.isDown 1 = true ∧
    st8.isFfl 1 = false ∧
    (st8.port 1).dpc = true :=
  ⟨invOf (by decide +kernel), by decide +kernel⟩

theorem meets_PartitionHotReset_1 : st9.Inv ∧
    0 < 32 ∧
    st9.partOn 0 = true ∧
    st9.flag pgRST RST_PSTS.BUSY = false ∧
    st9.isUp 0 = true ∧
    st9.portPart 0 = 0 :=
  ⟨invOf (by decide +kernel), by decide +kernel⟩

theorem meets_PartitionHotReset_2 : st10.Inv ∧
    0 < 32 ∧
    st10.partOn 0 = true ∧
    st10.flag pgRST RST_PSTS.BUSY = true :=
  ⟨invOf (by decide +kernel), by decide +kernel⟩

end Links

/-! ## Witnesses: fabric links (chapter 8)

Each theorem `meets_X_…` shows that its state and operands meet together the hypotheses of a clause, or of several, of `Obligations.X`. -/

namespace Fabric

def flt (seq : Nat) (ok : Bool) : List Byte := if ok then padTo 256 (flitWith (typeBits 1 true true false) (seq * 2 ^ 20 + 4095 * 2 ^ 8) 0 []) else padTo 256 (leBytes 2 (typeBits 1 true true false) ++ leBytes 4 (seq * 2 ^ 20 + 4095 * 2 ^ 8))
def wOut : State := { onFabric.modFfl 16 fun x => { x with ns := 1, replay := [⟨0, none, none, true, true, true, []⟩], timer := some 0 } with ticks := 1000000 }
def st2 : State := wOut.modFfl 16 fun x => { x with replayNum := 15 }
def st3 : State := onFabric.setL 16 FFL_STS.STATE 2
def wHello : State := onFabric.setL 16 FFL_STS.STATE 1
def st4 : State := wHello.modFfl 16 fun x => { x with sentEcho := true }
def st5 : State := { wHello with ticks := 1000000 }
def wReq : State := {onFabric.modFfl 16 fun x => { x with req := some (4, 0, 9) } with ticks := 10000 }
def st6 : State := { onFabric.modPort 16 fun x => { x with lockLost := some 0 } with ticks := 100000000 }
def st7 : State := { onFabric.modPort 16 fun x => { x with cleanup := true } with ticks := 100000000 }
def fbo : FbOp := ⟨3, 500, [(3, 16)], []⟩
def wCtl : State := { ((((onFabric.setFlag (pgFFL 16) FFL_CFG.TIME_FOLLOW true).setF pgCLK CLK_TSRC.MODE 2).setF pgCLK CLK_TSRC.PORT 16).setF (pgFFL 16) FFL_PEER.PORT 4) with ticks := 100000000, sched := { onFabric.sched with fb := some fbo } }
def hd : FabHdr := { kind := 2, ro := false, sync := false, replay := false, dst := 0x1005, cls := 0, cellar := 0, src := 2, part := 0, aux := 0, tseq := 0, pbar := 0 }
def wRx : State := onFabric.modRx (rxKey 2 0 0) fun x => { x with synced := true }
def te : TackEntry := ⟨0, 0, false, 1⟩
def arg10 : FabHdr := { hd with kind := 2 }
def arg11 : FabHdr := { hd with tseq := 1 }
def st12 : State := { wRx.modRx 32 fun x => { x with uncovered := some 0 } with ticks := 100000}
def cp : TxCopy := ⟨{ pkt onFabric 0 3 (req .mwr 1 2 [1,2,3,4]) with fab := some hd }, 0, false⟩
def wTx : State := { onFabric.modTx 8 fun x => { x with unacked := [cp], sync := false, next := 1 } with ticks := 100000000000, frt := [⟨0, 5, 2, 0, 0, 1, 2, 0, 0, 0, false, false⟩] }
def arg14 : FrtEntry := ⟨0, 5, 2, 0, 0, 1, 2, 0, 0, 0, false, false⟩
def st15 : State := (wTx.modTx 8 fun x => { x with timeouts := 15 })

theorem meets_FlitsTakenAndReplayed_1_1 : onFabric.Inv ∧
    16 < 64 ∧
    onFabric.fflReceives 16 = true ∧
    (flt 0 true).length = 256 ∧
    flitGood (flt 0 true) = true ∧
    flitKind (flt 0 true) = 1 ∧
    seqSub (flitAck (flt 0 true) + 1) (onFabric.fflSt 16).unack = 0 ∧
    (onFabric.fflSt 16).hold = [] ∧
    flitSeq (flt 0 true) = (onFabric.fflSt 16).er ∧
    (onFabric.fflSt 16).er < 4096 :=
  ⟨invOf (by decide +kernel), by decide +kernel⟩

theorem meets_FlitsTakenAndReplayed_1_2 : onFabric.Inv ∧
    16 < 64 ∧
    onFabric.fflReceives 16 = true ∧
    (flt 511 true).length = 256 ∧
    flitGood (flt 511 true) = true ∧
    flitKind (flt 511 true) = 1 ∧
    seqSub (flitAck (flt 511 true) + 1) (onFabric.fflSt 16).unack = 0 ∧
    (onFabric.fflSt 16).hold = [] ∧
    1 ≤ seqSub (flitSeq (flt 511 true)) (onFabric.fflSt 16).er ∧
    seqSub (flitSeq (flt 511 true)) (onFabric.fflSt 16).er ≤ 511 ∧
    (onFabric.fflSt 16).naked = [] :=
  ⟨invOf (by decide +kernel), by decide +kernel⟩

theorem meets_FlitsTakenAndReplayed_1_3 : onFabric.Inv ∧
    16 < 64 ∧
    onFabric.fflReceives 16 = true ∧
    (flt 5 false).length = 256 ∧
    flitGood (flt 5 false) = false ∧
    flitBadLanes (onFabric.linkWidth 16) (flt 5 false) = [] :=
  ⟨invOf (by decide +kernel), by decide +kernel⟩

theorem meets_FlitsTakenAndReplayed_2_1 : wOut.Inv ∧
    16 < 64 ∧
    wOut.isFfl 16 = true ∧
    wOut.lkState 16 = 3 ∧
    seqSub 0 (wOut.fflSt 16).unack < wOut.inFlight 16 ∧
    0 ∉ (wOut.fflSt 16).resend ∧
    (wOut.fflSt 16).timer = some 0 ∧
    0 + 16 * wOut.getF (pgFFL 16) FFL_TMR.REPLAY_T ≤ wOut.ticks ∧
    (wOut.fflSt 16).replayNum + 1 ≤ wOut.getF (pgFFL 16) FFL_TMR.REPLAY_MAX :=
  ⟨invOf (by decide +kernel), by decide +kernel⟩

theorem meets_FlitsTakenAndReplayed_2_2 : st3.Inv ∧
    16 < 64 ∧
    st3.isFfl 16 = true ∧
    st3.lkState 16 = 2 :=
  ⟨invOf (by decide +kernel), by decide +kernel⟩

theorem meets_FlitsTakenAndReplayed_2_3 : st2.Inv ∧
    16 < 64 ∧
    st2.isFfl 16 = true ∧
    st2.lkState 16 = 3 ∧
    (st2.fflSt 16).timer = some 0 ∧
    0 + 16 * st2.getF (pgFFL 16) FFL_TMR.REPLAY_T ≤ st2.ticks ∧
    st2.getF (pgFFL 16) FFL_TMR.REPLAY_MAX < (st2.fflSt 16).replayNum + 1 :=
  ⟨invOf (by decide +kernel), by decide +kernel⟩

theorem meets_FabricLinkTraining_1 : st4.Inv ∧
    16 < 64 ∧
    st4.isFfl 16 = true ∧
    st4.lkState 16 = 1 ∧
    15 < 16 ∧
    63 < 64 ∧
    15 ≠ st4.getF pgFWD FWD_CTL.FDID ∧
    (st4.fflSt 16).fromRetrain = false ∧
    (st4.fflSt 16).gotEcho = false ∧
    (st4.fflSt 16).sentEcho = true ∧
    (st4.fflSt 16).helloAt ≤ st4.ticks ∧
    st4.linkState 16 = 3 :=
  ⟨invOf (by decide +kernel), by decide +kernel⟩

theorem meets_FabricLinkTraining_2 : st5.Inv ∧
    16 < 64 ∧
    st5.isFfl 16 = true ∧
    st5.lkState 16 = 1 ∧
    1 < 16 ∧
    9 < 64 ∧
    1 = st5.getF pgFWD FWD_CTL.FDID ∧
    (st5.fflSt 16).gotHello = false ∧
    (st5.fflSt 16).phaseAt + 1000000 ≤ st5.ticks :=
  ⟨invOf (by decide +kernel), by decide +kernel⟩

theorem meets_FabricLinkRequestsAndDown_1_1 : onFabric.Inv ∧
    16 < 64 ∧
    onFabric.isFfl 16 = true ∧
    onFabric.lkState 16 = 3 ∧
    onFabric.grants Requester.mgmt (pgFFL 16) FFL_CTL.REQ = true ∧
    4 ∈ [4, 8, 16] ∧
    (onFabric.fflSt 16).req = none ∧
    onFabric.widest 16 ≠ 0 :=
  ⟨invOf (by decide +kernel), by decide +kernel⟩

theorem meets_FabricLinkRequestsAndDown_1_2 : wReq.Inv ∧
    16 < 64 ∧
    wReq.isFfl 16 = true ∧
    wReq.lkState 16 = 3 ∧
    (wReq.fflSt 16).req = some (4, 0, 9) ∧
    (wReq.fflSt 16).reqAt + 10000 ≤ wReq.ticks :=
  ⟨invOf (by decide +kernel), by decide +kernel⟩

theorem meets_FabricLinkRequestsAndDown_2_1 : st6.Inv ∧
    16 < 64 ∧
    st6.isFfl 16 = true ∧
    st6.grants Requester.mgmt (pgLNK 16) LNK_CTL.DISABLE = true ∧
    st6.flag (pgLNK 16) LNK_CTL.DISABLE = false ∧
    st6.flag (pgFFL 16) FFL_STS.LDOWN = false ∧
    (st6.port 16).lockLost = some 0 ∧
    0 + 1000 * st6.getF (pgFFL 16) FFL_DOWN_T.US ≤ st6.ticks :=
  ⟨invOf (by decide +kernel), by decide +kernel⟩

theorem meets_FabricLinkRequestsAndDown_2_2 : st7.Inv ∧
    16 < 64 ∧
    st7.isFfl 16 = true ∧
    (st7.port 16).cleanup = true :=
  ⟨invOf (by decide +kernel), by decide +kernel⟩

theorem meets_FabricControlMessages_1 : wCtl.Inv ∧
    16 < 64 ∧
    wCtl.isFfl 16 = true ∧
    wCtl.lkState 16 = 3 ∧
    wCtl.timeFollow 16 = true ∧
    wCtl.standby = false ∧
    wCtl.getF pgCLK CLK_TSRC.MODE = 2 ∧
    wCtl.getF pgCLK CLK_TSRC.PORT = 16 ∧
    wCtl.sched.fb = some fbo ∧
    (3, 16) ∈ fbo.evs ∧
    wCtl.getF (pgFFL 16) FFL_PEER.PORT = 4 ∧
    wCtl.leads 16 = false ∧
    wCtl.fabric + 20000 ≤ 20000 ∧
    (7, 20000) ∉ (wCtl.fflSt 16).swapSeen ∧
    wCtl.mgmtUp = true ∧
    (wCtl.fflSt 16).ctrlAt + 64 * wCtl.getF (pgFFL 16) FFL_TMR2.UPKEEP_INT ≤ wCtl.ticks ∧
    (wCtl.fflSt 16).timeAt + 10000 * wCtl.getF (pgFFL 16) FFL_TMR2.TIME_INT ≤ wCtl.ticks :=
  ⟨invOf (by decide +kernel), by decide +kernel⟩

theorem meets_FabricTransport_1_1 : st12.Inv ∧
    16 < 64 ∧
    st12.isFfl 16 = true ∧
    st12.lkState 16 = 3 ∧
    st12.devFatal = false ∧
    badHdr arg11 = false ∧
    arg11.dst / 4096 = st12.getF pgFWD FWD_CTL.FDID ∧
    arg11.sync = false ∧
    (st12.rx? (rxKey arg11.src arg11.cellar arg11.cls)).synced = true ∧
    serialLt (st12.rx? (rxKey arg11.src arg11.cellar arg11.cls)).exp arg11.tseq = true ∧
    te.resync = false ∧
    te.cls < 3 ∧
    te.cellar < 4 ∧
    (st12.rx? 32).uncovered = some 0 ∧
    0 + 128 * st12.getF (pgFTX (32 / 4 % 4)) FTX_CTL.ACK_DELAY ≤ st12.ticks :=
  ⟨invOf (by decide +kernel), by decide +kernel⟩

theorem meets_FabricTransport_1_2 : wRx.Inv ∧
    16 < 64 ∧
    wRx.isFfl 16 = true ∧
    wRx.lkState 16 = 3 ∧
    wRx.devFatal = false ∧
    badHdr arg10 = false ∧
    arg10.dst / 4096 = wRx.getF pgFWD FWD_CTL.FDID ∧
    arg10.sync = false ∧
    (wRx.rx? (rxKey arg10.src arg10.cellar arg10.cls)).synced = true ∧
    arg10.tseq = (wRx.rx? (rxKey arg10.src arg10.cellar arg10.cls)).exp ∧
    arg10.kind = 2 ∧
    wRx.pbarMet arg10 = true :=
  ⟨invOf (by decide +kernel), by decide +kernel⟩

theorem meets_FabricTransport_2_1 : wTx.Inv ∧
    (wTx.tx? 8).unacked = [cp] ∧
    cp.written = false ∧
    (wTx.tx? 8).timer + 1000 * wTx.getF (pgFTX (8 / 64)) FTX_CTL.E2E_TIMEOUT ≤ wTx.ticks ∧
    (wTx.tx? 8).timeouts + 1 ≤ wTx.getF (pgFTX (8 / 64)) FTX_CTL.E2E_MAX ∧
    (List.find? (fun x => x.entry == arg14.entry) wTx.frt = some arg14) ∧
    arg14.born + (wTx.part arg14.localPart).cplTimeout ≤ wTx.ticks :=
  ⟨invOf (by decide +kernel), by decide +kernel⟩

theorem meets_FabricTransport_2_2 : st15.Inv ∧
    (st15.tx? 8).unacked = [cp] ∧
    (st15.tx? 8).timer + 1000 * st15.getF (pgFTX (8 / 64)) FTX_CTL.E2E_TIMEOUT ≤ st15.ticks ∧
    st15.getF (pgFTX (8 / 64)) FTX_CTL.E2E_MAX < (st15.tx? 8).timeouts + 1 :=
  ⟨invOf (by decide +kernel), by decide +kernel⟩

end Fabric

/-! ## Witnesses: the shared window and instances (chapters 9, 11)

Each theorem `meets_X_…` shows that its state and operands meet together the hypotheses of a clause, or of several, of `Obligations.X`. -/

namespace Memory

def reg1 : State := { served with regions := [(1, (0x100000, 0x100000)), (3, (0x300000, 0x100000))], fabric := 100, ticks := 100 }
def swPk (k : TlpKind) (view : Nat) (data : List Byte) : Packet := { pkt reg1 0 3 (req k 0x77 0x10000 data) with route := .shared 0x100040, place := .window, order := 5, attr := { Attr.zero with view := view } }
def ent (po : Bool) : SwEntry := { gran := 0x4001, bytes := (List.replicate 60 none) ++ [some 1, some 2, some 3, some 4], ini := .port 0 0x77 none, bound := none, wseq := 0, order := 1, cellar := 0, ing := 0, part := 0, strict := false, pkt := 9, poisoned := po, src := swPk .mwr 0 [1,2,3,4] }
def wEnt : State := { reg1 with swb := [ent false], resv := [⟨.port 1 5 none, 0x4001, 0, 0⟩], bar2 := [⟨0, 0x300000, [some 7], 4, 0⟩] }
def st1 : State := { wEnt with swb := [ent true] }
def wWin (k : TlpKind) (view : Nat) (data : List Byte) (b : Option Bound) : State := { reg1 with packets := [{ swPk k view data with bound := b }] }
def st4 : State := wWin .mrd 1 [] (some ⟨none, 0, 0⟩)
def arg5 : Packet := { swPk .mrd 1 [] with bound := some ⟨none, 0, 0⟩ }
def st6 : State := wWin .atomic 0 [1,0,0,0] none
def arg7 : Packet := swPk .atomic 0 [1,0,0,0]
def st8 : State := wWin .dmwr 2 [1,0,0,0] none
def arg9 : Packet := swPk .dmwr 2 [1,0,0,0]
def vim (s : State) (stt : Nat) : State := { ((s.setF pgVIM VIM_PALLOC.BASE 0 0).setF pgVIM VIM_PALLOC.COUNT 4 0) with insts := [(0, { InstSt.init with stt := stt, gen := 3 })], bind := [(0, ⟨0x80000077, 0, 2⟩)] }
def wV : State := vim reg1 1
def st11 : State := { wV with packets := [{ swPk .mwr 0 [1] with id := 0, place := .ingress }], nextId := 1 }
def fen (d : Bool) : FenceOp := ⟨.port 0 0x77 none, some 0, 0, 0, 0, d, 0x77, 5, 3, 0, false, false, 0x100, 4⟩
def st12 : State := { wV with fences := [fen false] }
def slc (s : State) : State := (s.setF pgVIM VIM_PXLAT.SIZE_LOG 0 0)
def wk : Walk := ⟨4, 0, 0, 3, 0, 0x12345678, 2, 0, false, false⟩
def wWk (e : Nat) : State := let s := slc wV; { s with walks := [wk], hbm := (s.hbmWrite (s.sliceBase 0 + State.walkOffset wk) ((leBytes 8 e).map some)).hbm }
def st14 : State := wWk 0x1001
def st15 : State := { wWk 0x40000003 with bindHeld := some (0, 0x8000007F) }
def iv (ef : Bool) : Inval := ⟨0, false, 0, 0, 0, ef, 10⟩
def st16 : State := wV.setFlag pgVIM TTU_INV_STS.BUSY true
def wIv : State := { wWk 3 with inval := some (iv false), ttu := [(5, [⟨0, 3, 12, 7, 1⟩])], bar2 := [⟨0, 0x300000, [some 7], 12, 0⟩] }
def st17 : State := { wIv with inval := some (iv true) }
def st19 : State := { wIv with walks := [{wk with gen := 4}], fences := [fen false] }
def st20 : State := { wIv with walks := [], insts := [(0, { InstSt.init with stt := 3, heldReset := true, gen := 63 })] }
def st21 : State := { wIv with insts := [(0, { InstSt.init with stt := 2, endTick := 100, gen := 63, toAbsent := true })] }

theorem meets_BufferedWritesCommit_1 : wEnt.Inv ∧
    wEnt.swb[0]? = some (ent false) ∧
    wEnt.swMayCommit (ent false) = true ∧
    wEnt.mir.yieldDue = false ∧
    (ent false).poisoned = false ∧
    (ent false).bytes.length = 64 ∧
    wEnt.bar2 = [{ part := 0, hbm := 3145728, data := [some 7], pkt := 4, born := 0 }] :=
  ⟨invOf (by decide +kernel), by decide +kernel⟩

theorem meets_BufferedWritesCommit_2 : st1.Inv ∧
    st1.swb[0]? = some (ent true) ∧
    st1.swMayCommit (ent true) = true ∧
    st1.mir.yieldDue = false ∧
    (ent true).poisoned = true :=
  ⟨invOf (by decide +kernel), by decide +kernel⟩

theorem meets_SharedWindowSerialisation_1 : st4.Inv ∧
    st4.atWindow[0]? = some arg5 ∧
    st4.swMaySerialize arg5 = true ∧
    arg5.poison = none ∧
    arg5.owner = Owner.requester ∧
    arg5.ini = Initiator.port 0 119 none ∧
    st4.stale arg5 = false ∧
    arg5.forbidden = false ∧
    arg5.taint = false ∧
    st4.noTraffic 0 = false ∧
    arg5.tlp.kind = TlpKind.mrd ∧
    (arg5.attr.view = 1 → granOf (State.swAddr arg5) = granOf (State.swAddr arg5 + max 1 arg5.tlp.len - 1)) ∧
    arg5.attr.view = 1 ∧
    arg5.bound.isSome = true ∧
    st4.resv.length < 8192 :=
  ⟨invOf (by decide +kernel), by decide +kernel⟩

theorem meets_SharedWindowSerialisation_2 : st8.Inv ∧
    st8.atWindow[0]? = some arg9 ∧
    st8.swMaySerialize arg9 = true ∧
    arg9.poison = none ∧
    arg9.owner = Owner.requester ∧
    arg9.ini = Initiator.port 0 119 none ∧
    st8.stale arg9 = false ∧
    arg9.forbidden = false ∧
    arg9.taint = false ∧
    st8.noTraffic 0 = false ∧
    arg9.tlp.kind = TlpKind.dmwr ∧
    arg9.attr.view = 2 ∧
    granOf (State.swAddr arg9) = granOf (State.swAddr arg9 + max 1 arg9.tlp.len - 1) :=
  ⟨invOf (by decide +kernel), by decide +kernel⟩

theorem meets_SharedWindowSerialisation_3 : st6.Inv ∧
    st6.atWindow[0]? = some arg7 ∧
    st6.swMaySerialize arg7 = true ∧
    arg7.poison = none ∧
    arg7.owner = Owner.requester ∧
    arg7.ini = Initiator.port 0 119 none ∧
    st6.stale arg7 = false ∧
    arg7.forbidden = false ∧
    arg7.taint = false ∧
    st6.noTraffic 0 = false ∧
    arg7.tlp.kind = TlpKind.atomic ∧
    arg7.tlp.op = AtomicOp.fetchAdd ∧
    0 < arg7.tlp.data.length ∧
    State.swAddr arg7 % arg7.tlp.data.length = 0 :=
  ⟨invOf (by decide +kernel), by decide +kernel⟩

theorem meets_FencesReportLostWrites_1 : st12.Inv ∧
    st12.earlierPosted (Initiator.port 0 120 none) st12.nextId = false ∧
    (st12.port 0).cleanup = false ∧
    st12.devFatal = false ∧
    st12.partFatal (st12.portPart 0) = false ∧
    (st12.bindLookup 0 120 none).1 = none ∧
    st12.noTraffic 0 = false ∧
    st12.fences[0]? = some (fen false) ∧
    st12.fenceReady (fen false) = true ∧
    (fen false).off ≤ 256 ∧
    260 ≤ (fen false).off + (fen false).len ∧
    st12.noTraffic (fen false).ing = false ∧
    ((fen false).dmwr = true ∨ (fen false).off = 256 ∧ (fen false).len = 4) :=
  ⟨invOf (by decide +kernel), by decide +kernel⟩

theorem meets_FencesReportLostWrites_2 : wV.Inv ∧
    wV.earlierPosted (Initiator.port 0 119 none) wV.nextId = false ∧
    (wV.port 0).cleanup = false ∧
    wV.devFatal = false ∧
    wV.partFatal (wV.portPart 0) = false ∧
    (wV.bindLookup 0 119 none).1 = some { entry := some 0, vi := 0, gen := 3 } ∧
    ({ entry := some 0, vi := 0, gen := 3 } : Bound).vi = 0 :=
  ⟨invOf (by decide +kernel), by decide +kernel⟩

theorem meets_FencesReportLostWrites_3 : st11.Inv ∧
    st11.earlierPosted (Initiator.port 0 119 none) st11.nextId = true :=
  ⟨invOf (by decide +kernel), by decide +kernel⟩

theorem meets_BindingsAndInvalidations_1_1 : st15.Inv ∧
    st15.grants Requester.mgmt pgVIM VIM_BIND_D0.EN = true ∧
    st15.grants Requester.mgmt pgVIM VIM_BIND_D1.VI = true ∧
    st15.bindHeld = some (st15.getF pgVIM VIM_BIND_IDX.ENTRY, 2147483775) ∧
    (∀ x ∈ st15.bar2, State.overlaps x.hbm x.data.length (st15.sliceBase wk.part + State.walkOffset wk) 8 = false) ∧
    (List.find? (fun x => x.id == wk.id) st15.walks = some wk) ∧
    wk.table < st15.sliceSize wk.part ∧
    wk.restart = false ∧
    wk.gen = (st15.inst wk.vi).gen ∧
    st15.packets = [] ∧
    wk.level ≤ 2 ∧
    st15.ttuFind wk.cellar wk.vi wk.addr = none ∧
    State.walkEntry wk.level (st15.sliceSize wk.part) (leNat (st15.hbmRead (st15.sliceBase wk.part + State.walkOffset wk) 8)) = State.WalkNext.leaf (12 + 9 * wk.level) :=
  ⟨invOf (by decide +kernel), by decide +kernel⟩

theorem meets_BindingsAndInvalidations_1_2 : st14.Inv ∧
    (∀ x ∈ st14.bar2, State.overlaps x.hbm x.data.length (st14.sliceBase wk.part + State.walkOffset wk) 8 = false) ∧
    (List.find? (fun x => x.id == wk.id) st14.walks = some wk) ∧
    wk.table < st14.sliceSize wk.part ∧
    State.walkEntry wk.level (st14.sliceSize wk.part) (leNat (st14.hbmRead (st14.sliceBase wk.part + State.walkOffset wk) 8)) = State.WalkNext.table 4096 :=
  ⟨invOf (by decide +kernel), by decide +kernel⟩

theorem meets_BindingsAndInvalidations_2_1 : wIv.Inv ∧
    wIv.grants Requester.mgmt pgVIM TTU_INV_CTL.GO = true ∧
    ((2147483648 : Word).toNat).testBit 31 = true ∧
    wIv.flag pgVIM TTU_INV_STS.BUSY = false ∧
    wIv.inval = some (iv false) ∧
    (iv false).effected = false ∧
    (∀ w ∈ wIv.bar2, w.part = (iv false).part → (iv false).go ≤ w.pkt) :=
  ⟨invOf (by decide +kernel), by decide +kernel⟩

theorem meets_BindingsAndInvalidations_2_2 : st17.Inv ∧
    st17.inval = some (iv true) ∧
    (iv true).effected = true ∧
    (∀ w ∈ st17.walks, w.vi = (iv true).vi → w.restart = false ∧ w.again = false) :=
  ⟨invOf (by decide +kernel), by decide +kernel⟩

theorem meets_BindingsAndInvalidations_2_3 : st16.Inv ∧
    st16.grants Requester.mgmt pgVIM TTU_INV_CTL.GO = true ∧
    ((2147483648 : Word).toNat).testBit 31 = true ∧
    st16.flag pgVIM TTU_INV_STS.BUSY = true :=
  ⟨invOf (by decide +kernel), by decide +kernel⟩

theorem meets_InstancesAndFunctions_1_1 : st20.Inv ∧
    0 < 2048 ∧
    (st20.inst 0).stt ≠ 0 ∧
    st20.carriesGen 0 (((st20.inst 0).gen + 1) % 64) = false ∧
    st20.grants Requester.mgmt (pgVIMI 0) VIM_ICTL.RESET (0 % 64) = true ∧
    (st20.inst 0).heldReset = true :=
  ⟨invOf (by decide +kernel), by decide +kernel⟩

theorem meets_InstancesAndFunctions_1_2 : st21.Inv ∧
    0 < 2048 ∧
    (st21.inst 0).stt = 2 ∧
    (st21.inst 0).endTick ≤ st21.ticks :=
  ⟨invOf (by decide +kernel), by decide +kernel⟩

theorem meets_InstancesAndFunctions_1_3 : st19.Inv ∧
    0 < 2048 ∧
    (st19.inst 0).stt ≠ 0 ∧
    st19.carriesGen 0 (((st19.inst 0).gen + 1) % 64) = true ∧
    st19.grants Requester.mgmt (pgVIMI 0) VIM_ICTL.RESET (0 % 64) = true :=
  ⟨invOf (by decide +kernel), by decide +kernel⟩

theorem meets_InstancesAndFunctions_2_1 : wV.Inv ∧
    0 < 24 ∧
    wV.partOn 0 = true ∧
    wV.vfClash 0 true 3 = false :=
  ⟨invOf (by decide +kernel), by decide +kernel⟩

end Memory

/-! ## Witnesses: DMA engines and logs (chapters 12, 13)

Each theorem `meets_X_…` shows that its state and operands meet together the hypotheses of a clause, or of several, of `Obligations.X`. -/

namespace Dma

def dm (s : State) : State := ((s.setF (pgDMA 0) DMA_CHCFG.PART 0 200).setF (pgDMA 0) DMA_CHCFG.MAXLEN 16 200).setF (pgDMA 0) DMA_CHCFG.STAGE 4 200
def inst0 (s : State) : State := { (((s.setF (pgVIMI 0) VIM_ICHAN.COUNT 2 0).setF pgVIM VIM_PALLOC.COUNT 4 0)) with insts := [(0, { InstSt.init with stt := 1 })] }
def wD : State := dm (inst0 { served with ticks := 100, fabric := 100 })
def st1 : State := wD.setF (chPage 200) DMA_COUNT.BYTES 4096 (chIx 200)
def xf : Xfer := { num := 0, count := 4096, paced := false, intEn := false, src := ⟨[(0x1000, 4096)], 0, true, false⟩, dst := ⟨[(0x9000, 4096)], 0, true, false⟩, rd := 0, staged := [], wr := 0, prog := 0, inflight := [], lost := 0, lostAt := none, fail := none, drain := false }
def run (s : State) (ch : Nat) (x : Xfer) : State := { s.setF (chPage ch) DMA_STS.STATE 1 (chIx ch) with chans := [(ch, { ChanSt.init with xfers := [x], next := 1 })] }
def st3 : State := run wD 0 xf
def st4 : State := (run wD 0 xf).setFlag (chPage 0) DMA_STS.PENDING true (chIx 0)
def ds (e : Nat) : DmaSlot := ⟨100, 200, e, 2⟩
def vD (e : Nat) : Vintage := { vintage 1000 with dma := [(0, [ds e])] }
def wP (e : Nat) : State := running (run wD 200 xf) (vD e)
def st5 : State := wP 0
def st6 : State := wP 1
def st7 : State := (wP 0).modEng 0 fun e => { e with run := some (200, 50) }
def st8 : State := run wD 200 xf
def xl : Xfer := { xf with src := ⟨[], 0x5000, false, true⟩ }
def lst : List Byte := leBytes 8 0x7000 ++ leBytes 4 4096 ++ leBytes 4 0x80000000
def wL (st : CplStatus) : State := let s := run wD 200 xl; { s with chans := [(200, { ChanSt.init with xfers := [xl], next := 1, lists := [(0, 0, st, lst, false)] })] }
def st12 : State := wL .sc
def st13 : State := wL .ur
def xd : Xfer := { xf with rd := 4096, wr := 4096, drain := true }
def st14 : State := (run wD 200 xd).setF (chPage 200) DMA_STS.STATE 2 (chIx 200)
def lrec : LeesRec := { time := 0, addr := 0x1000, wseq := 3, count := 1, rid := 0x77, port := 1, part := 0, pasid := none, vi := some 0, gen := 0, reason := 2, chan := none, cellar := 0, fdid := none, summary := false, nofence := false, length := 4, src := 0, rseq := 0 }
def lw : LateWrite := { body := lrec, ini := .port 0 0x77 none, bound := some ⟨some 0, 0, 0⟩, others := [], order := 3, dma := none }
def st15 : State := { served with flt := { served.flt with late := [lw] } }
def st16 : State := { (served.setFlag pgFLT FLT_PIN.DRIVE true) with flt := { served.flt with pulseEnd := some 0 } }
def st17 : State := (served.setFlag pgFLT FLT_PIN.OWNED true)
def st19 : State := ((served.setF pgFLT FLT_LL_PTR.RD 4090).setF pgFLT FLT_LL_PTR.WR 5)

theorem meets_DmaChannelCommands_1 : st3.Inv ∧
    (∀ i : Nat, Requester.mgmt = Requester.tenant i → 0 ∈ st3.instChans i) ∧
    0 < 1024 ∧
    st3.granted Requester.mgmt (State.offOf (chPage 0) DMA_CMD.GO (chIx 0)) 4 = true ∧
    st3.partOfChan 0 ≠ 31 ∧
    st3.chState 0 ∈ [1, 2] ∧
    isService 0 = false ∧
    st3.flag (chPage 0) DMA_STS.PENDING (chIx 0) = false ∧
    st3.granted Requester.mgmt (State.offOf (chPage 0) DMA_CMD.STOP (chIx 0)) 4 = true ∧
    st3.granted Requester.mgmt (State.offOf (chPage 0) DMA_PACE.REQ (chIx 0)) 4 = true ∧
    st3.granted Requester.mgmt (State.offOf (chPage 0) DMA_SRC.ADDR (chIx 0)) 8 = true ∧
    st3.granted Requester.mgmt (State.offOf (chPage 0) DMA_DST.ADDR (chIx 0)) 8 = true ∧
    st3.granted Requester.mgmt (State.offOf (chPage 0) DMA_COUNT.BYTES (chIx 0)) 4 = true ∧
    st3.granted Requester.mgmt (State.offOf (chPage 0) DMA_XCTL.SRC_SG (chIx 0)) 4 = true :=
  ⟨invOf (by decide +kernel), fun _ h => (nomatch h), by decide +kernel⟩

theorem meets_DmaChannelCommands_2 : st4.Inv ∧
    (∀ i : Nat, Requester.mgmt = Requester.tenant i → 0 ∈ st4.instChans i) ∧
    0 < 1024 ∧
    st4.granted Requester.mgmt (State.offOf (chPage 0) DMA_CMD.GO (chIx 0)) 4 = true ∧
    st4.partOfChan 0 ≠ 31 ∧
    st4.chState 0 ∈ [1, 2] ∧
    st4.flag (chPage 0) DMA_STS.PENDING (chIx 0) = true ∧
    st4.fltMasked (pgDMA (0 / 256) * 32 + 1) = false :=
  ⟨invOf (by decide +kernel), fun _ h => (nomatch h), by decide +kernel⟩

theorem meets_DmaChannelCommands_3 : st1.Inv ∧
    (∀ i : Nat, Requester.mgmt = Requester.tenant i → 200 ∈ st1.instChans i) ∧
    200 < 1024 ∧
    st1.granted Requester.mgmt (State.offOf (chPage 200) DMA_CMD.GO (chIx 200)) 4 = true ∧
    st1.partOfChan 200 ≠ 31 ∧
    st1.chState 200 = 0 ∧
    st1.devFatal = false ∧
    st1.partFatal (st1.partOfChan 200) = false ∧
    st1.flag (chPage 200) DMA_XCTL.SRC_SG (chIx 200) = false ∧
    st1.flag (chPage 200) DMA_XCTL.DST_SG (chIx 200) = false ∧
    st1.getF (chPage 200) DMA_COUNT.BYTES (chIx 200) ≠ 0 :=
  ⟨invOf (by decide +kernel), fun _ h => (nomatch h), by decide +kernel⟩

theorem meets_DmaEnginesAndLists_1_1 : st7.Inv ∧
    0 < 4 ∧
    st7.devFatal = false ∧
    st7.cellarRun 0 = true ∧
    st7.sched.active = some (vD 0) ∧
    ((storeGet (fun _ => []) (vD 0).dma 0)[0]? = some (ds 0)) ∧
    st7.cycPos st7.fabric = (ds 0).start ∧
    (st7.eng (2 * 0 + (ds 0).eng % 2)).placed ≠ some st7.fabric ∧
    (st7.eng (2 * 0 + (ds 0).eng % 2)).run.isSome = true ∧
    0 < 2 ∧
    (st7.eng (2 * 0 + 0)).run = some (200, 50) ∧
    50 ≤ st7.ticks ∧
    (st7.eng (2 * 0 + 0)).late = [] ∧
    (0 = 1 → ∀ y ∈ (st7.chan 200).xfers, (st7.unpassed 200 y.num fun p => isWrite p.tlp) = []) :=
  ⟨invOf (by decide +kernel), by decide +kernel⟩

theorem meets_DmaEnginesAndLists_1_2 : st5.Inv ∧
    0 < 4 ∧
    st5.devFatal = false ∧
    st5.cellarRun 0 = true ∧
    st5.sched.active = some (vD 0) ∧
    ((storeGet (fun _ => []) (vD 0).dma 0)[0]? = some (ds 0)) ∧
    st5.cycPos st5.fabric = (ds 0).start ∧
    (st5.eng (2 * 0 + (ds 0).eng % 2)).placed ≠ some st5.fabric ∧
    (st5.eng (2 * 0 + (ds 0).eng % 2)).run = none ∧
    0 < st5.burstLen (256 * 0 + (ds 0).chan % 256) ((ds 0).eng % 2) (256 * (ds 0).len) ∧
    st5.running (256 * 0 + (ds 0).chan % 256) = some xf :=
  ⟨invOf (by decide +kernel), by decide +kernel⟩

theorem meets_DmaEnginesAndLists_1_3 : st6.Inv ∧
    0 < 4 ∧
    st6.devFatal = false ∧
    st6.cellarRun 0 = true ∧
    st6.sched.active = some (vD 1) ∧
    ((storeGet (fun _ => []) (vD 1).dma 0)[0]? = some (ds 1)) ∧
    st6.cycPos st6.fabric = (ds 1).start ∧
    (st6.eng (2 * 0 + (ds 1).eng % 2)).placed ≠ some st6.fabric ∧
    (st6.eng (2 * 0 + (ds 1).eng % 2)).run = none ∧
    st6.burstLen (256 * 0 + (ds 1).chan % 256) ((ds 1).eng % 2) (256 * (ds 1).len) = 0 :=
  ⟨invOf (by decide +kernel), by decide +kernel⟩

theorem meets_DmaEnginesAndLists_1_4 : st8.Inv ∧
    0 < 4 ∧
    st8.devFatal = false ∧
    st8.cellarRun 0 = true ∧
    0 < 2 ∧
    (st8.eng (2 * 0 + 0)).run = none ∧
    (st8.eng (2 * 0 + 0)).late = [] ∧
    st8.placedDue 0 0 = false ∧
    st8.bePick 0 0 = some (200, 0) ∧
    st8.running 200 = some xf :=
  ⟨invOf (by decide +kernel), by decide +kernel⟩

theorem meets_DmaEnginesAndLists_2_1 : st14.Inv ∧
    200 < 1024 ∧
    0 < 2 ∧
    (st14.chan 200).xfers = [xd] ∧
    st14.chanResetting 200 = false ∧
    st14.xferResolved 200 xd = true ∧
    xd.fail = none ∧
    xd.lost = 0 ∧
    xd.lostAt = none ∧
    xd.wr = xd.count ∧
    xd.count < 2 ^ 32 ∧
    st14.flag (chPage 200) DMA_STS.PENDING (chIx 200) = false :=
  ⟨invOf (by decide +kernel), by decide +kernel⟩

theorem meets_DmaEnginesAndLists_2_2 : st12.Inv ∧
    200 < 1024 ∧
    0 < 2 ∧
    (st12.chan 200).lists = [(0, 0, CplStatus.sc, lst, false)] ∧
    st12.running 200 = some xl ∧
    xl.num = 0 ∧
    CplStatus.sc = CplStatus.sc ∧
    false = false ∧
    State.listParse xl.count 17     (have __src := sideOf xl 0;     { elems := __src.elems, next := __src.next, ended := __src.ended, busy := false })     lst =   ({ elems := [(28672, 4096)], next := 20496, ended := true, busy := false }, none) :=
  ⟨invOf (by decide +kernel), by decide +kernel⟩

theorem meets_DmaEnginesAndLists_2_3 : st13.Inv ∧
    200 < 1024 ∧
    0 < 2 ∧
    (st13.chan 200).lists = [(0, 0, CplStatus.ur, lst, false)] ∧
    st13.running 200 = some xl ∧
    xl.num = 0 ∧
    (CplStatus.ur ≠ CplStatus.sc ∨ false = true) :=
  ⟨invOf (by decide +kernel), by decide +kernel⟩

theorem meets_LateWritesPinAndLogs_1_1 : st15.Inv ∧
    st15.mir.yieldDue = false ∧
    nextLate st15.flt.late = some lw ∧
    st15.leesCount < 4095 ∧
    lw.others = [] ∧
    st15.lossEntry lw.body.reason lw.body.summary lw.bound = some 0 :=
  ⟨invOf (by decide +kernel), by decide +kernel⟩

theorem meets_LateWritesPinAndLogs_2_1 : st16.Inv ∧
    st16.flt.pulseEnd = some 0 ∧
    0 ≤ st16.ticks ∧
    st16.grants Requester.mgmt pgFLT FLT_PIN.DRIVE = true ∧
    st16.grants Requester.mgmt pgFLT FLT_CTL.PIN_MODE = true ∧
    st16.pageSealed pgFLT = false ∧
    st16.flag pgFLT FLT_CTL.PIN_MODE ≠ true :=
  ⟨invOf (by decide +kernel), by decide +kernel⟩

theorem meets_LateWritesPinAndLogs_2_2 : st17.Inv ∧
    st17.grants Requester.mgmt pgFLT FLT_PIN.REARM = true ∧
    st17.flag pgFLT FLT_PIN.OWNED = true :=
  ⟨invOf (by decide +kernel), by decide +kernel⟩

theorem meets_LateWritesPinAndLogs_3_1 : st19.Inv ∧
    (true, 4096, FLT_LL_PTR.RD, FLT_LL_PTR.WR) ∈ [(true, 4096, FLT_LL_PTR.RD, FLT_LL_PTR.WR), (false, 1024, FLT_FL_PTR.RD, FLT_FL_PTR.WR)] ∧
    3 < 4096 ∧
    st19.grants Requester.mgmt pgFLT FLT_LL_PTR.RD = true :=
  ⟨invOf (by decide +kernel), by decide +kernel⟩

end Dma

/-! ## Witnesses: mirrored pairs (chapter 14)

Each theorem `meets_X_…` shows that its state and operands meet together the hypotheses of a clause, or of several, of `Obligations.X`. -/

namespace Pair

def reg1 : State := { served with regions := [(1, (0x100000, 0x100000)), (3, (0x300000, 0x100000))] }
def pair (role : Nat) : State := ((reg1.setF pgMIR MIR_STS.ROLE role).setFlag pgMIR MIR_CFG.BOUND true).setL 64 FFL_STS.STATE 3
def tOk (s : State) : State := s.setFlag pgMIR MIR_STS.TAKE_OK true
def auto (s : State) : State := s.setFlag pgMIR MIR_CFG.AUTO_TAKE true
def st1 : State := pair 1
def st2 : State := pair 2
def st3 : State := auto (tOk (pair 3))
def st4 : State := auto ((pair 3).setFlag pgMIR MIR_STS.TAKE_OK false)
def mr (k : Nat) : MirRec := { kind := k, key := ⟨0, 0x77, none⟩, window := some 0, wseq := 4, addr := 0x100040, len := 64, vi := none, gen := 0, idem := false, shared := true, mask := List.replicate 64 true, data := List.replicate 64 9, region := 0, cseq := 5, epoch := 2, time := 0, entries := if k = 4 then [(⟨0, 0x77, none⟩, 4, 0)] else [], grp := 0 }
def sb : State := let s := (pair 3).setF pgMIR MIR_STS.PSTATE 2; { s with mir := { s.mir with expect := some 5, journal := [mr 1] } }
def st5 : State := { sb with mir := { sb.mir with expect := some 4 } }
def act : State := { (pair 2).setF pgMIR MIR_STS.PSTATE 2 with ticks := 100000000000, fabric := 1000 }
def str : MirStream := ⟨⟨0, 0x77, none⟩, some 3, 0, 4, false, true⟩
def actS : State := { act with mir := { act.mir with streams := [str] } }
def st6 : State := { pair 1 with ticks := 100000000000 }.setFlag pgMIR MIR_CFG.ALONE true
def st7 : State := auto (tOk { pair 3 with ticks := 100000000000 })
def st8 : State := auto ({ pair 3 with ticks := 100000000000 }.setFlag pgMIR MIR_STS.TAKE_OK false)
def st9 : State := tOk (pair 3)
def st10 : State := { act with mir := { act.mir with switchEnd := some 5, streams := [str] } }
def rsy (i : Nat) : State := { act with mir := { act.mir with resync := some (i, 3) } }
def st11 : State := rsy 0
def st12 : State := rsy 512

theorem meets_PartnerMessages_1 : st3.Inv ∧
    st3.mirHears 0 = true ∧
    st3.mirRole = 3 ∧
    st3.flag pgMIR MIR_CFG.AUTO_TAKE = true ∧
    st3.flag pgMIR MIR_STS.TAKE_OK = true :=
  ⟨invOf (by decide +kernel), by decide +kernel⟩

theorem meets_PartnerMessages_2 : st1.Inv ∧
    st1.mirHears 0 = true ∧
    st1.mirRole = 1 :=
  ⟨invOf (by decide +kernel), by decide +kernel⟩

theorem meets_PartnerMessages_3 : st2.Inv ∧
    st2.mirHears 0 = true ∧
    st2.mirRole = 2 ∧
    st2.mir.resync = none ∧
    st2.mir.switchEnd = none ∧
    st2.mir.role = none ∧
    st2.fltMasked (pgMIR * 32 + 10) = false :=
  ⟨invOf (by decide +kernel), by decide +kernel⟩

theorem meets_PartnerMessages_4 : st4.Inv ∧
    st4.mirHears 0 = true ∧
    st4.mirRole = 3 ∧
    st4.flag pgMIR MIR_CFG.AUTO_TAKE = true ∧
    st4.flag pgMIR MIR_STS.TAKE_OK = false ∧
    st4.fltMasked (pgMIR * 32 + 4) = false :=
  ⟨invOf (by decide +kernel), by decide +kernel⟩

theorem meets_StandbyAppliesRecords_1 : sb.Inv ∧
    sb.mirHears 0 = true ∧
    sb.mirRole = 3 ∧
    ((mr 1).kind = 1 ∨ (mr 1).kind = 2) :=
  ⟨invOf (by decide +kernel), by decide +kernel⟩

theorem meets_StandbyAppliesRecords_2 : sb.Inv ∧
    sb.mirHears 0 = true ∧
    sb.mirRole = 3 ∧
    (mr 3).kind = 3 ∧
    sb.mir.expect = some 5 ∧
    sb.getF pgMIR MIR_STS.PSTATE = 2 ∧
    (mr 3).cseq = 5 ∧
    sb.mir.commits = [] :=
  ⟨invOf (by decide +kernel), by decide +kernel⟩

theorem meets_StandbyAppliesRecords_3 : st5.Inv ∧
    st5.mirHears 0 = true ∧
    st5.mirRole = 3 ∧
    (mr 3).kind = 3 ∧
    st5.mir.expect = some 4 ∧
    st5.getF pgMIR MIR_STS.PSTATE = 2 ∧
    4 < (mr 3).cseq ∧
    (∀ r ∈ st5.mir.commits, r.cseq ≠ 4) :=
  ⟨invOf (by decide +kernel), by decide +kernel⟩

theorem meets_StandbyAppliesRecords_4 : sb.Inv ∧
    sb.mirHears 0 = true ∧
    sb.mirRole = 3 ∧
    (mr 4).kind = 4 ∧
    (mr 4).entries = [((mr 4).key, 4, 0)] :=
  ⟨invOf (by decide +kernel), by decide +kernel⟩

theorem meets_StandbyAppliesRecords_5 : sb.Inv ∧
    sb.mirHears 0 = true ∧
    sb.mirRole = 3 ∧
    (mr 5).kind = 5 ∧
    sb.mir.commits = [] :=
  ⟨invOf (by decide +kernel), by decide +kernel⟩

theorem meets_PairTimers_1 : actS.Inv ∧
    actS.devFatal = false ∧
    actS.mirRole ≠ 0 ∧
    actS.mir.roleAt + 1000 * actS.getF pgMIR MIR_TMR.ROLE_INT ≤ actS.ticks ∧
    actS.mirroring = true ∧
    actS.mir.epochAt + 250 * actS.getF pgMIR MIR_EPOCH.LEN ≤ actS.ticks ∧
    (∃ x ∈ actS.mir.streams, x.changed = true) ∧
    actS.fabric % 1000 = 0 ∧
    actS.mir.hbAt ≠ some actS.fabric ∧
    actS.mir.hbIn ≠ true ∧
    actS.silent = false ∧
    actS.mirPorts ≠ [] :=
  ⟨invOf (by decide +kernel), by decide +kernel⟩

theorem meets_PairTimers_2 : st7.Inv ∧
    st7.devFatal = false ∧
    st7.silent = true ∧
    st7.flag pgMIR MIR_STS.TAKE_OK = true :=
  ⟨invOf (by decide +kernel), by decide +kernel⟩

theorem meets_PairTimers_3 : st8.Inv ∧
    st8.devFatal = false ∧
    st8.silent = true ∧
    st8.flag pgMIR MIR_STS.TAKE_OK = false :=
  ⟨invOf (by decide +kernel), by decide +kernel⟩

theorem meets_PairTimers_4 : st6.Inv ∧
    st6.devFatal = false ∧
    st6.mirRole = 1 ∧
    st6.mir.seekStart + 10000000 * st6.getF pgMIR MIR_CFG.SEEK_T ≤ st6.ticks ∧
    st6.flag pgMIR MIR_CFG.SEAT = false ∧
    st6.flag pgMIR MIR_CFG.ALONE = true :=
  ⟨invOf (by decide +kernel), by decide +kernel⟩

theorem meets_PairCommands_1 : st11.Inv ∧
    st11.devFatal = false ∧
    st11.grants Requester.mgmt pgMIR MIR_CMD.CMD = true ∧
    st11.mirRole = 2 ∧
    st11.mir.switchEnd = none ∧
    st11.getF pgMIR MIR_STS.PSTATE = 2 ∧
    st11.mirPorts ≠ [] ∧
    0 < 16 ∧
    (0 = 0 ∨ 4 < 0) ∧
    st11.mir.resync = some (0, 3) ∧
    st11.mirroring = true ∧
    st11.blockList 0 = some (1048576, 0) ∧
    0 = 0 ∧
    3 + 40000000000 ≤ st11.ticks ∧
    (after (exec .resyncTimeout st11)).devFatal = false :=
  ⟨invOf (by decide +kernel), by decide +kernel⟩

theorem meets_PairCommands_2 : st9.Inv ∧
    st9.devFatal = false ∧
    st9.grants Requester.mgmt pgMIR MIR_CMD.CMD = true ∧
    st9.mirRole = 3 ∧
    st9.flag pgMIR MIR_STS.TAKE_OK = true ∧
    (st9.mirRole = 1 ∨ st9.mirRole = 3) :=
  ⟨invOf (by decide +kernel), by decide +kernel⟩

theorem meets_PairCommands_3 : st10.Inv ∧
    st10.devFatal = false ∧
    st10.mir.switchEnd = some 5 ∧
    (st10.coveredDone = true ∨ 5 ≤ st10.ticks) :=
  ⟨invOf (by decide +kernel), by decide +kernel⟩

theorem meets_PairCommands_4 : st12.Inv ∧
    st12.devFatal = false ∧
    st12.mir.resync = some (512, 3) ∧
    st12.mirroring = true ∧
    st12.mirPorts ≠ [] ∧
    st12.blockList 512 = none ∧
    (∀ r ∈ st12.mir.txq, r.kind ≠ 5) ∧
    (∀ p ∈ [64, 65], (st12.fflSt p).replay = []) :=
  ⟨invOf (by decide +kernel), by decide +kernel⟩

end Pair

/-! ## Witnesses: slot power (chapter 15)

Each theorem `meets_X_…` shows that its state and operands meet together the hypotheses of a clause, or of several, of `Obligations.X`. -/

namespace Slots

def lim (s : State) : State := s.setFlag pgSPC SPC_STS.LINK_UP true
def slotOn (s : State) (i st : Nat) : State := ((((((s.setFlag (pgSLOT i) SPC_SCFG.EN true).setF (pgSLOT i) SPC_SSTS.STATE st).setF (pgSLOT i) SPC_BRK.TRIP 3000).setF (pgSLOT i) SPC_LIM.IFAST 500).setF (pgSLOT i) SPC_SCFG.I_RATED 100).setF pgSPC SPC_FEEDLIM.UV 10).setF pgSPC SPC_FEEDLIM.OV 2000
def pres (s : State) (i : Nat) : State := s.setFlag (pgSLOT i) SPC_SSTS.PRESENT true
def hp (s : State) (i p : Nat) : State := (s.setFlag (pgLNK p) LNK_SLOT.HP_EN true).setF (pgLNK p) LNK_SLOT.SLOT i
def big (s : State) : State := { s with ticks := 100000000000000, fabric := 100000 }
def S (st : Nat) : State := big (hp (slotOn (lim served) 39 st) 39 1)
def st1 : State := ((S 0).setFlag (pgSLOT 39) SPC_SCFG.AUTO_ON false)
def st2 : State := (pres (S 5) 39).modSlot 39 fun x => { x with req := true, removedAt := some 0 }
def st3 : State := pres (S 1) 39
def st4 : State := pres (S 7) 39
def st5 : State := (S 8)
def me : SlotMeas := ⟨39, 501, 1200, true⟩
def st7 : State := (pres (S 5) 39)
def st9 : State := (pres (S 3) 39)
def st11 : State := (pres (S 4) 39)
def st12 : State := (pres (S 6) 39)
def st13 : State := (pres (S 5) 39).modSlot 39 fun x => { x with openAt := some 3 }
def gp (s : State) : State := { s.modSlot 39 fun x => { x with gap := some (0, 3) } with spc := { s.spc with goodA := some 0 } }
def st14 : State := gp ((pres (S 5) 39).setFlag (pgSLOT 39) SPC_SCFG.ALT_EN true)
def st15 : State := { gp ((pres (S 5) 39).setFlag (pgSLOT 39) SPC_SCFG.ALT_EN true) with spc := (S 5).spc }
def rtn : State := let s := ((((pres (S 5) 39).setFlag (pgSLOT 39) SPC_SCFG.ALT_EN true).setFlag (pgSLOT 39) SPC_SCFG.RETURN true).setF (pgSLOT 39) SPC_SSTS.FEED 1).setF (pgSLOT 39) SPC_SCFG.PRI_FEED 0; { s with spc := { s.spc with goodA := some 5 } }
def st16 : State := (pres (S 5) 39).modSlot 39 fun x => { x with fruDue := true }
def st17 : State := (pres (S 5) 39).setFlag pgSPC SPC_STS.LINK_UP false

theorem meets_SlotPresenceAndCommands_1 : st2.Inv ∧
    39 < 40 ∧
    st2.slotEn 39 = true ∧
    st2.spcUp = true ∧
    st2.flag (pgSLOT 39) SPC_SSTS.PRESENT = true ∧
    st2.slotSt 39 ≠ 8 ∧
    (st2.slot 39).removedAt = some 0 ∧
    0 + 100000000 ≤ st2.ticks ∧
    st2.isDown 1 = true ∧
    st2.flag (pgLNK 1) LNK_SLOT.HP_EN = true ∧
    st2.getF (pgLNK 1) LNK_SLOT.SLOT = 39 ∧
    (st2.slot 39).req = true ∧
    st2.slotSt 39 = 5 ∧
    st2.grants Requester.mgmt (pgSLOT 39) SPC_CMD.CONN_RESET = true :=
  ⟨invOf (by decide +kernel), by decide +kernel⟩

theorem meets_SlotPresenceAndCommands_2 : st1.Inv ∧
    39 < 40 ∧
    st1.slotEn 39 = true ∧
    st1.spcUp = true ∧
    st1.flag (pgSLOT 39) SPC_SSTS.PRESENT = false ∧
    st1.slotSt 39 = 0 ∧
    st1.flag (pgSLOT 39) SPC_SCFG.AUTO_ON = false ∧
    (st1.slot 39).req = false ∧
    (st1.slot 39).pcc = false :=
  ⟨invOf (by decide +kernel), by decide +kernel⟩

theorem meets_SlotPresenceAndCommands_3 : st5.Inv ∧
    39 < 40 ∧
    st5.slotEn 39 = true ∧
    st5.grants Requester.mgmt (pgSLOT 39) SPC_CMD.SERVICE = true ∧
    st5.slotSt 39 = 8 ∧
    st5.flag (pgSLOT 39) SPC_SSTS.PRESENT = false :=
  ⟨invOf (by decide +kernel), by decide +kernel⟩

theorem meets_SlotPresenceAndCommands_4 : st3.Inv ∧
    39 < 40 ∧
    st3.slotEn 39 = true ∧
    st3.isDown 1 = true ∧
    st3.flag (pgLNK 1) LNK_SLOT.HP_EN = true ∧
    st3.getF (pgLNK 1) LNK_SLOT.SLOT = 39 ∧
    st3.spcUp = true ∧
    (st3.slot 39).req = false ∧
    st3.slotSt 39 = 1 :=
  ⟨invOf (by decide +kernel), by decide +kernel⟩

theorem meets_SlotPresenceAndCommands_5 : st4.Inv ∧
    39 < 40 ∧
    st4.slotEn 39 = true ∧
    st4.grants Requester.mgmt (pgSLOT 39) SPC_CMD.CLR_LATCH = true ∧
    st4.slotSt 39 = 7 :=
  ⟨invOf (by decide +kernel), by decide +kernel⟩

theorem meets_SlotSamplesAndTimers_1 : st14.Inv ∧
    39 < 40 ∧
    st14.slotEn 39 = true ∧
    (∀ (t : ℕ), st14.spc.sampleAt = some t → t + 1000 ≤ st14.ticks) ∧
    st14.slotBad = false ∧
    (List.find? (fun x => x.slot == 39) [me] = some me) ∧
    st14.slotSt 39 = 5 ∧
    st14.getF (pgSLOT 39) SPC_LIM.IFAST < me.cur ∧
    (st14.slot 39).retry + 1 ≤ st14.getF (pgSLOT 39) SPC_TMR.RETRY_MAX ∧
    (st14.slot 39).since + 100000000 ≤ st14.ticks ∧
    (st14.slot 39).since + 10000000000 ≤ st14.ticks ∧
    (st14.slot 39).gap = some (0, 3) ∧
    3 ≤ st14.ticks ∧
    0 < 2 ∧
    st14.flag (pgSLOT 39) SPC_SCFG.ALT_EN = true ∧
    st14.feedGood 0 = true :=
  ⟨invOf (by decide +kernel), by decide +kernel⟩

theorem meets_SlotSamplesAndTimers_2 : st9.Inv ∧
    39 < 40 ∧
    st9.slotEn 39 = true ∧
    st9.slotSt 39 = 3 ∧
    (st9.slot 39).since + st9.getF (pgSLOT 39) SPC_TMR.PRECHG_T_MAX * 1000000 ≤ st9.ticks :=
  ⟨invOf (by decide +kernel), by decide +kernel⟩

theorem meets_SlotSamplesAndTimers_3 : st11.Inv ∧
    39 < 40 ∧
    st11.slotEn 39 = true ∧
    st11.slotSt 39 = 4 ∧
    (st11.slot 39).since + st11.getF (pgSLOT 39) SPC_TMR.GATE_T_MAX * 100000 ≤ st11.ticks :=
  ⟨invOf (by decide +kernel), by decide +kernel⟩

theorem meets_SlotSamplesAndTimers_4 : rtn.Inv ∧
    39 < 40 ∧
    rtn.slotEn 39 = true ∧
    rtn.slotSt 39 = 5 ∧
    rtn.flag (pgSLOT 39) SPC_SCFG.RETURN = true ∧
    rtn.flag (pgSLOT 39) SPC_SCFG.ALT_EN = true ∧
    (rtn.slot 39).gap = none ∧
    rtn.getF (pgSLOT 39) SPC_SSTS.FEED = 1 ∧
    rtn.getF (pgSLOT 39) SPC_SCFG.PRI_FEED = 0 ∧
    rtn.spc.goodA = some 5 ∧
    5 + rtn.getF pgSPC SPC_CTL.RETURN_T * 1000000 ≤ rtn.ticks ∧
    5 + 4000 ≤ rtn.ticks :=
  ⟨invOf (by decide +kernel), by decide +kernel⟩

theorem meets_SlotSamplesAndTimers_5 : st15.Inv ∧
    39 < 40 ∧
    st15.slotEn 39 = true ∧
    (st15.slot 39).gap = some (0, 3) ∧
    3 ≤ st15.ticks ∧
    0 < 2 ∧
    st15.feedGood 0 = false :=
  ⟨invOf (by decide +kernel), by decide +kernel⟩

theorem meets_SlotSamplesAndTimers_6 : st12.Inv ∧
    39 < 40 ∧
    st12.slotEn 39 = true ∧
    st12.slotSt 39 = 6 ∧
    (st12.slot 39).holdEnd ≤ st12.ticks :=
  ⟨invOf (by decide +kernel), by decide +kernel⟩

theorem meets_SlotSamplesAndTimers_7 : st13.Inv ∧
    39 < 40 ∧
    st13.slotEn 39 = true ∧
    (st13.slot 39).openAt = some 3 ∧
    3 ≤ st13.ticks :=
  ⟨invOf (by decide +kernel), by decide +kernel⟩

theorem meets_ModuleLifeAndLimderLink_1 : st7.Inv ∧
    39 < 40 ∧
    st7.slotEn 39 = true ∧
    st7.flag (pgSLOT 39) SPC_SSTS.PRESENT = true ∧
    (st7.slot 39).fruDue = false ∧
    (st7.slot 39).written = false ∧
    st7.fltMasked (pgSPC * 32 + 1) = false ∧
    st7.slotSt 39 = 5 ∧
    (st7.slot 39).hourAt + 3600000000000 ≤ st7.ticks ∧
    st7.spcUp = true ∧
    st7.fltMasked (pgSPC * 32) = false :=
  ⟨invOf (by decide +kernel), by decide +kernel⟩

theorem meets_ModuleLifeAndLimderLink_2 : st16.Inv ∧
    39 < 40 ∧
    st16.slotEn 39 = true ∧
    (st16.slot 39).fruDue = true ∧
    st16.spcUp = true ∧
    st16.fltMasked (pgSLOT 39 * 32 + 7) = false :=
  ⟨invOf (by decide +kernel), by decide +kernel⟩

theorem meets_ModuleLifeAndLimderLink_3 : st17.Inv ∧
    39 < 40 ∧
    st17.slotEn 39 = true ∧
    st17.spcUp = false :=
  ⟨invOf (by decide +kernel), by decide +kernel⟩

end Slots

/-! ## Witnesses: the Cellar Book and trust (chapter 16)

Each theorem `meets_X_…` shows that its state and operands meet together the hypotheses of a clause, or of several, of `Obligations.X`. -/

namespace Trust

def wB : State := { served with ticks := 1000000000000, trust := { served.trust with uncovered := 0, since := some 0, cpDue := some 3, held := [List.replicate 32 1] } }
def st1 : State := { wB with trust := { wB.trust with uncovered := 2 } }
def st2 : State := served.setFlag pgTRU TRU_BOOT_STS.BOOT_FAIL true
def blk (c : Nat) : List Byte := leBytes 1 c ++ List.replicate 287 0
def oKey : List Byte := beBytes 96 0xe86b995e350e4d312a95a6b7d5d8cdcdb4682f588800a1cd6c972e1dcb2a5ac38d90046951b03ccb3b179a89fda88b1b485b9f2c1f44b0dd41ce6e3c3a690bbfaabec1e1ff4aefb2461fdda6629becbd43cf74c13d8c1a1625612243f0046148
def oDig : List Byte := beBytes 48 0x7f914e0f028586962de8f0e06a3e4fa817ec23cfabc908678f4438f6687511ca2af019428ebf70970c7a10bbd3bc0655
def okBlk : List Byte := leBytes 16 1 ++ oDig ++ List.replicate 32 0 ++ oKey ++ beBytes 96 0x572c77284c06125140282034d3c7530d1627b131a7fc852418a79cf5a7b7861f637702db11da4e8d44fc208560e035fd3f001439a0ece326a8de0324b2f4c90cfe7fc7a17499410eccea7f496c3560fee4846b34a0f44fce302e5ee155a3b617
def okTok : List Byte := leBytes 4 0x4B4F5444 ++ leBytes 2 1 ++ leBytes 2 1 ++ List.replicate 88 0 ++ oKey ++ beBytes 96 0xf4ea25efa6a75343b90c5575e4bd629e7e43e63715b3820925fc2e66e0a3340ed89572d1eb499437cb28285dc9abe4005d75e3bd661ec6c5e6877e231d076fc0b58d6741c3e30aec01b2778cf70741b9ff6b7dfcbd954bf485b6adaa858608ff
def wTok : State := { served with trust := { served.trust with owner := [], dbg := [(0, leNat oDig)], certHash := 0, nonce := 0, dbgCtr := 0 } }
def nKey : List Byte := beBytes 96 0x77a41d4606ffa1464793c7e5fdc7d98cb9d3910202dcd06bea4f240d3566da6b408bbae5026580d02d7e5c70500c831c995f7ca0b0c42837d0bbe9602a9fc998520b41c85115aa5f7684c0edc111eacc24abd6be4b5d298b65f28600a2f1df1
def nDig : Nat := 0x9fc0c2124451fda0b852401dcedc0dfc2e0c6d4c88b6c47850308c090e5343df4b833f5342ee5dc0dc52b915e1458aa1
def cmdBlk (c sig : Nat) : List Byte := leBytes 16 c ++ List.replicate 80 0 ++ nKey ++ beBytes 96 sig
def nCopy : FwCopy := ⟨nKey, beBytes 96 0xaa87ca22be8b05378eb1c71ef320ad746e1d3b628ba79b9859f741e082542a385502f25dbf55296c3a545e3872760ab7ff975e683ba10fa6ac15555cd962085d4a57b227a2f6d2c94682781f92c550c9a6eec966f54ed4c9c211013e8a9cf6b7, 769570433523329672114825001955929957130463657626278255233365105551674253349554894754184887790721008609504452935680, 1, 0, []⟩
def wOwn : State := { served with trust := { served.trust with owner := [(0, nDig), (1, nDig)], ownerRevoke := 0, dbg := [], dbgRevoke := 0, svn := 0, nonce := 0, qkey := [(0, nDig)], qrevoke := 0, fwA := some nCopy, fwB := some nCopy } }
def blk2 : List Byte := cmdBlk 2 0xaa87ca22be8b05378eb1c71ef320ad746e1d3b628ba79b9859f741e082542a385502f25dbf55296c3a545e3872760ab72bd96778a08677c0a2f1760d2226a135d72ffa2616740511c39d8f3dd92706dce2a1b02873292077d4f8fcb51b209e1a
def blk3 : List Byte := cmdBlk 3 0xaa87ca22be8b05378eb1c71ef320ad746e1d3b628ba79b9859f741e082542a385502f25dbf55296c3a545e3872760ab7a5766f96e5f0bbf256fd16e619621122dc013fa779e50edeb483146d41020cfda004e77bcf007c4bed230d23f7522682
def blk4 : List Byte := cmdBlk 4 0xaa87ca22be8b05378eb1c71ef320ad746e1d3b628ba79b9859f741e082542a385502f25dbf55296c3a545e3872760ab7dbec558858b0188a10e177d13b9fee51bd21af246eca0c170db7ffd896c227dcda77e39d60e86815aecfa104cc97c260
def blk5 : List Byte := cmdBlk 5 0xaa87ca22be8b05378eb1c71ef320ad746e1d3b628ba79b9859f741e082542a385502f25dbf55296c3a545e3872760ab7c2008796309e7d05d4dd656e076593c7f0666ed023fb0198a3840fd9c3653a6206203136530c6505ed7db842aa225dc9
def wA : State := { served.setP pgTRU TRU_ATTMODE.MODE 2 1 1 0 with trust := { served.trust with att := [(1, ⟨some 0, false⟩)] }, ticks := 1000000000000 }

theorem meets_BookIsServedAndStored_1 : st1.Inv ∧
    st1.mgmtUp = true ∧
    st1.trust.uncovered ≠ 0 ∧
    st1.trust.held.length < 4096 ∧
    st1.trust.since = some 0 ∧
    0 + st1.getF pgTRU TRU_CP_CTL.CP_INT * 10000000 ≤ st1.ticks ∧
    st1.trust.cpDue.isSome = true ∧
    st1.trust.held = [List.replicate 32 1] ∧
    st1.trust.lost = 0 ∧
    st1.fltMasked (pgTRU * 32 + 1) = false :=
  ⟨invOf (by decide +kernel), by decide +kernel⟩

theorem meets_BookIsServedAndStored_2 : wB.Inv ∧
    wB.mgmtUp = true ∧
    wB.trust.uncovered = 0 ∧
    wB.trust.tainted = false ∧
    (List.filter (fun x => decide (0 ≤ recSeq x)) (wB.bookEntry 0) = List.filter (fun x => decide (0 ≤ recSeq x)) (wB.bookEntry 0)) :=
  ⟨invOf (by decide +kernel), by decide +kernel⟩

theorem meets_BootFlashAccess_1 : st2.Inv ∧
    st2.flag pgTRU TRU_BOOT_STS.BOOT_FAIL = true ∧
    67108862 + [1, 2].length ≤ 67108864 ∧
    st2.mgmtUp = true :=
  ⟨invOf (by decide +kernel), by decide +kernel⟩

theorem meets_BootFlashAccess_2 : served.Inv ∧
    served.flag pgTRU TRU_BOOT_STS.BOOT_FAIL = false :=
  ⟨invOf (by decide +kernel), by decide +kernel⟩

theorem meets_OwnerCommandsAndDebugTokens_1 : served.Inv ∧
    served.mgmtUp = true ∧
    (blk 1).length = 288 ∧
    leNat (slice (blk 1) 0 1) = 1 ∧
    served.ownerRefusal (blk 1) ≠ 0 ∧
    served.tokenOk (blk 1) = false :=
  ⟨invOf (by decide +kernel), by decide +kernel⟩

theorem meets_OwnerCommandsAndDebugTokens_2 : wTok.Inv ∧
    wTok.mgmtUp = true ∧
    wTok.tokenOk okTok = true ∧
    leNat (slice okTok 64 32) = wTok.trust.nonce :=
  ⟨invOf (by decide +kernel), by decide +kernel⟩

theorem meets_OwnerCommandsAndDebugTokens_3 : served.Inv ∧
    served.mgmtUp = true ∧
    (blk 2).length = 288 ∧
    leNat (slice (blk 2) 0 1) = 2 ∧
    served.ownerRefusal (blk 2) ≠ 0 :=
  ⟨invOf (by decide +kernel), by decide +kernel⟩

theorem meets_OwnerCommandsAndDebugTokens_4 : served.Inv ∧
    served.mgmtUp = true ∧
    (blk 3).length = 288 ∧
    leNat (slice (blk 3) 0 1) = 3 ∧
    served.ownerRefusal (blk 3) ≠ 0 :=
  ⟨invOf (by decide +kernel), by decide +kernel⟩

theorem meets_OwnerCommandsAndDebugTokens_5 : served.Inv ∧
    served.mgmtUp = true ∧
    (blk 4).length = 288 ∧
    leNat (slice (blk 4) 0 1) = 4 ∧
    served.ownerRefusal (blk 4) ≠ 0 :=
  ⟨invOf (by decide +kernel), by decide +kernel⟩

theorem meets_OwnerCommandsAndDebugTokens_6 : served.Inv ∧
    served.mgmtUp = true ∧
    (blk 5).length = 288 ∧
    leNat (slice (blk 5) 0 1) = 5 ∧
    served.ownerRefusal (blk 5) ≠ 0 :=
  ⟨invOf (by decide +kernel), by decide +kernel⟩

theorem meets_OwnerCommandsAndDebugTokens_7 : wTok.Inv ∧
    wTok.mgmtUp = true ∧
    okBlk.length = 288 ∧
    leNat (slice okBlk 0 1) = 1 ∧
    wTok.ownerRefusal okBlk = 0 :=
  ⟨invOf (by decide +kernel), by decide +kernel⟩

theorem meets_OwnerCommandsAndDebugTokens_8 : wOwn.Inv ∧
    wOwn.mgmtUp = true ∧
    blk2.length = 288 ∧
    leNat (slice blk2 0 1) = 2 ∧
    wOwn.ownerRefusal blk2 = 0 :=
  ⟨invOf (by decide +kernel), by decide +kernel⟩

theorem meets_OwnerCommandsAndDebugTokens_9 : wOwn.Inv ∧
    wOwn.mgmtUp = true ∧
    blk3.length = 288 ∧
    leNat (slice blk3 0 1) = 3 ∧
    wOwn.ownerRefusal blk3 = 0 :=
  ⟨invOf (by decide +kernel), by decide +kernel⟩

theorem meets_OwnerCommandsAndDebugTokens_10 : wOwn.Inv ∧
    wOwn.mgmtUp = true ∧
    blk4.length = 288 ∧
    leNat (slice blk4 0 1) = 4 ∧
    wOwn.ownerRefusal blk4 = 0 :=
  ⟨invOf (by decide +kernel), by decide +kernel⟩

theorem meets_OwnerCommandsAndDebugTokens_11 : wOwn.Inv ∧
    wOwn.mgmtUp = true ∧
    blk5.length = 288 ∧
    leNat (slice blk5 0 1) = 5 ∧
    wOwn.ownerRefusal blk5 = 0 :=
  ⟨invOf (by decide +kernel), by decide +kernel⟩

theorem meets_ModuleAttestation_1 : wA.Inv ∧
    1 < 64 ∧
    wA.isDown 1 = true ∧
    wA.isFfl 1 = false ∧
    wA.attRuns 1 = true ∧
    wA.trust.held.length < 4096 ∧
    wA.attOutcome (some { chainOk := true, root := 0, sigsOk := true, chain := 5, meas := 6 }) ≠ 0 ∧
    wA.fltMasked (pgTRU * 32 + 4) = false ∧
    (wA.attOf 1).start = some 0 ∧
    0 + wA.getF pgTRU TRU_ATT_CTL.ATT_T * 1000000 ≤ wA.ticks ∧
    wA.grants Requester.mgmt pgTRU TRU_ATT_REDO.GO = true ∧
    wA.getP pgTRU TRU_ATTMODE.MODE 2 (1 % 16) (1 / 16) ≠ 0 ∧
    wA.inL0 1 = true :=
  ⟨invOf (by decide +kernel), by decide +kernel⟩

end Trust

/-! ## Witnesses: ageing, counters and traces (chapters 17, 18)

Each theorem `meets_X_…` shows that its state and operands meet together the hypotheses of a clause, or of several, of `Obligations.X`. -/

namespace Records

def wG : State := { ((served.setF pgAGE AGE_CTL.MODE 2).setFlag pgAGE AGE_CTL.SCAN_EN true) with fabric := 100000000000000, ticks := 100000000000000, age := { served.age with toScan := [1] } }
def ey : LaneEye := ⟨0, 20, 30⟩
def wPr : State := let s := ((((served.setFlag pgAGE AGE_PROP.VALID true).setF pgAGE AGE_PROP.ACTION 0).setF pgAGE AGE_PROP.PORT 1).setF pgAGE AGE_CTL.MODE 0); { s with age := { s.age with propL0 := 1 } }
def st3 : State := { served with ticks := 10 * hourNs, age := { served.age with retired := 2 ^ 167, hours := 720 } }
def st5 : State := { ((served.setF (pgPMUC 0) PMU_CTR.COUNT 77 30).setCellarState 3 1) with snapAt := some 0, fabric := 55 }
def st6 : State := { ((served.setF (pgPMUC 3) PMU_CTR.COUNT 77 30).setCellarState 3 1) with snapAt := some 0, fabric := 55 }
def tr (o : Option (Nat × Nat × Nat)) : TraceRec := { id := 5, cellar := 0, n := 0, mseq := 0, acc := 0, dord := 0, ing := 0, egr := some 1, queue := 8, cells := 1, cut := false, spilled := false, mcast := false, sched := false, fabArr := false, trans := false, grel := none, x1 := none, mark := 0, sigma := 0, part := 0, rid := 0, addr := 0, hdr := 0, ini := .port 0 0 none, order := 0, out := o }
def wT : State := { (served.setFlag (pgPMUT 0) PMU_RING_CTL.EN true) with trace := [tr (some (0, 50, 0))], regions := [(2, (0x200000, 0x10000000))] }
def st8 : State := (wT.setF (pgPMUT 0) PMU_RING_WR.WR (0x100000 - 1)).setFlag (pgPMUT 0) PMU_RING_CTL.MODE true
def st9 : State := { served with trace := [tr none], fabric := 2000000000, packets := [{ pkt served 0 3 (req .mrd 1 2 []) with sample := some 5 }] }

theorem meets_AgeingAndMargins_1_1 : wG.Inv ∧
    wG.ageMode ≠ 0 ∧
    wG.flag pgAGE AGE_STS.PASS_BUSY = false ∧
    wG.age.passAt + wG.getF pgAGE AGE_CTL.PLAN_INT * 60000000000 ≤ wG.fabric ∧
    wG.ageBad = false ∧
    1 ∈ wG.age.toScan ∧
    wG.scannable 1 = true ∧
    wG.laneOf 1 ey.lane ∈ wG.trainedLanes 1 ∧
    wG.grants Requester.mgmt pgAGE AGE_CMD.DISCARD = true ∧
    wG.grants Requester.mgmt pgAGE AGE_CMD.SCAN_NOW = true ∧
    1 < 64 ∧
    wG.grants Requester.mgmt pgAGE AGE_AVS.TARGET = true ∧
    wG.pageSealed pgAGE = false ∧
    wG.avsTarget < 780 ∧
    780 ≤ wG.getF pgAGE AGE_AVS.CEIL :=
  ⟨invOf (by decide +kernel), by decide +kernel⟩

theorem meets_AgeingAndMargins_1_2 : wPr.Inv ∧
    wPr.grants Requester.mgmt pgAGE AGE_CMD.APPLY = true ∧
    wPr.flag pgAGE AGE_PROP.VALID = true ∧
    wPr.getF pgAGE AGE_PROP.ACTION = 0 ∧
    wPr.getF pgAGE AGE_PROP.PORT = 1 ∧
    (wPr.port 1).l0s = wPr.age.propL0 ∧
    wPr.portEn 1 = true ∧
    wPr.inL0 1 = true ∧
    wPr.isFfl 1 = false ∧
    wPr.grants Requester.mgmt pgAGE AGE_CMD.SCAN_NOW = true ∧
    1 < 64 ∧
    wPr.ageMode = 0 ∧
    wPr.scannable 1 = true ∧
    1 ∉ wPr.age.toScan :=
  ⟨invOf (by decide +kernel), by decide +kernel⟩

theorem meets_AgeingAndMargins_2_1 : st3.Inv ∧
    (∃ x ∈ [(100, 120), (7, 50), (1, 1), (2, 2), (3, 3), (4, 4), (5, 5), (60000, 109)], 110 ≤ x.2) ∧
    st3.fltMasked (pgPWR * 32 + 2) = false ∧
    (∃ x ∈ [(100, 120), (7, 50), (1, 1), (2, 2), (3, 3), (4, 4), (5, 5), (60000, 109)], 120 ≤ x.2) ∧
    st3.pwr.thermtrip = false ∧
    st3.age.hourAt + hourNs ≤ st3.ticks ∧
    st3.fltMasked (pgAGE * 32 + 4) = false ∧
    st3.age.monthAt + 720 ≤ st3.age.hours ∧
    st3.grants Requester.mgmt pgAGE AGE_CMD.UNRETIRE = true ∧
    167 < 168 ∧
    bitAt st3.age.retired 167 = true ∧
    st3.readable Requester.mgmt (State.offOf pgAGE AGE_LDATA.VALID) 4 = true :=
  ⟨invOf (by decide +kernel), by decide +kernel⟩

theorem meets_CountersSnapshotsAndAccounts_1 : st5.Inv ∧
    0 < 4 ∧
    30 < 32 ∧
    st5.grants Requester.mgmt (pgPMUC 0) PMU_CTR.COUNT 30 = true ∧
    st5.grants Requester.mgmt (pgPMUC 0) PMU_CTR.COUNT 30 8 = true ∧
    30 % 2 = 0 ∧
    st5.grants Requester.mgmt (pgPMUC 0) PMU_EVT.EVENT 30 = true ∧
    st5.snapAt = some 0 ∧
    0 ≤ st5.ticks ∧
    st5.cellarRun 0 = true ∧
    0 < 2 ∧
    st5.grants Requester.mgmt (pgPMUA 0 (8 * 0)) PMU_SA_CLR.CLR = true :=
  ⟨invOf (by decide +kernel), by decide +kernel⟩

theorem meets_CountersSnapshotsAndAccounts_2 : served.Inv ∧
    3 < 4 ∧
    31 < 32 ∧
    served.grants Requester.mgmt (pgPMUC 3) PMU_GSNAP.GO = true ∧
    served.snapAt = none :=
  ⟨invOf (by decide +kernel), by decide +kernel⟩

theorem meets_CountersSnapshotsAndAccounts_3 : st6.Inv ∧
    3 < 4 ∧
    30 < 32 ∧
    st6.snapAt = some 0 ∧
    0 ≤ st6.ticks ∧
    st6.cellarRun 3 = false :=
  ⟨invOf (by decide +kernel), by decide +kernel⟩

theorem meets_TraceRecordsAndRings_1 : wT.Inv ∧
    0 < 4 ∧
    wT.traceNext 0 = some (tr (some (0, 50, 0))) ∧
    wT.cellarRun 0 = true ∧
    wT.flag (pgPMUT 0) PMU_RING_CTL.EN = true ∧
    wT.spillDue = none ∧
    wT.regionSize 2 ≠ 0 ∧
    wT.regionSize 2 % 256 = 0 ∧
    wT.ringCount 0 + 1 < wT.ringSize ∧
    wT.grants Requester.mgmt (pgPMUT 0) PMU_RING_RD.RD = true ∧
    0 < wT.ringSize ∧
    wT.ringSize ≤ 2 ^ 24 ∧
    (0 + wT.ringSize - wT.getF (pgPMUT 0) PMU_RING_RD.RD % wT.ringSize) % wT.ringSize ≤ wT.ringCount 0 :=
  ⟨invOf (by decide +kernel), by decide +kernel⟩

theorem meets_TraceRecordsAndRings_2 : st8.Inv ∧
    0 < 4 ∧
    st8.traceNext 0 = some (tr (some (0, 50, 0))) ∧
    st8.cellarRun 0 = true ∧
    st8.flag (pgPMUT 0) PMU_RING_CTL.EN = true ∧
    st8.spillDue = none ∧
    st8.regionSize 2 ≠ 0 ∧
    st8.regionSize 2 % 256 = 0 ∧
    st8.ringSize ≤ st8.ringCount 0 + 1 ∧
    st8.flag (pgPMUT 0) PMU_RING_CTL.MODE = true :=
  ⟨invOf (by decide +kernel), by decide +kernel⟩

theorem meets_TraceRecordsAndRings_3 : st9.Inv ∧
    0 < 4 ∧
    (List.find? (fun x => x.out.isNone && decide (x.acc + 1000000000 ≤ st9.fabric)) st9.trace = some (tr none)) :=
  ⟨invOf (by decide +kernel), by decide +kernel⟩

end Records

/-! ## Witnesses: clocks, power and resets (chapter 19)

Each theorem `meets_X_…` shows that its state and operands meet together the hypotheses of a clause, or of several, of `Obligations.X`. -/

namespace Resets

def src (m p : Nat) : State := { ((served.setF pgCLK CLK_TSRC.MODE m).setF pgCLK CLK_TSRC.PORT p) with fabric := 5000, ticks := 100000000000 }
def st1 : State := src 1 0
def st2 : State := { src 1 0 with clk := { (src 1 0).clk with good := 7 } }
def pw : State := { served with ticks := 1000000, pwr := { served.pwr with sampleAt := some 0 } }
def st6 : State := ((pw.setGate 93 true).setGated 93 true)
def st7 : State := { pw with pwr := { pw.pwr with gating := [92, 93], waking := [(92, 0), (93, 0)], below := [(0, (1, 1))] } }
def st8 : State := { (pw.setF pgSPL SPL_QUOTA.UNITS 3 0) with pwr := { pw.pwr with gating := [93], waking := [(93, 0)], below := [(0, (1, 0))] } }
def wn (t : Option Nat) : State := { pw.setFlag pgPWR PWR_SUPPLY.WARN true with pwr := { pw.pwr with warning := [(0, t)] } }
def st9 : State := wn (some 0)
def st11 : State := wn none
def kIn : Packet := pkt served 1 4 (req .mwr 0x100 0x1000 [1,2,3,4])
def full : State := { (served.hbmWrite 0x200 [some 7]) with packets := [kIn], fabric := 900, ticks := 10000000 }
def st12 : State := full.setF pgMIR MIR_STS.ROLE 2
def st13 : State := (full.setFlag pgFLT FLT_STATE.DEV_FATAL true)
def st14 : State := ((full.bootAt 0).modBoot fun b => { b with since := 0, warm := some (5, 15) })
def st15 : State := (((full.bootAt 2).modBoot fun b => { b with since := 0 }).setFlag pgCLK CLK_STS.PLL_LOCK false)
def st16 : State := ((full.setFlag pgRST RST_PSTS.BUSY true 0).setF (pgLNK 1) LNK_STS.STATE 8)
def bi : BootInfo := ⟨none, none, none, none, [1,2], [(0x11080, 5)], [(1, (0, 0x10000000))]⟩
def st17 : State := full.bootAt 1
def st18 : State := full.bootAt 2
def st19 : State := (full.bootAt 3).modBoot fun b => { b with fatal := true }
def st21 : State := full.bootAt 4
def st22 : State := { full.bootAt 5 with regions := [(1, (0, 0x10000))] }
def warm6 : State := (State.reset.bootAt 6).modBoot fun b => { b with cold := false }
def bi0 : BootInfo := ⟨none, none, none, none, [], [], [(1, (0, 0x10000000))]⟩
def st24 : State := (full.bootAt 8).setF pgCLK CLK_TSRC.MODE 1
def st25 : State := { ((full.bootAt 8).setF pgCLK CLK_TSRC.MODE 1) with ticks := 100000000000 }
def st26 : State := full.bootAt 8
def st27 : State := full.bootAt 10
def st28 : State := full.bootAt 11
def fKey : List Byte := beBytes 96 0xe86b995e350e4d312a95a6b7d5d8cdcdb4682f588800a1cd6c972e1dcb2a5ac38d90046951b03ccb3b179a89fda88b1b485b9f2c1f44b0dd41ce6e3c3a690bbfaabec1e1ff4aefb2461fdda6629becbd43cf74c13d8c1a1625612243f0046148
def fw : FwCopy := ⟨fKey, beBytes 96 0x63110061e15a51190cef8c3d91f0d705e8a3015d93ba0d39a29cf53272ef075aa258c6a1784f7f42f377dd785ac4ce37c1dffdeaaa66cf1c9cdbae244fef2cd2193a5c3379f7d84cd98141461be91d5c0af436124728298d046ecd19bf5eb0c3, leNat (beBytes 48 0x52c20a6f7f43271e6489d0a1e243b576ac7ef37245f667bf66f0616409824bec4eeb3542c5e0799f242315b9c3df28fe), 3, 0, []⟩
def wFw : State := { full with mgmtUp := false, trust := { full.trust with qkey := [(0, leNat (beBytes 48 0x7f914e0f028586962de8f0e06a3e4fa817ec23cfabc908678f4438f6687511ca2af019428ebf70970c7a10bbd3bc0655))], svn := 0 } }
/-- A configuration that loads nothing and places the regions `r`. -/
def conf (r : List (Nat × Nat × Nat)) : BootInfo := ⟨none, none, none, none, [], [], r⟩
/-- The state before the ageing state is read. -/
def read6 (r : List (Nat × Nat × Nat)) : State :=
  let h := sha384 (conf r).config
  let s1 := (warm6.bookAdd 3 (leBytes 4 (conf r).config.length ++ leBytes 4 0 ++ leBytes 48 h)).modTrust fun t => { t with cfgHash := h }
  let s2 := s1.each (conf r).loads fun t e => t.loadReg e.1 e.2
  { s2 with regions := (conf r).regions.foldl (fun m e => storeSet (fun _ => (0, 0)) m e.1 e.2) [] }
/-- The state that `conf r` leaves: no half of the ageing state is valid, and no port is enabled. -/
def after6 (r : List (Nat × Nat × Nat)) : State :=
  ((read6 r).modAge fun a => { a with retired := 0, hours := 0, hourAt := (read6 r).ticks }).fire pgAGE 4

theorem meets_ClocksAndPower_1_1 : st2.Inv ∧
    st2.flag pgCLK CLK_STS.PLL_LOCK = true ∧
    st2.fltMasked (pgCLK * 32) = false ∧
    3 ≤ st2.boot.step ∧
    st2.sourceBad = false ∧
    st2.sampleTheta (some (5050, 5000)) = some 50 ∧
    Int.natAbs 50 ≤ 100 ∧
    7 ≤ st2.clk.good ∧
    (Int.natAbs 50 ≤ 1000 ∨ st2.schedBusy = true) ∧
    st2.timeSource = TimeSource.ptm 0 ∧
    st2.clk.ptmAt + st2.sampleInterval ≤ st2.ticks ∧
    st2.inL0 0 = true ∧
    st2.timeSource ≠ TimeSource.none ∧
    st2.flag pgCLK CLK_STS.HOLDOVER = false ∧
    st2.clk.lastAt + 16 * st2.sampleInterval ≤ st2.ticks ∧
    st2.fltMasked (pgCLK * 32 + 1) = false :=
  ⟨invOf (by decide +kernel), by decide +kernel⟩

theorem meets_ClocksAndPower_1_2 : st1.Inv ∧
    st1.sourceBad = false ∧
    st1.sampleTheta (some (4999, 6000)) = some (-1001) ∧
    1000 < (-1001).natAbs ∧
    st1.schedBusy = false :=
  ⟨invOf (by decide +kernel), by decide +kernel⟩

theorem meets_ClocksAndPower_2_1 : st7.Inv ∧
    92 < 96 ∧
    st7.grants Requester.mgmt pgPWR PWR_GATE.GATE (92 / 32) = true ∧
    softDomain 92 = true ∧
    st7.gateBit 92 = false ∧
    st7.gateAllowed 92 = true ∧
    92 ∈ st7.pwr.gating ∧
    (92, 0) ∈ st7.pwr.waking ∧
    (∀ x ∈ st7.pwr.waking, x.1 = 92 → x = (92, 0)) ∧
    0 + State.wakeTime 92 ≤ st7.ticks ∧
    92 = 92 ∧
    (∀ (t : ℕ), st7.pwr.sampleAt = some t → t + 100 ≤ st7.ticks) ∧
    2 ≤ (st7.railCounts 0 670).2 :=
  ⟨invOf (by decide +kernel), by decide +kernel⟩

theorem meets_ClocksAndPower_2_2 : pw.Inv ∧
    0 < 96 ∧
    pw.grants Requester.mgmt pgPWR PWR_GATE.GATE (0 / 32) = true ∧
    softDomain 0 = true ∧
    pw.gateBit 0 = false ∧
    pw.gateAllowed 0 = false ∧
    pw.fltMasked (pgPWR * 32 + 1) = false ∧
    (∀ (t : ℕ), pw.pwr.sampleAt = some t → t + 100 ≤ pw.ticks) ∧
    pw.pwr.warning = [] ∧
    (∀ x ∈ [(0, 800), (1, 800)], pw.railWarn x.1 ≤ x.2 ∨ 8 < x.1) :=
  ⟨invOf (by decide +kernel), by decide +kernel⟩

theorem meets_ClocksAndPower_2_3 : st8.Inv ∧
    93 < 96 ∧
    (93, 0) ∈ st8.pwr.waking ∧
    (∀ x ∈ st8.pwr.waking, x.1 = 93 → x = (93, 0)) ∧
    0 + State.wakeTime 93 ≤ st8.ticks ∧
    93 = 93 ∧
    (∀ (t : ℕ), st8.pwr.sampleAt = some t → t + 100 ≤ st8.ticks) ∧
    st8.pwr.warning = [] ∧
    704 < st8.railWarn 0 ∧
    (st8.railCounts 0 704).1 = 2 ∧
    (st8.railCounts 0 704).2 < 2 ∧
    st8.fltMasked (pgPWR * 32) = false :=
  ⟨invOf (by decide +kernel), by decide +kernel⟩

theorem meets_ClocksAndPower_2_4 : st6.Inv ∧
    93 < 96 ∧
    st6.grants Requester.mgmt pgPWR PWR_GATE.GATE (93 / 32) = true ∧
    softDomain 93 = true ∧
    st6.gateBit 93 = true ∧
    st6.gated 93 = true :=
  ⟨invOf (by decide +kernel), by decide +kernel⟩

theorem meets_ClocksAndPower_2_5 : st9.Inv ∧
    93 < 96 ∧
    st9.flag pgPWR PWR_SUPPLY.WARN = true ∧
    (∀ e ∈ st9.pwr.warning, ∃ t0, e.2 = some t0 ∧ t0 + 10000 ≤ st9.ticks) :=
  ⟨invOf (by decide +kernel), by decide +kernel⟩

theorem meets_ClocksAndPower_2_6 : st11.Inv ∧
    93 < 96 ∧
    st11.flag pgPWR PWR_SUPPLY.WARN = true ∧
    (∃ e ∈ st11.pwr.warning, ∀ (t0 : ℕ), e.2 = some t0 → st11.ticks < t0 + 10000) :=
  ⟨invOf (by decide +kernel), by decide +kernel⟩

theorem meets_ClocksAndPower_2_7 : pw.Inv ∧
    94 < 96 ∧
    pw.grants Requester.mgmt pgPWR PWR_GATE.GATE (94 / 32) = true ∧
    softDomain 94 = false :=
  ⟨invOf (by decide +kernel), by decide +kernel⟩

theorem meets_ResetsOfTheDevice_1 : st15.Inv ∧
    st15.boot.step = 2 ∧
    st15.boot.since + 100000 ≤ st15.ticks ∧
    st15.flag pgCLK CLK_STS.PLL_LOCK = false ∧
    st15.devFatal = false ∧
    st15.boot.warm = none ∧
    st15.boot.step ≠ 0 ∧
    st15.getF pgMIR MIR_STS.ROLE ≠ 2 ∧
    st15.grants Requester.mgmt pgRST RST_CMD.WARM = true ∧
    st15.mgmtUp = true ∧
    st15.grants Requester.mgmt pgRST RST_CMD.MGMT = true ∧
    st15.grants Requester.mgmt pgRST RST_PART.GO = true ∧
    24 ≤ 24 :=
  ⟨invOf (by decide +kernel), by decide +kernel⟩

theorem meets_ResetsOfTheDevice_2 : st14.Inv ∧
    st14.boot.step = 0 ∧
    st14.boot.since + 1000000 ≤ st14.ticks ∧
    st14.boot.warm = some (5, 15) ∧
    st14.devFatal = false ∧
    5 ≤ st14.ticks ∧
    15 < 16 :=
  ⟨invOf (by decide +kernel), by decide +kernel⟩

theorem meets_ResetsOfTheDevice_3 : st12.Inv ∧
    st12.devFatal = false ∧
    st12.boot.warm = none ∧
    st12.boot.step ≠ 0 ∧
    st12.getF pgMIR MIR_STS.ROLE = 2 :=
  ⟨invOf (by decide +kernel), by decide +kernel⟩

theorem meets_ResetsOfTheDevice_4 : full.Inv ∧
    full.grants Requester.mgmt pgRST RST_PART.GO = true ∧
    0 < 24 ∧
    full.partOn 0 = true ∧
    full.flag pgRST RST_PSTS.BUSY = false :=
  ⟨invOf (by decide +kernel), by decide +kernel⟩

theorem meets_ResetsOfTheDevice_5 : st16.Inv ∧
    0 < 24 ∧
    st16.flag pgRST RST_PSTS.BUSY = true :=
  ⟨invOf (by decide +kernel), by decide +kernel⟩

theorem meets_ResetsOfTheDevice_6 : st13.Inv ∧
    st13.devFatal = true :=
  ⟨invOf (by decide +kernel), by decide +kernel⟩

theorem same_regs {s t : State} (h : ({ t with regs := s.regs } : State) = s) (hr : t.regs = s.regs) : t = s := by
  rw [← hr] at h; exact h

theorem same_queues {s t : State} (h : ({ t with regs := s.regs, queues := s.queues } : State) = s) (hr : t.regs = s.regs)
    (hq : t.queues = s.queues) : t = s := by
  rw [← hr, ← hq] at h; exact h

theorem same_ports {s t : State} (h : ({ t with regs := s.regs, ports := s.ports } : State) = s) (hr : t.regs = s.regs)
    (hp : t.ports = s.ports) : t = s := by
  rw [← hr, ← hp] at h; exact h

theorem laneStatus_after6 (r : List (Nat × Nat × Nat)) : ∀ c ∈ List.range 4, (after6 r).laneStatus c = after6 r := by
  have h : ∀ c < 4, ∀ l < 40, let t := after6 []
      let x := t.portOfLane (40 * c + l)
      let t1 := t.setFlag (pgCEL c) CEL_LANESTS.UNUSED x.isNone l
      ((t1.setF (pgCEL c) CEL_LANESTS.PORT ((x.map (·.1 % 16)).getD 0x3F) l).setFlag (pgCEL c) CEL_LANESTS.RETIRED
        (t1.laneRetired (40 * c + l)) l).regs = t.regs := by decide +kernel
  intro c hc
  exact each_fix _ fun l hl => same_regs rfl (h c (List.mem_range.1 hc) l (List.mem_range.1 hl))

theorem newlyActive_after6 (r : List (Nat × Nat × Nat)) : ∀ q ∈ List.range 512, (after6 r).newlyActive q = after6 r := by
  have h : ∀ q < 512, ((after6 []).newlyActive q).regs = (after6 []).regs ∧ ((after6 []).newlyActive q).queues = (after6 []).queues := by
    decide +kernel
  intro q hq
  exact same_queues rfl (h q (List.mem_range.1 hq)).1 (h q (List.mem_range.1 hq)).2

theorem resetPolicers_after6 (r : List (Nat × Nat × Nat)) : ∀ p ∈ List.range 64, (after6 r).resetPolicers p = after6 r := by
  have h : ∀ p < 64, ((after6 []).resetPolicers p).regs = (after6 []).regs ∧ ((after6 []).resetPolicers p).ports = (after6 []).ports := by
    decide +kernel
  intro p hp
  exact same_ports rfl (h p (List.mem_range.1 hp)).1 (h p (List.mem_range.1 hp)).2

theorem bootConfig_conf (r : List (Nat × Nat × Nat)) : warm6.bootConfig (conf r) = after6 r := by
  have hf : ∀ p ∈ List.range 64, (after6 r).portEn p = false := by
    have h : ∀ p < 64, (after6 []).portEn p = false := by decide +kernel
    exact fun p hp => h p (List.mem_range.1 hp)
  have hb : (after6 r).flag pgMIR MIR_CFG.BOUND = false := by
    show (after6 []).flag pgMIR MIR_CFG.BOUND = false
    decide +kernel
  have h0 : warm6.ageHalf 0x37E0000 = none := by decide +kernel
  have h1 : warm6.ageHalf 0x37E8000 = none := by decide +kernel
  have e : (read6 r).ageRestore = after6 r := by
    have k : ∀ a, (read6 r).ageHalf a = warm6.ageHalf a := fun _ => rfl
    simp only [State.ageRestore, k, h0, h1]
    rfl
  let tail := fun (u : State) =>
    let s5 := u.each ((List.range 64).filter u.portEn) fun t p => t.setF (pgLNK p) LNK_DERATE.CAP (t.getF (pgLNK p) LNK_CFG.MAXRATE)
    let s6 := (s5.each (List.range 4) fun t c => t.laneStatus c).each (List.range 512) fun t q => t.newlyActive q
    let s7 := (s6.each (List.range 64) fun t p => t.resetPolicers p).each ((List.range 64).filter fun p => s6.portEn p && s6.widest p == 0)
      fun t p => t.noLanes p
    s7.onlyIf (s7.flag pgMIR MIR_CFG.BOUND) fun t =>
      let u := t.setRole 1
      { u with mir := { u.mir with seekStart := u.ticks } }
  have hz : tail (after6 r) = after6 r := by
    have hp : (List.range 64).filter (after6 r).portEn = [] := List.filter_eq_nil_iff.2 fun p hp => by simp [hf p hp]
    have hw : ((List.range 64).filter fun p => (after6 r).portEn p && (after6 r).widest p == 0) = [] :=
      List.filter_eq_nil_iff.2 fun p hp => by simp [hf p hp]
    dsimp only [tail]
    rw [hp, each_nil, each_fix _ (laneStatus_after6 r), each_fix _ (newlyActive_after6 r), each_fix _ (resetPolicers_after6 r), hw, each_nil, hb]
    rfl
  have hc : warm6.boot.cold = false := by rfl
  have h2 : warm6.bootConfig (conf r) = tail ((read6 r).ageRestore.onlyIf warm6.boot.cold fun t => t.lifeRestore) := by
    unfold State.bootConfig read6
    rfl
  rw [hc] at h2
  have h3 : ∀ x : State, (x.onlyIf false fun t => t.lifeRestore) = x := fun _ => rfl
  rw [h3] at h2
  rw [h2, e, hz]

theorem meets_BootSequence_1 : warm6.Inv ∧ warm6.boot.step = 6 ∧ (warm6.bootConfig (conf [(1, (0, 0x10000000))])).configBad = none :=
  ⟨invOf (by decide +kernel), by decide +kernel, by rw [bootConfig_conf]; decide +kernel⟩

theorem meets_BootSequence_0 : warm6.Inv ∧
    warm6.mgmtUp = false ∧
    4 ≤ warm6.boot.step ∧
    warm6.boot.step ≠ 13 ∧
    warm6.flag pgTRU TRU_BOOT_STS.BOOT_FAIL = false ∧
    warm6.copyAccepted none = none :=
  ⟨invOf (by decide +kernel), by decide +kernel⟩

theorem meets_BootSequence_2 : st19.Inv ∧
    st19.boot.step = 3 ∧
    (after (exec (.bootStepDone bi) st19)).mgmtUp = true ∧
    st19.boot.fatal = true :=
  ⟨invOf (by decide +kernel), by decide +kernel⟩

theorem meets_BootSequence_3 : st22.Inv ∧
    st22.boot.step = 5 :=
  ⟨invOf (by decide +kernel), by decide +kernel⟩

theorem meets_BootSequence_4 : st27.Inv ∧
    st27.boot.step = 10 :=
  ⟨invOf (by decide +kernel), by decide +kernel⟩

theorem meets_BootSequence_5 : st25.Inv ∧
    st25.boot.step = 8 ∧
    st25.flag pgCLK CLK_STS.LOCKED = false ∧
    st25.getF pgCLK CLK_TSRC.MODE ≠ 0 ∧
    st25.boot.since + 200000000 ≤ st25.ticks ∧
    st25.fltMasked (pgCLK * 32 + 1) = false :=
  ⟨invOf (by decide +kernel), by decide +kernel⟩

theorem meets_BootSequence_6 : st28.Inv ∧
    (st28.boot.step = 7 ∨ st28.boot.step = 9 ∨ st28.boot.step = 11) ∧
    st28.boot.step = 11 :=
  ⟨invOf (by decide +kernel), by decide +kernel⟩

theorem meets_BootSequence_7 : wFw.Inv ∧
    wFw.mgmtUp = false ∧
    4 ≤ wFw.boot.step ∧
    wFw.boot.step ≠ 13 ∧
    wFw.flag pgTRU TRU_BOOT_STS.BOOT_FAIL = false ∧
    wFw.copyAccepted (some fw) ≠ none :=
  ⟨invOf (by decide +kernel), by decide +kernel⟩

theorem meets_BootSequence_8 : wFw.Inv ∧
    wFw.mgmtUp = false ∧
    4 ≤ wFw.boot.step ∧
    wFw.boot.step ≠ 13 ∧
    wFw.flag pgTRU TRU_BOOT_STS.BOOT_FAIL = false ∧
    wFw.copyAccepted none = none ∧
    wFw.copyAccepted (some fw) ≠ none :=
  ⟨invOf (by decide +kernel), by decide +kernel⟩

theorem meets_BootSequence_9 : st17.Inv ∧
    st17.boot.step = 1 :=
  ⟨invOf (by decide +kernel), by decide +kernel⟩

theorem meets_BootSequence_10 : st18.Inv ∧
    st18.boot.step = 2 :=
  ⟨invOf (by decide +kernel), by decide +kernel⟩

theorem meets_BootSequence_11 : st21.Inv ∧
    st21.boot.step = 4 :=
  ⟨invOf (by decide +kernel), by decide +kernel⟩

theorem meets_BootSequence_12 : st24.Inv ∧
    st24.boot.step = 8 ∧
    st24.flag pgCLK CLK_STS.LOCKED = false ∧
    st24.getF pgCLK CLK_TSRC.MODE ≠ 0 ∧
    st24.ticks < st24.boot.since + 200000000 :=
  ⟨invOf (by decide +kernel), by decide +kernel⟩

theorem meets_BootSequence_13 : st26.Inv ∧
    st26.boot.step = 8 ∧
    (st26.flag pgCLK CLK_STS.LOCKED = true ∨ st26.getF pgCLK CLK_TSRC.MODE = 0) :=
  ⟨invOf (by decide +kernel), by decide +kernel⟩

end Resets

/-! ## Witnesses: results that the spec leaves undefined

Each theorem `meets_X_…` shows that its state and operands meet together the hypotheses of a clause, or of several, of `Obligations.X`. -/

namespace Undefined

def ufV : Vintage := { vintage 1000 with plan := [(1, 3)] }
def ufA : ArmOp := ⟨2, 96, false, false, false⟩
def ufF : FbOp := ⟨3, 96, [], []⟩
def ufH : FabHdr := { kind := 4, ro := false, sync := false, replay := false, dst := 0x1005, cls := 0, cellar := 0, src := 2, part := 0, aux := 0, tseq := 0, pbar := 0 }
def ufT : TraceRec := { id := 5, cellar := 0, n := 0, mseq := 0, acc := 0, dord := 0, ing := 0, egr := some 1, queue := 8, cells := 1, cut := false, spilled := false, mcast := false, sched := false, fabArr := false, trans := false, grel := none, x1 := none, mark := 0, sigma := 0, part := 0, rid := 0, addr := 0, hdr := 0, ini := .port 0 0 none, order := 0, out := some (0, 50, 0) }
def ufI : BootInfo := ⟨none, none, none, none, [], [], [(1, (1, 5))]⟩
def ufBase : State := let s := (served.setSlot 2 4).setSlot 3 3; { s with fabric := 100000000000000, ticks := 100000000000000, sched := { s.sched with slots := [(2, some ufV), (3, some ufV)], arm := some ufA, fb := some ufF } }
def ufSet : State := (((((ufBase.setF pgAGE AGE_CTL.MODE 2).setF pgAGE AGE_EYE_THR.EQ_LO 0).setFlag (pgSLOT 3) SPC_SCFG.EN true).setF pgSPC SPC_FEEDLIM.OV 0).setF pgCLK CLK_TSRC.MODE 1).setF pgCLK CLK_TSRC.PORT 1
def ufBoot : State := (State.reset.bootAt 6).modBoot fun b => { b with cold := false }
def ufEnt : SwEntry := { gran := 0x4001, bytes := List.replicate 64 none, ini := .port 0 0x77 none, bound := none, wseq := 0, order := 1, cellar := 0, ing := 0, part := 0, strict := false, pkt := 9, poisoned := false, src := { pkt served 0 3 (req .mwr 1 2 []) with attr := { Attr.zero with win := some 0 } } }
def ufAll : State := { (ufSet.setFlag (pgPMUT 0) PMU_RING_CTL.EN true).setF (pgWIN 0) WIN_ROUTE.KIND 4 0 with swb := [ufEnt], trace := [ufT], packets := [{ pkt served 0 3 (req .mrd 1 2 []) with attr := { Attr.zero with win := some 0 } }], heldRegs := [(State.fkey (pgWIN 0) WIN_ATTR.PFSZ 0, 0x04000000)] }
def ufVf : State := (((served.setF pgVIM VIM_PALLOC.BASE 0 0).setF pgVIM VIM_PALLOC.COUNT 4 0).setF (pgVIMI 0) VIM_ICHAN.COUNT 4 0).setF (pgVIMI 0) VIM_ICHAN.FIRST 190 0
def ufCh : State := served.setF (chPage 5) DMA_STS.STATE 1 5
def ufSh : State := let s : State := { served with regions := [(1, (0x100000, 0x100000))], fabric := 100 }; { s with packets := [{ pkt s 0 3 (req .mrd 0 0x200000 []) with route := .shared 0x200000 }] }
def ufShPk : Packet := { pkt ufSh 0 3 (req .mrd 0 0x200000 []) with route := .shared 0x200000 }

theorem meets_UndefinedResultsStop_1 : ufAll.Inv ∧
    ufAll.sched.arm = some ufA ∧
    ufAll.devFatal = false ∧
    ufA.tick ≤ ufAll.fabric ∧
    ufAll.slotImg ufA.slot = some ufV ∧
    ufA.pair = false ∧
    (∀ d < 4, givesTo ufV d = true → ufAll.cellarRun d = true) ∧
    ufAll.imageBad ufV = some 207 ∧
    ufAll.sched.fb = some ufF ∧
    ufF.tick ≤ ufAll.fabric ∧
    ufAll.slotImg ufF.slot = some ufV ∧
    ufAll.ageMode ≠ 0 ∧
    ufAll.flag pgAGE AGE_STS.PASS_BUSY = false ∧
    ufAll.age.passAt + ufAll.getF pgAGE AGE_CTL.PLAN_INT * 60000000000 ≤ ufAll.fabric ∧
    ufAll.ageBad = true ∧
    (∀ (t : ℕ), ufAll.spc.sampleAt = some t → t + 1000 ≤ ufAll.ticks) ∧
    ufAll.slotBad = true ∧
    ufAll.sourceBad = true ∧
    ufAll.traceNext 0 = some ufT ∧
    ufAll.cellarRun 0 = true ∧
    ufAll.flag (pgPMUT 0) PMU_RING_CTL.EN = true ∧
    ufAll.spillDue = none ∧
    (ufAll.regionSize 2 = 0 ∨ ufAll.regionSize 2 % 256 ≠ 0) :=
  ⟨invOf (by decide +kernel), by decide +kernel⟩

theorem meets_UndefinedResultsStop_2 : ufAll.Inv ∧
    ufAll.sourceBad = true ∧
    ufAll.timeSource = TimeSource.ptm 1 :=
  ⟨invOf (by decide +kernel), by decide +kernel⟩

theorem meets_UndefinedResultsStop_3 : ufAll.Inv ∧
    ufAll.granted Requester.mgmt (State.offOf (pgWIN 0) WIN_ROUTE.KIND (0 % 128)) 4 = true ∧
    ufAll.winUndefined 0 = some 354 :=
  ⟨invOf (by decide +kernel), by decide +kernel⟩

theorem meets_UndefinedResultsStop_4 : Resets.warm6.Inv ∧ Resets.warm6.boot.step = 6 ∧
    (Resets.warm6.bootConfig (Resets.conf [(1, (1, 5))])).configBad = some 52 :=
  ⟨invOf (by decide +kernel), by decide +kernel, by rw [Resets.bootConfig_conf]; decide +kernel⟩

theorem meets_UndefinedResultsStop_5 : ufVf.Inv ∧
    ufVf.partOn 0 = true ∧
    ufVf.vfClash 0 true 3 = true :=
  ⟨invOf (by decide +kernel), by decide +kernel⟩

theorem meets_UndefinedResultsStop_6 : ufCh.Inv ∧
    5 < 1024 ∧
    ufCh.grants Requester.mgmt (pgDMA (5 / 256)) DMA_CHCFG.STAGE (5 % 256) = true ∧
    ufCh.pageSealed (pgDMA (5 / 256)) = false ∧
    ufCh.chState 5 ≠ 0 ∧
    ufCh.getF (pgDMA (5 / 256)) DMA_CHCFG.STAGE (5 % 256) ≠ (255 : Word).toNat % 512 ∧
    (255 : Word).toNat % 512 ≤ 256 :=
  ⟨invOf (by decide +kernel), by decide +kernel⟩

theorem meets_UndefinedResultsStop_7 : ufSh.Inv ∧
    0 < 64 ∧
    ufSh.cellarRun (cellarOf 0) = true ∧
    ufSh.ingressHead 0 1 = some ufShPk ∧
    ufShPk.place = Place.ingress ∧
    ufShPk.tlp.kind = TlpKind.mrd ∧
    ufShPk.route = Route.shared 2097152 ∧
    ufShPk.fab = none ∧
    ufShPk.bad = false ∧
    ufShPk.acc.getLastD 0 + 30 ≤ ufSh.fabric ∧
    ufSh.earlierPosted ufShPk.ini ufShPk.id = false ∧
    (ufSh.port 0).cleanup = false ∧
    ufSh.devFatal = false ∧
    ufSh.standby = false ∧
    ufSh.hdmPast ufShPk = false ∧
    ufSh.regionBase 1 + ufSh.regionSize 1 < 2097152 + max 1 ufShPk.tlp.len :=
  ⟨invOf (by decide +kernel), by decide +kernel⟩

theorem meets_UndefinedResultsStop_8 : onFabric.Inv ∧
    onFabric.isFfl 16 = true ∧
    onFabric.lkState 16 = 3 ∧
    badHdr ufH = true :=
  ⟨invOf (by decide +kernel), by decide +kernel⟩

end Undefined

end Sys2Proof.Tests
end

section
/-! ## What the fault collector does to FLT_CAUSE

The collector only sets FLT_CAUSE bits, and it sets that of every source that fired unmasked (R460, R461). -/

namespace Sys2Proof.Laws

open Sys2Proof.Machine

/-! ### Steps that clear no FLT_CAUSE bit -/

/-- Every FLT_CAUSE bit that is set in `s` is set in `t`. -/
structure CauseGrows (s t : State) : Prop where
  keeps : ∀ src, s.fltSet src = true → t.fltSet src = true

theorem CauseGrows.refl (s : State) : CauseGrows s s := ⟨fun _ h => h⟩

theorem CauseGrows.trans {a b c : State} (h : CauseGrows a b) (g : CauseGrows b c) : CauseGrows a c :=
  ⟨fun src hs => g.keeps src (h.keeps src hs)⟩

theorem CauseGrows.of_reg {s t : State} (h : ∀ k, t.reg k = s.reg k) : CauseGrows s t :=
  ⟨fun src hs => by simpa only [State.fltSet, State.getF, h] using hs⟩

theorem CauseGrows.onlyIf {s : State} {b : Bool} {f : State → State} (h : CauseGrows s (f s)) :
    CauseGrows s (s.onlyIf b f) := by
  cases b
  · exact .refl s
  · exact h

theorem CauseGrows.each {α : Type} (l : List α) {f : State → α → State} (hf : ∀ t, ∀ x ∈ l, CauseGrows t (f t x))
    (s : State) : CauseGrows s (s.each l f) := by
  induction l generalizing s with
  | nil => exact .refl s
  | cons x r ih =>
    exact (hf s x List.mem_cons_self).trans (ih (fun t y hy => hf t y (List.mem_cons_of_mem _ hy)) (f s x))

/-- A write of another register than FLT_CAUSE. -/
theorem causeGrows_setF (s : State) (pg : Nat) (f : FRef) (v i : Nat) (hp : f.off + f.stride * i < 4096)
    (hc : f.off + f.stride * i ≠ FLT_CAUSE.BITS.off) : CauseGrows s (s.setF pg f v i) := by
  refine ⟨fun src hs => ?_⟩
  have hne : State.fkey (src / 32) FLT_CAUSE.BITS 0 ≠ State.fkey pg f i := fun e => by
    have h1 := (fkey_page (src / 32) FLT_CAUSE.BITS 0 (by decide)).2
    rw [e, (fkey_page pg f i hp).2] at h1
    exact hc h1
  simpa only [State.fltSet, getF_setF_other _ _ _ _ _ _ _ _ (.inl hne)] using hs

theorem bitAt_bitSet (x b j : Nat) : bitAt (bitSet x b) j = (bitAt x j || decide (b = j)) := by
  simp only [bitAt, bitSet, Nat.testBit_or, Nat.one_shiftLeft, Nat.testBit_two_pow]

/-- Setting one FLT_CAUSE bit of a page. -/
theorem fltSet_setF_cause (s : State) (pg b src : Nat) :
    (s.setF pg FLT_CAUSE.BITS (bitSet (s.getF pg FLT_CAUSE.BITS) b)).fltSet src =
      (s.fltSet src || decide (src / 32 = pg ∧ b = src % 32)) := by
  unfold State.fltSet
  by_cases hpg : src / 32 = pg
  · have hb : src % 32 < 32 := Nat.mod_lt _ (by decide)
    have hbit : ∀ x, bitAt (x % 2 ^ (FLT_CAUSE.BITS.hi + 1 - FLT_CAUSE.BITS.lo)) (src % 32) = bitAt x (src % 32) := fun x => by
      simp only [bitAt, Nat.testBit_mod_two_pow, FLT_CAUSE.BITS, hb, decide_true, Bool.true_and]
    rw [hpg, getF_setF_self _ _ _ _ _ (by decide), hbit, bitAt_bitSet]
    simp
  · have hne : State.fkey (src / 32) FLT_CAUSE.BITS 0 ≠ State.fkey pg FLT_CAUSE.BITS 0 := fun e => hpg (by
      unfold State.fkey at e; omega)
    rw [getF_setF_other _ _ _ _ _ _ _ _ (.inl hne)]
    simp [hpg]

theorem causeGrows_setF_cause (s : State) (pg b : Nat) :
    CauseGrows s (s.setF pg FLT_CAUSE.BITS (bitSet (s.getF pg FLT_CAUSE.BITS) b)) :=
  ⟨fun src hs => by rw [fltSet_setF_cause, hs, Bool.true_or]⟩

theorem causeGrows_raiseInt (s : State) (pg b : Nat) : CauseGrows s (s.raiseInt pg b) := by
  have hset : CauseGrows s (s.setF pg INT_CAUSE.BITS (s.getF pg INT_CAUSE.BITS ||| b)) :=
    causeGrows_setF s _ _ _ _ (by decide) (by decide)
  unfold State.raiseInt State.withIntPend
  simp only
  split
  · exact hset.trans (.of_reg (reg_sendMsix _ _ _))
  split
  · exact hset.trans (.of_reg (reg_unpend _ _ _))
  · exact hset

theorem causeGrows_stopChannel (s : State) (ch : Nat) : CauseGrows s (s.stopChannel ch) := by
  have hch : ch % 32 < 32 := Nat.mod_lt _ (by decide)
  have hpend : CauseGrows s (s.setFlag (pgDMAC (ch / 256) (ch % 256)) DMA_STS.PENDING false (ch % 32)) :=
    causeGrows_setF s _ _ _ _ (by simp only [DMA_STS.PENDING]; omega) (by simp only [DMA_STS.PENDING, FLT_CAUSE.BITS]; omega)
  unfold State.stopChannel
  simp only
  split
  · exact hpend.trans (causeGrows_setF _ _ _ _ _ (by simp only [DMA_STS.STATE]; omega)
      (by simp only [DMA_STS.STATE, FLT_CAUSE.BITS]; omega))
  · exact hpend

theorem causeGrows_enterPartFatal (s : State) (k : Nat) : CauseGrows s (s.enterPartFatal k) :=
  (causeGrows_setF s _ _ _ _ (by decide) (by decide)).trans (.each _ (fun t ch _ => causeGrows_stopChannel t ch) _)

theorem causeGrows_enterDevFatal (s : State) : CauseGrows s s.enterDevFatal := by
  have hstop : CauseGrows s ((s.setFlag pgFLT FLT_STATE.DEV_FATAL true).each
      (s.setFlag pgFLT FLT_STATE.DEV_FATAL true).busyChannels fun t ch => t.stopChannel ch) :=
    (causeGrows_setF s _ _ _ _ (by decide) (by decide)).trans (.each _ (fun t ch _ => causeGrows_stopChannel t ch) _)
  exact hstop.trans (.of_reg (reg_mirFatal _))

theorem causeGrows_classAct (s : State) (a p e : Nat) : CauseGrows s (s.classAct a p e) := by
  have haer : ∀ n, CauseGrows s (if decide (a = pgFLT * 32 + 0) then s else s.sendAer p n) := fun n => by
    split
    · exact .refl s
    · exact .of_reg (reg_sendAer s p n)
  unfold State.classAct
  by_cases h0 : e = 0
  · rw [if_pos h0]; exact .refl s
  rw [if_neg h0]
  by_cases h1 : e = 1
  · rw [if_pos h1]; exact (haer 0).trans (causeGrows_raiseInt ..)
  rw [if_neg h1]
  by_cases h2 : e = 2
  · rw [if_pos h2]; exact (haer 1).trans (causeGrows_raiseInt ..)
  rw [if_neg h2]
  extract_lets ks fresh s1 s2
  have hfatal : CauseGrows s s2 :=
    ((CauseGrows.each ks (fun t k _ => (CauseGrows.of_reg (reg_sendAer t k 2)).trans (causeGrows_enterPartFatal _ k)) s).trans
      (causeGrows_raiseInt ..)).trans (.onlyIf (causeGrows_raiseInt ..))
  clear_value s2
  split
  · split
    · exact hfatal
    · exact hfatal.trans ((causeGrows_enterDevFatal _).trans (causeGrows_raiseInt ..))
  · exact hfatal

theorem causeGrows_setPin (s : State) (b : Bool) : CauseGrows s (s.setPin b) :=
  causeGrows_setF s _ _ _ _ (by decide) (by decide)

theorem causeGrows_pulse (s : State) (e : Nat) : CauseGrows s (s.pulse e) := by
  unfold State.pulse
  split
  · exact (causeGrows_setPin s true).trans (.of_reg fun _ => rfl)
  · exact .refl s

theorem causeGrows_evalPin (s : State) : CauseGrows s s.evalPin := by
  unfold State.evalPin
  split
  · exact causeGrows_setPin ..
  split
  · exact .refl s
  · exact causeGrows_setPin ..

theorem causeGrows_capFirst (s : State) (f : Firing) (e : Nat) (x : Bool) : CauseGrows s (s.capFirst f e x) := by
  have h : ∀ (t : State) (g : FRef) v, g.off + g.stride * 0 < 4096 → g.off + g.stride * 0 ≠ FLT_CAUSE.BITS.off →
      CauseGrows t (t.setF pgFLT g v) := fun t g v => causeGrows_setF t pgFLT g v 0
  unfold State.capFirst State.setFlag
  exact (((((((h _ _ _ (by decide) (by decide)).trans (h _ _ _ (by decide) (by decide))).trans
    (h _ _ _ (by decide) (by decide))).trans (h _ _ _ (by decide) (by decide))).trans
    (h _ _ _ (by decide) (by decide))).trans (h _ _ _ (by decide) (by decide))).trans
    (h _ _ _ (by decide) (by decide))).trans (h _ _ _ (by decide) (by decide))

/-! ### An entry sets its source's bit -/

/-- One entry of the cycle: no bit is cleared, and the bit of its source is set. -/
theorem cause_logFault (s : State) (f : Firing) (e : Nat) (x y z : Bool) (he : e < 16) :
    CauseGrows s (s.logFault f e x y z).1 ∧ (s.logFault f e x y z).1.fltSet f.src = true := by
  unfold State.logFault
  extract_lets prog full wr ent t0 flt0 s1 flt1 s2 s3 s4 s5 s6
  have h1 : CauseGrows s s1 := by
    unfold s1
    split
    · exact .refl s
    · exact (causeGrows_setF s _ _ _ _ (by decide) (by decide)).trans (.of_reg fun _ => rfl)
  have h2 : CauseGrows s1 s2 := .of_reg fun _ => rfl
  have h3 : CauseGrows s2 s3 := causeGrows_setF_cause ..
  have hset : s3.fltSet f.src = true := by
    rw [fltSet_setF_cause]; simp
  have h4 : CauseGrows s3 s4 :=
    causeGrows_setF s3 _ _ _ _ (by simp only [FLT_CNT.ENTRIES]; omega) (by simp only [FLT_CNT.ENTRIES, FLT_CAUSE.BITS]; omega)
  have h5 : CauseGrows s4 s5 := .onlyIf (causeGrows_raiseInt ..)
  have h6 : CauseGrows s3 s6 := (h4.trans h5).trans ((causeGrows_classAct ..).trans (causeGrows_pulse ..))
  exact ⟨((h1.trans h2).trans h3).trans h6, h6.keeps _ hset⟩

/-- Entries of one cycle: no bit is cleared, and the bit of each one's source is set. -/
theorem cause_logAll (l : List (Nat × Firing × Bool)) (s : State) (a d : Bool) (hl : ∀ x ∈ l, x.1 < 16) :
    CauseGrows s (s.logAll l a d).1 ∧ ∀ x ∈ l, (s.logAll l a d).1.fltSet x.2.1.src = true := by
  induction l generalizing s a d with
  | nil => exact ⟨.refl s, fun x hx => absurd hx List.not_mem_nil⟩
  | cons x r ih =>
    obtain ⟨eff, f, esc⟩ := x
    simp only [State.logAll]
    generalize hs1 : s.onlyIf _ _ = s1
    have h1 : CauseGrows s s1 := hs1 ▸ .onlyIf (causeGrows_capFirst ..)
    generalize hcap : (a && _) = cap
    obtain ⟨h2, hset⟩ := cause_logFault s1 f eff esc a cap (hl _ List.mem_cons_self)
    generalize s1.logFault f eff esc a cap = p at h2 hset ⊢
    have h3 : CauseGrows p.1 (p.1.onlyIf p.2 fun t => t.addF pgFLT FLT_FL_DROP.COUNT) :=
      .onlyIf (causeGrows_setF _ _ _ _ _ (by decide) (by decide))
    obtain ⟨h4, hrest⟩ := ih (p.1.onlyIf p.2 fun t => t.addF pgFLT FLT_FL_DROP.COUNT) false (d || p.2)
      (fun y hy => hl y (List.mem_cons_of_mem _ hy))
    refine ⟨h1.trans (h2.trans (h3.trans h4)), fun y hy => ?_⟩
    rcases List.mem_cons.1 hy with rfl | hy
    · exact h4.keeps _ (h3.keeps _ hset)
    · exact hrest y hy

theorem causeGrows_logDropFault (s : State) : CauseGrows s s.logDropFault := by
  have hact : ∀ e < 16, ∀ x : FltSt, CauseGrows s (((((({ s with flt := x } : State).setF pgFLT FLT_CAUSE.BITS
      (bitSet (({ s with flt := x } : State).getF pgFLT FLT_CAUSE.BITS) 2)).addF pgFLT FLT_CNT.ENTRIES 1 e).classAct
        (pgFLT * 32 + 2) 31 e).pulse e)) := fun e he x => by
    have h1 : CauseGrows s { s with flt := x } := .of_reg fun _ => rfl
    refine (((h1.trans (causeGrows_setF_cause _ pgFLT 2)).trans ?_).trans (causeGrows_classAct ..)).trans (causeGrows_pulse ..)
    exact causeGrows_setF _ _ _ _ _ (by simp only [FLT_CNT.ENTRIES]; omega)
      (by simp only [FLT_CNT.ENTRIES, FLT_CAUSE.BITS]; omega)
  have hlt := handling_lt s ⟨pgFLT * 32 + 2, 31, 63, true, false⟩
  unfold State.logDropFault
  simp only
  split
  · exact .refl s
  · exact .refl s
  · next e he => exact hact e ((hlt e).1 he) _
  · next e m he => exact hact e ((hlt e).2 m he) _

/-! ### Which firings make entries -/

/-- Merging loses no source (R462). -/
theorem exists_mem_mergeFirings {f : Firing} {l : List Firing} (h : f ∈ l) : ∃ g ∈ mergeFirings l, g.src = f.src := by
  induction l with
  | nil => exact absurd h List.not_mem_nil
  | cons x r ih =>
    simp only [mergeFirings]
    split
    · next hnone =>
      rcases List.mem_cons.1 h with rfl | h
      · exact ⟨f, List.mem_cons_self, rfl⟩
      · obtain ⟨g, hg, hs⟩ := ih h
        exact ⟨g, List.mem_cons_of_mem _ hg, hs⟩
    · next g hsome =>
      have hgx : g.src = x.src := by simpa using List.find?_some hsome
      by_cases hfx : f.src = x.src
      · refine ⟨_, List.mem_cons_self, ?_⟩
        rw [hfx]
        dsimp only
        split
        · rfl
        split
        · exact hgx
        split
        · exact hgx
        · rfl
      · rcases List.mem_cons.1 h with rfl | h
        · exact absurd rfl hfx
        · obtain ⟨g', hg', hs⟩ := ih h
          refine ⟨g', List.mem_cons_of_mem _ (List.mem_filter.2 ⟨hg', ?_⟩), hs⟩
          simpa [hs] using hfx

theorem mem_rankInsert_iff {x y : Nat × Firing} {l : List (Nat × Firing)} : y ∈ rankInsert x l ↔ y = x ∨ y ∈ l := by
  refine ⟨mem_rankInsert, ?_⟩
  induction l with
  | nil => simp [rankInsert]
  | cons z r ih =>
    simp only [rankInsert]
    split
    · exact List.mem_cons.2
    · rintro (h | h)
      · exact List.mem_cons_of_mem _ (ih (.inl h))
      · rcases List.mem_cons.1 h with rfl | h
        · exact List.mem_cons_self
        · exact List.mem_cons_of_mem _ (ih (.inr h))

theorem mem_rankSort_of_mem {y : Nat × Firing} {l : List (Nat × Firing)} (h : y ∈ l) : y ∈ rankSort l := by
  induction l with
  | nil => exact h
  | cons z r ih => exact mem_rankInsert_iff.2 ((List.mem_cons.1 h).imp_right ih)

/-- A firing that makes an entry takes its place in the ranking. -/
theorem exists_mem_ranked {s : State} {l : List (Nat × Firing)} {e : Nat} {f : Firing} (h : (e, f) ∈ l) :
    ∃ x ∈ s.ranked l, x.2.1 = f :=
  ⟨_, List.mem_map.2 ⟨(e, f), mem_rankSort_of_mem h, rfl⟩, rfl⟩

/-- Table 13.3: a firing that is not masked makes an entry, or its source's bit is set already. -/
theorem madeOf_or_fltSet {s : State} {f : Firing} {fs : List Firing} (hf : f ∈ fs) (hm : s.fltMasked f.src = false) :
    (∃ e, (e, f) ∈ s.madeOf fs) ∨ s.fltSet f.src = true := by
  have hmade : ∀ e, (s.handling f = .new e ∨ ∃ m, s.handling f = .escalated e m) → (e, f) ∈ s.madeOf fs := by
    rintro e (h | ⟨m, h⟩)
    · exact List.mem_filterMap.2 ⟨f, hf, by rw [h]⟩
    · exact List.mem_filterMap.2 ⟨f, hf, by rw [h]⟩
  cases hset : s.fltSet f.src with
  | true => exact .inr rfl
  | false => exact .inl ⟨s.sevOf f.src, hmade _ (.inl (by simp [State.handling, hm, hset]))⟩

/-- A source that fired and is not masked has its FLT_CAUSE bit when the cycle is over (R460, R461). -/
theorem settle_fltSet {s : State} {f : Firing} (hf : f ∈ s.firing) (hm : s.fltMasked f.src = false)
    (hdrop : f.src ≠ pgFLT * 32 + 2) : s.settle.fltSet f.src = true := by
  obtain ⟨x, r, hfs⟩ : ∃ x r, s.firing = x :: r := List.exists_cons_of_ne_nil (List.ne_nil_of_mem hf)
  obtain ⟨g, hg, hgf⟩ := exists_mem_mergeFirings (hfs ▸ hf)
  unfold State.settle
  rw [hfs]
  simp only
  refine (causeGrows_evalPin _).keeps _ ((CauseGrows.onlyIf (causeGrows_logDropFault _)).keeps _ ?_)
  rw [← hgf] at hm hdrop ⊢
  generalize mergeFirings (x :: r) = fs at hg ⊢
  generalize hs0 : ({ s with firing := [] } : State) = s0
  have hm0 : s0.fltMasked g.src = false := hs0 ▸ hm
  generalize hs1 : s0.each _ _ = s1
  have h01 : CauseGrows s0 s1 := hs1 ▸ .each _ (fun t f _ => .of_reg fun k => reg_logRepeat t f) _
  have key : ∀ l, (∀ z ∈ l, z.1 < 16) → (∀ e, (e, g) ∈ s0.madeOf fs → (e, g) ∈ l) →
      (s1.logAll (s0.ranked l) true false).1.fltSet g.src = true := by
    intro l hlt hsub
    obtain ⟨hgrow, hall⟩ := cause_logAll (s0.ranked l) s1 true false fun y hy => ranked_lt hlt hy
    rcases madeOf_or_fltSet hg hm0 with ⟨e, he⟩ | hset
    · obtain ⟨y, hy, hyg⟩ := exists_mem_ranked (s := s0) (hsub e he)
      exact hyg ▸ hall y hy
    · exact hgrow.keeps _ (h01.keeps _ hset)
  split
  · refine key _ (fun z hz => madeOf_lt (List.mem_filter.1 hz).1) fun e he => List.mem_filter.2 ⟨he, ?_⟩
    simpa [State.logDropOf] using hdrop
  · exact key _ (fun z hz => madeOf_lt hz) fun e he => he

end Sys2Proof.Laws
end

section
/-! ## What a swap of the timelines keeps

Between the slots' change and the Book record a swap touches packets, ports, queues and the registers of the Cellars, none of which the device-wide
schedule set holds (R163, R187). -/

namespace Sys2Proof.VintageSwap

open Sys2Proof Sys2Proof.Machine Sys2Proof.Laws

/-! ### Lists of changes -/

/-- What one element's change establishes and every other's keeps holds after all of them. -/
theorem each_establishes {α : Type} {P : State → Prop} {l : List α} {f : State → α → State} {x : α} (hx : x ∈ l)
    (hset : ∀ t, P (f t x)) (hkeep : ∀ t, ∀ y ∈ l, P t → P (f t y)) (s : State) : P (s.each l f) := by
  have hall : ∀ r : List α, (∀ y ∈ r, y ∈ l) → ∀ t, P t → P (t.each r f) := by
    intro r
    induction r with
    | nil => exact fun _ _ h => h
    | cons y r ih =>
      exact fun hr t h => ih (fun z hz => hr z (List.mem_cons_of_mem _ hz)) _ (hkeep t y (hr y List.mem_cons_self) h)
  obtain ⟨l₁, l₂, rfl⟩ := List.append_of_mem hx
  have happ : s.each (l₁ ++ x :: l₂) f = (f (s.each l₁ f) x).each l₂ f := by
    simp only [State.each, List.foldl_append, List.foldl_cons]
  rw [happ]
  exact hall l₂ (fun y hy => List.mem_append_right _ (List.mem_cons_of_mem _ hy)) _ (hset _)

/-! ### Registers that a swap of the timelines leaves alone -/

/-- A register of the device-wide schedule set (R184) other than its FLT_CAUSE. -/
def DevSchReg (k : Nat) : Prop := k / 4096 = pgDEVSCH ∧ k % 4096 ≠ FLT_CAUSE.BITS.off

/-- SCH_CYCLE or SCH_EPOCH of a Cellar. -/
def CycleReg (k : Nat) : Prop :=
  ∃ c < 4, k = State.fkey (pgSCH c) SCH_CYCLE.LEN 0 ∨ k = State.fkey (pgSCH c) SCH_EPOCH.E 0

/-- Nothing of the schedule control changes: its plain state, HBM, and the registers that the selection of a Vintage reads. -/
structure Keeps (s t : State) : Prop where
  sched : t.sched = s.sched
  hbm : t.hbm = s.hbm
  reg : ∀ k, DevSchReg k ∨ CycleReg k → t.reg k = s.reg k

theorem Keeps.refl (s : State) : Keeps s s := ⟨rfl, rfl, fun _ _ => rfl⟩

theorem Keeps.trans {a b c : State} (h : Keeps a b) (g : Keeps b c) : Keeps a c :=
  ⟨g.sched.trans h.sched, g.hbm.trans h.hbm, fun k hk => (g.reg k hk).trans (h.reg k hk)⟩

theorem Keeps.onlyIf {s : State} {b : Bool} {f : State → State} (h : Keeps s (f s)) : Keeps s (s.onlyIf b f) := by
  cases b
  · exact .refl s
  · exact h

theorem Keeps.each {α : Type} {l : List α} {f : State → α → State} (hf : ∀ t, ∀ x ∈ l, Keeps t (f t x)) (s : State) :
    Keeps s (s.each l f) := by
  induction l generalizing s with
  | nil => exact .refl s
  | cons x r ih => exact (hf s x List.mem_cons_self).trans (ih (fun t y hy => hf t y (List.mem_cons_of_mem _ hy)) _)

/-- A write of a register that is neither in the device-wide set nor SCH_CYCLE or SCH_EPOCH of a Cellar. -/
theorem keeps_setF (s : State) (pg : Nat) (f : FRef) (v i : Nat) (hoff : f.off + f.stride * i < 4096) (hpg : pg ≠ pgDEVSCH)
    (hcyc : ∀ c < 4, pg = pgSCH c → f.off + f.stride * i ≠ SCH_CYCLE.LEN.off ∧ f.off + f.stride * i ≠ SCH_EPOCH.E.off) :
    Keeps s (s.setF pg f v i) := by
  obtain ⟨hpage, hrest⟩ := fkey_page pg f i hoff
  refine ⟨rfl, rfl, fun k hk => ?_⟩
  rw [reg_setF, if_neg]
  rintro rfl
  rcases hk with ⟨hk, _⟩ | ⟨c, hc, hk | hk⟩
  · exact hpg (hpage.symm.trans hk)
  · obtain ⟨h1, h2⟩ := fkey_page (pgSCH c) SCH_CYCLE.LEN 0 (by decide)
    exact (hcyc c hc (by rw [← hpage, hk, h1])).1 (by rw [← hrest, hk, h2]; rfl)
  · obtain ⟨h1, h2⟩ := fkey_page (pgSCH c) SCH_EPOCH.E 0 (by decide)
    exact (hcyc c hc (by rw [← hpage, hk, h1])).2 (by rw [← hrest, hk, h2]; rfl)

/-- A write of another register of an SCH page. -/
theorem keeps_setF_sch (s : State) (c : Nat) (f : FRef) (v i : Nat) (hoff : f.off + f.stride * i < 4096)
    (hne : f.off + f.stride * i ≠ SCH_CYCLE.LEN.off ∧ f.off + f.stride * i ≠ SCH_EPOCH.E.off) :
    Keeps s (s.setF (pgSCH c) f v i) :=
  keeps_setF s _ f v i hoff (by simp only [pgSCH, celPage, pageIx, pgDEVSCH]; omega) fun _ _ _ => hne

/-- A write of a register of a page that is no SCH page. -/
theorem keeps_setF_page (s : State) (pg : Nat) (f : FRef) (v i : Nat) (hoff : f.off + f.stride * i < 4096)
    (hpg : pg ≠ pgDEVSCH ∧ pg % 256 ≠ 2) : Keeps s (s.setF pg f v i) :=
  keeps_setF s pg f v i hoff hpg.1 fun c _ h => absurd h (by
    rintro rfl; exact hpg.2 (by simp only [pgSCH, celPage, pageIx]; omega))

theorem keeps_modPacket (s : State) (id : Nat) (f : Packet → Packet) : Keeps s (s.modPacket id f) := ⟨rfl, rfl, fun _ _ => rfl⟩
theorem keeps_modPort (s : State) (p : Nat) (f : PortSt → PortSt) : Keeps s (s.modPort p f) := ⟨rfl, rfl, fun _ _ => rfl⟩
theorem keeps_modQueue (s : State) (q : Nat) (f : QueueSt → QueueSt) : Keeps s (s.modQueue q f) := ⟨rfl, rfl, fun _ _ => rfl⟩
theorem keeps_fire (s : State) (pg b k p : Nat) : Keeps s (s.fire pg b k p) := ⟨rfl, rfl, fun _ _ => rfl⟩

/-- The collector and the close of samples at the end of a cycle (R460). -/
theorem keeps_close (s : State) : Keeps s s.settle.sweepTrace := by
  refine ⟨settle_sched s, settle_hbm s, fun k hk => settle_reg ?_ s⟩
  rcases hk with ⟨hp, hc⟩ | ⟨c, hc, rfl | rfl⟩
  · exact ⟨by rw [hp]; decide, hc, by rw [hp]; decide⟩
  · interval_cases c <;> exact ⟨by decide, by decide, by decide⟩
  · interval_cases c <;> exact ⟨by decide, by decide, by decide⟩

/-! ### The event counters -/

theorem pgPMUC_apart (c : Nat) : pgPMUC c ≠ pgDEVSCH ∧ pgPMUC c % 256 ≠ 2 := by
  simp only [pgPMUC, celPage, pageIx, pgDEVSCH]; omega

theorem Keeps.of_kept {s t : State} (h : Kept s t) (hreg : ∀ k, t.reg k = s.reg k) : Keeps s t :=
  ⟨show (rest t).sched = (rest s).sched from congrArg _ h.1, show (rest t).hbm = (rest s).hbm from congrArg _ h.1,
    fun k _ => hreg k⟩

theorem keeps_raiseInt (s : State) (pg b : Nat) (hpg : pg ≠ pgDEVSCH ∧ pg % 256 ≠ 2) : Keeps s (s.raiseInt pg b) := by
  have hset : Keeps s (s.setF pg INT_CAUSE.BITS (s.getF pg INT_CAUSE.BITS ||| b)) := keeps_setF_page s pg _ _ _ (by decide) hpg
  unfold State.raiseInt State.withIntPend
  simp only
  split
  · exact hset.trans (.of_kept (kept_sendMsix ..) (reg_sendMsix _ _ _))
  split
  · exact hset.trans (.of_kept (kept_unpend ..) (reg_unpend _ _ _))
  · exact hset

theorem keeps_pmuOverflow (s : State) (c j : Nat) : Keeps s (s.pmuOverflow c j) :=
  (keeps_setF_page s _ _ _ _ (by decide) (pgPMUC_apart c)).trans (keeps_raiseInt _ _ _ (pgPMUC_apart c))

theorem keeps_pmuAdd (s : State) (c j n : Nat) (hj : j < 32) : Keeps s (s.pmuAdd c j n) := by
  have hset : ∀ (t : State) v, ∀ i < 33, Keeps t (t.setF (pgPMUC c) PMU_CTR.COUNT v i) := fun t v i hi =>
    keeps_setF_page t _ _ _ _ (by simp only [PMU_CTR.COUNT]; omega) (pgPMUC_apart c)
  unfold State.pmuAdd
  extract_lets v s1 w s2
  have h1 : Keeps s s1 := hset s _ j (by omega)
  have h2 : Keeps s1 s2 := hset s1 _ (j + 1) (by omega)
  split
  · exact h1
  split
  · split
    · exact h1.trans h2
    · exact (h1.trans h2).trans (keeps_pmuOverflow ..)
  · exact h1.trans (keeps_pmuOverflow ..)

theorem keeps_count (s : State) (c code port tc n : Nat) : Keeps s (s.count c code port tc n) := by
  unfold State.count
  split
  · exact .refl s
  · refine .each (fun t j hj => ?_) s
    extract_lets pf tm usesPort usesTc hitP hitT
    split
    · exact keeps_pmuAdd t c j n (List.mem_range.1 hj)
    · exact .refl t

/-! ### Packets, ports and queues -/

theorem keeps_markOut (s : State) (q : Nat) (p : Packet) (m : Mark) : Keeps s (s.markOut q p m) := by
  unfold State.markOut
  extract_lets c f s1
  have h1 : Keeps s s1 := (keeps_modPacket ..).trans (keeps_count ..)
  have hf : f = none ∨ ∃ g, f = some g ∧ g.off = 0x200 ∧ g.stride = 4 := by
    cases m with
    | late | excess | displaced | blocked => exact .inr ⟨_, rfl, rfl, rfl⟩
    | best | inWin => exact .inl rfl
  clear_value f s1
  obtain rfl | ⟨g, rfl, hoff, hstride⟩ := hf
  · exact .refl s
  · have hq : q % 128 < 128 := Nat.mod_lt _ (by decide)
    have hadd : Keeps s1 (s1.addF (pgSCH c) g 1 (q % 128)) :=
      keeps_setF_sch _ _ _ _ _ (by rw [hoff, hstride]; omega)
        (by simp only [hoff, hstride, SCH_CYCLE.LEN, SCH_EPOCH.E]; omega)
    exact (h1.trans hadd).trans (.onlyIf (keeps_fire ..))

/-- A write of a field that an SCH page holds once for each of its 16 ports. -/
theorem keeps_setF_port (s : State) (c p : Nat) (f : FRef) (v : Nat) (h : f.stride = 4 ∧ 0x100 ≤ f.off ∧ f.off < 0x200) :
    Keeps s (s.setF (pgSCH c) f v (State.localPort p)) := by
  obtain ⟨hstride, hlo, hhi⟩ := h
  have hp : State.localPort p < 16 := Nat.mod_lt _ (by decide)
  exact keeps_setF_sch s c f v _ (by rw [hstride]; omega) (by simp only [hstride, SCH_CYCLE.LEN, SCH_EPOCH.E]; omega)

theorem keeps_slipShown (s : State) (v : Nat) : Keeps s (s.slipShown v).2 := by
  unfold State.slipShown
  split
  · exact .refl s
  · exact ⟨rfl, rfl, fun _ _ => rfl⟩

theorem keeps_putSlip (s : State) (p v : Nat) : Keeps s (s.putSlip p v) := by
  have hshown := keeps_slipShown s v
  unfold State.putSlip
  generalize s.slipShown v = shown at hshown ⊢
  exact (hshown.trans (keeps_modPort ..)).trans (keeps_setF_port _ _ _ _ _ (by decide))

theorem keeps_setSlip (s : State) (p v : Nat) : Keeps s (s.setSlip p v) := by
  unfold State.setSlip
  exact (keeps_putSlip s p v).trans (keeps_setF_port _ _ p SCH_PORTSTS.PEAK _ (by decide))

theorem keeps_newlyActive (s : State) (q : Nat) : Keeps s (s.newlyActive q) := by
  have hq : qix q < 64 := Nat.mod_lt _ (by decide)
  have hpg : qpg q ≠ pgDEVSCH ∧ qpg q % 256 ≠ 2 := by
    simp only [qpg, pgQSH, celPage, pageIx, pgDEVSCH]; omega
  exact (keeps_setF_page s _ _ _ _ (by simp only [QSH_TOK.TOKENS]; omega) hpg).trans (keeps_modQueue ..)

theorem keeps_setBeOnly (s : State) (p : Nat) (b : Bool) : Keeps s (s.setBeOnly p b) :=
  keeps_setF_sch _ _ _ _ _ (by decide) (by decide)

theorem keeps_portMode (s : State) (p : Nat) (fresh : Bool) : Keeps s (s.portMode p fresh) := by
  unfold State.portMode
  extract_lets mism be was s1 s2
  have h1 : Keeps s s1 := keeps_setBeOnly ..
  have h2 : Keeps s1 s2 := .onlyIf ((keeps_modPort ..).trans (.onlyIf (keeps_fire ..)))
  refine (h1.trans h2).trans (.onlyIf ?_)
  exact (keeps_putSlip s2 p 0).trans (.each (fun t q _ => keeps_newlyActive t q) _)

theorem keeps_slipCapture (s : State) (p q t : Nat) (swap : Bool) : Keeps s (s.slipCapture p q t swap) := by
  have hset : ∀ (u : State) (f : FRef) v, f.off + f.stride * 0 < 4096 →
      f.off + f.stride * 0 ≠ SCH_CYCLE.LEN.off ∧ f.off + f.stride * 0 ≠ SCH_EPOCH.E.off →
        Keeps u (u.setF (pgSCH (cellarOf p)) f v) := fun u f v => keeps_setF_sch u _ f v 0
  unfold State.slipCapture State.setFlag
  extract_lets pg s1
  have h1 : Keeps s s1 := keeps_fire ..
  split
  · exact h1
  · exact ((((h1.trans (hset _ _ _ (by decide) (by decide))).trans (hset _ _ _ (by decide) (by decide))).trans
      (hset _ _ _ (by decide) (by decide))).trans (hset _ _ _ (by decide) (by decide))).trans
      (hset _ _ _ (by decide) (by decide))

theorem keeps_steal (s : State) (p q t : Nat) (swap : Bool) : Keeps s (s.steal p q t swap) := by
  unfold State.steal
  exact ((keeps_setSlip s p _).trans (keeps_setF_port _ _ p SCH_PORTSTS.STOLEN _ (by decide))).trans
    (.onlyIf (keeps_slipCapture ..))

theorem keeps_swapSteal (s : State) (p : Nat) : Keeps s (s.swapSteal p) := by
  unfold State.swapSteal
  extract_lets x listed s1
  have h1 : Keeps s s1 := keeps_modPort ..
  split
  · exact h1
  split
  · exact h1
  · exact h1.trans (.onlyIf (keeps_steal ..))

theorem keeps_bookAdd (s : State) (type : Nat) (body : List Byte) : Keeps s (s.bookAdd type body) := by
  unfold State.bookAdd
  split
  · exact ⟨rfl, rfl, fun _ _ => rfl⟩
  · have hset : ∀ (u : State) v, Keeps u (u.setF pgTRU TRU_BSEQ.NEXT v) := fun u v =>
      keeps_setF_page u _ _ _ _ (by decide) (by decide)
    have htrust : ∀ x : TrustSt, Keeps s { s with trust := x } := fun x => ⟨rfl, rfl, fun _ _ => rfl⟩
    exact (htrust _).trans (hset _ _)

/-! ### The registers that take the new Vintage's values -/

/-- The first registers that `swapRegs` writes in the SCH page of Cellar `c`: SCH_STS, SCH_VINTAGE, SCH_CYCLE and SCH_EPOCH. -/
def swapCycle (v : Vintage) (tick : Nat) (t : State) (c : Nat) : State :=
  (((t.setFlag (pgSCH c) SCH_STS.ACTIVE true).setF (pgSCH c) SCH_VINTAGE.NUMBER v.number).setF (pgSCH c) SCH_CYCLE.LEN v.cycle).setF
    (pgSCH c) SCH_EPOCH.E tick

/-- All that `swapRegs` writes in the SCH page of Cellar `c`. -/
def swapCellar (v : Vintage) (tick : Nat) (t : State) (c : Nat) : State :=
  let pg := pgSCH c
  let t2 := (swapCycle v tick t c).each (List.range 16) fun u p => u.setF pg SCH_PORTCFG.FPER_PLAN (planOf v (16 * c + p)) p
  t2.each (List.range 128) fun u q =>
    let d := storeGet (fun _ => StreamDesc.off) v.streams (128 * c + q)
    let u1 := ((u.setFlag pg SCH_STRM_A.SCHED d.sched q).setF pg SCH_STRM_A.ING_PORT d.ing q).setF pg SCH_STRM_A.OFFSET d.offset q
    (u1.setF pg SCH_STRM_B.CELLS d.cells q).setF pg SCH_STRM_B.PMAX d.pmax q

theorem swapRegs_eq (s : State) (v : Vintage) (tick : Nat) : s.swapRegs v tick = s.each (List.range 4) (swapCellar v tick) := rfl

/-- After SCH_EPOCH only plans and streams are written. -/
theorem keeps_swapCellar (v : Vintage) (tick : Nat) (t : State) (c : Nat) :
    Keeps (swapCycle v tick t c) (swapCellar v tick t c) := by
  have hplan : ∀ (u : State), ∀ p ∈ List.range 16, Keeps u (u.setF (pgSCH c) SCH_PORTCFG.FPER_PLAN (planOf v (16 * c + p)) p) :=
    fun u p hp => keeps_setF_sch u c _ _ _ (by have := List.mem_range.1 hp; simp only [SCH_PORTCFG.FPER_PLAN]; omega)
      (by simp only [SCH_PORTCFG.FPER_PLAN, SCH_CYCLE.LEN, SCH_EPOCH.E]; omega)
  have hstrm : ∀ (u : State) (f : FRef) w, ∀ q ∈ List.range 128, f.stride = 8 ∧ 0x400 ≤ f.off ∧ f.off < 0x408 →
      Keeps u (u.setF (pgSCH c) f w q) := fun u f w q hq hf =>
    keeps_setF_sch u c f w q (by have := List.mem_range.1 hq; rw [hf.1]; omega)
      (by simp only [hf.1, SCH_CYCLE.LEN, SCH_EPOCH.E]; omega)
  refine (Keeps.each hplan _).trans (.each (fun u q hq => ?_) _)
  exact ((((hstrm u SCH_STRM_A.SCHED _ q hq (by decide)).trans (hstrm _ _ _ q hq (by decide))).trans
    (hstrm _ _ _ q hq (by decide))).trans (hstrm _ _ _ q hq (by decide))).trans (hstrm _ _ _ q hq (by decide))

/-! ### The device-wide schedule set and the cycle of a Cellar -/

/-- No register of the device-wide schedule set changes but its FLT_CAUSE. -/
def SameDevSch (s t : State) : Prop := ∀ k, DevSchReg k → t.reg k = s.reg k

theorem SameDevSch.trans {a b c : State} (h : SameDevSch a b) (g : SameDevSch b c) : SameDevSch a c :=
  fun k hk => (g k hk).trans (h k hk)

theorem Keeps.sameDevSch {s t : State} (h : Keeps s t) : SameDevSch s t := fun k hk => h.reg k (.inl hk)

theorem SameDevSch.each {α : Type} {l : List α} {f : State → α → State} (hf : ∀ t x, SameDevSch t (f t x)) (s : State) :
    SameDevSch s (s.each l f) := fun k hk => reg_each l (fun t x _ => hf t x k hk) s

/-- SCH_CYCLE and SCH_EPOCH of Cellar `c` are those of a Vintage whose swap tick is `tick`. -/
def CycleOf (v : Vintage) (tick c : Nat) (t : State) : Prop :=
  t.getF (pgSCH c) SCH_CYCLE.LEN = v.cycle % 2 ^ 21 ∧ t.getF (pgSCH c) SCH_EPOCH.E = tick % 2 ^ 64

theorem Keeps.cycleOf {s t : State} (h : Keeps s t) {v : Vintage} {tick c : Nat} (hc : c < 4) (hs : CycleOf v tick c s) :
    CycleOf v tick c t := by
  unfold CycleOf State.getF
  rw [h.reg _ (.inr ⟨c, hc, .inl rfl⟩), h.reg _ (.inr ⟨c, hc, .inr rfl⟩)]
  exact hs

/-! ### The SCH pages take the new Vintage -/

theorem pgSCH_inj {c d : Nat} (h : pgSCH c = pgSCH d) : c = d := by
  simp only [pgSCH, celPage, pageIx] at h; omega

theorem pgSCH_ne_pgDEVSCH (c : Nat) : pgSCH c ≠ pgDEVSCH := by
  simp only [pgSCH, celPage, pageIx, pgDEVSCH]; omega

theorem cycleOf_swapCycle (v : Vintage) (tick : Nat) (t : State) (c : Nat) : CycleOf v tick c (swapCycle v tick t c) := by
  unfold swapCycle
  constructor
  · rw [getF_setF_other _ _ _ _ _ _ _ _ (.inl (by simp only [State.fkey, SCH_CYCLE.LEN, SCH_EPOCH.E]; omega)),
      getF_setF_self _ _ _ _ _ (by decide)]
    rfl
  · rw [getF_setF_self _ _ _ _ _ (by decide)]
    rfl

/-- The write of another page leaves a register alone. -/
theorem reg_setF_page (s : State) (pg : Nat) (f : FRef) (v i k : Nat) (hoff : f.off + f.stride * i < 4096) (hk : k / 4096 ≠ pg) :
    (s.setF pg f v i).reg k = s.reg k := by
  rw [reg_setF, if_neg]
  rintro rfl
  exact hk (fkey_page pg f i hoff).1

theorem reg_swapCycle (v : Vintage) (tick : Nat) (t : State) (c k : Nat) (hk : k / 4096 ≠ pgSCH c) :
    (swapCycle v tick t c).reg k = t.reg k := by
  unfold swapCycle State.setFlag
  repeat rw [reg_setF_page _ _ _ _ _ _ (by decide) hk]

theorem cycleOf_swapCycle_other {v : Vintage} {tick c d : Nat} {t : State} (hcd : d ≠ c) (h : CycleOf v tick c t) :
    CycleOf v tick c (swapCycle v tick t d) := by
  have hpg : ∀ f : FRef, f.off + f.stride * 0 < 4096 → State.fkey (pgSCH c) f 0 / 4096 ≠ pgSCH d := fun f hf e =>
    hcd (pgSCH_inj ((fkey_page _ f 0 hf).1.symm.trans e)).symm
  unfold CycleOf State.getF
  rw [reg_swapCycle _ _ _ _ _ (hpg _ (by decide)), reg_swapCycle _ _ _ _ _ (hpg _ (by decide))]
  exact h

theorem cycleOf_swapRegs (s : State) (v : Vintage) (tick c : Nat) (hc : c < 4) : CycleOf v tick c (s.swapRegs v tick) := by
  have hset : ∀ t, CycleOf v tick c (swapCellar v tick t c) := fun t =>
    (keeps_swapCellar v tick t c).cycleOf hc (cycleOf_swapCycle v tick t c)
  rw [swapRegs_eq]
  refine each_establishes (List.mem_range.2 hc) hset (fun t d _ ht => ?_) s
  by_cases hcd : d = c
  · subst hcd
    exact hset t
  · exact (keeps_swapCellar v tick t d).cycleOf hc (cycleOf_swapCycle_other hcd ht)

theorem sameDevSch_swapRegs (s : State) (v : Vintage) (tick : Nat) : SameDevSch s (s.swapRegs v tick) := by
  rw [swapRegs_eq]
  refine SameDevSch.each (fun t c => SameDevSch.trans (fun k hk => ?_) (keeps_swapCellar v tick t c).sameDevSch) s
  exact reg_swapCycle v tick t c k (by rw [hk.1]; exact (pgSCH_ne_pgDEVSCH c).symm)

theorem onlyRegs_sched {s t : State} (h : s.OnlyRegs t) : t.sched = s.sched :=
  show ({ t with regs := s.regs, latches := s.latches } : State).sched = s.sched from congrArg _ h
theorem onlyRegs_hbm {s t : State} (h : s.OnlyRegs t) : t.hbm = s.hbm :=
  show ({ t with regs := s.regs, latches := s.latches } : State).hbm = s.hbm from congrArg _ h

theorem onlyRegs_swapCycle (v : Vintage) (tick : Nat) (t : State) (c : Nat) : t.OnlyRegs (swapCycle v tick t c) :=
  OnlyRegs.trans (OnlyRegs.trans (OnlyRegs.trans (onlyRegs_setF ..) (onlyRegs_setF ..)) (onlyRegs_setF ..)) (onlyRegs_setF ..)

theorem onlyRegs_swapRegs (s : State) (v : Vintage) (tick : Nat) : s.OnlyRegs (s.swapRegs v tick) := by
  have hstrm : ∀ (u : State) pg (d : StreamDesc) q, u.OnlyRegs
      (((((u.setFlag pg SCH_STRM_A.SCHED d.sched q).setF pg SCH_STRM_A.ING_PORT d.ing q).setF pg SCH_STRM_A.OFFSET d.offset q).setF
        pg SCH_STRM_B.CELLS d.cells q).setF pg SCH_STRM_B.PMAX d.pmax q) := fun u pg d q =>
    OnlyRegs.trans (OnlyRegs.trans (OnlyRegs.trans (OnlyRegs.trans (onlyRegs_setF ..) (onlyRegs_setF ..)) (onlyRegs_setF ..))
      (onlyRegs_setF ..)) (onlyRegs_setF ..)
  rw [swapRegs_eq]
  refine onlyRegs_each _ (fun t c => OnlyRegs.trans (onlyRegs_swapCycle v tick t c) ?_) s
  exact OnlyRegs.trans (onlyRegs_each _ (fun u p => onlyRegs_setF ..) _) (onlyRegs_each _ (fun u q => hstrm u _ _ q) _)

/-! ### The swap -/

/-- `t` follows `s` by a swap of the timelines to `v` at `tick`. -/
structure Swapped (s t : State) (v : Vintage) (tick : Nat) : Prop where
  sched : t.sched = { s.sched with active := some v, epoch := tick, accWin := [] }
  hbm : t.hbm = s.hbm
  devSch : SameDevSch s t
  cycle : ∀ c < 4, CycleOf v tick c t

theorem Swapped.keeps {s t u : State} {v : Vintage} {tick : Nat} (h : Swapped s t v tick) (k : Keeps t u) : Swapped s u v tick :=
  ⟨k.sched.trans h.sched, k.hbm.trans h.hbm, h.devSch.trans k.sameDevSch, fun c hc => k.cycleOf hc (h.cycle c hc)⟩

/-- R163, R187. -/
theorem swapped_swapTo (s : State) (v : Vintage) (tick : Nat) : Swapped s (s.swapTo v tick) v tick := by
  unfold State.swapTo
  extract_lets wasBe inCon s1 sched1 s2 s3 s4
  have h1 : Keeps s s1 := .each (fun t k _ => keeps_markOut t _ k _) s
  have h3 : Swapped s s3 v tick := by
    have hr : s2.OnlyRegs s3 := onlyRegs_swapRegs s2 v tick
    have hs2 : s2.sched = { s1.sched with active := some v, epoch := tick, accWin := [] } := rfl
    refine ⟨by rw [onlyRegs_sched hr, hs2, h1.sched], (onlyRegs_hbm hr).trans h1.hbm, ?_, cycleOf_swapRegs s2 v tick⟩
    exact SameDevSch.trans h1.sameDevSch (SameDevSch.trans (fun _ _ => rfl) (sameDevSch_swapRegs s2 v tick))
  have h4 : Keeps s3 s4 := by
    refine .each (fun t p _ => ?_) s3
    exact ((keeps_putSlip t p 0).trans (keeps_portMode _ p false)).trans (keeps_swapSteal _ p)
  exact (h3.keeps h4).keeps (.each (fun t q _ => keeps_newlyActive t q) s4)

/-- Capacity events wait for the tick's end while a Vintage is active (R194, log 45). -/
theorem capacity_of_active {s : State} {v : Vintage} (h : s.sched.active = some v) (evs : List (Nat × Nat)) :
    s.capacity evs = { s with sched := { s.sched with events := s.sched.events ++ evs } } := by
  simp [State.capacity, h]

/-- A swap with its Book record and its capacity events, to the end of its cycle. -/
theorem swap_done (s : State) (v : Vintage) (tick n prev at₀ cause cls : Nat) (evs : List (Nat × Nat)) :
    ∃ t, (((s.swapTo v tick).bookSwap n prev at₀ cause cls).capacity evs).done = .next t ∧
      t.sched = { s.sched with active := some v, epoch := tick, accWin := [], events := s.sched.events ++ evs } ∧
      t.hbm = s.hbm ∧ SameDevSch s t ∧ ∀ c < 4, CycleOf v tick c t := by
  have hbook : Swapped s ((s.swapTo v tick).bookSwap n prev at₀ cause cls) v tick :=
    (swapped_swapTo s v tick).keeps (keeps_bookAdd ..)
  generalize (s.swapTo v tick).bookSwap n prev at₀ cause cls = u at hbook ⊢
  rw [capacity_of_active (v := v) (by rw [hbook.sched])]
  have hclose := keeps_close ({ u with sched := { u.sched with events := u.sched.events ++ evs } } : State)
  refine ⟨_, rfl, ?_, hclose.hbm.trans hbook.hbm, hbook.devSch.trans hclose.sameDevSch, fun c hc => hclose.cycleOf hc (hbook.cycle c hc)⟩
  rw [hclose.sched, hbook.sched]

/-! ### Slots of the image store -/

theorem devSchReg_fkey (f : FRef) (i : Nat) (h : f.off + f.stride * i < 4096 ∧ f.off + f.stride * i ≠ FLT_CAUSE.BITS.off) :
    DevSchReg (State.fkey pgDEVSCH f i) := by
  obtain ⟨hp, ho⟩ := fkey_page pgDEVSCH f i h.1
  exact ⟨hp, ho ▸ h.2⟩

theorem SameDevSch.getF {s t : State} (h : SameDevSch s t) (f : FRef)
    (hf : f.off + f.stride * 0 < 4096 ∧ f.off + f.stride * 0 ≠ FLT_CAUSE.BITS.off) : t.getF pgDEVSCH f = s.getF pgDEVSCH f := by
  unfold State.getF; rw [h _ (devSchReg_fkey f 0 hf)]

theorem SameDevSch.slotState {s t : State} (h : SameDevSch s t) (i : Nat) : t.slotState i = s.slotState i := by
  unfold State.slotState State.getP; rw [h _ (devSchReg_fkey _ 0 (by decide))]

theorem SameDevSch.homeSlot {s t : State} (h : SameDevSch s t) : t.homeSlot = s.homeSlot := by
  unfold State.homeSlot State.flag; rw [h.getF _ (by decide), h.getF _ (by decide)]

theorem slotState_setF (s : State) (f : FRef) (v j : Nat) (h : f.off + f.stride * 0 ≠ SCH_SLOTSTS.STATE.off) :
    (s.setF pgDEVSCH f v).slotState j = s.slotState j := by
  unfold State.slotState State.getP
  rw [reg_setF, if_neg]
  intro e
  simp only [State.fkey, SCH_SLOTSTS.STATE] at e h; omega

theorem slotState_setSlot (s : State) {i : Nat} (x j : Nat) (hi : i < 8) :
    (s.setSlot i x).slotState j = if j = i then x % 8 else s.slotState j := by
  unfold State.setSlot State.slotState State.setP State.getP
  rw [reg_setReg, if_pos rfl]
  split
  · next h =>
    rw [h, bitsOf_bitsPut_self _ _ (by simp only [SCH_SLOTSTS.STATE]; omega)]
    have hw : SCH_SLOTSTS.STATE.hi + 4 * i + 1 - (SCH_SLOTSTS.STATE.lo + 4 * i) = 3 := by simp only [SCH_SLOTSTS.STATE]; omega
    rw [hw]; rfl
  · rw [bitsOf_bitsPut_other _ _ (by simp only [SCH_SLOTSTS.STATE]; omega)]

theorem getF_setSlot (s : State) (i x : Nat) (pg : Nat) (f : FRef) (h : State.fkey pg f 0 ≠ State.fkey pgDEVSCH SCH_SLOTSTS.STATE 0) :
    (s.setSlot i x).getF pg f = s.getF pg f := by
  unfold State.setSlot State.setP State.getF
  rw [reg_setReg, if_neg h]

/-- Making each slot of a list READY. -/
theorem slotState_readyAll (l : List Nat) (s : State) (j : Nat) (hl : ∀ i ∈ l, i < 8) :
    (s.each l fun t i => t.setSlot i 2).slotState j = if j ∈ l then 2 else s.slotState j := by
  induction l generalizing s with
  | nil => rfl
  | cons i r ih =>
    have hcons : s.each (i :: r) (fun t i => t.setSlot i 2) = (s.setSlot i 2).each r fun t i => t.setSlot i 2 := rfl
    rw [hcons, ih _ fun y hy => hl y (List.mem_cons_of_mem _ hy), slotState_setSlot _ _ _ (hl i List.mem_cons_self)]
    by_cases hj : j = i <;> simp [hj]

theorem onlyRegs_readyAll (l : List Nat) (s : State) : s.OnlyRegs (s.each l fun t i => t.setSlot i 2) :=
  onlyRegs_each l (f := fun t i => t.setSlot i 2) (fun t _ => onlyRegs_setReg t _ _) s

theorem homeSlot_setHome (s : State) (i : Nat) (hi : i < 8) :
    ((s.setFlag pgDEVSCH SCH_HOME.VALID true).setF pgDEVSCH SCH_HOME.SLOT i).homeSlot = some i := by
  unfold State.homeSlot State.flag
  rw [getF_setF_other _ _ _ _ _ _ _ _ (.inr (.inl (by decide))), State.setFlag, getF_setF_self _ _ _ _ _ (by decide),
    getF_setF_self _ _ _ _ _ (by decide)]
  have : i % 2 ^ (SCH_HOME.SLOT.hi + 1 - SCH_HOME.SLOT.lo) = i := Nat.mod_eq_of_lt (by simpa [SCH_HOME.SLOT] using hi)
  rw [this, if_pos (by decide)]

/-! ### ARM_PAIR_CHECK and an abandoned swap (R190, R191) -/

theorem pairAgrees_iff {s : State} {a : ArmOp} {v : Vintage} (himg : s.slotImg a.slot = some v) :
    s.pairAgrees a = true ↔ ∃ u, s.mir.armReport = some (a.tick, v.number, u) ∧ u + 20000 ≤ a.tick := by
  unfold State.pairAgrees
  split
  · next hnone => simp [hnone]
  · next tick number u hsome =>
    simp only [hsome, himg, Option.map_some, Bool.and_eq_true, beq_iff_eq, decide_eq_true_eq, Option.some.injEq, Prod.mk.injEq]
    constructor
    · rintro ⟨⟨htick, hnum⟩, hu⟩
      exact ⟨u, ⟨htick, hnum, rfl⟩, hu⟩
    · rintro ⟨_, ⟨htick, hnum, rfl⟩, hu⟩
      exact ⟨⟨htick, hnum⟩, hu⟩

/-- The registers an abandoned swap writes, before SCH_ARM_ABORT fires. -/
def abortRegs (s : State) (a : ArmOp) (code : Nat) (atSwap : Bool) : State :=
  (((({ s with sched := { s.sched with arm := none } } : State).setSlot a.slot 2).setF pgDEVSCH SCH_IMG_RES.RESULT code).setF pgDEVSCH
    SCH_IMG_RES.SLOT a.slot).onlyIf atSwap fun t => t.setF pgDEVSCH SCH_IMG_RES.CMD 0xF

theorem armAbort_eq (s : State) (a : ArmOp) (code : Nat) (atSwap : Bool) :
    s.armAbort a code atSwap = (abortRegs s a code atSwap).schFire 6 := rfl

/-- A register that is not in the device-wide set is as before. -/
theorem reg_abortRegs (s : State) (a : ArmOp) (code : Nat) (atSwap : Bool) (k : Nat) (hk : k / 4096 ≠ pgDEVSCH) :
    (abortRegs s a code atSwap).reg k = s.reg k := by
  unfold abortRegs
  rw [reg_onlyIf (reg_setF_page _ _ _ _ _ _ (by decide) hk), reg_setF_page _ _ _ _ _ _ (by decide) hk,
    reg_setF_page _ _ _ _ _ _ (by decide) hk]
  unfold State.setSlot State.setP
  rw [reg_setReg, if_neg]
  · rfl
  · rintro rfl; exact hk (by decide)

/-- The slot is READY, RESULT holds the code and, at the swap tick, CMD reads 0xF. -/
theorem abortRegs_fields (s : State) (a : ArmOp) (code : Nat) (atSwap : Bool) (ha : a.slot < 8) (hcode : code < 256) :
    (abortRegs s a code atSwap).slotState a.slot = 2 ∧ (abortRegs s a code atSwap).getF pgDEVSCH SCH_IMG_RES.RESULT = code ∧
      (atSwap = true → (abortRegs s a code atSwap).getF pgDEVSCH SCH_IMG_RES.CMD = 0xF) := by
  have hslot : ∀ t : State, (((t.setSlot a.slot 2).setF pgDEVSCH SCH_IMG_RES.RESULT code).setF pgDEVSCH
      SCH_IMG_RES.SLOT a.slot).slotState a.slot = 2 := fun t => by
    rw [slotState_setF _ _ _ _ (by decide), slotState_setF _ _ _ _ (by decide), slotState_setSlot _ _ _ ha, if_pos rfl]
  have hres : ∀ t : State, ((t.setF pgDEVSCH SCH_IMG_RES.RESULT code).setF pgDEVSCH
      SCH_IMG_RES.SLOT a.slot).getF pgDEVSCH SCH_IMG_RES.RESULT = code := fun t => by
    rw [getF_setF_other _ _ _ _ _ _ _ _ (.inr (.inr (by decide))), getF_setF_self _ _ _ _ _ (by decide)]
    exact Nat.mod_eq_of_lt hcode
  unfold abortRegs
  cases atSwap
  · exact ⟨hslot _, hres _, fun h => absurd h (by decide)⟩
  · refine ⟨(slotState_setF _ _ _ _ (by decide)).trans (hslot _), ?_, fun _ => getF_setF_self _ _ _ _ _ (by decide)⟩
    exact (getF_setF_other _ _ _ _ _ _ _ _ (.inr (.inr (by decide)))).trans (hres _)

/-- Firing in the SCH page of every Cellar in RUN changes nothing else. -/
theorem schFire_eq (s : State) (bit : Nat) : s.schFire bit = { s with firing := s.firing ++
    (((List.range 4).filter fun c => s.cellarRun c).map fun c => ⟨pgSCH c * 32 + bit, 31, 63, true, false⟩) } := by
  unfold State.schFire
  generalize (List.range 4).filter (fun c => s.cellarRun c) = l
  induction l generalizing s with
  | nil => simp [State.each]
  | cons c r ih =>
    have hcons : s.each (c :: r) (fun t c => t.fire (pgSCH c) bit) = (s.fire (pgSCH c) bit).each r fun t c => t.fire (pgSCH c) bit := rfl
    rw [hcons, ih]
    simp [State.fire]

theorem keeps_schFire (s : State) (bit : Nat) : Keeps s (s.schFire bit) := by
  rw [schFire_eq]; exact ⟨rfl, rfl, fun _ _ => rfl⟩

/-- An abandoned ARM, to the end of its cycle. -/
theorem armAbort_done (s : State) (a : ArmOp) (code : Nat) (atSwap : Bool) (ha : a.slot < 8) (hcode : code < 256) :
    ∃ t, (s.armAbort a code atSwap).done = .next t ∧ t.sched = { s.sched with arm := none } ∧ t.slotState a.slot = 2 ∧
      t.getF pgDEVSCH SCH_IMG_RES.RESULT = code ∧ (atSwap = true → t.getF pgDEVSCH SCH_IMG_RES.CMD = 0xF) ∧
      ∀ c < 4, s.cellarRun c = true → s.fltMasked (pgSCH c * 32 + 6) = false → t.fltSet (pgSCH c * 32 + 6) = true := by
  obtain ⟨hslot, hres, hcmd⟩ := abortRegs_fields s a code atSwap ha hcode
  have hreg := reg_abortRegs s a code atSwap
  have hsched : (abortRegs s a code atSwap).sched = { s.sched with arm := none } := by
    unfold abortRegs; cases atSwap <;> rfl
  rw [armAbort_eq]
  generalize abortRegs s a code atSwap = u at hslot hres hcmd hreg hsched ⊢
  have hkeep : Keeps u (u.schFire 6).settle.sweepTrace := (keeps_schFire u 6).trans (keeps_close _)
  have hsame := hkeep.sameDevSch
  refine ⟨_, rfl, hkeep.sched.trans hsched, (hsame.slotState _).trans hslot, (hsame.getF _ (by decide)).trans hres,
    fun h => (hsame.getF _ (by decide)).trans (hcmd h), fun c hc hrun hmask => ?_⟩
  have hrun' : u.cellarRun c = true := by
    unfold State.cellarRun State.cellarState at hrun ⊢
    rw [hreg _ (by decide)]; exact hrun
  have hmask' : u.fltMasked (pgSCH c * 32 + 6) = false := by
    unfold State.fltMasked State.getF at hmask ⊢
    rw [hreg _ ?_]; exact hmask
    rw [(fkey_page _ FLT_MASK.BITS 0 (by decide)).1]
    interval_cases c <;> decide
  show (u.schFire 6).settle.fltSet (pgSCH c * 32 + 6) = true
  rw [schFire_eq]
  refine settle_fltSet (f := ⟨pgSCH c * 32 + 6, 31, 63, true, false⟩) ?_ hmask' (by interval_cases c <;> decide)
  refine List.mem_append_right _ (List.mem_map.2 ⟨c, List.mem_filter.2 ⟨List.mem_range.2 hc, hrun'⟩, rfl⟩)

/-! ### What each command does in the cases of the obligation -/

theorem exec_armPairCheck_due {s : State} {a : ArmOp} (harm : s.sched.arm = some a) (hpair : a.pair = true)
    (hchk : a.checked = false) (hdue : a.tick ≤ s.fabric + 20000) : exec .armPairCheck s =
      if s.pairAgrees a then ({ s with sched := { s.sched with arm := some { a with checked := true } } } : State).done
      else (s.armAbort a 0x20 false).done := by
  show execArmPairCheck s = _
  have : ¬ s.fabric + 20000 < a.tick := by omega
  simp [execArmPairCheck, harm, hpair, hchk, this]

theorem exec_armedSwap_due {s : State} {a : ArmOp} {v : Vintage} (harm : s.sched.arm = some a) (hfat : s.devFatal = false)
    (hdue : a.tick ≤ s.fabric) (himg : s.slotImg a.slot = some v)
    (hpair : a.pair = true → a.checked = true ∨ s.pairAgrees a = true) :
    (((List.range 4).any fun c => givesTo v c && !s.cellarRun c) = true → exec .armedSwap s = (s.armAbort a 0x21 true).done) ∧
    (((List.range 4).any fun c => givesTo v c && !s.cellarRun c) = false → s.imageBad v = none →
      exec .armedSwap s = (s.armedSwap a v).done) := by
  show (_ → execArmedSwap s = _) ∧ (_ → _ → execArmedSwap s = _)
  have hdue' : ¬ s.fabric < a.tick := by omega
  have hagree : (a.pair && !a.checked && !s.pairAgrees a) = false := by
    cases hp : a.pair with
    | false => rfl
    | true => rcases hpair hp with h | h <;> simp [h]
  constructor
  · intro hcel
    simp [execArmedSwap, harm, hfat, hdue', himg, hagree, hcel]
  · intro hcel hbad
    simp [execArmedSwap, harm, hfat, hdue', himg, hagree, hcel, hbad]

theorem exec_fallbackSwap_due {s : State} {f : FbOp} {v : Vintage} (hfb : s.sched.fb = some f) (hfat : s.devFatal = false)
    (hdue : f.tick ≤ s.fabric) (himg : s.slotImg f.slot = some v) (hbad : s.imageBad v = none) :
    exec .fallbackSwap s = (s.fallbackSwap f v).done := by
  show execFallbackSwap s = _
  have hdue' : ¬ s.fabric < f.tick := by omega
  simp [execFallbackSwap, hfb, hfat, hdue', himg, hbad]

/-- The slots and SCH_HOME that an armed swap sets before the timelines change (R189). -/
def armedSlots (s : State) (a : ArmOp) : State :=
  (((s.each ((List.range 8).filter fun i => s.slotState i == 5 || s.slotState i == 6) fun t i => t.setSlot i 2).setSlot a.slot
    5).setFlag pgDEVSCH SCH_HOME.VALID true).setF pgDEVSCH SCH_HOME.SLOT a.slot

theorem armedSwap_eq (s : State) (a : ArmOp) (v : Vintage) : s.armedSwap a v =
    (((({ armedSlots s a with sched := { (armedSlots s a).sched with arm := none } } : State).swapTo v a.tick).bookSwap v.number
      s.activeNumber a.tick 0 0xFF).capacity [(8, 0x3F)]) := rfl

theorem armedSlots_onlyRegs (s : State) (a : ArmOp) : s.OnlyRegs (armedSlots s a) :=
  OnlyRegs.trans (OnlyRegs.trans (OnlyRegs.trans (onlyRegs_readyAll _ s) (onlyRegs_setReg ..)) (onlyRegs_setF ..)) (onlyRegs_setF ..)

theorem armedSlots_slotState (s : State) (a : ArmOp) (ha : a.slot < 8) (j : Nat) : (armedSlots s a).slotState j =
    if j = a.slot then 5 else if j < 8 ∧ s.slotState j ∈ [5, 6] then 2 else s.slotState j := by
  unfold armedSlots State.setFlag
  rw [slotState_setF _ _ _ _ (by decide), slotState_setF _ _ _ _ (by decide), slotState_setSlot _ _ _ ha,
    slotState_readyAll _ _ _ fun i hi => List.mem_range.1 (List.mem_filter.1 hi).1]
  simp

/-- The slots and SCH_FB_T that a fallback swap sets before the timelines change (R202). -/
def fallbackSlots (s : State) (f : FbOp) : State :=
  ((match s.activeSlot with
    | none => s
    | some i => s.setSlot i (if s.homeSlot = some i then 6 else 3)).setSlot f.slot 5).setF pgDEVSCH SCH_FB_T.TIME 0

theorem fallbackSwap_eq (s : State) (f : FbOp) (v : Vintage) : s.fallbackSwap f v =
    (((({ fallbackSlots s f with sched := { (fallbackSlots s f).sched with fb := none } } : State).swapTo v f.tick).bookSwap v.number
      s.activeNumber f.tick (if s.homeSlot = some f.slot then 2 else 1) (State.firstEvent f.evs).1).capacity f.again) := rfl

theorem activeSlot_lt {s : State} {i : Nat} (h : s.activeSlot = some i) : i < 8 :=
  List.mem_range.1 (List.mem_of_find?_eq_some h)

theorem fallbackSlots_onlyRegs (s : State) (f : FbOp) : s.OnlyRegs (fallbackSlots s f) := by
  unfold fallbackSlots
  refine OnlyRegs.trans (OnlyRegs.trans ?_ (onlyRegs_setReg ..)) (onlyRegs_setF ..)
  split
  · rfl
  · exact onlyRegs_setReg ..

theorem fallbackSlots_homeSlot (s : State) (f : FbOp) : (fallbackSlots s f).homeSlot = s.homeSlot := by
  have hset : ∀ (t : State) i x, (t.setSlot i x).homeSlot = t.homeSlot := fun t i x => by
    unfold State.homeSlot State.flag
    rw [getF_setSlot _ _ _ _ _ (by decide), getF_setSlot _ _ _ _ _ (by decide)]
  have htime : ∀ t : State, (t.setF pgDEVSCH SCH_FB_T.TIME 0).homeSlot = t.homeSlot := fun t => by
    unfold State.homeSlot State.flag
    rw [getF_setF_other _ _ _ _ _ _ _ _ (.inl (by decide)), getF_setF_other _ _ _ _ _ _ _ _ (.inl (by decide))]
  unfold fallbackSlots
  rw [htime, hset]
  split
  · rfl
  · exact hset ..

theorem fallbackSlots_slotState_new (s : State) (f : FbOp) (hf : f.slot < 8) : (fallbackSlots s f).slotState f.slot = 5 := by
  unfold fallbackSlots
  rw [slotState_setF _ _ _ _ (by decide), slotState_setSlot _ _ _ hf, if_pos rfl]

theorem fallbackSlots_slotState_old {s : State} {f : FbOp} {i : Nat} (hf : f.slot < 8) (hi : s.activeSlot = some i) (hne : i ≠ f.slot) :
    (fallbackSlots s f).slotState i = if s.homeSlot = some i then 6 else 3 := by
  unfold fallbackSlots
  rw [slotState_setF _ _ _ _ (by decide), slotState_setSlot _ _ _ hf, if_neg hne, hi]
  dsimp only
  rw [slotState_setSlot _ _ _ (activeSlot_lt hi), if_pos rfl]
  split <;> rfl

theorem fallbackSlots_time (s : State) (f : FbOp) : (fallbackSlots s f).getF pgDEVSCH SCH_FB_T.TIME = 0 := by
  unfold fallbackSlots
  rw [getF_setF_self _ _ _ _ _ (by decide)]
  rfl

/-! ### The obligation -/

/-- R190: the partner's report at SCH_ARM_T − 20,000. -/
theorem armPairCheck_clause {s : State} {a : ArmOp} {v : Vintage} (t0 : Nat) (hinv : s.Inv) (ha : a.slot < 8)
    (harm : s.sched.arm = some a) (hpair : a.pair = true) (hchk : a.checked = false) (hdue : a.tick ≤ s.fabric + 20000)
    (himg : s.slotImg a.slot = some v) :
    (s.mir.armReport = some (a.tick, v.number, t0) → t0 + 20000 ≤ a.tick → exec .armPairCheck s =
      .next { s with sched := { s.sched with arm := some { a with checked := true } } }) ∧
    ((∀ u, s.mir.armReport = some (a.tick, v.number, u) → a.tick < u + 20000) → ∃ t, exec .armPairCheck s = .next t ∧
      t.sched.arm = none ∧ t.slotState a.slot = 2 ∧ t.getF pgDEVSCH SCH_IMG_RES.RESULT = 0x20 ∧ t.sched.active = s.sched.active) := by
  rw [exec_armPairCheck_due harm hpair hchk hdue]
  constructor
  · intro hrep ht
    rw [if_pos ((pairAgrees_iff himg).2 ⟨t0, hrep, ht⟩)]
    exact done_eq hinv rfl rfl rfl rfl
  · intro hrep
    have hno : ¬ s.pairAgrees a = true := fun h => by
      obtain ⟨u, hu, hle⟩ := (pairAgrees_iff himg).1 h
      have := hrep u hu
      omega
    rw [if_neg hno]
    obtain ⟨t, hdone, hsched, hslot, hres, _⟩ := armAbort_done s a 0x20 false ha (by decide)
    exact ⟨t, hdone, by rw [hsched], hslot, hres, by rw [hsched]⟩

/-- R191: a Cellar of the armed image is not in RUN. -/
theorem armedSwap_abandoned {s : State} {a : ArmOp} {v : Vintage} (ha : a.slot < 8) (harm : s.sched.arm = some a)
    (hfat : s.devFatal = false) (hdue : a.tick ≤ s.fabric) (himg : s.slotImg a.slot = some v)
    (hpair : a.pair = true → a.checked = true ∨ s.pairAgrees a = true) (hcel : ∃ c < 4, givesTo v c = true ∧ s.cellarRun c = false) :
    ∃ t, exec .armedSwap s = .next t ∧ t.sched.arm = none ∧ t.slotState a.slot = 2 ∧ t.getF pgDEVSCH SCH_IMG_RES.RESULT = 0x21 ∧
      t.getF pgDEVSCH SCH_IMG_RES.CMD = 0xF ∧ t.sched.active = s.sched.active ∧
      ∀ c < 4, s.cellarRun c = true → s.fltMasked (pgSCH c * 32 + 6) = false → t.fltSet (pgSCH c * 32 + 6) = true := by
  obtain ⟨c, hc, hgives, hrun⟩ := hcel
  rw [(exec_armedSwap_due harm hfat hdue himg hpair).1 (List.any_eq_true.2 ⟨c, List.mem_range.2 hc, by simp [hgives, hrun]⟩)]
  obtain ⟨t, hdone, hsched, hslot, hres, hcmd, hflt⟩ := armAbort_done s a 0x21 true ha (by decide)
  exact ⟨t, hdone, by rw [hsched], hslot, hres, hcmd rfl, by rw [hsched], hflt⟩

/-- R187, R189: the armed Vintage becomes active and is the home. -/
theorem armedSwap_clause {s : State} {a : ArmOp} {v : Vintage} (ha : a.slot < 8) (harm : s.sched.arm = some a)
    (hfat : s.devFatal = false) (hdue : a.tick ≤ s.fabric) (himg : s.slotImg a.slot = some v)
    (hpair : a.pair = true → a.checked = true ∨ s.pairAgrees a = true) (hcel : ∀ c < 4, givesTo v c = true → s.cellarRun c = true)
    (hbad : s.imageBad v = none) :
    ∃ t, exec .armedSwap s = .next t ∧ t.sched.active = some v ∧ t.sched.arm = none ∧ t.sched.epoch = a.tick ∧
      t.slotState a.slot = 5 ∧ t.homeSlot = some a.slot ∧ (∀ i, i < 8 → i ≠ a.slot → s.slotState i ∈ [5, 6] → t.slotState i = 2) ∧
      (∀ c < 4, t.getF (pgSCH c) SCH_CYCLE.LEN = v.cycle % 2 ^ 21 ∧ t.getF (pgSCH c) SCH_EPOCH.E = a.tick % 2 ^ 64) ∧
      t.sched.events = s.sched.events ++ [(8, 0x3F)] ∧ t.hbm = s.hbm := by
  have hcel' : ((List.range 4).any fun c => givesTo v c && !s.cellarRun c) = false := by
    rw [List.any_eq_false]
    intro c hc
    cases hg : givesTo v c with
    | false => simp
    | true => simp [hcel c (List.mem_range.1 hc) hg]
  rw [(exec_armedSwap_due harm hfat hdue himg hpair).2 hcel' hbad, armedSwap_eq]
  have hregs := armedSlots_onlyRegs s a
  have hmem : (armedSlots s a).hbm = s.hbm := onlyRegs_hbm hregs
  have hslot := armedSlots_slotState s a ha
  have hhome : (armedSlots s a).homeSlot = some a.slot := homeSlot_setHome _ _ ha
  generalize armedSlots s a = u at hregs hmem hslot hhome ⊢
  obtain ⟨t, hdone, hsched, hhbm, hsame, hcyc⟩ :=
    swap_done { u with sched := { u.sched with arm := none } } v a.tick v.number s.activeNumber a.tick 0 0xFF [(8, 0x3F)]
  refine ⟨t, hdone, by rw [hsched], by rw [hsched], by rw [hsched], (hsame.slotState _).trans ?_, hsame.homeSlot.trans hhome,
    fun i hi hne hold => (hsame.slotState i).trans ?_, hcyc, ?_, hhbm.trans hmem⟩
  · exact (hslot _).trans (if_pos rfl)
  · exact (hslot i).trans (by rw [if_neg hne, if_pos ⟨hi, hold⟩])
  · rw [hsched, ← onlyRegs_sched hregs]

/-- R202: a fallback Vintage becomes active, and the one before goes back. -/
theorem fallbackSwap_clause {s : State} {f : FbOp} {v : Vintage} (hf : f.slot < 8) (hfb : s.sched.fb = some f)
    (hfat : s.devFatal = false) (hdue : f.tick ≤ s.fabric) (himg : s.slotImg f.slot = some v) (hbad : s.imageBad v = none) :
    ∃ t, exec .fallbackSwap s = .next t ∧ t.sched.active = some v ∧ t.sched.epoch = f.tick ∧ t.slotState f.slot = 5 ∧
      t.sched.fb = none ∧ t.getF pgDEVSCH SCH_FB_T.TIME = 0 ∧ t.homeSlot = s.homeSlot ∧ t.sched.events = s.sched.events ++ f.again ∧
      (∀ i, s.activeSlot = some i → i ≠ f.slot → t.slotState i = if s.homeSlot = some i then 6 else 3) ∧ t.hbm = s.hbm := by
  rw [exec_fallbackSwap_due hfb hfat hdue himg hbad, fallbackSwap_eq]
  have hregs := fallbackSlots_onlyRegs s f
  have hmem : (fallbackSlots s f).hbm = s.hbm := onlyRegs_hbm hregs
  have hnew := fallbackSlots_slotState_new s f hf
  have hold := fun i hi hne => fallbackSlots_slotState_old (s := s) (f := f) (i := i) hf hi hne
  have hhome := fallbackSlots_homeSlot s f
  have htime := fallbackSlots_time s f
  generalize fallbackSlots s f = u at hregs hmem hnew hold hhome htime ⊢
  obtain ⟨t, hdone, hsched, hhbm, hsame, _⟩ :=
    swap_done { u with sched := { u.sched with fb := none } } v f.tick v.number s.activeNumber f.tick
      (if s.homeSlot = some f.slot then 2 else 1) (State.firstEvent f.evs).1 f.again
  refine ⟨t, hdone, by rw [hsched], by rw [hsched], (hsame.slotState _).trans hnew, by rw [hsched], (hsame.getF _ (by decide)).trans htime,
    hsame.homeSlot.trans hhome, ?_, fun i hi hne => (hsame.slotState i).trans (hold i hi hne), hhbm.trans hmem⟩
  rw [hsched, ← onlyRegs_sched hregs]

/-- Settles O26: a swap sets the slots and SCH_HOME, then the timelines change, and nothing after that writes them; an abandoned ARM only makes its slot
READY and fires SCH_ARM_ABORT, which the collector turns into FLT_CAUSE. That the capacity events wait for the selection at the tick's end is the model's
reading of R199 (log 45). -/
theorem swapsChangeTheActiveVintage : Obligations.SwapsChangeTheActiveVintage := by
  intro s a f v t0 hinv ha hf
  refine ⟨fun harm hpair hchk hdue himg => armPairCheck_clause t0 hinv ha harm hpair hchk hdue himg,
    fun harm hfat hdue himg hpair => ⟨armedSwap_abandoned ha harm hfat hdue himg hpair,
      armedSwap_clause ha harm hfat hdue himg hpair⟩,
    fallbackSwap_clause hf⟩

end Sys2Proof.VintageSwap
end

section
/-! ## When a slot returns to its priority feed

R533 calls a feed good 4 µs after its voltage entered the window, and R534 counts RETURN_T from there: the return is due at 4 µs + RETURN_T after the
sample that found the voltage in the window, which `SpcSt.goodA` holds. -/

namespace Sys2Proof.FeedReturn

open Sys2Proof Sys2Proof.Machine Sys2Proof.Laws

/-- R533, R534: until the priority feed A has been good for RETURN_T, FEED_RETURN_TIMER changes nothing. -/
theorem exec_feedReturnTimer_early {s : State} {i t0 : Nat} (hinv : s.Inv) (hpri : s.getF (pgSLOT i) SPC_SCFG.PRI_FEED = 0)
    (hgood : s.spc.goodA = some t0) (hearly : s.ticks < t0 + 4000 + s.getF pgSPC SPC_CTL.RETURN_T * 1000000) :
    exec (.feedReturnTimer i) s = .next s := by
  show execFeedReturnTimer i s = .next s
  have hwait : ¬ t0 + 4000 + s.getF pgSPC SPC_CTL.RETURN_T * 1000000 ≤ s.ticks := by omega
  have hidle : execFeedReturnTimer i s = s.done := by simp [execFeedReturnTimer, hpri, hgood, hwait]
  exact hidle.trans (done_eq hinv rfl rfl rfl rfl)

/-- Slot 39 is ON from its other feed B, with RETURN and ALT_EN set; the voltage of its priority feed A has been in the window since tick 1,000, for
RETURN_T (1 s as at reset) and not for 4 µs more. -/
def windowForReturnT : State :=
  let s := ((((State.reset.setFlag (pgSLOT 39) SPC_SCFG.EN true).setFlag (pgSLOT 39) SPC_SCFG.ALT_EN true).setFlag (pgSLOT 39) SPC_SCFG.RETURN
    true).setF (pgSLOT 39) SPC_SSTS.STATE 5).setF (pgSLOT 39) SPC_SSTS.FEED 1
  { s.modSlot 39 fun x => { x with req := true, fetB := true, main := true, perst := false } with
    ticks := 1000001000, spc := { s.spc with goodA := some 1000 } }

theorem windowForReturnT_inv : windowForReturnT.Inv where
  quiet := rfl
  closed := fun _ h => absurd h List.not_mem_nil

/-- In that state every hypothesis of the return clause holds. -/
theorem windowForReturnT_meets : windowForReturnT.slotEn 39 = true ∧ windowForReturnT.slotSt 39 = 5 ∧
    windowForReturnT.flag (pgSLOT 39) SPC_SCFG.RETURN = true ∧ windowForReturnT.flag (pgSLOT 39) SPC_SCFG.ALT_EN = true ∧
    (windowForReturnT.slot 39).gap = none ∧ windowForReturnT.getF (pgSLOT 39) SPC_SSTS.FEED = 1 ∧
    windowForReturnT.getF (pgSLOT 39) SPC_SCFG.PRI_FEED = 0 ∧ windowForReturnT.getF pgSPC SPC_CTL.RETURN_T = 1000 := by
  decide +kernel

/-- Refutes O49: its last clause has the return begin once the voltage of feed A has been in the window for RETURN_T and for 4 µs, one beside the other.
The feed is good only after the 4 µs (R533) and has to be good for RETURN_T (R534), so 1 s after the voltage entered the window slot 39 stays on
feed B and no gap begins. -/
theorem not_slotSamplesAndTimers : ¬ Obligations.SlotSamplesAndTimers := by
  intro h
  obtain ⟨hen, hst, hret, halt, hgap, hfeed, hpri, hT⟩ := windowForReturnT_meets
  obtain ⟨-, -, -, -, -, -, -, -, hreturn⟩ :=
    h windowForReturnT 39 0 0 0 1000 [] ⟨39, 0, 0, false⟩ true windowForReturnT_inv (by decide) hen
  obtain ⟨t, hnext, hswitch, -⟩ := hreturn hst hret halt hgap hfeed hpri rfl (by rw [hT]; decide) (by decide)
  have hidle : exec (.feedReturnTimer 39) windowForReturnT = .next windowForReturnT :=
    exec_feedReturnTimer_early windowForReturnT_inv hpri rfl (by rw [hT]; decide)
  have ht : windowForReturnT = t := Host.Outcome.next.inj (hidle.symm.trans hnext)
  rw [← ht, hgap] at hswitch
  exact absurd hswitch (by simp)

end Sys2Proof.FeedReturn
end

section
/-! ## What a planner pass finds to scan

`State.passPorts` holds the ports whose scan is due and those of SCAN_NOW (R580 step 2). A pass also decides afresh the ports that the pass before left,
and a re-equalisation that it decides for one of them brings another scan of that port (R581): the pass begins with more to scan than `passPorts`. -/

namespace Sys2Proof.PlannerPass

open Sys2Proof Sys2Proof.Machine Sys2Proof.Laws

/-- R580, R591: a pass that is due, with thresholds in order, starts. -/
theorem exec_plannerPass_due {s : State} (hmode : s.ageMode ≠ 0) (hbusy : s.flag pgAGE AGE_STS.PASS_BUSY = false)
    (hdue : s.age.passAt + s.getF pgAGE AGE_CTL.PLAN_INT * 60000000000 ≤ s.fabric) (hthr : s.ageBad = false) :
    exec .plannerPass s = s.passStart.done := by
  show execPlannerPass s = s.passStart.done
  have hnow : ¬ s.fabric < s.age.passAt + s.getF pgAGE AGE_CTL.PLAN_INT * 60000000000 := by omega
  simp [execPlannerPass, hmode, hbusy, hnow, hthr]

/-- The end of a command leaves the ageing state alone. -/
theorem age_of_done {s t : State} (h : s.done = .next t) : t.age = s.age := by
  obtain rfl : s.settle.sweepTrace = t := Host.Outcome.next.inj h
  simp

/-- P1 is in L0 as x1 on lane 4 at 16 GT/s, and the core slack is 60 ps. The last pass, at fabric time 0, scanned the port and took another port's
action: it left P1, whose lane has MR 116 (EH 19 mV, EW 28), below EQ_LO, to the pass that is due now, 10 minutes later. AGE_CTL and AGE_EYE_THR hold their reset
values. -/
def leftByLastPass : State :=
  let s1 := State.reset.setFlag (pgCEL 0) CEL_LANESTS.UNUSED false 4
  let s2 := ((s1.setFlag (pgLNK 1) LNK_CFG.EN true).setF (pgLNK 1) LNK_CFG.LANE0 4).setF (pgLNK 1) LNK_CFG.WIDTH 0
  let s3 := ((s2.setF (pgLNK 1) LNK_STS.STATE 3).setF (pgLNK 1) LNK_STS.RATE 3).setF (pgLNK 1) LNK_STS.WIDTH 1
  let s4 := s3.each (List.range 5) fun t m => t.setF pgAGE AGE_MON.SLACK 60 m
  { s4 with fabric := 600000000000, ticks := 600000000000,
            age := { s4.age with ldata := [(4, 0x8074131C)], scanned := [(1, 0)], redo := [1] } }

theorem leftByLastPass_inv : leftByLastPass.Inv where
  quiet := rfl
  closed := fun _ h => absurd h List.not_mem_nil

/-- In that state the pass is due. -/
theorem leftByLastPass_due : leftByLastPass.ageMode ≠ 0 ∧ leftByLastPass.flag pgAGE AGE_STS.PASS_BUSY = false ∧
    leftByLastPass.age.passAt + leftByLastPass.getF pgAGE AGE_CTL.PLAN_INT * 60000000000 ≤ leftByLastPass.fabric ∧
    leftByLastPass.ageBad = false := by
  decide +kernel

/-- No scan is due and none was asked for, and the pass begins with a re-equalisation of P1 and its scan. -/
theorem leftByLastPass_scans : leftByLastPass.passPorts = [] ∧ leftByLastPass.passStart.age.toScan = [1] := by
  decide +kernel

/-- Refutes O55: its first clause has a pass begin with the scans of `passPorts` and no other. The model, as R580 and R581 ask, decides the ports that
the last pass left as well: P1 is re-equalised and waits to be scanned again, while `passPorts` is empty. The reading that such a port is decided at
the beginning of the pass, from its latest margins, is the model's (log 52). -/
theorem not_ageingAndMargins : ¬ Obligations.AgeingAndMargins := by
  rintro ⟨hscans, -⟩
  obtain ⟨hmode, hbusy, hdue, hthr⟩ := leftByLastPass_due
  obtain ⟨hnone, hone⟩ := leftByLastPass_scans
  obtain ⟨hpass, -⟩ := hscans leftByLastPass .mgmt 0 0 ⟨0, 0, 0⟩ leftByLastPass_inv
  obtain ⟨t, hnext, -, htoScan, -⟩ := hpass hmode hbusy hdue hthr
  have hage : t.age = leftByLastPass.passStart.age :=
    age_of_done ((exec_plannerPass_due hmode hbusy hdue hthr).symm.trans hnext)
  rw [hage, hone, hnone] at htoScan
  exact List.cons_ne_nil _ _ htoScan

end Sys2Proof.PlannerPass
end

section
/-! ## Running a command on a concrete state

The state that a command leaves, as data, for the states that refute a statement. -/

namespace Sys2Proof.Runs

open Sys2Proof Sys2Proof.Machine

/-- The state that a command leaves, where it completes. -/
def nextOf : Res → Option State
  | .next t => some t
  | .fault _ => none
  | .refused _ => none

/-- What a command that completes leaves, seen through `f`. -/
theorem seen_of_next {β : Type} (f : State → β) {r : Res} {t : State} (h : r = .next t) : (nextOf r).map f = some (f t) := by
  rw [h]; rfl

/-- Every record of the trace buffers has its outcome or its packet, as a check. -/
def samplesClosed (s : State) : Bool := s.trace.all fun r => r.out.isSome || s.sampleHeld r.id

theorem samplesClosed_iff (s : State) : samplesClosed s = true ↔ s.SamplesClosed := by
  simp only [samplesClosed, State.SamplesClosed, List.all_eq_true, Bool.or_eq_true, Option.isSome_iff_ne_none]
  exact forall₂_congr fun r _ => ⟨fun h hn => h.resolve_left (absurd hn), fun h => (em (r.out = none)).elim (.inr ∘ h) .inl⟩

/-- A state in which nothing has fired and nothing is sampled meets the invariant. -/
theorem inv_of_nil {s : State} (hf : s.firing = []) (ht : s.trace = []) : s.Inv where
  quiet := hf
  closed := fun _ h => absurd (ht ▸ h) List.not_mem_nil

end Sys2Proof.Runs
end

section
/-! ## A yield at the end of a tick

An ACTIVE member that entered DEVICE_FATAL yields at the end of the tick (R469, R498): its mirrored writes that are not resolved are discarded, with the
packets that carry them. No command runs then, so nothing closes the samples of those packets (R603). -/

namespace Sys2Proof.YieldAtTick

open Sys2Proof Sys2Proof.Machine Sys2Proof.Runs

/-- The TLP of a posted write of one byte. -/
def coveredTlp : Tlp :=
  { kind := .mwr, rid := 0, tag := 0, pasid := none, tc := 0, addr := 0, len := 1, mask := [], data := [0], hdr := 16, ro := false, ido := false,
    poisoned := false, op := .fetchAdd, status := .sc }

/-- A posted write of P0's host that the mirror covers and whose packet is sampled. -/
def coveredWrite : Packet :=
  { State.reset.newPacket coveredTlp 0 0 (.port 0 0 none) 0 .requester with id := 1, group := 1, acc := [0], sample := some 0 }

/-- The record of its sample, which has no outcome yet. -/
def openSample : TraceRec :=
  { id := 0, cellar := 0, n := 0, mseq := 0, acc := 0, dord := 0, ing := 0, egr := none, queue := 0, cells := 1, cut := false, spilled := false,
    mcast := false, sched := false, fabArr := false, trans := false, grel := none, x1 := none, mark := 0, sigma := 0, part := 0, rid := 0,
    addr := 0, hdr := 0, ini := .port 0 0 none, order := 0, out := none }

/-- The root PLL is in lock, the covered write is held, and a yield is due at the tick's end. -/
def yieldDueState : State :=
  { State.reset.setFlag pgCLK CLK_STS.PLL_LOCK true with
    packets := [coveredWrite], trace := [openSample], openW := [⟨1, .port 0 0 none, 0, 0, 1, true, false, none⟩],
    mir := { MirSt.init with yielded := true, yieldDue := true } }

/-- A tick at whose end no yield is due leaves the packet, and its sample stays open. -/
example : samplesClosed ({ yieldDueState with mir := MirSt.init } : State).tick = true := by decide +kernel

theorem yieldDueState_inv : yieldDueState.Inv where
  quiet := rfl
  closed := (samplesClosed_iff _).1 (by decide +kernel)

theorem yieldDueState_tick : samplesClosed yieldDueState.tick = false := by decide +kernel

/-- Refutes O5: the yield at the end of a tick discards the covered write with its packet, and the tick, which ends no command's cycle, leaves the
packet's sample without an outcome. -/
theorem not_everyStepKeepsTheInvariant : ¬ Obligations.EveryStepKeepsTheInvariant := by
  intro h
  obtain ⟨-, hclosed⟩ := h yieldDueState yieldDueState.tick yieldDueState_inv rfl
  exact absurd ((samplesClosed_iff _).2 hclosed) (by simp [yieldDueState_tick])

end Sys2Proof.YieldAtTick
end

section
/-! ## The machine: its steps, its state at reset, and writes of HBM -/

namespace Sys2Proof.MachineLaws

open Sys2Proof Sys2Proof.Machine Sys2Proof.Laws

/-! ### Steps -/

/-- Settles O1: `step` matches on the queue. -/
theorem stepRunsTheFrontCommand : Obligations.StepRunsTheFrontCommand := fun _ _ _ => rfl

theorem step_of_pending_nil {s : State} (h : s.pending = []) : step s = .next s.tick := by
  unfold step; rw [h]

/-- R612: while the root PLL is not in lock only the model's clock advances. -/
theorem tick_of_unlocked {s : State} (h : s.flag pgCLK CLK_STS.PLL_LOCK = false) : s.tick = { s with ticks := s.ticks + 1 } := by
  unfold State.tick; rw [h]; rfl

/-- Settles O2: the two cases of a tick, the root PLL in lock or not; what a tick of CK_SCHED leaves alone is `still_tick`. -/
theorem emptyQueueIsATick : Obligations.EmptyQueueIsATick := by
  intro s hp
  rw [step_of_pending_nil hp]
  refine ⟨fun h => by rw [tick_of_unlocked h], fun hlock hev hfreed hyield hfire => ?_⟩
  have h := still_tick hyield hev hfreed hfire
  exact ⟨s.tick, rfl, h.ticks, h.fabric.trans (if_pos hlock), h.pending.trans hp, h.packets, h.hbm, h.trace, h.swb, h.flash,
    h.firing.trans hfire⟩

/-! ### Reset -/

/-- Settles O3: every one of them is a closed fact about the reset state. -/
theorem resetValues : Obligations.ResetValues := by
  refine ⟨rfl, rfl, ?_, ?_, ?_, ?_, ?_, ?_, ?_, ?_, rfl, ?_, ?_, ?_⟩ <;> decide +kernel

/-- Settles O4: at reset nothing has fired, nothing is sampled and no byte is written. -/
theorem invariantAtReset : Obligations.InvariantAtReset :=
  ⟨⟨rfl, fun _ h => absurd h List.not_mem_nil⟩, rfl, rfl⟩

/-! ### Writes of HBM -/

theorem hbm_wf_hbmWrite (s : State) (a : Nat) (l : List (Option Byte)) (h : Memory.wf 0 s.hbm = true) :
    Memory.wf 0 (s.hbmWrite a l).hbm = true := by
  induction l generalizing s a with
  | nil => exact h
  | cons x r ih =>
    cases x with
    | none => exact ih s (a + 1) h
    | some b => exact ih (s.setHbm a b) (a + 1) (hbm_wf_setHbm s a b h)

/-- A byte of HBM after a write: the byte that the list gives for it, else the byte before. -/
theorem hbmByte_hbmWrite (s : State) (a : Nat) (l : List (Option Byte)) (c : Nat) : (s.hbmWrite a l).hbmByte c =
    if a ≤ c ∧ c < a + l.length then (l.getD (c - a) none).getD (s.hbmByte c) else s.hbmByte c := by
  induction l generalizing s a with
  | nil => rw [if_neg (by simp only [List.length_nil]; omega)]; rfl
  | cons x r ih =>
    have hstep : (s.hbmWrite a (x :: r)).hbmByte c = if a + 1 ≤ c ∧ c < a + 1 + r.length
        then (r.getD (c - (a + 1)) none).getD (s.hbmByte c) else if c = a then x.getD (s.hbmByte c) else s.hbmByte c := by
      cases x with
      | none => exact (ih s (a + 1)).trans (by simp)
      | some b =>
        refine (ih (s.setHbm a b) (a + 1)).trans ?_
        rw [hbmByte_setHbm]
        by_cases hc : c = a
        · rw [if_neg (by omega)]; simp [hc]
        · simp [hc]
    rw [hstep, List.length_cons]
    by_cases hc : c = a
    · rw [if_neg (by omega), if_pos hc, if_pos (by omega), hc]; simp
    · by_cases hin : a + 1 ≤ c ∧ c < a + 1 + r.length
      · have hix : c - a = c - (a + 1) + 1 := by omega
        rw [if_pos hin, if_pos (by omega), hix, List.getD_cons_succ]
      · rw [if_neg hin, if_neg hc, if_neg (by omega)]

/-- Settles O7, by induction on the bytes written. -/
theorem hbmWriteReadsBack : Obligations.HbmWriteReadsBack := fun s a l => ⟨hbm_wf_hbmWrite s a l, hbmByte_hbmWrite s a l⟩

end Sys2Proof.MachineLaws
end

section
/-! ## Registers that no write has left so

The statements of the register pages speak of every state that meets the invariant, which says nothing of the register file: a register of 32 bits may
hold more, and a register may be listed twice. -/

namespace Sys2Proof.RegisterFiles

open Sys2Proof Sys2Proof.Machine Sys2Proof.Runs

/-- The state at reset, but for its register file. -/
def withRegs (r : Store Dword) : State := { State.reset with regs := r }

theorem withRegs_inv (r : Store Dword) : (withRegs r).Inv := inv_of_nil rfl rfl

/-! ### A register of 32 bits that holds more (O12) -/

/-- GLB_DEV_ID holds a bit above its 32. -/
def wideDevId : State := withRegs [(0x80, 0x100000000)]

/-- The debug port reads 0: the low word of what is stored. -/
theorem wideDevId_read : (nextOf (exec (.debugPortAccess 0x80 false none) wideDevId)).map State.out = some [.regRead 0x80 0] := by
  decide +kernel

/-- Refutes O12: its last clause has the debug port's 4 B read of GLB_DEV_ID return all 64 bits that are stored at the register's key; the read returns
the register's 32 bits (R58). -/
theorem not_registerReads : ¬ Obligations.RegisterReads := by
  rintro ⟨-, -, hdebug⟩
  have hread := seen_of_next State.out (hdebug wideDevId (withRegs_inv _) (by decide +kernel) rfl)
  rw [wideDevId_read] at hread
  exact absurd hread (by decide +kernel)

/-! ### A register listed twice -/

/-- PAGE_CTL of GLB is listed twice, with INT_DEST 0 and all else at reset. -/
def twicePageCtl : State := withRegs [(0xC, bitsPut (regReset 0xC) 28 24 0), (0xC, bitsPut (regReset 0xC) 28 24 0)]

/-- Refutes O11: its first clause writes the three fields of PAGE_CTL one after another. Where the register is listed twice and the first field alone
gives the reset value, that removes both entries; the command, which stores the register whole, replaces the first. -/
theorem not_registerWritesAndLocks : ¬ Obligations.RegisterWritesAndLocks := by
  rintro ⟨hwrite, -⟩
  obtain ⟨hwhole, -⟩ := hwrite twicePageCtl .mgmt 0 0 0x1F000005 (withRegs_inv _) (by decide) (by decide +kernel) (by decide +kernel)
  exact absurd (seen_of_next State.regs hwhole) (by decide +kernel)

/-- Cellar 0 is CHANGING to RUN, and PAGE_LOCK of its page CEL is listed twice: first with LOCK 0, then with LOCK 1. -/
def twicePageLock : State :=
  withRegs [(pgGLB * 4096 + 0x204, 3), (pgCEL 0 * 4096 + 0x14, 0), (pgCEL 0 * 4096 + 0x14, 1)]

/-- Refutes O10: its last clause has a Cellar that returns to RUN keep the locks of its pages. The return drops an entry of the register file that is at
its reset value; where the register is listed twice, the entry behind it then counts. -/
theorem not_cellarModes : ¬ Obligations.CellarModes := by
  rintro ⟨-, hreached⟩
  obtain ⟨-, hrun⟩ := hreached twicePageLock 0 (withRegs_inv _) (by decide)
  obtain ⟨t, hnext, -, -, -, -, -, -, -, -, -, hkeep⟩ := hrun (by decide +kernel)
  obtain ⟨hlocks, -⟩ := hkeep (by decide +kernel)
  obtain ⟨hlock, -⟩ := hlocks (pgCEL 0) (by decide) (by decide)
  have hlock' := seen_of_next (fun u => u.flag (pgCEL 0) PAGE_LOCK.LOCK) hnext
  rw [hlock] at hlock'
  exact absurd hlock' (by decide +kernel)

end Sys2Proof.RegisterFiles
end

section
/-! ## Ports that a statement of the egress does not speak of -/

namespace Sys2Proof.EgressCases

open Sys2Proof Sys2Proof.Machine Sys2Proof.Runs Sys2Proof.Tests

/-! ### The tick in which a port's accounts clear (O21) -/

/-- P1 is at the start of an owned period, in the tick in which its slot accounts clear. -/
def clearing : State := { Queues.wOwn with edge := { Queues.wOwn.edge with clrNow := [1] } }

/-- In a tick in which the port's accounts do not clear, the same period counts as delivered. -/
example : (nextOf (exec (.flitPeriodStart 1 .ok) Queues.wOwn)).map (fun t => t.getF (pgPMUA (cellarOf 1) (1 % 16)) PMU_SA_DELIV.COUNT (1 % 8)) =
    some 1 := by decide +kernel

/-- Refutes O21: in the tick in which the port's accounts clear, the period is lost to them (R600), though its packet leaves. -/
theorem not_ownedPeriodCarriesItsPacket : ¬ Obligations.OwnedPeriodCarriesItsPacket := by
  intro h
  obtain ⟨t, hnext, -, -, hcount, -⟩ := h clearing 1 8 Queues.kOwn (invOf (by decide +kernel)) (by decide) (by decide +kernel)
    (by decide +kernel) (by decide +kernel) (by decide +kernel) (by decide +kernel) (by decide +kernel) (by decide +kernel)
    (by decide +kernel) (by decide +kernel) (by decide +kernel) (by decide +kernel) (by decide +kernel) (by decide +kernel)
    (by decide +kernel) (by decide +kernel) (by decide +kernel) (by decide +kernel) (by decide +kernel) (by decide +kernel)
    (by decide +kernel)
  have hread := seen_of_next (fun u => u.getF (pgPMUA (cellarOf 1) (1 % 16)) PMU_SA_DELIV.COUNT (1 % 8)) hnext
  rw [hcount PMU_SA_DELIV.COUNT (by simp)] at hread
  exact absurd hread (by decide +kernel)

/-! ### A port in non-FLIT mode that is still sending (O22) -/

/-- P1 in non-FLIT mode is still sending a cut-through packet, 99, while another stands in its queue. -/
def sending : State := Queues.wBe.modPort 1 fun x => { x with sending := some (99, 0) }

theorem pair_of_snd {α β : Type} {x : α × β} {b : β} (h : x.2 = b) : x = (x.1, b) := h ▸ rfl

/-- Nothing has left when the opportunity is over. -/
theorem sending_out : (nextOf (exec (.nonflitStartOpportunity 1 .ok) sending)).map State.out = some [] := by decide +kernel

/-- Refutes O22: the first clause does not ask that the port sends nothing already. The opportunity then belongs to the packet that it is sending
(R115), and the TLP of best-effort selection does not leave. -/
theorem not_portsSendTlps : ¬ Obligations.PortsSendTlps := by
  rintro ⟨hsend, -⟩
  obtain ⟨t, hnext, hout, -⟩ := hsend sending (sending.beSelect 1 4096 sending.fabric).1 1 Queues.kBe (invOf (by decide +kernel)) (by decide)
    (by decide +kernel) (by decide +kernel) (by decide +kernel) (by decide +kernel) (by decide +kernel) (by decide +kernel)
    (by decide +kernel) (by decide +kernel) (pair_of_snd (by decide +kernel)) (by decide +kernel) (by decide +kernel) (by decide +kernel)
  have hread := seen_of_next State.out hnext
  rw [sending_out, Option.some.injEq] at hread
  exact absurd (hread ▸ hout) List.not_mem_nil

end Sys2Proof.EgressCases
end

section
/-! ## A lane error in the tick of a trip (O27) -/

namespace Sys2Proof.LaneCases

open Sys2Proof Sys2Proof.Machine Sys2Proof.Runs Sys2Proof.Tests

/-- A lane of P1 has tripped in the present tick. -/
def tripped : State := served.modPort 1 fun x => { x with trip := some (0, [0, 0, 0, 0]) }

/-- Refutes O27: its first clause does not ask that no lane of the port has tripped in the present tick. The score of a lane then rises in the
scores kept for the other lanes of that tick (R253), and LNK_LERR.SCORE stays as the trip left it. -/
theorem not_lanesAreScoredAndRetired : ¬ Obligations.LanesAreScoredAndRetired := by
  intro h
  obtain ⟨hscore, -⟩ := h tripped .mgmt 4 1 0 8 0 .flit (invOf (by decide +kernel))
  obtain ⟨hexact, -⟩ := hscore (by decide +kernel) (by decide +kernel) (by simp)
  have hread := seen_of_next (fun u => u.laneScore 1 0) (hexact (by decide +kernel))
  exact absurd hread (by decide +kernel)

end Sys2Proof.LaneCases
end

section
/-! ## An FFL port under a policer, and one with LINKGO to send (O31, O32) -/

namespace Sys2Proof.FabricLinkCases

open Sys2Proof Sys2Proof.Machine Sys2Proof.Runs Sys2Proof.Tests

/-! ### The bucket of a policer pays for the cell (O31) -/

/-- P16 polices the posted class of its peer. -/
def policed : State := onFabric.setFlag (State.polPage 16) QSH_PRATE.EN true (State.polIx 16 0)

/-- Refutes O31: the first clause keeps every register, but the acceptance of the cell of a DATA flit taken in order debits the bucket of the
port's policer (R225), which QSH_PTOK shows. -/
theorem not_flitsTakenAndReplayed : ¬ Obligations.FlitsTakenAndReplayed := by
  rintro ⟨hdecide, -⟩
  obtain ⟨htaken, -⟩ := (hdecide policed 16 (Fabric.flt 0 true) (invOf (by decide +kernel)) (by decide) (by decide +kernel) (by decide +kernel)).1
    (by decide +kernel) (by decide +kernel) (by decide +kernel) (by decide +kernel)
  obtain ⟨t, hnext, -, -, -, -, hregs, -⟩ := htaken (by decide +kernel) (by decide +kernel)
  have hread := seen_of_next State.regs hnext
  rw [hregs] at hread
  exact absurd hread (by decide +kernel)

/-! ### LINKGO waits when HELLO ends (O32) -/

/-- P16 in HELLO has sent its echo, and a LINKGO message waits for a CTRL flit. -/
def grantsWidth : State := Fabric.st4.modFfl 16 fun x => { x with ctrl := [(.linkGo 4 0, 1)] }

/-- Refutes O32: the HELLO that ends the phase makes INIT begin with a CTRL flit (R285). Where LINKGO waits, that flit carries it, and the port is
in RETRAIN after it (R291), not in INIT. -/
theorem not_fabricLinkTraining : ¬ Obligations.FabricLinkTraining := by
  intro h
  obtain ⟨hhello, -⟩ := h grantsWidth 16 15 63 0 0 (invOf (by decide +kernel)) (by decide) (by decide +kernel) (by decide +kernel) (by decide)
    (by decide)
  obtain ⟨-, hecho⟩ := hhello (by decide +kernel) (by decide +kernel)
  obtain ⟨t, hnext, hinit, -⟩ := hecho (by decide +kernel)
  have hread := seen_of_next (fun u => u.lkState 16) hnext
  rw [hinit] at hread
  exact absurd hread (by decide +kernel)

end Sys2Proof.FabricLinkCases
end

section
/-! ## The transfer numbers of a reset instance's channels (O40) -/

namespace Sys2Proof.InstanceCases

open Sys2Proof Sys2Proof.Machine Sys2Proof.Runs Sys2Proof.Tests

/-- Instance 0 is at the end of its reset, and its DMA channel 0 has begun one transfer before. -/
def resetOver : State := (Memory.st21.setF (pgVIMI 0) VIM_ICHAN.COUNT 1 0).modChan 0 fun x => { x with next := 1 }

/-- A channel that has begun no transfer is as at power-up after the reset. -/
example : (nextOf (exec (.instanceResetEnd 0) (Memory.st21.setF (pgVIMI 0) VIM_ICHAN.COUNT 1 0))).map (fun t => (t.chan 0).next) = some 0 := by
  decide +kernel

/-- Refutes O40: a channel of the instance keeps the number of its next transfer over the reset, so that it is not as at power-up where the channel
has begun a transfer before. -/
theorem not_instancesAndFunctions : ¬ Obligations.InstancesAndFunctions := by
  rintro ⟨hinst, -⟩
  obtain ⟨-, -, -, hend⟩ := hinst resetOver .mgmt 0 (invOf (by decide +kernel)) (by decide)
  obtain ⟨t, hnext, -, -, -, hchan, -⟩ := hend (by decide +kernel) (by decide +kernel)
  have hread := seen_of_next (fun u => (u.chan 0).next) hnext
  rw [hchan 0 (by decide +kernel)] at hread
  exact absurd hread (by decide +kernel)

end Sys2Proof.InstanceCases
end

section
/-! ## A channel of an instance under reset (O41) -/

namespace Sys2Proof.ChannelCases

open Sys2Proof Sys2Proof.Machine Sys2Proof.Runs Sys2Proof.Tests

/-- Instance 0, which holds channel 0, is RESETTING. -/
def resetting : State := { Dma.st3 with insts := [(0, { InstSt.init with stt := 2 })] }

/-- Refutes O41: a write of the pace is stored in every state, it says, but while the channel's instance is RESETTING the writes to its page are
dropped (R415). -/
theorem not_dmaChannelCommands : ¬ Obligations.DmaChannelCommands := by
  intro h
  obtain ⟨-, -, hpace, -⟩ := h resetting .mgmt 0 0 true (invOf (by decide +kernel)) (by decide) (fun _ h => nomatch h)
  have hread := seen_of_next (fun u => u.flag (chPage 0) DMA_PACE.REQ (chIx 0)) (hpace (by decide +kernel))
  exact absurd hread (by decide +kernel)

end Sys2Proof.ChannelCases
end

section
/-! ## A write received in part only when its partition is reset (O59) -/

namespace Sys2Proof.ResetCases

open Sys2Proof Sys2Proof.Machine Sys2Proof.Runs Sys2Proof.Tests

/-- P1 has received a posted write in part; its cells leave by cut-through. -/
def cutting : State := { Resets.full with packets := [{ Resets.kIn with place := .egress, acc := [1000] }] }

/-- A packet that stands in the ingress of a port of PART0 and is a write. -/
def isIngressWrite (x : Packet) : Bool := x.place == .ingress && decide (x.ing < 64) && cutting.portPart x.ing == 0 && isWrite x.tlp

/-- A write that the ingress has received in full is gone when the hot reset has begun. -/
example : (nextOf (exec (.rstPartGo .mgmt 0) Resets.full)).map (fun t => t.packets.any isIngressWrite) = some false := by decide +kernel

/-- The hot reset takes the port's link down, which returns the write to the ingress. -/
theorem cutting_reset : (nextOf (exec (.rstPartGo .mgmt 0) cutting)).map (fun t => t.packets.any isIngressWrite) = some true := by
  decide +kernel

/-- Refutes O59: a software hot reset also takes down the links of the partition's downstream ports, and a write that such a port has received in part
then stands in its ingress again, to be dropped when it is judged (R115): a write of the partition is there after the reset began. -/
theorem not_resetsOfTheDevice : ¬ Obligations.ResetsOfTheDevice := by
  intro h
  obtain ⟨-, -, -, -, -, -, -, -, hgo, -⟩ := h cutting .mgmt 0 0 0 (invOf (by decide +kernel))
  obtain ⟨t, hnext, -, -, hnone⟩ := (hgo (by decide +kernel)).2 (by decide) (by decide +kernel) (by decide +kernel)
  have hread := seen_of_next (fun u => u.packets.any isIngressWrite) hnext
  rw [cutting_reset, Option.some.injEq, eq_comm, List.any_eq_true] at hread
  obtain ⟨x, hx, hwrite⟩ := hread
  simp only [isIngressWrite, Bool.and_eq_true, beq_iff_eq, decide_eq_true_eq] at hwrite
  obtain ⟨⟨⟨hplace, hing⟩, hpart⟩, hkind⟩ := hwrite
  exact absurd hkind (by rw [hnone x hx hplace hing hpart]; decide)

end Sys2Proof.ResetCases
end

section
/-! ## Which commands complete, and which stop -/

namespace Sys2Proof.Answers

open Sys2Proof Sys2Proof.Machine Sys2Proof.Laws

/-! ### Every other command completes (O8) -/

/-- Settles O8: every branch of every meaning but those of the fourteen ends in `State.done`. -/
theorem everyOtherCommandCompletes : Obligations.EveryOtherCommandCompletes := by
  intro c s h
  cases c <;> try cases h
  all_goals
    simp only [exec, execSwEntryCommit, execSwSerialize, execFenceRead, execFenceDmwr, execVimBindD0Write, execVimBindD1Write, execTtuInvGo,
      execTtuInvEffect, execTtuInvDone, execVfFlr, execVimResetWrite, execPfFlr, execHeldResetEffect, execInstanceResetEnd, execBar2WriteCommit,
      execWinFieldWrite, execFwdEptDataAccess, execAccHeldWrite, execAccRdWrite, execPrefetchFillDone, execPrefetchHoldExpire, execOrphanReap,
      execLiveReap, execSchLoad, execSchLoadDone, execLoadCompletionTimeout, execSchHold, execSchRelease, execSchArm, execShadowFillDone,
      execSchDisarm, execSchBadCmd, execArmPairCheck, execTackDelayExpire, execE2eTimeout, execReplayStoreWritten, execFrtCompletionTimeout,
      execLaneErrorEvent, execLaneScoreDecay, execLaneRetireWrite, execLnkRetrain, execLnkRestore, execLnkDisableSet, execLnkDisableClear,
      execPortRecoveryEntry, execPortL0Entry, execDerateWindowEnd, execDlDown, execLockLossTimeout, execLinkDownCleanupDone, execDpcTrigger,
      execDpcExit, execHotResetReceived, execSecondaryBusReset, execFflFlitDecide, execFflCreditReceive, execFflNakReceive, execFflHelloReceive,
      execFflLinkreqReceive, execFflLinkgoReceive, execFflTimeReqReceive, execFflTimeRspReceive, execFflSwaptickReceive, execFflMctpReceive,
      execFflReplayTimeout, execFflHelloInterval, execFflHelloTimeout, execFflUpkeepTimer, execFflTimeIntTimer, execFflLinkreqTimeout,
      execFflReqCmd, execFflLockLossTimeout, execFflLinkDownCleanupDone, execFlitPeriodStart, execRepairWaitExpire, execRepairItemDue,
      execNonflitStartOpportunity, execTlpDllAck, execFcUpdateReceive, execSpineSlot, execCellEgressArrive, execSpillPlacedBurst,
      execSpillBeBurst, execSpillBurstDone, execPolicerRelease, execShaperParamWrite, execQueueSnapshot, execQueueStallDetect,
      execSamplePendingTimeout, execRingRdWrite, execPmuCounterWrite, execPmuEvtWrite, execPmuGsnapGo, execPmuSnapshotTick, execPmuSaClr,
      execDmaGo, execDmaStop, execDmaPaceWrite, execDmaShadowWrite, execDmaPlacedBurst, execDmaBeBurst, execDmaBurstEnd, execDmaListFetchDone,
      execDmaXferComplete, execLeesRecordMake, execPinPulseEnd, execPinRearm, execPinDriveWrite, execPinModeWrite, execLogRdWrite,
      execIntForceWrite, execFltForceWrite, execFltAckWrite, execMirRoleReceive, execMirArmreportReceive, execMirYieldReceive,
      execMirResyncMsgReceive, execMirCopyReceive, execMirCommitReceive, execMirLedgerReceive, execMirBlockReceive, execRoleInterval,
      execSeekTimeout, execLedgerEpochEnd, execHeartbeatLoss, execHbOutToggle, execPairHbInEdge, execMirSwitchover, execSwitchoverDrained,
      execMirTake, execMirTakeForce, execMirResyncCmd, execMirBadCmd, execResyncBlockSend, execResyncTimeout, execPresenceConfirm,
      execRearmWindowEnd, execSlotPowerControlWrite, execPrechgTimeout, execGateTimeout, execHoldoffEnd, execPerstReleaseTimer,
      execMainFetOpenDelay, execRetryClearTimer, execFeedSwitchBbmEnd, execFeedReturnTimer, execFruReadDone, execLifeCountWritten,
      execSlotOnHourWrite, execSpcClrLatch, execSpcService, execSpcConnReset, execLimderLinkFail, execLimderLinkRestore, execGetBook,
      execGetNonce, execProvisionOwner, execRevokeOwner, execProvisionDbgauth, execRevokeDbgauth, execCommitSvn, execDebugToken, execDbgtoken,
      execFlashprog, execBootsts, execSpdmRequest, execCheckpointTimer, execCheckpointMade, execBookFlashWritten, execAttestOutcome,
      execAttestTimeout, execTruAttRedo, execMarginScanDone, execAgeApply, execAgeDiscard, execAgeScanNow, execAgeUnretire, execAgeStateHourly,
      execAgeMonthlyRecord, execAvsTargetWrite, execAgeLdataRead, execCellarHoldReq, execCellarGateReq, execCellarRunReq, execCellarModeReached,
      execPartnerL0pL1Request, execVddAonRise, execQporNAssert, execPllLockTimeout, execPowerUpResetEnd, execQwarmNAssert, execRstCmdWarm,
      execWarmResetStart, execRstCmdMgmt, execMgmtWatchdogExpire, execFirmwareActivate, execManagementComplexRelease, execRstPartGo,
      execPartResetBusyEnd, execPllUnlock, execPllRelock, execTsrcLostTimeout, execPowerGateReq, execPowerWakeReq, execPowerDomainGated,
      execPowerDomainWoken, execSupplySample, execSupplyWarnEnd, execMonitorSample, execRcRead, execLowWordRead, execPageLockWrite,
      execGlbSealWrite, execFenceComplete, execTlpReceive, execCompletionReceive, execMctpReceive, execBridgeConfigWrite, execTackReceive,
      execTtuWalkReadDone]
    repeat' split
    all_goals exact ⟨_, rfl⟩

/-! ### Undefined results (O9) -/

variable {s : State}

/-- R180: an armed image that breaks a rule of chapter 5. -/
theorem exec_armedSwap_undefined {a : ArmOp} {v : Vintage} {r : Nat} (harm : s.sched.arm = some a) (hfatal : s.devFatal = false)
    (hdue : a.tick ≤ s.fabric) (himg : s.slotImg a.slot = some v) (hpair : a.pair = false)
    (hcel : ∀ d < 4, givesTo v d = true → s.cellarRun d = true) (hbad : s.imageBad v = some r) :
    exec .armedSwap s = .fault (.undefinedResult r) := by
  have hany : ((List.range 4).any fun c => givesTo v c && !s.cellarRun c) = false := by
    rw [List.any_eq_false]
    intro c hc
    cases hg : givesTo v c with
    | false => simp
    | true => simp [hcel c (List.mem_range.1 hc) hg]
  show execArmedSwap s = _
  simp [execArmedSwap, harm, hfatal, Nat.not_lt.2 hdue, himg, hpair, hany, hbad]

theorem exec_fallbackSwap_undefined {f : FbOp} {v : Vintage} {r : Nat} (hfb : s.sched.fb = some f) (hfatal : s.devFatal = false)
    (hdue : f.tick ≤ s.fabric) (himg : s.slotImg f.slot = some v) (hbad : s.imageBad v = some r) :
    exec .fallbackSwap s = .fault (.undefinedResult r) := by
  show execFallbackSwap s = _
  simp [execFallbackSwap, hfb, hfatal, Nat.not_lt.2 hdue, himg, hbad]

theorem exec_plannerPass_undefined (hmode : s.ageMode ≠ 0) (hbusy : s.flag pgAGE AGE_STS.PASS_BUSY = false)
    (hdue : s.age.passAt + s.getF pgAGE AGE_CTL.PLAN_INT * 60000000000 ≤ s.fabric) (hbad : s.ageBad = true) :
    exec .plannerPass s = .fault (.undefinedResult 591) := by
  show execPlannerPass s = _
  simp [execPlannerPass, hmode, hbusy, Nat.not_lt.2 hdue, hbad]

theorem exec_slotSample_undefined {va vb : Nat} {ms : List SlotMeas} {ok : Bool} (hdue : ∀ t, s.spc.sampleAt = some t → t + 1000 ≤ s.ticks)
    (hbad : s.slotBad = true) : exec (.slotSample va vb ms ok) s = .fault (.undefinedResult 544) := by
  show execSlotSample va vb ms ok s = _
  unfold execSlotSample
  cases h : s.spc.sampleAt with
  | none => simp [hbad]
  | some t => simp [Nat.not_lt.2 (hdue t h), hbad]

theorem exec_traceRecordWrite_undefined {c : Nat} {x : TraceRec} (hnext : s.traceNext c = some x) (hrun : s.cellarRun c = true)
    (hen : s.flag (pgPMUT c) PMU_RING_CTL.EN = true) (hspill : s.spillDue = none) (hsize : s.regionSize 2 = 0 ∨ s.regionSize 2 % 256 ≠ 0) :
    exec (.traceRecordWrite c) s = .fault (.undefinedResult 607) := by
  show execTraceRecordWrite c s = _
  simp [execTraceRecordWrite, hnext, hrun, hspill, hen, hsize]

/-- A granted write reaches its register. -/
theorem writeReaches_of_granted {who : Requester} {off len : Nat} (h : s.granted who off len = true) : s.writeReaches who off len = true := by
  simp only [State.granted, State.pageLive, Bool.and_eq_true] at h
  obtain ⟨⟨⟨hstop, hslots⟩, hpage⟩, ⟨hkind, hhere⟩, hdead⟩ := h
  have hs : s.guardSlots who off len true = (s, true) := guardBytes_grant hslots
  have hp : s.guardPage who off true 1 = (s, true) := guardPage_grant hpage
  simp [State.writeReaches, hs, hp, hstop, hkind, hhere, hdead]

theorem exec_winRouteWrite_undefined {who : Requester} {p r : Nat} {w : Word}
    (hgrant : s.granted who (State.offOf (pgWIN p) WIN_ROUTE.KIND (p % 128)) 4 = true) (hbad : s.winUndefined p = some r) :
    exec (.winRouteWrite who p w) s = .fault (.undefinedResult r) := by
  show execWinRouteWrite who p w s = _
  simp [execWinRouteWrite, hbad, writeReaches_of_granted hgrant]

/-- R128: a read of the shared window whose end is beyond the region, when its turn comes. -/
theorem exec_ingressOrderPass_undefined {p n : Nat} {k : Packet} (hp : p < 64) (hrun : s.cellarRun (cellarOf p) = true)
    (hhead : s.ingressHead p 1 = some k) (hplace : k.place = .ingress) (hkind : k.tlp.kind = .mrd) (hroute : k.route = .shared n)
    (hfab : k.fab = none) (hgood : k.bad = false) (hcell : k.acc.getLastD 0 + 30 ≤ s.fabric) (hposted : s.earlierPosted k.ini k.id = false)
    (hclean : (s.port p).cleanup = false) (hfatal : s.devFatal = false) (hstandby : s.standby = false) (hhdm : s.hdmPast k = false)
    (hend : s.regionBase 1 + s.regionSize 1 < n + max 1 k.tlp.len) : exec (.ingressOrderPass p 1) s = .fault (.undefinedResult 128) := by
  have hing : k.ing = p := by
    have h := List.find?_some hhead
    simp only [Bool.and_eq_true, beq_iff_eq] at h
    exact h.1.2
  have hwr : isWrite k.tlp = false := by simp [isWrite, hkind]
  have hearly : ∀ a l, k.acc = a :: l → ¬ s.fabric < l.getLast?.getD a + 30 := fun a l h => by
    rw [h, List.getLastD_cons, List.getLastD_eq_getLast?] at hcell; omega
  have hkey : s.mirrorWaits k = none := by simp [State.mirrorWaits, State.mirroredKey, hwr]
  have hfrt : s.frtTake k = some (s, k) := by simp [State.frtTake, hfab]
  have hpass : s.passRoute k = (s, some 128) := by simp [State.passRoute, hroute, hhdm, hend]
  have hbar : s.barAhead k = false := by simp [State.barAhead, hroute]
  have hans : (s.ingressPass k).2 = some 128 := by
    unfold State.ingressPass
    cases hacc : k.acc with
    | nil =>
      simp [hplace, hroute, hposted, hbar, hfab, hgood, hing, hclean, hfatal, hstandby, State.brokenWrite, hwr, hkey, hfrt, hpass]
    | cons a l =>
      simp [hplace, hroute, hearly a l hacc, hposted, hbar, hfab, hgood, hing, hclean, hfatal, hstandby, State.brokenWrite, hwr, hkey, hfrt,
        hpass]
  show execIngressOrderPass p 1 s = _
  simp only [execIngressOrderPass, hp, if_true, hrun, hhead, Bool.true_eq_false, if_false, accessEnd]
  split
  · next hsome => rw [hsome] at hans; rw [Option.some.inj hans]
  · next hnone => rw [hnone] at hans; cases hans

/-- The register of a channel's settings, DMA_CHCFG. -/
def chcfg : RegDef := ⟨0x400, 4, 256, false, 0x1F4004, [fd 31 31 .rws, fd 30 30 .rws, fd 20 16 .rws, fr 14 10 .rws 1 16, fr 8 0 .rws 0 256]⟩

theorem findReg_chcfg : ∀ i < 256, findReg (allRegs .dma) (0x400 + 4 * i) = some (chcfg, i) := by decide +kernel

theorem pageKind_pgDMA : ∀ c < 4, pageKind (pgDMA c) = some .dma := by decide +kernel

theorem regFor_chcfg {c : Nat} (hc : c < 1024) :
    s.regFor (State.offOf (pgDMA (c / 256)) DMA_CHCFG.STAGE (c % 256)) = some (pgDMA (c / 256), .dma, chcfg, c % 256) := by
  have hin : DMA_CHCFG.STAGE.off + DMA_CHCFG.STAGE.stride * (c % 256) < 4096 := by simp only [DMA_CHCFG.STAGE]; omega
  obtain ⟨hpg, hoff⟩ := fkey_page (pgDMA (c / 256)) DMA_CHCFG.STAGE (c % 256) hin
  have hkind := pageKind_pgDMA (c / 256) (by omega)
  have hfind : findReg (allRegs .dma) (DMA_CHCFG.STAGE.off + DMA_CHCFG.STAGE.stride * (c % 256)) = some (chcfg, c % 256) :=
    findReg_chcfg (c % 256) (by omega)
  simp [State.regFor, State.offOf, hpg, hoff, hkind, State.pagePresent, hfind]

/-- Four enabled bytes from a register's offset are one 4 B write. -/
theorem busWrite_word {a : Nat} {b0 b1 b2 b3 : Byte} (hgrant : s.granted .mgmt a 4 = true) (ha : a < 0x800000) (h4 : a % 4 = 0) :
    s.busWrite .mgmt a [some b0, some b1, some b2, some b3] = s.write4 .mgmt a (leNat [b0, b1, b2, b3]) := by
  simp only [State.granted, State.pageLive, Bool.and_eq_true, Bool.not_eq_true'] at hgrant
  obtain ⟨⟨-, hpage⟩, ⟨hkind, -⟩, hdead⟩ := hgrant
  have hp : s.guardPage .mgmt a true 1 = (s, true) := guardPage_grant hpage
  have hn : (pageKind (a / 4096)).isNone = false := by cases h : pageKind (a / 4096) <;> simp_all
  have haa : a / 4 * 4 = a := by omega
  simp [State.busWrite, State.tenantMay, ha, hp, hn, hdead, h4, haa, chunks, State.wholeWord]

theorem writeUndefined_chcfg {c v : Nat} (hc : c < 1024) (hseal : s.pageSealed (pgDMA (c / 256)) = false) (hbusy : s.chState c ≠ 0)
    (hnew : s.getF (pgDMA (c / 256)) DMA_CHCFG.STAGE (c % 256) ≠ v % 512) (hmax : v % 512 ≤ 256) :
    s.writeUndefined (pgDMA (c / 256)) .dma chcfg (c % 256) (BitVec.ofNat 64 v) = some 454 := by
  have hpg : pgDMA (c / 256) / 256 - 1 = c / 256 := by simp only [pgDMA, celPage, pageIx]; omega
  have hch : 256 * (c / 256) + c % 256 = c := by omega
  have hv : bitsOf (BitVec.ofNat 64 v) 8 0 = v % 512 := by simp [bitsOf]
  have hkey : pgDMA (c / 256) * 4096 + 0x400 + 4 * (c % 256) = State.fkey (pgDMA (c / 256)) DMA_CHCFG.STAGE (c % 256) := rfl
  have hdiff : ∀ old, bitsOf old 8 0 ≠ v % 512 → regAfter chcfg.flds false old (BitVec.ofNat 64 v) ≠ old := fun old hold h => by
    have hbits := congrArg (bitsOf · 8 0) h
    simp only [regAfter, chcfg, List.foldl, fd, fr, fieldAfter, ruleAdmits, hv] at hbits
    rw [bitsOf_bitsPut_self _ _ (by decide)] at hbits
    simp [hmax] at hbits
    exact hold hbits.symm
  simp only [chcfg] at hdiff
  unfold State.writeUndefined
  simp only [hseal, chcfg, hkey, hpg, hch, reduceCtorEq, false_and, if_false]
  rw [if_neg (hdiff _ hnew)]
  simp [hbusy]

/-- R454: STAGE changes on a channel that is not IDLE. -/
theorem exec_registerWrite_chcfg_undefined {c : Nat} {d : Dword} (hc : c < 1024)
    (hgrant : s.grants .mgmt (pgDMA (c / 256)) DMA_CHCFG.STAGE (c % 256) = true) (hseal : s.pageSealed (pgDMA (c / 256)) = false)
    (hbusy : s.chState c ≠ 0) (hnew : s.getF (pgDMA (c / 256)) DMA_CHCFG.STAGE (c % 256) ≠ d.toNat % 512) (hmax : d.toNat % 512 ≤ 256) :
    exec (.registerWrite .mgmt (State.offOf (pgDMA (c / 256)) DMA_CHCFG.STAGE (c % 256)) false 0xF d) s = .fault (.undefinedResult 454) := by
  have hstop : s.writesStopped .mgmt = false := by
    simp only [State.grants, State.granted, Bool.and_eq_true, Bool.not_eq_true'] at hgrant
    exact hgrant.1.1.1
  have hoff : State.offOf (pgDMA (c / 256)) DMA_CHCFG.STAGE (c % 256) = 4096 * (256 * (c / 256 + 1) + 0x40) + 0x400 + 4 * (c % 256) := by
    simp only [State.offOf, State.fkey, pgDMA, celPage, pageIx, DMA_CHCFG.STAGE]; omega
  generalize hv : leNat [BitVec.ofNat 8 d.toNat, BitVec.ofNat 8 (d.toNat / 256), BitVec.ofNat 8 (d.toNat / 65536),
    BitVec.ofNat 8 (d.toNat / 16777216)] = v
  have hmod : v % 512 = d.toNat % 512 := by subst hv; simp [leNat]; omega
  have hword : s.busWrite .mgmt (State.offOf (pgDMA (c / 256)) DMA_CHCFG.STAGE (c % 256)) [some (BitVec.ofNat 8 d.toNat),
      some (BitVec.ofNat 8 (d.toNat / 256)), some (BitVec.ofNat 8 (d.toNat / 65536)), some (BitVec.ofNat 8 (d.toNat / 16777216))] =
      s.write4 .mgmt (State.offOf (pgDMA (c / 256)) DMA_CHCFG.STAGE (c % 256)) v :=
    hv ▸ busWrite_word hgrant (by rw [hoff]; omega) (by rw [hoff]; omega)
  have hput : s.write4 .mgmt (State.offOf (pgDMA (c / 256)) DMA_CHCFG.STAGE (c % 256)) v = (s, some 454) := by
    simp only [State.write4, State.wordOf, regFor_chcfg hc]
    simp only [chcfg, reduceCtorEq, false_and, if_false, Bool.false_eq_true, Option.elim, State.putReg]
    rw [← hmod] at hnew hmax
    have hund := writeUndefined_chcfg hc hseal hbusy hnew hmax
    simp only [chcfg] at hund
    rw [hund]
  show execRegisterWrite .mgmt _ false 0xF d s = _
  simp only [execRegisterWrite, hstop, Bool.false_eq_true, if_false, State.guardBytes, Bool.not_true]
  have hbytes : ((List.range 4).map fun i => if (0xF : Nat).testBit i then some (BitVec.ofNat 8 (d.toNat / 256 ^ i)) else none) =
      [some (BitVec.ofNat 8 d.toNat), some (BitVec.ofNat 8 (d.toNat / 256)), some (BitVec.ofNat 8 (d.toNat / 65536)),
        some (BitVec.ofNat 8 (d.toNat / 16777216))] := by
    simp [List.range, List.range.loop, Nat.testBit, Nat.shiftRight_eq_div_pow]
  rw [hbytes, hword, hput]
  rfl

/-- Settles O9: each of them stops by the test that stands before its effect. -/
theorem undefinedResultsStop : Obligations.UndefinedResultsStop := by
  intro s who a f v p c r n en d k h tlp va vb ms ok ptm x info w _
  refine ⟨exec_armedSwap_undefined, exec_fallbackSwap_undefined, fun hffl hact hbad => ?_, exec_plannerPass_undefined,
    exec_slotSample_undefined, fun hbad => ⟨?_, fun hsrc => ?_⟩, exec_traceRecordWrite_undefined, fun hstep hbad => ?_,
    exec_winRouteWrite_undefined, fun hon hclash => ?_, exec_registerWrite_chcfg_undefined, exec_ingressOrderPass_undefined⟩
  · show execFabricPacketReceive p h tlp s = _
    simp [execFabricPacketReceive, hffl, hact, hbad]
  · show execTimeSample ptm s = _
    simp [execTimeSample, hbad]
  · show execPtmInterval s = _
    simp [execPtmInterval, hsrc, hbad]
  · show execBootStepDone info s = _
    simp [execBootStepDone, hstep, hbad]
  · show execVfEnableChange p en n s = _
    simp [execVfEnableChange, hon, hclash]

end Sys2Proof.Answers
end

section
/-! ## Registers and commands: what later parts share -/

namespace Sys2Proof.Support

open Sys2Proof Sys2Proof.Machine Sys2Proof.Laws

/-! ### A write that reaches its register -/

section
variable {s t : State}

/-- A change of registers alone leaves every other component. -/
theorem of_onlyRegs {β : Type} (h : s.OnlyRegs t) (g : State → β) : g { t with regs := s.regs, latches := s.latches } = g s :=
  congrArg g h

/-- A granted write of a register whose access latches nothing runs on the state itself. -/
theorem withAccess_narrow {who : Requester} {page : Nat} {f : FRef} {i len : Nat} (g : State → State)
    (h : s.grants who page f i len = true) (hk : s.latchKey (State.offOf page f i) = none) :
    s.withAccess who (State.offOf page f i) len true g = g s := by
  rw [grants_iff g h, State.touchAt, hk]

/-- A register of 4 bytes on a page other than the counters' latches nothing. -/
theorem latchKey_narrow {page i : Nat} {f : FRef} {r : RegDef × Nat} (ho : f.off + f.stride * i < 4096)
    (hr : regAt page (f.off + f.stride * i) = some r) (hw : r.1.wide = false) (hc : r.1.off ≠ PMU_CTR.COUNT.off) :
    s.latchKey (State.offOf page f i) = none := by
  have hp : State.offOf page f i / 4096 = page ∧ State.offOf page f i % 4096 = f.off + f.stride * i := fkey_page page f i ho
  simp [State.latchKey, hp.1, hp.2, hr, hw, hc]

end

/-! ### Registers written in a list -/

section
variable {α : Type} {l : List α} {f : State → α → State}

/-- Under what every element keeps, what one element of a list brings about, and none undoes, holds after the list. -/
theorem each_reaches_of {I P : State → Prop} (hinv : ∀ t, ∀ x ∈ l, I t → I (f t x)) (hkeep : ∀ t, ∀ x ∈ l, I t → P t → P (f t x)) (s : State) :
    I s → (P s ∨ ∃ x ∈ l, ∀ t, I t → P (f t x)) → P (s.each l f) := by
  induction l generalizing s with
  | nil => exact fun _ h => h.elim id fun ⟨_, hx, _⟩ => absurd hx List.not_mem_nil
  | cons x r ih =>
    intro hs h
    refine ih (fun t y hy => hinv t y (List.mem_cons_of_mem _ hy)) (fun t y hy => hkeep t y (List.mem_cons_of_mem _ hy)) (f s x)
      (hinv s x List.mem_cons_self hs) ?_
    rcases h with h | ⟨y, hy, h⟩
    · exact .inl (hkeep s x List.mem_cons_self hs h)
    · rcases List.mem_cons.1 hy with rfl | hy
      · exact .inl (h s hs)
      · exact .inr ⟨y, hy, h⟩

/-- What one element of a list brings about, and none undoes, holds after the list. -/
theorem each_reaches {P : State → Prop} (hkeep : ∀ t, ∀ x ∈ l, P t → P (f t x)) (s : State) (h : P s ∨ ∃ x ∈ l, ∀ t, P (f t x)) :
    P (s.each l f) :=
  each_reaches_of (I := fun _ => True) (fun _ _ _ _ => trivial) (fun t x hx _ => hkeep t x hx) s trivial
    (h.imp id fun ⟨x, hx, h⟩ => ⟨x, hx, fun t _ => h t⟩)

/-- What each element of a list leaves as it is, the list does. -/
theorem each_eq {β : Type} (g : State → β) (hkeep : ∀ t, ∀ x ∈ l, g (f t x) = g t) (s : State) : g (s.each l f) = g s := by
  induction l generalizing s with
  | nil => rfl
  | cons x r ih => exact (ih (fun t y hy => hkeep t y (List.mem_cons_of_mem _ hy)) (f s x)).trans (hkeep s x List.mem_cons_self)

end

@[simp] theorem onlyIf_true (s : State) (f : State → State) : s.onlyIf true f = f s := rfl
@[simp] theorem onlyIf_false (s : State) (f : State → State) : s.onlyIf false f = s := rfl

/-- Writing 0 to some bits leaves at 0 a field that is 0. -/
theorem bitsOf_bitsPut_zero {v : Dword} {hi lo hi' lo' : Nat} (h : bitsOf v hi' lo' = 0) : bitsOf (bitsPut v hi lo 0) hi' lo' = 0 := by
  apply Nat.eq_of_testBit_eq
  intro i
  have hi := congrArg (·.testBit i) h
  simp only [testBit_bitsOf, getLsbD_bitsPut, Nat.zero_testBit] at hi ⊢
  split
  · simp
  · exact hi

theorem getF_setF_zero {s : State} {pg pg' : Nat} {f f' : FRef} {i i' : Nat} (h : s.getF pg' f' i' = 0) :
    (s.setF pg f 0 i).getF pg' f' i' = 0 := by
  rw [State.getF, reg_setF]
  split
  · rename_i hk
    exact bitsOf_bitsPut_zero (hk ▸ h)
  · exact h

/-! ### Writes of HBM -/

/-- A write of HBM changes nothing else. -/
theorem hbmWrite_eq (s : State) (a : Nat) (l : List (Option Byte)) : s.hbmWrite a l = { s with hbm := (s.hbmWrite a l).hbm } := by
  induction l generalizing s a with
  | nil => rfl
  | cons b r ih =>
    cases b with
    | none => exact ih s (a + 1)
    | some b => exact (ih (s.setHbm a b) (a + 1)).trans rfl

/-- What a write makes of HBM depends on HBM alone. -/
theorem hbm_hbmWrite_congr {s t : State} (h : s.hbm = t.hbm) (a : Nat) (l : List (Option Byte)) : (s.hbmWrite a l).hbm = (t.hbmWrite a l).hbm := by
  induction l generalizing s t a with
  | nil => exact h
  | cons b r ih =>
    cases b with
    | none => exact ih h (a + 1)
    | some b => exact ih (by simp [State.setHbm, h]) (a + 1)

/-! ### Interrupts, counters and messages to a host -/

/-- Nothing but registers, messages that leave and pending interrupts changes. -/
def Quiet (s t : State) : Prop := { t with regs := s.regs, out := s.out, heldOut := s.heldOut, parts := s.parts } = s

theorem Quiet.refl (s : State) : Quiet s s := rfl

theorem Quiet.trans {a b c : State} (h : Quiet a b) (g : Quiet b c) : Quiet a c :=
  (congrArg (fun x : State => ({ x with regs := a.regs, out := a.out, heldOut := a.heldOut, parts := a.parts } : State)) g).trans h

theorem Quiet.onlyIf {s : State} {b : Bool} {f : State → State} (h : Quiet s (f s)) : Quiet s (s.onlyIf b f) := by
  cases b
  · exact .refl s
  · exact h

theorem Quiet.each {α : Type} {l : List α} {f : State → α → State} (hf : ∀ t, ∀ x ∈ l, Quiet t (f t x)) (s : State) : Quiet s (s.each l f) := by
  induction l generalizing s with
  | nil => exact .refl s
  | cons x r ih => exact (hf s x List.mem_cons_self).trans (ih (fun t y hy => hf t y (List.mem_cons_of_mem _ hy)) _)

/-- What does not look at those parts is as before. -/
theorem Quiet.eq {s t : State} (h : Quiet s t) {β : Type} (g : State → β) :
    g { t with regs := s.regs, out := s.out, heldOut := s.heldOut, parts := s.parts } = g s := congrArg g h

theorem quiet_setF (s : State) (pg : Nat) (f : FRef) (v i : Nat) : Quiet s (s.setF pg f v i) := rfl

theorem quiet_emitHost (s : State) (k : Nat) (l : List Output) : Quiet s (s.emitHost k l) := by
  unfold State.emitHost
  repeat' split
  all_goals rfl

theorem quiet_sendMsix (s : State) (k v : Nat) : Quiet s (s.sendMsix k v) := by
  unfold State.sendMsix
  repeat' split
  · exact .refl s
  · rfl
  · exact quiet_emitHost s k _

theorem quiet_unpend (s : State) (k v : Nat) : Quiet s (s.unpend k v) := by
  unfold State.unpend
  dsimp only
  split <;> rfl

theorem quiet_raiseInt (s : State) (pg b : Nat) : Quiet s (s.raiseInt pg b) := by
  unfold State.raiseInt State.withIntPend
  simp only
  split
  · exact (quiet_setF ..).trans (quiet_sendMsix ..)
  split
  · exact (quiet_setF ..).trans (quiet_unpend ..)
  · exact quiet_setF ..

/-- An interrupt bit changes the page's INT_CAUSE alone, to its bits and those raised. -/
theorem reg_raiseInt (s : State) (pg b k : Nat) :
    (s.raiseInt pg b).reg k = (s.setF pg INT_CAUSE.BITS (s.getF pg INT_CAUSE.BITS ||| b)).reg k := by
  unfold State.raiseInt State.withIntPend
  simp only
  split
  · exact reg_sendMsix _ _ _ _
  split
  · exact reg_unpend _ _ _ _
  · rfl

theorem reg_raiseInt_other (s : State) (pg b : Nat) {k : Nat} (h : k % 4096 ≠ INT_CAUSE.BITS.off) : (s.raiseInt pg b).reg k = s.reg k := by
  rw [reg_raiseInt, reg_setF, if_neg]
  rintro rfl
  exact h (fkey_page pg INT_CAUSE.BITS 0 (by decide)).2

theorem quiet_pmuOverflow (s : State) (c j : Nat) : Quiet s (s.pmuOverflow c j) := (quiet_setF ..).trans (quiet_raiseInt ..)

theorem quiet_pmuAdd (s : State) (c j n : Nat) : Quiet s (s.pmuAdd c j n) := by
  unfold State.pmuAdd
  dsimp only
  repeat' split
  · exact quiet_setF ..
  · exact (quiet_setF ..).trans (quiet_setF ..)
  · exact ((quiet_setF ..).trans (quiet_setF ..)).trans (quiet_pmuOverflow ..)
  · exact (quiet_setF ..).trans (quiet_pmuOverflow ..)

theorem quiet_count (s : State) (c code port tc n : Nat) : Quiet s (s.count c code port tc n) := by
  unfold State.count
  split
  · exact .refl s
  · refine .each (fun t j _ => ?_) s
    extract_lets pf tm usesPort usesTc hitP hitT
    split
    · exact quiet_pmuAdd t c j n
    · exact .refl t

theorem reg_pmuOverflow (s : State) (c j : Nat) {k : Nat} (h : k / 4096 ≠ pgPMUC c) : (s.pmuOverflow c j).reg k = s.reg k := by
  unfold State.pmuOverflow
  rw [reg_raiseInt, reg_setF, if_neg, reg_setF, if_neg]
  · rintro rfl; exact h (fkey_page (pgPMUC c) PMU_OVF.OVF 0 (by decide)).1
  · rintro rfl; exact h (fkey_page (pgPMUC c) INT_CAUSE.BITS 0 (by decide)).1

theorem reg_pmuAdd (s : State) (c j n : Nat) (hj : j < 32) {k : Nat} (h : k / 4096 ≠ pgPMUC c) : (s.pmuAdd c j n).reg k = s.reg k := by
  have hset : ∀ (t : State) v, ∀ i < 33, (t.setF (pgPMUC c) PMU_CTR.COUNT v i).reg k = t.reg k := fun t v i hi => by
    rw [reg_setF, if_neg]
    rintro rfl
    exact h (fkey_page (pgPMUC c) PMU_CTR.COUNT i (by simp only [PMU_CTR.COUNT]; omega)).1
  unfold State.pmuAdd
  dsimp only
  repeat' split
  · exact hset s _ j (by omega)
  · exact (hset _ _ (j + 1) (by omega)).trans (hset s _ j (by omega))
  · exact (reg_pmuOverflow _ _ _ h).trans ((hset _ _ (j + 1) (by omega)).trans (hset s _ j (by omega)))
  · exact (reg_pmuOverflow _ _ _ h).trans (hset s _ j (by omega))

/-- An event changes only its Cellar's counter page. -/
theorem reg_count (s : State) (c code port tc n : Nat) {k : Nat} (h : k / 4096 ≠ pgPMUC c) : (s.count c code port tc n).reg k = s.reg k := by
  unfold State.count
  split
  · rfl
  · refine reg_each _ (fun t j hj => ?_) s
    extract_lets pf tm usesPort usesTc hitP hitT
    split
    · exact reg_pmuAdd t c j n (List.mem_range.1 hj) h
    · rfl

/-! ### The end of a command's cycle -/

theorem done_closed {t : State} (hf : t.firing = []) (hc : t.SamplesClosed) : t.done = .next t := by
  rw [State.done, settle_nil hf, sweepTrace_closed hc]

/-- `done_eq` for a state written in another way. -/
theorem done_eq_of_eq {s t u : State} (h : s.Inv) (hu : u = t) (h0 : t.firing = s.firing) (h1 : t.trace = s.trace)
    (h2 : t.packets = s.packets) (h3 : t.swb = s.swb) : u.done = .next t :=
  (congrArg State.done hu).trans (done_eq h h0 h1 h2 h3)

/-- A command that leaves no firing and changes no packet, and whose open samples were there before, ends in exactly the state it made. -/
theorem done_eq_of_subset {s t : State} (h : s.Inv) (hf : t.firing = s.firing) (ht : ∀ r ∈ t.trace, r.out = none → r ∈ s.trace)
    (hp : t.packets = s.packets) (hw : t.swb = s.swb) : t.done = .next t := by
  refine done_closed (hf.trans h.quiet) fun r hr ho => ?_
  have := h.closed r (ht r hr ho) ho
  simpa [State.sampleHeld, hp, hw] using this

/-- What the end of the cycle makes of a state. -/
theorem done_next (t : State) : t.done = .next t.settle.sweepTrace := rfl

theorem reg_closed {k : Nat} (hk : Apart k) (t : State) : t.settle.sweepTrace.reg k = t.reg k := settle_reg hk t

theorem getF_closed {pg i : Nat} {f : FRef} (hk : Apart (State.fkey pg f i)) (t : State) : t.settle.sweepTrace.getF pg f i = t.getF pg f i := by
  rw [State.getF, State.getF, reg_closed hk]

/-- A register that the collector leaves, by its page and its offset. -/
theorem apart_fkey {pg i : Nat} {f : FRef} (ho : f.off + f.stride * i < 4096) (hflt : pg ≠ pgFLT) (hc : f.off + f.stride * i ≠ FLT_CAUSE.BITS.off)
    (hd : pageKind pg ≠ some .dmac) : Apart (State.fkey pg f i) := by
  obtain ⟨h1, h2⟩ := fkey_page pg f i ho
  exact ⟨by rwa [h1], by rwa [h2], by rwa [h1]⟩

/-- A source that fired and is not masked has its FLT_CAUSE bit once the cycle is over. -/
theorem fltSet_closed {t : State} {f : Firing} (hf : f ∈ t.firing) (hm : t.fltMasked f.src = false) (hd : f.src ≠ pgFLT * 32 + 2) :
    t.settle.sweepTrace.fltSet f.src = true := settle_fltSet hf hm hd

theorem trace_closed_id {t : State} {r : TraceRec} (h : r ∈ t.settle.sweepTrace.trace) : ∃ x ∈ t.trace, x.id = r.id := by
  obtain ⟨x, hx, rfl⟩ := List.mem_map.1 h
  refine ⟨x, settle_trace t ▸ hx, ?_⟩
  split <;> rfl

/-- A saturating count after it is raised. -/
theorem getF_addF_self (s : State) (pg : Nat) (f : FRef) (n i : Nat) (h : f.hi < 64) :
    (s.addF pg f n i).getF pg f i = satAdd (State.fmax f) (s.getF pg f i) n := by
  refine (getF_setF_self _ _ _ _ _ h).trans (Nat.mod_eq_of_lt ?_)
  have := Nat.two_pow_pos (f.hi + 1 - f.lo)
  simp only [satAdd, State.fmax]
  omega

theorem getF_of_reg {s t : State} {pg i : Nat} {f : FRef} (h : t.reg (State.fkey pg f i) = s.reg (State.fkey pg f i)) :
    t.getF pg f i = s.getF pg f i := congrArg (bitsOf · f.hi f.lo) h

/-- FLT_MASK of a page is none of the registers that the page's own list names. -/
theorem fkey_mask_ne {pg pg' i : Nat} {f : FRef} (h : 0x80 ≤ f.off) (ho : f.off + f.stride * i < 4096) :
    State.fkey pg' FLT_MASK.BITS 0 ≠ State.fkey pg f i := by
  have hm : FLT_MASK.BITS.off = 0x44 ∧ FLT_MASK.BITS.stride = 0 := ⟨rfl, rfl⟩
  simp only [State.fkey, hm.1, hm.2]
  generalize f.stride * i = a at *
  omega

theorem fltMasked_of_reg {s t : State} {src : Nat}
    (h : t.reg (State.fkey (src / 32) FLT_MASK.BITS 0) = s.reg (State.fkey (src / 32) FLT_MASK.BITS 0)) : t.fltMasked src = s.fltMasked src :=
  congrArg (bitAt · (src % 32)) (getF_of_reg h)

end Sys2Proof.Support
end

section
/-! ## Counters, snapshots and accounts (O56) -/

namespace Sys2Proof.Counters

open Sys2Proof Sys2Proof.Machine Sys2Proof.Laws Sys2Proof.Support

/-! ### A write of a counter -/

section
variable {s : State} {c j : Nat} {v : Dword}

theorem onlyRegs_pmuWrite (wide : Bool) : s.OnlyRegs (s.pmuWrite c j wide v) := by
  cases wide <;> rfl

theorem getF_ctr_pmuWrite_narrow : (s.pmuWrite c j false v).getF (pgPMUC c) PMU_CTR.COUNT j = v.toNat % 2 ^ 32 := by
  simp [State.pmuWrite, getF_setF_self, PMU_CTR.COUNT]

theorem getF_ctr_pmuWrite_other {i : Nat} (h : i ≠ j) :
    (s.pmuWrite c j false v).getF (pgPMUC c) PMU_CTR.COUNT i = s.getF (pgPMUC c) PMU_CTR.COUNT i := by
  refine getF_setF_other _ _ _ _ _ _ _ _ (.inl ?_)
  simp only [State.fkey, PMU_CTR.COUNT]
  omega

theorem getF_ctr_pmuWrite_wide : (s.pmuWrite c j true v).getF (pgPMUC c) PMU_CTR.COUNT j = v.toNat % 2 ^ 32 ∧
    (s.pmuWrite c j true v).getF (pgPMUC c) PMU_CTR.COUNT (j + 1) = v.toNat / 2 ^ 32 := by
  constructor
  · refine (getF_setF_other _ _ _ _ _ _ _ _ (.inl ?_)).trans getF_ctr_pmuWrite_narrow
    simp only [State.fkey, PMU_CTR.COUNT]
    omega
  · refine (getF_setF_self _ _ _ _ _ (by decide)).trans (Nat.mod_eq_of_lt ?_)
    exact Nat.div_lt_of_lt_mul v.isLt

theorem getF_touchAt {who : Requester} {off pg i : Nat} {f : FRef} : (s.touchAt who off).getF pg f i = s.getF pg f i := by
  simp [State.getF]

theorem exec_pmuCounterWrite {who : Requester} {wide : Bool} (hinv : s.Inv) (hc : c < 4) (hj : j < 32) (hw : wide = true → j % 2 = 0)
    (h : s.grants who (pgPMUC c) PMU_CTR.COUNT j (if wide then 8 else 4) = true) :
    exec (.pmuCounterWrite who c j wide v) s = .next ((s.touchAt who (State.offOf (pgPMUC c) PMU_CTR.COUNT j)).pmuWrite c j wide v) ∧
      s.OnlyRegs ((s.touchAt who (State.offOf (pgPMUC c) PMU_CTR.COUNT j)).pmuWrite c j wide v) := by
  have hregs : s.OnlyRegs ((s.touchAt who (State.offOf (pgPMUC c) PMU_CTR.COUNT j)).pmuWrite c j wide v) :=
    OnlyRegs.trans (onlyRegs_touchAt ..) (onlyRegs_pmuWrite wide)
  have hn : ¬ (4 ≤ c ∨ 32 ≤ j ∨ (wide = true ∧ j % 2 = 1)) := by
    rintro (h | h | ⟨h, h'⟩)
    · omega
    · omega
    · have := hw h
      omega
  refine ⟨?_, hregs⟩
  show execPmuCounterWrite who c j wide v s = _
  rw [execPmuCounterWrite, if_neg hn, grants_iff _ h, done_regs hinv hregs]

end

/-! ### A write of a selection -/

section
variable {s : State} {c j : Nat}

/-- The definition of PMU_EVT. -/
def evtDef : RegDef := ⟨0x180, 4, 32, false, 0x1F0000, [fd 31 31 .rw, fd 20 16 .rw, fd 15 8 .rw, fd 7 0 .rw]⟩

theorem regAt_evt : ∀ c < 4, ∀ j < 32, regAt (pgPMUC c) (0x180 + 4 * j) = some (evtDef, j) := by decide +kernel

/-- Every field of PMU_EVT takes what is written. -/
theorem plainWriteF_evt (hc : c < 4) (hj : j < 32) (v : Dword) :
    s.plainWriteF (pgPMUC c) PMU_EVT.EVENT v j = s.setReg (State.fkey (pgPMUC c) PMU_EVT.EVENT j)
      (regAfter evtDef.flds (s.pageSealed (pgPMUC c)) (s.reg (State.fkey (pgPMUC c) PMU_EVT.EVENT j)) v) := by
  have hr : regAt (pgPMUC c) (PMU_EVT.EVENT.off + PMU_EVT.EVENT.stride * j) = some (evtDef, j) := regAt_evt c hc j hj
  have hp : State.fkey (pgPMUC c) PMU_EVT.EVENT j / 4096 = pgPMUC c :=
    (fkey_page _ _ _ (by simp only [PMU_EVT.EVENT]; omega)).1
  have hx : ∀ o n, changesRws evtDef.flds o n = false := fun _ _ => rfl
  simp only [State.plainWriteF, hr, State.plainWrite, hp, hx, Bool.and_false]
  rfl

theorem bitsOf_regAfter_evt (locked : Bool) (old new : Dword) :
    bitsOf (regAfter evtDef.flds locked old new) 7 0 = bitsOf new 7 0 ∧ bitsOf (regAfter evtDef.flds locked old new) 15 8 = bitsOf new 15 8 ∧
    bitsOf (regAfter evtDef.flds locked old new) 31 31 = bitsOf new 31 31 := by
  have e : regAfter evtDef.flds locked old new =
      bitsPut (bitsPut (bitsPut (bitsPut old 31 31 (bitsOf new 31 31)) 20 16 (bitsOf new 20 16)) 15 8 (bitsOf new 15 8)) 7 0 (bitsOf new 7 0) := rfl
  rw [e]
  refine ⟨?_, ?_, ?_⟩
  · rw [bitsOf_bitsPut_self _ _ (by decide)]
    simp [bitsOf]
  · rw [bitsOf_bitsPut_other _ _ (by decide), bitsOf_bitsPut_self _ _ (by decide)]
    simp [bitsOf]
  · rw [bitsOf_bitsPut_other _ _ (by decide), bitsOf_bitsPut_other _ _ (by decide), bitsOf_bitsPut_other _ _ (by decide),
      bitsOf_bitsPut_self _ _ (by decide)]
    simp [bitsOf]

/-- What a counter counts in this tick, from the selections written in it and the register. -/
def selected (evts : List (Nat × Dword)) (key : Nat) (v : Dword) (f : FRef) : Nat :=
  match evts.find? fun e => e.1 == key with
  | some e => bitsOf e.2 f.hi f.lo
  | none => bitsOf v f.hi f.lo

theorem evtNow_eq (f : FRef) (hf : State.fkey (pgPMUC c) f j = State.fkey (pgPMUC c) PMU_EVT.EVENT j) :
    s.evtNow c j f = selected s.edge.evts (State.fkey (pgPMUC c) PMU_EVT.EVENT j) (s.reg (State.fkey (pgPMUC c) PMU_EVT.EVENT j)) f := by
  cases hfind : s.edge.evts.find? fun e => e.1 == State.fkey (pgPMUC c) PMU_EVT.EVENT j <;>
  · simp only [State.evtNow, selected, State.getF, hf, hfind]

/-- The selection of this tick stands before the write, and no later write of the tick changes it (R593). -/
theorem find_noteEvt : ∃ e : Nat × Dword, (s.noteEvt c j).edge.evts.find? (fun e => e.1 == State.fkey (pgPMUC c) PMU_EVT.EVENT j) = some e ∧
    ∀ f : FRef, bitsOf e.2 f.hi f.lo = selected s.edge.evts (State.fkey (pgPMUC c) PMU_EVT.EVENT j) (s.reg (State.fkey (pgPMUC c) PMU_EVT.EVENT j)) f := by
  cases hfind : s.edge.evts.find? fun e => e.1 == State.fkey (pgPMUC c) PMU_EVT.EVENT j with
  | some e =>
    have hany : s.edge.evts.any (fun e : Nat × Dword => e.1 == State.fkey (pgPMUC c) PMU_EVT.EVENT j) = true :=
      List.any_eq_true.2 ⟨e, List.mem_of_find?_eq_some hfind, List.find?_some (p := fun e : Nat × Dword => e.1 == State.fkey (pgPMUC c) PMU_EVT.EVENT j) hfind⟩
    exact ⟨e, by simp [State.noteEvt, hany, hfind], fun f => by simp [selected, hfind]⟩
  | none =>
    have hany : s.edge.evts.any (fun e : Nat × Dword => e.1 == State.fkey (pgPMUC c) PMU_EVT.EVENT j) = false :=
      List.any_eq_false.2 (List.find?_eq_none.1 hfind)
    exact ⟨(State.fkey (pgPMUC c) PMU_EVT.EVENT j, s.reg (State.fkey (pgPMUC c) PMU_EVT.EVENT j)),
      by simp [State.noteEvt, hany, hfind], fun f => by simp [selected, hfind]⟩

/-- The register after a write of a selection. -/
theorem evtWrite_eq (hc : c < 4) (hj : j < 32) (v : Dword) : ∃ x y, s.evtWrite c j v = { s.noteEvt c j with regs := x } ∧
    (s.evtWrite c j v).reg (State.fkey (pgPMUC c) PMU_EVT.EVENT j) = y ∧
    bitsOf y 7 0 = bitsOf v 7 0 ∧ bitsOf y 15 8 = bitsOf v 15 8 ∧ bitsOf y 31 31 = (if j % 2 = 0 then 0 else bitsOf v 31 31) := by
  obtain ⟨he, htc, hch⟩ := bitsOf_regAfter_evt ((s.noteEvt c j).pageSealed (pgPMUC c))
    ((s.noteEvt c j).reg (State.fkey (pgPMUC c) PMU_EVT.EVENT j)) v
  unfold State.evtWrite
  rw [plainWriteF_evt hc hj]
  cases hb : j % 2 == 0 with
  | true =>
    have h0 : j % 2 = 0 := of_decide_eq_true hb
    have hk : State.fkey (pgPMUC c) PMU_EVT.CHAIN j = State.fkey (pgPMUC c) PMU_EVT.EVENT j := rfl
    refine ⟨_, _, rfl, rfl, ?_⟩
    rw [onlyIf_true, reg_setF, if_pos hk.symm, hk, reg_setReg, if_pos rfl, if_pos h0]
    exact ⟨(bitsOf_bitsPut_other _ _ (by decide)).trans he, (bitsOf_bitsPut_other _ _ (by decide)).trans htc,
      (bitsOf_bitsPut_self _ _ (by decide)).trans rfl⟩
  | false =>
    have h1 : ¬ j % 2 = 0 := of_decide_eq_false hb
    refine ⟨_, _, rfl, rfl, ?_⟩
    rw [onlyIf_false, reg_setReg, if_pos rfl, if_neg h1]
    exact ⟨he, htc, hch⟩

theorem noteEvt_edge : ∃ x, s.noteEvt c j = { s with edge := x } := by
  by_cases h : s.edge.evts.any (·.1 == State.fkey (pgPMUC c) PMU_EVT.EVENT j) = true
  · exact ⟨s.edge, by simp only [State.noteEvt, h, if_true]⟩
  · exact ⟨_, by simp only [State.noteEvt, h]; rfl⟩

theorem bitsOf_zeroExtend (w : Word) (hi lo : Nat) : bitsOf (w.zeroExtend 64) hi lo = (w.toNat >>> lo) % 2 ^ (hi + 1 - lo) := by
  simp only [bitsOf, BitVec.truncate_eq_setWidth, BitVec.toNat_setWidth]
  rw [Nat.mod_eq_of_lt (Nat.lt_of_lt_of_le w.isLt (by decide))]

theorem exec_pmuEvtWrite {who : Requester} {w : Word} (hinv : s.Inv) (hc : c < 4) (hj : j < 32)
    (h : s.grants who (pgPMUC c) PMU_EVT.EVENT j = true) : ∃ t, exec (.pmuEvtWrite who c j w) s = .next t ∧
      t.getF (pgPMUC c) PMU_EVT.EVENT j = w.toNat % 256 ∧ t.getF (pgPMUC c) PMU_EVT.TCMASK j = w.toNat / 256 % 256 ∧
      t.flag (pgPMUC c) PMU_EVT.CHAIN j = (w.toNat.testBit 31 && j % 2 == 1) ∧
      (∀ f ∈ [PMU_EVT.EVENT, PMU_EVT.TCMASK, PMU_EVT.PORT], t.evtNow c j f = s.evtNow c j f) ∧ t.packets = s.packets ∧ t.hbm = s.hbm := by
  have hkey : s.latchKey (State.offOf (pgPMUC c) PMU_EVT.EVENT j) = none :=
    latchKey_narrow (by simp only [PMU_EVT.EVENT]; omega) (regAt_evt c hc j hj) rfl (show (0x180 : Nat) ≠ 0x100 by decide)
  obtain ⟨x, y, heq, hy, hev, htc, hch⟩ := evtWrite_eq (s := s) hc hj (w.zeroExtend 64)
  obtain ⟨g, hg⟩ := noteEvt_edge (s := s) (c := c) (j := j)
  have hall : s.evtWrite c j (w.zeroExtend 64) = { s with edge := g, regs := x } := by rw [heq, hg]
  have hn : ¬ (4 ≤ c ∨ 32 ≤ j) := by omega
  refine ⟨s.evtWrite c j (w.zeroExtend 64), ?_, ?_, ?_, ?_, ?_, ?_, ?_⟩
  · show execPmuEvtWrite who c j w s = _
    rw [execPmuEvtWrite, if_neg hn, withAccess_narrow _ h hkey]
    rw [hall]
    exact done_eq hinv rfl rfl rfl rfl
  · refine (congrArg (bitsOf · 7 0) hy).trans (hev.trans ?_)
    rw [bitsOf_zeroExtend]
    rfl
  · refine (congrArg (bitsOf · 15 8) hy).trans (htc.trans ?_)
    rw [bitsOf_zeroExtend, Nat.shiftRight_eq_div_pow]
    rfl
  · have hc31 : (s.evtWrite c j (w.zeroExtend 64)).getF (pgPMUC c) PMU_EVT.CHAIN j = _ := (congrArg (bitsOf · 31 31) hy).trans hch
    rw [State.flag, hc31, bitsOf_zeroExtend]
    rcases Nat.mod_two_eq_zero_or_one j with h2 | h2
    · simp [h2]
    · simp [h2, Nat.testBit_eq_decide_div_mod_eq, Nat.shiftRight_eq_div_pow, beq_eq_decide]
  · obtain ⟨e, hfind, hbits⟩ := find_noteEvt (s := s) (c := c) (j := j)
    intro f hf
    have hkf : State.fkey (pgPMUC c) f j = State.fkey (pgPMUC c) PMU_EVT.EVENT j := by
      simp only [List.mem_cons, List.not_mem_nil, or_false] at hf
      rcases hf with rfl | rfl | rfl <;> rfl
    rw [evtNow_eq f hkf, evtNow_eq f hkf, ← hbits f]
    have hedge : (s.evtWrite c j (w.zeroExtend 64)).edge.evts = (s.noteEvt c j).edge.evts := by rw [heq]
    simp [selected, hedge, hfind]
  · rw [hall]
  · rw [hall]

end

/-! ### Snapshots -/

section
variable {s : State} {c : Nat}

theorem exec_pmuGsnapGo {who : Requester} (hinv : s.Inv) (hc : c < 4) (h : s.grants who (pgPMUC c) PMU_GSNAP.GO = true) (hnone : s.snapAt = none) :
    exec (.pmuGsnapGo who c) s = .next { s with snapAt := some (s.ticks + 16) } := by
  have hreg : ∀ c < 4, regAt (pgPMUC c) 0x800 = some (⟨0x800, 0, 1, false, 0x0, [fd 31 31 .wo]⟩, 0) := by decide +kernel
  have hkey : s.latchKey (State.offOf (pgPMUC c) PMU_GSNAP.GO 0) = none :=
    latchKey_narrow (by decide) (hreg c hc) rfl (by decide)
  show execPmuGsnapGo who c s = _
  rw [execPmuGsnapGo, if_neg (by omega), withAccess_narrow _ h hkey]
  simp only [hnone, Option.isSome_none, Bool.false_eq_true, if_false]
  exact done_eq hinv rfl rfl rfl rfl

theorem onlyRegs_snapCellar : s.OnlyRegs (s.snapCellar c) :=
  OnlyRegs.trans (onlyRegs_each _ (fun t _ => onlyRegs_setF t ..) s)
    (onlyRegs_each _ (fun t _ => onlyRegs_each _ (fun u _ => onlyRegs_setF u ..) t) _)

/-- The copy of a Cellar writes its shadow counters, in page 0x60, and the shadows of its accounts, in pages 0x62 and 0x63. -/
theorem reg_snapCellar {k : Nat} (h1 : ∀ j < 32, k ≠ State.fkey (pgPMUC c) PMU_SCTR.COUNT j) (h2 : ∀ p < 16, k / 4096 ≠ pgPMUA c p) :
    (s.snapCellar c).reg k = s.reg k := by
  refine (reg_each _ (fun t p hp => reg_each _ (fun u f hf => ?_) t) _).trans (reg_each _ (fun t j hj => ?_) s)
  · rw [reg_setF, if_neg]
    rintro rfl
    refine h2 p (List.mem_range.1 hp) (fkey_page _ _ _ ?_).1
    have hf8 : f.2 < 8 := List.snd_lt_of_mem_zipIdx hf
    have : p % 8 < 8 := Nat.mod_lt _ (by decide)
    simp only [PMU_SA_SHADOW.COUNT]
    omega
  · rw [reg_setF, if_neg (h1 j (List.mem_range.1 hj))]

/-- A register of a counter page but the shadow counters of that Cellar. -/
theorem getF_snapCellar {d i : Nat} {f : FRef} (ho : f.off + f.stride * i < 4096)
    (h : d ≠ c ∨ ∀ j < 32, f.off + f.stride * i ≠ PMU_SCTR.COUNT.off + PMU_SCTR.COUNT.stride * j) :
    (s.snapCellar c).getF (pgPMUC d) f i = s.getF (pgPMUC d) f i := by
  refine congrArg (bitsOf · f.hi f.lo) (reg_snapCellar (fun j hj => ?_) fun p hp => ?_)
  · simp only [State.fkey, pgPMUC, celPage, pageIx, PMU_SCTR.COUNT] at h ⊢
    rcases h with h | h
    · omega
    · have := h j hj
      omega
  · rw [(fkey_page (pgPMUC d) f i ho).1]
    simp only [pgPMUC, pgPMUA, celPage, pageIx]
    omega

/-- The shadow counters hold what the counters held. -/
theorem getF_sctr_snapCellar {j : Nat} (hj : j < 32) : (s.snapCellar c).getF (pgPMUC c) PMU_SCTR.COUNT j = s.getF (pgPMUC c) PMU_CTR.COUNT j := by
  have hctr : ∀ (t : State) (i v : Nat), i < 32 → (t.setF (pgPMUC c) PMU_SCTR.COUNT v i).getF (pgPMUC c) PMU_CTR.COUNT j =
      t.getF (pgPMUC c) PMU_CTR.COUNT j := fun t i v hi =>
    getF_setF_other _ _ _ _ _ _ _ _ (.inl (by simp only [State.fkey, PMU_CTR.COUNT, PMU_SCTR.COUNT]; omega))
  have hself : ∀ t : State, t.getF (pgPMUC c) PMU_CTR.COUNT j = s.getF (pgPMUC c) PMU_CTR.COUNT j →
      (t.setF (pgPMUC c) PMU_SCTR.COUNT (t.getF (pgPMUC c) PMU_CTR.COUNT j) j).getF (pgPMUC c) PMU_SCTR.COUNT j =
        s.getF (pgPMUC c) PMU_CTR.COUNT j := by
    intro t ht
    rw [getF_setF_self _ _ _ _ _ (by decide), ht]
    exact Nat.mod_eq_of_lt (Nat.mod_lt _ (Nat.two_pow_pos _))
  have hother : ∀ (t : State) (i v : Nat), i ≠ j → (t.setF (pgPMUC c) PMU_SCTR.COUNT v i).getF (pgPMUC c) PMU_SCTR.COUNT j =
      t.getF (pgPMUC c) PMU_SCTR.COUNT j := fun t i v hi =>
    getF_setF_other _ _ _ _ _ _ _ _ (.inl (by simp only [State.fkey, PMU_SCTR.COUNT]; omega))
  unfold State.snapCellar
  refine (congrArg (bitsOf · 31 0) (reg_each _ (fun t p hp => reg_each _ (fun u f hf => ?_) t) _)).trans
    (each_reaches_of (I := fun t => t.getF (pgPMUC c) PMU_CTR.COUNT j = s.getF (pgPMUC c) PMU_CTR.COUNT j)
      (P := fun t => t.getF (pgPMUC c) PMU_SCTR.COUNT j = s.getF (pgPMUC c) PMU_CTR.COUNT j)
      (fun t i hi ht => (hctr t i _ (List.mem_range.1 hi)).trans ht) (fun t i _ hI hP => ?_) s rfl
      (.inr ⟨j, List.mem_range.2 hj, hself⟩))
  · have hp' := List.mem_range.1 hp
    rw [reg_setF, if_neg]
    have hf8 : f.2 < 8 := List.snd_lt_of_mem_zipIdx hf
    simp only [State.fkey, pgPMUC, pgPMUA, celPage, pageIx, PMU_SCTR.COUNT, PMU_SA_SHADOW.COUNT]
    omega
  · by_cases hij : i = j
    · exact hij ▸ hself t hI
    · exact (hother t i _ hij).trans hP

/-- The snapshot of the Cellars in RUN leaves the registers that no copy writes. -/
theorem getF_each_snapCellar {l : List Nat} {d i : Nat} {f : FRef} (ho : f.off + f.stride * i < 4096)
    (h : d ∉ l ∨ ∀ j < 32, f.off + f.stride * i ≠ PMU_SCTR.COUNT.off + PMU_SCTR.COUNT.stride * j) :
    (s.each l fun t c => t.snapCellar c).getF (pgPMUC d) f i = s.getF (pgPMUC d) f i :=
  each_eq (fun t => t.getF (pgPMUC d) f i)
    (fun _ _ hx => getF_snapCellar ho (h.imp (fun h e => h (e ▸ hx)) id)) s

theorem getF_sctr_each_snapCellar {l : List Nat} {j : Nat} (hc : c ∈ l) (hj : j < 32) :
    (s.each l fun t c => t.snapCellar c).getF (pgPMUC c) PMU_SCTR.COUNT j = s.getF (pgPMUC c) PMU_CTR.COUNT j := by
  have hctr : ∀ (t : State) (d : Nat), (t.snapCellar d).getF (pgPMUC c) PMU_CTR.COUNT j = t.getF (pgPMUC c) PMU_CTR.COUNT j := fun t d =>
    getF_snapCellar (by simp only [PMU_CTR.COUNT]; omega) (.inr fun i _ => by simp only [PMU_CTR.COUNT, PMU_SCTR.COUNT]; omega)
  refine each_reaches_of (I := fun t => t.getF (pgPMUC c) PMU_CTR.COUNT j = s.getF (pgPMUC c) PMU_CTR.COUNT j)
    (P := fun t => t.getF (pgPMUC c) PMU_SCTR.COUNT j = s.getF (pgPMUC c) PMU_CTR.COUNT j)
    (fun t d _ ht => (hctr t d).trans ht) (fun t d _ hI hP => ?_) s rfl
    (.inr ⟨c, hc, fun t ht => (getF_sctr_snapCellar hj).trans ht⟩)
  by_cases hd : c = d
  · subst hd
    exact (getF_sctr_snapCellar hj).trans hI
  · exact (getF_snapCellar (by simp only [PMU_SCTR.COUNT]; omega) (.inl hd)).trans hP

/-- The Cellars' copies of a snapshot. -/
def copied (s : State) : State := s.each ((List.range 4).filter fun c => s.cellarRun c) fun t c => t.snapCellar c

/-- The registers that a snapshot writes. -/
def snapRegs (s : State) : State :=
  ((copied s).setF pgDEVPMU PMU_SNAP_T.TIME s.fabric).setF pgDEVPMU PMU_SNAP_SEQ.SEQ ((s.getF pgDEVPMU PMU_SNAP_SEQ.SEQ + 1) % 2 ^ 32)

theorem onlyRegs_snapRegs : s.OnlyRegs (snapRegs s) :=
  OnlyRegs.trans (OnlyRegs.trans (onlyRegs_each _ (fun _ _ => onlyRegs_snapCellar) s) (onlyRegs_setF ..)) (onlyRegs_setF ..)

theorem exec_pmuSnapshotTick {t0 : Nat} (hinv : s.Inv) (hat : s.snapAt = some t0) (hdue : t0 ≤ s.ticks) :
    exec .pmuSnapshotTick s = .next { snapRegs s with snapAt := none } := by
  have hf : ∀ {β : Type} (g : State → β), g { snapRegs s with regs := s.regs, latches := s.latches } = g s := of_onlyRegs onlyRegs_snapRegs
  have hd : ({ snapRegs s with snapAt := none } : State).done = .next { snapRegs s with snapAt := none } :=
    done_eq hinv (hf State.firing) (hf State.trace) (hf State.packets) (hf State.swb)
  show execPmuSnapshotTick s = _
  simp only [execPmuSnapshotTick, hat, if_neg (Nat.not_lt.2 hdue)]
  exact hd

theorem getF_snapRegs_pmuc {i : Nat} {f : FRef} (ho : f.off + f.stride * i < 4096) :
    (snapRegs s).getF (pgPMUC c) f i = (copied s).getF (pgPMUC c) f i := by
  have hkey : ∀ g : FRef, g.off < 4096 → g.stride = 0 → State.fkey (pgPMUC c) f i ≠ State.fkey pgDEVPMU g 0 := by
    intro g hg hs
    simp only [State.fkey, pgPMUC, celPage, pageIx, pgDEVPMU, hs]
    omega
  unfold snapRegs
  rw [getF_setF_other _ pgDEVPMU (pgPMUC c) PMU_SNAP_SEQ.SEQ f _ 0 i (.inl (hkey _ (by decide) rfl)),
    getF_setF_other _ pgDEVPMU (pgPMUC c) PMU_SNAP_T.TIME f _ 0 i (.inl (hkey _ (by decide) rfl))]

theorem getF_snapRegs_time : (snapRegs s).getF pgDEVPMU PMU_SNAP_T.TIME = s.fabric % 2 ^ 64 := by
  unfold snapRegs
  rw [getF_setF_other _ pgDEVPMU pgDEVPMU PMU_SNAP_SEQ.SEQ PMU_SNAP_T.TIME _ 0 0 (.inl (by decide)), getF_setF_self _ _ _ _ _ (by decide)]
  rfl

theorem getF_snapRegs_seq : (snapRegs s).getF pgDEVPMU PMU_SNAP_SEQ.SEQ = (s.getF pgDEVPMU PMU_SNAP_SEQ.SEQ + 1) % 2 ^ 32 := by
  unfold snapRegs
  rw [getF_setF_self _ _ _ _ _ (by decide)]
  exact Nat.mod_mod _ _

theorem mem_running (hc : c < 4) : c ∈ (List.range 4).filter (fun c => s.cellarRun c) ↔ s.cellarRun c = true := by
  simp [hc]

end

/-! ### Accounts -/

section
variable {s : State} {c half ports : Nat}

theorem mem_clrDue_saClear {i : Nat} (hi : i < 8) (h : bitAt ports i = true) : 16 * c + 8 * half + i ∈ (s.saClear c half ports).edge.clrDue := by
  by_cases hm : 16 * c + 8 * half + i ∈ s.edge.clrDue
  · exact List.mem_append_left _ hm
  · refine List.mem_append_right _ (List.mem_filter.2 ⟨List.mem_map.2 ⟨i, List.mem_filter.2 ⟨List.mem_range.2 hi, h⟩, rfl⟩, ?_⟩)
    simpa using hm

/-- The tick clears the accounts of the ports named, and nothing sets them again. -/
theorem getF_pmuTick_of_mem {p : Nat} {f : FRef} (h : p ∈ s.edge.clrDue) (hf : f ∈ State.saFields) :
    s.pmuTick.getF (pgPMUA (cellarOf p) (p % 16)) f (p % 8) = 0 := by
  have hhi : ∀ g ∈ State.saFields, g.hi < 64 := by decide
  have hset : ∀ u : State, (u.setF (pgPMUA (cellarOf p) (p % 16)) f 0 (p % 8)).getF (pgPMUA (cellarOf p) (p % 16)) f (p % 8) = 0 := fun u => by
    rw [getF_setF_self _ _ _ _ _ (hhi f hf), Nat.zero_mod]
  have hkeep : ∀ (u : State) (q : Nat) (g : FRef), u.getF (pgPMUA (cellarOf p) (p % 16)) f (p % 8) = 0 →
      (u.setF (pgPMUA (cellarOf q) (q % 16)) g 0 (q % 8)).getF (pgPMUA (cellarOf p) (p % 16)) f (p % 8) = 0 := fun u q g => getF_setF_zero
  unfold State.pmuTick
  refine each_reaches (P := fun t => t.getF (pgPMUA (cellarOf p) (p % 16)) f (p % 8) = 0) (fun t x _ ht => ?_) _ (.inr ⟨p, h, fun t => ?_⟩)
  · exact each_reaches (P := fun t => t.getF (pgPMUA (cellarOf p) (p % 16)) f (p % 8) = 0) (fun u g _ => hkeep u x g) t (.inl ht)
  · exact each_reaches (P := fun t => t.getF (pgPMUA (cellarOf p) (p % 16)) f (p % 8) = 0) (fun u g _ => hkeep u p g) t (.inr ⟨f, hf, hset⟩)

theorem exec_pmuSaClr {who : Requester} (hinv : s.Inv) (hc : c < 4) (hh : half < 2) (h : s.grants who (pgPMUA c (8 * half)) PMU_SA_CLR.CLR = true) :
    exec (.pmuSaClr who c half ports) s = .next (s.saClear c half ports) := by
  have hreg : ∀ c < 4, ∀ h < 2, regAt (pgPMUA c (8 * h)) 0x80 = some (⟨0x80, 0, 1, false, 0x0, [fd 7 0 .wo]⟩, 0) := by decide +kernel
  have hkey : s.latchKey (State.offOf (pgPMUA c (8 * half)) PMU_SA_CLR.CLR 0) = none :=
    latchKey_narrow (by decide) (hreg c hc half hh) rfl (show (0x80 : Nat) ≠ 0x100 by decide)
  show execPmuSaClr who c half ports s = _
  rw [execPmuSaClr, if_neg (by omega), withAccess_narrow _ h hkey]
  exact done_eq hinv rfl rfl rfl rfl

end

/-- Settles O56: each command writes the registers that its clause names, and a snapshot or an account is found by its page. -/
theorem countersSnapshotsAndAccounts : Obligations.CountersSnapshotsAndAccounts := by
  intro s who c j t0 half ports v w hinv hc hj
  refine ⟨fun h => ?_, fun h heven => ?_, exec_pmuEvtWrite hinv hc hj, exec_pmuGsnapGo hinv hc, fun hat hdue => ?_, fun hh h => ?_⟩
  · obtain ⟨hexec, hregs⟩ := exec_pmuCounterWrite (v := v) (wide := false) hinv hc hj (fun h => nomatch h) h
    exact ⟨_, hexec, getF_ctr_pmuWrite_narrow, fun i _ hne => (getF_ctr_pmuWrite_other hne).trans getF_touchAt, hregs⟩
  · obtain ⟨hexec, hregs⟩ := exec_pmuCounterWrite (v := v) (wide := true) hinv hc hj (fun _ => heven) h
    exact ⟨_, hexec, getF_ctr_pmuWrite_wide.1, getF_ctr_pmuWrite_wide.2, hregs⟩
  · have hf : ∀ {β : Type} (g : State → β), g { snapRegs s with regs := s.regs, latches := s.latches } = g s := of_onlyRegs onlyRegs_snapRegs
    refine ⟨_, exec_pmuSnapshotTick hinv hat hdue, rfl, getF_snapRegs_time, getF_snapRegs_seq, fun hrun => ?_, fun hrun => ?_,
      hf State.packets, hf State.hbm⟩
    · exact (getF_snapRegs_pmuc (by simp only [PMU_SCTR.COUNT]; omega)).trans (getF_sctr_each_snapCellar ((mem_running hc).2 hrun) hj)
    · refine (getF_snapRegs_pmuc (by simp only [PMU_SCTR.COUNT]; omega)).trans
        (getF_each_snapCellar (by simp only [PMU_SCTR.COUNT]; omega) (.inl fun hm => ?_))
      rw [(mem_running hc).1 hm] at hrun
      exact nomatch hrun
  · refine ⟨_, exec_pmuSaClr hinv hc hh h, rfl, fun i hi hbit => ⟨mem_clrDue_saClear hi hbit, fun f hf => ?_⟩⟩
    have hp := getF_pmuTick_of_mem (mem_clrDue_saClear (s := s) (c := c) (half := half) hi hbit) hf
    have hcel : cellarOf (16 * c + 8 * half + i) = c := by unfold cellarOf; omega
    have hpage : pgPMUA c ((16 * c + 8 * half + i) % 16) = pgPMUA c (8 * half) := by
      simp only [pgPMUA]
      congr 2
      omega
    have hix : (16 * c + 8 * half + i) % 8 = i := by omega
    rwa [hcel, hpage, hix] at hp

end Sys2Proof.Counters
end

section
/-! ## Trace records and their rings (O57) -/

namespace Sys2Proof.Traces

open Sys2Proof Sys2Proof.Machine Sys2Proof.Laws Sys2Proof.Support

variable {s : State} {c : Nat} {r : TraceRec}

/-- The records that stay when `r` is written. -/
def without (s : State) (r : TraceRec) : State := { s with trace := s.trace.filter fun (x : TraceRec) => decide (x.id ≠ r.id) }

@[simp] theorem getF_without (pg i : Nat) (f : FRef) : (without s r).getF pg f i = s.getF pg f i := rfl
@[simp] theorem ringSize_without : (without s r).ringSize = s.ringSize := rfl
@[simp] theorem ringCount_without : (without s r).ringCount c = s.ringCount c := rfl
@[simp] theorem ringAddr_without (i : Nat) : (without s r).ringAddr c i = s.ringAddr c i := rfl

theorem mem_trace_without {x : TraceRec} : x ∈ (without s r).trace ↔ x ∈ s.trace ∧ x.id ≠ r.id := by
  simp [without]

theorem exec_traceRecordWrite (hnext : s.traceNext c = some r) (hrun : s.cellarRun c = true) (hen : s.flag (pgPMUT c) PMU_RING_CTL.EN = true)
    (hspill : s.spillDue = none) (h0 : s.regionSize 2 ≠ 0) (h256 : s.regionSize 2 % 256 = 0) :
    exec (.traceRecordWrite c) s = ((without s r).ringWrite c r).done := by
  show execTraceRecordWrite c s = _
  simp [execTraceRecordWrite, hnext, hrun, hspill, hen, h0, h256, without]

theorem ringSize_pos (h0 : s.regionSize 2 ≠ 0) (h256 : s.regionSize 2 % 256 = 0) : 1 ≤ s.ringSize := by
  unfold State.ringSize
  omega

theorem pageKind_pgPMUT : ∀ c < 4, pageKind (pgPMUT c) ≠ some .dmac ∧ pgPMUT c ≠ pgFLT := by decide +kernel

/-- A register of a ring that the collector leaves. -/
theorem apart_ring {f : FRef} {i : Nat} (hc : c < 4) (ho : f.off + f.stride * i < 4096) (hf : f.off + f.stride * i ≠ FLT_CAUSE.BITS.off) :
    Apart (State.fkey (pgPMUT c) f i) :=
  apart_fkey ho (pageKind_pgPMUT c hc).2 hf (pageKind_pgPMUT c hc).1

/-! ### A record is written -/

/-- A ring that is not full takes the record at WR. -/
theorem ringWrite_of_room (h1 : 1 ≤ s.ringSize) (hroom : s.ringCount c + 1 < s.ringSize) :
    Quiet (s.hbmWrite (s.ringAddr c (s.getF (pgPMUT c) PMU_RING_WR.WR)) ((traceBytes r).map some)) (s.ringWrite c r) ∧
      (s.ringWrite c r).getF (pgPMUT c) PMU_RING_WR.WR = (s.getF (pgPMUT c) PMU_RING_WR.WR + 1) % s.ringSize % 2 ^ 24 := by
  have hn : max 1 s.ringSize = s.ringSize := max_eq_right h1
  have hfull : decide (s.ringSize ≤ s.ringCount c + 1) = false := decide_eq_false (by omega)
  unfold State.ringWrite
  simp only [hn, hfull, Bool.false_and, Bool.false_eq_true, if_false, onlyIf_false]
  have hset := getF_setF_self (s.hbmWrite (s.ringAddr c (s.getF (pgPMUT c) PMU_RING_WR.WR)) ((traceBytes r).map some)) (pgPMUT c)
    PMU_RING_WR.WR ((s.getF (pgPMUT c) PMU_RING_WR.WR + 1) % s.ringSize) 0 (by decide)
  refine ⟨(quiet_setF ..).trans (.onlyIf (quiet_raiseInt ..)), Eq.trans ?_ hset⟩
  refine getF_of_reg (reg_onlyIf (reg_raiseInt_other _ _ _ ?_))
  rw [(fkey_page (pgPMUT c) PMU_RING_WR.WR 0 (by decide)).2]
  decide

theorem exec_traceRecordWrite_room (hinv : s.Inv) (hnext : s.traceNext c = some r) (hrun : s.cellarRun c = true)
    (hen : s.flag (pgPMUT c) PMU_RING_CTL.EN = true) (hspill : s.spillDue = none) (h0 : s.regionSize 2 ≠ 0) (h256 : s.regionSize 2 % 256 = 0)
    (hroom : s.ringCount c + 1 < s.ringSize) : ∃ t, exec (.traceRecordWrite c) s = .next t ∧ (∀ x ∈ t.trace, x.id ≠ r.id) ∧
      t.getF (pgPMUT c) PMU_RING_WR.WR = (s.getF (pgPMUT c) PMU_RING_WR.WR + 1) % s.ringSize % 2 ^ 24 ∧
      t.hbm = (s.hbmWrite (s.ringAddr c (s.getF (pgPMUT c) PMU_RING_WR.WR)) ((traceBytes r).map some)).hbm ∧ t.packets = s.packets := by
  obtain ⟨hq, hwr⟩ := ringWrite_of_room (s := without s r) (r := r) (c := c) (ringSize_pos h0 h256) hroom
  simp only [getF_without, ringSize_without, ringAddr_without] at hq hwr
  have hwritten : ((without s r).ringWrite c r).hbm =
      ((without s r).hbmWrite (s.ringAddr c (s.getF (pgPMUT c) PMU_RING_WR.WR)) ((traceBytes r).map some)).hbm := hq.eq State.hbm
  rw [hbmWrite_eq] at hq
  have htrace : ((without s r).ringWrite c r).trace = (without s r).trace := hq.eq State.trace
  have hpackets : ((without s r).ringWrite c r).packets = s.packets := hq.eq State.packets
  have hdone : ((without s r).ringWrite c r).done = .next ((without s r).ringWrite c r) :=
    done_eq_of_subset hinv (hq.eq State.firing) (fun x hx _ => (mem_trace_without.1 (htrace ▸ hx)).1) hpackets (hq.eq State.swb)
  have hexec := (exec_traceRecordWrite hnext hrun hen hspill h0 h256).trans hdone
  have hhbm := hbm_hbmWrite_congr (s := without s r) (t := s) rfl (s.ringAddr c (s.getF (pgPMUT c) PMU_RING_WR.WR)) ((traceBytes r).map some)
  refine ⟨_, hexec, fun x hx => ?_, hwr, hwritten.trans hhbm, hpackets⟩
  rw [htrace] at hx
  exact (mem_trace_without.1 hx).2

/-- A full ring that keeps its oldest records counts the new one as lost. -/
theorem ringWrite_of_full (h1 : 1 ≤ s.ringSize) (hfull : s.ringSize ≤ s.ringCount c + 1) (hmode : s.flag (pgPMUT c) PMU_RING_CTL.MODE = true) :
    s.ringWrite c r = (s.addF (pgPMUT c) PMU_RING_LOST.LOST).fire (pgPMUT c) 0 := by
  have hn : max 1 s.ringSize = s.ringSize := max_eq_right h1
  unfold State.ringWrite
  simp only [hn, hfull, hmode, decide_true, Bool.and_self, if_true]

theorem exec_traceRecordWrite_full (hc : c < 4) (hnext : s.traceNext c = some r) (hrun : s.cellarRun c = true)
    (hen : s.flag (pgPMUT c) PMU_RING_CTL.EN = true) (hspill : s.spillDue = none) (h0 : s.regionSize 2 ≠ 0) (h256 : s.regionSize 2 % 256 = 0)
    (hfull : s.ringSize ≤ s.ringCount c + 1) (hmode : s.flag (pgPMUT c) PMU_RING_CTL.MODE = true) :
    ∃ t, exec (.traceRecordWrite c) s = .next t ∧ (∀ x ∈ t.trace, x.id ≠ r.id) ∧ t.hbm = s.hbm ∧
      t.getF (pgPMUT c) PMU_RING_LOST.LOST = satAdd (State.fmax PMU_RING_LOST.LOST) (s.getF (pgPMUT c) PMU_RING_LOST.LOST) 1 := by
  have hwrite := ringWrite_of_full (s := without s r) (r := r) (c := c) (ringSize_pos h0 h256) hfull hmode
  refine ⟨_, (exec_traceRecordWrite hnext hrun hen hspill h0 h256).trans ((congrArg State.done hwrite).trans (done_next _)), fun x hx => ?_, ?_, ?_⟩
  · obtain ⟨y, hy, hid⟩ := trace_closed_id hx
    exact hid ▸ (mem_trace_without.1 hy).2
  · simp [without]
  · exact (getF_closed (apart_ring hc (by decide) (by decide)) _).trans (getF_addF_self (without s r) (pgPMUT c) PMU_RING_LOST.LOST 1 0 (by decide))

/-! ### A sample with no outcome, and RD -/

theorem exec_samplePendingTimeout (hinv : s.Inv)
    (h : s.trace.find? (fun x => x.out.isNone && decide (x.acc + 1000000000 ≤ s.fabric)) = some r) :
    ∃ t x, exec .samplePendingTimeout s = .next t ∧ x ∈ t.trace ∧ x.id = r.id ∧ x.out = some (4, s.fabric, 0xFF) ∧ t.packets = s.packets ∧
      t.regs = s.regs := by
  have hopen : r.out.isNone = true := (Bool.and_eq_true _ _ ▸ List.find?_some h : _ ∧ _).1
  have hdone : (s.traceOut r.id 4 s.fabric 0xFF).done = .next (s.traceOut r.id 4 s.fabric 0xFF) := by
    refine done_eq_of_subset hinv rfl (fun x hx ho => ?_) rfl rfl
    obtain ⟨y, hy, rfl⟩ := List.mem_map.1 hx
    split at ho
    · exact nomatch ho
    · rwa [if_neg ‹_›]
  refine ⟨s.traceOut r.id 4 s.fabric 0xFF, { r with out := some (4, s.fabric, 0xFF) }, ?_,
    List.mem_map.2 ⟨r, List.mem_of_find?_eq_some h, if_pos ⟨rfl, hopen⟩⟩, rfl, rfl, rfl, rfl⟩
  show execSamplePendingTimeout s = _
  rw [execSamplePendingTimeout, h]
  exact hdone

theorem exec_ringRdWrite {who : Requester} {rd : Nat} (hinv : s.Inv) (hc : c < 4) (h : s.grants who (pgPMUT c) PMU_RING_RD.RD = true)
    (hrd : rd < s.ringSize) (hsize : s.ringSize ≤ 2 ^ 24)
    (hunread : (rd + s.ringSize - s.getF (pgPMUT c) PMU_RING_RD.RD % s.ringSize) % s.ringSize ≤ s.ringCount c) :
    exec (.ringRdWrite who c rd) s = .next (s.setF (pgPMUT c) PMU_RING_RD.RD rd) := by
  have hreg : ∀ c < 4, regAt (pgPMUT c) 0x88 = some (⟨0x88, 0, 1, false, 0x0, [⟨23, 0, .rw, .special⟩]⟩, 0) := by decide +kernel
  have hkey : s.latchKey (State.offOf (pgPMUT c) PMU_RING_RD.RD 0) = none :=
    latchKey_narrow (by decide) (hreg c hc) rfl (show (0x88 : Nat) ≠ 0x100 by decide)
  have hn : max 1 s.ringSize = s.ringSize := max_eq_right (by omega)
  have hv : rd % 2 ^ 24 = rd := Nat.mod_eq_of_lt (by omega)
  show execRingRdWrite who c rd s = _
  rw [execRingRdWrite, withAccess_narrow _ h hkey]
  simp only [hn, hv, hrd, hunread, and_self, if_true]
  exact done_regs hinv (onlyRegs_setF ..)

/-- Settles O57: a record goes to its ring or counts as lost, by the room that its ring has. -/
theorem traceRecordsAndRings : Obligations.TraceRecordsAndRings := by
  intro s who c rd r hinv hc
  refine ⟨fun hnext hrun hen hspill h0 h256 => ⟨fun hroom => ?_, fun hfull hmode => ?_⟩, exec_samplePendingTimeout hinv, exec_ringRdWrite hinv hc⟩
  · exact exec_traceRecordWrite_room hinv hnext hrun hen hspill h0 h256 hroom
  · exact exec_traceRecordWrite_full hc hnext hrun hen hspill h0 h256 hfull hmode

end Sys2Proof.Traces
end

section
/-! ## The Cellar Book, the boot flash and attestation (O51, O52, O54) -/

namespace Sys2Proof.Book

open Sys2Proof Sys2Proof.Machine Sys2Proof.Laws Sys2Proof.Support

variable {s : State}

/-! ### A record is made -/

@[simp] theorem length_recInsert (r : List Byte) (l : List (List Byte)) : (recInsert r l).length = l.length + 1 := by
  induction l with
  | nil => rfl
  | cons x l ih => simp only [recInsert]; split <;> simp [ih]

@[simp] theorem length_renumber (n : Nat) (l : List (List Byte)) : (renumber n l).length = l.length := by
  induction l generalizing n with
  | nil => rfl
  | cons x l ih => simp [renumber, ih]

/-- The trust state after a record of a type. -/
structure Recorded (type : Nat) (a b : TrustSt) : Prop where
  held : b.held.length = a.held.length + 1
  att : b.att = a.att
  cpDue : b.cpDue = a.cpDue
  uncovered : type = 0xF → b.uncovered = 0
  since : type = 0xF → b.since = none

/-- Where fewer than 4,096 records wait, one more waits, and BSEQ moves on (R553, R556). -/
theorem bookAdd_of_room (type : Nat) (body : List Byte) (h : s.trust.held.length < 4096) : ∃ x, Recorded type s.trust x ∧
    s.bookAdd type body = ({ s with trust := x } : State).setF pgTRU TRU_BSEQ.NEXT (s.getF pgTRU TRU_BSEQ.NEXT + 1) := by
  unfold State.bookAdd
  rw [if_neg (Nat.not_le.2 h)]
  refine ⟨_, ?_, rfl⟩
  constructor
  · simp only [List.length_append, List.length_take, length_renumber, length_recInsert, List.length_drop]
    omega
  · rfl
  · rfl
  · intro ht
    simp [ht]
  · intro ht
    simp [ht]

theorem getF_bseq (s : State) (n : Nat) : (s.setF pgTRU TRU_BSEQ.NEXT n).getF pgTRU TRU_BSEQ.NEXT = n % 2 ^ 32 :=
  getF_setF_self s pgTRU TRU_BSEQ.NEXT n 0 (by decide)

/-! ### A CHECKPOINT -/

/-- R556: a CHECKPOINT is a record that leaves nothing uncovered. -/
theorem checkpoint_of_room (h : s.trust.held.length < 4096) : ∃ x n m, s.checkpoint =
      ({ s with trust := x, free := n } : State).setF pgTRU TRU_BSEQ.NEXT m ∧ m = s.getF pgTRU TRU_BSEQ.NEXT + 1 ∧
      x.held.length = s.trust.held.length + 1 ∧ x.uncovered = 0 ∧ x.since = none ∧ x.cpDue = none := by
  unfold State.checkpoint
  extract_lets n inDebug body head
  generalize hs : s.signed (head ++ body) = y
  obtain ⟨sig, s0⟩ := y
  have hs0 : s0 = { s with free := s.free + 1 } := (congrArg Prod.snd hs).symm
  obtain ⟨x, hx, heq⟩ := bookAdd_of_room (s := s0) 0xF (body ++ sig) (by rw [hs0]; exact h)
  simp only [heq]
  subst hs0
  refine ⟨{ x with cpDue := none, cpLast := _ }, _, _, rfl, rfl, ?_, ?_, ?_, rfl⟩
  · exact hx.held
  · exact hx.uncovered rfl
  · exact hx.since rfl

/-! ### The Book is answered -/

theorem exec_getNonce (hinv : s.Inv) (hup : s.mgmtUp = true) :
    exec .getNonce s = .next (s.emit (.spdm ([2, 0, 0, 0] ++ leBytes 32 s.trust.nonce))) := by
  show execGetNonce s = _
  rw [execGetNonce, if_pos hup]
  exact done_eq hinv rfl rfl rfl rfl

/-- An SPDM request changes registers, the draws and the IDE keys of a port only. -/
theorem spdmReply_frame (rq : SpdmReq) : (s.spdmReply rq).2.firing = s.firing ∧ (s.spdmReply rq).2.trace = s.trace ∧
    (s.spdmReply rq).2.packets = s.packets ∧ (s.spdmReply rq).2.swb = s.swb := by
  cases rq with
  | measure i body =>
    simp only [State.spdmReply]
    split
    · exact ⟨rfl, rfl, rfl, rfl⟩
    · exact ⟨rfl, rfl, rfl, rfl⟩
  | vendor => exact ⟨rfl, rfl, rfl, rfl⟩
  | other => exact ⟨rfl, rfl, rfl, rfl⟩
  | ide p n act =>
    have hset : ∀ on, s.OnlyRegs (s.ideSet p n on false) := fun on => by
      unfold State.ideSet
      extract_lets pg put
      split <;> rfl
    have hf : ∀ on {β : Type} (g : State → β), g { s.ideSet p n on false with regs := s.regs, latches := s.latches } = g s :=
      fun on => of_onlyRegs (hset on)
    simp only [State.spdmReply, State.ideKm]
    split
    · exact ⟨rfl, rfl, rfl, rfl⟩
    · cases act with
      | program => exact ⟨rfl, rfl, rfl, rfl⟩
      | stop => exact ⟨hf false State.firing, hf false State.trace, hf false State.packets, hf false State.swb⟩
      | go =>
        dsimp only
        split
        · exact ⟨hf true State.firing, hf true State.trace, hf true State.packets, hf true State.swb⟩
        · exact ⟨rfl, rfl, rfl, rfl⟩

theorem exec_spdmRequest (hinv : s.Inv) (hup : s.mgmtUp = true) (rq : SpdmReq) :
    exec (.spdmRequest rq) s = .next ((s.spdmReply rq).2.emit (.spdm (s.spdmReply rq).1)) := by
  obtain ⟨h1, h2, h3, h4⟩ := spdmReply_frame (s := s) rq
  show execSpdmRequest rq s = _
  rw [execSpdmRequest, if_pos hup]
  exact done_eq hinv h1 h2 h3 h4

theorem exec_getBook_covered (hinv : s.Inv) (hup : s.mgmtUp = true) (hcov : s.trust.uncovered = 0) (htaint : s.trust.tainted = false)
    {n start room : Nat} {rs : List (List Byte)} (hrs : rs = (s.bookEntry n).filter (fun x => decide (start ≤ recSeq x))) :
    exec (.getBook n start room) s = .next (s.emit (.spdm ([1, if (State.fitRecs room rs).length < rs.length then 1 else 0, 0, 0] ++
      leBytes 4 (State.fitRecs room rs).length ++ (State.fitRecs room rs).flatten))) := by
  show execGetBook n start room s = _
  have hfree : ({ s with free := s.free + s.trust.tainted.toNat } : State) = s := by rw [htaint]; rfl
  unfold execGetBook
  rw [if_neg (by simp [hup])]
  simp only [if_pos hcov, hfree, ← hrs]
  rw [if_neg (by simp [htaint])]
  exact done_eq hinv rfl rfl rfl rfl

theorem exec_getBook_uncovered (hinv : s.Inv) (hup : s.mgmtUp = true) (hcov : s.trust.uncovered ≠ 0) (hroom : s.trust.held.length < 4096)
    {n start room : Nat} : ∃ t, exec (.getBook n start room) s = .next t ∧ t.trust.uncovered = 0 ∧
      t.trust.held.length = s.trust.held.length + 1 ∧ t.trust.since = none ∧ t.packets = s.packets ∧ t.hbm = s.hbm := by
  obtain ⟨x, f, m, heq, -, hheld, hunc, hsince, -⟩ := checkpoint_of_room hroom
  show ∃ t, execGetBook n start room s = .next t ∧ _
  simp only [execGetBook, hup, Bool.not_true, Bool.false_eq_true, if_false, if_neg hcov, heq]
  exact ⟨_, done_eq hinv rfl rfl rfl rfl, hunc, hheld, hsince, rfl, rfl⟩

theorem exec_checkpointTimer {t0 : Nat} (hinv : s.Inv) (hsince : s.trust.since = some t0)
    (hdue : t0 + s.getF pgTRU TRU_CP_CTL.CP_INT * 10000000 ≤ s.ticks) : exec .checkpointTimer s =
      .next { s with trust := { s.trust with cpDue := some (s.trust.cpDue.getD s.ticks) } } := by
  have heq : exec .checkpointTimer s = s.checkpointDue.done := by
    show execCheckpointTimer s = _
    simp only [execCheckpointTimer, hsince, if_pos hdue]
  exact heq.trans (done_eq hinv rfl rfl rfl rfl)

theorem exec_checkpointMade (hinv : s.Inv) (hdue : s.trust.cpDue.isSome = true) (hroom : s.trust.held.length < 4096) :
    ∃ t, exec .checkpointMade s = .next t ∧ t.trust.cpDue = none ∧ t.trust.uncovered = 0 ∧
      t.getF pgTRU TRU_BSEQ.NEXT = (s.getF pgTRU TRU_BSEQ.NEXT + 1) % 2 ^ 32 ∧ t.trust.held.length = s.trust.held.length + 1 ∧
      t.packets = s.packets := by
  obtain ⟨x, f, m, heq, rfl, hheld, hunc, -, hcp⟩ := checkpoint_of_room hroom
  show ∃ t, execCheckpointMade s = .next t ∧ _
  rw [execCheckpointMade, if_pos hdue, heq]
  exact ⟨_, done_eq hinv rfl rfl rfl rfl, hcp, hunc, getF_bseq _ _, hheld, rfl⟩

/-! ### A held record goes to flash -/

/-- Programming the flash changes nothing else. -/
theorem flashWrite_eq (s : State) (a : Nat) (l : List Byte) : s.flashWrite a l = { s with flash := (s.flashWrite a l).flash } := by
  induction l generalizing s a with
  | nil => rfl
  | cons b r ih => exact (ih { s with flash := storeSet (fun _ => (0xFF : Byte)) s.flash a b } (a + 1)).trans rfl

/-- The flash once the record `r` stands at its place, whose sector is erased first where it begins one (R557). -/
def stored (s : State) (r : List Byte) : State :=
  (if s.bookPlace r.length % 0x10000 = 0 then s.flashErase (s.bookPlace r.length) 0x10000 else s).flashWrite (s.bookPlace r.length) r

theorem stored_eq (r : List Byte) : stored s r = { s with flash := (stored s r).flash } := by
  unfold stored
  split
  · exact flashWrite_eq (s.flashErase (s.bookPlace r.length) 0x10000) _ _
  · exact flashWrite_eq s _ _

theorem bookStore_of_held {r : List Byte} {l : List (List Byte)} (hheld : s.trust.held = r :: l) (hlost : s.trust.lost = 0) :
    s.bookStore = (stored s r).modTrust fun t =>
      { t with held := l, place := s.bookPlace r.length + r.length, fresh := if t.fresh ≤ l.length then t.fresh else 0 } := by
  unfold State.bookStore
  simp only [hheld, hlost, if_true]
  rfl

theorem exec_bookFlashWritten_ok {r : List Byte} {l : List (List Byte)} (hinv : s.Inv) (hheld : s.trust.held = r :: l) (hlost : s.trust.lost = 0) :
    ∃ t, exec (.bookFlashWritten true) s = .next t ∧ t.trust.held = l ∧ t.trust.place = s.bookPlace r.length + r.length ∧ t.regs = s.regs ∧
      t.flash = (stored s r).flash := by
  have hempty : s.trust.held.isEmpty = false := by rw [hheld]; rfl
  show ∃ t, execBookFlashWritten true s = .next t ∧ _
  simp only [execBookFlashWritten, hempty, Bool.false_eq_true, if_false, if_true]
  rw [bookStore_of_held hheld hlost, stored_eq]
  exact ⟨_, done_eq hinv rfl rfl rfl rfl, rfl, rfl, rfl, rfl⟩

theorem exec_bookFlashWritten_failed {r : List Byte} {l : List (List Byte)} (hheld : s.trust.held = r :: l) :
    ∃ t, exec (.bookFlashWritten false) s = .next t ∧ t.trust = s.trust ∧ t.flash = s.flash ∧
      (s.fltMasked (pgTRU * 32 + 1) = false → t.fltSet (pgTRU * 32 + 1) = true) := by
  have hempty : s.trust.held.isEmpty = false := by rw [hheld]; rfl
  show ∃ t, execBookFlashWritten false s = .next t ∧ _
  simp only [execBookFlashWritten, hempty, Bool.false_eq_true, if_false]
  refine ⟨_, done_next _, settle_trust _, settle_flash _, fun hm => ?_⟩
  exact fltSet_closed (f := ⟨pgTRU * 32 + 1, 31, 63, true, false⟩) (List.mem_append_right _ (List.mem_singleton.2 rfl)) hm (by decide)

/-- Settles O51: GET_BOOK covers first what is uncovered, and a record leaves the list of those that wait when it stands in flash. -/
theorem bookIsServedAndStored : Obligations.BookIsServedAndStored := by
  intro s n start room t0 rq r l rs hinv
  refine ⟨fun hup => ⟨exec_getNonce hinv hup, exec_spdmRequest hinv hup rq, fun hcov htaint hrs => exec_getBook_covered hinv hup hcov htaint hrs,
      fun hcov hroom => exec_getBook_uncovered hinv hup hcov hroom⟩, exec_checkpointTimer hinv, exec_checkpointMade hinv,
    fun hheld => ⟨exec_bookFlashWritten_ok hinv hheld, exec_bookFlashWritten_failed hheld⟩⟩

/-! ### The boot flash through the debug port -/

theorem exec_flashprog_unless_failed (hinv : s.Inv) (hfail : s.flag pgTRU TRU_BOOT_STS.BOOT_FAIL = false) (a : Nat) (op : FlashOp) :
    exec (.flashprog a op) s = .next s := by
  show execFlashprog a op s = _
  unfold execFlashprog
  simp only [hfail, Bool.not_false, if_true]
  exact done_eq hinv rfl rfl rfl rfl

theorem exec_flashprog_read (hinv : s.Inv) (hfail : s.flag pgTRU TRU_BOOT_STS.BOOT_FAIL = true) (a n : Nat) :
    exec (.flashprog a (.read n)) s = .next (s.emit (.jtag (leNat (s.flashRead a n)))) := by
  show execFlashprog a (.read n) s = _
  unfold execFlashprog
  simp only [hfail, Bool.not_true, Bool.false_eq_true, if_false]
  exact done_eq hinv rfl rfl rfl rfl

theorem exec_flashprog_erase (hinv : s.Inv) (hfail : s.flag pgTRU TRU_BOOT_STS.BOOT_FAIL = true) (a n : Nat) :
    ∃ t, exec (.flashprog a (.erase n)) s = .next t ∧ t.flash = (s.flashErase a n).flash ∧ t.regs = s.regs ∧ t.out = s.out := by
  show ∃ t, execFlashprog a (.erase n) s = .next t ∧ _
  unfold execFlashprog
  simp only [hfail, Bool.not_true, Bool.false_eq_true, if_false]
  exact ⟨_, done_eq hinv rfl rfl rfl rfl, rfl, rfl, rfl⟩

theorem exec_flashprog_program (hinv : s.Inv) (hfail : s.flag pgTRU TRU_BOOT_STS.BOOT_FAIL = true) {a : Nat} {d : List Byte}
    (hfits : a + d.length ≤ 0x4000000) :
    ∃ t, exec (.flashprog a (.program d)) s = .next t ∧ t.flash = (s.flashWrite a d).flash ∧ t.regs = s.regs ∧ t.out = s.out := by
  show ∃ t, execFlashprog a (.program d) s = .next t ∧ _
  unfold execFlashprog
  simp only [hfail, Bool.not_true, Bool.false_eq_true, if_false]
  rw [if_pos hfits, flashWrite_eq]
  exact ⟨_, done_eq hinv rfl rfl rfl rfl, rfl, rfl, rfl⟩

/-- Settles O52: outside BOOT_FAIL the flash commands do nothing; in it each touches the flash alone. -/
theorem bootFlashAccess : Obligations.BootFlashAccess := by
  intro s a n d b hinv
  refine ⟨?_, fun hfail => exec_flashprog_unless_failed hinv hfail a, fun hfail => ⟨exec_flashprog_read hinv hfail a n, exec_flashprog_erase hinv hfail a n,
    exec_flashprog_program hinv hfail⟩, fun hup => ?_⟩
  · exact done_eq hinv rfl rfl rfl rfl
  · show execMctpReceive b s = _
    rw [execMctpReceive, if_pos hup]
    exact done_eq hinv rfl rfl rfl rfl

/-! ### Attestation -/

theorem getP_setP_self (s : State) (pg : Nat) (f : FRef) (w j v i : Nat) (h : f.hi + w * j < 64) :
    (s.setP pg f w j v i).getP pg f w j i = v % 2 ^ (f.hi + w * j + 1 - (f.lo + w * j)) := by
  unfold State.getP State.setP
  rw [reg_setReg, if_pos rfl, bitsOf_bitsPut_self _ _ h]

theorem attOf_set (t : TrustSt) (p : Nat) (a : AttSt) :
    ({ s with trust := { t with att := storeSet (fun _ => (⟨none, false⟩ : AttSt)) t.att p a } } : State).attOf p = a :=
  storeGet_set_self _ _ _ _

/-- The status of a port's attestation, shown with its record made. -/
theorem getP_attsts_after {p v n : Nat} (hv : v < 4) :
    ((s.setP pgTRU TRU_ATTSTS.STS 2 (p % 16) v (p / 16)).setF pgTRU TRU_BSEQ.NEXT n).getP pgTRU TRU_ATTSTS.STS 2 (p % 16) (p / 16) = v := by
  have hne : State.fkey pgTRU TRU_ATTSTS.STS (p / 16) ≠ State.fkey pgTRU TRU_BSEQ.NEXT 0 := by
    simp only [State.fkey, TRU_ATTSTS.STS, TRU_BSEQ.NEXT]
    omega
  have h := getP_setP_self s pgTRU TRU_ATTSTS.STS 2 (p % 16) v (p / 16) (by simp only [TRU_ATTSTS.STS]; omega)
  unfold State.getP at h ⊢
  rw [reg_setF, if_neg hne, h]
  have hw : TRU_ATTSTS.STS.hi + 2 * (p % 16) + 1 - (TRU_ATTSTS.STS.lo + 2 * (p % 16)) = 2 := by simp only [TRU_ATTSTS.STS]; omega
  rw [hw]
  exact Nat.mod_eq_of_lt hv

/-- The end of an attestation of a downstream port, with room for its record. -/
theorem attEnd_of_room {p code : Nat} {r : Option AttReply} (hp : p < 64) (hffl : s.isFfl p = false) (hroom : s.trust.held.length < 4096) :
    ∃ x n, s.attEnd p code r = State.onlyIf ((({ s with trust := x } : State).setP pgTRU TRU_ATTSTS.STS 2 (p % 16)
        (if code = 0 then 2 else 3) (p / 16)).setF pgTRU TRU_BSEQ.NEXT n) (decide (code ≠ 0)) (fun t => t.fire pgTRU 4 (s.portPart p) p) ∧
      x.held.length = s.trust.held.length + 1 ∧ storeGet (fun _ => (⟨none, false⟩ : AttSt)) x.att p = ⟨(s.attOf p).start, true⟩ := by
  unfold State.attEnd
  simp only [if_pos hp, hffl, Nat.not_le.2 hp, Bool.false_eq_true, or_self, if_false]
  generalize (_ : List Byte) ++ leBytes 48 ((r.map (·.meas)).getD 0) = body
  generalize hs2 : State.setP _ pgTRU TRU_ATTSTS.STS 2 (p % 16) _ (p / 16) = s2
  have hlen : s2.trust.held.length < 4096 := hs2 ▸ hroom
  obtain ⟨x, hx, heq⟩ := bookAdd_of_room (s := s2) 6 body hlen
  simp only [heq]
  refine ⟨x, s2.getF pgTRU TRU_BSEQ.NEXT + 1, ?_, ?_, ?_⟩
  · subst hs2
    rfl
  · subst hs2
    exact hx.held
  · rw [hx.att]
    subst hs2
    exact storeGet_set_self _ _ _ _

theorem attEnd_closed {p code : Nat} {r : Option AttReply} (hp : p < 64) (hffl : s.isFfl p = false) (hroom : s.trust.held.length < 4096) :
    (s.attEnd p code r).settle.sweepTrace.attRuns p = false ∧
    (s.attEnd p code r).settle.sweepTrace.getP pgTRU TRU_ATTSTS.STS 2 (p % 16) (p / 16) = (if code = 0 then 2 else 3) ∧
    (s.attEnd p code r).settle.sweepTrace.trust.held.length = s.trust.held.length + 1 ∧
    (code ≠ 0 → s.fltMasked (pgTRU * 32 + 4) = false → (s.attEnd p code r).settle.sweepTrace.fltSet (pgTRU * 32 + 4) = true) := by
  obtain ⟨x, n, heq, hheld, hatt⟩ := attEnd_of_room (code := code) (r := r) hp hffl hroom
  generalize hu : (({ s with trust := x } : State).setP pgTRU TRU_ATTSTS.STS 2 (p % 16) (if code = 0 then 2 else 3) (p / 16)).setF pgTRU
    TRU_BSEQ.NEXT n = u at heq
  have htrust : (s.attEnd p code r).trust = x := by
    rw [heq, State.onlyIf, ← hu]
    split <;> rfl
  have hregs : (s.attEnd p code r).regs = u.regs := by
    rw [heq, State.onlyIf]
    split <;> rfl
  have hap : Apart (State.fkey pgTRU TRU_ATTSTS.STS (p / 16)) :=
    apart_fkey (by simp only [TRU_ATTSTS.STS]; omega) (by decide) (by simp only [TRU_ATTSTS.STS, FLT_CAUSE.BITS]; omega) (by decide)
  refine ⟨?_, ?_, ?_, fun hcode hm => ?_⟩
  · have hof : (s.attEnd p code r).settle.sweepTrace.attOf p = ⟨(s.attOf p).start, true⟩ := by
      unfold State.attOf at hatt ⊢
      rw [State.sweepTrace_trust, settle_trust, htrust, hatt]
    simp [State.attRuns, hof]
  · have hv : (if code = 0 then 2 else 3) < 4 := by split <;> decide
    refine Eq.trans ?_ (getP_attsts_after (s := { s with trust := x }) (p := p) (n := n) hv)
    unfold State.getP
    rw [reg_closed hap, State.reg, hregs, ← hu]
    rfl
  · rw [State.sweepTrace_trust, settle_trust, htrust, hheld]
  · have hmask : (s.attEnd p code r).fltMasked (pgTRU * 32 + 4) = false := by
      refine (fltMasked_of_reg ?_).trans hm
      rw [State.reg, hregs, ← hu]
      show State.reg (State.setF _ _ _ _ _) _ = _
      rw [reg_setF, if_neg (fkey_mask_ne (f := TRU_BSEQ.NEXT) (i := 0) (by decide) (by decide))]
      refine (reg_setReg _ _ _ _).trans (if_neg (fkey_mask_ne (f := TRU_ATTSTS.STS) (by decide) ?_))
      simp only [TRU_ATTSTS.STS]
      omega
    refine fltSet_closed (f := ⟨pgTRU * 32 + 4, s.portPart p, p, true, false⟩) ?_ hmask (show pgTRU * 32 + 4 ≠ pgFLT * 32 + 2 by decide)
    rw [heq, decide_eq_true hcode, onlyIf_true]
    exact List.mem_append_right _ (List.mem_singleton.2 rfl)

theorem exec_attestOutcome {p : Nat} {r : Option AttReply} (hp : p < 64) (hffl : s.isFfl p = false) (hruns : s.attRuns p = true) :
    exec (.attestOutcome p r) s = (s.attEnd p (s.attOutcome r) r).done := by
  show execAttestOutcome p r s = _
  simp [execAttestOutcome, hruns, hffl, hp]

theorem exec_attestTimeout {p t0 : Nat} (hruns : s.attRuns p = true) (hstart : (s.attOf p).start = some t0)
    (hdue : t0 + s.getF pgTRU TRU_ATT_CTL.ATT_T * 1000000 ≤ s.ticks) : exec (.attestTimeout p) s = (s.attEnd p 4 none).done := by
  show execAttestTimeout p s = _
  simp [execAttestTimeout, hstart, hruns, hdue]

theorem exec_truAttRedo {who : Requester} {p : Nat} (hinv : s.Inv) (hp : p < 64) (hdown : s.isDown p = true)
    (h : s.grants who pgTRU TRU_ATT_REDO.GO = true) (hmode : s.getP pgTRU TRU_ATTMODE.MODE 2 (p % 16) (p / 16) ≠ 0) (hl0 : s.inL0 p = true) :
    exec (.truAttRedo who p) s = .next (s.attStart p) := by
  have hkey : s.latchKey (State.offOf pgTRU TRU_ATT_REDO.GO 0) = none :=
    latchKey_narrow (r := (⟨0x98, 0, 1, false, 0x0, [fd 31 31 .wo, fd 5 0 .wo]⟩, 0)) (by decide) (by decide +kernel) rfl
      (show (0x98 : Nat) ≠ 0x100 by decide)
  show execTruAttRedo who p s = _
  rw [execTruAttRedo, withAccess_narrow _ h hkey, State.attRedo, if_pos (by simp [hdown, hmode, hl0]), State.attStart, if_pos hp]
  exact done_eq hinv rfl rfl rfl rfl

theorem attStart_of_lt {p : Nat} (hp : p < 64) : (s.attStart p).attOf p = ⟨some s.ticks, false⟩ ∧
    (s.attStart p).getP pgTRU TRU_ATTSTS.STS 2 (p % 16) (p / 16) = 1 ∧ (s.attStart p).packets = s.packets := by
  rw [State.attStart, if_pos hp]
  refine ⟨attOf_set (s := s) s.trust p _, ?_, rfl⟩
  rw [getP_setP_self _ _ _ _ _ _ _ (by simp only [TRU_ATTSTS.STS]; omega)]
  have hw : TRU_ATTSTS.STS.hi + 2 * (p % 16) + 1 - (TRU_ATTSTS.STS.lo + 2 * (p % 16)) = 2 := by simp only [TRU_ATTSTS.STS]; omega
  rw [hw]
  rfl

/-- Settles O54: an attestation ends with its record made, its status shown, and a firing where it did not pass. -/
theorem moduleAttestation : Obligations.ModuleAttestation := by
  intro s who p t0 r hinv hp hdown hffl
  refine ⟨fun hruns hroom => ⟨?_, fun hstart hdue => ?_⟩, fun h hmode hl0 => ?_⟩
  · obtain ⟨hend, hsts, hheld, hfire⟩ := attEnd_closed (code := s.attOutcome r) (r := r) hp hffl hroom
    exact ⟨_, (exec_attestOutcome hp hffl hruns).trans (done_next _), hend, hsts, hheld, hfire⟩
  · obtain ⟨hend, hsts, hheld, -⟩ := attEnd_closed (code := 4) (r := none) hp hffl hroom
    exact ⟨_, (exec_attestTimeout hruns hstart hdue).trans (done_next _), hend, hsts, hheld⟩
  · obtain ⟨hatt, hsts, hpackets⟩ := attStart_of_lt (s := s) hp
    exact ⟨_, exec_truAttRedo hinv hp hdown h hmode hl0, by simp [State.attRuns, hatt], by rw [hatt], hsts, hpackets⟩

end Sys2Proof.Book
end

section
/-! ## Messages in CTRL flits (O34) -/

namespace Sys2Proof.Ctrl

open Sys2Proof Sys2Proof.Machine Sys2Proof.Laws Sys2Proof.Support

variable {s : State} {p : Nat}

/-- An FFL port of a switch page is a link of its own. -/
theorem hasLink_of_ffl (hp : p < 64) (hffl : s.isFfl p = true) : s.hasLink p = true := by
  simp [State.hasLink, hp, hffl]

theorem linkActive_of_ffl (hp : p < 64) (hffl : s.isFfl p = true) (hst : s.lkState p = 3) : s.linkActive p = true := by
  simp [State.linkActive, hasLink_of_ffl hp hffl, hst]

theorem getL_of_lt (hp : p < 64) (f : FRef) : s.getL p f = s.getF (pgFFL p) f := by
  simp [State.getL, lkPage, lkRef, hp]

section
variable (s : State) (m : CtrlMsg)
theorem ctrlAdd_firing : (s.ctrlAdd p m).firing = s.firing := rfl
theorem ctrlAdd_trace : (s.ctrlAdd p m).trace = s.trace := rfl
theorem ctrlAdd_packets : (s.ctrlAdd p m).packets = s.packets := rfl
theorem ctrlAdd_swb : (s.ctrlAdd p m).swb = s.swb := rfl
end

theorem exec_fflTimeReqReceive (hinv : s.Inv) (hp : p < 64) (hact : s.linkActive p = true) (t1 acc : Nat) :
    exec (.fflTimeReqReceive p t1 acc) s = .next (s.ctrlAdd p (.timeRsp t1 (acc + 1 - s.fper p) 0)) := by
  show execFflTimeReqReceive p t1 acc s = _
  rw [execFflTimeReqReceive, if_pos hact, if_pos hp]
  exact done_eq hinv rfl rfl rfl rfl

/-- The answer of the port that fabric time follows: the offset of Table 8.8 becomes the sample, and the port keeps it with the delay. -/
theorem exec_fflTimeRspReceive (hinv : s.Inv) (hp : p < 64) (hact : s.linkActive p = true) (hfollow : s.timeFollow p = true)
    (hmember : s.standby = false) (hmode : s.getF pgCLK CLK_TSRC.MODE = 2) (hport : s.getF pgCLK CLK_TSRC.PORT = p) (t1 t2 t3 acc : Nat) :
    ∃ t, exec (.fflTimeRspReceive p t1 t2 t3 acc) s = .next t ∧ { t with timeSample := s.timeSample, ffl := s.ffl } = s ∧
      t.timeSample = some ((((t2 : Int) - t1) - (((acc + 1 - s.fper p : Nat) : Int) - t3)).tdiv 2) ∧
      (t.fflSt p).timeOff = some ((((t2 : Int) - t1) - (((acc + 1 - s.fper p : Nat) : Int) - t3)).tdiv 2,
        ((((acc + 1 - s.fper p : Nat) : Int) - t1) - ((t3 : Int) - t2)).tdiv 2) := by
  show ∃ t, execFflTimeRspReceive p t1 t2 t3 acc s = .next t ∧ _
  unfold execFflTimeRspReceive
  extract_lets t4 off delay follows s1
  have hfol : follows = true := by simp [follows, hp, hmember, hmode, hport]
  have h4 : t4 = acc + 1 - s.fper p := by simp [t4, hp]
  rw [if_pos (by simp [hact, hfollow]), if_pos hfol]
  refine ⟨_, done_eq hinv rfl rfl rfl rfl, rfl, ?_, ?_⟩
  · rw [← h4]
  · rw [← h4]
    exact congrArg FflSt.timeOff (fflSt_modFfl_self s p fun x => { x with timeOff := some (off, delay) })

theorem exec_fflSwaptickReceive {f : FbOp} {cls pp tick v : Nat} (hinv : s.Inv) (hact : s.linkActive p = true)
    (hfb : s.sched.fb = some f) (hev : (cls, p) ∈ f.evs) (hpeer : s.getF (pgFFL p) FFL_PEER.PORT = pp) (hleads : s.leads p = false)
    (hlate : s.fabric + 20000 ≤ tick) (hnew : (v, tick) ∉ (s.fflSt p).swapSeen) : ∃ t, exec (.fflSwaptickReceive p tick v cls pp) s = .next t ∧
      t.sched.fb = some { f with tick := tick } ∧ t.getF pgDEVSCH SCH_FB_T.TIME = tick % 2 ^ 64 ∧ t.packets = s.packets := by
  have hany : (f.evs.any fun e => e.2 == p) = true := List.any_eq_true.2 ⟨_, hev, by simp⟩
  have hseen : ¬ (!s.linkActive p || (s.fflSt p).swapSeen.contains (v, tick)) = true := by simp [hact, hnew]
  show ∃ t, execFflSwaptickReceive p tick v cls pp s = .next t ∧ _
  unfold execFflSwaptickReceive
  rw [if_neg hseen]
  simp only [hfb]
  rw [if_pos ⟨hany, hpeer, hleads, hlate⟩]
  exact ⟨_, done_eq hinv rfl rfl rfl rfl, rfl, getF_setF_self _ pgDEVSCH SCH_FB_T.TIME tick 0 (by decide), rfl⟩

theorem exec_fflMctpReceive (hinv : s.Inv) (hact : s.linkActive p = true) (hup : s.mgmtUp = true) (body : List Byte) :
    exec (.fflMctpReceive p body) s = .next (s.ctrlAdd p (.mctp (Config.firmwareReply body))) := by
  show execFflMctpReceive p body s = _
  rw [execFflMctpReceive, if_pos (by simp [hact, hup])]
  exact done_eq hinv rfl rfl rfl rfl

theorem exec_fflUpkeepTimer (hinv : s.Inv) (hp : p < 64) (hlink : s.hasLink p = true) (hst : s.lkState p = 3)
    (hdue : (s.fflSt p).ctrlAt + 64 * s.getF (pgFFL p) FFL_TMR2.UPKEEP_INT ≤ s.ticks) : exec (.fflUpkeepTimer p) s = .next (s.upkeepDue p) := by
  have hn : ¬ (!s.hasLink p || decide (s.ticks < (s.fflSt p).ctrlAt + 64 * s.getL p FFL_TMR2.UPKEEP_INT)) = true := by
    simp [hlink, getL_of_lt hp, hdue]
  show execFflUpkeepTimer p s = _
  rw [execFflUpkeepTimer, if_neg hn, if_pos hst]
  exact done_eq hinv rfl rfl rfl rfl

theorem exec_fflTimeIntTimer (hinv : s.Inv) (hp : p < 64) (hact : s.linkActive p = true) (hfollow : s.timeFollow p = true)
    (hdue : (s.fflSt p).timeAt + 10000 * s.getF (pgFFL p) FFL_TMR2.TIME_INT ≤ s.ticks) : exec (.fflTimeIntTimer p) s =
      .next ((s.modFfl p fun x => { x with timeAt := s.ticks }).ctrlAdd p (.timeReq 0)) := by
  show execFflTimeIntTimer p s = _
  rw [execFflTimeIntTimer, if_pos (by simp [hact, hfollow, getL_of_lt hp, hdue])]
  exact done_eq hinv (ctrlAdd_firing _ _) (ctrlAdd_trace _ _) (ctrlAdd_packets _ _) (ctrlAdd_swb _ _)

/-- Settles O34: on an ACTIVE FFL port each message changes what it speaks of, and what it answers waits for a CTRL flit. -/
theorem fabricControlMessages : Obligations.FabricControlMessages := by
  intro s p t1 t2 t3 acc tick v cls pp body f hinv hp hffl hst
  have hact : s.linkActive p = true := linkActive_of_ffl hp hffl hst
  refine ⟨exec_fflTimeReqReceive hinv hp hact t1 acc, fun hfollow hmember hmode hport => ?_, fun hfb hev hpeer hleads hlate hnew => ?_,
    fun hup => exec_fflMctpReceive hinv hact hup body, exec_fflUpkeepTimer hinv hp (hasLink_of_ffl hp hffl) hst, exec_fflTimeIntTimer hinv hp hact⟩
  · exact exec_fflTimeRspReceive hinv hp hact hfollow hmember hmode hport t1 t2 t3 acc
  · exact exec_fflSwaptickReceive hinv hact hfb hev hpeer hleads hlate hnew

end Sys2Proof.Ctrl
end

section
/-! ## What the fault collector does, for every relation that its updates keep -/

namespace Sys2Proof.Collector

open Sys2Proof Sys2Proof.Machine Sys2Proof.Laws Sys2Proof.Support

/-- The registers that the collector writes, but for DEVICE_FATAL's own. -/
inductive CollectorField : Nat → FRef → Nat → Prop
  | cause (pg : Nat) : CollectorField pg FLT_CAUSE.BITS 0
  | interrupt (pg : Nat) : CollectorField pg INT_CAUSE.BITS 0
  | channel (ch : Nat) (f : FRef) (h : f = DMA_STS.PENDING ∨ f = DMA_STS.STATE) : CollectorField (pgDMAC (ch / 256) (ch % 256)) f (ch % 32)
  | count (e : Nat) (h : e < 16) : CollectorField pgFLT FLT_CNT.ENTRIES e
  | fault (f : FRef) (h : f ∈ [FLT_STATE.PART_FATAL, FLT_PIN.ASSERTED, FLT_FL_PTR.WR, FLT_FL_DROP.COUNT, FLT_FIRST.VALID, FLT_FIRST.REAL,
      FLT_FIRST.FORCED, FLT_FIRST.ESCALATED, FLT_FIRST.CLASS, FLT_FIRST.PART, FLT_FIRST.SOURCE, FLT_FIRST_T.TIME]) : CollectorField pgFLT f 0

/-- A relation between states that each update of the collector keeps. -/
structure Collects (R : State → State → Prop) : Prop where
  refl : ∀ s, R s s
  trans : ∀ {a b c}, R a b → R b c → R a c
  setF : ∀ s pg f v i, CollectorField pg f i → R s (s.setF pg f v i)
  flt : ∀ (s : State) (x : FltSt), x.late = s.flt.late ∧ x.lees = s.flt.lees → R s { s with flt := x }
  parts : ∀ (s : State) (p : _), R s { s with parts := p }
  host : ∀ (s : State) (k : Nat) (l : List Output), R s (s.emitHost k l)
  handled : ∀ s : State, R s { s with firing := [] }
  fatal : ∀ s : State, R s s.enterDevFatal

namespace Collects

variable {R : State → State → Prop} (hR : Collects R) (s : State)
include hR

theorem onlyIf {s : State} {b : Bool} {f : State → State} (h : R s (f s)) : R s (s.onlyIf b f) := by
  cases b
  · exact hR.refl s
  · exact h

theorem each {α : Type} (l : List α) {f : State → α → State} (hf : ∀ t x, R t (f t x)) (s : State) : R s (s.each l f) := by
  induction l generalizing s with
  | nil => exact hR.refl s
  | cons x r ih => exact hR.trans (hf s x) (ih (f s x))

theorem sendMsix (k v : Nat) : R s (s.sendMsix k v) := by
  unfold State.sendMsix
  repeat' split
  · exact hR.refl s
  · exact hR.parts s _
  · exact hR.host s k _

theorem unpend (k v : Nat) : R s (s.unpend k v) := by
  unfold State.unpend
  dsimp only
  split
  · exact hR.refl s
  · exact hR.parts s _

theorem raiseInt (pg b : Nat) : R s (s.raiseInt pg b) := by
  have hset := hR.setF s pg INT_CAUSE.BITS (s.getF pg INT_CAUSE.BITS ||| b) 0 (.interrupt pg)
  unfold State.raiseInt State.withIntPend
  simp only
  split
  · exact hR.trans hset (hR.sendMsix _ _ _)
  split
  · exact hR.trans hset (hR.unpend _ _ _)
  · exact hset

theorem sendAer (k n : Nat) : R s (s.sendAer k n) := by
  unfold State.sendAer
  split
  · exact hR.refl s
  extract_lets masked s1 recent s2
  have h1 : R s s1 := hR.parts s _
  have h2 : R s1 s2 := hR.host s1 ..
  split
  · exact h1
  · exact hR.trans (hR.trans h1 h2) (hR.flt s2 _ ⟨rfl, rfl⟩)

theorem stopChannel (ch : Nat) : R s (s.stopChannel ch) := by
  have hset : ∀ (t : State) f v, f = DMA_STS.PENDING ∨ f = DMA_STS.STATE → R t (t.setF (pgDMAC (ch / 256) (ch % 256)) f v (ch % 32)) :=
    fun t f v h => hR.setF t _ f v _ (.channel ch f h)
  unfold State.stopChannel
  dsimp only
  split
  · exact hR.trans (hset s _ _ (.inl rfl)) (hset _ _ _ (.inr rfl))
  · exact hset s _ _ (.inl rfl)

theorem enterPartFatal (k : Nat) : R s (s.enterPartFatal k) :=
  hR.trans (hR.setF s pgFLT _ _ 0 (.fault _ (by simp))) (hR.each _ (fun t ch => hR.stopChannel t ch) _)

theorem classAct (a p e : Nat) : R s (s.classAct a p e) := by
  unfold State.classAct
  extract_lets own ks fresh s1 s2
  have h1 : R s s1 := hR.each _ (fun t k => hR.trans (hR.sendAer t k 2) (hR.enterPartFatal _ k)) s
  have h2 : R s s2 := hR.trans (hR.trans h1 (hR.raiseInt s1 _ _)) (hR.onlyIf (hR.raiseInt _ _ _))
  clear_value s2
  repeat' split
  · exact hR.refl s
  · exact hR.raiseInt ..
  · exact hR.trans (hR.sendAer ..) (hR.raiseInt ..)
  · exact hR.raiseInt ..
  · exact hR.trans (hR.sendAer ..) (hR.raiseInt ..)
  · exact h2
  · exact hR.trans (hR.trans h2 (hR.fatal _)) (hR.raiseInt ..)
  · exact h2

theorem setPin (b : Bool) : R s (s.setPin b) := hR.setF s pgFLT _ _ 0 (.fault _ (by simp))

theorem pulse (e : Nat) : R s (s.pulse e) := by
  unfold State.pulse
  split
  · exact hR.trans (hR.setPin s true) (hR.flt (s.setPin true) _ ⟨rfl, rfl⟩)
  · exact hR.refl s

theorem evalPin : R s s.evalPin := by
  unfold State.evalPin
  repeat' split
  · exact hR.setPin s _
  · exact hR.refl s
  · exact hR.setPin s _

theorem logFault (f : Firing) (e : Nat) (he : e < 16) (x y z : Bool) : R s (s.logFault f e x y z).1 := by
  unfold State.logFault
  simp only
  refine hR.trans ?_ (hR.trans (hR.classAct ..) (hR.pulse ..))
  refine hR.trans ?_ (hR.onlyIf (hR.raiseInt ..))
  refine hR.trans ?_ (hR.setF _ pgFLT FLT_CNT.ENTRIES _ e (.count e he))
  refine hR.trans ?_ (hR.setF _ (f.src / 32) FLT_CAUSE.BITS _ 0 (.cause _))
  refine hR.trans ?_ (hR.flt _ _ ⟨rfl, rfl⟩)
  split
  · exact hR.refl s
  · exact hR.trans (hR.setF s pgFLT FLT_FL_PTR.WR _ 0 (.fault _ (by simp))) (hR.flt _ _ ⟨rfl, rfl⟩)

theorem logRepeat (f : Firing) : R s (s.logRepeat f) := by
  unfold State.logRepeat
  dsimp only
  repeat' split
  any_goals exact hR.refl s
  exact hR.flt s _ ⟨rfl, rfl⟩

theorem capFirst (f : Firing) (e : Nat) (x : Bool) : R s (s.capFirst f e x) := by
  have hset : ∀ (t : State) g v, CollectorField pgFLT g 0 → R t (t.setF pgFLT g v) := fun t g v h => hR.setF t pgFLT g v 0 h
  unfold State.capFirst State.setFlag
  refine hR.trans (hR.trans (hR.trans (hR.trans (hR.trans (hR.trans (hR.trans (hset _ _ _ ?_) (hset _ _ _ ?_)) (hset _ _ _ ?_)) (hset _ _ _ ?_))
    (hset _ _ _ ?_)) (hset _ _ _ ?_)) (hset _ _ _ ?_)) (hset _ _ _ ?_)
  all_goals exact .fault _ (by simp)

theorem logAll (l : List (Nat × Firing × Bool)) (a d : Bool) (hl : ∀ x ∈ l, x.1 < 16) : R s (s.logAll l a d).1 := by
  induction l generalizing s a d with
  | nil => exact hR.refl s
  | cons x r ih =>
    obtain ⟨eff, f, esc⟩ := x
    simp only [State.logAll]
    refine hR.trans ?_ (ih _ _ _ fun y hy => hl y (List.mem_cons_of_mem _ hy))
    refine hR.trans ?_ (hR.onlyIf (hR.setF _ pgFLT FLT_FL_DROP.COUNT _ 0 (.fault _ (by simp))))
    exact hR.trans (hR.onlyIf (hR.capFirst ..)) (hR.logFault _ _ _ (hl _ List.mem_cons_self) ..)

theorem logDropFault : R s s.logDropFault := by
  have hlt := handling_lt s ⟨pgFLT * 32 + 2, 31, 63, true, false⟩
  have hact : ∀ (x : FltSt) (v e : Nat), x.late = s.flt.late ∧ x.lees = s.flt.lees → e < 16 →
      R s ((({ s with flt := x } : State).setF pgFLT FLT_CAUSE.BITS v).addF pgFLT FLT_CNT.ENTRIES 1 e) := fun x v e hx he =>
    hR.trans (hR.trans (hR.flt s x hx) (hR.setF _ pgFLT FLT_CAUSE.BITS v 0 (.cause _))) (hR.setF _ pgFLT FLT_CNT.ENTRIES _ e (.count e he))
  unfold State.logDropFault
  simp only
  split
  · exact hR.refl s
  · exact hR.refl s
  · refine hR.trans (hR.trans ?_ (hR.classAct ..)) (hR.pulse ..)
    exact hact _ _ _ ⟨rfl, rfl⟩ ((hlt _).1 ‹_›)
  · refine hR.trans (hR.trans ?_ (hR.classAct ..)) (hR.pulse ..)
    exact hact _ _ _ ⟨rfl, rfl⟩ ((hlt _).2 _ ‹_›)

/-- The collector keeps every relation that its updates keep. -/
theorem settle : R s s.settle := by
  cases h : s.firing with
  | nil => rw [settle_nil h]; exact hR.refl s
  | cons x r =>
    unfold State.settle
    rw [h]
    simp only
    refine hR.trans ?_ (hR.evalPin _)
    refine hR.trans ?_ (hR.onlyIf (hR.logDropFault _))
    have h1 := hR.each ((mergeFirings (x :: r)).filter fun f => ({ s with firing := [] } : State).handling f == .repeated)
      (f := State.logRepeat) hR.logRepeat { s with firing := [] }
    have hg : ∀ g, ∀ y ∈ ({ s with firing := [] } : State).ranked ((({ s with firing := [] } : State).madeOf (mergeFirings (x :: r))).filter g),
        y.1 < 16 := fun g y hy => ranked_lt (fun z hz => madeOf_lt (List.mem_filter.1 hz).1) hy
    split
    · exact hR.trans (hR.trans (hR.handled s) h1) (hR.logAll _ _ _ _ (hg _))
    · exact hR.trans (hR.trans (hR.handled s) h1) (hR.logAll _ _ _ _ fun y hy => ranked_lt (fun z hz => madeOf_lt hz) hy)

end Collects

/-! ### The Lees Log and the fault page's mask -/

/-- FLT_MASK, FLT_LL_PTR and FLT_LL_SEQ of the fault page. -/
def StayReg (k : Nat) : Prop := k / 4096 = pgFLT ∧ (k % 4096 = 0x44 ∨ k % 4096 = 0xC0 ∨ k % 4096 = 0xCC)

/-- The late writes that wait, the Lees Log, its registers and the fault page's mask are as before. -/
structure Stays (s t : State) : Prop where
  late : t.flt.late = s.flt.late
  lees : t.flt.lees = s.flt.lees
  reg : ∀ k, StayReg k → t.reg k = s.reg k

theorem Stays.refl (s : State) : Stays s s := ⟨rfl, rfl, fun _ _ => rfl⟩

theorem Stays.trans {a b c : State} (h : Stays a b) (g : Stays b c) : Stays a c :=
  ⟨g.late.trans h.late, g.lees.trans h.lees, fun k hk => (g.reg k hk).trans (h.reg k hk)⟩

theorem stays_setF (s : State) (pg : Nat) (f : FRef) (v i : Nat) (ho : f.off + f.stride * i < 4096)
    (h : pg ≠ pgFLT ∨ (f.off + f.stride * i ≠ 0x44 ∧ f.off + f.stride * i ≠ 0xC0 ∧ f.off + f.stride * i ≠ 0xCC)) : Stays s (s.setF pg f v i) := by
  obtain ⟨hpage, hoff⟩ := fkey_page pg f i ho
  refine ⟨rfl, rfl, fun k hk => ?_⟩
  rw [reg_setF, if_neg]
  rintro rfl
  obtain ⟨h1, h2⟩ := hk
  rw [hpage] at h1
  rw [hoff] at h2
  rcases h with h | ⟨h3, h4, h5⟩
  · exact h h1
  · exact h2.elim h3 fun h2 => h2.elim h4 h5

/-- Where a field of the collector stands. -/
theorem CollectorField.off_lt {pg i : Nat} {f : FRef} (h : CollectorField pg f i) : f.off + f.stride * i < 4096 := by
  cases h with
  | cause | interrupt => decide
  | channel ch f h => rcases h with rfl | rfl <;> simp only [DMA_STS.PENDING, DMA_STS.STATE] <;> omega
  | count e h => simp only [FLT_CNT.ENTRIES]; omega
  | fault f h =>
    have hall : ∀ g ∈ [FLT_STATE.PART_FATAL, FLT_PIN.ASSERTED, FLT_FL_PTR.WR, FLT_FL_DROP.COUNT, FLT_FIRST.VALID, FLT_FIRST.REAL,
      FLT_FIRST.FORCED, FLT_FIRST.ESCALATED, FLT_FIRST.CLASS, FLT_FIRST.PART, FLT_FIRST.SOURCE, FLT_FIRST_T.TIME],
      g.off + g.stride * 0 < 4096 := by decide
    exact hall f h

theorem CollectorField.stays {pg i : Nat} {f : FRef} (h : CollectorField pg f i) (s : State) (v : Nat) : Stays s (s.setF pg f v i) := by
  refine stays_setF s pg f v i h.off_lt ?_
  cases h with
  | cause | interrupt => exact .inr (by decide)
  | channel ch => exact .inl (by simp only [pgDMAC, celPage, pageIx, pgFLT]; omega)
  | count e h => exact .inr (by simp only [FLT_CNT.ENTRIES]; omega)
  | fault f h =>
    have hall : ∀ g ∈ [FLT_STATE.PART_FATAL, FLT_PIN.ASSERTED, FLT_FL_PTR.WR, FLT_FL_DROP.COUNT, FLT_FIRST.VALID, FLT_FIRST.REAL,
      FLT_FIRST.FORCED, FLT_FIRST.ESCALATED, FLT_FIRST.CLASS, FLT_FIRST.PART, FLT_FIRST.SOURCE, FLT_FIRST_T.TIME],
      g.off + g.stride * 0 ≠ 0x44 ∧ g.off + g.stride * 0 ≠ 0xC0 ∧ g.off + g.stride * 0 ≠ 0xCC := by decide
    exact .inr (hall f h)

theorem stays_stopChannel (s : State) (ch : Nat) : Stays s (s.stopChannel ch) := by
  unfold State.stopChannel
  dsimp only
  split
  · exact ((CollectorField.channel ch _ (.inl rfl)).stays s _).trans ((CollectorField.channel ch _ (.inr rfl)).stays _ _)
  · exact (CollectorField.channel ch _ (.inl rfl)).stays s _

theorem stays_each {α : Type} (l : List α) {f : State → α → State} (hf : ∀ t x, Stays t (f t x)) (s : State) : Stays s (s.each l f) := by
  induction l generalizing s with
  | nil => exact .refl s
  | cons x r ih => exact (hf s x).trans (ih (f s x))

/-- The stop of the mirror block changes that block and emits what it withdraws with. -/
theorem mirFatal_eq (s : State) : ∃ o m, s.mirFatal = { s with out := o, mir := m } := by
  cases h : s.getF pgMIR MIR_STS.ROLE == 2 <;>
  · exact ⟨_, _, by simp only [State.mirFatal, h]; rfl⟩

theorem stays_enterDevFatal (s : State) : Stays s s.enterDevFatal := by
  have hmir : ∀ t : State, Stays t t.mirFatal := fun t => by
    obtain ⟨o, m, h⟩ := mirFatal_eq t
    rw [h]
    exact ⟨rfl, rfl, fun _ _ => rfl⟩
  have h : Stays s (((s.setFlag pgFLT FLT_STATE.DEV_FATAL true).each (s.setFlag pgFLT FLT_STATE.DEV_FATAL true).busyChannels
      fun t ch => t.stopChannel ch).mirFatal) :=
    ((stays_setF s pgFLT FLT_STATE.DEV_FATAL _ 0 (by decide) (.inr (by decide))).trans (stays_each _ stays_stopChannel _)).trans (hmir _)
  exact h.trans ⟨rfl, rfl, fun _ _ => rfl⟩

theorem collects_stays : Collects Stays where
  refl := .refl
  trans := .trans
  setF s _ _ v _ h := h.stays s v
  flt _ _ h := ⟨h.1, h.2, fun _ _ => rfl⟩
  parts _ _ := ⟨rfl, rfl, fun _ _ => rfl⟩
  host s k l := by
    have h := quiet_emitHost s k l
    exact ⟨h.eq fun u => u.flt.late, h.eq fun u => u.flt.lees, fun j _ => reg_emitHost s k l j⟩
  handled _ := ⟨rfl, rfl, fun _ _ => rfl⟩
  fatal := stays_enterDevFatal

/-! ### What only DEVICE_FATAL takes away -/

/-- Unless `t` is DEVICE_FATAL, its packets, queues, bursts, sent TLPs and mirror block are those of `s`. -/
structure UnlessFatal (s t : State) : Prop where
  grows : s.devFatal = true → t.devFatal = true
  same : t.devFatal = false → t.packets = s.packets ∧ t.queues = s.queues ∧ t.spillOps = s.spillOps ∧ t.tx = s.tx ∧ t.mir = s.mir

theorem UnlessFatal.trans {a b c : State} (h : UnlessFatal a b) (g : UnlessFatal b c) : UnlessFatal a c := by
  refine ⟨fun ha => g.grows (h.grows ha), fun hc => ?_⟩
  have hb : b.devFatal = false := by
    cases hb : b.devFatal with
    | false => rfl
    | true => rw [g.grows hb] at hc; exact hc
  obtain ⟨h1, h2, h3, h4, h5⟩ := h.same hb
  obtain ⟨g1, g2, g3, g4, g5⟩ := g.same hc
  exact ⟨g1.trans h1, g2.trans h2, g3.trans h3, g4.trans h4, g5.trans h5⟩

/-- An update that leaves DEVICE_FATAL's register bit and those parts. -/
theorem unlessFatal_of_eq {s t : State} (h : t.devFatal = s.devFatal)
    (hsame : t.packets = s.packets ∧ t.queues = s.queues ∧ t.spillOps = s.spillOps ∧ t.tx = s.tx ∧ t.mir = s.mir) : UnlessFatal s t :=
  ⟨fun hs => h.trans hs, fun _ => hsame⟩

theorem CollectorField.devFatal {pg i : Nat} {f : FRef} (h : CollectorField pg f i) (s : State) (v : Nat) :
    (s.setF pg f v i).devFatal = s.devFatal := by
  refine congrArg (· == 1) (getF_setF_other s pg pgFLT f FLT_STATE.DEV_FATAL v i 0 ?_)
  cases h with
  | cause | interrupt =>
    refine .inl ?_
    simp only [State.fkey, FLT_STATE.DEV_FATAL, FLT_CAUSE.BITS, INT_CAUSE.BITS]
    omega
  | channel ch f h =>
    refine .inl ?_
    have hf : f.off = 0x120 ∧ f.stride = 96 := by rcases h with rfl | rfl <;> exact ⟨rfl, rfl⟩
    simp only [State.fkey, pgDMAC, celPage, pageIx, pgFLT, FLT_STATE.DEV_FATAL, hf.1, hf.2]
    omega
  | count e h =>
    refine .inl ?_
    simp only [State.fkey, pgFLT, FLT_STATE.DEV_FATAL, FLT_CNT.ENTRIES]
    omega
  | fault f h =>
    have hall : ∀ g ∈ [FLT_STATE.PART_FATAL, FLT_PIN.ASSERTED, FLT_FL_PTR.WR, FLT_FL_DROP.COUNT, FLT_FIRST.VALID, FLT_FIRST.REAL,
      FLT_FIRST.FORCED, FLT_FIRST.ESCALATED, FLT_FIRST.CLASS, FLT_FIRST.PART, FLT_FIRST.SOURCE, FLT_FIRST_T.TIME],
      State.fkey pgFLT FLT_STATE.DEV_FATAL 0 ≠ State.fkey pgFLT g 0 ∨ g.hi < FLT_STATE.DEV_FATAL.lo ∨ FLT_STATE.DEV_FATAL.hi < g.lo := by decide
    exact hall f h

theorem devFatal_enterDevFatal (s : State) : s.enterDevFatal.devFatal = true := by
  have hset : (s.setFlag pgFLT FLT_STATE.DEV_FATAL true).devFatal = true :=
    congrArg (· == 1) (getF_setF_self s pgFLT FLT_STATE.DEV_FATAL 1 0 (by decide))
  have hstop : ∀ (t : State) ch, (t.stopChannel ch).devFatal = t.devFatal := fun t ch => by
    unfold State.stopChannel
    dsimp only
    split
    · exact ((CollectorField.channel ch _ (.inr rfl)).devFatal _ _).trans ((CollectorField.channel ch _ (.inl rfl)).devFatal t _)
    · exact (CollectorField.channel ch _ (.inl rfl)).devFatal t _
  have hmir : ∀ t : State, t.mirFatal.devFatal = t.devFatal := fun t => by
    obtain ⟨o, m, h⟩ := mirFatal_eq t
    rw [h]
    rfl
  exact (hmir _).trans ((each_eq State.devFatal (fun t ch _ => hstop t ch) _).trans hset)

theorem collects_unlessFatal : Collects UnlessFatal where
  refl _ := unlessFatal_of_eq rfl ⟨rfl, rfl, rfl, rfl, rfl⟩
  trans := .trans
  setF s _ _ v _ h := unlessFatal_of_eq (h.devFatal s v) ⟨rfl, rfl, rfl, rfl, rfl⟩
  flt _ _ _ := unlessFatal_of_eq rfl ⟨rfl, rfl, rfl, rfl, rfl⟩
  parts _ _ := unlessFatal_of_eq rfl ⟨rfl, rfl, rfl, rfl, rfl⟩
  host s k l := by
    have h := quiet_emitHost s k l
    exact unlessFatal_of_eq (congrArg (· == 1) (getF_of_reg (reg_emitHost s k l _)))
      ⟨h.eq State.packets, h.eq State.queues, h.eq State.spillOps, h.eq State.tx, h.eq State.mir⟩
  handled _ := unlessFatal_of_eq rfl ⟨rfl, rfl, rfl, rfl, rfl⟩
  fatal s := ⟨fun _ => devFatal_enterDevFatal s, fun h => by rw [devFatal_enterDevFatal s] at h; exact nomatch h⟩

/-! ### What was sent stays sent -/

/-- The outputs of `s` are among those of `t`. -/
def Sent (s t : State) : Prop := ∀ o ∈ s.out, o ∈ t.out

theorem Sent.trans {a b c : State} (h : Sent a b) (g : Sent b c) : Sent a c := fun o ho => g o (h o ho)

theorem sent_of_eq {s t : State} (h : t.out = s.out) : Sent s t := fun _ ho => h ▸ ho

theorem sent_emitAll (s : State) (l : List Output) : Sent s (s.emitAll l) := fun _ ho => List.mem_append_right _ ho

theorem sent_emitHost (s : State) (k : Nat) (l : List Output) : Sent s (s.emitHost k l) := by
  unfold State.emitHost
  repeat' split
  · exact sent_emitAll s l
  · exact sent_of_eq rfl
  · exact sent_emitAll s l

theorem sent_mirFatal (s : State) : Sent s s.mirFatal := by
  cases h : s.getF pgMIR MIR_STS.ROLE == 2 with
  | true =>
    have heq : s.mirFatal.out = (s.emitAll (([64, 65].filter fun p => s.getF pgMIR MIR_FFL_STS.STATE (p - 64) == 3).map fun p =>
      .ctrl p (s.fflSt p).ns (((s.fflSt p).er + 4095) % 4096) [.yield 1])).out := by
      simp only [State.mirFatal, h, onlyIf_true]
    exact fun o ho => heq ▸ sent_emitAll s _ o ho
  | false => exact sent_of_eq (by simp only [State.mirFatal, h, onlyIf_false])

theorem sent_enterDevFatal (s : State) : Sent s s.enterDevFatal := by
  have hstop : ∀ (t : State) ch, (t.stopChannel ch).out = t.out := fun t ch => by
    unfold State.stopChannel
    dsimp only
    split <;> rfl
  have h1 : Sent s ((s.setFlag pgFLT FLT_STATE.DEV_FATAL true).each (s.setFlag pgFLT FLT_STATE.DEV_FATAL true).busyChannels
      fun t ch => t.stopChannel ch) := sent_of_eq ((each_eq State.out (fun t ch _ => hstop t ch) _).trans rfl)
  exact h1.trans ((sent_mirFatal _).trans (sent_of_eq rfl))

theorem collects_sent : Collects Sent where
  refl _ := sent_of_eq rfl
  trans := .trans
  setF _ _ _ _ _ _ := sent_of_eq rfl
  flt _ _ _ := sent_of_eq rfl
  parts _ _ := sent_of_eq rfl
  host := sent_emitHost
  handled _ := sent_of_eq rfl
  fatal := sent_enterDevFatal

/-! ### The collector sets the bit of every source that fired -/

theorem stays_fltMasked {s t : State} (h : Stays s t) {src : Nat} (hsrc : src / 32 = pgFLT) : t.fltMasked src = s.fltMasked src := by
  refine fltMasked_of_reg (h.reg _ ?_)
  rw [hsrc]
  unfold StayReg
  decide

/-- Table 13.3: FLT_LOG_DROP's own firing sets its bit, unless it is masked or the bit is set. -/
theorem fltSet_logDropFault {s : State} (hm : s.fltMasked (pgFLT * 32 + 2) = false) : s.logDropFault.fltSet (pgFLT * 32 + 2) = true := by
  have hlt := handling_lt s ⟨pgFLT * 32 + 2, 31, 63, true, false⟩
  have hact : ∀ (x : FltSt) (e : Nat), e < 16 → ((((({ s with flt := x } : State).setF pgFLT FLT_CAUSE.BITS
      (bitSet (({ s with flt := x } : State).getF pgFLT FLT_CAUSE.BITS) 2)).addF pgFLT FLT_CNT.ENTRIES 1 e).classAct
        (pgFLT * 32 + 2) 31 e).pulse e).fltSet (pgFLT * 32 + 2) = true := fun x e he => by
    refine ((causeGrows_classAct ..).trans (causeGrows_pulse ..)).keeps _ ?_
    refine (causeGrows_setF _ _ _ _ _ (by simp only [FLT_CNT.ENTRIES]; omega) (by simp only [FLT_CNT.ENTRIES, FLT_CAUSE.BITS]; omega)).keeps _ ?_
    refine (congrArg (bitAt · 2) (getF_setF_self _ pgFLT FLT_CAUSE.BITS _ 0 (by decide))).trans ?_
    show bitAt (bitSet _ 2 % 2 ^ 32) 2 = true
    have h2 := bitAt_bitSet (State.getF { s with flt := x } pgFLT FLT_CAUSE.BITS) 2 2
    rw [bitAt] at h2
    rw [bitAt, Nat.testBit_mod_two_pow, h2]
    simp
  have hset : s.handling ⟨pgFLT * 32 + 2, 31, 63, true, false⟩ = .repeated → s.fltSet (pgFLT * 32 + 2) = true := by
    intro h
    cases hf : s.fltSet (pgFLT * 32 + 2) with
    | true => rfl
    | false =>
      unfold State.handling at h
      simp only [hm, hf, Bool.false_eq_true, if_false, Bool.not_false, if_true] at h
      exact nomatch h
  have hmask : s.handling ⟨pgFLT * 32 + 2, 31, 63, true, false⟩ ≠ .masked := by
    unfold State.handling
    simp only [hm, Bool.false_eq_true, if_false]
    repeat' split
    all_goals exact nofun
  unfold State.logDropFault
  simp only
  split
  · exact absurd ‹_› hmask
  · exact hset ‹_›
  · exact hact _ _ ((hlt _).1 ‹_›)
  · exact hact _ _ ((hlt _).2 _ ‹_›)

/-- A source that fired and is not masked has its FLT_CAUSE bit when the cycle is over, FLT_LOG_DROP among them (R460, R461, R464). -/
theorem settle_fltSet_of_mem {s : State} {f : Firing} (hf : f ∈ s.firing) (hm : s.fltMasked f.src = false) : s.settle.fltSet f.src = true := by
  by_cases hdrop : f.src = pgFLT * 32 + 2
  case neg => exact settle_fltSet hf hm hdrop
  obtain ⟨x, r, hfs⟩ : ∃ x r, s.firing = x :: r := List.exists_cons_of_ne_nil (List.ne_nil_of_mem hf)
  obtain ⟨g, hg, hgf⟩ := exists_mem_mergeFirings (hfs ▸ hf)
  unfold State.settle
  rw [hfs]
  simp only
  refine (causeGrows_evalPin _).keeps _ ?_
  rw [← hgf] at hm hdrop ⊢
  generalize mergeFirings (x :: r) = fs at hg ⊢
  generalize hs0 : ({ s with firing := [] } : State) = s0
  have hm0 : s0.fltMasked g.src = false := hs0 ▸ hm
  generalize hs1 : s0.each _ _ = s1
  have h01 : CauseGrows s0 s1 := hs1 ▸ .each _ (fun t f _ => .of_reg fun k => reg_logRepeat t f) _
  have hstay : Stays s0 s1 := hs1 ▸ stays_each _ collects_stays.logRepeat _
  have hlt : ∀ z ∈ s0.madeOf fs, z.1 < 16 := fun z hz => madeOf_lt hz
  have hany : fs.any State.logDropOf = true := List.any_eq_true.2 ⟨g, hg, by simp [State.logDropOf, hdrop]⟩
  generalize hlog : s1.logAll (s0.ranked (s0.madeOf fs)) true false = p
  cases hd : p.2 with
  | false =>
    simp only [Bool.false_and, Bool.false_eq_true, if_false, onlyIf_false]
    obtain ⟨hgrow, hall⟩ := cause_logAll (s0.ranked (s0.madeOf fs)) s1 true false fun y hy => ranked_lt hlt hy
    rw [hlog] at hgrow hall
    rcases madeOf_or_fltSet hg hm0 with ⟨e, he⟩ | hset
    · obtain ⟨y, hy, hyg⟩ := exists_mem_ranked (s := s0) he
      exact hyg ▸ hall y hy
    · exact hgrow.keeps _ (h01.keeps _ hset)
  | true =>
    simp only [hany, Bool.and_self, if_true, onlyIf_true]
    have hlogs : Stays s1 (s1.logAll (s0.ranked ((s0.madeOf fs).filter fun x => !State.logDropOf x.2)) true false).1 :=
      collects_stays.logAll _ _ _ _ fun y hy => ranked_lt (fun z hz => hlt z (List.mem_filter.1 hz).1) hy
    have hpage : g.src / 32 = pgFLT := by rw [hdrop]; decide
    have hmask := (stays_fltMasked (hstay.trans hlogs) hpage).trans hm0
    rw [hdrop] at hmask ⊢
    exact fltSet_logDropFault hmask

end Sys2Proof.Collector
end

section
/-! ## Late writes, the fault pin and the logs' read pointers (O43) -/

namespace Sys2Proof.FaultLogs

open Sys2Proof Sys2Proof.Machine Sys2Proof.Laws Sys2Proof.Support Sys2Proof.Collector

/-! ### A Lees Log record -/

theorem mem_storeInsert_self {α : Type} (m : Store α) (k : Nat) (x : α) : (k, x) ∈ storeInsert m k x := by
  induction m with
  | nil => simp [storeInsert]
  | cons e r ih =>
    simp only [storeInsert]
    repeat' split
    all_goals simp [ih]

section
variable {s : State}

theorem getF_ll_wr_lt : s.getF pgFLT FLT_LL_PTR.WR < 4096 := Nat.mod_lt _ (by decide)

theorem getF_ll_rd_lt : s.getF pgFLT FLT_LL_PTR.RD < 4096 := Nat.mod_lt _ (by decide)

theorem stayReg_ptr : StayReg (State.fkey pgFLT FLT_LL_PTR.WR 0) := by unfold StayReg; decide

theorem stayReg_seq : StayReg (State.fkey pgFLT FLT_LL_SEQ.RSEQ 0) := by unfold StayReg; decide

/-- What the Lees Log's registers say. -/
theorem stays_getF {t : State} (h : Stays s t) : t.getF pgFLT FLT_LL_PTR.WR = s.getF pgFLT FLT_LL_PTR.WR ∧
    t.getF pgFLT FLT_LL_PTR.RD = s.getF pgFLT FLT_LL_PTR.RD ∧ t.getF pgFLT FLT_LL_SEQ.RSEQ = s.getF pgFLT FLT_LL_SEQ.RSEQ :=
  ⟨getF_of_reg (h.reg _ stayReg_ptr), getF_of_reg (h.reg _ stayReg_ptr), getF_of_reg (h.reg _ stayReg_seq)⟩

theorem stays_leesCount {t : State} (h : Stays s t) : t.leesCount = s.leesCount := by
  obtain ⟨hwr, hrd, -⟩ := stays_getF h
  rw [State.leesCount, State.leesCount, hwr, hrd]

/-- The record `r` stands in the Lees Log of `t`, one longer than that of `s`. -/
structure Logged (s t : State) (r : LeesRec) : Prop where
  late : t.flt.late = s.flt.late
  mem : (s.getF pgFLT FLT_LL_PTR.WR, { r with time := s.fabric, rseq := s.getF pgFLT FLT_LL_SEQ.RSEQ }) ∈ t.flt.lees
  rseq : t.getF pgFLT FLT_LL_SEQ.RSEQ = (s.getF pgFLT FLT_LL_SEQ.RSEQ + 1) % 2 ^ 32
  count : t.leesCount = s.leesCount + 1

theorem Logged.trans {a b c : State} {r : LeesRec} (h : Logged a b r) (g : Stays b c) : Logged a c r :=
  ⟨g.late.trans h.late, g.lees ▸ h.mem, (stays_getF g).2.2.trans h.rseq, (stays_leesCount g).trans h.count⟩

/-- RSEQ moves on, and the interrupt of a record is raised. -/
def numbered (s : State) : State := (s.setF pgFLT FLT_LL_SEQ.RSEQ ((s.getF pgFLT FLT_LL_SEQ.RSEQ + 1) % 2 ^ 32)).raiseInt pgFLT 2

/-- The record in the ring of the log. -/
def withRecord (s : State) (wr : Nat) (r : LeesRec) : State := { s with flt := { s.flt with lees := storeInsert s.flt.lees wr r } }

/-- The record placed at WR, which moves on. -/
def placed (s : State) (r : LeesRec) : State :=
  (withRecord (numbered s) (s.getF pgFLT FLT_LL_PTR.WR) { r with time := s.fabric, rseq := s.getF pgFLT FLT_LL_SEQ.RSEQ }).setF pgFLT
    FLT_LL_PTR.WR ((s.getF pgFLT FLT_LL_PTR.WR + 1) % 4096)

theorem leesStore_eq (r : LeesRec) (hroom : s.leesCount < 4095) :
    s.leesStore r = (placed s r).onlyIf (decide (3072 ≤ (placed s r).leesCount)) fun t => t.raiseInt pgFLT 8 := by
  unfold State.leesStore
  rw [if_neg (Nat.not_le.2 hroom)]
  rfl

theorem quiet_numbered : Quiet s (numbered s) := (quiet_setF ..).trans (quiet_raiseInt ..)

theorem placed_getF (r : LeesRec) : (placed s r).getF pgFLT FLT_LL_PTR.WR = (s.getF pgFLT FLT_LL_PTR.WR + 1) % 4096 ∧
    (placed s r).getF pgFLT FLT_LL_PTR.RD = s.getF pgFLT FLT_LL_PTR.RD ∧
    (placed s r).getF pgFLT FLT_LL_SEQ.RSEQ = (s.getF pgFLT FLT_LL_SEQ.RSEQ + 1) % 2 ^ 32 := by
  obtain ⟨-, hrd, hseq⟩ :=
    stays_getF (collects_stays.raiseInt (s.setF pgFLT FLT_LL_SEQ.RSEQ ((s.getF pgFLT FLT_LL_SEQ.RSEQ + 1) % 2 ^ 32)) pgFLT 2)
  unfold placed
  refine ⟨?_, ?_, ?_⟩
  · rw [getF_setF_self _ pgFLT FLT_LL_PTR.WR _ 0 (by decide)]
    exact Nat.mod_mod _ _
  · rw [getF_setF_other _ pgFLT pgFLT FLT_LL_PTR.WR FLT_LL_PTR.RD _ 0 0 (.inr (.inr (by decide)))]
    refine Eq.trans hrd ?_
    rw [getF_setF_other _ pgFLT pgFLT FLT_LL_SEQ.RSEQ FLT_LL_PTR.RD _ 0 0 (.inl (by decide))]
  · rw [getF_setF_other _ pgFLT pgFLT FLT_LL_PTR.WR FLT_LL_SEQ.RSEQ _ 0 0 (.inl (by decide))]
    refine Eq.trans hseq ?_
    rw [getF_setF_self _ pgFLT FLT_LL_SEQ.RSEQ _ 0 (by decide)]
    exact Nat.mod_mod _ _

/-- R473: a log that is not full takes the record at WR with the next number. -/
theorem leesStore_of_room (r : LeesRec) (hroom : s.leesCount < 4095) : Logged s (s.leesStore r) r := by
  rw [leesStore_eq r hroom]
  refine Logged.trans ?_ (collects_stays.onlyIf (collects_stays.raiseInt ..))
  obtain ⟨hwr, hrd, hseq⟩ := placed_getF (s := s) r
  have h1 := getF_ll_wr_lt (s := s)
  have h3 := getF_ll_rd_lt (s := s)
  refine ⟨quiet_numbered.eq fun u => u.flt.late, mem_storeInsert_self _ _ _, hseq, ?_⟩
  unfold State.leesCount at hroom ⊢
  rw [hwr, hrd]
  omega

theorem leesStore_kept (r : LeesRec) (hroom : s.leesCount < 4095) : (s.leesStore r).bind = s.bind ∧ (s.leesStore r).hbm = s.hbm := by
  rw [leesStore_eq r hroom]
  have hq : ∀ t : State, ∀ b : Bool, Quiet t (t.onlyIf b fun u => u.raiseInt pgFLT 8) := fun t b => .onlyIf (quiet_raiseInt ..)
  exact ⟨((hq _ _).eq State.bind).trans (quiet_numbered.eq State.bind), ((hq _ _).eq State.hbm).trans (quiet_numbered.eq State.hbm)⟩

/-! ### The steps of R471 after the record -/

/-- The binding table and HBM are as before, and so is the Lees Log. -/
structure Beside (s t : State) : Prop where
  lees : Stays s t
  bind : t.bind = s.bind
  hbm : t.hbm = s.hbm

theorem Beside.refl (s : State) : Beside s s := ⟨.refl s, rfl, rfl⟩

theorem Beside.trans {a b c : State} (h : Beside a b) (g : Beside b c) : Beside a c :=
  ⟨h.lees.trans g.lees, g.bind.trans h.bind, g.hbm.trans h.hbm⟩

theorem Beside.each {α : Type} (l : List α) {f : State → α → State} (hf : ∀ t x, Beside t (f t x)) (s : State) : Beside s (s.each l f) := by
  induction l generalizing s with
  | nil => exact .refl s
  | cons x r ih => exact (hf s x).trans (ih (f s x))

theorem beside_fire (pg b k p : Nat) : Beside s (s.fire pg b k p) := ⟨⟨rfl, rfl, fun _ _ => rfl⟩, rfl, rfl⟩

theorem beside_sendAer (k n : Nat) : Beside s (s.sendAer k n) := by
  have h := (kept_sendAer s k n).1
  exact ⟨collects_stays.sendAer s k n, show (rest _).bind = (rest s).bind from congrArg State.bind h,
    show (rest _).hbm = (rest s).hbm from congrArg State.hbm h⟩

theorem beside_exception (i : Initiator) : Beside s (s.exception i) := ⟨⟨rfl, rfl, fun _ _ => rfl⟩, rfl, rfl⟩

theorem beside_streamLoss (part rid : Nat) (pasid : Option Nat) (w : Nat) : Beside s (s.streamLoss part rid pasid w) :=
  ⟨⟨rfl, rfl, fun _ _ => rfl⟩, rfl, rfl⟩

theorem beside_modXfer (ch num : Nat) (f : Xfer → Xfer) : Beside s (s.modXfer ch num f) := ⟨⟨rfl, rfl, fun _ _ => rfl⟩, rfl, rfl⟩

theorem stays_addLoss (e n : Nat) : Stays s (s.addLoss e n) := ⟨rfl, rfl, fun _ _ => rfl⟩

theorem lost_addLoss (e n : Nat) : ((s.addLoss e n).bindAt e).lost = (s.bindAt e).lost + n := by
  unfold State.addLoss State.bindAt
  rw [storeGet_set_self]

/-- The body of the record that `leesMake` makes. -/
def leesBody (s : State) (l : LateWrite) : LeesRec :=
  { l.body with
    gen := match l.bound with
      | some b => if l.body.summary then (s.inst b.vi).gen else l.body.gen
      | none => l.body.gen
    nofence := (((l.ini, l.bound) :: l.others).map fun w => s.lossEntry l.body.reason l.body.summary w.2).all (·.isNone) }

/-- The state once the record, the message and the exceptions are made. -/
def reported (s : State) (l : LateWrite) : State :=
  ((((s.leesStore (leesBody s l)).fire pgFLT 0 l.body.part l.body.port).sendAer l.body.part 1).each ((l.ini, l.bound) :: l.others)
    fun t w => t.exception w.1)

/-- The state once the losses are counted. -/
def counted (s : State) (l : LateWrite) : State :=
  (reported s l).each ((((l.ini, l.bound) :: l.others).map fun w => s.lossEntry l.body.reason l.body.summary w.2).filterMap id)
    fun t e => t.addLoss e 1

theorem beside_reported (l : LateWrite) : Beside (s.leesStore (leesBody s l)) (reported s l) :=
  ((beside_fire ..).trans (beside_sendAer ..)).trans (.each _ (fun _ _ => beside_exception _) _)

/-- Counting the losses changes the binding table alone. -/
theorem counted_stays (l : LateWrite) : Stays (reported s l) (counted s l) ∧ (counted s l).hbm = (reported s l).hbm :=
  ⟨stays_each _ (fun _ _ => stays_addLoss _ _) _, each_eq (f := fun t e => t.addLoss e 1) State.hbm (fun _ _ _ => rfl) (reported s l)⟩

/-- What follows the counts: the stream's and the transfer's losses, and what a reset of the partition clears. -/
theorem leesMake_eq (l : LateWrite) : ∃ u, Beside (counted s l) u ∧ s.leesMake l =
    u.onlyIf (l.body.reason == 0xA) fun t => t.clearLost fun b => t.partOfInst (State.bindVi b) == l.body.part := by
  have hstreams : Beside (counted s l) ((counted s l).each ((l.ini, l.bound) :: l.others) fun t w => match w.1 with
      | .port _ rid pasid => t.streamLoss l.body.part rid pasid l.body.wseq
      | .fabric _ _ _ _ | .cxl _ | .chan _ | .block _ => t) := by
    refine .each _ (fun t w => ?_) _
    split
    · exact beside_streamLoss ..
    all_goals exact .refl t
  cases hdma : l.dma with
  | none =>
    refine ⟨_, hstreams, ?_⟩
    simp only [State.leesMake, hdma]
    rfl
  | some d =>
    refine ⟨_, hstreams.trans (beside_modXfer d.1 d.2.1 fun x => { x with lost := x.lost + 1, lostAt := some (State.lowest x.lostAt d.2.2) }), ?_⟩
    simp only [State.leesMake, hdma]
    rfl

theorem logged_leesMake (l : LateWrite) (hroom : s.leesCount < 4095) : Logged s (s.leesMake l) (leesBody s l) ∧ (s.leesMake l).hbm = s.hbm := by
  obtain ⟨u, hu, heq⟩ := leesMake_eq (s := s) l
  have hlog := (((leesStore_of_room (leesBody s l) hroom).trans (beside_reported l).lees).trans (counted_stays l).1).trans hu.lees
  have hhbm : u.hbm = s.hbm := hu.hbm.trans ((counted_stays l).2.trans ((beside_reported l).hbm.trans (leesStore_kept _ hroom).2))
  rw [heq, State.onlyIf]
  split
  · exact ⟨hlog.trans ⟨rfl, rfl, fun _ _ => rfl⟩, hhbm⟩
  · exact ⟨hlog, hhbm⟩

/-- R472: the one write of a record counts in the entry that binds its writer. -/
theorem lost_leesMake {l : LateWrite} {e : Nat} (hroom : s.leesCount < 4095) (hone : l.others = [])
    (he : s.lossEntry l.body.reason l.body.summary l.bound = some e) : ((s.leesMake l).bindAt e).lost = (s.bindAt e).lost + 1 := by
  obtain ⟨u, hu, heq⟩ := leesMake_eq (s := s) l
  have hreason : (l.body.reason == 0xA) = false := by
    cases hb : l.bound with
    | none => rw [hb] at he; exact nomatch he
    | some x =>
      rw [hb, State.lossEntry] at he
      split at he
      · exact nomatch he
      · simpa using ‹¬ l.body.reason = 0xA›
  have hcounted : counted s l = (reported s l).addLoss e 1 := by
    simp [counted, hone, he, State.each]
  have hbind : (reported s l).bind = s.bind := (beside_reported l).bind.trans (leesStore_kept _ hroom).1
  rw [heq, hreason, onlyIf_false]
  unfold State.bindAt
  rw [hu.bind, hcounted, ← hbind]
  exact lost_addLoss e 1

/-- The command ends with the record made and the collector run. -/
theorem exec_leesRecordMake {l : LateWrite} (hyield : s.mir.yieldDue = false) (hnext : nextLate s.flt.late = some l) :
    exec .leesRecordMake s = (({ s with flt := { s.flt with late := s.flt.late.erase l } } : State).leesMake l).done := by
  show execLeesRecordMake s = _
  simp [execLeesRecordMake, hyield, hnext]

theorem leesRecordMake_clause {l : LateWrite} (hyield : s.mir.yieldDue = false) (hnext : nextLate s.flt.late = some l) (hroom : s.leesCount < 4095) :
    ∃ t r, exec .leesRecordMake s = .next t ∧
      t.flt.late = s.flt.late.erase l ∧ t.getF pgFLT FLT_LL_SEQ.RSEQ = (s.getF pgFLT FLT_LL_SEQ.RSEQ + 1) % 2 ^ 32 ∧
      (s.getF pgFLT FLT_LL_PTR.WR, r) ∈ t.flt.lees ∧ r.rseq = s.getF pgFLT FLT_LL_SEQ.RSEQ ∧ r.time = s.fabric ∧ r.addr = l.body.addr ∧
      r.wseq = l.body.wseq ∧ r.reason = l.body.reason ∧ r.part = l.body.part ∧ t.leesCount = s.leesCount + 1 ∧ t.hbm = s.hbm ∧
      (∀ e, l.others = [] → s.lossEntry l.body.reason l.body.summary l.bound = some e → (t.bindAt e).lost = (s.bindAt e).lost + 1) := by
  generalize hs0 : ({ s with flt := { s.flt with late := s.flt.late.erase l } } : State) = s0
  have hroom0 : s0.leesCount < 4095 := hs0 ▸ hroom
  obtain ⟨hlog, hhbm⟩ := logged_leesMake (s := s0) l hroom0
  have hend : Logged s0 (s0.leesMake l).settle.sweepTrace (leesBody s0 l) := (hlog.trans (collects_stays.settle _)).trans ⟨rfl, rfl, fun _ _ => rfl⟩
  refine ⟨(s0.leesMake l).settle.sweepTrace, { leesBody s0 l with time := s.fabric, rseq := s.getF pgFLT FLT_LL_SEQ.RSEQ },
    (exec_leesRecordMake hyield hnext).trans (by rw [hs0]; rfl), ?_, ?_, ?_, rfl, rfl, rfl, rfl, rfl, rfl, ?_, ?_, fun e hone he => ?_⟩
  · exact hend.late.trans (by rw [← hs0])
  · exact hend.rseq.trans (by rw [← hs0]; rfl)
  · have hmem := hend.mem
    subst hs0
    exact hmem
  · exact hend.count.trans (by rw [← hs0]; rfl)
  · rw [State.sweepTrace_hbm, settle_hbm, hhbm, ← hs0]
  · have hl := lost_leesMake (s := s0) (e := e) hroom0 hone (by rw [← hs0]; exact he)
    unfold State.bindAt at hl ⊢
    rw [State.sweepTrace_bind, settle_bind, hl, ← hs0]

end

/-! ### The pin -/

section
variable {s : State}

theorem flag_setFlag_self (pg : Nat) (f : FRef) (b : Bool) (h : f.hi = f.lo) (h64 : f.hi < 64) : (s.setFlag pg f b).flag pg f = b := by
  unfold State.flag State.setFlag
  rw [getF_setF_self _ _ _ _ _ h64]
  have : f.hi + 1 - f.lo = 1 := by omega
  rw [this]
  cases b <;> rfl

theorem flag_setFlag_other (pg pg' : Nat) (f f' : FRef) (b : Bool) (h : State.fkey pg' f' 0 ≠ State.fkey pg f 0 ∨ f.hi < f'.lo ∨ f'.hi < f.lo) :
    (s.setFlag pg f b).flag pg' f' = s.flag pg' f' :=
  congrArg (· == 1) (getF_setF_other s pg pg' f f' _ 0 0 h)

/-- What forces the pin stands in other registers than the pin's. -/
theorem pinForced_setFlag (f : FRef) (b : Bool) (h : f = FLT_PIN.OWNED ∨ f = FLT_PIN.DRIVE ∨ f = FLT_CTL.PIN_MODE) :
    (s.setFlag pgFLT f b).pinForced = s.pinForced := by
  unfold State.pinForced State.devFatal
  rcases h with rfl | rfl | rfl <;>
  · rw [flag_setFlag_other _ _ _ _ _ (.inl (by decide)), flag_setFlag_other _ _ _ _ _ (.inl (by decide))]

theorem flag_setPin (b : Bool) : (s.setPin b).flag pgFLT FLT_PIN.ASSERTED = b := flag_setFlag_self _ _ _ rfl (by decide)

theorem flag_setPin_other (f : FRef) (b : Bool) (h : State.fkey pgFLT f 0 ≠ State.fkey pgFLT FLT_PIN.ASSERTED 0 ∨ f.hi < 31) :
    (s.setPin b).flag pgFLT f = s.flag pgFLT f := flag_setFlag_other _ _ _ _ _ (h.imp id .inr)

/-- A register of the pin latches nothing. -/
theorem latchKey_flt {f : FRef} {r : RegDef × Nat} (hf : f.off < 4096 ∧ f.stride = 0) (hr : regAt pgFLT f.off = some r) (hw : r.1.wide = false)
    (ho : r.1.off = f.off) (hc : f.off ≠ 0x100) : s.latchKey (State.offOf pgFLT f 0) = none := by
  obtain ⟨h1, h2⟩ := hf
  have hoff : f.off + f.stride * 0 = f.off := by omega
  exact latchKey_narrow (by rw [hoff]; exact h1) (by rw [hoff]; exact hr) hw (by rw [ho]; exact hc)

/-- The definition of FLT_PIN. -/
def pinDef : RegDef := ⟨0x84, 0, 1, false, 0xA, [fd 31 31 .ro, fd 30 30 .ro, fd 29 29 .wo, fd 28 28 .rw, fr 15 0 .rws 10 65535]⟩

theorem regAt_pin : regAt pgFLT 0x84 = some (pinDef, 0) := by decide +kernel

/-- R475: the end of a pulse gives the pin to software. -/
theorem exec_pinPulseEnd {t0 : Nat} (hinv : s.Inv) (hend : s.flt.pulseEnd = some t0) (hdue : t0 ≤ s.ticks) :
    ∃ t, exec .pinPulseEnd s = .next t ∧ t.flag pgFLT FLT_PIN.OWNED = true ∧ t.flt.pulseEnd = none ∧
      t.flag pgFLT FLT_PIN.ASSERTED = (s.pinForced || s.flag pgFLT FLT_PIN.DRIVE) ∧ t.packets = s.packets := by
  have heq : exec .pinPulseEnd s = s.pulseOver.done := by
    show execPinPulseEnd s = _
    simp only [execPinPulseEnd, hend, if_pos hdue]
  refine ⟨_, heq.trans (done_eq hinv rfl rfl rfl rfl), ?_, rfl, ?_, rfl⟩
  · exact (flag_setPin_other _ _ (.inr (by decide))).trans (flag_setFlag_self _ _ _ rfl (by decide))
  · refine (flag_setPin _).trans ?_
    rw [pinForced_setFlag _ _ (.inl rfl), flag_setFlag_other _ _ _ _ _ (.inr (.inr (by decide)))]
    rfl

/-- R475: REARM gives the pin back. -/
theorem exec_pinRearm {who : Requester} (hinv : s.Inv) (h : s.grants who pgFLT FLT_PIN.REARM = true) (hown : s.flag pgFLT FLT_PIN.OWNED = true) :
    ∃ t, exec (.pinRearm who) s = .next t ∧ t.flag pgFLT FLT_PIN.OWNED = false ∧ t.flag pgFLT FLT_PIN.ASSERTED = s.pinForced ∧ s.OnlyRegs t := by
  have heq : exec (.pinRearm who) s = s.rearm.done := by
    show execPinRearm who s = _
    rw [execPinRearm, withAccess_narrow _ h (latchKey_flt (by decide) regAt_pin rfl rfl (by decide))]
  rw [heq, State.rearm, if_pos hown]
  refine ⟨_, done_eq hinv rfl rfl rfl rfl, ?_, flag_setPin _, rfl⟩
  exact (flag_setPin_other _ _ (.inr (by decide))).trans (flag_setFlag_self _ _ _ rfl (by decide))

/-- R475: while software owns the pin it follows DRIVE. -/
theorem exec_pinDriveWrite {who : Requester} {b : Bool} (hinv : s.Inv) (h : s.grants who pgFLT FLT_PIN.DRIVE = true) :
    ∃ t, exec (.pinDriveWrite who b) s = .next t ∧ t.flag pgFLT FLT_PIN.DRIVE = b ∧
      t.flag pgFLT FLT_PIN.ASSERTED = (if s.flag pgFLT FLT_PIN.OWNED then s.pinForced || b else s.flag pgFLT FLT_PIN.ASSERTED) ∧ s.OnlyRegs t := by
  have heq : exec (.pinDriveWrite who b) s = (s.pinDrive b).done := by
    show execPinDriveWrite who b s = _
    rw [execPinDriveWrite, withAccess_narrow _ h (latchKey_flt (by decide) regAt_pin rfl rfl (by decide))]
  have howned : (s.setFlag pgFLT FLT_PIN.DRIVE b).flag pgFLT FLT_PIN.OWNED = s.flag pgFLT FLT_PIN.OWNED :=
    flag_setFlag_other _ _ _ _ _ (.inr (.inl (by decide)))
  have hdrive : (s.setFlag pgFLT FLT_PIN.DRIVE b).flag pgFLT FLT_PIN.DRIVE = b := flag_setFlag_self _ _ _ rfl (by decide)
  rw [heq, State.pinDrive, howned]
  cases s.flag pgFLT FLT_PIN.OWNED with
  | true =>
    refine ⟨_, done_eq hinv rfl rfl rfl rfl, ?_, ?_, rfl⟩
    · exact (flag_setPin_other _ _ (.inr (by decide))).trans hdrive
    · exact (flag_setPin _).trans (by rw [pinForced_setFlag _ _ (.inr (.inl rfl)), if_pos rfl])
  | false => exact ⟨_, done_eq hinv rfl rfl rfl rfl, hdrive, flag_setFlag_other _ _ _ _ _ (.inr (.inl (by decide))), rfl⟩

/-- The level that the sources ask for does not depend on the pin's mode and owner. -/
theorem pinLevel_setFlag (f : FRef) (b : Bool) (h : f = FLT_PIN.OWNED ∨ f = FLT_CTL.PIN_MODE) :
    (s.setFlag pgFLT f b).pinLevel = s.pinLevel := by
  have hthr : (s.setFlag pgFLT f b).getF pgFLT FLT_CTL.PIN_THR = s.getF pgFLT FLT_CTL.PIN_THR := by
    rcases h with rfl | rfl
    · exact getF_setF_other _ _ _ _ _ _ _ _ (.inl (by decide))
    · exact getF_setF_other _ _ _ _ _ _ _ _ (.inr (.inr (by decide)))
  have hset : ∀ src, (s.setFlag pgFLT f b).fltSet src = s.fltSet src := fun src => by
    have hcause : FLT_CAUSE.BITS.off = 0x40 ∧ FLT_CAUSE.BITS.stride = 0 := by decide
    have hne : State.fkey (src / 32) FLT_CAUSE.BITS 0 ≠ State.fkey pgFLT f 0 := by
      rcases h with rfl | rfl <;>
      · simp only [State.fkey, hcause.1, hcause.2, FLT_PIN.OWNED, FLT_CTL.PIN_MODE]
        omega
    exact congrArg (bitAt · (src % 32)) (getF_setF_other _ _ _ _ _ _ _ _ (.inl hne))
  unfold State.pinLevel
  rw [hthr]
  exact congrArg (List.any s.flt.last) (funext fun e => by rw [hset])

/-- The state with the new mode, no owner and no pulse. -/
def modeSet (s : State) (b : Bool) : State :=
  { (s.setFlag pgFLT FLT_CTL.PIN_MODE b).setFlag pgFLT FLT_PIN.OWNED false with flt := { s.flt with pulseEnd := none } }

theorem flag_modeSet (b : Bool) (f : FRef) :
    (modeSet s b).flag pgFLT f = ((s.setFlag pgFLT FLT_CTL.PIN_MODE b).setFlag pgFLT FLT_PIN.OWNED false).flag pgFLT f := rfl

theorem pinForced_modeSet (b : Bool) : (modeSet s b).pinForced = s.pinForced :=
  (pinForced_setFlag (s := s.setFlag pgFLT FLT_CTL.PIN_MODE b) FLT_PIN.OWNED false (.inl rfl)).trans (pinForced_setFlag _ _ (.inr (.inr rfl)))

theorem pinLevel_modeSet (b : Bool) : (modeSet s b).pinLevel = s.pinLevel :=
  (pinLevel_setFlag (s := s.setFlag pgFLT FLT_CTL.PIN_MODE b) FLT_PIN.OWNED false (.inl rfl)).trans (pinLevel_setFlag _ _ (.inr rfl))

theorem pinMode_eq {b : Bool} (hne : s.flag pgFLT FLT_CTL.PIN_MODE ≠ b) : s.pinMode b = (modeSet s b).setPin (s.pinForced || (!b && s.pinLevel)) := by
  rw [← pinForced_modeSet b, ← pinLevel_modeSet b, State.pinMode, if_neg hne]
  rfl

/-- R477: a change of PIN_MODE ends pulse and ownership. -/
theorem exec_pinModeWrite {who : Requester} {b : Bool} (hinv : s.Inv) (h : s.grants who pgFLT FLT_CTL.PIN_MODE = true)
    (hseal : s.pageSealed pgFLT = false) (hne : s.flag pgFLT FLT_CTL.PIN_MODE ≠ b) : ∃ t, exec (.pinModeWrite who b) s = .next t ∧
      t.flag pgFLT FLT_CTL.PIN_MODE = b ∧ t.flag pgFLT FLT_PIN.OWNED = false ∧ t.flt.pulseEnd = none ∧
      t.flag pgFLT FLT_PIN.ASSERTED = (s.pinForced || (!b && s.pinLevel)) ∧ t.packets = s.packets := by
  have hreg : regAt pgFLT 0x80 = some (⟨0x80, 0, 1, false, 0x200003E8, [fd 31 31 .rws, fr 30 28 .rws 0 4, fd 15 0 .rws]⟩, 0) := by decide +kernel
  have heq : exec (.pinModeWrite who b) s = (s.pinMode b).done := by
    show execPinModeWrite who b s = _
    rw [execPinModeWrite, withAccess_narrow _ h (latchKey_flt (by decide) hreg rfl rfl (by decide)), State.sealedWrite, if_neg (by simp [hseal])]
  rw [heq, pinMode_eq hne]
  refine ⟨_, done_eq hinv rfl rfl rfl rfl, ?_, ?_, rfl, flag_setPin _, rfl⟩
  · rw [flag_setPin_other _ _ (.inl (by decide)), flag_modeSet, flag_setFlag_other _ _ _ _ _ (.inl (by decide))]
    exact flag_setFlag_self _ _ _ rfl (by decide)
  · rw [flag_setPin_other _ _ (.inr (by decide)), flag_modeSet]
    exact flag_setFlag_self _ _ _ rfl (by decide)

/-! ### The logs' read pointers -/

theorem moveRd_of_lt {rf wf : FRef} {n rd : Nat} (hrd : rd < n) : s.moveRd rf wf n rd =
    if (rd + n - s.getF pgFLT rf) % n ≤ (s.getF pgFLT wf + n - s.getF pgFLT rf) % n then s.setF pgFLT rf rd else s := by
  rw [State.moveRd, Nat.mod_eq_of_lt hrd]

theorem exec_logRdWrite {who : Requester} {rd n : Nat} {lees : Bool} {rf wf : FRef} (hinv : s.Inv)
    (hlog : (lees, n, rf, wf) ∈ [(true, 4096, FLT_LL_PTR.RD, FLT_LL_PTR.WR), (false, 1024, FLT_FL_PTR.RD, FLT_FL_PTR.WR)])
    (hrd : rd < n) (h : s.grants who pgFLT rf = true) : exec (.logRdWrite who lees rd) s =
      .next (if (rd + n - s.getF pgFLT rf) % n ≤ (s.getF pgFLT wf + n - s.getF pgFLT rf) % n then s.setF pgFLT rf rd else s) := by
  have hll : regAt pgFLT 0xC0 = some (⟨0xC0, 0, 1, false, 0x0, [fd 27 16 .ro, ⟨11, 0, .rw, .special⟩]⟩, 0) := by decide +kernel
  have hfl : regAt pgFLT 0xA0 = some (⟨0xA0, 0, 1, false, 0x0, [fd 25 16 .ro, ⟨9, 0, .rw, .special⟩]⟩, 0) := by decide +kernel
  have heq : exec (.logRdWrite who lees rd) s = (s.moveRd rf wf n rd).done := by
    show execLogRdWrite who lees rd s = _
    simp only [List.mem_cons, Prod.mk.injEq, List.not_mem_nil, or_false] at hlog
    obtain ⟨rfl, rfl, rfl, rfl⟩ | ⟨rfl, rfl, rfl, rfl⟩ := hlog
    · rw [execLogRdWrite, if_pos rfl, withAccess_narrow _ h (latchKey_flt (by decide) hll rfl rfl (by decide))]
    · rw [execLogRdWrite, if_neg Bool.false_ne_true, withAccess_narrow _ h (latchKey_flt (by decide) hfl rfl rfl (by decide))]
  rw [heq, moveRd_of_lt hrd]
  split
  · exact done_regs hinv (onlyRegs_setF ..)
  · exact done_eq hinv rfl rfl rfl rfl

/-- Settles O43: the record of a late write, the pin's owner and level, and the move of RD, each by its own rule. -/
theorem lateWritesPinAndLogs : Obligations.LateWritesPinAndLogs := by
  refine ⟨fun s l _ hyield hnext hroom => leesRecordMake_clause hyield hnext hroom, fun s who t0 b hinv => ⟨exec_pinPulseEnd hinv,
    exec_pinRearm hinv, exec_pinDriveWrite hinv, exec_pinModeWrite hinv⟩, fun s who rd n lees rf wf hinv hlog hrd h => ?_⟩
  exact exec_logRdWrite hinv hlog hrd h

end

end Sys2Proof.FaultLogs
end

section
/-! ## Forced interrupts and faults, and their acknowledgement (O13) -/

namespace Sys2Proof.Forced

open Sys2Proof Sys2Proof.Machine Sys2Proof.Laws Sys2Proof.Support Sys2Proof.Collector

variable {s : State} {who : Requester} {page bits : Nat} {k : PageKind}

/-! ### Interrupts -/

theorem exec_intForceWrite (hinv : s.Inv) (hp : page < 2048) (hk : pageKind page = some k) (h : s.grants who page INT_FORCE.BITS = true) :
    ∃ t, exec (.intForceWrite who page bits) s = .next t ∧
      t.getF page INT_CAUSE.BITS = (s.getF page INT_CAUSE.BITS ||| bits % 2 ^ k.nint) % 2 ^ 32 ∧
      (∀ j, j ≠ State.fkey page INT_CAUSE.BITS 0 → t.reg j = s.reg j) ∧ t.packets = s.packets ∧ t.hbm = s.hbm ∧ t.ports = s.ports := by
  generalize hu : s.touchAt who (State.offOf page INT_FORCE.BITS) = u
  have hf : ∀ {β : Type} (g : State → β), g { u with regs := s.regs, latches := s.latches } = g s := hu ▸ of_onlyRegs (onlyRegs_touchAt ..)
  have hreg : ∀ j, u.reg j = s.reg j := fun j => hu ▸ reg_touchAt ..
  have hq := quiet_raiseInt u page (bits % 2 ^ k.nint)
  have heq : exec (.intForceWrite who page bits) s = (u.raiseInt page (bits % 2 ^ k.nint)).done := by
    show execIntForceWrite who page bits s = _
    rw [execIntForceWrite, if_neg (by omega), grants_iff _ h, hu, State.forceInts, hk]
  refine ⟨_, heq.trans (done_eq hinv ((hq.eq State.firing).trans (hf State.firing)) ((hq.eq State.trace).trans (hf State.trace))
    ((hq.eq State.packets).trans (hf State.packets)) ((hq.eq State.swb).trans (hf State.swb))), ?_, fun j hj => ?_,
    (hq.eq State.packets).trans (hf State.packets), (hq.eq State.hbm).trans (hf State.hbm), (hq.eq State.ports).trans (hf State.ports)⟩
  · rw [State.getF, reg_raiseInt, State.getF, hreg]
    exact getF_setF_self u page INT_CAUSE.BITS _ 0 (by decide)
  · rw [reg_raiseInt, reg_setF, if_neg hj, hreg]

/-! ### Faults -/

/-- Forced firings change nothing but the firings of the cycle. -/
theorem forceFaults_eq (hk : pageKind page = some k) : ∃ l, s.forceFaults page bits = { s with firing := l } ∧
    ∀ b ∈ State.srcBits k, bitAt bits b = true → ∃ f ∈ l, f.src = page * 32 + b := by
  have heq : ∀ (l : List Nat) (u : State), (u.each l fun t b => t.fireForced page b (s.forcedAt page).1 (s.forcedAt page).2) =
      { u with firing := u.firing ++ l.map fun b => ⟨page * 32 + b, (s.forcedAt page).1, (s.forcedAt page).2, false, true⟩ } := by
    intro l
    induction l with
    | nil => intro u; simp
    | cons b r ih =>
      intro u
      refine (ih (u.fireForced page b (s.forcedAt page).1 (s.forcedAt page).2)).trans ?_
      simp [State.fireForced]
  refine ⟨_, ?_, fun b hb hbit => ⟨⟨page * 32 + b, (s.forcedAt page).1, (s.forcedAt page).2, false, true⟩,
    List.mem_append_right s.firing (List.mem_map.2 ⟨b, List.mem_filter.2 ⟨hb, hbit⟩, rfl⟩), rfl⟩⟩
  unfold State.forceFaults
  rw [hk]
  exact heq _ s

theorem srcBits_lt : ∀ k : PageKind, ∀ b ∈ State.srcBits k, b < 32 := by
  intro k
  cases k <;> decide

theorem exec_fltForceWrite (hp : page < 2048) (hk : pageKind page = some k) (h : s.grants who page FLT_FORCE.BITS = true) :
    ∃ t, exec (.fltForceWrite who page bits) s = .next t ∧
      (∀ b ∈ State.srcBits k, bitAt bits b = true → s.fltMasked (page * 32 + b) = false → t.fltSet (page * 32 + b) = true) ∧
      t.hbm = s.hbm ∧ t.ports = s.ports ∧ t.sched = s.sched ∧ t.lanes = s.lanes := by
  generalize hu : s.touchAt who (State.offOf page FLT_FORCE.BITS) = u
  have hf : ∀ {β : Type} (g : State → β), g { u with regs := s.regs, latches := s.latches } = g s := hu ▸ of_onlyRegs (onlyRegs_touchAt ..)
  obtain ⟨l, hl, hmem⟩ := forceFaults_eq (s := u) (bits := bits) hk
  have heq : exec (.fltForceWrite who page bits) s = ({ u with firing := l } : State).done := by
    show execFltForceWrite who page bits s = _
    rw [execFltForceWrite, if_neg (by omega), grants_iff _ h, hu, hl]
  refine ⟨_, heq.trans (done_next _), fun b hb hbit hm => ?_, ?_, ?_, ?_, ?_⟩
  · obtain ⟨f, hfl, hsrc⟩ := hmem b hb hbit
    rw [← hsrc] at hm ⊢
    have hreg : ∀ j, u.reg j = s.reg j := fun j => hu ▸ reg_touchAt ..
    exact settle_fltSet_of_mem (s := { u with firing := l }) hfl ((fltMasked_of_reg (hreg _)).trans hm)
  · exact (settle_hbm _).trans (hf State.hbm)
  · exact (settle_ports _).trans (hf State.ports)
  · exact (settle_sched _).trans (hf State.sched)
  · exact (settle_lanes _).trans (hf State.lanes)

/-! ### Acknowledgement -/

/-- The pin takes its level: QF_FAULT_N alone changes. -/
theorem evalPin_frame : s.OnlyRegs s.evalPin ∧ ∀ j, j ≠ State.fkey pgFLT FLT_PIN.ASSERTED 0 → s.evalPin.reg j = s.reg j := by
  have hpin : ∀ b, s.OnlyRegs (s.setPin b) ∧ ∀ j, j ≠ State.fkey pgFLT FLT_PIN.ASSERTED 0 → (s.setPin b).reg j = s.reg j :=
    fun b => ⟨rfl, fun j hj => (reg_setF ..).trans (if_neg hj)⟩
  unfold State.evalPin
  repeat' split
  · exact hpin _
  · exact ⟨rfl, fun _ _ => rfl⟩
  · exact hpin _

theorem exec_fltAckWrite (hinv : s.Inv) (hp : page < 2048) (h : s.grants who page FLT_ACK.BITS = true) :
    ∃ t, exec (.fltAckWrite who page bits) s = .next t ∧
      t.getF page FLT_CAUSE.BITS = s.getF page FLT_CAUSE.BITS &&& (bits ^^^ 0xFFFFFFFF) % 2 ^ 32 ∧ s.OnlyRegs t ∧
      ∀ j, j ≠ State.fkey page FLT_CAUSE.BITS 0 → j ≠ State.fkey pgFLT FLT_PIN.ASSERTED 0 → t.reg j = s.reg j := by
  generalize hu : s.touchAt who (State.offOf page FLT_ACK.BITS) = u
  have hregs : s.OnlyRegs u := hu ▸ onlyRegs_touchAt ..
  have hreg : ∀ j, u.reg j = s.reg j := fun j => hu ▸ reg_touchAt ..
  have heq : exec (.fltAckWrite who page bits) s = (u.ackFaults page bits).done := by
    show execFltAckWrite who page bits s = _
    rw [execFltAckWrite, if_neg (by omega), grants_iff _ h, hu]
  obtain ⟨hpin, hother⟩ := evalPin_frame (s := u.setF page FLT_CAUSE.BITS (u.getF page FLT_CAUSE.BITS &&& (bits ^^^ 0xFFFFFFFF)))
  have hall : s.OnlyRegs (u.ackFaults page bits) := OnlyRegs.trans (OnlyRegs.trans hregs (onlyRegs_setF ..)) hpin
  have hne : State.fkey page FLT_CAUSE.BITS 0 ≠ State.fkey pgFLT FLT_PIN.ASSERTED 0 := by
    simp only [State.fkey, FLT_CAUSE.BITS, FLT_PIN.ASSERTED]
    omega
  refine ⟨_, heq.trans (done_regs hinv hall), ?_, hall, fun j hj hj' => ?_⟩
  · refine (getF_of_reg (hother _ hne)).trans ?_
    rw [getF_setF_self _ _ _ _ _ (by decide), State.getF, hreg]
    show (s.getF page FLT_CAUSE.BITS &&& (bits ^^^ 0xFFFFFFFF)) % 2 ^ 32 = _
    rw [Nat.and_mod_two_pow]
    exact congrArg (· &&& _) (Nat.mod_mod _ _)
  · exact (hother j hj').trans (((reg_setF ..).trans (if_neg hj)).trans (hreg j))

/-- Settles O13: INT_FORCE raises, FLT_FORCE fires through the collector, FLT_ACK clears and re-evaluates the pin. -/
theorem faultsAndInterrupts : Obligations.FaultsAndInterrupts :=
  ⟨fun _ _ _ _ _ hinv hp hk => ⟨exec_intForceWrite hinv hp hk, exec_fltForceWrite hp hk⟩, fun _ _ _ _ hinv hp h => exec_fltAckWrite hinv hp h⟩

end Sys2Proof.Forced
end

section
/-! ## Commands of the image store (O24) -/

namespace Sys2Proof.ImageCommands

open Sys2Proof Sys2Proof.Machine Sys2Proof.Laws Sys2Proof.Support Sys2Proof.VintageSwap

variable {s : State} {who : Requester} {i : Nat}

/-! ### A command that reaches the store -/

theorem firstRunning_lt (s : State) : ((List.range 4).find? fun c => s.cellarRun c).getD 0 < 4 := by
  cases h : (List.range 4).find? fun c => s.cellarRun c with
  | none => decide
  | some c => exact List.mem_range.1 (List.mem_of_find?_eq_some h)

/-- R185: while no command is under way, a command runs. -/
theorem imgCmd_of_ready (h : s.imgReady who = true) (f : State → State) : s.imgCmd who f = f s := by
  obtain ⟨hgrant, hbusy⟩ := (Bool.and_eq_true _ _ ▸ h : _ ∧ _)
  have hreg : ∀ c < 4, regAt (pgSCH c) 0x810 = some (⟨0x810, 0, 1, false, 0x0, [fd 31 28 .wo, fd 2 0 .wo]⟩, 0) := by decide +kernel
  have hc := firstRunning_lt s
  have hkey : s.latchKey (pgSCH (((List.range 4).find? fun c => s.cellarRun c).getD 0) * 4096 + 0x810) = none := by
    have hr := hreg _ hc
    generalize pgSCH (((List.range 4).find? fun c => s.cellarRun c).getD 0) = pg at hr ⊢
    have h1 : (pg * 4096 + 0x810) / 4096 = pg := by omega
    have h2 : (pg * 4096 + 0x810) % 4096 = 0x810 := by omega
    simp [State.latchKey, h1, h2, hr, PMU_CTR.COUNT]
  unfold State.imgCmd
  rw [withAccess_granted _ hgrant, State.touchAt, hkey]
  simp only [Bool.not_eq_true'] at hbusy
  simp only [hbusy, Bool.false_eq_true, if_false]

/-! ### The answer register -/

/-- The registers of an answer, before a refusal fires. -/
def answered (s : State) (cmd slot result : Nat) : State :=
  (((s.setFlag pgDEVSCH SCH_IMG_RES.DONE true).setF pgDEVSCH SCH_IMG_RES.CMD cmd).setF pgDEVSCH SCH_IMG_RES.SLOT slot).setF pgDEVSCH
    SCH_IMG_RES.RESULT result

theorem imgRes_zero (cmd slot : Nat) : s.imgRes cmd slot 0 = answered s cmd slot 0 := rfl

theorem imgRes_refused (cmd slot result : Nat) (h : result ≠ 0) : s.imgRes cmd slot result = (answered s cmd slot result).schFire 5 := by
  unfold State.imgRes
  rw [bne_iff_ne.2 h, onlyIf_true]
  rfl

theorem onlyRegs_answered (cmd slot result : Nat) : s.OnlyRegs (answered s cmd slot result) := rfl

/-- An answer stands in one register of the device-wide set. -/
theorem reg_answered {cmd slot result k : Nat} (h : k ≠ State.fkey pgDEVSCH SCH_IMG_RES.RESULT 0) : (answered s cmd slot result).reg k = s.reg k := by
  have hset : ∀ (u : State) (f : FRef) v, State.fkey pgDEVSCH f 0 = State.fkey pgDEVSCH SCH_IMG_RES.RESULT 0 → (u.setF pgDEVSCH f v).reg k = u.reg k :=
    fun u f v hf => (reg_setF ..).trans (if_neg (hf ▸ h))
  exact (((hset _ SCH_IMG_RES.RESULT _ rfl).trans (hset _ SCH_IMG_RES.SLOT _ rfl)).trans (hset _ SCH_IMG_RES.CMD _ rfl)).trans
    (hset s SCH_IMG_RES.DONE _ rfl)

theorem answered_answer {cmd slot result : Nat} (hcmd : cmd < 16) (hslot : slot < 8) (hres : result < 256) :
    (answered s cmd slot result).ImgAnswer cmd slot result := by
  unfold answered
  refine ⟨?_, ?_, ?_, ?_⟩
  · unfold State.flag
    rw [getF_setF_other _ _ _ _ _ _ _ _ (.inr (.inl (by decide))), getF_setF_other _ _ _ _ _ _ _ _ (.inr (.inl (by decide))),
      getF_setF_other _ _ _ _ _ _ _ _ (.inr (.inl (by decide))), State.setFlag, getF_setF_self _ _ _ _ _ (by decide)]
    rfl
  · rw [getF_setF_other _ _ _ _ _ _ _ _ (.inr (.inl (by decide))), getF_setF_other _ _ _ _ _ _ _ _ (.inr (.inr (by decide))),
      getF_setF_self _ _ _ _ _ (by decide)]
    exact Nat.mod_eq_of_lt hcmd
  · rw [getF_setF_other _ _ _ _ _ _ _ _ (.inr (.inl (by decide))), getF_setF_self _ _ _ _ _ (by decide)]
    exact Nat.mod_eq_of_lt hslot
  · rw [getF_setF_self _ _ _ _ _ (by decide)]
    exact Nat.mod_eq_of_lt hres

theorem slotState_answered (cmd slot result j : Nat) : (answered s cmd slot result).slotState j = s.slotState j := by
  unfold State.slotState State.getP
  rw [reg_answered (by decide)]

theorem slotImg_answered (cmd slot result j : Nat) : (answered s cmd slot result).slotImg j = s.slotImg j := rfl

theorem slotsKept_setSlot (hi : i < 8) (x : Nat) : s.SlotsKept (s.setSlot i x) i :=
  fun j _ hne => ⟨(slotState_setSlot s x j hi).trans (if_neg hne), rfl⟩

theorem slotState_setSlot_self (hi : i < 8) {x : Nat} (hx : x < 8) : (s.setSlot i x).slotState i = x := by
  rw [slotState_setSlot s x i hi, if_pos rfl, Nat.mod_eq_of_lt hx]

/-! ### LOAD -/

theorem exec_schLoad_flash (hinv : s.Inv) (hi : i < 8) (hready : s.imgReady who = true) (h0 : s.slotState i = 0)
    (hkind : s.getF pgDEVSCH SCH_IMG_SRCCTL.KIND = 1)
    (hfits : s.getF pgDEVSCH SCH_IMG_SRC.ADDR + s.getF pgDEVSCH SCH_IMG_LEN.BYTES ≤ 0x4000000) :
    ∃ t, exec (.schLoad who i) s = .next t ∧ t.slotState i = 1 ∧ s.SlotsKept t i ∧ t.flag pgDEVSCH SCH_IMG_RES.BUSY = true ∧
      t.packets = s.packets ∧ t.sched.load =
        some ⟨i, s.getF pgDEVSCH SCH_IMG_SRC.ADDR, 1, s.getF pgDEVSCH SCH_IMG_SRCCTL.PART, s.getF pgDEVSCH SCH_IMG_LEN.BYTES, false, [], s.ticks⟩ := by
  have heq : exec (.schLoad who i) s = (s.schLoad i).done := by
    show execSchLoad who i s = _
    rw [execSchLoad, imgCmd_of_ready hready, Nat.mod_eq_of_lt hi]
  have hload : s.schLoad i = { (s.setSlot i 1).setFlag pgDEVSCH SCH_IMG_RES.BUSY true with sched := { s.sched with
      load := some ⟨i, s.getF pgDEVSCH SCH_IMG_SRC.ADDR, 1, s.getF pgDEVSCH SCH_IMG_SRCCTL.PART, s.getF pgDEVSCH SCH_IMG_LEN.BYTES, false, [], s.ticks⟩ } } := by
    unfold State.schLoad
    simp only [h0, hkind, ne_eq, not_true, if_false, if_true, Nat.not_lt.2 hfits, decide_false, Nat.reduceEqDiff,
      Bool.false_or, show ((1 : Nat) != 0) = true from rfl]
    rfl
  have hslot : ∀ j, (s.schLoad i).slotState j = (s.setSlot i 1).slotState j := fun j => by
    rw [hload]
    exact slotState_setF (s.setSlot i 1) _ _ j (by decide)
  have hregs : ∀ f, (s.schLoad i).getF pgDEVSCH f = ((s.setSlot i 1).setFlag pgDEVSCH SCH_IMG_RES.BUSY true).getF pgDEVSCH f := fun f => by
    rw [hload]; rfl
  refine ⟨_, heq.trans (done_eq hinv (by rw [hload]; rfl) (by rw [hload]; rfl) (by rw [hload]; rfl) (by rw [hload]; rfl)), ?_, fun j hj hne => ⟨?_, ?_⟩,
    ?_, by rw [hload]; rfl, by rw [hload]⟩
  · exact (hslot i).trans (slotState_setSlot_self hi (by decide))
  · exact (hslot j).trans (slotsKept_setSlot hi 1 j hj hne).1
  · rw [hload]; rfl
  · unfold State.flag
    rw [hregs, State.setFlag, getF_setF_self _ _ _ _ _ (by decide)]
    rfl

/-! ### HOLD -/

theorem exec_schHold_fallback {v : Vintage} (hinv : s.Inv) (hi : i < 8) (hready : s.imgReady who = true) (h2 : s.slotState i = 2)
    (himg : s.slotImg i = some v) (hkind : v.kind = 1) (hheld : ((List.range 8).filter fun j => s.slotState j == 3).length < 4)
    (hcel : ∀ c < 4, givesTo v c = true → s.cellarRun c = true) : ∃ t, exec (.schHold who i) s = .next t ∧ t.slotState i = 3 ∧
      s.SlotsKept t i ∧ t.ImgAnswer 2 i 0 ∧ s.OnlyRegs t := by
  have hany : ((List.range 4).any fun c => givesTo v c && !s.cellarRun c) = false := by
    rw [List.any_eq_false]
    intro c hc
    cases hg : givesTo v c with
    | false => simp
    | true => simp [hcel c (List.mem_range.1 hc) hg]
  have heq : exec (.schHold who i) s = (answered (s.setSlot i 3) 2 i 0).done := by
    show execSchHold who i s = _
    rw [execSchHold, imgCmd_of_ready hready, Nat.mod_eq_of_lt hi, ← imgRes_zero]
    simp [State.schHold, himg, h2, hkind, Nat.not_le.2 hheld, hany]
  have hregs : s.OnlyRegs (answered (s.setSlot i 3) 2 i 0) := OnlyRegs.trans (onlyRegs_setReg ..) (onlyRegs_answered ..)
  refine ⟨_, heq.trans (done_regs hinv hregs), ?_, fun j hj hne => ⟨?_, rfl⟩, answered_answer (by decide) hi (by decide), hregs⟩
  · rw [slotState_answered, slotState_setSlot_self hi (by decide)]
  · rw [slotState_answered]
    exact (slotsKept_setSlot hi 3 j hj hne).1

/-! ### RELEASE -/

/-- An image's place holds no image, and its register of the Vintage number alone changes with it. -/
theorem reg_setImg {v : Option Vintage} {k : Nat} (h : k ≠ State.fkey pgDEVSCH SCH_SLOTVIN.VINTAGE i) : (s.setImg i v).reg k = s.reg k :=
  (reg_setF ..).trans (if_neg h)

theorem slotState_setImg (v : Option Vintage) (j : Nat) : (s.setImg i v).slotState j = s.slotState j := by
  unfold State.slotState State.getP
  rw [reg_setImg (by simp only [State.fkey, SCH_SLOTSTS.STATE, SCH_SLOTVIN.VINTAGE]; omega)]

theorem slotState_emptySlot (hi : i < 8) (j : Nat) : (s.emptySlot i).slotState j = if j = i then 0 else s.slotState j := by
  unfold State.emptySlot
  rw [slotState_setSlot _ 0 j hi, slotState_setImg]

theorem slotImg_emptySlot (j : Nat) : (s.emptySlot i).slotImg j = if j = i then none else s.slotImg j := by
  have h : (s.emptySlot i).sched.slots = storeSet (fun _ => none) s.sched.slots i none := rfl
  unfold State.slotImg
  rw [h, storeGet_set]

theorem exec_schRelease_empties (hinv : s.Inv) (hi : i < 8) (hready : s.imgReady who = true) (hst : s.slotState i ∈ [2, 3, 6])
    (hfb : ∀ f, s.sched.fb = some f → f.slot ≠ i) : ∃ t, exec (.schRelease who i) s = .next t ∧ t.slotState i = 0 ∧ t.slotImg i = none ∧
      s.SlotsKept t i ∧ t.ImgAnswer 3 i 0 ∧ (s.slotState i = 6 → t.homeSlot = none) ∧ t.sched.active = s.sched.active := by
  generalize hu : s.onlyIf (s.slotState i == 6) (fun t => t.setFlag pgDEVSCH SCH_HOME.VALID false) = u
  have hany : (s.sched.fb.any fun f => f.slot == i) = false := by
    cases hb : s.sched.fb with
    | none => rfl
    | some f => simp [hfb f hb]
  have hnot : ¬ (s.slotState i ≠ 2 ∧ s.slotState i ≠ 3 ∧ s.slotState i ≠ 6) := by
    simp only [List.mem_cons, List.not_mem_nil, or_false] at hst
    omega
  have heq : exec (.schRelease who i) s = (answered (u.emptySlot i) 3 i 0).done := by
    show execSchRelease who i s = _
    rw [execSchRelease, imgCmd_of_ready hready, Nat.mod_eq_of_lt hi, ← imgRes_zero, ← hu, State.schRelease, if_neg hnot]
    simp only [hany, Bool.false_eq_true, if_false]
  have hregs : s.OnlyRegs u := by
    rw [← hu, State.onlyIf]
    split
    · exact onlyRegs_setF ..
    · rfl
  have hf : ∀ {β : Type} (g : State → β), g { u with regs := s.regs, latches := s.latches } = g s := of_onlyRegs hregs
  have hslot : ∀ j, u.slotState j = s.slotState j := fun j => by
    rw [← hu, State.onlyIf]
    split
    · exact slotState_setF s _ _ j (by decide)
    · rfl
  have himg : ∀ j, u.slotImg j = s.slotImg j := fun j => hf fun t => t.slotImg j
  have hr : (u.emptySlot i).OnlyRegs (answered (u.emptySlot i) 3 i 0) := onlyRegs_answered ..
  have hfr : ∀ {β : Type} (g : State → β), g { answered (u.emptySlot i) 3 i 0 with regs := (u.emptySlot i).regs, latches := (u.emptySlot i).latches } =
    g (u.emptySlot i) := of_onlyRegs hr
  have hactive : (answered (u.emptySlot i) 3 i 0).sched.active = s.sched.active := (hfr fun t => t.sched.active).trans (hf fun t => t.sched.active)
  have hdone := done_eq (t := answered (u.emptySlot i) 3 i 0) hinv ((hfr State.firing).trans (hf State.firing)) ((hfr State.trace).trans (hf State.trace))
    ((hfr State.packets).trans (hf State.packets)) ((hfr State.swb).trans (hf State.swb))
  refine ⟨_, heq.trans hdone, ?_, ?_, fun j hj hne => ⟨?_, ?_⟩, answered_answer (by decide) hi (by decide), fun h6 => ?_, hactive⟩
  · rw [slotState_answered, slotState_emptySlot hi, if_pos rfl]
  · rw [slotImg_answered, slotImg_emptySlot, if_pos rfl]
  · rw [slotState_answered, slotState_emptySlot hi, if_neg hne, hslot]
  · rw [slotImg_answered, slotImg_emptySlot, if_neg hne, himg]
  · have hvalid : (answered (u.emptySlot i) 3 i 0).getF pgDEVSCH SCH_HOME.VALID = 0 := by
      rw [State.getF, reg_answered (by decide)]
      refine (getF_setSlot (u.setImg i none) i 0 pgDEVSCH SCH_HOME.VALID (by decide)).trans ?_
      rw [State.getF, reg_setImg (by simp only [State.fkey, SCH_HOME.VALID, SCH_SLOTVIN.VINTAGE]; omega), ← hu, h6]
      exact getF_setF_self s pgDEVSCH SCH_HOME.VALID 0 0 (by decide)
    unfold State.homeSlot State.flag
    rw [hvalid]
    rfl

/-! ### ARM and DISARM -/

theorem ctrlAdd_eq (q : Nat) (m : CtrlMsg) (n : Nat) : ∃ f p, s.ctrlAdd q m n = { s with ffl := f, ports := p } := ⟨_, _, rfl⟩

/-- A message to the partner waits at its ports, and nothing else changes. -/
theorem mirMsg_eq (m : CtrlMsg) (n : Nat) : ∃ f p, s.mirMsg m n = { s with ffl := f, ports := p } := by
  unfold State.mirMsg
  generalize s.mirPorts = l
  induction l generalizing s with
  | nil => exact ⟨s.ffl, s.ports, rfl⟩
  | cons q r ih =>
    obtain ⟨f0, p0, h0⟩ := ctrlAdd_eq (s := s) q m n
    obtain ⟨f, p, h⟩ := ih (s := { s with ffl := f0, ports := p0 })
    exact ⟨f, p, (congrArg (fun u : State => u.each r fun t p => t.ctrlAdd p m n) h0).trans h⟩

/-- The state with another ARM. -/
def withArm (s : State) (a : Option ArmOp) : State := { s with sched := { s.sched with arm := a } }

theorem slotState_withArm (a : Option ArmOp) (j : Nat) : (withArm s a).slotState j = s.slotState j := rfl

/-- What an accepted ARM or DISARM leaves: the slot's new state, the ARM and the answer. -/
def moved (s : State) (a : Option ArmOp) (i st cmd : Nat) : State := answered ((withArm s a).setSlot i st) cmd i 0

section
variable (a : Option ArmOp) (st cmd : Nat)

theorem moved_frame {β : Type} (g : State → β) (hg : ∀ u : State, ∀ x y z, g { u with regs := x, latches := y, sched := z } = g u) :
    g (moved s a i st cmd) = g s :=
  hg s (moved s a i st cmd).regs s.latches (withArm s a).sched

theorem moved_sched : (moved s a i st cmd).sched = { s.sched with arm := a } := rfl

theorem moved_slots (hi : i < 8) (hst : st < 8) : (moved s a i st cmd).slotState i = st ∧ s.SlotsKept (moved s a i st cmd) i := by
  refine ⟨?_, fun j hj hne => ⟨?_, rfl⟩⟩
  · rw [moved, slotState_answered, slotState_setSlot_self hi hst]
  · rw [moved, slotState_answered, slotState_setSlot _ st j hi, if_neg hne, slotState_withArm]

end

theorem exec_schArm_accepted (hinv : s.Inv) (hi : i < 8) (hready : s.imgReady who = true) (hcheck : s.armCheck i = 0) :
    ∃ t, exec (.schArm who i) s = .next t ∧ t.slotState i = 4 ∧ s.SlotsKept t i ∧ t.ImgAnswer 4 i 0 ∧
      t.sched.arm = some ⟨i, s.getF pgDEVSCH SCH_ARM_T.TIME, s.flag pgDEVSCH SCH_ARM_CTL.PAIR, false, false⟩ ∧ t.packets = s.packets := by
  generalize hu : moved s (some ⟨i, s.getF pgDEVSCH SCH_ARM_T.TIME, s.flag pgDEVSCH SCH_ARM_CTL.PAIR, false, false⟩) i 4 4 = u
  obtain ⟨f, p, heq⟩ : ∃ f p, exec (.schArm who i) s = State.done { u with ffl := f, ports := p } := by
    have hexec : exec (.schArm who i) s = (u.onlyIf (s.flag pgDEVSCH SCH_ARM_CTL.PAIR) fun u =>
        u.mirMsg (.armReport (s.getF pgDEVSCH SCH_ARM_T.TIME) (((u.slotImg i).map (·.number)).getD 0)) 3).done := by
      show execSchArm who i s = _
      rw [execSchArm, imgCmd_of_ready hready, Nat.mod_eq_of_lt hi, State.schArm, hcheck, ← hu]
      rfl
    rw [hexec, State.onlyIf]
    split
    · obtain ⟨f, p, h⟩ := mirMsg_eq (s := u) (.armReport (s.getF pgDEVSCH SCH_ARM_T.TIME) (((u.slotImg i).map (·.number)).getD 0)) 3
      exact ⟨f, p, by rw [h]⟩
    · exact ⟨u.ffl, u.ports, rfl⟩
  obtain ⟨hst, hkept⟩ := hu ▸ moved_slots (some ⟨i, s.getF pgDEVSCH SCH_ARM_T.TIME, s.flag pgDEVSCH SCH_ARM_CTL.PAIR, false, false⟩) 4 4 hi (by decide)
  have hans : u.ImgAnswer 4 i 0 := hu ▸ answered_answer (by decide) hi (by decide)
  have hsched : u.sched.arm = some ⟨i, s.getF pgDEVSCH SCH_ARM_T.TIME, s.flag pgDEVSCH SCH_ARM_CTL.PAIR, false, false⟩ := by rw [← hu, moved_sched]
  have hpackets : u.packets = s.packets := hu ▸ moved_frame _ _ _ State.packets fun _ _ _ _ => rfl
  have hfiring : u.firing = s.firing := hu ▸ moved_frame _ _ _ State.firing fun _ _ _ _ => rfl
  have htrace : u.trace = s.trace := hu ▸ moved_frame _ _ _ State.trace fun _ _ _ _ => rfl
  have hswb : u.swb = s.swb := hu ▸ moved_frame _ _ _ State.swb fun _ _ _ _ => rfl
  have hdone := done_eq (t := { u with ffl := f, ports := p }) hinv hfiring htrace hpackets hswb
  exact ⟨_, heq.trans hdone, hst, hkept, hans, hsched, hpackets⟩

theorem exec_schDisarm_ends {a : ArmOp} (hinv : s.Inv) (hi : i < 8) (hready : s.imgReady who = true) (harm : s.sched.arm = some a) (ha : a.slot = i)
    (hearly : s.fabric + 20000 < a.tick) : ∃ t, exec (.schDisarm who i) s = .next t ∧ t.slotState i = 2 ∧ s.SlotsKept t i ∧
      t.ImgAnswer 5 i 0 ∧ t.sched.arm = none ∧ t.sched.active = s.sched.active ∧ t.packets = s.packets := by
  have heq : exec (.schDisarm who i) s = (moved s none i 2 5).done := by
    show execSchDisarm who i s = _
    rw [execSchDisarm, imgCmd_of_ready hready, Nat.mod_eq_of_lt hi, State.schDisarm]
    simp only [harm, ha, ne_eq, not_true, if_false, if_neg (Nat.not_le.2 hearly)]
    rfl
  obtain ⟨hst, hkept⟩ := moved_slots (s := s) none 2 5 hi (by decide)
  have hpackets : (moved s none i 2 5).packets = s.packets := moved_frame _ _ _ State.packets fun _ _ _ _ => rfl
  refine ⟨_, heq.trans (done_eq hinv ?_ ?_ hpackets ?_), hst, hkept, answered_answer (by decide) hi (by decide), ?_, ?_, hpackets⟩
  · exact moved_frame _ _ _ State.firing fun _ _ _ _ => rfl
  · exact moved_frame _ _ _ State.trace fun _ _ _ _ => rfl
  · exact moved_frame _ _ _ State.swb fun _ _ _ _ => rfl
  · rw [moved_sched]
  · rw [moved_sched]

/-! ### Other codes -/

theorem exec_schBadCmd_refused {code : Nat} (hi : i < 8) (hready : s.imgReady who = true) (hcode : code < 16) (hbad : code = 0 ∨ 5 < code) :
    ∃ t, exec (.schBadCmd who code i) s = .next t ∧ t.ImgAnswer code i 0x1F ∧ t.sched = s.sched ∧
      ∀ c < 4, s.cellarRun c = true → s.fltMasked (pgSCH c * 32 + 5) = false → t.fltSet (pgSCH c * 32 + 5) = true := by
  have heq : exec (.schBadCmd who code i) s = ((answered s code i 0x1F).schFire 5).done := by
    show execSchBadCmd who code i s = _
    rw [execSchBadCmd, Nat.mod_eq_of_lt hcode, if_neg (by omega), imgCmd_of_ready hready, Nat.mod_eq_of_lt hi, imgRes_refused _ _ _ (by decide)]
  have hsame := ((keeps_schFire (answered s code i 0x1F) 5).trans (keeps_close _)).sameDevSch
  obtain ⟨hdone, hcmd, hslot, hres⟩ := answered_answer (s := s) (result := 0x1F) hcode hi (by decide)
  refine ⟨_, heq.trans (done_next _), ⟨?_, ?_, ?_, ?_⟩, ?_, fun c hc hrun hm => ?_⟩
  · exact (congrArg (· == 1) (hsame.getF SCH_IMG_RES.DONE (by decide))).trans hdone
  · exact (hsame.getF SCH_IMG_RES.CMD (by decide)).trans hcmd
  · exact (hsame.getF SCH_IMG_RES.SLOT (by decide)).trans hslot
  · exact (hsame.getF SCH_IMG_RES.RESULT (by decide)).trans hres
  · exact ((keeps_schFire (answered s code i 0x1F) 5).trans (keeps_close _)).sched
  · have hrun' : (answered s code i 0x1F).cellarRun c = true := by
      unfold State.cellarRun State.cellarState at hrun ⊢
      rw [reg_answered (by decide)]
      exact hrun
    have hm' : (answered s code i 0x1F).fltMasked (pgSCH c * 32 + 5) = false := by
      refine (fltMasked_of_reg (reg_answered ?_)).trans hm
      interval_cases c <;> decide
    rw [schFire_eq]
    refine fltSet_closed (f := ⟨pgSCH c * 32 + 5, 31, 63, true, false⟩) ?_ hm' (by interval_cases c <;> decide)
    exact List.mem_append_right _ (List.mem_map.2 ⟨c, List.mem_filter.2 ⟨List.mem_range.2 hc, hrun'⟩, rfl⟩)

/-- Settles O24: each command of Table 5.13 moves its own slot and answers, and another code is refused. -/
theorem imageCommandsMoveTheirSlot : Obligations.ImageCommandsMoveTheirSlot := by
  intro s who i code v a hinv hi hready
  refine ⟨exec_schLoad_flash hinv hi hready, exec_schHold_fallback hinv hi hready, exec_schRelease_empties hinv hi hready,
    exec_schArm_accepted hinv hi hready, fun harm ha hearly => ?_, exec_schBadCmd_refused hi hready⟩
  exact exec_schDisarm_ends hinv hi hready harm ha hearly

end Sys2Proof.ImageCommands
end

section
/-! ## Repair items (O23) -/

namespace Sys2Proof.Repair

open Sys2Proof Sys2Proof.Machine Sys2Proof.Laws Sys2Proof.Support Sys2Proof.Collector

variable {s : State} {p q : Nat}

/-- What the repair item of a PCIe port leaves: HBM, registers, and the port's slip and next period stay. -/
structure Repaired (s u : State) (p : Nat) : Prop where
  hbm : u.hbm = s.hbm
  regs : u.regs = s.regs
  slip : u.slip p = s.slip p
  nextPer : (u.port p).nextPer = (s.port p).nextPer
  sent : .replayed p ∈ u.out ∨ .upkeep p ∈ u.out

theorem hasLink_of_pcie (hffl : s.isFfl p = false) (hp : p < 64) : s.hasLink p = false := by simp [State.hasLink, hp, hffl]

/-- Two updates of the port's repair state, and the item's output. -/
theorem repaired_emit (f g : PortSt → PortSt) {o : Output} (ho : o = .replayed p ∨ o = .upkeep p)
    (hf : ∀ y, (f y).slip = y.slip ∧ (f y).nextPer = y.nextPer) (hg : ∀ y, (g y).slip = y.slip ∧ (g y).nextPer = y.nextPer) :
    Repaired s (((s.modPort p f).modPort p g).emit o) p := by
  have hport : (((s.modPort p f).modPort p g).emit o).port p = g (f (s.port p)) :=
    (port_modPort_self (s.modPort p f) p g).trans (congrArg g (port_modPort_self s p f))
  refine ⟨rfl, rfl, ?_, ?_, ?_⟩
  · rw [State.slip, hport, (hg _).1, (hf _).1]; rfl
  · rw [hport, (hg _).2, (hf _).2]
  · have hmem : o ∈ (((s.modPort p f).modPort p g).emit o).out := by simp [State.emit]
    rcases ho with rfl | rfl
    · exact .inl hmem
    · exact .inr hmem

theorem repaired_sendRepair (hp : p < 64) (hffl : s.isFfl p = false) : Repaired s (s.sendRepair p) p := by
  unfold State.sendRepair
  simp only [hasLink_of_pcie hffl hp, Bool.false_eq_true, if_false, Bool.not_false, if_true]
  repeat' split
  · exact repaired_emit _ _ (.inr rfl) (fun _ => ⟨rfl, rfl⟩) fun _ => ⟨rfl, rfl⟩
  · exact repaired_emit _ _ (.inr rfl) (fun _ => ⟨rfl, rfl⟩) fun _ => ⟨rfl, rfl⟩
  · exact repaired_emit _ _ (.inl rfl) (fun _ => ⟨rfl, rfl⟩) fun _ => ⟨rfl, rfl⟩

/-! ### A theft of a period -/

/-- A slip that the register can show draws nothing, and stands in the port and in SCH_PORTSTS. -/
theorem putSlip_of_lt {v : Nat} (hv : v < 16) (s : State) :
    s.putSlip p v = (s.modPort p fun y => { y with slip := v }).setF (pgSCH (cellarOf p)) SCH_PORTSTS.SLIP v (State.localPort p) := by
  simp only [State.putSlip, State.slipShown, if_pos hv]

theorem slipCapture_frame (s : State) (p q t : Nat) (b : Bool) :
    s.slipCapture p q t b = { s with regs := (s.slipCapture p q t b).regs, firing := s.firing ++ [⟨pgSCH (cellarOf p) * 32 + 0, 31, 63, true, false⟩] } := by
  unfold State.slipCapture
  dsimp only
  split <;> rfl

/-- The registers of the first slip are SCH_SLIP_T and SCH_SLIP_INFO. -/
theorem getF_slipCapture (s : State) (p q t : Nat) (b : Bool) (i : Nat) (hi : i < 16) :
    (s.slipCapture p q t b).getF (pgSCH (cellarOf p)) SCH_PORTSTS.STOLEN i = s.getF (pgSCH (cellarOf p)) SCH_PORTSTS.STOLEN i := by
  have hkey : ∀ f : FRef, f.off + f.stride * 0 < 0x140 → State.fkey (pgSCH (cellarOf p)) SCH_PORTSTS.STOLEN i ≠ State.fkey (pgSCH (cellarOf p)) f 0 :=
    fun f hf => by
      simp only [State.fkey, SCH_PORTSTS.STOLEN]
      omega
  have hset : ∀ (u : State) f v, f.off + f.stride * 0 < 0x140 →
      (u.setF (pgSCH (cellarOf p)) f v).getF (pgSCH (cellarOf p)) SCH_PORTSTS.STOLEN i = u.getF (pgSCH (cellarOf p)) SCH_PORTSTS.STOLEN i :=
    fun u f v hf => getF_setF_other u _ _ _ _ _ _ _ (.inl (hkey f hf))
  unfold State.slipCapture
  dsimp only
  split
  · rfl
  · unfold State.setFlag
    rw [hset _ _ _ (by decide), hset _ _ _ (by decide), hset _ _ _ (by decide), hset _ _ _ (by decide), hset _ _ _ (by decide)]
    rfl

/-- What a theft leaves: the slip one up, STOLEN one up; HBM, outputs and the next period stay. -/
structure Stolen (s u : State) (p : Nat) : Prop where
  hbm : u.hbm = s.hbm
  out : u.out = s.out
  slip : u.slip p = s.slip p + 1
  nextPer : (u.port p).nextPer = (s.port p).nextPer
  stolen : u.getF (pgSCH (cellarOf p)) SCH_PORTSTS.STOLEN (p % 16) =
    satAdd (State.fmax SCH_PORTSTS.STOLEN) (s.getF (pgSCH (cellarOf p)) SCH_PORTSTS.STOLEN (p % 16)) 1

theorem setSlip_of_lt {v : Nat} (hv : v < 16) (s : State) : ∃ x, s.setSlip p v =
    ((s.modPort p fun y => { y with slip := v }).setF (pgSCH (cellarOf p)) SCH_PORTSTS.SLIP v (State.localPort p)).setF
      (pgSCH (cellarOf p)) SCH_PORTSTS.PEAK x (State.localPort p) := ⟨_, by rw [← putSlip_of_lt hv]; rfl⟩

theorem stolen_setSlip (hslip : s.slip p < 15) :
    Stolen s ((s.setSlip p (s.slip p + 1)).addF (pgSCH (cellarOf p)) SCH_PORTSTS.STOLEN 1 (State.localPort p)) p := by
  obtain ⟨x, hx⟩ := setSlip_of_lt (p := p) (show s.slip p + 1 < 16 by omega) s
  have hport : (s.setSlip p (s.slip p + 1)).port p = { s.port p with slip := s.slip p + 1 } := by
    rw [hx]
    exact port_modPort_self s p fun y => { y with slip := s.slip p + 1 }
  have hstolen : (s.setSlip p (s.slip p + 1)).getF (pgSCH (cellarOf p)) SCH_PORTSTS.STOLEN (State.localPort p) =
      s.getF (pgSCH (cellarOf p)) SCH_PORTSTS.STOLEN (State.localPort p) := by
    rw [hx, getF_setF_other _ _ _ _ _ _ _ _ (.inr (by decide)), getF_setF_other _ _ _ _ _ _ _ _ (.inr (by decide))]
    rfl
  have hhbm : (s.setSlip p (s.slip p + 1)).hbm = s.hbm := by rw [hx]; rfl
  have hout : (s.setSlip p (s.slip p + 1)).out = s.out := by rw [hx]; rfl
  have hper : ((s.setSlip p (s.slip p + 1)).port p).nextPer = (s.port p).nextPer := by rw [hport]
  have hslip1 : ((s.setSlip p (s.slip p + 1)).port p).slip = s.slip p + 1 := by rw [hport]
  have hadd : ∀ x : State, (x.addF (pgSCH (cellarOf p)) SCH_PORTSTS.STOLEN 1 (State.localPort p)).port p = x.port p := fun _ => rfl
  refine ⟨hhbm, hout, (congrArg PortSt.slip (hadd _)).trans hslip1, (congrArg PortSt.nextPer (hadd _)).trans hper, ?_⟩
  exact (getF_addF_self _ _ _ _ _ (by decide)).trans (by rw [hstolen]; rfl)

theorem stolen_steal (s : State) (hslip : s.slip p < 15) (t : Nat) (b : Bool) : Stolen s (s.steal p q t b) p := by
  have hbase := stolen_setSlip hslip
  unfold State.steal
  dsimp only
  cases s.slip p == 0 with
  | false => exact hbase
  | true =>
    have hcap := slipCapture_frame ((s.setSlip p (s.slip p + 1)).addF (pgSCH (cellarOf p)) SCH_PORTSTS.STOLEN 1 (State.localPort p)) p q t b
    refine ⟨(congrArg State.hbm hcap).trans hbase.hbm, (congrArg State.out hcap).trans hbase.out, (congrArg (State.slip · p) hcap).trans hbase.slip,
      (congrArg (fun u => (u.port p).nextPer) hcap).trans hbase.nextPer, ?_⟩
    exact (getF_slipCapture _ p q t b _ (Nat.mod_lt _ (by decide))).trans hbase.stolen

/-! ### The accounts -/

theorem account_frame (s : State) (p : Nat) (c : State.SaClass) (own dlv : Bool) : s.account p c own dlv = { s with regs := (s.account p c own dlv).regs } := by
  unfold State.account
  dsimp only
  split
  · rfl
  · cases own <;> cases dlv <;> rfl

/-- The accounts' page is not the port's page of the schedule. -/
theorem getF_account_repair (s : State) (p : Nat) :
    (s.account p .repair false false).getF (pgSCH (cellarOf p)) SCH_PORTSTS.STOLEN (p % 16) =
      s.getF (pgSCH (cellarOf p)) SCH_PORTSTS.STOLEN (p % 16) := by
  have hkey : State.fkey (pgSCH (cellarOf p)) SCH_PORTSTS.STOLEN (p % 16) ≠
      State.fkey (pgPMUA (cellarOf p) (p % 16)) PMU_SA_REPAIR.COUNT (p % 8) := by
    simp only [State.fkey, SCH_PORTSTS.STOLEN, PMU_SA_REPAIR.COUNT, pgSCH, pgPMUA, celPage, pageIx, cellarOf]
    omega
  unfold State.account
  dsimp only
  split
  · rfl
  · exact getF_setF_other _ _ _ _ _ _ _ _ (.inl hkey)

/-! ### The obligation -/

/-- What a theft of the period leaves, its firings handled. -/
theorem stealNow_closed (hp : p < 64) (hffl : s.isFfl p = false) (hslip : s.slip p < 15) {t : State}
    (ht : t = (s.stealNow p q).settle.sweepTrace) : t.slip p = s.slip p + 1 ∧
      t.getF (pgSCH (cellarOf p)) SCH_PORTSTS.STOLEN (p % 16) =
        satAdd (State.fmax SCH_PORTSTS.STOLEN) (s.getF (pgSCH (cellarOf p)) SCH_PORTSTS.STOLEN (p % 16)) 1 ∧
      (Output.replayed p ∈ t.out ∨ Output.upkeep p ∈ t.out) ∧ (t.port p).nextPer = (s.port p).nextPer ∧ t.hbm = s.hbm := by
  obtain ⟨hhbm, hregs, hslip1, hper1, hsent⟩ := repaired_sendRepair hp hffl
  obtain ⟨hhbm2, hout2, hslip2, hper2, hstolen⟩ := stolen_steal (q := q) (s.sendRepair p) (hslip1 ▸ hslip) s.fabric false
  have hacc := account_frame ((s.sendRepair p).steal p q s.fabric false) p .repair false false
  have hpage : ∀ c < 4, pgSCH c ≠ pgFLT ∧ pageKind (pgSCH c) ≠ some .dmac := by decide
  obtain ⟨hflt, hdma⟩ := hpage (cellarOf p) (by unfold cellarOf; omega)
  have hoff : SCH_PORTSTS.STOLEN.off + SCH_PORTSTS.STOLEN.stride * (p % 16) < 4096 ∧
      SCH_PORTSTS.STOLEN.off + SCH_PORTSTS.STOLEN.stride * (p % 16) ≠ FLT_CAUSE.BITS.off := by
    simp only [SCH_PORTSTS.STOLEN, FLT_CAUSE.BITS]
    omega
  have happart := apart_fkey (pg := pgSCH (cellarOf p)) hoff.1 hflt hoff.2 hdma
  have hnow : ∀ {β : Type} (g : State → β), (∀ u r, g { u with regs := r } = g u) →
      g (s.stealNow p q) = g ((s.sendRepair p).steal p q s.fabric false) := fun g hg => (congrArg g hacc).trans (hg _ _)
  have hports : t.ports = ((s.sendRepair p).steal p q s.fabric false).ports := by
    rw [ht]
    exact (settle_ports (s.stealNow p q)).trans (hnow State.ports fun _ _ => rfl)
  have hport : t.port p = ((s.sendRepair p).steal p q s.fabric false).port p := congrArg (fun ps => storeGet _ ps p) hports
  have hkept : ∀ o ∈ ((s.sendRepair p).steal p q s.fabric false).out, o ∈ t.out := fun o ho => by
    rw [ht]
    exact collects_sent.settle (s.stealNow p q) o ((hnow State.out fun _ _ => rfl).symm ▸ ho)
  refine ⟨?_, ?_, ?_, ?_, ?_⟩
  · exact (congrArg PortSt.slip hport).trans (hslip2.trans (congrArg (· + 1) hslip1))
  · rw [ht, getF_closed happart (s.stealNow p q)]
    · exact (getF_account_repair _ p).trans (hstolen.trans (by rw [getF_of_reg]; rw [State.reg, hregs]; rfl))
  · exact hsent.imp (fun h => hkept _ (hout2 ▸ h)) fun h => hkept _ (hout2 ▸ h)
  · exact (congrArg PortSt.nextPer hport).trans (hper2.trans hper1)
  · rw [ht]
    exact (settle_hbm (s.stealNow p q)).trans ((hnow State.hbm fun _ _ => rfl).trans (hhbm2.trans hhbm))

/-- SLIP_MAX shows at most 15 periods. -/
theorem slipMax_le (s : State) (p : Nat) : s.slipMax p ≤ 15 :=
  Nat.le_of_lt_succ (by unfold State.slipMax State.getF bitsOf; exact Nat.mod_lt _ (by decide))

/-- What the report of SLIP_LIMIT leaves, its firings handled. -/
theorem slipLimit_closed (h : (s.port p).limitHit = false) (hm : s.fltMasked (pgSCH (cellarOf p) * 32 + 1) = false) (hp : p < 64) {t : State}
    (ht : t = (s.slipLimit p).settle.sweepTrace) : (t.port p).limitHit = true ∧ t.fltSet (pgSCH (cellarOf p) * 32 + 1) = true ∧
      t.slip p = s.slip p ∧ t.hbm = s.hbm := by
  have hlimit : s.slipLimit p = (s.modPort p fun x => { x with limitHit := true }).fire (pgSCH (cellarOf p)) 1 := by
    simp only [State.slipLimit, h, Bool.false_eq_true, if_false]
  have hport : t.port p = { s.port p with limitHit := true } := by
    have hports : t.ports = (s.modPort p fun x => { x with limitHit := true }).ports := by
      rw [ht, hlimit]
      exact settle_ports _
    exact (congrArg (fun ps => storeGet _ ps p) hports).trans (port_modPort_self s p fun x => { x with limitHit := true })
  refine ⟨by rw [hport], ?_, by rw [State.slip, hport]; rfl, ?_⟩
  · have hne : ∀ c < 4, pgSCH c * 32 + 1 ≠ pgFLT * 32 + 2 := by decide
    rw [ht, hlimit]
    exact fltSet_closed (f := ⟨pgSCH (cellarOf p) * 32 + 1, 31, 63, true, false⟩) (List.mem_append_right _ List.mem_cons_self) hm
      (hne _ (by unfold cellarOf; omega))
  · rw [ht, hlimit]
    exact settle_hbm _

/-- An upkeep item of a PCIe port joins the others. -/
theorem upkeepDue_of_pcie (hp : p < 64) (hffl : s.isFfl p = false) :
    s.upkeepDue p = s.modPort p fun x => { x with upkeep := x.upkeep ++ [s.fabric] } := by
  have hf : ¬ 64 ≤ p := by omega
  unfold State.upkeepDue State.upkeepFrom
  congr 1
  funext x
  cases hx : x.upkeep <;> simp [hffl, hf]

/-- Settles O23: a PCIe port's items join the pending ones, and one that has waited steals the period or reports SLIP_LIMIT. -/
theorem repairItemsTakePeriods : Obligations.RepairItemsTakePeriods := by
  unfold Obligations.RepairItemsTakePeriods
  intro s p q hinv hp hen hffl
  have hp' : ¬ 64 ≤ p := by omega
  refine ⟨?_, ?_, fun hfatal hl0 hgrid hper hsteal => ?_⟩
  · have hrun : exec (.repairItemDue p 0) s = (s.replayDue p).done := by
      show execRepairItemDue p 0 s = _
      simp [execRepairItemDue, hp', hen, hffl]
    exact hrun.trans (done_eq hinv rfl rfl rfl rfl)
  · have hrun : exec (.repairItemDue p 1) s = (s.upkeepDue p).done := by
      show execRepairItemDue p 1 s = _
      simp [execRepairItemDue, hp', hen]
    rw [hrun, upkeepDue_of_pcie hp hffl]
    exact done_eq hinv rfl rfl rfl rfl
  have hgo : ¬ (64 ≤ p ∨ s.devFatal = true ∨ s.portEn p = false ∨ s.inL0 p = false ∨ s.onGrid p s.fabric = false
      ∨ s.fabric < (s.port p).nextPer) := by
    simp [hp', hfatal, hen, hl0, hgrid]
    omega
  refine ⟨fun hslip => ⟨((s.modPort p fun x => { x with nextPer := s.fabric + s.fper p, wire := none }).stealNow p q).settle.sweepTrace, ?_, ?_⟩,
    fun hslip hlimit hmask => ⟨((s.slipLimit p).settle.sweepTrace), ?_, slipLimit_closed hlimit hmask hp rfl⟩⟩
  · show execRepairWaitExpire p s = _
    simp only [execRepairWaitExpire, if_neg hgo, hsteal, if_pos hslip]
    rfl
  · have hport := port_modPort_self s p fun x => { x with nextPer := s.fabric + s.fper p, wire := none }
    have hslip0 : (s.modPort p fun x => { x with nextPer := s.fabric + s.fper p, wire := none }).slip p = s.slip p := by
      rw [State.slip, hport]
      rfl
    have hmax := slipMax_le s p
    obtain ⟨h1, h2, h3, h4, h5⟩ := stealNow_closed (q := q) (s := s.modPort p fun x => { x with nextPer := s.fabric + s.fper p, wire := none })
      hp hffl (by omega) rfl
    exact ⟨by omega, h2, h3, h4.trans (by rw [hport]), h5⟩
  · show execRepairWaitExpire p s = _
    simp only [execRepairWaitExpire, if_neg hgo, hsteal, if_neg (Nat.not_lt.2 hslip)]
    rfl

end Sys2Proof.Repair
end

section
/-! ## Policers, shapers, queue snapshots and stalls (O20) -/

namespace Sys2Proof.Queues

open Sys2Proof Sys2Proof.Machine Sys2Proof.Laws Sys2Proof.Support Sys2Proof.Collector

/-! ### Credit that a policer held -/

section
variable {s : State} {p c : Nat}

/-- What a release of held credit keeps, besides the state of its port. -/
structure Kept (s t : State) (p : Nat) : Prop where
  other : ∀ q, q ≠ p → t.port q = s.port q
  firing : t.firing = s.firing
  trace : t.trace = s.trace
  packets : t.packets = s.packets
  hbm : t.hbm = s.hbm
  trk : t.trk = s.trk
  sched : t.sched = s.sched
  edge : t.edge = s.edge
  swb : t.swb = s.swb

theorem Kept.refl (s : State) (p : Nat) : Kept s s p := ⟨fun _ _ => rfl, rfl, rfl, rfl, rfl, rfl, rfl, rfl, rfl⟩

theorem Kept.trans {a b d : State} (h : Kept a b p) (g : Kept b d p) : Kept a d p :=
  ⟨fun q hq => (g.other q hq).trans (h.other q hq), g.firing.trans h.firing, g.trace.trans h.trace, g.packets.trans h.packets, g.hbm.trans h.hbm,
    g.trk.trans h.trk, g.sched.trans h.sched, g.edge.trans h.edge, g.swb.trans h.swb⟩

theorem kept_modPort (s : State) (p : Nat) (f : PortSt → PortSt) : Kept s (s.modPort p f) p :=
  ⟨fun _ hq => port_modPort_other s f hq, rfl, rfl, rfl, rfl, rfl, rfl, rfl, rfl⟩

theorem kept_setHold (s : State) (p c : Nat) (b : Bool) : Kept s (s.setHold p c b) p := ⟨fun _ _ => rfl, rfl, rfl, rfl, rfl, rfl, rfl, rfl, rfl⟩

theorem kept_modFfl (s : State) (p : Nat) (f : FflSt → FflSt) : Kept s (s.modFfl p f) p := ⟨fun _ _ => rfl, rfl, rfl, rfl, rfl, rfl, rfl, rfl, rfl⟩

theorem kept_onlyIf {b : Bool} {f : State → State} (h : Kept s (f s) p) : Kept s (s.onlyIf b f) p := by
  cases b
  · exact .refl s p
  · exact h

theorem kept_upkeepDue (s : State) (p : Nat) : Kept s (s.upkeepDue p) p := by
  unfold State.upkeepDue State.upkeepFrom
  exact kept_modPort s p _

theorem kept_grantCells (s : State) (p c n : Nat) : Kept s (s.grantCells p c n) p := by
  unfold State.grantCells
  exact (kept_modFfl s p _).trans (kept_onlyIf (f := fun t => t.upkeepDue p) (kept_upkeepDue _ p))

theorem kept_giveCredit (s : State) (p c n h u : Nat) : Kept s (s.giveCredit p c n h u) p := by
  unfold State.giveCredit
  split
  · split
    · exact .refl s p
    · exact kept_grantCells s p c n
  · split
    · exact .refl s p
    · exact ⟨fun _ _ => rfl, rfl, rfl, rfl, rfl, rfl, rfl, rfl, rfl⟩

theorem heldOf_grantCells (n d : Nat) : (s.grantCells p d n).heldOf p c = s.heldOf p c := by
  have hup : ∀ t : State, (t.upkeepDue p).heldOf p c = t.heldOf p c := fun t => by
    unfold State.upkeepDue State.upkeepFrom State.heldOf
    rw [port_modPort_self]
  unfold State.grantCells
  dsimp only
  cases State.creditDue _ p with
  | false => rfl
  | true => exact hup _

theorem heldOf_giveCredit (n d h u : Nat) : (s.giveCredit p d n h u).heldOf p c = s.heldOf p c := by
  unfold State.giveCredit
  split
  · split
    · rfl
    · exact heldOf_grantCells n d
  · split <;> rfl

/-- What a release leaves of its port: the held credit gone, its register flag down. -/
def dropHeld (s : State) (p c : Nat) : State := (s.modPort p fun x =>
  { x with heldP := if c = 0 then 0 else x.heldP, heldNP := if c = 0 then x.heldNP else 0, heldFc := x.heldFc.filter (·.1 != c) }).setHold p c false

theorem releaseHeld_eq (s : State) (p c : Nat) :
    s.releaseHeld p c = (dropHeld s p c).giveCredit p c (s.heldOf p c) (s.heldFcOf p c).1 (s.heldFcOf p c).2 := rfl

theorem heldOf_dropHeld (s : State) (p c : Nat) : (dropHeld s p c).heldOf p c = 0 := by
  have hport : (dropHeld s p c).port p = { s.port p with
      heldP := if c = 0 then 0 else (s.port p).heldP, heldNP := if c = 0 then (s.port p).heldNP else 0,
      heldFc := (s.port p).heldFc.filter (·.1 != c) } := port_modPort_self s p fun x =>
    { x with heldP := if c = 0 then 0 else x.heldP, heldNP := if c = 0 then x.heldNP else 0, heldFc := x.heldFc.filter (·.1 != c) }
  rw [State.heldOf, hport]
  by_cases h : c = 0 <;> simp [h]

/-- The flags of the policers stand on the queues' pages. -/
theorem getF_dropHeld {pg i : Nat} {f : FRef} (h : State.fkey pg f i / 4096 ≠ State.polPage p) : (dropHeld s p c).getF pg f i = s.getF pg f i := by
  have hoff : ∀ g : FRef, g = QSH_PSTS.P_HOLD ∨ g = QSH_PSTS.NP_HOLD → State.fkey (State.polPage p) g (p % 8) / 4096 = State.polPage p := fun g hg =>
    (fkey_page _ _ _ (by rcases hg with rfl | rfl <;> simp only [QSH_PSTS.P_HOLD, QSH_PSTS.NP_HOLD] <;> omega)).1
  have hne : State.fkey pg f i ≠ State.fkey (State.polPage p) (if c = 0 then QSH_PSTS.P_HOLD else QSH_PSTS.NP_HOLD) (p % 8) := by
    intro he
    rw [he] at h
    split at h
    · exact h (hoff _ (.inl rfl))
    · exact h (hoff _ (.inr rfl))
  exact getF_setF_other _ _ _ _ _ _ _ _ (.inl hne)

theorem getF_dropHeld_link (f : FRef) (ho : f.off < 4096) : (dropHeld s p c).getF (pgLNK p) f 0 = s.getF (pgLNK p) f 0 ∧
    (dropHeld s p c).getF (pgFFL p) f 0 = s.getF (pgFFL p) f 0 := by
  refine ⟨getF_dropHeld ?_, getF_dropHeld ?_⟩
  all_goals
    simp only [State.fkey, pgLNK, pgFFL, State.polPage, pgQSH, celPage, pageIx, cellarOf]
    omega

theorem isFfl_dropHeld : (dropHeld s p c).isFfl p = s.isFfl p := by
  simp only [State.isFfl, State.portEn, State.portRole, State.flag, (getF_dropHeld_link LNK_CFG.EN (by decide)).1,
    (getF_dropHeld_link LNK_CFG.ROLE (by decide)).1]

theorem flag_dropHeld_link : (dropHeld s p c).flag (pgLNK p) LNK_STS.LDOWN = s.flag (pgLNK p) LNK_STS.LDOWN ∧
    (dropHeld s p c).flag (pgFFL p) FFL_STS.LDOWN = s.flag (pgFFL p) FFL_STS.LDOWN :=
  ⟨congrArg (· == 1) (getF_dropHeld_link LNK_STS.LDOWN (by decide)).1, congrArg (· == 1) (getF_dropHeld_link FFL_STS.LDOWN (by decide)).2⟩

/-- What a release sends, and what it grants. -/
theorem releaseHeld_pcie (h : s.isFfl p = false) : (s.releaseHeld p c).ffl = s.ffl ∧ (s.releaseHeld p c).out =
    (if s.flag (pgLNK p) LNK_STS.LDOWN = false ∧ (s.heldFcOf p c).1 ≠ 0 then
      .fcUpdate p c (s.heldFcOf p c).1 (s.heldFcOf p c).2 :: s.out else s.out) := by
  have hffl : (dropHeld s p c).isFfl p = false := isFfl_dropHeld.trans h
  rw [releaseHeld_eq]
  unfold State.giveCredit
  rw [hffl, flag_dropHeld_link.1]
  cases hd : s.flag (pgLNK p) LNK_STS.LDOWN <;> by_cases h0 : (s.heldFcOf p c).1 = 0 <;>
    simp [h0, dropHeld, State.emit, State.setHold, State.modPort, State.setPort]

theorem releaseHeld_ffl (h : s.isFfl p = true) (hd : s.flag (pgFFL p) FFL_STS.LDOWN = false) (hc : c < 2) :
    (s.releaseHeld p c).out = s.out ∧
      (if c = 0 then ((s.releaseHeld p c).fflSt p).ownP = ((s.fflSt p).ownP + s.heldOf p 0) % 65536 ∧ ((s.releaseHeld p c).fflSt p).ownNP = (s.fflSt p).ownNP
        else ((s.releaseHeld p c).fflSt p).ownNP = ((s.fflSt p).ownNP + s.heldOf p 1) % 65536 ∧ ((s.releaseHeld p c).fflSt p).ownP = (s.fflSt p).ownP) := by
  have hffl : (dropHeld s p c).isFfl p = true := isFfl_dropHeld.trans h
  have hgive : s.releaseHeld p c = (dropHeld s p c).grantCells p c (s.heldOf p c) := by
    rw [releaseHeld_eq]
    unfold State.giveCredit
    rw [hffl, flag_dropHeld_link.2, hd]
    rfl
  have hsame : (dropHeld s p c).fflSt p = s.fflSt p := rfl
  have hup : ∀ (t : State) b, (t.onlyIf b fun u => u.upkeepDue p).out = t.out ∧ (t.onlyIf b fun u => u.upkeepDue p).fflSt p = t.fflSt p :=
    fun t b => by cases b <;> exact ⟨rfl, rfl⟩
  rw [hgive]
  unfold State.grantCells
  dsimp only
  rw [(hup _ _).1, (hup _ _).2, fflSt_modFfl_self, hsame]
  refine ⟨rfl, ?_⟩
  by_cases h0 : c = 0
  · subst h0
    exact ⟨rfl, rfl⟩
  · obtain rfl : c = 1 := by omega
    exact ⟨rfl, rfl⟩

theorem exec_policerRelease (hinv : s.Inv) (hc : c < 2) (hdue : (p, c) ∈ s.edge.relDue) : ∃ t, exec (.policerRelease p c) s = .next t ∧
    t.heldOf p c = 0 ∧ t.edge.relDue = s.edge.relDue.erase (p, c) ∧
    (∀ q, q ≠ p → t.port q = s.port q) ∧ t.packets = s.packets ∧ t.hbm = s.hbm ∧ t.trk = s.trk ∧ t.sched = s.sched ∧
    (s.isFfl p = false → t.ffl = s.ffl ∧ t.out = (if s.flag (pgLNK p) LNK_STS.LDOWN = false ∧ (s.heldFcOf p c).1 ≠ 0 then
      .fcUpdate p c (s.heldFcOf p c).1 (s.heldFcOf p c).2 :: s.out else s.out)) ∧
    (s.isFfl p = true → s.flag (pgFFL p) FFL_STS.LDOWN = false → t.out = s.out ∧
      (if c = 0 then (t.fflSt p).ownP = ((s.fflSt p).ownP + s.heldOf p 0) % 65536 ∧ (t.fflSt p).ownNP = (s.fflSt p).ownNP
        else (t.fflSt p).ownNP = ((s.fflSt p).ownNP + s.heldOf p 1) % 65536 ∧ (t.fflSt p).ownP = (s.fflSt p).ownP)) := by
  have hk : ∀ u : State, Kept u (u.releaseHeld p c) p := fun u =>
    ((kept_modPort u p _).trans (kept_setHold _ p c false)).trans (kept_giveCredit _ p c _ _ _)
  obtain ⟨hother, hfiring, htrace, hpackets, hhbm, htrk, hsched, hedge, hswb⟩ :=
    hk { s with edge := { s.edge with relDue := s.edge.relDue.erase (p, c) } }
  have hrun : exec (.policerRelease p c) s =
      (({ s with edge := { s.edge with relDue := s.edge.relDue.erase (p, c) } } : State).releaseHeld p c).done := by
    show execPolicerRelease p c s = _
    rw [execPolicerRelease, if_pos (List.contains_iff_mem.2 hdue)]
  refine ⟨_, hrun.trans (done_eq hinv hfiring htrace hpackets hswb), ?_, congrArg EdgeSt.relDue hedge, hother, hpackets, hhbm, htrk, hsched,
    fun hf => releaseHeld_pcie hf, fun hf hd => releaseHeld_ffl hf hd hc⟩
  rw [releaseHeld_eq, heldOf_giveCredit]
  exact heldOf_dropHeld _ p c

end

/-! ### Shaper parameters -/

section
variable {s : State} {c h i : Nat}

/-- The definitions of QSH_SRATE and QSH_SBURST. -/
def rateDef : RegDef := ⟨0x200, 8, 64, false, 0, [⟨31, 31, .rws, .any⟩, ⟨16, 0, .rws, .range 0 65536⟩]⟩
def burstDef : RegDef := ⟨0x204, 8, 64, false, 18, [⟨11, 0, .rws, .range 1 4095⟩]⟩

theorem regAt_shaperPage : ∀ n < 8, ∀ i < 64, regAt (State.qshPage n) (0x200 + 8 * i) = some (rateDef, i) ∧
    regAt (State.qshPage n) (0x204 + 8 * i) = some (burstDef, i) := by decide +kernel

theorem qshPage_eq {c h : Nat} (hh : h < 2) : State.qshPage (2 * c + h) = celPage c (3 + h) := by
  rw [State.qshPage, show (2 * c + h) / 2 = c by omega, show (2 * c + h) % 2 = h by omega]

theorem regAt_shaper (hc : c < 4) (hh : h < 2) (hi : i < 64) : regAt (celPage c (3 + h)) (0x200 + 8 * i) = some (rateDef, i) ∧
    regAt (celPage c (3 + h)) (0x204 + 8 * i) = some (burstDef, i) :=
  qshPage_eq hh ▸ regAt_shaperPage (2 * c + h) (by omega) i hi

theorem pageKind_qsh : ∀ c < 4, ∀ h < 2, pageKind (celPage c (3 + h)) = some .qsh := by decide

/-- A write of a register whose page is not sealed stores what its fields admit. -/
theorem plainWrite_unsealed {k : Nat} (h : s.pageSealed (k / 4096) = false) (fs : List FieldDef) (v : Dword) :
    s.plainWrite k fs v = s.setReg k (regAfter fs false (s.reg k) v) := by
  simp only [State.plainWrite, h, Bool.false_and, onlyIf_false]

theorem exec_shaperParamWrite {who : Requester} {f : FRef} {v : Word} (hc : c < 4) (hh : h < 2) (hi : i < 64)
    (hf : f = QSH_SRATE.RATE ∨ f = QSH_SBURST.BURST) (hg : s.grants who (celPage c (3 + h)) f i = true) :
    exec (.shaperParamWrite who (State.offOf (celPage c (3 + h)) f i) v) s =
      (s.shaperWrite (State.offOf (celPage c (3 + h)) f i) v).done := by
  obtain ⟨hr, hb⟩ := regAt_shaper hc hh hi
  have ho : f.off + f.stride * i < 4096 ∧ (f.off + f.stride * i) % 4 = 0 ∧ 0x200 ≤ f.off + f.stride * i ∧ f.off + f.stride * i < 0x400 := by
    rcases hf with rfl | rfl <;> simp only [QSH_SRATE.RATE, QSH_SBURST.BURST] <;> omega
  have hkey : s.latchKey (State.offOf (celPage c (3 + h)) f i) = none := by
    rcases hf with rfl | rfl
    · exact latchKey_narrow ho.1 hr rfl (show (0x200 : Nat) ≠ 0x100 by decide)
    · exact latchKey_narrow ho.1 hb rfl (show (0x204 : Nat) ≠ 0x100 by decide)
  obtain ⟨hp, hm⟩ := fkey_page (celPage c (3 + h)) f i ho.1
  show execShaperParamWrite who (State.fkey (celPage c (3 + h)) f i) v s = _
  rw [execShaperParamWrite, hp, hm, if_pos ⟨pageKind_qsh c hc h hh, ho.2.1, .inl ho.2.2⟩]
  exact congrArg State.done (withAccess_narrow _ hg hkey)

theorem rateWrite_eq (hc : c < 4) (hh : h < 2) (hi : i < 64) (hs : s.pageSealed (celPage c (3 + h)) = false) (v : Word) :
    s.shaperWrite (State.offOf (celPage c (3 + h)) QSH_SRATE.RATE i) v = s.setReg (State.fkey (celPage c (3 + h)) QSH_SRATE.RATE i)
      (regAfter rateDef.flds false (s.reg (State.fkey (celPage c (3 + h)) QSH_SRATE.RATE i)) (v.zeroExtend 64)) := by
  have ho : QSH_SRATE.RATE.off + QSH_SRATE.RATE.stride * i < 4096 := by simp only [QSH_SRATE.RATE]; omega
  obtain ⟨hp, hm⟩ := fkey_page (celPage c (3 + h)) QSH_SRATE.RATE i ho
  have h8 : (State.fkey (celPage c (3 + h)) QSH_SRATE.RATE i % 8 == 4) = false := by
    simp only [State.fkey, celPage, pageIx, QSH_SRATE.RATE, beq_eq_false_iff_ne]
    omega
  have hr : regAt (celPage c (3 + h)) (QSH_SRATE.RATE.off + QSH_SRATE.RATE.stride * i) = some (rateDef, i) := (regAt_shaper hc hh hi).1
  simp only [State.shaperWrite, State.offOf, hp, hm, hr, h8, onlyIf_false]
  exact plainWrite_unsealed (by rw [hp]; exact hs) _ _

theorem noteBurst_edge (k : Nat) : ∃ e, s.noteBurst k = { s with edge := e } ∧ k ∈ e.cuts.map (·.1) := by
  by_cases h : s.edge.cuts.any (·.1 == k) = true
  · refine ⟨s.edge, by simp only [State.noteBurst, h, if_true], ?_⟩
    obtain ⟨x, hx, he⟩ := List.any_eq_true.1 h
    exact List.mem_map.2 ⟨x, hx, beq_iff_eq.1 he⟩
  · refine ⟨{ s.edge with cuts := s.edge.cuts ++ [(k, (s.reg k).toNat % 4096)] }, ?_, ?_⟩
    · simp only [State.noteBurst, h]
      rfl
    · simp

theorem burstWrite_eq (hc : c < 4) (hh : h < 2) (hi : i < 64) (hs : s.pageSealed (celPage c (3 + h)) = false) (v : Word) :
    s.shaperWrite (State.offOf (celPage c (3 + h)) QSH_SBURST.BURST i) v =
      (s.noteBurst (State.fkey (celPage c (3 + h)) QSH_SBURST.BURST i)).setReg (State.fkey (celPage c (3 + h)) QSH_SBURST.BURST i)
      (regAfter burstDef.flds false (s.reg (State.fkey (celPage c (3 + h)) QSH_SBURST.BURST i)) (v.zeroExtend 64)) := by
  have ho : QSH_SBURST.BURST.off + QSH_SBURST.BURST.stride * i < 4096 := by simp only [QSH_SBURST.BURST]; omega
  obtain ⟨hp, hm⟩ := fkey_page (celPage c (3 + h)) QSH_SBURST.BURST i ho
  have h8 : (State.fkey (celPage c (3 + h)) QSH_SBURST.BURST i % 8 == 4) = true := by
    simp only [State.fkey, celPage, pageIx, QSH_SBURST.BURST, beq_iff_eq]
    omega
  have hr : regAt (celPage c (3 + h)) (QSH_SBURST.BURST.off + QSH_SBURST.BURST.stride * i) = some (burstDef, i) := (regAt_shaper hc hh hi).2
  obtain ⟨e, he, -⟩ := noteBurst_edge (s := s) (State.fkey (celPage c (3 + h)) QSH_SBURST.BURST i)
  simp only [State.shaperWrite, State.offOf, hp, hm, hr, h8, onlyIf_true]
  rw [plainWrite_unsealed (by rw [hp, he]; exact hs)]
  rw [he]
  rfl

theorem bitsOf_regAfter_rate (old : Dword) (v : Word) :
    bitsOf (regAfter rateDef.flds false old (v.zeroExtend 64)) 16 0 = (if v.toNat % 2 ^ 17 ≤ 0x10000 then v.toNat % 2 ^ 17 else bitsOf old 16 0) ∧
    bitsOf (regAfter rateDef.flds false old (v.zeroExtend 64)) 31 31 = v.toNat / 2 ^ 31 % 2 := by
  have e : regAfter rateDef.flds false old (v.zeroExtend 64) = bitsPut (bitsPut old 31 31 (bitsOf (v.zeroExtend 64) 31 31)) 16 0
      (fieldAfter ⟨16, 0, .rws, .range 0 65536⟩ false old (v.zeroExtend 64)) := rfl
  have hlow : bitsOf (v.zeroExtend 64) 16 0 = v.toNat % 2 ^ 17 := Counters.bitsOf_zeroExtend v 16 0
  have hold : bitsOf old 16 0 < 2 ^ 17 := Nat.mod_lt _ (by decide)
  rw [e]
  constructor
  · rw [bitsOf_bitsPut_self _ _ (by decide)]
    simp only [fieldAfter, ruleAdmits, hlow, Bool.false_eq_true, if_false, Nat.zero_le, true_and, decide_eq_true_eq]
    split <;> omega
  · rw [bitsOf_bitsPut_other _ _ (by decide), bitsOf_bitsPut_self _ _ (by decide), Counters.bitsOf_zeroExtend, Nat.shiftRight_eq_div_pow]
    simp

theorem bitsOf_regAfter_burst (old : Dword) (v : Word) (hv : 1 ≤ v.toNat % 4096) :
    bitsOf (regAfter burstDef.flds false old (v.zeroExtend 64)) 11 0 = v.toNat % 4096 := by
  have e : regAfter burstDef.flds false old (v.zeroExtend 64) = bitsPut old 11 0 (fieldAfter ⟨11, 0, .rws, .range 1 4095⟩ false old (v.zeroExtend 64)) := rfl
  have hlow : bitsOf (v.zeroExtend 64) 11 0 = v.toNat % 4096 := Counters.bitsOf_zeroExtend v 11 0
  have hmax : v.toNat % 4096 ≤ 4095 := by omega
  rw [e, bitsOf_bitsPut_self _ _ (by decide)]
  simp only [fieldAfter, ruleAdmits, hlow, Bool.false_eq_true, if_false, hv, hmax, and_self, decide_true, if_true]
  omega

/-- A write of a shaper's RATE. -/
theorem exec_rateWrite {who : Requester} {v : Word} (hinv : s.Inv) (hc : c < 4) (hh : h < 2) (hi : i < 64)
    (hs : s.pageSealed (celPage c (3 + h)) = false) (hg : s.grants who (celPage c (3 + h)) QSH_SRATE.RATE i = true) : ∃ t,
    exec (.shaperParamWrite who (State.offOf (celPage c (3 + h)) QSH_SRATE.RATE i) v) s = .next t ∧
    t.getF (celPage c (3 + h)) QSH_SRATE.RATE i = (if v.toNat % 2 ^ 17 ≤ 0x10000 then v.toNat % 2 ^ 17
      else s.getF (celPage c (3 + h)) QSH_SRATE.RATE i) ∧
    t.flag (celPage c (3 + h)) QSH_SRATE.SHAPE_EN i = v.toNat.testBit 31 ∧ s.OnlyRegs t ∧
    ∀ j, j ≠ State.fkey (celPage c (3 + h)) QSH_SRATE.RATE i → t.reg j = s.reg j := by
  have heq := rateWrite_eq hc hh hi hs v
  obtain ⟨hrate, hen⟩ := bitsOf_regAfter_rate (s.reg (State.fkey (celPage c (3 + h)) QSH_SRATE.RATE i)) v
  have hself := (reg_setReg s (State.fkey (celPage c (3 + h)) QSH_SRATE.RATE i) (State.fkey (celPage c (3 + h)) QSH_SRATE.RATE i)
    (regAfter rateDef.flds false (s.reg (State.fkey (celPage c (3 + h)) QSH_SRATE.RATE i)) (v.zeroExtend 64))).trans (if_pos rfl)
  refine ⟨_, (exec_shaperParamWrite hc hh hi (.inl rfl) hg).trans ((congrArg State.done heq).trans (done_eq hinv rfl rfl rfl rfl)), ?_, ?_, rfl, ?_⟩
  · exact (congrArg (bitsOf · 16 0) hself).trans hrate
  · refine (congrArg (· == 1) ((congrArg (bitsOf · 31 31) hself).trans hen)).trans ?_
    rw [Nat.testBit_eq_decide_div_mod_eq]
    rfl
  · exact fun j hj => (reg_setReg ..).trans (if_neg hj)

/-- The cut of a bucket that a write of BURST noted (R225). -/
theorem cutNow_shaper (t : State) (hc : c < 4) (hh : h < 2) (hi : i < 64) :
    (t.cutNow (State.offOf (celPage c (3 + h)) QSH_SBURST.BURST i, 0)).getF (celPage c (3 + h)) QSH_TOK.TOKENS i =
      (if toInt32 (t.getF (celPage c (3 + h)) QSH_TOK.TOKENS i) ≤ 65536 * (t.getF (celPage c (3 + h)) QSH_SBURST.BURST i : Nat)
        then t.getF (celPage c (3 + h)) QSH_TOK.TOKENS i else 65536 * t.getF (celPage c (3 + h)) QSH_SBURST.BURST i) := by
  have ho : QSH_SBURST.BURST.off + QSH_SBURST.BURST.stride * i < 4096 := by simp only [QSH_SBURST.BURST]; omega
  obtain ⟨hp, hm⟩ := fkey_page (celPage c (3 + h)) QSH_SBURST.BURST i ho
  have hdma : ¬ pageKind (celPage c (3 + h)) = some .dma := by rw [pageKind_qsh c hc h hh]; decide
  have hlow : QSH_SBURST.BURST.off + QSH_SBURST.BURST.stride * i < 0x400 := by simp only [QSH_SBURST.BURST]; omega
  have hix : (QSH_SBURST.BURST.off + QSH_SBURST.BURST.stride * i - 0x204) / 8 = i := by simp only [QSH_SBURST.BURST]; omega
  have hb : t.getF (celPage c (3 + h)) QSH_SBURST.BURST i < 4096 := Nat.mod_lt _ (by decide)
  simp only [State.cutNow, State.offOf, hp, hm, if_neg hdma, if_pos hlow, hix, State.cutBucket]
  split
  · rfl
  · rw [getF_setF_self _ _ _ _ _ (by decide)]
    simp only [QSH_TOK.TOKENS, ofInt32]
    omega

/-- A write of a shaper's BURST. -/
theorem exec_burstWrite {who : Requester} {v : Word} (hinv : s.Inv) (hc : c < 4) (hh : h < 2) (hi : i < 64)
    (hs : s.pageSealed (celPage c (3 + h)) = false) (hg : s.grants who (celPage c (3 + h)) QSH_SBURST.BURST i = true) (hv : 1 ≤ v.toNat % 4096) : ∃ t,
    exec (.shaperParamWrite who (State.offOf (celPage c (3 + h)) QSH_SBURST.BURST i) v) s = .next t ∧
    t.getF (celPage c (3 + h)) QSH_SBURST.BURST i = v.toNat % 4096 ∧
    t.getF (celPage c (3 + h)) QSH_TOK.TOKENS i = s.getF (celPage c (3 + h)) QSH_TOK.TOKENS i ∧
    (State.offOf (celPage c (3 + h)) QSH_SBURST.BURST i) ∈ t.edge.cuts.map (·.1) ∧
    (t.cutNow (State.offOf (celPage c (3 + h)) QSH_SBURST.BURST i, 0)).getF (celPage c (3 + h)) QSH_TOK.TOKENS i =
      (if toInt32 (s.getF (celPage c (3 + h)) QSH_TOK.TOKENS i) ≤ 65536 * (v.toNat % 4096 : Nat)
        then s.getF (celPage c (3 + h)) QSH_TOK.TOKENS i else 65536 * (v.toNat % 4096)) ∧
    { t with regs := s.regs, edge := s.edge } = s := by
  have heq := burstWrite_eq hc hh hi hs v
  obtain ⟨e, he, hmem⟩ := noteBurst_edge (s := s) (State.fkey (celPage c (3 + h)) QSH_SBURST.BURST i)
  rw [he] at heq
  have hburst : (s.shaperWrite (State.offOf (celPage c (3 + h)) QSH_SBURST.BURST i) v).getF (celPage c (3 + h)) QSH_SBURST.BURST i = v.toNat % 4096 := by
    rw [heq, State.getF, reg_setReg, if_pos rfl]
    exact bitsOf_regAfter_burst _ v hv
  have htok : (s.shaperWrite (State.offOf (celPage c (3 + h)) QSH_SBURST.BURST i) v).getF (celPage c (3 + h)) QSH_TOK.TOKENS i =
      s.getF (celPage c (3 + h)) QSH_TOK.TOKENS i := by
    rw [heq, State.getF, reg_setReg, if_neg]
    · rfl
    · simp only [State.fkey, QSH_TOK.TOKENS, QSH_SBURST.BURST]
      omega
  refine ⟨_, (exec_shaperParamWrite hc hh hi (.inr rfl) hg).trans (done_eq_of_eq hinv rfl ?_ ?_ ?_ ?_), hburst, htok, ?_, ?_, ?_⟩
  · rw [heq]; rfl
  · rw [heq]; rfl
  · rw [heq]; rfl
  · rw [heq]; rfl
  · rw [heq]
    exact hmem
  · rw [cutNow_shaper _ hc hh hi, htok, hburst]
  · rw [heq]
    rfl

end

/-! ### Queue snapshots -/

section
variable {s : State} {n : Nat} {l : List (Nat × Nat)}

/-- A tick with no command in front keeps the queues of the pages whose snapshot is due, as they stand when it is over. -/
theorem mem_snaps_step (hp : s.pending = []) (hlock : s.flag pgCLK CLK_STS.PLL_LOCK = true) : ∃ t, step s = .next t ∧ ∀ m < 8,
    t.flag (State.qshPage m) QSH_SAMP.EN = true → t.fabric % 2 ^ t.getF (State.qshPage m) QSH_SAMP.EXP = 0 →
    (m, (List.range 64).map fun i => (t.depth (128 * (m / 2) + 64 * (m % 2) + i), t.headAge (128 * (m / 2) + 64 * (m % 2) + i))) ∈ t.edge.snaps := by
  have hsnap : ∀ u : State, ∀ m < 8, u.snapStart.flag (State.qshPage m) QSH_SAMP.EN = true →
      u.snapStart.fabric % 2 ^ u.snapStart.getF (State.qshPage m) QSH_SAMP.EXP = 0 →
      (m, (List.range 64).map fun i => (u.snapStart.depth (128 * (m / 2) + 64 * (m % 2) + i),
        u.snapStart.headAge (128 * (m / 2) + 64 * (m % 2) + i))) ∈ u.snapStart.edge.snaps := fun u m hm hen hexp =>
    List.mem_map.2 ⟨m, List.mem_filter.2 ⟨List.mem_range.2 hm, Bool.and_eq_true_iff.2 ⟨hen, beq_iff_eq.2 hexp⟩⟩, rfl⟩
  refine ⟨_, MachineLaws.step_of_pending_nil hp, ?_⟩
  unfold State.tick
  simp only [hlock, if_true]
  exact hsnap _

/-- The two registers of a queue in a snapshot. -/
def snapEntry (pg : Nat) (t : State) (x : (Nat × Nat) × Nat) : State :=
  (t.setF pg QSH_SNAPD.CELLS (min 0xFFFFFF x.1.1) x.2).setF pg QSH_SNAPA.AGE (min 0xFFFFFFFF x.1.2) x.2

/-- A snapshot, its registers in steps. -/
theorem snapshot_eq (pg : Nat) : s.snapshot pg l = (((s.each l.zipIdx (snapEntry pg)).setF pg QSH_SNAP_T.TIME s.fabric).setF pg QSH_SNAP_SEQ.SEQ
    ((s.getF pg QSH_SNAP_SEQ.SEQ + 1) % 2 ^ 32)).raiseInt pg 1 := rfl

theorem getF_snapEntry (t : State) {pg i j : Nat} {f : FRef} {a : Nat × Nat}
    (h1 : f.off + f.stride * i ≠ QSH_SNAPD.CELLS.off + QSH_SNAPD.CELLS.stride * j)
    (h2 : f.off + f.stride * i ≠ QSH_SNAPA.AGE.off + QSH_SNAPA.AGE.stride * j) : (snapEntry pg t (a, j)).getF pg f i = t.getF pg f i := by
  unfold snapEntry
  rw [getF_setF_other _ _ _ _ _ _ _ _ (.inl ?_), getF_setF_other _ _ _ _ _ _ _ _ (.inl ?_)] <;>
  · simp only [State.fkey]
    omega

/-- The depth and the age of a queue, in a page's registers. -/
def Snapped (pg i : Nat) (l : List (Nat × Nat)) (t : State) : Prop :=
  t.getF pg QSH_SNAPD.CELLS i = min 0xFFFFFF (l.getD i (0, 0)).1 ∧ t.getF pg QSH_SNAPA.AGE i = min 0xFFFFFFFF (l.getD i (0, 0)).2

theorem snapped_self (t : State) (pg i : Nat) : Snapped pg i l (snapEntry pg t (l.getD i (0, 0), i)) := by
  unfold Snapped snapEntry
  constructor
  · rw [getF_setF_other _ _ _ _ _ _ _ _ (.inl (by simp only [State.fkey, QSH_SNAPD.CELLS, QSH_SNAPA.AGE]; omega)), getF_setF_self _ _ _ _ _ (by decide)]
    simp only [QSH_SNAPD.CELLS]
    omega
  · rw [getF_setF_self _ _ _ _ _ (by decide)]
    simp only [QSH_SNAPA.AGE]
    omega

theorem snapped_each (pg i : Nat) (hl : l.length = 64) (hi : i < 64) : Snapped pg i l (s.each l.zipIdx (snapEntry pg)) := by
  have hget : l.getD i (0, 0) = l[i]'(by omega) := by simp [List.getD_eq_getElem?_getD, List.getElem?_eq_getElem (show i < l.length by omega)]
  refine each_reaches (fun t x hx h => ?_) s (.inr ⟨(l.getD i (0, 0), i), ?_, fun t => snapped_self t pg i⟩)
  · obtain ⟨a, j⟩ := x
    obtain ⟨-, hj, ha⟩ := List.mem_zipIdx hx
    by_cases hij : j = i
    · subst hij
      have ha' : a = l.getD j (0, 0) := by rw [hget, ha]; rfl
      exact ha' ▸ snapped_self t pg j
    · exact ⟨(getF_snapEntry t (by simp only [QSH_SNAPD.CELLS]; omega) (by simp only [QSH_SNAPD.CELLS, QSH_SNAPA.AGE]; omega)).trans h.1,
        (getF_snapEntry t (by simp only [QSH_SNAPD.CELLS, QSH_SNAPA.AGE]; omega) (by simp only [QSH_SNAPA.AGE]; omega)).trans h.2⟩
  · rw [hget]
    exact List.mk_mem_zipIdx_iff_getElem?.2 (List.getElem?_eq_getElem (by omega))

theorem quiet_snapshot (pg : Nat) : Quiet s (s.snapshot pg l) :=
  (Quiet.each (fun t _ _ => (quiet_setF t ..).trans (quiet_setF _ ..)) s).trans
    (((quiet_setF _ pg QSH_SNAP_T.TIME _ 0).trans (quiet_setF _ pg QSH_SNAP_SEQ.SEQ _ 0)).trans (quiet_raiseInt _ pg 1))

/-- What a snapshot leaves in the registers of its page. -/
theorem getF_snapshot (pg : Nat) (hl : l.length = 64) : (∀ i < 64, Snapped pg i l (s.snapshot pg l)) ∧
    (s.snapshot pg l).getF pg QSH_SNAP_T.TIME = s.fabric % 2 ^ 64 ∧
    (s.snapshot pg l).getF pg QSH_SNAP_SEQ.SEQ = (s.getF pg QSH_SNAP_SEQ.SEQ + 1) % 2 ^ 32 ∧
    bitAt ((s.snapshot pg l).getF pg INT_CAUSE.BITS) 0 = true := by
  have hint : ∀ (t : State) (f : FRef) (i : Nat), f.off + f.stride * i < 4096 → f.off + f.stride * i ≠ INT_CAUSE.BITS.off →
      (t.raiseInt pg 1).getF pg f i = t.getF pg f i := fun t f i ho hi =>
    getF_of_reg (reg_raiseInt_other t pg 1 (by rw [(fkey_page pg f i ho).2]; exact hi))
  have hlater : ∀ (t : State) (a b i : Nat) (f : FRef), 0x800 ≤ f.off →
      ((t.setF pg QSH_SNAP_T.TIME a).setF pg QSH_SNAP_SEQ.SEQ b).getF pg f i = t.getF pg f i := fun t a b i f hf => by
    rw [getF_setF_other _ _ _ _ _ _ _ _ (.inl (by simp only [State.fkey, QSH_SNAP_SEQ.SEQ]; omega)),
      getF_setF_other _ _ _ _ _ _ _ _ (.inl (by simp only [State.fkey, QSH_SNAP_T.TIME]; omega))]
  refine ⟨fun i hi => ?_, ?_, ?_, ?_⟩
  · obtain ⟨h1, h2⟩ := snapped_each (s := s) pg i hl hi
    constructor
    · exact ((hint _ _ _ (by simp only [QSH_SNAPD.CELLS]; omega) (by simp only [QSH_SNAPD.CELLS, INT_CAUSE.BITS]; omega)).trans
        (hlater _ _ _ _ _ (by decide))).trans h1
    · exact ((hint _ _ _ (by simp only [QSH_SNAPA.AGE]; omega) (by simp only [QSH_SNAPA.AGE, INT_CAUSE.BITS]; omega)).trans
        (hlater _ _ _ _ _ (by decide))).trans h2
  · rw [snapshot_eq, hint _ _ _ (by decide) (by decide), getF_setF_other _ _ _ _ _ _ _ _ (.inl (by simp only [State.fkey, QSH_SNAP_T.TIME, QSH_SNAP_SEQ.SEQ]; omega)), getF_setF_self _ _ _ _ _ (by decide)]
    rfl
  · rw [snapshot_eq, hint _ _ _ (by decide) (by decide), getF_setF_self _ _ _ _ _ (by decide)]
    exact Nat.mod_mod _ _
  · rw [snapshot_eq, getF_of_reg (reg_raiseInt _ pg 1 _), getF_setF_self _ _ _ _ _ (by decide)]
    simp [bitAt, INT_CAUSE.BITS]

theorem exec_queueSnapshot (hinv : s.Inv) (hfind : s.edge.snaps.find? (fun x => x.1 == n) = some (n, l)) (hl : l.length = 64)
    (hrun : s.cellarRun (n / 2) = true) : ∃ t, exec (.queueSnapshot n) s = .next t ∧ (∀ i < 64, Snapped (State.qshPage n) i l t) ∧
    t.getF (State.qshPage n) QSH_SNAP_T.TIME = s.fabric % 2 ^ 64 ∧
    t.getF (State.qshPage n) QSH_SNAP_SEQ.SEQ = (s.getF (State.qshPage n) QSH_SNAP_SEQ.SEQ + 1) % 2 ^ 32 ∧
    bitAt (t.getF (State.qshPage n) INT_CAUSE.BITS) 0 = true ∧ t.edge.snaps = storeErase s.edge.snaps n ∧
    t.packets = s.packets ∧ t.hbm = s.hbm ∧ t.sched = s.sched ∧ t.ports = s.ports := by
  have hq := quiet_snapshot (s := { s with edge := { s.edge with snaps := storeErase s.edge.snaps n } }) (l := l) (State.qshPage n)
  obtain ⟨h1, h2, h3, h4⟩ := getF_snapshot (s := { s with edge := { s.edge with snaps := storeErase s.edge.snaps n } }) (State.qshPage n) hl
  have hexec : exec (.queueSnapshot n) s =
      (({ s with edge := { s.edge with snaps := storeErase s.edge.snaps n } } : State).snapshot (State.qshPage n) l).done := by
    show execQueueSnapshot n s = _
    simp only [execQueueSnapshot, hfind, hrun, Bool.true_eq_false, if_false]
  exact ⟨_, hexec.trans (done_eq hinv (hq.eq State.firing) (hq.eq State.trace) (hq.eq State.packets) (hq.eq State.swb)), h1, h2, h3, h4,
    hq.eq fun u => u.edge.snaps, hq.eq State.packets, hq.eq State.hbm, hq.eq State.sched, hq.eq State.ports⟩

end

/-! ### A head that has stood too long -/

section
variable {s : State} {q : Nat} {k : Packet} {r : List Packet}

/-- The first stall of a page is captured. -/
def stallCapture (s : State) (q : Nat) : State :=
  if s.flag (qpg q) QSH_STALL_INFO.VALID then s
  else (s.setFlag (qpg q) QSH_STALL_INFO.VALID true).setF (qpg q) QSH_STALL_INFO.QUEUE (qix q)

theorem stallCapture_same {β : Type} (g : State → β) (hg : ∀ u r, g { u with regs := r } = g u) (s : State) (q : Nat) :
    g (stallCapture s q) = g s := by
  unfold stallCapture
  split
  · rfl
  · exact (hg (s.setFlag (qpg q) QSH_STALL_INFO.VALID true) _).trans (hg s _)

theorem mask_stallCapture (s : State) (q pg : Nat) :
    (stallCapture s q).reg (State.fkey pg FLT_MASK.BITS 0) = s.reg (State.fkey pg FLT_MASK.BITS 0) := by
  unfold stallCapture State.setFlag
  split
  · rfl
  · rw [reg_setF, if_neg (fkey_mask_ne (by decide) (by decide)), reg_setF, if_neg (fkey_mask_ne (by decide) (by decide))]

theorem getF_stallCapture (s : State) (q : Nat) : (stallCapture s q).flag (qpg q) QSH_STALL_INFO.VALID = true ∧
    (s.flag (qpg q) QSH_STALL_INFO.VALID = false → (stallCapture s q).getF (qpg q) QSH_STALL_INFO.QUEUE = qix q) := by
  unfold stallCapture
  split
  case isTrue h => exact ⟨h, fun hf => by rw [h] at hf; exact nomatch hf⟩
  case isFalse =>
    refine ⟨?_, fun _ => ?_⟩
    · refine congrArg (· == 1) (?_ : State.getF _ (qpg q) QSH_STALL_INFO.VALID 0 = 1)
      exact (getF_setF_other _ _ _ _ _ _ _ _ (.inr (by decide))).trans (getF_setF_self s _ QSH_STALL_INFO.VALID 1 0 (by decide))
    · exact (getF_setF_self _ _ _ _ _ (by decide)).trans (Nat.mod_eq_of_lt (Nat.mod_lt _ (by decide)))

/-- A head found stalled is marked, and the fault fires. -/
def stallMarked (s : State) (q id : Nat) : State := (s.modQueue q fun x => { x with stalled := some id }).fire (qpg q) 0

theorem exec_queueStallDetect (hq : q < 512) (hin : s.inQueue q = k :: r) (hlim : s.getF (qpg q) QSH_STALL_CTL.LIMIT ≠ 0)
    (hage : 1000 * s.getF (qpg q) QSH_STALL_CTL.LIMIT < s.headAge q) (hnew : (s.queue q).stalled ≠ some k.id) :
    exec (.queueStallDetect q) s = (stallCapture (stallMarked s q k.id) q).done := by
  have hgo : ¬ (512 ≤ q ∨ s.getF (qpg q) QSH_STALL_CTL.LIMIT = 0 ∨ s.headAge q ≤ 1000 * s.getF (qpg q) QSH_STALL_CTL.LIMIT ∨
      (s.queue q).stalled = some k.id) := by
    simp only [not_or]
    exact ⟨by omega, hlim, by omega, hnew⟩
  show execQueueStallDetect q s = _
  simp only [execQueueStallDetect, hin, if_neg hgo]
  rfl

theorem stall_closed (hq : q < 512) {id : Nat} {t : State} (ht : t = (stallCapture (stallMarked s q id) q).settle.sweepTrace) :
    (t.devFatal = false → (t.queue q).stalled = some id) ∧
    t.flag (qpg q) QSH_STALL_INFO.VALID = true ∧ (s.fltMasked (qpg q * 32) = false → t.fltSet (qpg q * 32) = true) ∧
    (s.flag (qpg q) QSH_STALL_INFO.VALID = false → t.getF (qpg q) QSH_STALL_INFO.QUEUE = qix q) ∧ t.hbm = s.hbm ∧ t.ports = s.ports := by
  obtain ⟨hvalid, hqueue⟩ := getF_stallCapture (stallMarked s q id) q
  have hpage : ∀ n < 8, State.qshPage n ≠ pgFLT ∧ pageKind (State.qshPage n) ≠ some .dmac := by decide
  have hpg : qpg q = State.qshPage (2 * (q / 128) + q % 128 / 64) := by
    simp only [qpg, pgQSH, State.qshPage, celPage, pageIx]
    omega
  obtain ⟨hflt, hdma⟩ := hpage (2 * (q / 128) + q % 128 / 64) (by omega)
  rw [← hpg] at hflt hdma
  have hkeep : ∀ f : FRef, f.off = 0x98 ∧ f.stride = 0 → t.getF (qpg q) f = (stallCapture (stallMarked s q id) q).getF (qpg q) f := fun f hf => by
    rw [ht]
    exact getF_closed (apart_fkey (by rw [hf.1, hf.2]; decide) hflt (by rw [hf.1, hf.2]; decide) hdma) _
  refine ⟨fun hd => ?_, (congrArg (· == 1) (hkeep QSH_STALL_INFO.VALID ⟨rfl, rfl⟩)).trans hvalid, fun hm => ?_, fun hv => ?_, ?_, ?_⟩
  · have hsame : t.queues = (stallCapture (stallMarked s q id) q).queues := by
      rw [ht] at hd ⊢
      exact ((collects_unlessFatal.settle (stallCapture (stallMarked s q id) q)).same hd).2.1
    have hqueue : t.queue q = (stallMarked s q id).queue q :=
      (congrArg (fun m => storeGet _ m q) hsame).trans (stallCapture_same (State.queue · q) (fun _ _ => rfl) (stallMarked s q id) q)
    exact congrArg QueueSt.stalled (hqueue.trans (queue_modQueue_self s q fun x => { x with stalled := some id }))
  · have hmem : (⟨qpg q * 32, 31, 63, true, false⟩ : Firing) ∈ (stallCapture (stallMarked s q id) q).firing := by
      rw [stallCapture_same State.firing fun _ _ => rfl]
      simp [stallMarked, State.fire]
    have hmask : (stallCapture (stallMarked s q id) q).fltMasked (qpg q * 32) = false :=
      (fltMasked_of_reg (mask_stallCapture (stallMarked s q id) q _)).trans hm
    rw [ht]
    have hne : ∀ a b : Nat, a * 32 ≠ b * 32 + 2 := by omega
    exact fltSet_closed (f := ⟨qpg q * 32, 31, 63, true, false⟩) hmem hmask (hne _ _)
  · exact (hkeep QSH_STALL_INFO.QUEUE ⟨rfl, rfl⟩).trans (hqueue hv)
  · rw [ht]
    exact (settle_hbm _).trans (stallCapture_same State.hbm (fun _ _ => rfl) (stallMarked s q id) q)
  · rw [ht]
    exact (settle_ports _).trans (stallCapture_same State.ports (fun _ _ => rfl) (stallMarked s q id) q)

end

/-! ### The obligation -/

/-- Settles O20: releases of held credit, shaper writes, queue snapshots and stalls, each by its own lemma. -/
theorem policersAndQueues : Obligations.PolicersAndQueues := by
  unfold Obligations.PolicersAndQueues
  refine ⟨fun s who p c h i v hinv => ⟨fun hp hc => ⟨fun hdue => ?_, exec_policerRelease hinv hc⟩, fun hc hh hi hs =>
    ⟨exec_rateWrite hinv hc hh hi hs, exec_burstWrite hinv hc hh hi hs⟩⟩, fun s n q k r l hinv =>
    ⟨mem_snaps_step, fun hn hfind hl hrun => exec_queueSnapshot hinv hfind hl hrun, fun hq hin hold => ?_, fun hq hin hlim hage hnew =>
      ⟨_, exec_queueStallDetect hq hin hlim hage hnew, stall_closed hq rfl⟩⟩⟩
  · show execPolicerRelease p c s = _
    rw [execPolicerRelease, if_neg (fun h => hdue (List.contains_iff_mem.1 h))]
    exact done_eq hinv rfl rfl rfl rfl
  · show execQueueStallDetect q s = _
    simp only [execQueueStallDetect, hin, hold, or_true, if_true]
    exact done_eq hinv rfl rfl rfl rfl

end Sys2Proof.Queues
end

section
/-! ## What the traffic machinery does, for every relation that its updates keep

Requests are routed, refused, answered and counted by one family of functions. A relation that each of their updates keeps is kept by all of them. -/

namespace Sys2Proof.Traffic

open Sys2Proof Sys2Proof.Machine Sys2Proof.Laws Sys2Proof.Support

/-- The registers that the traffic machinery writes, but for interrupt causes and the count of lost completions. -/
inductive TrafficField : Nat → FRef → Nat → Prop
  | acc (f : FRef) (h : f ∈ [ACC_ERR_ADDR0.ADDR, ACC_ERR_ADDR1.ADDR, ACC_ERR_INFO.VALID, ACC_ERR_INFO.PART, ACC_ERR_INFO.PORT, ACC_ERR_INFO.SLOT,
      ACC_ERR_INFO.CLASS, ACC_ERR_INFO.CAUSE, ACC_ERR_INFO.REQ]) : TrafficField pgACC f 0
  | fwd (f : FRef) (h : f ∈ [FWD_MISS_ADDR.ADDR, FWD_MISS_INFO.VALID, FWD_MISS_INFO.PART, FWD_MISS_INFO.PORT, FWD_MISS_INFO.CAUSE,
      FWD_MISS_INFO.REQ]) : TrafficField pgFWD f 0
  | vim : TrafficField pgVIM VIM_CNT.STALE 0
  | ide (p : Nat) (f : FRef) (h : f ∈ [LNK_IDE.LINK_SEC, LNK_IDE.SEL_SEC, LNK_IDE.SEL_INSEC]) : TrafficField (pgLNK p) f 0
  | ttu (c : Nat) (f : FRef) (h : f ∈ [TTU_CNT0.HITS, TTU_CNT0.MISSES, TTU_CNT1.FAULTS, TTU_ERR_ADDR.ADDR, TTU_ERR_INFO.VALID, TTU_ERR_INFO.VI,
      TTU_ERR_INFO.PORT, TTU_ERR_INFO.CAUSE]) : TrafficField (pgTTU c) f 0
  | overflow (c : Nat) : TrafficField (pgPMUC c) PMU_OVF.OVF 0
  | counter (c j : Nat) (h : j < 32) : TrafficField (pgPMUC c) PMU_CTR.COUNT j

/-- An update of a transfer that leaves what it has moved: only its requests in flight, its staged bytes and its failure change. -/
def FailsOrStages (f : Xfer → Xfer) : Prop := ∀ x, ∃ a b c, f x = { x with inflight := a, staged := b, fail := c }

/-- An update of a port that records an error for its host. -/
def RecordsAer (f : PortSt → PortSt) : Prop := ∀ x, ∃ a, f x = { x with br := { x.br with aerSts := a } }

/-- `t` is `s` but for what the traffic machinery counts, holds and sends, packets, channels and ports apart. -/
def SameBut (s t : State) : Prop :=
  { t with
    out := s.out, heldOut := s.heldOut, free := s.free, firing := s.firing, flt := s.flt, frt := s.frt, nextId := s.nextId, npw := s.npw,
    openW := s.openW, parts := s.parts, pf := s.pf, sched := s.sched, splits := s.splits, ttu := s.ttu, ttuHits := s.ttuHits,
    walks := s.walks, wseq := s.wseq } = s

theorem SameBut.same {s t : State} (h : SameBut s t) {β : Type} (g : State → β) : g ({ t with
    out := s.out, heldOut := s.heldOut, free := s.free, firing := s.firing, flt := s.flt, frt := s.frt, nextId := s.nextId, npw := s.npw,
    openW := s.openW, parts := s.parts, pf := s.pf, sched := s.sched, splits := s.splits, ttu := s.ttu, ttuHits := s.ttuHits,
    walks := s.walks, wseq := s.wseq } : State) = g s := congrArg g h

/-- A relation between states that answering a request keeps. -/
structure Answers (R : State → State → Prop) : Prop where
  refl : ∀ s, R s s
  trans : ∀ {a b c}, R a b → R b c → R a c
  data : ∀ s t : State, SameBut s t → R s t
  unreserve : ∀ (s : State) f, R s { s with resv := s.resv.filter f }
  add : ∀ s p, R s (s.addPacket p)
  lostCpl : ∀ s q v, q < 64 → R s (s.setF (pgLNK q) LNK_LDCNT1.CPL v)
  interrupt : ∀ s pg v, R s (s.setF pg INT_CAUSE.BITS v)

namespace Answers

variable {R : State → State → Prop} (hR : Answers R) (s : State)
include hR

theorem onlyIf {s : State} {b : Bool} {f : State → State} (h : R s (f s)) : R s (s.onlyIf b f) := by
  cases b
  · exact hR.refl s
  · exact h

theorem each {α : Type} (l : List α) {f : State → α → State} (hf : ∀ t, ∀ x ∈ l, R t (f t x)) (s : State) : R s (s.each l f) := by
  induction l generalizing s with
  | nil => exact hR.refl s
  | cons x r ih => exact hR.trans (hf s x List.mem_cons_self) (ih (fun t y hy => hf t y (List.mem_cons_of_mem _ hy)) (f s x))

theorem foldl {α : Type} (l : List α) {f : State → α → State} (hf : ∀ t x, R t (f t x)) (s : State) : R s (l.foldl f s) := by
  induction l generalizing s with
  | nil => exact hR.refl s
  | cons x r ih => exact hR.trans (hf s x) (ih (f s x))

theorem fire (pg b k p : Nat) : R s (s.fire pg b k p) := hR.data s _ rfl

theorem emitHost (k : Nat) (l : List Output) : R s (s.emitHost k l) := by
  unfold State.emitHost
  repeat' split
  · exact hR.data s _ rfl
  · exact hR.data s _ rfl
  · exact hR.data s _ rfl

theorem sendMsix (k v : Nat) : R s (s.sendMsix k v) := by
  unfold State.sendMsix
  repeat' split
  · exact hR.refl s
  · exact hR.data s _ rfl
  · exact hR.emitHost s k _

theorem unpend (k v : Nat) : R s (s.unpend k v) := by
  unfold State.unpend
  dsimp only
  split
  · exact hR.refl s
  · exact hR.data s _ rfl

theorem raiseInt (pg b : Nat) : R s (s.raiseInt pg b) := by
  have hset := hR.interrupt s pg (s.getF pg INT_CAUSE.BITS ||| b)
  unfold State.raiseInt State.withIntPend
  simp only
  split
  · exact hR.trans hset (hR.sendMsix _ _ _)
  split
  · exact hR.trans hset (hR.unpend _ _ _)
  · exact hset

theorem exception (i : Initiator) : R s (s.exception i) := hR.unreserve s _

theorem cplOut (q c a : Nat) (t : Tlp) : R s (s.cplOut q c a t) := by
  unfold State.cplOut
  dsimp only
  split
  · cases hq : s.portEn q with
    | false => exact hR.refl s
    | true => exact hR.lostCpl s q _ (of_decide_eq_true (Bool.and_eq_true_iff.1 hq).1)
  · exact hR.foldl _ (fun u _ => hR.add u _) s

theorem fabCpl (a b c d e : Nat) (t : Tlp) : R s (s.fabCpl a b c d e t) := hR.add s _

theorem frtReply (e : Nat) (t : Tlp) (l : Bool) : R s (s.frtReply e t l) := by
  unfold State.frtReply
  split
  · exact hR.refl s
  · cases l
    · exact hR.fabCpl ..
    · refine hR.trans ?_ (hR.fabCpl ..)
      exact hR.data s _ rfl

theorem failLater (p : Packet) (a b : Nat) : R s (s.failLater p a b) := by
  unfold State.failLater
  dsimp only
  split
  · exact hR.data s _ rfl
  · exact hR.data s _ rfl

theorem dropFences (f : FenceOp → Bool) (b : Bool)
    (hf : ∀ (t : State) (l : List FenceOp), R t { t with fences := l }) : R s (s.dropFences f b) := by
  unfold State.dropFences
  extract_lets gone s1
  split
  · exact hR.trans (hf s _) (hR.each _ (fun t x _ => hR.trans (hR.exception t x.ini) (hR.cplOut ..)) _)
  · exact hf s _

end Answers

/-- A relation between states that each update of the traffic machinery keeps; `own` names the packets that it may change. -/
structure Carries (own : Nat → Prop) (R : State → State → Prop) : Prop extends Answers R where
  setF : ∀ s pg f v i, TrafficField pg f i → R s (s.setF pg f v i)
  aer : ∀ s p f, RecordsAer f → R s (s.modPort p f)
  xfer : ∀ s ch num f, FailsOrStages f → R s (s.modXfer ch num f)
  lists : ∀ (s : State) ch l, R s (s.modChan ch fun c => { c with lists := c.lists ++ l })
  drop : ∀ s id, own id → R s (s.dropPacket id)
  mod : ∀ s id f, own id → R s (s.modPacket id f)

namespace Carries

variable {own : Nat → Prop} {R : State → State → Prop} (hR : Carries own R) (s : State)
include hR

theorem addF (pg : Nat) (f : FRef) (n i : Nat) (h : TrafficField pg f i) : R s (s.addF pg f n i) := hR.setF s pg f _ i h

/-! ### Interrupts and counters -/

theorem pmuOverflow (c j : Nat) : R s (s.pmuOverflow c j) := hR.trans (hR.setF s _ PMU_OVF.OVF _ 0 (.overflow c)) (hR.raiseInt ..)

theorem pmuAdd (c j n : Nat) (hj : j < 32) : R s (s.pmuAdd c j n) := by
  unfold State.pmuAdd
  dsimp only
  have h1 : ∀ v, R s (s.setF (pgPMUC c) PMU_CTR.COUNT v j) := fun v => hR.setF s _ _ v j (.counter c j hj)
  split
  · exact h1 _
  split
  case isTrue hch =>
    have hj2 : j + 1 < 32 := by
      have := beq_iff_eq.1 (Bool.and_eq_true_iff.1 hch).2
      omega
    have h2 : ∀ (t : State) v, R t (t.setF (pgPMUC c) PMU_CTR.COUNT v (j + 1)) := fun t v => hR.setF t _ _ v _ (.counter c _ hj2)
    split
    · exact hR.trans (h1 _) (h2 _ _)
    · exact hR.trans (hR.trans (h1 _) (h2 _ _)) (hR.pmuOverflow ..)
  case isFalse => exact hR.trans (h1 _) (hR.pmuOverflow ..)

theorem count (c code port tc n : Nat) : R s (s.count c code port tc n) := by
  unfold State.count
  split
  · exact hR.refl s
  · refine hR.each _ (fun t j hj => ?_) s
    extract_lets pf tm usesPort usesTc hitP hitT
    split
    · exact hR.pmuAdd t c j n (List.mem_range.1 hj)
    · exact hR.refl t

/-! ### Captures -/

theorem accCapture (a b c d e f g h : Nat) : R s (s.accCapture a b c d e f g h) := by
  have hset : ∀ (t : State) f v, TrafficField pgACC f 0 → R t (t.setF pgACC f v) := fun t f v h => hR.setF t _ f v 0 h
  unfold State.accCapture State.setFlag
  split
  · exact hR.refl s
  · refine hR.trans (hR.trans (hR.trans (hR.trans (hR.trans (hR.trans (hR.trans (hR.trans (hset _ _ _ ?_) (hset _ _ _ ?_)) (hset _ _ _ ?_))
      (hset _ _ _ ?_)) (hset _ _ _ ?_)) (hset _ _ _ ?_)) (hset _ _ _ ?_)) (hset _ _ _ ?_)) (hset _ _ _ ?_)
    all_goals exact .acc _ (by simp)

theorem fwdCapture (a b c d e : Nat) : R s (s.fwdCapture a b c d e) := by
  have hset : ∀ (t : State) f v, TrafficField pgFWD f 0 → R t (t.setF pgFWD f v) := fun t f v h => hR.setF t _ f v 0 h
  unfold State.fwdCapture State.setFlag
  split
  · exact hR.refl s
  · refine hR.trans (hR.trans (hR.trans (hR.trans (hR.trans (hset _ _ _ ?_) (hset _ _ _ ?_)) (hset _ _ _ ?_))
      (hset _ _ _ ?_)) (hset _ _ _ ?_)) (hset _ _ _ ?_)
    all_goals exact .fwd _ (by simp)

theorem ttuCapture (c a b d e : Nat) : R s (s.ttuCapture c a b d e) := by
  have hset : ∀ (t : State) f v, TrafficField (pgTTU c) f 0 → R t (t.setF (pgTTU c) f v) := fun t f v h => hR.setF t _ f v 0 h
  unfold State.ttuCapture State.setFlag
  split
  · exact hR.refl s
  · refine hR.trans (hR.trans (hR.trans (hR.trans (hset _ _ _ ?_) (hset _ _ _ ?_)) (hset _ _ _ ?_)) (hset _ _ _ ?_)) (hset _ _ _ ?_)
    all_goals exact .ttu c _ (by simp)

/-! ### Answers -/

theorem aerPort (ing kind : Nat) : R s (s.aerPort ing kind) := by
  unfold State.aerPort
  dsimp only
  have h1 : ∀ f : PortSt → PortSt, RecordsAer f → R s (s.modPort ing f) := fun f h => hR.aer s ing f h
  repeat' split
  · exact hR.refl s
  · exact h1 _ fun _ => ⟨_, rfl⟩
  · exact hR.trans (h1 _ fun _ => ⟨_, rfl⟩) (hR.emitHost ..)

theorem modXfer_fail (ch num o c e a : Nat) : R s (s.modXfer ch num fun x => x.failAt o c e a) :=
  hR.xfer s ch num _ fun _ => ⟨_, _, _, rfl⟩

theorem dmaData (ch num off addr : Nat) (b : Option Bound) (st : CplStatus) (d : List Byte) (x y : Bool) : R s (s.dmaData ch num off addr b st d x y) := by
  unfold State.dmaData
  extract_lets stale
  have hstale := hR.addF s pgVIM VIM_CNT.STALE 1 0 .vim
  split
  · exact hR.trans hstale (hR.xfer _ ch num _ fun _ => ⟨_, _, _, rfl⟩)
  · refine hR.xfer s ch num _ fun z => ?_
    repeat' split
    all_goals exact ⟨_, _, _, rfl⟩

theorem listBytes (ch num : Nat) (r : Route) (d : List Byte) : R s (s.listBytes ch num r d).1 := by
  cases r with
  | shared h =>
    simp only [State.listBytes]
    split
    · exact hR.data s _ rfl
    · exact hR.refl s
  | port | fabric | mcast | bar | vfBar | none => exact hR.refl s

theorem npwDone (id : Nat) (ok : Bool) : R s (s.npwDone id ok) := by
  unfold State.npwDone
  dsimp only
  repeat' split
  · exact hR.refl s
  · refine hR.trans ?_ (hR.failLater _ _ 8 0)
    exact hR.data s _ rfl
  · exact hR.data s _ rfl
  · exact hR.data s _ rfl

theorem reply (p : Packet) (st : CplStatus) (d : List Byte) (x : Bool) (cid : Option Nat) : R s (s.reply p st d x cid) := by
  unfold State.reply
  extract_lets came st' sentBy
  generalize hr : (if p.taint = true then (freeBytesN s.free d.length, ({ s with free := s.free + 1 } : State)) else (d, s)) = r
  obtain ⟨d', s'⟩ := r
  have h0 : R s s' := by
    split at hr <;> cases hr
    · exact hR.data s _ rfl
    · exact hR.refl s
  refine hR.trans h0 ?_
  dsimp only
  generalize hs1 : (if st' = .ca ∨ st' = .ur ∨ x = true then s'.exception p.ini else s') = s1
  have h1 : R s' s1 := by
    rw [← hs1]
    split
    · exact hR.exception s' p.ini
    · exact hR.refl s'
  have hstale : ∀ t : State, R t (t.addF pgVIM VIM_CNT.STALE) := fun t => hR.addF t pgVIM VIM_CNT.STALE 1 0 .vim
  cases p.owner with
  | requester =>
    dsimp only
    split
    · exact hstale s'
    · refine hR.trans h1 ?_
      cases p.ini with
      | port | cxl => exact hR.cplOut ..
      | fabric => exact hR.fabCpl ..
      | chan | block => exact hR.refl s1
  | npw id => exact hR.trans h1 (hR.npwDone ..)
  | split g =>
    dsimp only
    split
    · refine hR.trans ?_ (hstale _)
      exact hR.data s' _ rfl
    refine hR.trans h1 ?_
    split
    · exact hR.refl s1
    split
    · generalize hs2 : ({ s1 with splits := s1.splits.filter (·.id != g) } : State) = s2
      have h2 : R s1 s2 := hR.data s1 s2 (hs2 ▸ rfl)
      refine hR.trans h2 ?_
      split
      · exact hR.cplOut ..
      · split
        · exact hR.frtReply ..
        all_goals exact hR.refl s2
      all_goals exact hR.refl s2
    · exact hR.data s1 _ rfl
  | prefetch b => exact hR.trans h1 (hR.data s1 _ rfl)
  | fabric e => exact hR.trans h1 (hR.frtReply ..)
  | dma ch num off =>
    dsimp only
    split
    · exact hR.trans h1 (hR.xfer s1 ch num _ fun _ => ⟨_, _, _, rfl⟩)
    · exact hR.trans h1 (hR.dmaData ..)
  | dmaList ch num side =>
    dsimp only
    split
    · exact hstale s'
    · exact hR.trans h1 (hR.trans (hR.listBytes s1 ch num p.route d') (hR.lists _ ch _))
  | load off =>
    dsimp only
    split
    · exact hR.trans h1 (hR.data s1 _ rfl)
    · exact hR.trans h1 (hR.data s1 _ rfl)

theorem refuse (p : Packet) (st : CplStatus) (k : Nat) : R s (s.refuse p st k) := by
  unfold State.refuse
  dsimp only
  split
  · exact hR.trans (hR.reply s p st [] false none) (hR.aerPort ..)
  · exact hR.aerPort ..

theorem stopReq (p : Packet) (st : CplStatus) (c : Nat) : R s (s.stopReq p st c) := by
  unfold State.stopReq
  split
  · exact hR.xfer s _ _ _ fun _ => ⟨_, _, _, rfl⟩
  · exact hR.lists s _ _
  all_goals exact hR.refuse s p st 0

theorem missOther (p : Packet) (pg b : Nat) : R s (s.missOther p pg b) := hR.trans (hR.stopReq s p .ur 5) (hR.fire ..)

theorem missTlp (p : Packet) (b : Nat) : R s (s.missTlp p b) :=
  hR.trans (hR.trans (hR.refuse s p .ur 0) (hR.fwdCapture ..)) (hR.fire ..)

theorem missReq (p : Packet) (b : Nat) : R s (s.missReq p b) := by
  unfold State.missReq
  split
  · exact hR.trans (hR.trans (hR.stopReq s p .ur 5) (hR.fwdCapture ..)) (hR.fire ..)
  · exact hR.missTlp s p b

theorem ttuRefuse (p : Packet) (b : Nat) : R s (s.ttuRefuse p b) :=
  hR.trans (hR.trans (hR.trans (hR.stopReq s p _ 4) (hR.addF _ _ _ _ _ (.ttu _ _ (by simp)))) (hR.ttuCapture ..)) (hR.fire ..)

/-! ### Access checks, routes and translations -/

theorem accessCheck (p : Packet) : R s (s.accessCheck p).1 := by
  unfold State.accessCheck
  extract_lets cs ok req some1 off
  split
  · exact hR.refl s
  · extract_lets first s1 s2 s3
    have h1 : R s s1 := by
      unfold s1
      split
      · exact hR.trans (hR.accCapture ..) (hR.fire ..)
      · exact hR.refl s
    have h2 : R s s2 := hR.trans h1 (hR.exception s1 p.ini)
    have h3 : R s s3 := by
      unfold s3
      split
      · exact hR.trans h2 (hR.modXfer_fail ..)
      all_goals exact h2
    split
    · split
      · exact hR.trans h3 (hR.onlyIf (f := fun t => t.aerPort p.ing) (hR.aerPort ..))
      · exact hR.trans h3 (hR.stopReq ..)
    · exact h2

theorem settlePacket {id : Nat} (h : own id) {r : State × Option Packet} (hr : R s r.1) : R s (s.settlePacket id r) := by
  unfold State.settlePacket
  split
  · exact hR.trans hr (hR.drop _ _ h)
  · exact hR.trans hr (hR.mod _ _ _ h)

theorem mcastJudge (p : Packet) (d : Nat) : R s (s.mcastJudge p d).1 := by
  unfold State.mcastJudge
  extract_lets plain
  have h := hR.accessCheck s { p with route := .port d, ini := plain }
  split <;> rename_i heq <;> rw [heq] at h <;> exact h

theorem mcastJudged (p : Packet) (g : Nat) : R s (s.mcastJudged p g).1 := by
  have hfold : ∀ (l : List Nat) (x : State × Packet), R s x.1 → R s (l.foldl (fun (x : State × Packet) d =>
      let (s1, l) := x.1.mcastJudge p d
      (s1, { x.2 with mcSeen := x.2.mcSeen ++ [(d, l)] })) x).1 := fun l => by
    induction l with
    | nil => exact fun x h => h
    | cons d r ih => exact fun x h => ih _ (hR.trans h (hR.mcastJudge x.1 p d))
  unfold State.mcastJudged
  split
  · exact hR.refl s
  · exact hfold _ (s, p) (hR.refl s)

theorem checkRouted (q : Packet) (n : Nat) : R s (s.checkRouted q n).1 := by
  have h := hR.accessCheck s q
  unfold State.checkRouted
  split
  next s1 heq => rw [heq] at h; exact h
  next s1 r heq =>
    rw [heq] at h
    extract_lets k
    cases hk : k.route with
    | mcast g => exact hR.trans h (hR.mcastJudged s1 k g)
    | port | shared | fabric | bar | vfBar | none => exact h

theorem afterRoute (p : Packet) (limit : Option Nat) : R s (s.afterRoute p limit).1 := by
  unfold State.afterRoute
  extract_lets n fits t route q closed s1 blocked s1'
  split
  · exact hR.missOther ..
  split
  · have h1 : R s s1 := hR.trans (hR.fwdCapture ..) (hR.fire ..)
    split
    · exact hR.trans h1 (hR.stopReq ..)
    · exact hR.trans h1 (hR.failLater ..)
  split
  · exact hR.missOther ..
  split
  · exact hR.checkRouted ..
  split
  · exact hR.checkRouted ..
  · extract_lets s2
    have h1 : R s s1' := by
      unfold s1'
      split
      · exact hR.fire ..
      · exact hR.refl s
    have h2 : R s s2 := by
      unfold s2
      split
      · exact hR.trans h1 (hR.modXfer_fail ..)
      all_goals exact h1
    repeat' split
    · exact hR.trans h2 (hR.stopReq ..)
    · exact hR.trans h2 (hR.checkRouted ..)
    · exact hR.trans h2 (hR.checkRouted ..)

theorem ideDrop (p : Packet) (h : own p.id) : R s (s.ideDrop p) := by
  unfold State.ideDrop
  extract_lets s1
  have h1 : R s s1 := hR.trans (hR.fire ..) (hR.drop _ _ h)
  repeat' split
  · exact hR.trans h1 (hR.failLater ..)
  · exact hR.trans h1 (hR.reply ..)
  · exact h1

theorem ideSet (p n : Nat) (a b : Bool) : R s (s.ideSet p n a b) := by
  have hset : ∀ (t : State) f v, f ∈ [LNK_IDE.LINK_SEC, LNK_IDE.SEL_SEC, LNK_IDE.SEL_INSEC] → R t (t.setF (pgLNK p) f v) :=
    fun t f v h => hR.setF t _ f v 0 (.ide p f h)
  unfold State.ideSet
  dsimp only
  split
  · exact hset _ _ _ (by simp)
  · exact hR.trans (hset _ _ _ (by simp)) (hR.onlyIf (hset _ _ _ (by simp)))

theorem ideThen (p : Packet) (h : own p.id) {k : State → State × Option Packet} (hk : R s (k s).1) : R s (s.ideThen p k).1 := by
  unfold State.ideThen
  split
  · exact hR.trans (hR.ideSet ..) (hR.ideDrop _ p h)
  · exact hk

theorem routeMem (p : Packet) (h : own p.id) : R s (s.routeMem p).1 := by
  unfold State.routeMem
  split
  · exact hR.missReq ..
  · exact hR.refuse ..
  · extract_lets q
    refine hR.ideThen s q h ?_
    exact hR.afterRoute ..

theorem heldOr (p : Packet) (h : own p.id) {k : State} (hk : R s k) : R s (s.heldOr p k) := by
  unfold State.heldOr
  split
  · exact hR.trans (hR.trans (hR.stopReq ..) (hR.fire ..)) (hR.drop _ _ h)
  · exact hk

theorem translated (p : Packet) (h : own p.id) (e : TtuEntry) : R s (s.translated p e) := by
  unfold State.translated
  split
  · exact hR.trans (hR.ttuRefuse ..) (hR.drop _ _ h)
  · exact hR.settlePacket s h (hR.routeMem s _ h)

theorem ttuHit (c k : Nat) (e : TtuEntry) : R s (s.ttuHit c k e) := by
  unfold State.ttuHit
  extract_lets l s1 n s2
  have h2 : R s s2 := hR.data s _ rfl
  exact hR.trans h2 (hR.trans (hR.onlyIf (hR.addF _ _ _ _ _ (.ttu c _ (by simp)))) (hR.count ..))

theorem joinWalk (c vi part a : Nat) : R s (s.joinWalk c vi part a).1 := by
  unfold State.joinWalk
  split
  · exact hR.refl s
  split
  · exact hR.refl s
  · extract_lets w
    refine hR.trans ?_ (hR.count ..)
    refine hR.trans ?_ (hR.addF _ _ _ _ _ (.ttu c _ (by simp)))
    exact hR.data s _ rfl

theorem translateMem (p : Packet) (h : own p.id) : R s (s.translateMem p) := by
  unfold State.translateMem
  refine hR.heldOr s p h ?_
  split
  · exact hR.settlePacket s h (hR.routeMem s p h)
  extract_lets vi
  split
  · exact hR.trans (hR.ttuRefuse ..) (hR.drop _ _ h)
  split
  · exact hR.trans (hR.ttuHit ..) (hR.translated _ p h _)
  · exact hR.trans (hR.joinWalk s ..) (hR.mod _ _ _ h)

theorem ingestMem (p : Packet) (h : own p.id) : R s (s.ingestMem p) := by
  unfold State.ingestMem
  extract_lets claim bar0
  split
  · exact hR.trans (hR.refuse ..) (hR.drop _ _ h)
  split
  · refine hR.trans ?_ (hR.drop _ _ h)
    split
    · exact hR.stopReq ..
    · exact hR.onlyIf (hR.aerPort ..)
  clear_value bar0 claim
  cases claim with
  | some r =>
    refine hR.settlePacket s h (hR.ideThen s { p with route := r } h ?_)
    exact hR.accessCheck ..
  | none => exact hR.translateMem s p h

end Carries

/-! ### Registers that the traffic machinery leaves -/

/-- A register that is no interrupt cause and stands on none of the pages that the traffic machinery counts and captures on. -/
structure Aside (k : Nat) : Prop where
  cause : k % 4096 ≠ INT_CAUSE.BITS.off
  device : k / 4096 ≠ pgACC ∧ k / 4096 ≠ pgFWD ∧ k / 4096 ≠ pgVIM
  cellar : ∀ n, k / 4096 ≠ pgLNK n ∧ k / 4096 ≠ pgTTU n ∧ k / 4096 ≠ pgPMUC n

theorem TrafficField.fkey_ne {pg i k : Nat} {f : FRef} (h : TrafficField pg f i) (hk : Aside k) : k ≠ State.fkey pg f i := by
  obtain ⟨-, ⟨hacc, hfwd, hvim⟩, hcel⟩ := hk
  rintro rfl
  cases h with
  | acc f h =>
    have hall : ∀ g ∈ [ACC_ERR_ADDR0.ADDR, ACC_ERR_ADDR1.ADDR, ACC_ERR_INFO.VALID, ACC_ERR_INFO.PART, ACC_ERR_INFO.PORT, ACC_ERR_INFO.SLOT,
      ACC_ERR_INFO.CLASS, ACC_ERR_INFO.CAUSE, ACC_ERR_INFO.REQ], g.off + g.stride * 0 < 4096 := by decide
    exact hacc (fkey_page _ _ _ (hall f h)).1
  | fwd f h =>
    have hall : ∀ g ∈ [FWD_MISS_ADDR.ADDR, FWD_MISS_INFO.VALID, FWD_MISS_INFO.PART, FWD_MISS_INFO.PORT, FWD_MISS_INFO.CAUSE,
      FWD_MISS_INFO.REQ], g.off + g.stride * 0 < 4096 := by decide
    exact hfwd (fkey_page _ _ _ (hall f h)).1
  | vim => exact hvim (fkey_page pgVIM VIM_CNT.STALE 0 (by decide)).1
  | ide p f h =>
    have hall : ∀ g ∈ [LNK_IDE.LINK_SEC, LNK_IDE.SEL_SEC, LNK_IDE.SEL_INSEC], g.off + g.stride * 0 < 4096 := by decide
    exact (hcel p).1 (fkey_page _ _ _ (hall f h)).1
  | ttu c f h =>
    have hall : ∀ g ∈ [TTU_CNT0.HITS, TTU_CNT0.MISSES, TTU_CNT1.FAULTS, TTU_ERR_ADDR.ADDR, TTU_ERR_INFO.VALID, TTU_ERR_INFO.VI,
      TTU_ERR_INFO.PORT, TTU_ERR_INFO.CAUSE], g.off + g.stride * 0 < 4096 := by decide
    exact (hcel c).2.1 (fkey_page _ _ _ (hall f h)).1
  | overflow c => exact (hcel c).2.2 (fkey_page _ PMU_OVF.OVF 0 (by decide)).1
  | counter c _ h => exact (hcel c).2.2 (fkey_page _ PMU_CTR.COUNT i (by simp only [PMU_CTR.COUNT]; omega)).1

/-- A register of a device page of its own, but its interrupt cause. -/
theorem aside_device {pg i : Nat} {f : FRef} (ho : f.off + f.stride * i < 4096) (hc : f.off + f.stride * i ≠ INT_CAUSE.BITS.off) (hpg : pg < 256)
    (hd : pg ≠ pgACC ∧ pg ≠ pgFWD ∧ pg ≠ pgVIM) : Aside (State.fkey pg f i) := by
  obtain ⟨hp, hm⟩ := fkey_page pg f i ho
  refine ⟨by rwa [hm], by rwa [hp], fun n => ?_⟩
  rw [hp]
  simp only [pgLNK, pgTTU, pgPMUC, celPage, pageIx]
  omega

end Sys2Proof.Traffic
end

section
/-! ## What the loss of a link does, for every relation that its updates keep -/

namespace Sys2Proof.LinkDown

open Sys2Proof Sys2Proof.Machine Sys2Proof.Laws Sys2Proof.Support Sys2Proof.Traffic

/-- `t` is `s` but for traffic, queues, the link layer, lanes and the streams of the fabric. -/
def SameButLink (s t : State) : Prop :=
  { t with
    out := s.out, heldOut := s.heldOut, free := s.free, firing := s.firing, flt := s.flt, frt := s.frt, nextId := s.nextId, npw := s.npw,
    openW := s.openW, parts := s.parts, pf := s.pf, resv := s.resv, sched := s.sched, splits := s.splits, ttu := s.ttu, ttuHits := s.ttuHits,
    walks := s.walks, wseq := s.wseq, edge := s.edge, fences := s.fences, ffl := s.ffl, lanes := s.lanes, queues := s.queues, trk := s.trk,
    tx := s.tx, packets := s.packets } = s

theorem SameButLink.same {s t : State} (h : SameButLink s t) {β : Type} (g : State → β) : g ({ t with
    out := s.out, heldOut := s.heldOut, free := s.free, firing := s.firing, flt := s.flt, frt := s.frt, nextId := s.nextId, npw := s.npw,
    openW := s.openW, parts := s.parts, pf := s.pf, resv := s.resv, sched := s.sched, splits := s.splits, ttu := s.ttu, ttuHits := s.ttuHits,
    walks := s.walks, wseq := s.wseq, edge := s.edge, fences := s.fences, ffl := s.ffl, lanes := s.lanes, queues := s.queues, trk := s.trk,
    tx := s.tx, packets := s.packets } : State) = g s := congrArg g h

/-- The registers that a link's loss changes, but for those of the link layer of the fabric. -/
inductive DownField : Nat → FRef → Nat → Prop
  | link (p : Nat) (f : FRef) (i : Nat) (hp : p < 64) (h : f.off + f.stride * i < 4096) : DownField (pgLNK p) f i
  | sch (c : Nat) (f : FRef) (i : Nat) (hc : c < 4) (h : f.off + f.stride * i < 4096) : DownField (pgSCH c) f i
  | qsh (c j : Nat) (f : FRef) (i : Nat) (hc : c < 4) (hj : j < 16) (h : f.off + f.stride * i < 4096) : DownField (pgQSH c j) f i
  | cel (c : Nat) (f : FRef) (i : Nat) (hc : c < 4) (h : f.off + f.stride * i < 4096) : DownField (pgCEL c) f i
  | discards : DownField pgFWD FWD_PF_CNT.DISCARDS 0

theorem portQueues_lt {p q : Nat} (hp : p < 64) (hq : q ∈ portQueues p) : q < 512 := by
  obtain ⟨i, hi, rfl⟩ := List.mem_map.1 hq
  have := List.mem_range.1 hi
  simp only [State.queueOf, cellarOf, State.localPort]
  omega

/-- The registers that change when a port's traffic is cut off, its lanes lose lock and its mode is chosen anew. -/
inductive FadeField : Nat → FRef → Nat → Prop
  | score (p k : Nat) (hp : p < 64) (hk : k < 16) : FadeField (pgLNK p) LNK_LERR.SCORE k
  | ide (p : Nat) (f : FRef) (hp : p < 64) (h : f ∈ [LNK_IDE.LINK_SEC, LNK_IDE.SEL_SEC]) : FadeField (pgLNK p) f 0
  | sch (p : Nat) (f : FRef) (i : Nat) (hp : p < 64) (h : f = SCH_PORTSTS.SLIP ∧ i = State.localPort p ∨ f = SCH_BEONLY.PORTS ∧ i = 0) :
      FadeField (pgSCH (cellarOf p)) f i
  | qsh (c j : Nat) (f : FRef) (i : Nat) (hc : c < 4) (hj : j < 16) (h : f.off + f.stride * i < 4096) : FadeField (pgQSH c j) f i
  | cel (c : Nat) (f : FRef) (i : Nat) (hc : c < 4) (h : f.off + f.stride * i < 4096) : FadeField (pgCEL c) f i
  | discards : FadeField pgFWD FWD_PF_CNT.DISCARDS 0

theorem FadeField.down {pg i : Nat} {f : FRef} (h : FadeField pg f i) : DownField pg f i := by
  cases h with
  | score p _ hp hk => exact .link p _ i hp (by simp only [LNK_LERR.SCORE]; omega)
  | ide p f hp h =>
    have hall : ∀ g ∈ [LNK_IDE.LINK_SEC, LNK_IDE.SEL_SEC], g.off + g.stride * 0 < 4096 := by decide
    exact .link p f 0 hp (hall f h)
  | sch p f i hp h =>
    refine .sch _ f i (by unfold cellarOf; omega) ?_
    rcases h with ⟨rfl, rfl⟩ | ⟨rfl, rfl⟩
    · simp only [SCH_PORTSTS.SLIP, State.localPort]
      omega
    · decide
  | qsh c j f i hc hj h => exact .qsh c j f i hc hj h
  | cel c f i hc h => exact .cel c f i hc h
  | discards => exact .discards

/-- `t` is `s` but for traffic, queues, lanes and the streams of the fabric. -/
def SameButCut (s t : State) : Prop :=
  { t with
    out := s.out, heldOut := s.heldOut, free := s.free, firing := s.firing, flt := s.flt, frt := s.frt, nextId := s.nextId, npw := s.npw,
    openW := s.openW, parts := s.parts, pf := s.pf, resv := s.resv, sched := s.sched, splits := s.splits, ttu := s.ttu, ttuHits := s.ttuHits,
    walks := s.walks, wseq := s.wseq, edge := s.edge, lanes := s.lanes, queues := s.queues, trk := s.trk,
    tx := s.tx, packets := s.packets } = s

theorem SameButCut.same {s t : State} (h : SameButCut s t) {β : Type} (g : State → β) : g ({ t with
    out := s.out, heldOut := s.heldOut, free := s.free, firing := s.firing, flt := s.flt, frt := s.frt, nextId := s.nextId, npw := s.npw,
    openW := s.openW, parts := s.parts, pf := s.pf, resv := s.resv, sched := s.sched, splits := s.splits, ttu := s.ttu, ttuHits := s.ttuHits,
    walks := s.walks, wseq := s.wseq, edge := s.edge, lanes := s.lanes, queues := s.queues, trk := s.trk,
    tx := s.tx, packets := s.packets } : State) = g s := congrArg g h

/-- A relation between states that cutting a port's traffic off keeps. -/
structure Fades (R : State → State → Prop) : Prop extends Answers R where
  link : ∀ s t : State, SameButCut s t → R s t
  field : ∀ s pg f v i, FadeField pg f i → R s (s.setF pg f v i)
  ports : ∀ s p f, R s (s.modPort p f)

/-- The registers of the fabric link layer that a link's loss changes. -/
def fflDownFields : List FRef := [FFL_STS.LDOWN, FFL_STS.LD_CAUSE, FFL_STS.STATE, FFL_STS.REQ_PEND]

/-- A relation between states that the loss of a port's link keeps. -/
structure Downs (R : State → State → Prop) : Prop extends Answers R where
  link : ∀ s t : State, SameButLink s t → R s t
  field : ∀ s pg f v i, DownField pg f i → R s (s.setF pg f v i)
  ports : ∀ s p f, R s (s.modPort p f)

namespace Fades

variable {R : State → State → Prop} (hR : Fades R) (s : State)
include hR

theorem fireL (p b : Nat) : R s (s.fireL p b) := by
  unfold State.fireL
  repeat' split
  any_goals exact hR.fire s ..
  exact hR.refl s

theorem clearScores {p : Nat} (hp : p < 64) : R s (s.clearScores p) := by
  have hn : ∀ t : State, t.portWidth p ≤ 16 := fun t => by
    unfold State.portWidth widthOf
    split
    · decide
    · exact Nat.pow_le_pow_right (by decide) (Nat.min_le_right _ 4)
  refine hR.each _ (fun t k hk => ?_) s
  have hk16 : k < 16 := Nat.lt_of_lt_of_le (List.mem_range.1 hk) (hn s)
  unfold State.setScore
  rw [if_neg (by omega), if_neg (by omega)]
  exact hR.field t _ _ _ k (.score p k hp hk16)

theorem queueLeft (q : Nat) : R s (s.queueLeft q) := by
  unfold State.queueLeft
  split
  · exact hR.link s _ rfl
  · exact hR.refl s

theorem unnumber (k : Packet) : R s (s.unnumber k) := by
  unfold State.unnumber
  repeat' split
  · exact hR.refl s
  · exact hR.refl s
  · exact hR.link s _ rfl

theorem cutOff (p : Nat) (k : Packet) : R s (s.cutOff p k) := by
  unfold State.cutOff
  extract_lets d begun s1 s2
  have h1 : R s s1 := hR.trans (hR.onlyIf (hR.ports s d _)) (hR.unnumber _ k)
  have h2 : R s1 s2 := hR.link s1 _ rfl
  refine hR.trans (hR.trans h1 h2) (hR.trans ?_ (hR.queueLeft _ _))
  exact hR.link s2 _ rfl

theorem pfDiscard (f : PfBlock → Bool) : R s (s.pfDiscard f) := by
  unfold State.pfDiscard
  extract_lets gone n keep
  refine hR.trans ?_ (hR.field _ pgFWD _ _ 0 .discards)
  exact hR.link s _ rfl

theorem resetPolicers {p : Nat} (hp : p < 64) : R s (s.resetPolicers p) := by
  have hset : ∀ (t : State) (f : FRef) v i, f.off + f.stride * i < 4096 → R t (t.setF (pgQSH (cellarOf p) (p % 16)) f v i) := fun t f v i h =>
    hR.field t _ f v i (.qsh _ _ f i (by unfold cellarOf; omega) (Nat.mod_lt _ (by decide)) h)
  unfold State.resetPolicers State.setFlag
  refine hR.trans (hR.trans (hR.trans (hR.each _ (fun t c hc => hset t _ _ _ ?_) s) (hset _ _ _ _ ?_)) (hset _ _ _ _ ?_)) (hR.ports _ p _)
  · have hc2 : c < 2 := by
      simp only [List.mem_cons, List.not_mem_nil, or_false] at hc
      omega
    simp only [QSH_PTOK.TOKENS]
    omega
  · simp only [QSH_PSTS.P_HOLD]
    omega
  · simp only [QSH_PSTS.NP_HOLD]
    omega

theorem heldEdge (l : List (Nat × Output)) (e : EdgeSt) : R s { s with heldOut := l, edge := e } := hR.link s _ rfl

theorem linkGone {p : Nat} (hp : p < 64) : R s (s.linkGone p) := by
  unfold State.linkGone
  dsimp only
  refine hR.trans ?_ (hR.each _ (fun t k _ => hR.cutOff t p k) _)
  refine hR.trans ?_ (hR.ports _ p _)
  refine hR.trans (b := (((s.clearScores p).resetPolicers p).setFlag (pgLNK p) LNK_IDE.LINK_SEC false).setF (pgLNK p) LNK_IDE.SEL_SEC 0) ?_ ?_
  · exact hR.trans (hR.trans (hR.trans (hR.clearScores s hp) (hR.resetPolicers _ hp)) (hR.field _ _ LNK_IDE.LINK_SEC _ 0 (.ide p _ hp (by simp))))
      (hR.field _ _ LNK_IDE.SEL_SEC _ 0 (.ide p _ hp (by simp)))
  · exact hR.trans (hR.pfDiscard _ fun b => b.port == p) (hR.heldEdge _ _ _)

theorem newlyActive {q : Nat} (hq : q < 512) : R s (s.newlyActive q) := by
  unfold State.newlyActive
  have hset : ∀ v, R s (s.setF (qpg q) QSH_TOK.TOKENS v (qix q)) := fun v =>
    hR.field s (qpg q) _ v _ (.qsh (q / 128) (q % 128 / 8) _ _ (by omega) (by omega) (by simp only [QSH_TOK.TOKENS, qix]; omega))
  refine hR.trans (hset (s.burstNow (qpg q) QSH_SBURST.BURST (qix q) * 65536)) ?_
  exact hR.link _ _ rfl

theorem putSlip {p : Nat} (hp : p < 64) (v : Nat) : R s (s.putSlip p v) := by
  have hset : ∀ (t : State) x, R t (t.setF (pgSCH (cellarOf p)) SCH_PORTSTS.SLIP x (State.localPort p)) := fun t x =>
    hR.field t _ _ x _ (.sch p _ _ hp (.inl ⟨rfl, rfl⟩))
  unfold State.putSlip
  generalize hx : s.slipShown v = r
  obtain ⟨x, s1⟩ := r
  have h1 : R s s1 := by
    unfold State.slipShown at hx
    split at hx <;> cases hx
    · exact hR.refl s
    · exact hR.link s _ rfl
  exact hR.trans h1 (hR.trans (hR.ports s1 p _) (hset _ x))

theorem setBeOnly {p : Nat} (hp : p < 64) (b : Bool) : R s (s.setBeOnly p b) :=
  hR.field s _ _ _ _ (.sch p _ _ hp (.inr ⟨rfl, rfl⟩))

theorem portMode {p : Nat} (hp : p < 64) (b : Bool) : R s (s.portMode p b) := by
  unfold State.portMode
  extract_lets mism be was s1 s2
  have h1 : R s s1 := hR.setBeOnly s hp be
  have h2 : R s1 s2 := hR.onlyIf (hR.trans (hR.ports s1 p _) (hR.onlyIf (hR.fire ..)))
  refine hR.trans (hR.trans h1 h2) (hR.onlyIf (hR.trans (hR.putSlip s2 hp 0) ?_))
  exact hR.each _ (fun t q hq => hR.newlyActive t (portQueues_lt hp (List.mem_filter.1 hq).1)) _

theorem setLock (l : Nat) (b : Bool) : R s (s.setLock l b) := by
  unfold State.setLock
  split
  · exact hR.link s _ rfl
  · exact hR.field s _ _ _ _ (.cel _ _ _ (by omega) (by simp only [CEL_LANESTS.LOCK]; omega))

theorem capacity (l : List (Nat × Nat)) : R s (s.capacity l) := by
  unfold State.capacity
  split
  · exact hR.refl s
  · exact hR.link s _ rfl

end Fades

/-- The relations that a port's loss keeps are kept when its traffic is cut off. -/
theorem Downs.fades {R : State → State → Prop} (hR : Downs R) : Fades R :=
  { hR.toAnswers with link := fun s t h => hR.link s t (h.same (β := State) fun u => { u with ffl := s.ffl, fences := s.fences }), field := fun s pg f v i h => hR.field s pg f v i h.down, ports := hR.ports }

namespace Downs

variable {R : State → State → Prop} (hR : Downs R) (s : State)
include hR

theorem setLink {p : Nat} (hp : p < 64) (f : FRef) (v i : Nat) (h : f.off + f.stride * i < 4096) : R s (s.setF (pgLNK p) f v i) :=
  hR.field s _ f v i (.link p f i hp h)

theorem setFper {p : Nat} (hp : p < 64) (v : Nat) : R s (s.setFper p v) :=
  hR.field s _ _ v _ (.sch _ _ _ (by unfold cellarOf; omega) (by simp only [SCH_PORTSTS.FPER, State.localPort]; omega))

theorem linkFields {p : Nat} (hp : p < 64) (st : Nat) : R s (s.linkFields p st) := by
  have hset : ∀ (t : State) (f : FRef) v, f ∈ [LNK_STS.STATE, LNK_STS.UP, LNK_STS.WIDTH, LNK_STS.RATE, LNK_STS.REVERSED, LNK_STS.FLIT, LNK_STS.CXL] →
      R t (t.setF (pgLNK p) f v) := fun t f v h => hR.setLink t hp f v 0 (by
    have hall : ∀ g ∈ [LNK_STS.STATE, LNK_STS.UP, LNK_STS.WIDTH, LNK_STS.RATE, LNK_STS.REVERSED, LNK_STS.FLIT, LNK_STS.CXL],
      g.off + g.stride * 0 < 4096 := by decide
    exact hall f h)
  unfold State.linkFields State.setFlag
  refine hR.trans (hR.trans (hR.trans (hR.trans (hR.trans (hR.trans (hR.trans (hset _ _ _ ?_) (hset _ _ _ ?_)) (hset _ _ _ ?_)) (hset _ _ _ ?_))
    (hset _ _ _ ?_)) (hset _ _ _ ?_)) (hset _ _ _ ?_)) (hR.setFper _ hp 0)
  all_goals simp

theorem portDown {p : Nat} (hp : p < 64) (st : Nat) (r : Bool) : R s (s.portDown p st r) := by
  unfold State.portDown
  extract_lets s2 s3 s4
  have h3 : R s s3 := hR.trans (hR.trans (hR.linkFields s hp st) (hR.fades.linkGone _ hp)) (hR.ports _ p _)
  have h4 : R s3 s4 := hR.each _ (fun t l _ => hR.fades.setLock t l false) s3
  exact hR.trans (hR.trans (hR.trans h3 h4) (hR.fades.portMode s4 hp false)) (hR.fades.capacity ..)

theorem orphanIf (f : TrkEntry → Bool) : R s (s.orphanIf f) := hR.link s _ rfl

theorem endInitiators (p : Nat) : R s (s.endInitiators p) := by
  unfold State.endInitiators
  extract_lets s1
  have h1 : R s s1 := hR.trans (hR.dropFences s _ false fun t l => hR.link t _ rfl) (hR.orphanIf _ _)
  exact hR.trans h1 (hR.link s1 _ rfl)

theorem aerPort (p k : Nat) : R s (s.aerPort p k) := by
  unfold State.aerPort
  dsimp only
  repeat' split
  · exact hR.refl s
  · exact hR.ports s p _
  · exact hR.trans (hR.ports s p _) (hR.emitHost ..)

theorem pcieDown {p : Nat} (hp : p < 64) (st : Nat) (r : Bool) : R s (s.pcieDown p st r) := by
  unfold State.pcieDown
  split
  · exact hR.setLink s hp LNK_STS.STATE st 0 (by decide)
  · extract_lets s1 s2
    have h1 : R s s1 := hR.trans (hR.trans (hR.setLink s hp LNK_STS.LDOWN _ 0 (by decide)) (hR.setLink _ hp LNK_LDSTS.DOWNS _ 0 (by decide)))
      (hR.fire ..)
    have h2 : R s1 s2 := hR.onlyIf (hR.aerPort ..)
    exact hR.trans (hR.trans (hR.trans h1 h2) (hR.portDown s2 hp st r)) (hR.endInitiators _ p)

/-- The link of a port goes, where the relation also allows the registers of the port's fabric link layer to change. -/
theorem fflDown {p : Nat} (hp : p < 64) (hf : ∀ (t : State) f v, f ∈ fflDownFields → R t (t.setF (pgFFL p) f v)) (st c : Nat) (r : Bool) :
    R s (s.fflDown p st c r) := by
  unfold State.fflDown
  split
  · extract_lets s1
    have h1 : R s s1 := hR.trans (hR.trans (hR.setLink s hp LNK_STS.STATE _ 0 (by decide)) (hR.setLink _ hp LNK_STS.UP _ 0 (by decide))) (hf _ _ _ (by simp [fflDownFields]))
    refine hR.trans h1 (hR.trans ?_ (hR.each _ (fun t l _ => hR.fades.setLock t l false) _))
    exact hR.link s1 _ rfl
  · extract_lets s1 s2
    have h1 : R s s1 := hR.trans (hR.trans (hf _ _ _ (by simp [fflDownFields])) (hf _ _ _ (by simp [fflDownFields]))) (hR.fades.fireL ..)
    have h2 : R s1 s2 := hR.trans (hf _ _ _ (by simp [fflDownFields])) (hf _ _ _ (by simp [fflDownFields]))
    exact hR.trans (hR.trans h1 h2) (hR.portDown s2 hp st r)

theorem linkDown {p : Nat} (hp : p < 64) (hf : ∀ (t : State) f v, f ∈ fflDownFields → R t (t.setF (pgFFL p) f v)) (st c : Nat) (r : Bool) :
    R s (s.linkDown p st c r) := by
  unfold State.linkDown
  rw [if_neg (by omega)]
  repeat' split
  · exact hR.fflDown s hp hf st c r
  · exact hR.pcieDown s hp st r
  · exact hR.refl s

end Downs

/-- Every register of a link's loss stands on a page of a Cellar, or counts discarded blocks on the forwarding page. -/
theorem DownField.page {pg i : Nat} {f : FRef} (h : DownField pg f i) :
    (1 ≤ State.fkey pg f i / 4096 / 256 ∧ State.fkey pg f i / 4096 / 256 ≤ 4) ∨ State.fkey pg f i = State.fkey pgFWD FWD_PF_CNT.DISCARDS 0 := by
  cases h with
  | link p f i hp h =>
    rw [(fkey_page _ f i h).1]
    simp only [pgLNK, celPage, pageIx]
    omega
  | sch c f i hc h =>
    rw [(fkey_page _ f i h).1]
    simp only [pgSCH, celPage, pageIx]
    omega
  | qsh c j f i hc hj h =>
    rw [(fkey_page _ f i h).1]
    simp only [pgQSH, celPage, pageIx]
    omega
  | cel c f i hc h =>
    rw [(fkey_page _ f i h).1]
    simp only [pgCEL, celPage, pageIx]
    omega
  | discards => exact .inr rfl

theorem fkey_fflDown {p : Nat} {f : FRef} (hp : p < 64) (hf : f ∈ fflDownFields) :
    1 ≤ State.fkey (pgFFL p) f 0 / 4096 / 256 ∧ State.fkey (pgFFL p) f 0 / 4096 / 256 ≤ 4 := by
  have hall : ∀ f ∈ fflDownFields, f.off + f.stride * 0 < 4096 := by decide
  rw [(fkey_page _ f 0 (hall f hf)).1]
  simp only [pgFFL, celPage, pageIx]
  omega

/-- A register that no link's loss reaches: no interrupt cause, on a page of no Cellar, and not the count of discarded blocks. -/
structure Outside (k : Nat) : Prop where
  cause : k % 4096 ≠ INT_CAUSE.BITS.off
  page : k / 4096 / 256 = 0 ∨ 4 < k / 4096 / 256
  discards : k ≠ State.fkey pgFWD FWD_PF_CNT.DISCARDS 0

/-- The registers outside, and what `g` shows, are as before. -/
structure KeptOutside {β : Type} (g : State → β) (s t : State) : Prop where
  same : g t = g s
  reg : ∀ k, Outside k → t.reg k = s.reg k

section
variable {β : Type} {g : State → β}

theorem KeptOutside.trans {a b c : State} (h : KeptOutside g a b) (h' : KeptOutside g b c) : KeptOutside g a c :=
  ⟨h'.same.trans h.same, fun k hk => (h'.reg k hk).trans (h.reg k hk)⟩

theorem keptOutside_of_regs {s t : State} (h : t.regs = s.regs) (hg : g t = g s) : KeptOutside g s t :=
  ⟨hg, fun _ _ => congrArg (fun m => storeGet regReset m _) h⟩

theorem keptOutside_setF (hg : ∀ u r, g { u with regs := r } = g u) (s : State) {pg i : Nat} {f : FRef} (v : Nat)
    (h : ∀ k, Outside k → k ≠ State.fkey pg f i) : KeptOutside g s (s.setF pg f v i) :=
  ⟨hg s _, fun k hk => (reg_setF s pg f v i k).trans (if_neg (h k hk))⟩

/-- What a link's loss leaves of a part that none of its updates touches. -/
theorem downs_keptOutside (hg : ∀ u r, g { u with regs := r } = g u) (hport : ∀ u ps, g { u with ports := ps } = g u)
    (hlink : ∀ s t, SameButLink s t → g t = g s) (hdata : ∀ s t, SameBut s t → g t = g s) (hresv : ∀ u r, g { u with resv := r } = g u)
    (hadd : ∀ (u : State) ps n, g { u with packets := ps, nextId := n } = g u) : Downs (KeptOutside g) where
  refl _ := keptOutside_of_regs rfl rfl
  trans := .trans
  data s t h := keptOutside_of_regs (h.same State.regs) (hdata s t h)
  unreserve s _ := keptOutside_of_regs rfl (hresv s _)
  add s _ := keptOutside_of_regs rfl (hadd s _ _)
  lostCpl s q v hq := keptOutside_setF hg s v fun k hk he => by
    have := hk.page
    rw [he, (fkey_page _ LNK_LDCNT1.CPL 0 (by decide)).1] at this
    simp only [pgLNK, celPage, pageIx] at this
    omega
  interrupt s pg v := keptOutside_setF hg s v fun k hk he => hk.cause (by
    rw [he]
    exact (fkey_page _ INT_CAUSE.BITS 0 (by decide)).2)
  link s t h := keptOutside_of_regs (h.same State.regs) (hlink s t h)
  field s pg f v i h := keptOutside_setF hg s v fun k hk he => by
    rcases h.page with hp | hp
    · have := hk.page
      rw [he] at this
      omega
    · exact hk.discards (he.trans hp)
  ports s _ _ := keptOutside_of_regs rfl (hport s _)

theorem keptOutside_fflField (hg : ∀ u r, g { u with regs := r } = g u) {p : Nat} (hp : p < 64) (t : State) (f : FRef) (v : Nat)
    (hf : f ∈ fflDownFields) : KeptOutside g t (t.setF (pgFFL p) f v) := keptOutside_setF hg t v fun k hk he => by
  have := hk.page
  rw [he] at this
  have := fkey_fflDown hp hf
  omega

/-- A register of a page of no Cellar, but its interrupt cause. -/
theorem outside_fkey {pg i : Nat} {f : FRef} (ho : f.off + f.stride * i < 4096) (hc : f.off + f.stride * i ≠ INT_CAUSE.BITS.off)
    (hpg : pg / 256 = 0 ∨ 4 < pg / 256) (hfwd : pg ≠ pgFWD) : Outside (State.fkey pg f i) := by
  obtain ⟨h1, h2⟩ := fkey_page pg f i ho
  refine ⟨by rwa [h2], by rwa [h1], fun he => hfwd ?_⟩
  have h3 := (fkey_page pgFWD FWD_PF_CNT.DISCARDS 0 (by decide)).1
  rw [← he, h1] at h3
  exact h3

end

end Sys2Proof.LinkDown
end

section
/-! ## The mirrored pair (O44, O46) -/

namespace Sys2Proof.Pair

open Sys2Proof Sys2Proof.Machine Sys2Proof.Laws Sys2Proof.Support Sys2Proof.Collector Sys2Proof.Traffic Sys2Proof.ImageCommands

/-! ### What the collector leaves of the mirror block -/

/-- The mirror block is as before, but for a yield into DEVICE_FATAL and the resync that it ends. -/
def Stopped (s t : State) : Prop := ∃ y d r, t.mir = { s.mir with yielded := y, yieldDue := d, resync := r }

theorem stopped_of_eq {s t : State} (h : t.mir = s.mir) : Stopped s t := ⟨s.mir.yielded, s.mir.yieldDue, s.mir.resync, h⟩

theorem Stopped.trans {a b c : State} (h : Stopped a b) (g : Stopped b c) : Stopped a c := by
  obtain ⟨y, d, r, h⟩ := h
  obtain ⟨y', d', r', g⟩ := g
  exact ⟨y', d', r', by rw [g, h]⟩

theorem stopped_mirFatal (s : State) : Stopped s s.mirFatal := by
  cases h : s.getF pgMIR MIR_STS.ROLE == 2 <;>
  · exact ⟨_, _, _, by simp only [State.mirFatal, h]; rfl⟩

theorem collects_stopped : Collects Stopped where
  refl _ := stopped_of_eq rfl
  trans := .trans
  setF _ _ _ _ _ _ := stopped_of_eq rfl
  flt _ _ _ := stopped_of_eq rfl
  parts _ _ := stopped_of_eq rfl
  host s k l := stopped_of_eq ((quiet_emitHost s k l).eq State.mir)
  handled _ := stopped_of_eq rfl
  fatal s := by
    have hstop : ∀ (t : State) ch, (t.stopChannel ch).mir = t.mir := fun t ch => by
      unfold State.stopChannel
      dsimp only
      split <;> rfl
    have h1 : Stopped s ((s.setFlag pgFLT FLT_STATE.DEV_FATAL true).each (s.setFlag pgFLT FLT_STATE.DEV_FATAL true).busyChannels
        fun t ch => t.stopChannel ch) := stopped_of_eq ((each_eq State.mir (fun t ch _ => hstop t ch) _).trans rfl)
    exact h1.trans ((stopped_mirFatal _).trans (stopped_of_eq rfl))

/-- A part of the mirror block that a yield leaves is the same once the firings are handled. -/
theorem mir_closed {β : Type} (g : MirSt → β) (hg : ∀ m y d r, g { m with yielded := y, yieldDue := d, resync := r } = g m) (t : State) :
    g t.settle.sweepTrace.mir = g t.mir := by
  obtain ⟨y, d, r, h⟩ := collects_stopped.settle t
  exact (congrArg g h).trans (hg _ _ _ _)

/-- The registers of the mirror page are none of the collector's. -/
theorem getF_mir_closed {f : FRef} (ho : f.off + f.stride * 0 < 4096) (hc : f.off + f.stride * 0 ≠ FLT_CAUSE.BITS.off) (t : State) :
    t.settle.sweepTrace.getF pgMIR f = t.getF pgMIR f := getF_closed (apart_fkey ho (by decide) hc (by decide)) t

theorem mirRole_closed (t : State) : t.settle.sweepTrace.mirRole = t.mirRole := getF_mir_closed (f := MIR_STS.ROLE) (by decide) (by decide) t

/-! ### Racking -/

/-- What a rack sets and its replays leave. -/
def rackFields : List FRef := [MIR_STS.ROLE, MIR_RACK_INFO.VALID, MIR_RACK_INFO.CAUSE, MIR_RACK_INFO.YCAUSE, MIR_RACK_T.TIME]

/-- The role, the report of the rack and the absence of reservations stay. -/
structure RackKept (s t : State) : Prop where
  reg : ∀ f ∈ rackFields, t.getF pgMIR f = s.getF pgMIR f
  resv : s.resv = [] → t.resv = []

theorem RackKept.trans {a b c : State} (h : RackKept a b) (g : RackKept b c) : RackKept a c :=
  ⟨fun f hf => (g.reg f hf).trans (h.reg f hf), fun ha => g.resv (h.resv ha)⟩

theorem rackKept_of_regs {s t : State} (h : t.regs = s.regs) (hr : t.resv = s.resv) : RackKept s t :=
  ⟨fun _ _ => getF_of_reg (congrArg (fun m => storeGet regReset m _) h), fun hs => hr.trans hs⟩

/-- A write of another register, or of other bits of one. -/
theorem rackKept_setF (s : State) {pg i : Nat} {f : FRef} (v : Nat)
    (h : ∀ g ∈ rackFields, State.fkey pgMIR g 0 ≠ State.fkey pg f i ∨ f.hi < g.lo ∨ g.hi < f.lo) : RackKept s (s.setF pg f v i) :=
  ⟨fun g hg => getF_setF_other s _ _ _ _ v _ _ (h g hg), fun hs => hs⟩

theorem aside_rackFields : ∀ f ∈ rackFields, Aside (State.fkey pgMIR f 0) := fun f hf => by
  have hall : ∀ f ∈ rackFields, f.off + f.stride * 0 < 4096 ∧ f.off + f.stride * 0 ≠ INT_CAUSE.BITS.off := by decide
  exact aside_device (hall f hf).1 (hall f hf).2 (by decide) (by decide)

theorem carries_rackKept : Carries (fun _ => True) RackKept where
  refl _ := rackKept_of_regs rfl rfl
  trans := .trans
  data s t h := rackKept_of_regs (h.same State.regs) (h.same State.resv)
  unreserve s _ := ⟨fun _ _ => rfl, fun h => by rw [h]; rfl⟩
  add _ _ := rackKept_of_regs rfl rfl
  lostCpl s q v hq := rackKept_setF s v fun g hg => .inl fun he => ((aside_rackFields g hg).cellar q).1 (by
    rw [he]
    exact (fkey_page _ LNK_LDCNT1.CPL 0 (by decide)).1)
  interrupt s pg v := rackKept_setF s v fun g hg => .inl fun he => (aside_rackFields g hg).cause (by
    rw [he]
    exact (fkey_page _ INT_CAUSE.BITS 0 (by decide)).2)
  setF s pg f v i h := rackKept_setF s v fun g hg => .inl (h.fkey_ne (aside_rackFields g hg))
  aer _ _ _ _ := rackKept_of_regs rfl rfl
  xfer _ _ _ _ _ := rackKept_of_regs rfl rfl
  lists _ _ _ := rackKept_of_regs rfl rfl
  drop _ _ _ := rackKept_of_regs rfl rfl
  mod _ _ _ _ := rackKept_of_regs rfl rfl

theorem rackKept_replayCopy (s : State) (k : StreamKey) (r : MirRec) : RackKept s (s.replayCopy k r) := by
  unfold State.replayCopy
  dsimp only
  have h1 : ∀ p, RackKept s (s.addPacket p) := carries_rackKept.add s
  split
  · exact (h1 _).trans ((carries_rackKept.missReq _ _ _).trans (carries_rackKept.drop _ _ trivial))
  · exact h1 _
  · exact (h1 _).trans (carries_rackKept.settlePacket _ trivial (carries_rackKept.afterRoute ..))

/-- The counts of a rack. -/
theorem rackKept_addF (s : State) {f : FRef} (n : Nat)
    (hf : f ∈ [MIR_RACK_REPLAY.WRITES, MIR_RACK_INFO.BROKEN, MIR_RACK_CNT.LOSTN, MIR_RACK_CNT.RECORDS]) : RackKept s (s.addF pgMIR f n) := by
  have hall : ∀ f ∈ [MIR_RACK_REPLAY.WRITES, MIR_RACK_INFO.BROKEN, MIR_RACK_CNT.LOSTN, MIR_RACK_CNT.RECORDS], ∀ g ∈ rackFields,
      State.fkey pgMIR g 0 ≠ State.fkey pgMIR f 0 ∨ f.hi < g.lo ∨ g.hi < f.lo := by decide
  exact rackKept_setF s _ (hall f hf)

theorem rackKept_recordMark (s : State) (k : StreamKey) (r : MirRec) : RackKept s (s.recordMark k r) := by
  have hcnt : RackKept s (s.addF pgMIR MIR_RACK_CNT.RECORDS) := rackKept_addF s 1 (by simp)
  exact hcnt.trans (rackKept_of_regs rfl rfl)

theorem rackKept_rackStream (s : State) (x : MirStream) : RackKept s (s.rackStream x) := by
  unfold State.rackStream
  extract_lets recs s1 marks s2 s3 s4
  have hone : ∀ (t : State) (r : MirRec), RackKept t
      (if r.kind = 1 then (t.replayCopy x.key r).addF pgMIR MIR_RACK_REPLAY.WRITES else t.recordMark x.key r) := fun t r => by
    split
    · exact (rackKept_replayCopy t x.key r).trans (rackKept_addF _ 1 (by simp))
    · exact rackKept_recordMark t x.key r
  have h1 : RackKept s s1 := carries_rackKept.each _ (fun t r _ => hone t r) s
  have h2 : RackKept s1 s2 := carries_rackKept.onlyIf (rackKept_addF s1 1 (by simp))
  have hmod : ∀ f, RackKept s2 (s2.modStream x.key f) := fun _ => rackKept_of_regs rfl rfl
  have h3 : RackKept s2 s3 := (hmod _).trans (rackKept_addF (f := MIR_RACK_CNT.LOSTN) _ x.lost (by simp))
  have h4 : RackKept s3 s4 := by
    unfold s4
    split
    · exact rackKept_of_regs rfl rfl
    · exact carries_rackKept.refl s3
  exact h1.trans (h2.trans (h3.trans (h4.trans (rackKept_of_regs rfl rfl))))

/-- A new role stands in MIR_STS, and the report of a rack stays. -/
theorem getF_setRole (s : State) (r : Nat) : (s.setRole r).getF pgMIR MIR_STS.ROLE = r % 4 ∧
    ∀ f ∈ [MIR_RACK_INFO.VALID, MIR_RACK_INFO.CAUSE, MIR_RACK_INFO.YCAUSE, MIR_RACK_T.TIME, MIR_STS.TAKE_OK, MIR_STS.PSTATE, MIR_PVIN.VINTAGE],
      (s.setRole r).getF pgMIR f = s.getF pgMIR f := by
  have hseq : ∀ f ∈ [MIR_RACK_INFO.VALID, MIR_RACK_INFO.CAUSE, MIR_RACK_INFO.YCAUSE, MIR_RACK_T.TIME, MIR_STS.TAKE_OK, MIR_STS.PSTATE,
      MIR_PVIN.VINTAGE], (State.fkey pgMIR f 0 ≠ State.fkey pgMIR MIR_STS.ROLE 0 ∨ MIR_STS.ROLE.hi < f.lo ∨ f.hi < MIR_STS.ROLE.lo) ∧
      State.fkey pgMIR f 0 ≠ State.fkey pgMIR MIR_CSEQ.CSEQ 0 := by decide
  unfold State.setRole
  refine ⟨getF_setF_self _ _ _ _ _ (by decide), fun f hf => (getF_setF_other _ _ _ _ _ _ _ _ (hseq f hf).1).trans ?_⟩
  cases s.mirRole == 3 && r == 2 with
  | false => rfl
  | true => exact getF_setF_other _ _ _ _ _ _ _ _ (.inl (hseq f hf).2)

theorem resv_setRole (s : State) (r : Nat) : (s.setRole r).resv = s.resv := by
  unfold State.setRole
  cases s.mirRole == 3 && r == 2 <;> rfl

/-- The report of a rack: its registers before the role changes. -/
def rackReport (s : State) (c y : Nat) : State :=
  (((((({ s with resv := [] } : State).unsync.setF pgMIR MIR_RACK_T.TIME s.fabric).setFlag pgMIR MIR_RACK_INFO.VALID true).setF pgMIR
    MIR_RACK_INFO.CAUSE c).setF pgMIR MIR_RACK_INFO.YCAUSE y).setF pgMIR MIR_RACK_INFO.BROKEN 0).setF pgMIR MIR_RACK_CNT.RECORDS 0

/-- The state in which a rack replays its streams. -/
def rackBegun (s : State) (c y : Nat) : State :=
  ((((rackReport s c y).setF pgMIR MIR_RACK_CNT.LOSTN 0).setF pgMIR MIR_RACK_REPLAY.WRITES 0).fire pgMIR 3).setRole 2

/-- The streams' replays over, the mirror block has nothing of the partner's. -/
def rackEnded (s : State) : State :=
  ({ s with mir := { s.mir with journal := [], commits := [], expect := none, got := [], resync := none, owed := (0, 0), resyncReq := false } } : State).capacity
    [(7, 0x3F)]

theorem rack_eq (s : State) (c y : Nat) :
    s.rack c y = rackEnded ((rackBegun s c y).each (rackBegun s c y).mir.streams fun t x => t.rackStream x) := rfl

theorem getF_rackBegun (s : State) (c y : Nat) : (rackBegun s c y).getF pgMIR MIR_STS.ROLE = 2 ∧
    (rackBegun s c y).getF pgMIR MIR_RACK_INFO.VALID = 1 ∧ (rackBegun s c y).getF pgMIR MIR_RACK_INFO.CAUSE = c % 4 ∧
    (rackBegun s c y).getF pgMIR MIR_RACK_INFO.YCAUSE = y % 256 ∧ (rackBegun s c y).getF pgMIR MIR_RACK_T.TIME = s.fabric % 2 ^ 64 := by
  obtain ⟨hrole, hrest⟩ := getF_setRole ((((rackReport s c y).setF pgMIR MIR_RACK_CNT.LOSTN 0).setF pgMIR MIR_RACK_REPLAY.WRITES 0).fire pgMIR 3) 2
  have hfire : ∀ (t : State) f, (t.fire pgMIR 3).getF pgMIR f = t.getF pgMIR f := fun _ _ => rfl
  refine ⟨hrole, ?_, ?_, ?_, ?_⟩
  all_goals
    refine (hrest _ (by simp)).trans ((hfire _ _).trans ?_)
    unfold rackReport
  · rw [getF_setF_other _ _ _ _ _ _ _ _ (by decide), getF_setF_other _ _ _ _ _ _ _ _ (by decide), getF_setF_other _ _ _ _ _ _ _ _ (by decide),
      getF_setF_other _ _ _ _ _ _ _ _ (by decide), getF_setF_other _ _ _ _ _ _ _ _ (by decide), getF_setF_other _ _ _ _ _ _ _ _ (by decide)]
    exact getF_setF_self _ pgMIR MIR_RACK_INFO.VALID 1 0 (by decide)
  · rw [getF_setF_other _ _ _ _ _ _ _ _ (by decide), getF_setF_other _ _ _ _ _ _ _ _ (by decide), getF_setF_other _ _ _ _ _ _ _ _ (by decide),
      getF_setF_other _ _ _ _ _ _ _ _ (by decide), getF_setF_other _ _ _ _ _ _ _ _ (by decide)]
    exact getF_setF_self _ pgMIR MIR_RACK_INFO.CAUSE c 0 (by decide)
  · rw [getF_setF_other _ _ _ _ _ _ _ _ (by decide), getF_setF_other _ _ _ _ _ _ _ _ (by decide), getF_setF_other _ _ _ _ _ _ _ _ (by decide),
      getF_setF_other _ _ _ _ _ _ _ _ (by decide)]
    exact getF_setF_self _ pgMIR MIR_RACK_INFO.YCAUSE y 0 (by decide)
  · unfold State.setFlag
    rw [getF_setF_other _ _ _ _ _ _ _ _ (by decide), getF_setF_other _ _ _ _ _ _ _ _ (by decide), getF_setF_other _ _ _ _ _ _ _ _ (by decide),
      getF_setF_other _ _ _ _ _ _ _ _ (by decide), getF_setF_other _ _ _ _ _ _ _ _ (by decide), getF_setF_other _ _ _ _ _ _ _ _ (by decide),
      getF_setF_other _ _ _ _ _ _ _ _ (by decide)]
    exact getF_setF_self _ pgMIR MIR_RACK_T.TIME s.fabric 0 (by decide)

theorem rackEnded_frame (s : State) : (rackEnded s).regs = s.regs ∧ (rackEnded s).resv = s.resv ∧ (rackEnded s).mir.journal = [] := by
  unfold rackEnded State.capacity
  split <;> exact ⟨rfl, rfl, rfl⟩

/-- What a rack leaves, its firings handled. -/
theorem rack_closed (s : State) (c y : Nat) {t : State} (ht : t = (s.rack c y).settle.sweepTrace) : t.mirRole = 2 ∧ t.mir.journal = [] ∧
    t.flag pgMIR MIR_RACK_INFO.VALID = true ∧ t.getF pgMIR MIR_RACK_INFO.CAUSE = c % 4 ∧ t.getF pgMIR MIR_RACK_INFO.YCAUSE = y % 256 ∧
    t.getF pgMIR MIR_RACK_T.TIME = s.fabric % 2 ^ 64 ∧ t.resv = [] := by
  have hkept : RackKept (rackBegun s c y) ((rackBegun s c y).each (rackBegun s c y).mir.streams fun t x => t.rackStream x) :=
    carries_rackKept.each _ (fun t x _ => rackKept_rackStream t x) _
  obtain ⟨hregs, hresv, hjournal⟩ := rackEnded_frame ((rackBegun s c y).each (rackBegun s c y).mir.streams fun t x => t.rackStream x)
  obtain ⟨h1, h2, h3, h4, h5⟩ := getF_rackBegun s c y
  have hall : ∀ f ∈ rackFields, f.off + f.stride * 0 < 4096 ∧ f.off + f.stride * 0 ≠ FLT_CAUSE.BITS.off := by decide
  have hreg : ∀ f ∈ rackFields, t.getF pgMIR f = (rackBegun s c y).getF pgMIR f := fun f hf => by
    rw [ht, getF_mir_closed (hall f hf).1 (hall f hf).2, rack_eq]
    exact (getF_of_reg (congrArg (fun m => storeGet regReset m _) hregs)).trans (hkept.reg f hf)
  refine ⟨(hreg MIR_STS.ROLE (by simp [rackFields])).trans h1, ?_, congrArg (· == 1) ((hreg MIR_RACK_INFO.VALID (by simp [rackFields])).trans h2),
    (hreg MIR_RACK_INFO.CAUSE (by simp [rackFields])).trans h3, (hreg MIR_RACK_INFO.YCAUSE (by simp [rackFields])).trans h4,
    (hreg MIR_RACK_T.TIME (by simp [rackFields])).trans h5, ?_⟩
  · rw [ht]
    exact (mir_closed MirSt.journal (fun _ _ _ _ => rfl) _).trans hjournal
  · rw [ht, rack_eq]
    exact (settle_resv _).trans (hresv.trans (hkept.resv (resv_setRole _ 2)))

/-! ### Timers -/

section
variable {s : State}

/-- A message to the partner joins what waits at each of its ports. -/
theorem ctrl_mirMsg (m : CtrlMsg) : ∀ p ∈ s.mirPorts, ((s.mirMsg m).fflSt p).ctrl = (s.fflSt p).ctrl ++ [(m, 1)] := by
  have hself : ∀ (t : State) p, ((t.ctrlAdd p m 1).fflSt p).ctrl = (t.fflSt p).ctrl ++ [(m, 1)] := fun t p =>
    congrArg FflSt.ctrl (fflSt_modFfl_self t p fun x => { x with ctrl := x.ctrl ++ [(m, 1)] })
  have hother : ∀ (t : State) p q, q ≠ p → (t.ctrlAdd p m 1).fflSt q = t.fflSt q := fun t p q h =>
    fflSt_modFfl_other t (fun x => { x with ctrl := x.ctrl ++ [(m, 1)] }) h
  have hlist : ∀ l : List Nat, l.Nodup → ∀ t : State, (∀ q, q ∉ l → (t.each l fun u p => u.ctrlAdd p m 1).fflSt q = t.fflSt q) ∧
      ∀ p ∈ l, ((t.each l fun u p => u.ctrlAdd p m 1).fflSt p).ctrl = (t.fflSt p).ctrl ++ [(m, 1)] := fun l => by
    induction l with
    | nil => exact fun _ t => ⟨fun _ _ => rfl, fun p hp => absurd hp List.not_mem_nil⟩
    | cons a r ih =>
      intro hnd t
      obtain ⟨ha, hr⟩ := List.nodup_cons.1 hnd
      obtain ⟨ho, hm⟩ := ih hr (t.ctrlAdd a m 1)
      refine ⟨fun q hq => ?_, fun p hp => ?_⟩
      · rw [List.mem_cons, not_or] at hq
        exact (ho q hq.2).trans (hother t a q hq.1)
      · rcases List.mem_cons.1 hp with rfl | hp
        · exact (congrArg FflSt.ctrl (ho p ha)).trans (hself t p)
        · exact (hm p hp).trans (congrArg (fun x => FflSt.ctrl x ++ [(m, 1)]) (hother t a p (fun h => ha (h ▸ hp))))
  exact (hlist s.mirPorts ((by decide : [64, 65].Nodup).filter _) s).2

theorem exec_roleInterval (hinv : s.Inv) (hd : s.devFatal = false) (h0 : s.mirRole ≠ 0)
    (hdue : s.mir.roleAt + 1000 * s.getF pgMIR MIR_TMR.ROLE_INT ≤ s.ticks) : ∃ t, exec .roleInterval s = .next t ∧
    t.mir.roleAt = s.ticks ∧ t.regs = s.regs ∧ ∀ p ∈ s.mirPorts, (t.fflSt p).ctrl = (s.fflSt p).ctrl ++ [(.role s.mirRole
      (s.flag pgMIR MIR_STS.TAKE_OK) (s.mirRole == 3 && s.mir.resyncReq) s.activeNumber (s.getF pgMIR MIR_LEDGER.EPOCH), 1)] := by
  have hgo : ¬ (s.mirRole = 0 ∨ s.devFatal = true ∨ s.ticks < s.mir.roleAt + 1000 * s.getF pgMIR MIR_TMR.ROLE_INT) := by
    simp [h0, hd]
    omega
  obtain ⟨f, ps, heq⟩ := mirMsg_eq (s := { s with mir := { s.mir with roleAt := s.ticks } })
    (.role s.mirRole (s.flag pgMIR MIR_STS.TAKE_OK) (s.mirRole == 3 && s.mir.resyncReq) s.activeNumber (s.getF pgMIR MIR_LEDGER.EPOCH)) 1
  have hrun : exec .roleInterval s = (({ s with mir := { s.mir with roleAt := s.ticks } } : State).mirMsg
      (.role s.mirRole (s.flag pgMIR MIR_STS.TAKE_OK) (s.mirRole == 3 && s.mir.resyncReq) s.activeNumber (s.getF pgMIR MIR_LEDGER.EPOCH))).done := by
    show execRoleInterval s = _
    rw [execRoleInterval, if_neg hgo]
  refine ⟨_, hrun.trans (done_eq_of_eq hinv rfl ?_ ?_ ?_ ?_), ?_, ?_, ctrl_mirMsg (s := { s with mir := { s.mir with roleAt := s.ticks } }) _⟩
  all_goals rw [heq]

theorem setRole_frame (s : State) (r : Nat) : (s.setRole r).hbm = s.hbm ∧ (s.setRole r).packets = s.packets := by
  unfold State.setRole
  cases s.mirRole == 3 && r == 2 <;> exact ⟨rfl, rfl⟩

theorem exec_seekTimeout (hd : s.devFatal = false) (h1 : s.mirRole = 1)
    (hdue : s.mir.seekStart + 10000000 * s.getF pgMIR MIR_CFG.SEEK_T ≤ s.ticks) (hseat : s.flag pgMIR MIR_CFG.SEAT = false)
    (halone : s.flag pgMIR MIR_CFG.ALONE = true) : ∃ t, exec .seekTimeout s = .next t ∧ t.mirRole = 2 ∧ t.hbm = s.hbm := by
  refine ⟨(s.setRole 2).settle.sweepTrace, ?_, (mirRole_closed _).trans (getF_setRole s 2).1, (settle_hbm _).trans (setRole_frame s 2).1⟩
  show execSeekTimeout s = _
  rw [execSeekTimeout, if_pos ⟨h1, hd, hdue, hseat, halone⟩]
  rfl

/-- The streams of a ledger at its end, each with its point. -/
def ledgerNow (s : State) : List (Nat × MirStream) := s.mir.streams.map fun x =>
  (s.ledgerPoint x, { x with point := some (s.ledgerPoint x), changed := x.changed || decide (x.point ≠ some (s.ledgerPoint x)) })

/-- The streams that a ledger reports. -/
def ledgerDue (s : State) : List (Nat × MirStream) := (ledgerNow s).filter (·.2.changed)

/-- The records of a ledger. -/
def ledgerRecs (s : State) : List MirRec := (chunks 512 ((ledgerDue s).length + 1) (ledgerDue s)).map fun l =>
  { State.emptyRec with
    kind := 4, epoch := serialNext (s.getF pgMIR MIR_LEDGER.EPOCH), time := s.fabric,
    entries := l.map fun (x : Nat × MirStream) => (x.2.key, x.1, x.2.lost) }

/-- The mirror block after a ledger. -/
def ledgerMir (s : State) : MirSt :=
  { s.mir with
    streams := (((ledgerNow s).filter fun (x : Nat × MirStream) => x.2.changed || x.2.broken || decide (x.2.lost ≠ 0) || decide (x.1 ≠ x.2.high)).map
      (·.2)).map fun (x : MirStream) => { x with changed := false }
    epochAt := s.ticks, txq := s.mir.txq ++ ledgerRecs s }

theorem ledger_eq (s : State) : s.ledger = if (ledgerDue s).isEmpty then { s with mir := ledgerMir s }
    else ({ s with mir := ledgerMir s } : State).setF pgMIR MIR_LEDGER.EPOCH (serialNext (s.getF pgMIR MIR_LEDGER.EPOCH)) := rfl

theorem exec_ledgerEpochEnd (hinv : s.Inv) (hm : s.mirroring = true) (hdue : s.mir.epochAt + 250 * s.getF pgMIR MIR_EPOCH.LEN ≤ s.ticks) :
    ∃ t recs, exec .ledgerEpochEnd s = .next t ∧
      t.mir.epochAt = s.ticks ∧ t.mir.txq = s.mir.txq ++ recs ∧ (∀ r ∈ recs, r.kind = 4 ∧ r.time = s.fabric) ∧
      (∀ x ∈ t.mir.streams, x.changed = false) ∧
      ((∃ x ∈ s.mir.streams, x.changed = true) → recs ≠ [] ∧
        t.getF pgMIR MIR_LEDGER.EPOCH = (s.getF pgMIR MIR_LEDGER.EPOCH + 1) % 2 ^ 32) := by
  have hmir : s.ledger.mir = ledgerMir s := by
    rw [ledger_eq]
    split <;> rfl
  have hrun : exec .ledgerEpochEnd s = s.ledger.done := by
    show execLedgerEpochEnd s = _
    simp only [execLedgerEpochEnd, hm, hdue, decide_true, Bool.and_self, if_true]
  have hdone : s.ledger.done = .next s.ledger := by
    rw [ledger_eq]
    split
    · exact done_eq hinv rfl rfl rfl rfl
    · exact done_eq hinv rfl rfl rfl rfl
  refine ⟨s.ledger, ledgerRecs s, hrun.trans hdone, by rw [hmir]; rfl, by rw [hmir]; rfl, fun r hr => ?_, fun x hx => ?_, fun ⟨x, hx, hch⟩ => ?_⟩
  · obtain ⟨l, -, rfl⟩ := List.mem_map.1 hr
    exact ⟨rfl, rfl⟩
  · rw [hmir] at hx
    obtain ⟨y, -, rfl⟩ := List.mem_map.1 hx
    rfl
  · have hmem : (s.ledgerPoint x, { x with
        point := some (s.ledgerPoint x), changed := x.changed || decide (x.point ≠ some (s.ledgerPoint x)) }) ∈ ledgerDue s :=
      List.mem_filter.2 ⟨List.mem_map.2 ⟨x, hx, rfl⟩, by simp [hch]⟩
    have hne : (ledgerDue s).isEmpty = false := by
      cases hl : ledgerDue s with
      | nil => rw [hl] at hmem; exact absurd hmem List.not_mem_nil
      | cons => rfl
    constructor
    · simp [ledgerRecs, chunks, hne]
    · rw [ledger_eq, hne]
      refine (getF_setF_self _ _ _ _ _ (by decide)).trans ?_
      exact Nat.mod_mod _ _

theorem exec_heartbeatLoss_rack (hd : s.devFatal = false) (hsil : s.silent = true) (hok : s.flag pgMIR MIR_STS.TAKE_OK = true) :
    ∃ t, exec .heartbeatLoss s = .next t ∧ t.mirRole = 2 ∧ t.getF pgMIR MIR_RACK_INFO.CAUSE = 1 ∧ t.mir.journal = [] := by
  have hrun : exec .heartbeatLoss s = (({ s with mir := { s.mir with handled := true } } : State).rack 1 0xFF).done := by
    show execHeartbeatLoss s = _
    have hok' : ({ s with mir := { s.mir with handled := true } } : State).flag pgMIR MIR_STS.TAKE_OK = true := hok
    simp only [execHeartbeatLoss, hsil, hd, Bool.not_false, Bool.and_self, if_true, State.onSilence, State.takeover, hok']
  obtain ⟨hrole, hjournal, -, hcause, -⟩ := rack_closed { s with mir := { s.mir with handled := true } } 1 0xFF rfl
  exact ⟨_, hrun, hrole, hcause, hjournal⟩

theorem exec_heartbeatLoss_wait (hd : s.devFatal = false) (hsil : s.silent = true) (hok : s.flag pgMIR MIR_STS.TAKE_OK = false) :
    ∃ t, exec .heartbeatLoss s = .next t ∧ t.mirRole = 3 ∧ t.mir.handled = true ∧ t.mir.journal = s.mir.journal := by
  have hrun : exec .heartbeatLoss s = (({ s with mir := { s.mir with handled := true } } : State).fire pgMIR 4).done := by
    show execHeartbeatLoss s = _
    have hok' : ({ s with mir := { s.mir with handled := true } } : State).flag pgMIR MIR_STS.TAKE_OK = false := hok
    simp only [execHeartbeatLoss, hsil, hd, Bool.not_false, Bool.and_self, if_true, State.onSilence, State.takeover, hok', Bool.false_eq_true, if_false]
  have h3 : s.mirRole = 3 := by
    simp only [State.silent, Bool.and_eq_true, beq_iff_eq] at hsil
    obtain ⟨⟨⟨⟨h, -⟩, -⟩, -⟩, -⟩ := hsil
    exact h
  exact ⟨_, hrun, (mirRole_closed _).trans h3, mir_closed MirSt.handled (fun _ _ _ _ => rfl) _, mir_closed MirSt.journal (fun _ _ _ _ => rfl) _⟩

theorem exec_hbOutToggle (hinv : s.Inv) (hd : s.devFatal = false) (h0 : s.mirRole ≠ 0) (hdue : s.fabric % 1000 = 0) (hnew : s.mir.hbAt ≠ some s.fabric) :
    exec .hbOutToggle s = .next { s with mir := { s.mir with hbOut := !s.mir.hbOut, hbAt := some s.fabric } } := by
  have hgo : ¬ (s.mirRole = 0 ∨ s.devFatal = true ∨ s.fabric % 1000 ≠ 0 ∨ s.mir.hbAt = some s.fabric) := by simp [h0, hd, hdue, hnew]
  show execHbOutToggle s = _
  rw [execHbOutToggle, if_neg hgo]
  exact done_eq hinv rfl rfl rfl rfl

theorem exec_pairHbInEdge (hinv : s.Inv) {b : Bool} (hb : s.mir.hbIn ≠ b) (hsil : s.silent = false) (hp : s.mirPorts ≠ []) :
    exec (.pairHbInEdge b) s = .next { s with mir := { s.mir with hbIn := b, hbEdge := some s.ticks, handled := false } } := by
  have hne : s.mirPorts.isEmpty = false := by simpa using hp
  show execPairHbInEdge b s = _
  rw [execPairHbInEdge, if_neg hb]
  simp only [hsil, hne, Bool.false_and, Bool.and_false, onlyIf_false]
  exact done_eq hinv rfl rfl rfl rfl

/-- Settles O46: each timer of the pair by its own lemma. -/
theorem pairTimers : Obligations.PairTimers := by
  unfold Obligations.PairTimers
  exact fun s b hinv hd => ⟨exec_roleInterval hinv hd, fun h1 hdue hseat halone => exec_seekTimeout hd h1 hdue hseat halone,
    exec_ledgerEpochEnd hinv, fun hsil => ⟨exec_heartbeatLoss_rack hd hsil, exec_heartbeatLoss_wait hd hsil⟩,
    exec_hbOutToggle hinv hd, exec_pairHbInEdge hinv⟩

end

/-! ### The partner's messages -/

section
variable {s : State} {m : Nat}

/-- The mirror block and the receive streams. -/
def mirRx (s : State) : MirSt × Store RxStream := (s.mir, s.rx)

theorem downs_mirRx : LinkDown.Downs (LinkDown.KeptOutside mirRx) :=
  LinkDown.downs_keptOutside (fun _ _ => rfl) (fun _ _ => rfl) (fun _ _ h => h.same mirRx) (fun _ _ h => h.same mirRx) (fun _ _ => rfl)
    fun _ _ _ => rfl

/-- A member that becomes STANDBY, its links and the state of the pair not yet changed. -/
def standbyRole (s : State) : State :=
  let s1 := ((s.setRole 3).setFlag pgMIR MIR_STS.TAKE_OK false).unsync
  { s1 with mir := { s1.mir with resyncReq := true, resync := none, journal := [], commits := [], expect := none, got := [], streams := [] } }

/-- The state of the pair follows. -/
def standbyPair (s : State) : State := (standbyRole s).onlyIf (!(standbyRole s).mirPorts.isEmpty) fun t => t.setF pgMIR MIR_STS.PSTATE 1

theorem becomeStandby_eq (s : State) : s.becomeStandby = (standbyPair s).each
    ((List.range 64).filter fun p => (standbyPair s).isFfl p && (standbyPair s).lkState p != 0) fun t p => t.linkDown p 0 3 false := rfl

theorem standbyPair_frame (s : State) : (standbyPair s).mir.journal = [] ∧ (standbyPair s).mir.resyncReq = true ∧
    ∀ e ∈ (standbyPair s).rx, e.2.synced = false := by
  have hrx : ∀ e ∈ (standbyRole s).rx, e.2.synced = false := fun e he => by
    obtain ⟨x, -, rfl⟩ := List.mem_map.1 (List.mem_filter.1 he).1
    rfl
  unfold standbyPair
  cases !(standbyRole s).mirPorts.isEmpty <;> exact ⟨rfl, rfl, hrx⟩

theorem getF_standbyPair (s : State) : (standbyPair s).getF pgMIR MIR_STS.ROLE = 3 ∧ (standbyPair s).getF pgMIR MIR_STS.TAKE_OK = 0 ∧
    (standbyPair s).getF pgMIR MIR_PVIN.VINTAGE = s.getF pgMIR MIR_PVIN.VINTAGE := by
  obtain ⟨hrole, hrest⟩ := getF_setRole s 3
  have hpair : ∀ f ∈ [MIR_STS.ROLE, MIR_STS.TAKE_OK, MIR_PVIN.VINTAGE], (standbyPair s).getF pgMIR f = (standbyRole s).getF pgMIR f := fun f hf => by
    have hall : ∀ f ∈ [MIR_STS.ROLE, MIR_STS.TAKE_OK, MIR_PVIN.VINTAGE], State.fkey pgMIR f 0 ≠ State.fkey pgMIR MIR_STS.PSTATE 0 ∨
        MIR_STS.PSTATE.hi < f.lo ∨ f.hi < MIR_STS.PSTATE.lo := by decide
    unfold standbyPair
    cases !(standbyRole s).mirPorts.isEmpty
    · rfl
    · exact getF_setF_other _ _ _ _ _ _ _ _ (hall f hf)
  have hset : ∀ f, (standbyRole s).getF pgMIR f = ((s.setRole 3).setFlag pgMIR MIR_STS.TAKE_OK false).getF pgMIR f := fun _ => rfl
  refine ⟨?_, ?_, ?_⟩
  · rw [hpair _ (by simp), hset]
    exact (getF_setF_other _ _ _ _ _ _ _ _ (by decide)).trans hrole
  · rw [hpair _ (by simp), hset]
    exact getF_setF_self _ _ _ _ _ (by decide)
  · rw [hpair _ (by simp), hset]
    exact (getF_setF_other _ _ _ _ _ _ _ _ (by decide)).trans (hrest _ (by simp))

/-- A member that becomes STANDBY, the links of its ports down. -/
theorem becomeStandby_kept (s : State) : LinkDown.KeptOutside mirRx (standbyPair s) s.becomeStandby := by
  rw [becomeStandby_eq]
  refine downs_mirRx.each _ (fun t p hp => ?_) _
  have hp64 : p < 64 := List.mem_range.1 (List.mem_filter.1 hp).1
  exact downs_mirRx.linkDown t hp64 (fun u f v hf => LinkDown.keptOutside_fflField (fun _ _ => rfl) hp64 u f v hf) 0 3 false

theorem becomeStandby_closed (s : State) {t : State} (ht : t = s.becomeStandby.settle.sweepTrace) : t.mirRole = 3 ∧
    t.flag pgMIR MIR_STS.TAKE_OK = false ∧ t.mir.journal = [] ∧ t.mir.resyncReq = true ∧
    t.getF pgMIR MIR_PVIN.VINTAGE = s.getF pgMIR MIR_PVIN.VINTAGE ∧ ∀ e ∈ t.rx, e.2.synced = false := by
  obtain ⟨hsame, hreg⟩ := becomeStandby_kept s
  obtain ⟨hjournal, hreq, hrx⟩ := standbyPair_frame s
  obtain ⟨h1, h2, h3⟩ := getF_standbyPair s
  have hmir : s.becomeStandby.mir = (standbyPair s).mir := congrArg Prod.fst hsame
  have hrx' : t.rx = (standbyPair s).rx := by
    rw [ht]
    exact (settle_rx _).trans (congrArg Prod.snd hsame)
  have hget : ∀ f ∈ [MIR_STS.ROLE, MIR_STS.TAKE_OK, MIR_PVIN.VINTAGE], t.getF pgMIR f = (standbyPair s).getF pgMIR f := fun f hf => by
    have hall : ∀ f ∈ [MIR_STS.ROLE, MIR_STS.TAKE_OK, MIR_PVIN.VINTAGE], f.off + f.stride * 0 < 4096 ∧
        f.off + f.stride * 0 ≠ FLT_CAUSE.BITS.off ∧ f.off + f.stride * 0 ≠ INT_CAUSE.BITS.off := by decide
    obtain ⟨ho, hc, hi⟩ := hall f hf
    rw [ht, getF_mir_closed ho hc]
    exact getF_of_reg (hreg _ (LinkDown.outside_fkey ho hi (by decide) (by decide)))
  refine ⟨(hget _ (by simp)).trans h1, ?_, ?_, ?_, (hget _ (by simp)).trans h3, fun e he => hrx e (hrx' ▸ he)⟩
  · exact congrArg (· == 1) ((hget _ (by simp)).trans h2)
  · rw [ht]
    exact (mir_closed MirSt.journal (fun _ _ _ _ => rfl) _).trans ((congrArg MirSt.journal hmir).trans hjournal)
  · rw [ht]
    exact (mir_closed MirSt.resyncReq (fun _ _ _ _ => rfl) _).trans ((congrArg MirSt.resyncReq hmir).trans hreq)

/-- What the arrival of a ROLE notes of the partner. -/
def roleHeard (s : State) (r : RoleMsg) : State := ({ s with mir := { s.mir with role := some r } } : State).setF pgMIR MIR_PVIN.VINTAGE r.vintage

/-- The mirror block of a resync that begins. -/
def resyncBegun (s : State) : State := { s with mir := { s.mir with resync := some (0, s.ticks), blockAt := s.ticks } }

/-- A resync that has begun, its message not yet waiting. -/
def resyncStarted (s : State) : State := ((resyncBegun s).setF pgMIR MIR_STS.PSTATE 1).setF pgMIR MIR_STS.RESYNC_PCT 0

theorem resyncBegin_eq (s : State) : s.resyncBegin = (resyncStarted s).mirMsg (.resync false) := rfl

theorem resyncStarted_same {β : Type} (g : State → β) (hr : ∀ u r, g { u with regs := r } = g u) (hm : ∀ u x, g { u with mir := x } = g u)
    (s : State) : g (resyncStarted s) = g s :=
  (hr ((resyncBegun s).setF pgMIR MIR_STS.PSTATE 1) _).trans ((hr (resyncBegun s) _).trans (hm s _))

theorem mir_resyncStarted (s : State) : (resyncStarted s).mir = { s.mir with resync := some (0, s.ticks), blockAt := s.ticks } := rfl

theorem getF_resyncStarted (s : State) : (resyncStarted s).mirRole = s.mirRole ∧ (resyncStarted s).getF pgMIR MIR_STS.PSTATE = 1 := by
  unfold resyncStarted
  constructor
  · exact (getF_setF_other _ _ _ _ _ _ _ _ (by decide)).trans (getF_setF_other _ _ _ _ _ _ _ _ (by decide))
  · exact (getF_setF_other _ _ _ _ _ _ _ _ (by decide)).trans (getF_setF_self _ _ _ _ _ (by decide))

theorem exec_mirRoleReceive (hm : s.mirHears m = true) (role v ep : Nat) (tk rq : Bool) :
    exec (.mirRoleReceive m role tk rq v ep) s = (s.heardFrom.roleArrives ⟨role % 4, tk, rq, v, ep⟩).done := by
  show execMirRoleReceive m role tk rq v ep s = _
  rw [execMirRoleReceive, if_pos hm]

theorem role_seeking (hm : s.mirHears m = true) (h1 : s.mirRole = 1) (v ep : Nat) (tk rq : Bool) : ∃ t,
    exec (.mirRoleReceive m 2 tk rq v ep) s = .next t ∧ t.mirRole = 3 ∧ t.flag pgMIR MIR_STS.TAKE_OK = false ∧
      t.mir.journal = [] ∧ t.mir.resyncReq = true ∧ t.getF pgMIR MIR_PVIN.VINTAGE = v % 2 ^ 32 ∧ (∀ e ∈ t.rx, e.2.synced = false) := by
  have harr : s.heardFrom.roleArrives ⟨2 % 4, tk, rq, v, ep⟩ = (roleHeard s.heardFrom ⟨2 % 4, tk, rq, v, ep⟩).becomeStandby := by
    have h1' : s.heardFrom.mirRole = 1 := h1
    simp only [State.roleArrives, h1', if_true]
    rfl
  obtain ⟨hrole, htk, hj, hreq, hvin, hrx⟩ := becomeStandby_closed (roleHeard s.heardFrom ⟨2 % 4, tk, rq, v, ep⟩) rfl
  refine ⟨_, (exec_mirRoleReceive hm ..).trans (congrArg State.done harr), hrole, htk, hj, hreq, hvin.trans ?_, hrx⟩
  exact getF_setF_self _ _ _ _ _ (by decide)

theorem role_active_resync (hinv : s.Inv) (hm : s.mirHears m = true) (h2 : s.mirRole = 2) (hres : s.mir.resync = none)
    (hsw : s.mir.switchEnd = none) (v ep : Nat) (tk : Bool) : ∃ t, exec (.mirRoleReceive m 3 tk true v ep) s = .next t ∧
      t.mirRole = 2 ∧ t.mir.resync = some (0, s.ticks) ∧ t.getF pgMIR MIR_STS.PSTATE = 1 ∧ t.packets = s.packets := by
  have harr : s.heardFrom.roleArrives ⟨3 % 4, tk, true, v, ep⟩ = (roleHeard s.heardFrom ⟨3 % 4, tk, true, v, ep⟩).resyncBegin := by
    have h2' : s.heardFrom.mirRole = 2 := h2
    have hnone : (roleHeard s.heardFrom ⟨3 % 4, tk, true, v, ep⟩).mir.resync.isNone = true ∧
        (roleHeard s.heardFrom ⟨3 % 4, tk, true, v, ep⟩).mir.switchEnd.isNone = true :=
      ⟨congrArg Option.isNone hres, congrArg Option.isNone hsw⟩
    unfold State.roleArrives
    dsimp only
    rw [if_neg (by rw [h2']; decide), if_pos h2', if_neg (by decide)]
    exact if_pos ⟨rfl, Bool.true_or _, hnone⟩
  obtain ⟨hrole, hpair⟩ := getF_resyncStarted (roleHeard s.heardFrom ⟨3 % 4, tk, true, v, ep⟩)
  obtain ⟨f, ps, heq⟩ := mirMsg_eq (s := resyncStarted (roleHeard s.heardFrom ⟨3 % 4, tk, true, v, ep⟩)) (.resync false) 1
  have hheard : (roleHeard s.heardFrom ⟨3 % 4, tk, true, v, ep⟩).mirRole = 2 := (getF_setF_other _ _ _ _ _ _ _ _ (by decide)).trans h2
  have hrun : exec (.mirRoleReceive m 3 tk true v ep) s =
      (({ resyncStarted (roleHeard s.heardFrom ⟨3 % 4, tk, true, v, ep⟩) with ffl := f, ports := ps } : State)).done :=
    (exec_mirRoleReceive hm 3 v ep tk true).trans (congrArg State.done (harr.trans heq))
  refine ⟨_, hrun.trans (done_eq hinv ?_ ?_ ?_ ?_), hrole.trans hheard, ?_, hpair, ?_⟩
  · exact resyncStarted_same State.firing (fun _ _ => rfl) (fun _ _ => rfl) _
  · exact resyncStarted_same State.trace (fun _ _ => rfl) (fun _ _ => rfl) _
  · exact resyncStarted_same State.packets (fun _ _ => rfl) (fun _ _ => rfl) _
  · exact resyncStarted_same State.swb (fun _ _ => rfl) (fun _ _ => rfl) _
  · exact congrArg MirSt.resync (mir_resyncStarted _)
  · exact resyncStarted_same State.packets (fun _ _ => rfl) (fun _ _ => rfl) _

theorem role_dual (hm : s.mirHears m = true) (h2 : s.mirRole = 2) (hnone : s.mir.role = none) (hmask : s.fltMasked (pgMIR * 32 + 10) = false)
    (v ep : Nat) (tk rq : Bool) : ∃ t, exec (.mirRoleReceive m 2 tk rq v ep) s = .next t ∧
      t.mirRole = 2 ∧ t.fltSet (pgMIR * 32 + 10) = true := by
  have harr : s.heardFrom.roleArrives ⟨2 % 4, tk, rq, v, ep⟩ = (roleHeard s.heardFrom ⟨2 % 4, tk, rq, v, ep⟩).fire pgMIR 10 := by
    have h2' : s.heardFrom.mirRole = 2 := h2
    have hrole : s.heardFrom.mir.role = none := hnone
    unfold State.roleArrives
    dsimp only
    rw [if_neg (by rw [h2']; decide), if_pos h2', if_pos (by decide), hrole]
    rfl
  refine ⟨_, (exec_mirRoleReceive hm 2 v ep tk rq).trans (congrArg State.done harr), ?_, ?_⟩
  · exact (mirRole_closed _).trans ((getF_setF_other _ _ _ _ _ _ _ _ (by decide)).trans h2)
  · have hkey : State.fkey pgMIR FLT_MASK.BITS 0 ≠ State.fkey pgMIR MIR_PVIN.VINTAGE 0 := by decide
    have hreg : (roleHeard s.heardFrom ⟨2 % 4, tk, rq, v, ep⟩).reg (State.fkey pgMIR FLT_MASK.BITS 0) = s.reg (State.fkey pgMIR FLT_MASK.BITS 0) :=
      (reg_setF _ pgMIR MIR_PVIN.VINTAGE v 0 _).trans (if_neg hkey)
    have hmem : (⟨pgMIR * 32 + 10, 31, 63, true, false⟩ : Firing) ∈ ((roleHeard s.heardFrom ⟨2 % 4, tk, rq, v, ep⟩).fire pgMIR 10).firing :=
      List.mem_append_right _ List.mem_cons_self
    have hmask' : (roleHeard s.heardFrom ⟨2 % 4, tk, rq, v, ep⟩).fltMasked (pgMIR * 32 + 10) = false := by
      have hsrc : (pgMIR * 32 + 10) / 32 = pgMIR := by decide
      refine (fltMasked_of_reg (s := s) ?_).trans hmask
      rw [hsrc]
      exact hreg
    have hfire : ∀ (u : State) x, (u.fire pgMIR 10).fltMasked x = u.fltMasked x := fun _ _ => rfl
    have hm' := (hfire (roleHeard s.heardFrom ⟨2 % 4, tk, rq, v, ep⟩) (pgMIR * 32 + 10)).trans hmask'
    have hne : pgMIR * 32 + 10 ≠ pgFLT * 32 + 2 := by decide
    have hset := fltSet_closed hmem hm' hne
    exact hset

theorem exec_mirArmreportReceive (hinv : s.Inv) (hm : s.mirHears m = true) (tick v : Nat) : ∃ t, exec (.mirArmreportReceive m tick v) s = .next t ∧
    t.mir.armReport = some (tick, v, s.fabric) ∧ t.mir.dihus = some s.ticks ∧ t.regs = s.regs ∧ t.packets = s.packets ∧ t.sched = s.sched := by
  refine ⟨{ s with mir := { s.heardFrom.mir with armReport := some (tick, v, s.fabric) } }, ?_, rfl, rfl, rfl, rfl, rfl⟩
  show execMirArmreportReceive m tick v s = _
  rw [execMirArmreportReceive, if_pos hm]
  exact done_eq hinv rfl rfl rfl rfl

theorem exec_mirYieldReceive (hm : s.mirHears m = true) (h3 : s.mirRole = 3) (hauto : s.flag pgMIR MIR_CFG.AUTO_TAKE = true) (cause : Nat) :
    exec (.mirYieldReceive m cause) s = (s.heardFrom.takeover 0 (cause % 256)).done := by
  show execMirYieldReceive m cause s = _
  simp only [execMirYieldReceive, hm, Bool.not_true, Bool.false_eq_true, if_false]
  rw [if_pos ⟨h3, hauto⟩]

theorem yield_takes (hm : s.mirHears m = true) (h3 : s.mirRole = 3) (hauto : s.flag pgMIR MIR_CFG.AUTO_TAKE = true)
    (hok : s.flag pgMIR MIR_STS.TAKE_OK = true) (cause : Nat) : ∃ t, exec (.mirYieldReceive m cause) s = .next t ∧ t.mirRole = 2 ∧
      t.mir.journal = [] ∧ t.flag pgMIR MIR_RACK_INFO.VALID = true ∧ t.getF pgMIR MIR_RACK_INFO.CAUSE = 0 ∧
      t.getF pgMIR MIR_RACK_INFO.YCAUSE = cause % 256 ∧ t.getF pgMIR MIR_RACK_T.TIME = s.fabric % 2 ^ 64 ∧ t.resv = [] := by
  have htake : s.heardFrom.takeover 0 (cause % 256) = s.heardFrom.rack 0 (cause % 256) := if_pos hok
  obtain ⟨h1, h2, hv, hc, hy, ht, hr⟩ := rack_closed s.heardFrom 0 (cause % 256) rfl
  exact ⟨_, (exec_mirYieldReceive hm h3 hauto cause).trans (congrArg State.done htake), h1, h2, hv, hc, hy.trans (Nat.mod_mod _ _), ht, hr⟩

theorem yield_waits (hm : s.mirHears m = true) (h3 : s.mirRole = 3) (hauto : s.flag pgMIR MIR_CFG.AUTO_TAKE = true)
    (hok : s.flag pgMIR MIR_STS.TAKE_OK = false) (cause : Nat) : ∃ t, exec (.mirYieldReceive m cause) s = .next t ∧ t.mirRole = 3 ∧
      t.mir.journal = s.mir.journal ∧ (s.fltMasked (pgMIR * 32 + 4) = false → t.fltSet (pgMIR * 32 + 4) = true) := by
  have htake : s.heardFrom.takeover 0 (cause % 256) = s.heardFrom.fire pgMIR 4 := if_neg (by rw [show s.heardFrom.flag pgMIR MIR_STS.TAKE_OK = false from hok]; decide)
  refine ⟨_, (exec_mirYieldReceive hm h3 hauto cause).trans (congrArg State.done htake), (mirRole_closed _).trans h3,
    mir_closed MirSt.journal (fun _ _ _ _ => rfl) _, fun hmask => ?_⟩
  exact fltSet_closed (f := ⟨pgMIR * 32 + 4, 31, 63, true, false⟩) (List.mem_append_right _ List.mem_cons_self) hmask (by decide)

theorem exec_mirResyncMsgReceive (hinv : s.Inv) (hm : s.mirHears m = true) (h3 : s.mirRole = 3) :
    (∃ t, exec (.mirResyncMsgReceive m true) s = .next t ∧ t.flag pgMIR MIR_STS.TAKE_OK = true ∧
      t.getF pgMIR MIR_STS.PSTATE = 2 ∧ t.getF pgMIR MIR_STS.RESYNC_PCT = 100 ∧ t.hbm = s.hbm) ∧
    ∃ t, exec (.mirResyncMsgReceive m false) s = .next t ∧ t.flag pgMIR MIR_STS.TAKE_OK = false ∧ t.getF pgMIR MIR_STS.PSTATE = 1 ∧
      t.mir.got = [] ∧ t.mir.commits = [] ∧ t.mir.expect = none ∧ t.mir.journal = s.mir.journal ∧ t.hbm = s.hbm := by
  have hgo : (!s.mirHears m || s.mirRole != 3) = false := by simp [hm, h3]
  have hset : ∀ (u : State) (b : Bool) (a c : Nat), a < 4 → c < 128 →
      (((u.setFlag pgMIR MIR_STS.TAKE_OK b).setF pgMIR MIR_STS.PSTATE a).setF pgMIR MIR_STS.RESYNC_PCT c).flag pgMIR MIR_STS.TAKE_OK = b ∧
      (((u.setFlag pgMIR MIR_STS.TAKE_OK b).setF pgMIR MIR_STS.PSTATE a).setF pgMIR MIR_STS.RESYNC_PCT c).getF pgMIR MIR_STS.PSTATE = a ∧
      (((u.setFlag pgMIR MIR_STS.TAKE_OK b).setF pgMIR MIR_STS.PSTATE a).setF pgMIR MIR_STS.RESYNC_PCT c).getF pgMIR MIR_STS.RESYNC_PCT = c :=
    fun u b a c ha hc => by
      refine ⟨?_, ?_, ?_⟩
      · refine (congrArg (· == 1) ((getF_setF_other _ _ _ _ _ _ _ _ (by decide)).trans ((getF_setF_other _ _ _ _ _ _ _ _ (by decide)).trans
          (getF_setF_self _ _ _ _ _ (by decide))))).trans ?_
        cases b <;> rfl
      · exact (getF_setF_other _ _ _ _ _ _ _ _ (by decide)).trans ((getF_setF_self _ _ _ _ _ (by decide)).trans (Nat.mod_eq_of_lt ha))
      · exact (getF_setF_self _ _ _ _ _ (by decide)).trans (Nat.mod_eq_of_lt hc)
  constructor
  · obtain ⟨h1, h2, h4⟩ := hset s.heardFrom true 2 100 (by decide) (by decide)
    refine ⟨_, ?_, h1, h2, h4, rfl⟩
    show execMirResyncMsgReceive m true s = _
    simp only [execMirResyncMsgReceive, hgo, Bool.false_eq_true, if_false, if_true]
    exact done_eq hinv rfl rfl rfl rfl
  · obtain ⟨h1, h2, -⟩ := hset s.heardFrom false 1 0 (by decide) (by decide)
    refine ⟨{ (((s.heardFrom.setFlag pgMIR MIR_STS.TAKE_OK false).setF pgMIR MIR_STS.PSTATE 1).setF pgMIR MIR_STS.RESYNC_PCT 0) with
      mir := { s.heardFrom.mir with resyncReq := false, got := [], commits := [], expect := none, ledger := none } }, ?_, h1, h2, rfl, rfl, rfl, rfl, rfl⟩
    show execMirResyncMsgReceive m false s = _
    simp only [execMirResyncMsgReceive, hgo, Bool.false_eq_true, if_false]
    exact done_eq hinv rfl rfl rfl rfl

/-- Settles O44: each message of the partner by its own lemma. -/
theorem partnerMessages : Obligations.PartnerMessages := by
  unfold Obligations.PartnerMessages
  exact fun s m cause v ep tick tk rq hinv hm => ⟨fun h1 => role_seeking hm h1 v ep tk rq,
    fun h2 hres hsw => role_active_resync hinv hm h2 hres hsw v ep tk, fun h2 hnone hmask => role_dual hm h2 hnone hmask v ep tk rq,
    exec_mirArmreportReceive hinv hm tick v, fun h3 hauto => ⟨fun hok => yield_takes hm h3 hauto hok cause, fun hok => yield_waits hm h3 hauto hok cause⟩,
    exec_mirResyncMsgReceive hinv hm⟩

end

end Sys2Proof.Pair
end

section
/-! ## The spine and spill bursts (O19) -/

namespace Sys2Proof.Spine

open Sys2Proof Sys2Proof.Machine Sys2Proof.Laws Sys2Proof.Support

variable {s : State}

/-- A command that leaves no firing ends with the records of its lost samples closed, and nothing else changes. -/
theorem done_quiet {t : State} (h : t.firing = []) : t.done = .next t.sweepTrace := by rw [State.done, settle_nil h]

/-! ### Spine slots -/

/-- The state in which a spine slot is used. -/
def slotUsed (s : State) (a b half : Nat) : State :=
  { s with sched := { s.sched with
      spineUsed := storeSet (fun _ => 0) s.sched.spineUsed (4 * a + b) (4 * s.fabric + bitSet (s.slotsUsed (4 * a + b)) half) } }

/-- The pointer of a path moves past a requester. -/
def pointerMoved (s : State) (a b : Nat) (p : Packet) : State :=
  { s with sched := { s.sched with spinePtr := storeSet (fun _ => 0) s.sched.spinePtr (4 * a + b) ((State.spineReq p + 1) % 17) } }

theorem spineSlot_owned {a b half : Nat} {x : Nat × Nat} {p : Packet}
    (hx : (s.pathSlots a b).find? (fun x => x.1 == 2 * s.cycPos s.fabric + half) = some x) (hown : s.ownsSlots x.2 = true)
    (hp : (s.onPath a b).find? (fun p => p.queue == x.2 && (State.nextCell p (2 * s.fabric + half)).isSome) = some p) (ecc : Ecc) :
    s.spineSlot a b half ecc = (slotUsed s a b half).enterPath p a b (2 * s.fabric + half) ecc := by
  unfold State.spineSlot
  simp only [hx, hown, if_true, hp]
  rfl

theorem spineSlot_best {a b half : Nat} {p : Packet} (hx : (s.pathSlots a b).find? (fun x => x.1 == 2 * s.cycPos s.fabric + half) = none)
    (hp : s.spineBest a b (2 * s.fabric + half) = some p) (ecc : Ecc) : s.spineSlot a b half ecc =
      ((pointerMoved (slotUsed s a b half) a b p).enterPath p a b (2 * s.fabric + half) ecc).count a 7 (State.spineReq p) 0 1 := by
  unfold State.spineSlot
  simp only [hx, hp]
  rfl

theorem exec_spineSlot {a b half : Nat} {ecc : Ecc} (ha : a < 4) (hb : b < 4) (hab : a ≠ b) (hh : half < 2) (hra : s.cellarRun a = true)
    (hrb : s.cellarRun b = true) (hfree : bitAt (s.slotsUsed (4 * a + b)) half = false) :
    exec (.spineSlot a b half ecc) s = (s.spineSlot a b half ecc).done := by
  have hgo : ¬ (4 ≤ a ∨ 4 ≤ b ∨ a = b ∨ 2 ≤ half ∨ s.cellarRun a = false ∨ s.cellarRun b = false ∨ bitAt (s.slotsUsed (4 * a + b)) half = true) := by
    simp [hab, hra, hrb, hfree]
    omega
  show execSpineSlot a b half ecc s = _
  rw [execSpineSlot, if_neg hgo]

/-- The packets after a cell of `p` has entered a path. -/
def cellEntered (s : State) (p : Packet) (h : Nat) : List Packet :=
  s.packets.map fun y => if y.id == p.id then { y with entered := y.entered ++ [h] } else y

theorem enterPath_frame (t : State) (p : Packet) (a b h : Nat) : (t.enterPath p a b h .ok).firing = t.firing ∧ (t.enterPath p a b h .ok).hbm = t.hbm ∧
    (t.enterPath p a b h .ok).sched = t.sched ∧ (t.enterPath p a b h .ok).packets = cellEntered t p h := by
  have hq := quiet_count (t.modPacket p.id fun x => { x with entered := x.entered ++ [h] }) a 6 b 0 1
  exact ⟨hq.eq State.firing, hq.eq State.hbm, hq.eq State.sched, hq.eq State.packets⟩

theorem spineSlot_of_owner (hinv : s.Inv) {a b half : Nat} (ha : a < 4) (hb : b < 4) (hab : a ≠ b) (hh : half < 2) (hra : s.cellarRun a = true)
    (hrb : s.cellarRun b = true) (hfree : bitAt (s.slotsUsed (4 * a + b)) half = false) {x : Nat × Nat} {p : Packet}
    (hx : (s.pathSlots a b).find? (fun x => x.1 == 2 * s.cycPos s.fabric + half) = some x) (hown : s.ownsSlots x.2 = true)
    (hp : (s.onPath a b).find? (fun p => p.queue == x.2 && (State.nextCell p (2 * s.fabric + half)).isSome) = some p) : ∃ t,
      exec (.spineSlot a b half .ok) s = .next t ∧ t.sched.spinePtr = s.sched.spinePtr ∧ t.hbm = s.hbm ∧ t.packets = cellEntered s p (2 * s.fabric + half) := by
  obtain ⟨hf, hhbm, hsched, hpk⟩ := enterPath_frame (slotUsed s a b half) p a b (2 * s.fabric + half)
  have hrun := (exec_spineSlot (ecc := .ok) ha hb hab hh hra hrb hfree).trans (congrArg State.done (spineSlot_owned hx hown hp .ok))
  have hptr : ((slotUsed s a b half).enterPath p a b (2 * s.fabric + half) .ok).sched.spinePtr = s.sched.spinePtr := by
    rw [hsched]
    rfl
  exact ⟨_, hrun.trans (done_quiet (hf.trans hinv.quiet)), hptr, hhbm, hpk⟩

theorem spineSlot_of_best (hinv : s.Inv) {a b half : Nat} (ha : a < 4) (hb : b < 4) (hab : a ≠ b) (hh : half < 2) (hra : s.cellarRun a = true)
    (hrb : s.cellarRun b = true) (hfree : bitAt (s.slotsUsed (4 * a + b)) half = false) {p : Packet}
    (hx : (s.pathSlots a b).find? (fun x => x.1 == 2 * s.cycPos s.fabric + half) = none) (hp : s.spineBest a b (2 * s.fabric + half) = some p) : ∃ t,
      exec (.spineSlot a b half .ok) s = .next t ∧ t.hbm = s.hbm ∧
      storeGet (fun _ => 0) t.sched.spinePtr (4 * a + b) = (State.spineReq p + 1) % 17 ∧ t.packets = cellEntered s p (2 * s.fabric + half) := by
  obtain ⟨hf, hhbm, hsched, hpk⟩ := enterPath_frame (pointerMoved (slotUsed s a b half) a b p) p a b (2 * s.fabric + half)
  have hq := quiet_count ((pointerMoved (slotUsed s a b half) a b p).enterPath p a b (2 * s.fabric + half) .ok) a 7 (State.spineReq p) 0 1
  have hrun := (exec_spineSlot (ecc := .ok) ha hb hab hh hra hrb hfree).trans (congrArg State.done (spineSlot_best hx hp .ok))
  refine ⟨_, hrun.trans (done_quiet ((hq.eq State.firing).trans (hf.trans hinv.quiet))), (hq.eq State.hbm).trans hhbm, ?_, (hq.eq State.packets).trans hpk⟩
  have hptr := (hq.eq fun u => u.sched.spinePtr).trans (congrArg SchedSt.spinePtr hsched)
  exact (congrArg (fun m => storeGet (fun _ => 0) m (4 * a + b)) hptr).trans (storeGet_set_self ..)

/-! ### Cells that arrive -/

/-- The packet whose next cell is due at the egress pipeline of a queue. -/
def dueAt (s : State) (q : Nat) : Option Packet := (s.inQueue q).find? (fun p => match p.entered[p.arrived]? with
  | some e => decide (State.reachHalf e ≤ 2 * s.fabric + 1)
  | none => false)

theorem cellArrive_frame {q : Nat} {p : Packet} (hp : dueAt s q = some p) : (s.cellArrive q .ok).firing = s.firing ∧
    (s.cellArrive q .ok).hbm = s.hbm ∧ (s.cellArrive q .ok).out = s.out ∧
    (s.cellArrive q .ok).packets = s.packets.map fun y => if y.id == p.id then { y with arrived := y.arrived + 1 } else y := by
  unfold State.cellArrive
  split
  next hnone => exact absurd (hnone.symm.trans hp) nofun
  next x hx =>
    obtain rfl : x = p := Option.some.inj (hx.symm.trans hp)
    cases hs : x.sample.isSome && x.arrived == 0 <;> exact ⟨rfl, rfl, rfl, rfl⟩

/-! ### Spill bursts -/

theorem spillStart_frame {q n : Nat} {back : Bool} {l : List (Nat × Nat)} (hl : s.spillBurst q n back = l) (hne : l ≠ []) (t : Nat) :
    ∃ e, Quiet { s with spillOps := s.spillOps ++ [⟨l, back, s.ticks + t⟩], edge := e } (s.spillStart q n t back) := by
  unfold State.spillStart
  rw [hl]
  cases l with
  | nil => exact absurd rfl hne
  | cons x r => exact ⟨_, quiet_count ..⟩

/-- The state in which the placed burst of this tick has begun. -/
def placing (s : State) : State := { s with edge := { s.edge with spillAt := some s.ticks } }

theorem spillParts_placing (back : Bool) (n : Nat) (l : List Packet) : (placing s).spillParts back n l = s.spillParts back n l := by
  induction l generalizing n with
  | nil => simp only [State.spillParts]
  | cons p r ih => simp only [State.spillParts, ih, show (placing s).spillable p back = s.spillable p back from rfl]

theorem spillBurst_placing (q n : Nat) (back : Bool) : (placing s).spillBurst q n back = s.spillBurst q n back := by
  rw [State.spillBurst, spillParts_placing]
  rfl

theorem exec_spillPlacedBurst (hinv : s.Inv) {i : Nat} {v : Vintage} {e : SpillSlot} {l : List (Nat × Nat)} (hv : s.sched.active = some v)
    (he : v.spill[i]? = some e) (hruns : s.spillRuns = true) (hpos : s.cycPos s.fabric = e.start) (hcel : s.cellarRun e.cellar = true)
    (hat : s.edge.spillAt ≠ some s.ticks) (hl : s.spillBurst (128 * e.cellar + e.queue % 128) e.cells (e.dir == 1) = l) (hne : l ≠ []) : ∃ t,
    exec (.spillPlacedBurst i) s = .next t ∧ t.spillOps = s.spillOps ++ [⟨l, e.dir == 1, s.ticks + (if e.dir = 1 then 144 else 96)⟩] ∧
    t.packets = s.packets ∧ t.hbm = s.hbm := by
  have hparts : (placing s).spillBurst (128 * e.cellar + e.queue % 128) e.cells (e.dir == 1) = l :=
    (spillBurst_placing ..).trans hl
  obtain ⟨x, hq⟩ := spillStart_frame hparts hne (if e.dir = 1 then 144 else 96)
  have hrun : exec (.spillPlacedBurst i) s = ((placing s).spillStart (128 * e.cellar + e.queue % 128) e.cells (if e.dir = 1 then 144 else 96) (e.dir == 1)).done := by
    have hat' : (s.edge.spillAt != some s.ticks) = true := bne_iff_ne.2 hat
    show execSpillPlacedBurst i s = _
    simp only [execSpillPlacedBurst, hv, he, hruns, hpos, beq_self_eq_true, hcel, hat', Bool.and_self, if_true]
    rfl
  exact ⟨_, hrun.trans (done_quiet ((hq.eq State.firing).trans hinv.quiet)), hq.eq State.spillOps, hq.eq State.packets, hq.eq State.hbm⟩

theorem exec_spillBeBurst (hinv : s.Inv) {q : Nat} {back : Bool} {l : List (Nat × Nat)} (hruns : s.spillRuns = true) (hfree : s.spillFree back = true)
    (hpick : s.spillPick back = some q) (hl : s.spillBurst q 8 back = l) (hne : l ≠ []) : ∃ t, exec (.spillBeBurst back) s = .next t ∧
    t.spillOps = s.spillOps ++ [⟨l, back, s.ticks⟩] ∧ t.spillPtr = (q / 128 + 1) % 4 ∧ t.packets = s.packets ∧ t.hbm = s.hbm := by
  obtain ⟨x, hq⟩ := spillStart_frame hl hne 0
  have hrun : exec (.spillBeBurst back) s = ({ s.spillStart q 8 0 back with spillPtr := (q / 128 + 1) % 4 } : State).done := by
    show execSpillBeBurst back s = _
    simp only [execSpillBeBurst, hruns, hfree, hpick, Bool.not_true, Bool.or_self, Bool.false_eq_true, if_false]
  exact ⟨_, hrun.trans (done_quiet ((hq.eq State.firing).trans hinv.quiet)), hq.eq State.spillOps, rfl, hq.eq State.packets, hq.eq State.hbm⟩

/-- What a finished burst makes of the packets, part by part. -/
def partMoved (o : SpillOp) (x : Nat × Nat) (p : Packet) : Packet :=
  if p.id == x.1 then (if o.back then { p with spilled := p.spilled - x.2 } else { p with spillBusy := p.spillBusy + x.2 }) else p

theorem each_partMoved (o : SpillOp) (l : List (Nat × Nat)) (t : State) : (t.each l fun u x => u.modPacket x.1 fun p =>
    if o.back then { p with spilled := p.spilled - x.2 } else { p with spillBusy := p.spillBusy + x.2 }) =
    { t with packets := l.foldl (fun ps x => ps.map (partMoved o x)) t.packets } := by
  induction l generalizing t with
  | nil => rfl
  | cons x r ih => exact ih _

theorem exec_spillBurstDone (hinv : s.Inv) {o : SpillOp} (ho : s.spillOps.find? (fun o => decide (o.endTick ≤ s.ticks)) = some o) : ∃ t,
    exec (.spillBurstDone []) s = .next t ∧ t.spillOps = s.spillOps.erase o ∧ t.hbm = s.hbm ∧ t.out = s.out ∧
    t.packets = o.parts.foldl (fun ps x => ps.map (partMoved o x)) s.packets := by
  have hdone : ({ s with spillOps := s.spillOps.erase o } : State).spillDone o [] =
      { s with spillOps := s.spillOps.erase o, packets := o.parts.foldl (fun ps x => ps.map (partMoved o x)) s.packets } := by
    unfold State.spillDone
    simp only [List.zip_nil_right]
    rw [each_partMoved]
    split <;> rfl
  have hrun : exec (.spillBurstDone []) s = (({ s with spillOps := s.spillOps.erase o } : State).spillDone o []).done := by
    show execSpillBurstDone [] s = _
    simp only [execSpillBurstDone, ho]
  rw [hdone] at hrun
  exact ⟨_, hrun.trans (done_quiet hinv.quiet), rfl, rfl, rfl, rfl⟩

/-- Settles O19: spine slots, cells that arrive and spill bursts, each by its own lemma. -/
theorem spineAndSpill : Obligations.SpineAndSpill := by
  unfold Obligations.SpineAndSpill
  refine ⟨fun s a b half q p hinv => ⟨fun ha hb hab hh hra hrb hfree => ⟨fun x hx hown hp => spineSlot_of_owner hinv ha hb hab hh hra hrb hfree hx hown hp,
    fun hx hp => spineSlot_of_best hinv ha hb hab hh hra hrb hfree hx hp⟩, fun hq hrun hp => ?_⟩, fun s i q back v e l o hinv =>
    ⟨fun hv he hruns hpos hcel hat hl hne => exec_spillPlacedBurst hinv hv he hruns hpos hcel hat hl hne,
      fun hruns hfree hpick hl hne => exec_spillBeBurst hinv hruns hfree hpick hl hne, exec_spillBurstDone hinv⟩⟩
  obtain ⟨hf, hhbm, hout, hpk⟩ := cellArrive_frame hp
  have hexec : exec (.cellEgressArrive q .ok) s = (s.cellArrive q .ok).done := by
    have hgo : ¬ (512 ≤ q ∨ s.cellarRun (q / 128) = false) := by simp [hrun, hq]
    show execCellEgressArrive q .ok s = _
    rw [execCellEgressArrive, if_neg hgo]
  exact ⟨_, hexec.trans (done_quiet (hf.trans hinv.quiet)), hhbm, hout, hpk⟩

end Sys2Proof.Spine
end

section
/-! ## Bridge registers, windows, access slots and the endpoint table (O16) -/

namespace Sys2Proof.Tables

open Sys2Proof Sys2Proof.Machine Sys2Proof.Laws Sys2Proof.Support

variable {s : State}

/-! ### Held registers -/

/-- What is held, or the register itself, is a read of the store of held registers that defaults to the registers. -/
theorem heldRead_eq (s : State) (k : Nat) : s.heldRead k = storeGet s.reg s.heldRegs k := by
  have hfind (m : Store Dword) : (match m.find? (·.1 == k) with
      | some (_, v) => v
      | none => s.reg k) = storeGet s.reg m k := by
    induction m with
    | nil => rfl
    | cons e r ih =>
      by_cases h : e.1 = k
      · simp [List.find?, storeGet, h]
      · rw [storeGet, if_neg h, ← ih, List.find?, beq_false_of_ne h]
  exact hfind s.heldRegs

theorem storeGet_default {d d' : Nat → Dword} {k : Nat} (h : d k = d' k) (m : Store Dword) : storeGet d m k = storeGet d' m k := by
  induction m with
  | nil => exact h
  | cons e r ih => rw [storeGet, storeGet, ih]

theorem applyHeld_eq (s : State) (k : Nat) : s.applyHeld k = s ∧ s.heldRead k = s.reg k ∨
    s.applyHeld k = { s.setReg k (s.heldRead k) with heldRegs := storeErase s.heldRegs k } := by
  unfold State.applyHeld State.heldRead
  split
  · exact .inr (by simp only [*])
  · exact .inl ⟨rfl, by simp only [*]⟩

/-- What a change of registers leaves as it was. -/
theorem applyHeld_keeps (s : State) (k : Nat) : { s.applyHeld k with regs := s.regs, heldRegs := s.heldRegs } = s := by
  rcases applyHeld_eq s k with ⟨h, -⟩ | h <;> rw [h]
  rfl

theorem reg_applyHeld (s : State) (k j : Nat) : (s.applyHeld k).reg j = if j = k then s.heldRead k else s.reg j := by
  rcases applyHeld_eq s k with ⟨h, hk⟩ | h <;> rw [h]
  · split
    · next e => rw [e, hk]
    · rfl
  · exact reg_setReg ..

theorem heldRead_applyHeld (s : State) (k j : Nat) : (s.applyHeld k).heldRead j = s.heldRead j := by
  rcases applyHeld_eq s k with ⟨h, -⟩ | h
  · rw [h]
  · rw [heldRead_eq (s.applyHeld k), h]
    by_cases hj : j = k
    · rw [hj]
      exact (storeGet_erase_self ..).trans ((reg_setReg ..).trans (if_pos rfl))
    · refine (storeGet_erase_other _ _ hj).trans ?_
      rw [heldRead_eq s j]
      exact storeGet_default (d := (s.setReg k (s.heldRead k)).reg) ((reg_setReg ..).trans (if_neg hj)) _

/-- A write of a held register, in a page that is not sealed. -/
theorem heldWrite_eq {k : Nat} {r : RegDef × Nat} (hr : regAt (k / 4096) (k % 4096) = some r) (hs : s.pageSealed (k / 4096) = false) (v : Dword) :
    s.heldWrite k v = { s with heldRegs := storeInsert s.heldRegs k (regAfter r.1.flds false (s.heldRead k) v) } := by
  simp only [State.heldWrite, hr, State.sealedWrite, hs, Bool.false_eq_true, if_false]

theorem heldRead_insert (s : State) (k : Nat) (x : Dword) : State.heldRead { s with heldRegs := storeInsert s.heldRegs k x } k = x := by
  rw [heldRead_eq]
  exact storeGet_insert_self ..

/-- What a write that is held changes. -/
theorem exec_heldWrite {who : Requester} {page i : Nat} {f : FRef} {r : RegDef × Nat} (hinv : s.Inv) (v : Dword)
    (ho : f.off + f.stride * i < 4096) (hr : regAt page (f.off + f.stride * i) = some r) (hs : s.pageSealed page = false)
    (hg : s.grants who page f i 8 = true) : ∃ t,
    (s.withAccess who (State.offOf page f i) 8 true fun u => u.heldWrite (State.fkey page f i) v).done = .next t ∧
    { t with heldRegs := s.heldRegs, latches := s.latches } = s ∧
    t.heldRead (State.fkey page f i) = regAfter r.1.flds false (s.heldRead (State.fkey page f i)) v := by
  obtain ⟨hp, hm⟩ := fkey_page page f i ho
  have hw (u : State) (hu : u.pageSealed page = false) := heldWrite_eq (s := u) (k := State.fkey page f i) (r := r) (by rw [hp, hm]; exact hr) (by rw [hp]; exact hu) v
  obtain ⟨l, hl⟩ : ∃ l, s.touchAt who (State.offOf page f i) = { s with latches := l } := by
    unfold State.touchAt
    split
    · exact ⟨_, rfl⟩
    · exact ⟨s.latches, rfl⟩
  rw [grants_iff _ hg, hl, hw { s with latches := l } hs]
  refine ⟨_, done_eq hinv rfl rfl rfl rfl, rfl, ?_⟩
  exact heldRead_insert { s with latches := l } _ _

/-- What is held for three registers takes effect with a write of a fourth. -/
def tookEffect (t : State) (k1 k2 k3 k : Nat) (v : Dword) : State := (((t.applyHeld k1).applyHeld k2).applyHeld k3).setReg k v

theorem tookEffect_keeps (t : State) (k1 k2 k3 k : Nat) (v : Dword) : { tookEffect t k1 k2 k3 k v with regs := t.regs, heldRegs := t.heldRegs } = t := by
  have h1 := applyHeld_keeps t k1
  have h2 := applyHeld_keeps (t.applyHeld k1) k2
  have h3 := applyHeld_keeps ((t.applyHeld k1).applyHeld k2) k3
  exact (congrArg (fun u : State => { u with regs := t.regs, heldRegs := t.heldRegs }) h3).trans
    ((congrArg (fun u : State => { u with regs := t.regs, heldRegs := t.heldRegs }) h2).trans h1)

theorem reg_tookEffect (t : State) {k1 k2 k3 k j : Nat} (v : Dword) (hj : j = k1 ∨ j = k2 ∨ j = k3) (hk : j ≠ k) :
    (tookEffect t k1 k2 k3 k v).reg j = t.heldRead j := by
  rw [tookEffect, reg_setReg, if_neg hk, reg_applyHeld, reg_applyHeld, reg_applyHeld, heldRead_applyHeld, heldRead_applyHeld, heldRead_applyHeld]
  rcases hj with rfl | rfl | rfl <;> simp only [if_true] <;> split <;> simp_all

theorem heldRead_tookEffect (t : State) {k1 k2 k3 k j : Nat} (v : Dword) (hk : j ≠ k) : (tookEffect t k1 k2 k3 k v).heldRead j = t.heldRead j := by
  rw [tookEffect, heldRead_eq]
  refine (storeGet_default (d' := (((t.applyHeld k1).applyHeld k2).applyHeld k3).reg) ((reg_setReg ..).trans (if_neg hk)) _).trans ?_
  exact (heldRead_eq _ j).symm.trans (by rw [heldRead_applyHeld, heldRead_applyHeld, heldRead_applyHeld])

theorem reg_tookEffect_self (t : State) (k1 k2 k3 k : Nat) (v : Dword) : (tookEffect t k1 k2 k3 k v).reg k = v :=
  (reg_setReg ..).trans (if_pos rfl)

/-! ### Windows -/

/-- The registers of a window. -/
def winBase : RegDef := ⟨0x80, 24, 128, true, 0x0, [fd 63 12 .rws]⟩
def winRouteDef : RegDef := ⟨0x90, 24, 128, false, 0x0, [fd 31 28 .rws, fd 24 20 .rws, fd 19 0 .rws]⟩

theorem pageKind_win : ∀ n < 63, pageKind (0x040 + n) = some .win := by decide

theorem regAt_win {w : Nat} (hw : w < 8064) : regAt (pgWIN w) (0x80 + 24 * (w % 128)) = some (winBase, w % 128) ∧
    regAt (pgWIN w) (0x90 + 24 * (w % 128)) = some (winRouteDef, w % 128) := by
  have hfind : ∀ i < 128, findReg (allRegs .win) (0x80 + 24 * i) = some (winBase, i) ∧ findReg (allRegs .win) (0x90 + 24 * i) = some (winRouteDef, i) := by
    decide +kernel
  simp only [regAt, pgWIN, pageKind_win (w / 128) (by omega)]
  exact hfind _ (Nat.mod_lt _ (by decide))

theorem pfDiscard_keeps (t : State) (f : PfBlock → Bool) : { t.pfDiscard f with regs := t.regs, pf := t.pf } = t := rfl

theorem reg_pfDiscard (t : State) (f : PfBlock → Bool) {k : Nat} (hk : k / 4096 ≠ pgFWD) : (t.pfDiscard f).reg k = t.reg k :=
  (VintageSwap.reg_setF_page _ pgFWD FWD_PF_CNT.DISCARDS _ 0 k (by decide) hk)

/-- The prefetch blocks that a discard names and that stay are invalid. -/
theorem pf_pfDiscard {t : State} {f : PfBlock → Bool} {b : PfBlock} (hb : b ∈ (t.pfDiscard f).pf) (h : f b = true) : b.valid = false := by
  obtain ⟨x, -, hx⟩ := List.mem_filterMap.1 hb
  by_cases hfx : f x = true
  · simp only [hfx, if_true] at hx
    split at hx
    · cases hx
    · exact Option.some.inj hx ▸ rfl
  · simp only [hfx] at hx
    exact absurd (Option.some.inj hx ▸ h) hfx

theorem winTaint_keeps (t : State) (w : Nat) : { t.winTaint w with free := t.free, packets := t.packets, pf := t.pf } = t := rfl

theorem mem_packets_winTaint {t : State} {w : Nat} {p : Packet} (hp : p ∈ t.packets) (h : p.attr.win ≠ some w) : p ∈ (t.winTaint w).packets :=
  List.mem_map.2 ⟨p, hp, if_neg (by simp [h])⟩

/-- The state in which a window's held registers have taken effect. -/
def winEffect (s : State) (w : Nat) (r : Word) : State :=
  tookEffect (s.onlyIf (s.winLosesRule w) fun x => x.winTaint w) (State.fkey (pgWIN w) WIN_BASE.ADDR (w % 128)) (State.fkey (pgWIN w) WIN_LIMIT.ADDR (w % 128))
    (State.fkey (pgWIN w) WIN_ATTR.PFSZ (w % 128)) (State.fkey (pgWIN w) WIN_ROUTE.KIND (w % 128)) (BitVec.ofNat 64 (r.toNat &&& 0xF1FFFFFF))

theorem winRoute_eq {w : Nat} (hw : w < 8064) (hs : s.pageSealed (pgWIN w) = false) (r : Word) :
    s.winRoute w r = (winEffect s w r).pfDiscard fun b => b.win == w := by
  simp only [State.winRoute, show ¬ 8064 ≤ w by omega, if_false, State.sealedWrite, hs, Bool.false_eq_true]
  rfl

theorem exec_winRouteWrite {who : Requester} {w : Nat} (hw : w < 8064) (hs : s.pageSealed (pgWIN w) = false)
    (hg : s.grants who (pgWIN w) WIN_ROUTE.KIND (w % 128) = true) (hu : s.winUndefined w = none) (r : Word) :
    exec (.winRouteWrite who w r) s = ((winEffect s w r).pfDiscard fun b => b.win == w).done := by
  have hkey : s.latchKey (State.offOf (pgWIN w) WIN_ROUTE.KIND (w % 128)) = none :=
    latchKey_narrow (by simp only [WIN_ROUTE.KIND]; omega) (regAt_win hw).2 rfl (show (0x90 : Nat) ≠ 0x100 by decide)
  show execWinRouteWrite who w r s = _
  simp only [execWinRouteWrite, hu]
  rw [withAccess_narrow _ hg hkey, winRoute_eq hw hs]

/-- The state before what is held takes effect: requests of the window are lost where a field that they carry changes. -/
def winLost (s : State) (w : Nat) : State := s.onlyIf (s.winLosesRule w) fun x => x.winTaint w

theorem winLost_keeps (s : State) (w : Nat) : { winLost s w with free := s.free, packets := s.packets, pf := s.pf } = s := by
  unfold winLost
  cases s.winLosesRule w <;> rfl

theorem packets_winLost_of_false {w : Nat} (h : s.winLosesRule w = false) : (winLost s w).packets = s.packets := by
  rw [winLost, h]
  rfl

theorem mem_packets_winLost {w : Nat} {p : Packet} (hp : p ∈ s.packets) (h : p.attr.win ≠ some w) : p ∈ (winLost s w).packets := by
  unfold winLost
  cases s.winLosesRule w
  · exact hp
  · exact mem_packets_winTaint hp h

theorem winEffect_eq (w : Nat) (r : Word) : winEffect s w r = tookEffect (winLost s w) (State.fkey (pgWIN w) WIN_BASE.ADDR (w % 128))
    (State.fkey (pgWIN w) WIN_LIMIT.ADDR (w % 128)) (State.fkey (pgWIN w) WIN_ATTR.PFSZ (w % 128))
    (State.fkey (pgWIN w) WIN_ROUTE.KIND (w % 128)) (BitVec.ofNat 64 (r.toNat &&& 0xF1FFFFFF)) := rfl

theorem winEffect_frame (w : Nat) (r : Word) : (winEffect s w r).firing = s.firing ∧ (winEffect s w r).hbm = s.hbm ∧
    (winEffect s w r).trk = s.trk ∧ (winEffect s w r).packets = (winLost s w).packets := by
  rw [winEffect_eq]
  generalize State.fkey (pgWIN w) WIN_BASE.ADDR (w % 128) = k1, State.fkey (pgWIN w) WIN_LIMIT.ADDR (w % 128) = k2,
    State.fkey (pgWIN w) WIN_ATTR.PFSZ (w % 128) = k3, State.fkey (pgWIN w) WIN_ROUTE.KIND (w % 128) = k
  generalize (BitVec.ofNat 64 (r.toNat &&& 0xF1FFFFFF) : Dword) = v
  have hkeep := tookEffect_keeps (winLost s w) k1 k2 k3 k v
  have hsame := winLost_keeps s w
  exact ⟨(congrArg State.firing hkeep :).trans (congrArg State.firing hsame :), (congrArg State.hbm hkeep :).trans (congrArg State.hbm hsame :),
    (congrArg State.trk hkeep :).trans (congrArg State.trk hsame :), (congrArg State.packets hkeep :)⟩

theorem heldRead_winLost (w j : Nat) : (winLost s w).heldRead j = s.heldRead j := by
  unfold winLost
  cases s.winLosesRule w <;> rfl

theorem fkey_win {w : Nat} (hw : w < 8064) {f : FRef} (hf : f ∈ [WIN_BASE.ADDR, WIN_LIMIT.ADDR, WIN_ATTR.PFSZ, WIN_ROUTE.KIND]) :
    State.fkey (pgWIN w) f (w % 128) / 4096 ≠ pgFWD := by
  have ho : f.off + f.stride * (w % 128) < 4096 := by fin_cases hf <;> simp only [WIN_BASE.ADDR, WIN_LIMIT.ADDR, WIN_ATTR.PFSZ, WIN_ROUTE.KIND] <;> omega
  rw [(fkey_page (pgWIN w) f (w % 128) ho).1]
  simp only [pgWIN, pgFWD]
  omega

theorem fkey_win_ne_route (w : Nat) {f : FRef} (hf : f ∈ [WIN_BASE.ADDR, WIN_LIMIT.ADDR, WIN_ATTR.PFSZ]) :
    State.fkey (pgWIN w) f (w % 128) ≠ State.fkey (pgWIN w) WIN_ROUTE.KIND (w % 128) := by
  fin_cases hf <;> simp [State.fkey, WIN_BASE.ADDR, WIN_LIMIT.ADDR, WIN_ATTR.PFSZ, WIN_ROUTE.KIND]

theorem reg_winEffect (w : Nat) (r : Word) {f : FRef} (hf : f ∈ [WIN_BASE.ADDR, WIN_LIMIT.ADDR, WIN_ATTR.PFSZ]) :
    (winEffect s w r).reg (State.fkey (pgWIN w) f (w % 128)) = s.heldRead (State.fkey (pgWIN w) f (w % 128)) ∧
    (winEffect s w r).heldRead (State.fkey (pgWIN w) f (w % 128)) = s.heldRead (State.fkey (pgWIN w) f (w % 128)) := by
  have hne := fkey_win_ne_route w hf
  rw [winEffect_eq, heldRead_tookEffect _ _ hne, heldRead_winLost, reg_tookEffect _ _ (by fin_cases hf <;> simp) hne, heldRead_winLost]
  exact ⟨rfl, rfl⟩

theorem reg_sweepTrace (t : State) (k : Nat) : t.sweepTrace.reg k = t.reg k := rfl

theorem heldRead_sweepTrace (t : State) (k : Nat) : t.sweepTrace.heldRead k = t.heldRead k := rfl

theorem heldRead_pfDiscard (t : State) (f : PfBlock → Bool) {k : Nat} (hk : k / 4096 ≠ pgFWD) : (t.pfDiscard f).heldRead k = t.heldRead k := by
  rw [heldRead_eq, heldRead_eq t]
  exact storeGet_default (reg_pfDiscard t f hk) _

theorem winRouteWrite_takesEffect {who : Requester} {w : Nat} (hinv : s.Inv) (hw : w < 8064) (hs : s.pageSealed (pgWIN w) = false)
    (hg : s.grants who (pgWIN w) WIN_ROUTE.KIND (w % 128) = true) (hu : s.winUndefined w = none) (r : Word) : ∃ t,
    exec (.winRouteWrite who w r) s = .next t ∧
    (∀ f ∈ [WIN_BASE.ADDR, WIN_LIMIT.ADDR, WIN_ATTR.PFSZ],
      t.reg (State.fkey (pgWIN w) f (w % 128)) = s.heldRead (State.fkey (pgWIN w) f (w % 128)) ∧
      t.heldRead (State.fkey (pgWIN w) f (w % 128)) = s.heldRead (State.fkey (pgWIN w) f (w % 128))) ∧
    t.reg (State.fkey (pgWIN w) WIN_ROUTE.KIND (w % 128)) = BitVec.ofNat 64 (r.toNat &&& 0xF1FFFFFF) ∧
    (∀ b ∈ t.pf, b.win = w → b.valid = false) ∧ (s.winLosesRule w = false → t.packets = s.packets) ∧
    (∀ p ∈ s.packets, p.attr.win ≠ some w → p ∈ t.packets) ∧ t.hbm = s.hbm ∧ t.trk = s.trk := by
  have hrun := exec_winRouteWrite hw hs hg hu r
  obtain ⟨hfiring, hhbm, htrk, hpk⟩ := winEffect_frame (s := s) w r
  have hreg (f : FRef) (hf : f ∈ [WIN_BASE.ADDR, WIN_LIMIT.ADDR, WIN_ATTR.PFSZ]) := reg_winEffect (s := s) w r hf
  have hkind : (winEffect s w r).reg (State.fkey (pgWIN w) WIN_ROUTE.KIND (w % 128)) = BitVec.ofNat 64 (r.toNat &&& 0xF1FFFFFF) := by
    rw [winEffect_eq, reg_tookEffect_self]
  generalize winEffect s w r = a at hrun hfiring hhbm htrk hpk hreg hkind
  refine ⟨_, hrun.trans (Spine.done_quiet (hfiring.trans hinv.quiet)), fun f hf => ?_, ?_, fun b hb hbw => ?_, fun hl => ?_, fun p hp hpw => ?_, hhbm, htrk⟩
  · have hk := fkey_win hw (List.mem_append_left [WIN_ROUTE.KIND] hf)
    rw [reg_sweepTrace, heldRead_sweepTrace, reg_pfDiscard a _ hk, heldRead_pfDiscard a _ hk]
    exact hreg f hf
  · rw [reg_sweepTrace, reg_pfDiscard a _ (fkey_win hw (by simp))]
    exact hkind
  · exact pf_pfDiscard (t := a) (f := fun b => b.win == w) hb (by simp [hbw])
  · exact hpk.trans (packets_winLost_of_false hl)
  · exact hpk.symm ▸ mem_packets_winLost hp hpw

/-! ### Access slots -/

/-- The registers of an access slot. -/
def accBase : RegDef := ⟨0x80, 24, 96, true, 0x0, [fd 63 6 .rws]⟩
def accRdDef : RegDef := ⟨0x90, 24, 96, false, 0x0, [fd 31 31 .rws, fd 23 0 .rws]⟩

theorem regAt_acc : ∀ n < 96, regAt pgACC (0x80 + 24 * n) = some (accBase, n) ∧ regAt pgACC (0x90 + 24 * n) = some (accRdDef, n) := by decide +kernel

theorem exec_accRdWrite {who : Requester} {n : Nat} (hn : n < 96) (hs : s.pageSealed pgACC = false) (hg : s.grants who pgACC ACC_RD.EN n = true) (r : Word) :
    exec (.accRdWrite who n r) s = (tookEffect s (State.fkey pgACC ACC_BASE.ADDR n) (State.fkey pgACC ACC_LIMIT.ADDR n)
      (State.fkey pgACC ACC_WR.PARTS n) (State.fkey pgACC ACC_RD.EN n) (BitVec.ofNat 64 (r.toNat &&& 0x80FFFFFF))).done := by
  have hkey : s.latchKey (State.offOf pgACC ACC_RD.EN n) = none :=
    latchKey_narrow (by simp only [ACC_RD.EN]; omega) (regAt_acc n hn).2 rfl (show (0x90 : Nat) ≠ 0x100 by decide)
  show execAccRdWrite who n r s = _
  rw [execAccRdWrite, withAccess_narrow _ hg hkey]
  simp only [State.accRd, show ¬ 96 ≤ n by omega, if_false, State.sealedWrite, hs, Bool.false_eq_true]
  rfl

theorem accRdWrite_takesEffect {who : Requester} {n : Nat} (hinv : s.Inv) (hn : n < 96) (hs : s.pageSealed pgACC = false)
    (hg : s.grants who pgACC ACC_RD.EN n = true) (r : Word) : ∃ t, exec (.accRdWrite who n r) s = .next t ∧
    (∀ f ∈ [ACC_BASE.ADDR, ACC_LIMIT.ADDR, ACC_WR.PARTS], t.reg (State.fkey pgACC f n) = s.heldRead (State.fkey pgACC f n)) ∧
    t.reg (State.fkey pgACC ACC_RD.EN n) = BitVec.ofNat 64 (r.toNat &&& 0x80FFFFFF) ∧ t.packets = s.packets ∧ t.hbm = s.hbm ∧ t.pf = s.pf := by
  have hne : ∀ f ∈ [ACC_BASE.ADDR, ACC_LIMIT.ADDR, ACC_WR.PARTS], State.fkey pgACC f n ≠ State.fkey pgACC ACC_RD.EN n := by
    intro f hf
    fin_cases hf <;> simp [State.fkey, ACC_BASE.ADDR, ACC_LIMIT.ADDR, ACC_WR.PARTS, ACC_RD.EN]
  have hin : ∀ f ∈ [ACC_BASE.ADDR, ACC_LIMIT.ADDR, ACC_WR.PARTS], State.fkey pgACC f n = State.fkey pgACC ACC_BASE.ADDR n ∨
      State.fkey pgACC f n = State.fkey pgACC ACC_LIMIT.ADDR n ∨ State.fkey pgACC f n = State.fkey pgACC ACC_WR.PARTS n := by
    intro f hf
    fin_cases hf <;> simp
  have hrun := exec_accRdWrite hn hs hg r
  generalize State.fkey pgACC ACC_BASE.ADDR n = k1, State.fkey pgACC ACC_LIMIT.ADDR n = k2, State.fkey pgACC ACC_WR.PARTS n = k3,
    State.fkey pgACC ACC_RD.EN n = k at hrun hne hin ⊢
  have hkeep := tookEffect_keeps s k1 k2 k3 k (BitVec.ofNat 64 (r.toNat &&& 0x80FFFFFF))
  have hreg (f : FRef) (hf : f ∈ [ACC_BASE.ADDR, ACC_LIMIT.ADDR, ACC_WR.PARTS]) :=
    reg_tookEffect s (BitVec.ofNat 64 (r.toNat &&& 0x80FFFFFF)) (hin f hf) (hne f hf)
  have hself := reg_tookEffect_self s k1 k2 k3 k (BitVec.ofNat 64 (r.toNat &&& 0x80FFFFFF))
  generalize tookEffect s k1 k2 k3 k _ = a at hrun hkeep hreg hself
  exact ⟨_, hrun.trans (Spine.done_quiet ((congrArg State.firing hkeep :).trans hinv.quiet)), hreg, hself, (congrArg State.packets hkeep :),
    (congrArg State.hbm hkeep :), (congrArg State.pf hkeep :)⟩

theorem exec_accHeldWrite_base {who : Requester} {n : Nat} (hinv : s.Inv) (hn : n < 96) (hs : s.pageSealed pgACC = false)
    (hg : s.grants who pgACC ACC_BASE.ADDR n 8 = true) (v : Dword) : ∃ t,
    exec (.accHeldWrite who n .base v) s = .next t ∧ { t with heldRegs := s.heldRegs, latches := s.latches } = s ∧
    t.heldRead (State.fkey pgACC ACC_BASE.ADDR n) = bitsPut (s.heldRead (State.fkey pgACC ACC_BASE.ADDR n)) 63 6 (bitsOf v 63 6) := by
  have hrun : exec (.accHeldWrite who n .base v) s =
      (s.withAccess who (State.offOf pgACC ACC_BASE.ADDR n) 8 true fun u => u.heldWrite (State.fkey pgACC ACC_BASE.ADDR n) v).done := by
    have hn' : ¬ 96 ≤ n := by omega
    show execAccHeldWrite who n .base v s = _
    simp only [execAccHeldWrite, State.accField, hn', if_false]
    rfl
  rw [hrun]
  exact exec_heldWrite hinv v (by simp only [ACC_BASE.ADDR]; omega) (regAt_acc n hn).1 hs hg

theorem exec_winFieldWrite_base {who : Requester} {w : Nat} (hinv : s.Inv) (hw : w < 8064) (hs : s.pageSealed (pgWIN w) = false)
    (hg : s.grants who (pgWIN w) WIN_BASE.ADDR (w % 128) 8 = true) (v : Dword) : ∃ t,
    exec (.winFieldWrite who w .base v) s = .next t ∧ { t with heldRegs := s.heldRegs, latches := s.latches } = s ∧
    t.heldRead (State.fkey (pgWIN w) WIN_BASE.ADDR (w % 128)) = bitsPut (s.heldRead (State.fkey (pgWIN w) WIN_BASE.ADDR (w % 128))) 63 12 (bitsOf v 63 12) := by
  have hrun : exec (.winFieldWrite who w .base v) s =
      (s.withAccess who (State.offOf (pgWIN w) WIN_BASE.ADDR (w % 128)) 8 true fun u => u.heldWrite (State.fkey (pgWIN w) WIN_BASE.ADDR (w % 128)) v).done := by
    have hw' : ¬ 8064 ≤ w := by omega
    have hoff (page i : Nat) : page * 4096 + 0x80 + 24 * i + heldOff .base = State.offOf page WIN_BASE.ADDR i := by
      simp only [heldOff, State.offOf, State.fkey, WIN_BASE.ADDR]
      omega
    show execWinFieldWrite who w .base v s = _
    simp only [execWinFieldWrite, State.winField, hw', if_false, hoff]
    rfl
  rw [hrun]
  exact exec_heldWrite hinv v (by simp only [WIN_BASE.ADDR]; omega) (regAt_win hw).1 hs hg

/-! ### The endpoint table -/

/-- The state in which an entry of the endpoint table is written. -/
def eptSet (s : State) (v : Word) : State :=
  { s with ept := storeSet (fun _ => (0 : Word)) s.ept (s.getF pgFWD FWD_EPT_IDX.EP) (v &&& 0xF01F003F) }

theorem eptAccess_eq (hs : s.pageSealed pgFWD = false) (v : Word) : s.eptAccess (some v) =
    (eptSet s v).onlyIf (s.flag pgFWD FWD_EPT_IDX.AUTOINC) fun t => t.setF pgFWD FWD_EPT_IDX.EP ((s.getF pgFWD FWD_EPT_IDX.EP + 1) % 4096) := by
  simp only [State.eptAccess, State.sealedWrite, hs, Bool.false_eq_true, if_false]
  rfl

theorem fwdEptDataAccess_writes {who : Requester} (hinv : s.Inv) (hg : s.grants who pgFWD FWD_EPT_DATA.KIND = true) (hs : s.pageSealed pgFWD = false)
    (v : Word) : ∃ t, exec (.fwdEptDataAccess who (some v)) s = .next t ∧
    (∀ e, storeGet (fun _ => (0 : Word)) t.ept e = if e = s.getF pgFWD FWD_EPT_IDX.EP then v &&& 0xF01F003F else storeGet (fun _ => 0) s.ept e) ∧
    t.getF pgFWD FWD_EPT_IDX.EP = (if s.flag pgFWD FWD_EPT_IDX.AUTOINC then (s.getF pgFWD FWD_EPT_IDX.EP + 1) % 4096 else s.getF pgFWD FWD_EPT_IDX.EP) ∧
    t.packets = s.packets ∧ t.hbm = s.hbm ∧ t.out = s.out := by
  have hreg : regAt pgFWD 0xA4 = some (⟨0xA4, 0, 1, false, 0x0, [fd 31 28 .rws, fd 20 16 .rws, fd 5 0 .rws]⟩, 0) := by decide +kernel
  have hkey : s.latchKey (State.offOf pgFWD FWD_EPT_DATA.KIND) = none := latchKey_narrow (by decide) hreg rfl (show (0xA4 : Nat) ≠ 0x100 by decide)
  have hrun : exec (.fwdEptDataAccess who (some v)) s = (s.eptAccess (some v)).done := congrArg State.done (withAccess_narrow _ hg hkey)
  have hept (e : Nat) : storeGet (fun _ => (0 : Word)) (eptSet s v).ept e = _ :=
    storeGet_set (fun _ => (0 : Word)) s.ept (s.getF pgFWD FWD_EPT_IDX.EP) e (v &&& 0xF01F003F)
  rw [hrun, eptAccess_eq hs]
  cases s.flag pgFWD FWD_EPT_IDX.AUTOINC
  · exact ⟨_, Spine.done_quiet (t := eptSet s v) hinv.quiet, hept, rfl, rfl, rfl, rfl⟩
  · refine ⟨_, Spine.done_quiet (t := (eptSet s v).setF pgFWD FWD_EPT_IDX.EP ((s.getF pgFWD FWD_EPT_IDX.EP + 1) % 4096)) hinv.quiet, hept, ?_, rfl, rfl, rfl⟩
    refine (getF_setF_self (s := eptSet s v) _ _ _ _ (by decide)).trans (Nat.mod_eq_of_lt ?_)
    exact (Nat.mod_lt _ (by decide)).trans_le (by decide)

/-! ### Bridge registers -/

theorem exec_bridgeConfigWrite {p v : Nat} {reg : CfgReg} (hp : (s.isUp p || s.isDown p) = true) (hs : s.notServed (s.portPart p) = false) :
    exec (.bridgeConfigWrite p reg v) s = (s.cfgWrite p reg v).done := by
  show execBridgeConfigWrite p reg v s = _
  rw [execBridgeConfigWrite, hp, hs]
  rfl

theorem bridgeConfigWrite_of_notServed {p v : Nat} {reg : CfgReg} (hinv : s.Inv) (hs : s.notServed (s.portPart p) = true) :
    exec (.bridgeConfigWrite p reg v) s = .next s := by
  show execBridgeConfigWrite p reg v s = _
  rw [execBridgeConfigWrite, hs, Bool.or_true, if_pos rfl]
  exact done_eq hinv rfl rfl rfl rfl

/-- A write that changes a port alone. -/
theorem bridgeConfigWrite_port {p v : Nat} {reg : CfgReg} {f : PortSt → PortSt} (hinv : s.Inv) (hp : (s.isUp p || s.isDown p) = true)
    (hs : s.notServed (s.portPart p) = false) (hw : s.cfgWrite p reg v = s.modPort p f) : exec (.bridgeConfigWrite p reg v) s = .next (s.modPort p f) :=
  (exec_bridgeConfigWrite hp hs).trans (done_eq_of_eq hinv hw rfl rfl rfl rfl)

/-- A write that changes a partition alone. -/
theorem bridgeConfigWrite_part {p v : Nat} {reg : CfgReg} {f : PartSt → PartSt} (hinv : s.Inv) (hp : (s.isUp p || s.isDown p) = true)
    (hs : s.notServed (s.portPart p) = false) (hw : s.cfgWrite p reg v = s.modPart (s.portPart p) f) :
    exec (.bridgeConfigWrite p reg v) s = .next (s.modPart (s.portPart p) f) :=
  (exec_bridgeConfigWrite hp hs).trans (done_eq_of_eq hinv hw rfl rfl rfl rfl)

/-- Settles O16: a host's writes of bridge registers case by case; windows and access slots by what is held; the endpoint table. -/
theorem forwardingTables : Obligations.ForwardingTables := by
  unfold Obligations.ForwardingTables
  refine ⟨fun s p v reg hinv hp => ⟨bridgeConfigWrite_of_notServed hinv, fun hs => ?_⟩, fun s who w n v r hinv hw hn =>
    ⟨fun hseal hg => exec_winFieldWrite_base hinv hw hseal hg v, fun hseal hg hu => winRouteWrite_takesEffect hinv hw hseal hg hu r,
      fun hseal hg => exec_accHeldWrite_base hinv hn hseal hg v, fun hseal hg => accRdWrite_takesEffect hinv hn hseal hg r⟩,
    fun s who v hinv hg hseal => fwdEptDataAccess_writes hinv hg hseal v⟩
  have hport {r : CfgReg} {f : PortSt → PortSt} := bridgeConfigWrite_port (v := v) (reg := r) (f := f) hinv hp hs
  have hpart {r : CfgReg} {f : PartSt → PartSt} := bridgeConfigWrite_part (v := v) (reg := r) (f := f) hinv hp hs
  refine ⟨hport rfl, hport rfl, hport rfl, hport rfl, hport rfl, hport rfl, hport rfl, hport rfl, fun hd => ?_, fun hu => ?_⟩
  · have hdown {r : CfgReg} {f : PortSt → PortSt} (h : s.cfgWrite p r v = s.onlyIf (s.isDown p) fun t => t.modPort p f) :
        exec (.bridgeConfigWrite p r v) s = .next (s.modPort p f) := hport (h.trans (by rw [hd, onlyIf_true]))
    exact ⟨hdown rfl, hdown rfl, hdown rfl, hdown rfl⟩
  · have hup {r : CfgReg} {f : PortSt → PortSt} (h : s.cfgWrite p r v = s.onlyIf (s.isUp p) fun t => t.modPort p f) :
        exec (.bridgeConfigWrite p r v) s = .next (s.modPort p f) := hport (h.trans (by rw [hu, onlyIf_true]))
    exact ⟨hup rfl, hup rfl, hup rfl, hup rfl, hup rfl,
      hpart (if_pos hu), hpart (if_pos hu), hpart (if_pos hu), hpart (if_pos hu), hpart (if_pos hu)⟩

end Sys2Proof.Tables
end

section
/-! ## Slots: what their functions change (chapter 15) -/

namespace Sys2Proof.Slots

open Sys2Proof Sys2Proof.Machine Sys2Proof.Laws Sys2Proof.Support

variable {s t u : State} {i : Nat}

/-- Two fields of a slot's page share no bit. -/
def apart (f g : FRef) : Bool := f.off != g.off || decide (f.hi < g.lo) || decide (g.hi < f.lo)

/-- `t` is `s` but for the fields `fs` of slot `i`'s page, for slots and their records, and for sources that fire. -/
structure Changes (i : Nat) (fs : List FRef) (s t : State) : Prop where
  rest : { t with regs := s.regs, slots := s.slots, spc := s.spc, firing := s.firing } = s
  page : ∀ k, k / 4096 ≠ pgSLOT i ∨ k % 4096 < 0x80 → t.reg k = s.reg k
  keep : ∀ f : FRef, f.stride = 0 → fs.all (apart f) = true → t.getF (pgSLOT i) f = s.getF (pgSLOT i) f
  held : s.spcUp = true → t.spc.held = s.spc.held
  fired : ∀ x ∈ s.firing, x ∈ t.firing

/-- The part of a slot record that counting ON time leaves. -/
def uncounted (x : SlotSt) : SlotSt := { x with anon := ⟨0, 0, 0, 0⟩, onNs := 0, onFrom := none, since := 0, hourAt := 0 }

/-- A change that leaves a slot's record but for its counts of ON time. -/
structure Counts (i : Nat) (fs : List FRef) (s t : State) : Prop extends Changes i fs s t where
  own : uncounted (t.slot i) = uncounted (s.slot i)

theorem Changes.spcUp {fs : List FRef} (h : Changes i fs s t) : t.spcUp = s.spcUp := by
  have hk : State.fkey pgSPC SPC_STS.LINK_UP 0 / 4096 ≠ pgSLOT i := by
    rw [(fkey_page pgSPC SPC_STS.LINK_UP 0 (by decide)).1]
    simp only [pgSPC, pgSLOT]
    omega
  exact congrArg (· == 1) (getF_of_reg (h.page _ (.inl hk)))

theorem Changes.trans {fs gs : List FRef} (h : Changes i fs s t) (h' : Changes i gs t u) : Changes i (fs ++ gs) s u where
  rest := (congrArg (fun x : State => { x with regs := s.regs, slots := s.slots, spc := s.spc, firing := s.firing }) h'.rest).trans h.rest
  page k hk := (h'.page k hk).trans (h.page k hk)
  keep f hf hfs := by
    rw [List.all_append, Bool.and_eq_true] at hfs
    exact (h'.keep f hf hfs.2).trans (h.keep f hf hfs.1)
  held hs := (h'.held (h.spcUp.trans hs)).trans (h.held hs)
  fired x hx := h'.fired x (h.fired x hx)

theorem Changes.mono {fs gs : List FRef} (h : Changes i fs s t) (hsub : fs ⊆ gs) : Changes i gs s t :=
  { h with keep := fun f hf hfs => h.keep f hf (List.all_eq_true.2 fun g hg => List.all_eq_true.1 hfs g (hsub hg)) }

theorem Counts.trans {fs gs : List FRef} (h : Counts i fs s t) (h' : Counts i gs t u) : Counts i (fs ++ gs) s u :=
  { h.toChanges.trans h'.toChanges with own := h'.own.trans h.own }

theorem Counts.mono {fs gs : List FRef} (h : Counts i fs s t) (hsub : fs ⊆ gs) : Counts i gs s t :=
  { h.toChanges.mono hsub with own := h.own }

theorem Counts.refl (s : State) (i : Nat) (fs : List FRef) : Counts i fs s s := ⟨⟨rfl, fun _ _ => rfl, fun _ _ _ => rfl, fun _ => rfl, fun _ h => h⟩, rfl⟩

theorem Counts.onlyIf {fs : List FRef} {b : Bool} {f : State → State} (h : Counts i fs s (f s)) : Counts i fs s (s.onlyIf b f) := by
  cases b
  · exact .refl s i fs
  · exact h

/-- What a slot's record holds besides its counts. -/
theorem Counts.slot {β : Type} {fs : List FRef} (h : Counts i fs s t) (g : SlotSt → β) (hg : ∀ x, g (uncounted x) = g x) : g (t.slot i) = g (s.slot i) :=
  (hg _).symm.trans ((congrArg g h.own).trans (hg _))

/-! ### Single changes -/

theorem counts_setF (s : State) (i : Nat) {f : FRef} (hf : f.stride = 0 ∧ 0x80 ≤ f.off ∧ f.off < 4096) (v : Nat) : Counts i [f] s (s.setF (pgSLOT i) f v) where
  rest := rfl
  page k hk := by
    refine (reg_setF ..).trans (if_neg fun he => ?_)
    have hp := fkey_page (pgSLOT i) f 0 (by omega)
    rw [he, hp.1, hp.2] at hk
    exact hk.elim (fun h => h rfl) (by omega)
  keep g hg hgs := by
    simp only [List.all_cons, List.all_nil, Bool.and_true, apart, Bool.or_eq_true, bne_iff_ne, decide_eq_true_eq] at hgs
    refine getF_setF_other _ _ _ _ _ _ _ _ ?_
    rcases hgs with (h | h) | h
    · exact .inl (by simp only [State.fkey, hg, hf.1]; omega)
    · exact .inr (.inr h)
    · exact .inr (.inl h)
  held _ := rfl
  fired _ h := h
  own := rfl

theorem changes_modSlot (s : State) (i : Nat) (f : SlotSt → SlotSt) : Changes i [] s (s.modSlot i f) :=
  ⟨rfl, fun _ _ => rfl, fun _ _ _ => rfl, fun _ => rfl, fun _ h => h⟩

theorem counts_modSlot (s : State) {i : Nat} {f : SlotSt → SlotSt} (h : uncounted (f (s.slot i)) = uncounted (s.slot i)) : Counts i [] s (s.modSlot i f) :=
  { changes_modSlot s i f with own := (congrArg uncounted (slot_modSlot_self ..)).trans h }

theorem counts_fire (s : State) (i pg b k p : Nat) : Counts i [] s (s.fire pg b k p) :=
  ⟨⟨rfl, fun _ _ => rfl, fun _ _ _ => rfl, fun _ => rfl, fun _ h => List.mem_append_left _ h⟩, rfl⟩

theorem counts_spc (s : State) (i : Nat) {c : SpcSt} (h : s.spcUp = true → c.held = s.spc.held) : Counts i [] s { s with spc := c } :=
  ⟨⟨rfl, fun _ _ => rfl, fun _ _ _ => rfl, h, fun _ h => h⟩, rfl⟩

theorem counts_slotFire (s : State) (i b : Nat) : Counts i [] s (s.slotFire i b) := by
  unfold State.slotFire
  split
  · exact counts_fire ..
  · next h => exact counts_spc s i fun hs => absurd hs h

/-! ### Life counts -/

/-- The fields that show a slot's life. -/
def lifeFields : List FRef := [SPC_LIFE_STS.FLAGS, SPC_MODINS.COUNT, SPC_MODHRS.HOURS]

theorem counts_modModule (s : State) (i : Nat) (f : ModEntry → ModEntry) : Counts i [] s (s.modModule i f) := by
  unfold State.modModule
  split
  · exact counts_spc s i fun _ => rfl
  · exact counts_modSlot s rfl

theorem counts_lifeCheck (s : State) (i : Nat) : Counts i lifeFields s (s.lifeCheck i) := by
  unfold State.lifeCheck
  extract_lets pg old mate here was now s1 fresh s2 s3 s4
  have h1 : Counts i [] s s1 := .onlyIf (counts_modModule ..)
  have h2 : Counts i [] s1 s2 := .onlyIf (counts_slotFire ..)
  have h3 : Counts i [] s2 s3 := .onlyIf (counts_slotFire ..)
  have h4 : Counts i [SPC_LIFE_STS.FLAGS] s3 s4 := counts_setF s3 i (by decide) _
  exact (((h1.trans h2).trans h3).trans h4).trans ((counts_setF s4 i (by decide) _).trans (counts_setF _ i (by decide) _))

theorem counts_lifeWrite (s : State) (i : Nat) (ok : Bool) : Counts i [] s (s.lifeWrite i ok) := by
  unfold State.lifeWrite
  split
  · exact counts_fire ..
  · exact counts_spc s i fun _ => rfl

theorem counts_onCount (s : State) (i : Nat) : Counts i lifeFields s (s.onCount i) := by
  unfold State.onCount
  split
  · exact .refl ..
  · extract_lets n s1
    have h1 : Counts i [] s s1 := counts_modSlot s rfl
    split
    · exact h1.mono nofun
    · exact h1.trans ((counts_modModule ..).trans (counts_lifeCheck ..))

theorem counts_onEnd (s : State) (i : Nat) (ok : Bool) : Counts i lifeFields s (s.onEnd i ok) := by
  unfold State.onEnd
  split
  · exact .refl ..
  · exact ((counts_onCount s i).trans ((counts_modSlot _ rfl).trans (counts_lifeWrite ..)))

/-- The state of a slot, its FETs' record and its life are all that a transition changes. -/
theorem counts_slotGo (s : State) (i st : Nat) (ok : Bool) : Counts i (lifeFields ++ [SPC_SSTS.STATE]) s (s.slotGo i st ok) := by
  unfold State.slotGo
  extract_lets s1 s2
  have h1 : Counts i lifeFields s s1 := .onlyIf (counts_onEnd ..)
  have h2 : Counts i [SPC_SSTS.STATE] s1 s2 := (counts_setF s1 i (by decide) st).trans (counts_modSlot _ rfl)
  exact (h1.trans h2).trans (.onlyIf (counts_modSlot _ rfl))

theorem slotSt_slotGo (s : State) (i : Nat) {st : Nat} (hst : st < 16) (ok : Bool) : (s.slotGo i st ok).slotSt i = st := by
  unfold State.slotGo
  extract_lets s1 s2
  have h2 : s2.slotSt i = st := (getF_setF_self (s := s1) _ _ _ _ (by decide)).trans (Nat.mod_eq_of_lt hst)
  cases st == 5 && s.slotSt i != 5 <;> exact h2

/-- A transition in which the slot is never ON. -/
theorem slotGo_of_off {st : Nat} (hs : s.slotSt i ≠ 5) (hst : st ≠ 5) (ok : Bool) : s.slotGo i st ok =
    (s.setF (pgSLOT i) SPC_SSTS.STATE st).modSlot i fun x => { x with since := s.ticks } := by
  unfold State.slotGo
  simp only [beq_false_of_ne hs, beq_false_of_ne hst, Bool.false_and, onlyIf_false]

/-! ### What a slot shows -/

theorem counts_showWait (s : State) (i : Nat) : Counts i [SPC_SSTS.WAIT, SPC_SSTS.FEED] s (s.showWait i) := by
  unfold State.showWait
  extract_lets s1
  have h1 : Counts i [SPC_SSTS.WAIT] s s1 := counts_setF s i (by decide) _
  split
  · exact h1.trans (.onlyIf (counts_setF s1 i (by decide) _))
  · exact h1.mono (by simp)

theorem showWait_keeps (s : State) (i : Nat) : { s.showWait i with regs := s.regs } = s := by
  unfold State.showWait
  dsimp only
  split
  · cases s.slotSt i == 2 <;> rfl
  · rfl

theorem changes_setRetry (s : State) (i n : Nat) : Changes i [SPC_SSTS.RETRY] s (s.setRetry i n) :=
  (changes_modSlot s i _).trans (counts_setF _ i (by decide) _).toChanges

end Sys2Proof.Slots
end

section
/-! ## Module presence and slot commands (O48) -/

namespace Sys2Proof.SlotCommands

open Sys2Proof Sys2Proof.Machine Sys2Proof.Laws Sys2Proof.Support Sys2Proof.Slots Sys2Proof.LinkDown

variable {s t : State} {i : Nat}

/-! ### Reading a slot after the end of a cycle -/

theorem pageKind_slot : ∀ i < 40, pageKind (pgSLOT i) = some .spcs := by decide

theorem getF_slot_closed (hi : i < 40) {f : FRef} (hf : f.stride = 0 ∧ f.off < 4096 ∧ f.off ≠ FLT_CAUSE.BITS.off) (t : State) :
    t.settle.sweepTrace.getF (pgSLOT i) f = t.getF (pgSLOT i) f := by
  refine getF_closed (apart_fkey (by omega) ?_ (by omega) (by rw [pageKind_slot i hi]; nofun)) t
  simp only [pgSLOT, pgFLT]
  omega

theorem slotSt_closed (hi : i < 40) (t : State) : t.settle.sweepTrace.slotSt i = t.slotSt i := getF_slot_closed hi (by decide) t

theorem flag_slot_closed (hi : i < 40) {f : FRef} (hf : f.stride = 0 ∧ f.off < 4096 ∧ f.off ≠ FLT_CAUSE.BITS.off) (t : State) :
    t.settle.sweepTrace.flag (pgSLOT i) f = t.flag (pgSLOT i) f := congrArg (· == 1) (getF_slot_closed hi hf t)

theorem slot_closed (t : State) (i : Nat) : t.settle.sweepTrace.slot i = t.slot i :=
  congrArg (fun m => storeGet (fun _ => SlotSt.init) m i) (settle_slots t)

theorem flag_of_keep {fs : List FRef} (h : Changes i fs s t) {f : FRef} (hf : f.stride = 0) (hfs : fs.all (apart f) = true) :
    t.flag (pgSLOT i) f = s.flag (pgSLOT i) f := congrArg (· == 1) (h.keep f hf hfs)

theorem flag_setF_self {f : FRef} (hf : f.hi = f.lo ∧ f.hi < 64) (b : Bool) (pg : Nat) : (s.setFlag pg f b).flag pg f = b := by
  have h := getF_setF_self (s := s) pg f b.toNat 0 hf.2
  rw [hf.1, show f.lo + 1 - f.lo = 1 by omega] at h
  refine (congrArg (· == 1) h).trans ?_
  cases b <;> rfl

/-- A page of a slot is reached by no link's loss. -/
theorem outside_slot (hi : i < 40) {f : FRef} (hf : f.stride = 0 ∧ f.off < 4096 ∧ f.off ≠ INT_CAUSE.BITS.off) : Outside (State.fkey (pgSLOT i) f 0) :=
  outside_fkey (by omega) (by omega) (by simp only [pgSLOT]; omega) (by simp only [pgSLOT, pgFWD]; omega)

theorem slot_setRetry (s : State) (i n : Nat) : (s.setRetry i n).slot i = { s.slot i with retry := n } :=
  slot_modSlot_self (s := s) i fun x => { x with retry := n }

/-! ### Arrival of a module -/

/-- A change of fields, then one of the slot's record, then counts. -/
theorem portArrival_eq (s : State) (i : Nat) : (s.portArrival i).regs = s.regs ∧ (s.portArrival i).slot i =
    { s.slot i with pds := true, pdc := true, pcc := (s.slot i).pcc || s.flag (pgSLOT i) SPC_SCFG.AUTO_ON } := by
  unfold State.portArrival
  extract_lets s1
  have h1 : s1.slot i = { s.slot i with pds := true, pdc := true, pcc := (s.slot i).pcc || s.flag (pgSLOT i) SPC_SCFG.AUTO_ON } := slot_modSlot_self ..
  split <;> exact ⟨rfl, h1⟩

/-- The registers of a slot whose module has arrived. -/
def arrived (s : State) (i : Nat) : State :=
  (((s.setFlag (pgSLOT i) SPC_SSTS.PRESENT true).setFlag (pgSLOT i) SPC_SSTS.FRU_OK false).addF (pgSLOT i) SPC_MATE.COUNT).modSlot i
    fun x => { x with fruDue := true, written := false }

/-- The slot in which a module has arrived is OFF. -/
def arrivedOff (s : State) (i : Nat) : State := ((arrived s i).lifeCheck i).slotGo i 1 true

theorem changes_arrivedOff (s : State) (i : Nat) : Counts i (lifeFields ++ (lifeFields ++ [SPC_SSTS.STATE])) (arrived s i) (arrivedOff s i) :=
  (counts_lifeCheck ..).trans (counts_slotGo ..)

theorem changes_arrived (s : State) (i : Nat) : Changes i [SPC_SSTS.PRESENT, SPC_SSTS.FRU_OK, SPC_MATE.COUNT] s (arrived s i) :=
  ((counts_setF s i (f := SPC_SSTS.PRESENT) (by decide) _).toChanges.trans (counts_setF _ i (f := SPC_SSTS.FRU_OK) (by decide) _).toChanges).trans
    ((counts_setF _ i (f := SPC_MATE.COUNT) (by decide) _).toChanges.trans (changes_modSlot _ i _))

theorem arrival_eq (hup : s.spcUp = true) (hst : s.slotSt i = 0) (hauto : s.flag (pgSLOT i) SPC_SCFG.AUTO_ON = false) (hreq : (s.slot i).req = false)
    (hpcc : (s.slot i).pcc = false) : s.arrival i = (arrivedOff s i).portArrival i := by
  have hch := (changes_arrived s i).trans (changes_arrivedOff s i).toChanges
  have hslot : (arrived s i).slot i = { s.slot i with fruDue := true, written := false } := slot_modSlot_self ..
  have hgo : (arrivedOff s i).spcUp = true := hch.spcUp.trans hup
  have hreq' : ((arrivedOff s i).slot i).req = false := ((changes_arrivedOff s i).slot SlotSt.req fun _ => rfl).trans (by rw [hslot]; exact hreq)
  have hpcc' : ((arrivedOff s i).slot i).pcc = false := ((changes_arrivedOff s i).slot SlotSt.pcc fun _ => rfl).trans (by rw [hslot]; exact hpcc)
  have hauto' : (arrivedOff s i).flag (pgSLOT i) SPC_SCFG.AUTO_ON = false := (flag_of_keep hch rfl (by decide)).trans hauto
  have hport := (portArrival_eq (arrivedOff s i) i).2
  have hlate : (false || (((arrivedOff s i).portArrival i).slot i).req || (((arrivedOff s i).portArrival i).slot i).pcc) = false := by
    rw [hport, hreq', hpcc', hauto']
    rfl
  have hs3 : (((arrived s i).lifeCheck i).onlyIf (s.slotSt i == 0) fun t => t.slotGo i 1 true) = arrivedOff s i := by
    rw [hst]
    rfl
  unfold State.arrival
  extract_lets pg auto s1 s2 s3 s4
  have h3 : s3 = arrivedOff s i := hs3
  have h4 : s4 = (arrivedOff s i).portArrival i := by
    change (if s3.spcUp = true then s3.portArrival i else _) = _
    rw [h3, if_pos hgo]
  change s4.onlyIf (s.flag (pgSLOT i) SPC_SCFG.AUTO_ON || (s4.slot i).req || (s4.slot i).pcc) _ = _
  rw [h4, hauto, hlate]
  rfl

theorem presenceConfirm_arrival (hi : i < 40) (hen : s.slotEn i = true) (hup : s.spcUp = true)
    (hp : s.flag (pgSLOT i) SPC_SSTS.PRESENT = false) (hst : s.slotSt i = 0) (hauto : s.flag (pgSLOT i) SPC_SCFG.AUTO_ON = false)
    (hreq : (s.slot i).req = false) (hpcc : (s.slot i).pcc = false) (ok : Bool) : ∃ t, exec (.presenceConfirm i true ok) s = .next t ∧ t.slotSt i = 1 ∧
    t.flag (pgSLOT i) SPC_SSTS.PRESENT = true ∧ t.flag (pgSLOT i) SPC_SSTS.FRU_OK = false ∧ (t.slot i).fruDue = true ∧ (t.slot i).pds = true ∧
    t.getF (pgSLOT i) SPC_MATE.COUNT = satAdd (State.fmax SPC_MATE.COUNT) (s.getF (pgSLOT i) SPC_MATE.COUNT) 1 := by
  have hrun : exec (.presenceConfirm i true ok) s = (s.arrival i).done := by
    show execPresenceConfirm i true ok s = _
    rw [execPresenceConfirm, hen, hp]
    rfl
  have hch := (changes_arrivedOff s i).toChanges
  have hslot : (arrived s i).slot i = { s.slot i with fruDue := true, written := false } := slot_modSlot_self ..
  obtain ⟨hregs, hport⟩ := portArrival_eq (arrivedOff s i) i
  have hreg (f : FRef) : ((arrivedOff s i).portArrival i).getF (pgSLOT i) f = (arrivedOff s i).getF (pgSLOT i) f :=
    getF_of_reg (congrArg (fun m => storeGet regReset m _) hregs)
  have hpres : (arrived s i).flag (pgSLOT i) SPC_SSTS.PRESENT = true :=
    (flag_of_keep ((counts_setF _ i (f := SPC_SSTS.FRU_OK) (by decide) _).toChanges.trans ((counts_setF _ i (f := SPC_MATE.COUNT) (by decide) _).toChanges.trans
      (changes_modSlot _ i _))) rfl (by decide)).trans (flag_setF_self (s := s) (by decide) true _)
  have hfru : (arrived s i).flag (pgSLOT i) SPC_SSTS.FRU_OK = false :=
    (flag_of_keep ((counts_setF _ i (f := SPC_MATE.COUNT) (by decide) _).toChanges.trans (changes_modSlot _ i _)) rfl (by decide)).trans
      (flag_setF_self (s := s.setFlag (pgSLOT i) SPC_SSTS.PRESENT true) (by decide) false _)
  have hold : ((s.setFlag (pgSLOT i) SPC_SSTS.PRESENT true).setFlag (pgSLOT i) SPC_SSTS.FRU_OK false).getF (pgSLOT i) SPC_MATE.COUNT =
      s.getF (pgSLOT i) SPC_MATE.COUNT :=
    ((counts_setF s i (f := SPC_SSTS.PRESENT) (by decide) _).trans (counts_setF _ i (f := SPC_SSTS.FRU_OK) (by decide) _)).keep SPC_MATE.COUNT rfl (by decide)
  have hmate : (arrived s i).getF (pgSLOT i) SPC_MATE.COUNT = satAdd (State.fmax SPC_MATE.COUNT) (s.getF (pgSLOT i) SPC_MATE.COUNT) 1 := by
    rw [← hold]
    exact getF_addF_self ((s.setFlag (pgSLOT i) SPC_SSTS.PRESENT true).setFlag (pgSLOT i) SPC_SSTS.FRU_OK false) _ _ _ _ (by decide)
  rw [hrun, arrival_eq hup hst hauto hreq hpcc]
  refine ⟨_, done_next _, ?_, ?_, ?_, ?_, ?_, ?_⟩
  · exact (slotSt_closed hi _).trans ((hreg _).trans (slotSt_slotGo _ i (by decide) true))
  · exact (flag_slot_closed hi (by decide) _).trans ((congrArg (· == 1) (hreg _)).trans ((flag_of_keep hch rfl (by decide)).trans hpres))
  · exact (flag_slot_closed hi (by decide) _).trans ((congrArg (· == 1) (hreg _)).trans ((flag_of_keep hch rfl (by decide)).trans hfru))
  · rw [slot_closed, hport]
    exact ((changes_arrivedOff s i).slot SlotSt.fruDue fun _ => rfl).trans (by rw [hslot])
  · rw [slot_closed, hport]
  · exact (getF_slot_closed hi (by decide) _).trans ((hreg _).trans ((hch.keep _ rfl (by decide)).trans hmate))

/-! ### Removal of a module -/

/-- What a link's loss leaves of the slots and of their records. -/
theorem downs_slots : Downs (KeptOutside fun u => (u.slots, u.spc)) :=
  downs_keptOutside (fun _ _ => rfl) (fun _ _ => rfl) (fun _ _ h => h.same fun u => (u.slots, u.spc)) (fun _ _ h => h.same fun u => (u.slots, u.spc))
    (fun _ _ => rfl) (fun _ _ _ => rfl)

theorem slotPort_lt {p : Nat} (h : s.slotPort i = some p) : p < 64 := List.mem_range.1 (List.mem_of_find?_eq_some h)

/-- What a removal does at the port reaches the slot's link state alone of its record, and none of its registers. -/
theorem portGone_kept (s : State) (i : Nat) : KeptOutside (fun u => (u.slots, u.spc)) (s.modSlot i fun x => { x with pds := false, pdc := true, pcc := false })
    (s.portGone i) := by
  unfold State.portGone
  extract_lets s1
  split
  · exact downs_slots.refl s1
  · next p hp => exact downs_slots.onlyIf (downs_slots.linkDown s1 (slotPort_lt hp) (fun t f v hf => keptOutside_fflField (fun _ _ => rfl) (slotPort_lt hp) t f v hf) ..)

theorem slot_portGone (s : State) (i : Nat) : (s.portGone i).slot i = { s.slot i with pds := false, pdc := true, pcc := false } :=
  (congrArg (fun m : Store SlotSt × SpcSt => storeGet (fun _ => SlotSt.init) m.1 i) (portGone_kept s i).same).trans
    (slot_modSlot_self (s := s) i fun x => { x with pds := false, pdc := true, pcc := false })

theorem getF_portGone (hi : i < 40) (s : State) {f : FRef} (hf : f.stride = 0 ∧ f.off < 4096 ∧ f.off ≠ INT_CAUSE.BITS.off) :
    (s.portGone i).getF (pgSLOT i) f = s.getF (pgSLOT i) f := getF_of_reg ((portGone_kept s i).reg _ (outside_slot hi hf))

/-- A slot that its module has left is EMPTY with its FETs open. -/
def emptied (s : State) (i : Nat) (ok : Bool) : State := (s.fetsOff i).slotGo i 0 ok

/-- A slot's record when its module is gone. -/
def vacated (now : Nat) (x : SlotSt) : SlotSt :=
  { x with req := false, removedAt := some now, fruDue := false, key := none, written := false, insRated := 0, hrsRated := 0, insBase := 0, hrsBase := 0 }

/-- The registers of a slot whose module is gone. -/
def vacant (s : State) (i : Nat) (ok : Bool) : State :=
  ((((emptied s i ok).setFlag (pgSLOT i) SPC_SSTS.LATCH false).setRetry i 0).setFlag (pgSLOT i) SPC_SSTS.PRESENT false).modSlot i
    (vacated s.ticks)

theorem removal_eq (hup : s.spcUp = true) (hst : s.slotSt i ≠ 8) (ok : Bool) :
    s.removal i ok = (((vacant s i ok).lifeCheck i).showWait i).portGone i := by
  have h1 : Changes i _ s (emptied s i ok) := (changes_modSlot s i _).trans (counts_slotGo ..).toChanges
  have h2 : Changes i _ (emptied s i ok) (vacant s i ok) := ((counts_setF _ i (f := SPC_SSTS.LATCH) (by decide) _).toChanges.trans (changes_setRetry _ i 0)).trans
    ((counts_setF _ i (f := SPC_SSTS.PRESENT) (by decide) _).toChanges.trans (changes_modSlot _ i _))
  have h4 := (h1.trans h2).trans ((counts_lifeCheck ..).trans (counts_showWait ..)).toChanges
  unfold State.removal
  extract_lets pg retired s1 s2 s3 s4
  have h : s4 = ((vacant s i ok).lifeCheck i).showWait i := by
    have hs1 : s1 = emptied s i ok := by
      show (s.fetsOff i).slotGo i (if (s.slotSt i == 8) = true then 8 else 0) ok = _
      rw [beq_false_of_ne hst]
      rfl
    show ((s3.lifeCheck i).showWait i) = _
    have hs3 : s3 = vacant s i ok := by
      show (((s1.setFlag _ _ _).setRetry i 0).setFlag _ _ _).modSlot i _ = _
      rw [hs1]
      rfl
    rw [hs3]
  rw [h, if_pos (h4.spcUp.trans hup)]

theorem presenceConfirm_removal (hi : i < 40) (hen : s.slotEn i = true) (hup : s.spcUp = true)
    (hp : s.flag (pgSLOT i) SPC_SSTS.PRESENT = true) (hst : s.slotSt i ≠ 8) (ok : Bool) : ∃ t, exec (.presenceConfirm i false ok) s = .next t ∧
    t.slotSt i = 0 ∧ t.flag (pgSLOT i) SPC_SSTS.PRESENT = false ∧ (t.slot i).fetA = false ∧ (t.slot i).fetB = false ∧
    (t.slot i).main = false ∧ (t.slot i).perst = true ∧ (t.slot i).removedAt = some s.ticks ∧ (t.slot i).pds = false := by
  have hrun : exec (.presenceConfirm i false ok) s = (s.removal i ok).done := by
    show execPresenceConfirm i false ok s = _
    rw [execPresenceConfirm, hen, hp]
    rfl
  have hend := (counts_lifeCheck (vacant s i ok) i).trans (counts_showWait ..)
  have hstate : (vacant s i ok).slotSt i = 0 := by
    have hafter : Changes i _ (emptied s i ok) (vacant s i ok) := ((counts_setF _ i (f := SPC_SSTS.LATCH) (by decide) _).toChanges.trans (changes_setRetry _ i 0)).trans
      ((counts_setF _ i (f := SPC_SSTS.PRESENT) (by decide) _).toChanges.trans (changes_modSlot _ i _))
    exact (hafter.keep SPC_SSTS.STATE rfl (by decide)).trans (slotSt_slotGo _ i (by decide) ok)
  have hpres : (vacant s i ok).flag (pgSLOT i) SPC_SSTS.PRESENT = false :=
    flag_setF_self (s := ((emptied s i ok).setFlag (pgSLOT i) SPC_SSTS.LATCH false).setRetry i 0) (by decide) false _
  have hvac : (vacant s i ok).slot i = vacated s.ticks { (emptied s i ok).slot i with retry := 0 } :=
    (slot_modSlot_self ..).trans (congrArg (vacated s.ticks) (slot_setRetry ((emptied s i ok).setFlag (pgSLOT i) SPC_SSTS.LATCH false) i 0))
  have hgone := counts_slotGo (s.fetsOff i) i 0 ok
  have hopen : (s.fetsOff i).slot i = { s.slot i with fetA := false, fetB := false, pre := false, main := false, perst := true, openAt := none, gap := none } :=
    slot_modSlot_self ..
  have hread {β : Type} (g : SlotSt → β) (hg : ∀ x, g (uncounted x) = g x) :
      g ((((vacant s i ok).lifeCheck i).showWait i).slot i) = g ((vacant s i ok).slot i) := hend.slot g hg
  have hfinal {β : Type} (g : SlotSt → β) (hg : ∀ x, g (uncounted x) = g x) (hv : ∀ n x, g (vacated n { x with retry := 0 }) = g x) :
      g ((((vacant s i ok).lifeCheck i).showWait i).slot i) = g ((s.fetsOff i).slot i) :=
    (hread g hg).trans ((congrArg g hvac).trans ((hv _ _).trans (hgone.slot g hg)))
  rw [hrun, removal_eq hup hst]
  refine ⟨_, done_next _, ?_, ?_, ?_, ?_, ?_, ?_, ?_, ?_⟩
  · exact (slotSt_closed hi _).trans ((getF_portGone hi _ (by decide)).trans ((hend.keep _ rfl (by decide)).trans hstate))
  · exact (flag_slot_closed hi (by decide) _).trans ((congrArg (· == 1) (getF_portGone hi _ (by decide))).trans
      ((flag_of_keep hend.toChanges rfl (by decide)).trans hpres))
  all_goals rw [slot_closed, slot_portGone]
  · exact (hfinal SlotSt.fetA (fun _ => rfl) fun _ _ => rfl).trans (by rw [hopen])
  · exact (hfinal SlotSt.fetB (fun _ => rfl) fun _ _ => rfl).trans (by rw [hopen])
  · exact (hfinal SlotSt.main (fun _ => rfl) fun _ _ => rfl).trans (by rw [hopen])
  · exact (hfinal SlotSt.perst (fun _ => rfl) fun _ _ => rfl).trans (by rw [hopen])
  · exact (hread SlotSt.removedAt fun _ => rfl).trans (by rw [hvac]; rfl)

/-! ### Power control and the end of the re-arm window -/

/-- A slot that has been shown is as it was but for its registers. -/
theorem showWait_frame (s : State) (i : Nat) : (s.showWait i).firing = s.firing ∧ (s.showWait i).packets = s.packets ∧ (s.showWait i).slots = s.slots :=
  ⟨(congrArg State.firing (showWait_keeps s i) :), (congrArg State.packets (showWait_keeps s i) :), (congrArg State.slots (showWait_keeps s i) :)⟩

theorem slot_showWait (s : State) (i j : Nat) : (s.showWait i).slot j = s.slot j :=
  congrArg (fun m => storeGet (fun _ => SlotSt.init) m j) (showWait_frame s i).2.2

theorem slotSt_showWait (s : State) (i : Nat) : (s.showWait i).slotSt i = s.slotSt i := (counts_showWait s i).keep _ rfl (by decide)

theorem rearmWindowEnd_clears {t0 : Nat} (hinv : s.Inv) (hr : (s.slot i).removedAt = some t0) (ht : t0 + 100000000 ≤ s.ticks) : ∃ t,
    exec (.rearmWindowEnd i) s = .next t ∧ (t.slot i).removedAt = none ∧ t.slotSt i = s.slotSt i ∧ t.packets = s.packets := by
  have hrun : exec (.rearmWindowEnd i) s = ((s.modSlot i fun x => { x with removedAt := none }).showWait i).done := by
    show execRearmWindowEnd i s = _
    simp only [execRearmWindowEnd, hr, ht, if_true]
  have hslot : (s.modSlot i fun x => { x with removedAt := none }).slot i = { s.slot i with removedAt := none } := slot_modSlot_self ..
  have hst := slotSt_showWait (s.modSlot i fun x => { x with removedAt := none }) i
  have hshow := slot_showWait (s.modSlot i fun x => { x with removedAt := none }) i i
  obtain ⟨hf, hp, -⟩ := showWait_frame (s.modSlot i fun x => { x with removedAt := none }) i
  generalize (s.modSlot i fun x => { x with removedAt := none }).showWait i = a at hrun hst hshow hf hp
  exact ⟨_, hrun.trans (Spine.done_quiet (hf.trans hinv.quiet)), congrArg SlotSt.removedAt (hshow.trans hslot), hst, hp⟩

theorem exec_slotPowerControlWrite {p : Nat} {on ok : Bool} (hdown : s.isDown p = true) (hhp : s.flag (pgLNK p) LNK_SLOT.HP_EN = true)
    (hi : s.getF (pgLNK p) LNK_SLOT.SLOT = i) (hen : s.slotEn i = true) (hup : s.spcUp = true) (hreq : (s.slot i).req ≠ on) :
    exec (.slotPowerControlWrite p on ok) s = (if on then (s.modSlot i fun x => { x with pcc := on }).powerOn i
      else (s.modSlot i fun x => { x with pcc := on }).powerOff i ok).done := by
  show execSlotPowerControlWrite p on ok s = _
  simp only [execSlotPowerControlWrite, hdown, hhp, hi, hen, hup, beq_false_of_ne hreq, Bool.not_true, Bool.or_self, Bool.false_eq_true, if_false, if_true]
  split <;> rfl

theorem slotPowerControlWrite_on {p : Nat} {ok : Bool} (hinv : s.Inv) (hdown : s.isDown p = true) (hhp : s.flag (pgLNK p) LNK_SLOT.HP_EN = true)
    (hi : s.getF (pgLNK p) LNK_SLOT.SLOT = i) (hen : s.slotEn i = true) (hup : s.spcUp = true) (hreq : (s.slot i).req = false) (hst : s.slotSt i = 1) :
    ∃ t, exec (.slotPowerControlWrite p true ok) s = .next t ∧ t.slotSt i = 2 ∧ (t.slot i).req = true ∧ (t.slot i).pcc = true ∧ t.packets = s.packets := by
  have hrun := exec_slotPowerControlWrite (ok := ok) (on := true) hdown hhp hi hen hup (by rw [hreq]; nofun)
  obtain ⟨a, ha⟩ : ∃ a, a = (s.modSlot i fun x => { x with pcc := true }).modSlot i fun x => { x with req := true } := ⟨_, rfl⟩
  have hpow : (s.modSlot i fun x => { x with pcc := true }).powerOn i = (a.slotGo i 2 true).showWait i := by
    have h1 : (s.modSlot i fun x => { x with pcc := true }).slotSt i = 1 := hst
    simp only [State.powerOn, h1, if_true, ha]
  have hslot : a.slot i = { s.slot i with pcc := true, req := true } := by
    rw [ha, slot_modSlot_self, slot_modSlot_self]
  have hwas : a.slotSt i = 1 ∧ a.firing = [] ∧ a.packets = s.packets := by
    rw [ha]
    exact ⟨hst, hinv.quiet, rfl⟩
  have hgo : a.slotGo i 2 true = _ := slotGo_of_off (by rw [hwas.1]; decide) (by decide) true
  have hnow := slotSt_slotGo a i (st := 2) (by decide) true
  have hcount := counts_slotGo a i 2 true
  have hfp : (a.slotGo i 2 true).firing = [] ∧ (a.slotGo i 2 true).packets = s.packets := by
    rw [hgo]
    exact ⟨hwas.2.1, hwas.2.2⟩
  rw [if_pos rfl, hpow] at hrun
  obtain ⟨hf, hp, -⟩ := showWait_frame (a.slotGo i 2 true) i
  refine ⟨_, hrun.trans (Spine.done_quiet (hf.trans hfp.1)), (slotSt_showWait _ i).trans hnow, ?_, ?_, hp.trans hfp.2⟩
  · exact (congrArg SlotSt.req (slot_showWait _ i i)).trans ((hcount.slot SlotSt.req fun _ => rfl).trans (by rw [hslot]))
  · exact (congrArg SlotSt.pcc (slot_showWait _ i i)).trans ((hcount.slot SlotSt.pcc fun _ => rfl).trans (by rw [hslot]))

/-- A slot whose request is withdrawn. -/
def withdrawn (s : State) (i : Nat) : State :=
  ((s.modSlot i fun x => { x with pcc := false }).modSlot i fun x => { x with req := false }).setRetry i 0

theorem slotPowerControlWrite_off {p : Nat} {ok : Bool} (hi40 : i < 40) (hdown : s.isDown p = true) (hhp : s.flag (pgLNK p) LNK_SLOT.HP_EN = true)
    (hi : s.getF (pgLNK p) LNK_SLOT.SLOT = i) (hen : s.slotEn i = true) (hup : s.spcUp = true) (hreq : (s.slot i).req = true) (hst : s.slotSt i = 5) :
    ∃ t, exec (.slotPowerControlWrite p false ok) s = .next t ∧ t.slotSt i = 1 ∧ (t.slot i).req = false ∧ (t.slot i).perst = true ∧
      (t.slot i).openAt = some (s.ticks + 100000) := by
  have hrun := exec_slotPowerControlWrite (ok := ok) (on := false) hdown hhp hi hen hup (by rw [hreq]; nofun)
  obtain ⟨a, ha⟩ : ∃ a, a = (withdrawn s i).slotGo i 1 ok := ⟨_, rfl⟩
  have hpow : (s.modSlot i fun x => { x with pcc := false }).powerOff i ok =
      (a.modSlot i fun x => { x with perst := true, openAt := some (s.ticks + 100000), gap := none }).showWait i := by
    have h1 : (s.modSlot i fun x => { x with pcc := false }).slotSt i = 5 := hst
    rw [ha]
    simp only [State.powerOff, h1, or_true, if_true]
    rfl
  have hslot : (withdrawn s i).slot i = { s.slot i with pcc := false, req := false, retry := 0 } := by
    rw [withdrawn, slot_setRetry, slot_modSlot_self, slot_modSlot_self]
  have hnow : a.slotSt i = 1 := ha ▸ slotSt_slotGo _ i (st := 1) (by decide) ok
  have hcount := counts_slotGo (withdrawn s i) i 1 ok
  rw [← ha] at hcount
  have hend : (a.modSlot i fun x => { x with perst := true, openAt := some (s.ticks + 100000), gap := none }).slot i =
      { a.slot i with perst := true, openAt := some (s.ticks + 100000), gap := none } := slot_modSlot_self ..
  rw [if_neg nofun, hpow] at hrun
  refine ⟨_, hrun, ?_, ?_, ?_, ?_⟩
  · exact (slotSt_closed hi40 _).trans ((slotSt_showWait _ i).trans hnow)
  all_goals rw [slot_closed, slot_showWait, hend]
  exact (hcount.slot SlotSt.req fun _ => rfl).trans (by rw [hslot])

/-! ### Commands of a slot -/

theorem withAccess_spcCmd {who : Requester} {f : FRef} (hi : i < 40) (hf : f.off = 0x9C ∧ f.stride = 0) (hg : s.grants who (pgSLOT i) f = true)
    (g : State → State) : s.withAccess who (State.offOf (pgSLOT i) f) 4 true g = g s := by
  have hreg : findReg (allRegs .spcs) 0x9C = some (⟨0x9C, 0, 1, false, 0x0, [fd 31 31 .wo, fd 30 30 .wo, fd 29 29 .wo]⟩, 0) := by decide +kernel
  refine withAccess_narrow g hg (latchKey_narrow (r := (⟨0x9C, 0, 1, false, 0x0, [fd 31 31 .wo, fd 30 30 .wo, fd 29 29 .wo]⟩, 0)) (by omega) ?_ rfl
    (show (0x9C : Nat) ≠ 0x100 by decide))
  rw [hf.1, hf.2, regAt, pageKind_slot i hi]
  exact hreg

theorem spcClrLatch_latched {who : Requester} (hinv : s.Inv) (hi : i < 40) (hg : s.grants who (pgSLOT i) SPC_CMD.CLR_LATCH = true) (hst : s.slotSt i = 7) :
    ∃ t, exec (.spcClrLatch who i) s = .next t ∧ t.slotSt i = 1 ∧ t.flag (pgSLOT i) SPC_SSTS.LATCH = false ∧ t.packets = s.packets := by
  obtain ⟨a, ha⟩ : ∃ a, a = s.setFlag (pgSLOT i) SPC_SSTS.LATCH false := ⟨_, rfl⟩
  have hrun : exec (.spcClrLatch who i) s = (a.slotGo i 1 true).done := by
    show execSpcClrLatch who i s = _
    rw [execSpcClrLatch, if_neg (by omega), withAccess_spcCmd hi ⟨rfl, rfl⟩ hg, State.clrLatch, if_pos hst, ha]
  have hwas : a.slotSt i = 7 := by
    rw [ha]
    exact ((counts_setF s i (f := SPC_SSTS.LATCH) (by decide) _).keep SPC_SSTS.STATE rfl (by decide)).trans hst
  have hlatch : a.flag (pgSLOT i) SPC_SSTS.LATCH = false := by
    rw [ha]
    exact flag_setF_self (by decide) false _
  have hgo : a.slotGo i 1 true = _ := slotGo_of_off (by rw [hwas]; decide) (by decide) true
  have hfp : (a.slotGo i 1 true).firing = [] ∧ (a.slotGo i 1 true).packets = s.packets := by
    rw [hgo, ha]
    exact ⟨hinv.quiet, rfl⟩
  exact ⟨_, hrun.trans (Spine.done_quiet hfp.1), slotSt_slotGo a i (by decide) true, (flag_of_keep (counts_slotGo a i 1 true).toChanges rfl (by decide)).trans hlatch, hfp.2⟩

/-- A slot that is served is cool and has no retries. -/
def served (a : State) (i : Nat) : State :=
  (((a.setF (pgSLOT i) SPC_HEAT.H 0).setRetry i 0).setFlag (pgSLOT i) SPC_SSTS.LATCH false).setF (pgSLOT i) SPC_SSTS.LAST_TRIP 0

theorem getF_setF_zero_self (a : State) (pg : Nat) {f : FRef} (hf : f.hi < 64) : (a.setF pg f 0).getF pg f = 0 :=
  (getF_setF_self a pg f 0 0 hf).trans (Nat.zero_mod _)

theorem served_frame (a : State) (i : Nat) : (served a i).slotSt i = a.slotSt i ∧ (served a i).getF (pgSLOT i) SPC_HEAT.H = 0 ∧
    (served a i).getF (pgSLOT i) SPC_SSTS.RETRY = 0 ∧ (served a i).getF (pgSLOT i) SPC_SSTS.LAST_TRIP = 0 := by
  have h1 := (counts_setF a i (f := SPC_HEAT.H) (by decide) 0).toChanges
  have hheat : (a.setF (pgSLOT i) SPC_HEAT.H 0).getF (pgSLOT i) SPC_HEAT.H = 0 := getF_setF_zero_self a _ (by decide)
  unfold served
  generalize a.setF (pgSLOT i) SPC_HEAT.H 0 = b at h1 hheat
  have h2 := changes_setRetry b i 0
  have hretry : (b.setRetry i 0).getF (pgSLOT i) SPC_SSTS.RETRY = 0 := getF_setF_zero_self _ _ (by decide)
  generalize b.setRetry i 0 = c at h2 hretry
  have h3 := (counts_setF c i (f := SPC_SSTS.LATCH) (by decide) 0).trans (counts_setF _ i (f := SPC_SSTS.LAST_TRIP) (by decide) 0)
  exact ⟨(h3.keep SPC_SSTS.STATE rfl (by decide)).trans ((h2.keep SPC_SSTS.STATE rfl (by decide)).trans (h1.keep SPC_SSTS.STATE rfl (by decide))),
    (h3.keep SPC_HEAT.H rfl (by decide)).trans ((h2.keep SPC_HEAT.H rfl (by decide)).trans hheat), (h3.keep SPC_SSTS.RETRY rfl (by decide)).trans hretry,
    getF_setF_zero_self _ _ (by decide)⟩

theorem spcService_retired {who : Requester} (hi : i < 40) (hg : s.grants who (pgSLOT i) SPC_CMD.SERVICE = true) (hst : s.slotSt i = 8)
    (hp : s.flag (pgSLOT i) SPC_SSTS.PRESENT = false) : ∃ t, exec (.spcService who i) s = .next t ∧ t.slotSt i = 0 ∧ t.getF (pgSLOT i) SPC_HEAT.H = 0 ∧
    t.getF (pgSLOT i) SPC_SSTS.RETRY = 0 ∧ t.getF (pgSLOT i) SPC_SSTS.LAST_TRIP = 0 ∧ (t.slot i).retired = false := by
  have hrun : exec (.spcService who i) s = ((served (s.slotGo i 0 true) i).modSlot i fun x => { x with retired := false }).done := by
    show execSpcService who i s = _
    rw [execSpcService, if_neg (by omega), withAccess_spcCmd hi ⟨rfl, rfl⟩ hg, State.slotService, if_pos ⟨hst, hp⟩]
    rfl
  have hgo := slotSt_slotGo s i (st := 0) (by decide) true
  obtain ⟨hstate, hheat, hretry, htrip⟩ := served_frame (s.slotGo i 0 true) i
  generalize served (s.slotGo i 0 true) i = a at hrun hstate hheat hretry htrip
  have hmod := changes_modSlot a i fun x => { x with retired := false }
  have hslot : (a.modSlot i fun x => { x with retired := false }).slot i = { a.slot i with retired := false } := slot_modSlot_self ..
  generalize (a.modSlot i fun x => { x with retired := false }) = t at hrun hmod hslot
  refine ⟨_, hrun.trans (done_next _), ?_, ?_, ?_, ?_, ?_⟩
  · exact (slotSt_closed hi t).trans ((hmod.keep SPC_SSTS.STATE rfl rfl).trans (hstate.trans hgo))
  · exact (getF_slot_closed hi (by decide) t).trans ((hmod.keep SPC_HEAT.H rfl rfl).trans hheat)
  · exact (getF_slot_closed hi (by decide) t).trans ((hmod.keep SPC_SSTS.RETRY rfl rfl).trans hretry)
  · exact (getF_slot_closed hi (by decide) t).trans ((hmod.keep SPC_SSTS.LAST_TRIP rfl rfl).trans htrip)
  · rw [slot_closed, hslot]

/-- A slot whose connector counts again from 0. -/
def connFresh (s : State) (i : Nat) : State :=
  ((s.setF (pgSLOT i) SPC_MATE.COUNT 0).setF (pgSLOT i) SPC_LIFE_STS.FLAGS (s.getF (pgSLOT i) SPC_LIFE_STS.FLAGS / 4 * 4)).modSlot i
    fun x => { x with connT := s.fabric }

theorem spcConnReset_fresh {who : Requester} (hi : i < 40) (hg : s.grants who (pgSLOT i) SPC_CMD.CONN_RESET = true) : ∃ t,
    exec (.spcConnReset who i) s = .next t ∧ t.getF (pgSLOT i) SPC_MATE.COUNT = 0 ∧ (t.slot i).connT = s.fabric ∧ t.slotSt i = s.slotSt i ∧
    t.hbm = s.hbm := by
  have hrun : exec (.spcConnReset who i) s = (((connFresh s i).lifeCheck i).lifeWrite i true).done := by
    show execSpcConnReset who i s = _
    rw [execSpcConnReset, if_neg (by omega), withAccess_spcCmd hi ⟨rfl, rfl⟩ hg]
    rfl
  have hlate := (counts_lifeCheck (connFresh s i) i).trans (counts_lifeWrite _ i true)
  have hmate : (s.setF (pgSLOT i) SPC_MATE.COUNT 0).getF (pgSLOT i) SPC_MATE.COUNT = 0 := getF_setF_self _ _ _ _ _ (by decide)
  have hfresh : Changes i _ (s.setF (pgSLOT i) SPC_MATE.COUNT 0) (connFresh s i) :=
    (counts_setF _ i (f := SPC_LIFE_STS.FLAGS) (by decide) _).toChanges.trans (changes_modSlot _ i _)
  have hall := (counts_setF s i (f := SPC_MATE.COUNT) (by decide) 0).toChanges.trans (hfresh.trans hlate.toChanges)
  have hslot : ((connFresh s i).slot i).connT = s.fabric := congrArg SlotSt.connT (slot_modSlot_self ..)
  refine ⟨_, hrun.trans (done_next _), ?_, ?_, ?_, ?_⟩
  · exact (getF_slot_closed hi (by decide) _).trans (((hfresh.trans hlate.toChanges).keep SPC_MATE.COUNT rfl (by decide)).trans hmate)
  · exact (congrArg SlotSt.connT (slot_closed _ i)).trans ((hlate.slot SlotSt.connT fun _ => rfl).trans hslot)
  · exact (slotSt_closed hi _).trans (hall.keep SPC_SSTS.STATE rfl (by decide))
  · exact (settle_hbm _).trans (congrArg State.hbm hall.rest :)

/-- Settles O48: arrivals, removals, power control and the slot's commands, each by its own lemma. -/
theorem slotPresenceAndCommands : Obligations.SlotPresenceAndCommands := by
  unfold Obligations.SlotPresenceAndCommands
  intro s who i p t0 ok hinv hi hen
  exact ⟨fun hup hp hst hauto hreq hpcc => presenceConfirm_arrival hi hen hup hp hst hauto hreq hpcc ok,
    fun hup hp hst => presenceConfirm_removal hi hen hup hp hst ok, rearmWindowEnd_clears hinv,
    fun hdown hhp hport hup => ⟨slotPowerControlWrite_on hinv hdown hhp hport hen hup, slotPowerControlWrite_off hi hdown hhp hport hen hup⟩,
    fun hg hst => spcClrLatch_latched hinv hi hg hst, fun hg hst hp => spcService_retired hi hg hst hp, fun hg => spcConnReset_fresh hi hg⟩

end Sys2Proof.SlotCommands
end

section
/-! ## Module life records and the Limder link (O50) -/

namespace Sys2Proof.ModuleLife

open Sys2Proof Sys2Proof.Machine Sys2Proof.Laws Sys2Proof.Support Sys2Proof.Slots Sys2Proof.SlotCommands Sys2Proof.LinkDown

variable {s t : State} {i : Nat}

/-! ### The entry that counts for a module -/

/-- A change of the entries of one key is found under that key. -/
theorem find_map_key {f : ModEntry → ModEntry} (hf : ∀ e, (f e).key = e.key) (k : Nat) (l : List ModEntry) :
    (l.map fun e => if e.key = k then f e else e).find? (fun e => e.key == k) = (l.find? fun e => e.key == k).map f := by
  induction l with
  | nil => rfl
  | cons e r ih =>
    by_cases h : e.key = k
    · simp [h, hf]
    · simp [h, ih]

theorem modEntry_congr (hkey : (t.slot i).key = (s.slot i).key) (hanon : (t.slot i).anon = (s.slot i).anon) (hmods : t.spc.mods = s.spc.mods) :
    t.modEntry i = s.modEntry i := by
  unfold State.modEntry
  rw [hkey, hanon, hmods]

theorem modEntry_slotFire (s : State) (i b : Nat) : (s.slotFire i b).modEntry i = s.modEntry i := by
  unfold State.slotFire
  split <;> rfl

theorem modEntry_onlyIf {b : Bool} {f : State → State} (h : (f s).modEntry i = s.modEntry i) : (s.onlyIf b f).modEntry i = s.modEntry i := by
  cases b
  · rfl
  · exact h

/-- A change of the entry of a module that leaves its key. -/
theorem modEntry_modModule {f : ModEntry → ModEntry} (hf : ∀ e, (f e).key = e.key) {e : ModEntry}
    (he : ∀ k, (s.slot i).key = some k → s.spc.mods.find? (fun e => e.key == k) = some e) (hnone : (s.slot i).key = none → (s.slot i).anon = e) :
    (s.modModule i f).modEntry i = f e := by
  unfold State.modModule
  split
  · next k hk =>
    have hfind := find_map_key hf k s.spc.mods
    rw [he k hk] at hfind
    have hkey : (State.slot { s with spc := { s.spc with mods := s.spc.mods.map fun (e : ModEntry) => if e.key = k then f e else e } } i).key = some k := hk
    simp only [State.modEntry, hkey, hfind, Option.map_some, Option.getD_some]
  · next hk =>
    have hkey : ((s.modSlot i fun x => { x with anon := f x.anon }).slot i) = { s.slot i with anon := f (s.slot i).anon } := slot_modSlot_self ..
    have hn : ((s.modSlot i fun x => { x with anon := f x.anon }).slot i).key = none := by rw [hkey]; exact hk
    simp only [State.modEntry, hn]
    rw [hkey, hnone hk]

/-- A change of an entry that leaves its key and its insertions leaves what is read of them. -/
theorem ins_modModule {f : ModEntry → ModEntry} (hf : ∀ e, (f e).key = e.key) (hins : ∀ e, (f e).ins = e.ins) :
    ((s.modModule i f).modEntry i).ins = (s.modEntry i).ins := by
  unfold State.modModule
  split
  · next k hk =>
    have hkey : (State.slot { s with spc := { s.spc with mods := s.spc.mods.map fun (e : ModEntry) => if e.key = k then f e else e } } i).key = some k := hk
    simp only [State.modEntry, hkey, hk, find_map_key hf]
    cases s.spc.mods.find? fun e => e.key == k
    · rfl
    · exact hins _
  · next hk =>
    have hkey : ((s.modSlot i fun x => { x with anon := f x.anon }).slot i) = { s.slot i with anon := f (s.slot i).anon } := slot_modSlot_self ..
    have hn : ((s.modSlot i fun x => { x with anon := f x.anon }).slot i).key = none := by rw [hkey]; exact hk
    simp only [State.modEntry, hn, hk]
    rw [hkey]
    exact hins _

theorem ins_lifeCheck (s : State) (i : Nat) : ((s.lifeCheck i).modEntry i).ins = (s.modEntry i).ins := by
  unfold State.lifeCheck
  extract_lets pg old mate here was now s1 fresh s2 s3 s4
  have h1 : (s1.modEntry i).ins = (s.modEntry i).ins := by
    change ((s.onlyIf here fun t => t.modModule i fun e => { e with flags := now }).modEntry i).ins = _
    cases here
    · rfl
    · exact ins_modModule (fun _ => rfl) fun _ => rfl
  have h2 : s2.modEntry i = s1.modEntry i := modEntry_onlyIf (modEntry_slotFire ..)
  have h3 : s3.modEntry i = s2.modEntry i := modEntry_onlyIf (modEntry_slotFire ..)
  exact (congrArg ModEntry.ins (h3.trans h2)).trans h1

theorem modEntry_showWait (s : State) (i : Nat) : (s.showWait i).modEntry i = s.modEntry i :=
  modEntry_congr (congrArg SlotSt.key (slot_showWait s i i)) (congrArg SlotSt.anon (slot_showWait s i i))
    (congrArg (fun u : State => u.spc.mods) (showWait_keeps s i) :)

theorem modEntry_closed (t : State) (i : Nat) : t.settle.sweepTrace.modEntry i = t.modEntry i :=
  modEntry_congr (congrArg SlotSt.key (slot_closed t i)) (congrArg SlotSt.anon (slot_closed t i)) (congrArg SpcSt.mods (settle_spc t))

/-! ### Faults of a slot -/

/-- A source that has fired by the end of a command is set unless it is masked. -/
theorem fltSet_of_changes {fs : List FRef} {src : Nat} {a : State} (hf : (⟨src, 31, 63, true, false⟩ : Firing) ∈ a.firing) (hch : Changes i fs a t)
    (hm : a.fltMasked src = false) (hne : src ≠ pgFLT * 32 + 2) : t.settle.sweepTrace.fltSet src = true := by
  have hk : State.fkey (src / 32) FLT_MASK.BITS 0 % 4096 < 0x80 := by
    rw [(fkey_page _ FLT_MASK.BITS 0 (by decide)).2]
    decide
  have hmask : t.fltMasked src = a.fltMasked src := fltMasked_of_reg (hch.page _ (.inr hk))
  exact fltSet_closed (f := ⟨src, 31, 63, true, false⟩) (hch.fired _ hf) (hmask.trans hm) hne

theorem src_slot_ne (i b : Nat) : pgSLOT i * 32 + b ≠ pgFLT * 32 + 2 := by
  simp only [pgSLOT, pgFLT]
  omega

/-! ### The FRU record -/

/-- A module whose FRU record is read counts its insertion, and its slot shows it. -/
def inserted (a : State) (i : Nat) : State := ((a.modModule i fun e => { e with ins := e.ins + 1 }).lifeCheck i).showWait i

theorem counts_inserted (a : State) (i : Nat) : Counts i (lifeFields ++ [SPC_SSTS.WAIT, SPC_SSTS.FEED]) a (inserted a i) := (counts_modModule ..).trans ((counts_lifeCheck ..).trans (counts_showWait ..))

theorem ins_inserted {a : State} {e : ModEntry} (he : ∀ k, (a.slot i).key = some k → a.spc.mods.find? (fun e => e.key == k) = some e)
    (hnone : (a.slot i).key = none → (a.slot i).anon = e) : ((inserted a i).modEntry i).ins = e.ins + 1 := by
  rw [inserted, modEntry_showWait, ins_lifeCheck, modEntry_modModule (f := fun e => { e with ins := e.ins + 1 }) (fun _ => rfl) he hnone]

theorem exec_fruReadDone (hen : s.slotEn i = true) (hdue : (s.slot i).fruDue = true) (r : Option FruRead) :
    exec (.fruReadDone i r) s = (s.fruDone i r).done := by
  show execFruReadDone i r s = _
  rw [execFruReadDone, hen, hdue]
  rfl

theorem fruReadDone_none (hen : s.slotEn i = true) (hdue : (s.slot i).fruDue = true) : ∃ t,
    exec (.fruReadDone i none) s = .next t ∧ (t.slot i).fruDue = false ∧
    (s.spcUp = true → s.fltMasked (pgSLOT i * 32 + 7) = false → t.fltSet (pgSLOT i * 32 + 7) = true) := by
  obtain ⟨a, ha⟩ : ∃ a, a = s.modSlot i fun x => { x with fruDue := false } := ⟨_, rfl⟩
  have hrun : exec (.fruReadDone i none) s = (inserted (a.slotFire i 7) i).done := by rw [ha]; exact exec_fruReadDone hen hdue none
  have hch := (counts_slotFire a i 7).trans (counts_inserted ..)
  have hslot : a.slot i = { s.slot i with fruDue := false } := ha ▸ slot_modSlot_self ..
  have hup : a.spcUp = s.spcUp := by rw [ha]; rfl
  have hmask : a.fltMasked (pgSLOT i * 32 + 7) = s.fltMasked (pgSLOT i * 32 + 7) := by rw [ha]; rfl
  refine ⟨_, hrun.trans (done_next _), ?_, fun hs hm => ?_⟩
  · rw [slot_closed]
    exact (hch.slot SlotSt.fruDue fun _ => rfl).trans (by rw [hslot])
  · have hfire : a.slotFire i 7 = a.fire (pgSLOT i) 7 := by rw [State.slotFire, hup, hs, if_pos rfl]
    rw [hfire]
    refine fltSet_of_changes (a := a.fire (pgSLOT i) 7) ?_ (counts_inserted ..).toChanges (hmask.trans hm) (src_slot_ne i 7)
    exact List.mem_append_right _ List.mem_cons_self

/-- The key of a module. -/
def fruKey (r : FruRead) : Nat := sha384 (r.mfr ++ r.part ++ r.serial) % 2 ^ 128

/-- The entry that a module has, or takes, in the module table. -/
def fruEntry (s : State) (r : FruRead) : ModEntry := (s.spc.mods.find? fun e => e.key == fruKey r).getD ⟨fruKey r, 0, 0, 0⟩

theorem key_fruEntry (s : State) (r : FruRead) : (fruEntry s r).key = fruKey r := by
  unfold fruEntry
  cases h : s.spc.mods.find? fun e => e.key == fruKey r with
  | none => rfl
  | some e => simpa using List.find?_some h

theorem ins_fruEntry (s : State) (r : FruRead) : (fruEntry s r).ins = ((s.spc.mods.find? fun e => e.key == fruKey r).getD ⟨0, 0, 0, 0⟩).ins := by
  unfold fruEntry
  cases s.spc.mods.find? fun e => e.key == fruKey r with
  | none => simp only [Option.getD_none]
  | some e => simp only [Option.getD_some]

/-- The other entries of the module table, the oldest of which goes where the table is full. -/
def fruRest (s : State) (r : FruRead) : List ModEntry :=
  if (s.spc.mods.filter fun e => e.key != fruKey r).length < 128 then s.spc.mods.filter fun e => e.key != fruKey r
  else (s.spc.mods.filter fun e => e.key != fruKey r).drop 1

theorem find_fruRest (s : State) (r : FruRead) : (fruRest s r ++ [fruEntry s r]).find? (fun e => e.key == fruKey r) = some (fruEntry s r) := by
  have hrest : (fruRest s r).find? (fun e => e.key == fruKey r) = none := by
    refine List.find?_eq_none.2 fun e he => ?_
    have hmem : e ∈ s.spc.mods.filter fun e => e.key != fruKey r := by
      unfold fruRest at he
      split at he
      · exact he
      · exact List.mem_of_mem_drop he
    simpa using (List.mem_filter.1 hmem).2
  rw [List.find?_append, hrest, Option.none_or, List.find?_cons, key_fruEntry, beq_self_eq_true]

/-- The slot whose module's FRU record has been read. -/
def fruKnown (s : State) (i : Nat) (r : FruRead) : State :=
  ((({ s.modSlot i fun x => { x with fruDue := false } with
      spc := { s.spc with mods := fruRest s r ++ [fruEntry s r] } } : State).setFlag (pgSLOT i) SPC_SSTS.FRU_OK true).modSlot i fun x =>
    { x with key := some (fruKey r), insRated := (r.life.getD (0, 0, 0, 0)).1, hrsRated := (r.life.getD (0, 0, 0, 0)).2.1,
             insBase := (r.life.getD (0, 0, 0, 0)).2.2.1, hrsBase := (r.life.getD (0, 0, 0, 0)).2.2.2 })

theorem fruDone_some (s : State) (i : Nat) (r : FruRead) : s.fruDone i (some r) = inserted (fruKnown s i r) i := rfl

theorem fruReadDone_some (hi : i < 40) (hen : s.slotEn i = true) (hdue : (s.slot i).fruDue = true) (r : FruRead) : ∃ t,
    exec (.fruReadDone i (some r)) s = .next t ∧ (t.slot i).fruDue = false ∧ t.flag (pgSLOT i) SPC_SSTS.FRU_OK = true ∧
    (t.slot i).key = some (fruKey r) ∧ (t.modEntry i).ins = (fruEntry s r).ins + 1 := by
  have hslot : (fruKnown s i r).slot i = { s.slot i with
      fruDue := false, key := some (fruKey r), insRated := (r.life.getD (0, 0, 0, 0)).1, hrsRated := (r.life.getD (0, 0, 0, 0)).2.1,
      insBase := (r.life.getD (0, 0, 0, 0)).2.2.1, hrsBase := (r.life.getD (0, 0, 0, 0)).2.2.2 } :=
    (slot_modSlot_self ..).trans (congrArg (fun x : SlotSt => { x with
      key := some (fruKey r), insRated := (r.life.getD (0, 0, 0, 0)).1, hrsRated := (r.life.getD (0, 0, 0, 0)).2.1,
      insBase := (r.life.getD (0, 0, 0, 0)).2.2.1, hrsBase := (r.life.getD (0, 0, 0, 0)).2.2.2 })
      (slot_modSlot_self (s := s) i fun x => { x with fruDue := false }))
  have hok : (fruKnown s i r).flag (pgSLOT i) SPC_SSTS.FRU_OK = true :=
    flag_setF_self (s := { s.modSlot i fun x => { x with fruDue := false } with spc := { s.spc with mods := fruRest s r ++ [fruEntry s r] } }) (by decide) true _
  have hmods : (fruKnown s i r).spc.mods = fruRest s r ++ [fruEntry s r] := rfl
  have hrun := exec_fruReadDone hen hdue (some r)
  rw [fruDone_some] at hrun
  generalize fruKnown s i r = a at hrun hslot hok hmods
  have hch := counts_inserted a i
  refine ⟨_, hrun.trans (done_next _), ?_, ?_, ?_, ?_⟩
  · rw [slot_closed]
    exact (hch.slot SlotSt.fruDue fun _ => rfl).trans (by rw [hslot])
  · exact (flag_slot_closed hi (by decide) _).trans ((flag_of_keep hch.toChanges rfl (by decide)).trans hok)
  · rw [slot_closed]
    exact (hch.slot SlotSt.key fun _ => rfl).trans (by rw [hslot])
  · rw [modEntry_closed]
    refine ins_inserted (fun k hk => ?_) fun hk => ?_
    · rw [hslot] at hk
      rw [hmods, ← Option.some.inj hk]
      exact find_fruRest s r
    · rw [hslot] at hk
      cases hk

/-! ### Records in flash -/

theorem mem_storeInsert_self {α : Type} (m : Store α) (k : Nat) (x : α) : (k, x) ∈ storeInsert m k x := by
  induction m with
  | nil => exact List.mem_cons_self
  | cons e r ih =>
    rw [storeInsert]
    repeat' split
    · exact List.mem_cons_self
    · exact List.mem_cons_self
    · exact List.mem_cons_of_mem _ ih

theorem flash_lifeWrite (s : State) (i : Nat) : (s.lifeWrite i true).spc.flashMods = s.spc.mods ∧ (s.lifeWrite i true).spc.mods = s.spc.mods ∧
    ∃ b, (i, b) ∈ (s.lifeWrite i true).spc.flashLife := ⟨rfl, rfl, _, mem_storeInsert_self ..⟩

theorem exec_lifeCountWritten (hen : s.slotEn i = true) (hp : s.flag (pgSLOT i) SPC_SSTS.PRESENT = true) (hdue : (s.slot i).fruDue = false)
    (hw : (s.slot i).written = false) (ok : Bool) : exec (.lifeCountWritten i ok) s =
      (((s.lifeWrite i ok).modSlot i fun x => { x with written := true }).showWait i).done := by
  show execLifeCountWritten i ok s = _
  rw [execLifeCountWritten, hen, hp, hdue, hw]
  rfl

theorem written_after (a : State) (i : Nat) : (((a.modSlot i fun x => { x with written := true }).showWait i).slot i).written = true :=
  (congrArg SlotSt.written (slot_showWait _ i i)).trans (congrArg SlotSt.written (slot_modSlot_self (s := a) i fun x => { x with written := true }))

theorem lifeCountWritten_ok (hinv : s.Inv) (hen : s.slotEn i = true) (hp : s.flag (pgSLOT i) SPC_SSTS.PRESENT = true)
    (hdue : (s.slot i).fruDue = false) (hw : (s.slot i).written = false) : ∃ t, exec (.lifeCountWritten i true) s = .next t ∧
    (t.slot i).written = true ∧ t.spc.flashMods = s.spc.mods ∧ (∃ b, (i, b) ∈ t.spc.flashLife) ∧ t.slotSt i = s.slotSt i ∧ t.packets = s.packets := by
  have hrun := exec_lifeCountWritten hen hp hdue hw true
  have hwr := written_after (s.lifeWrite i true) i
  obtain ⟨hmods, -, b, hb⟩ := flash_lifeWrite s i
  have hkeep := showWait_keeps ((s.lifeWrite i true).modSlot i fun x => { x with written := true }) i
  have hst := slotSt_showWait ((s.lifeWrite i true).modSlot i fun x => { x with written := true }) i
  generalize ((s.lifeWrite i true).modSlot i fun x => { x with written := true }).showWait i = a at hrun hwr hkeep hst
  have hspc := (congrArg State.spc hkeep :)
  exact ⟨_, hrun.trans (Spine.done_quiet ((congrArg State.firing hkeep :).trans hinv.quiet)), hwr, (congrArg SpcSt.flashMods hspc).trans hmods,
    ⟨b, (congrArg SpcSt.flashLife hspc).symm ▸ hb⟩, hst, (congrArg State.packets hkeep :)⟩

theorem lifeCountWritten_failed (hen : s.slotEn i = true) (hp : s.flag (pgSLOT i) SPC_SSTS.PRESENT = true)
    (hdue : (s.slot i).fruDue = false) (hw : (s.slot i).written = false) : ∃ t, exec (.lifeCountWritten i false) s = .next t ∧
    (t.slot i).written = true ∧ t.spc.flashLife = s.spc.flashLife ∧ (s.fltMasked (pgSPC * 32 + 1) = false → t.fltSet (pgSPC * 32 + 1) = true) := by
  have hrun := exec_lifeCountWritten hen hp hdue hw false
  have hwr := written_after (s.lifeWrite i false) i
  have hkeep := showWait_keeps ((s.lifeWrite i false).modSlot i fun x => { x with written := true }) i
  have hch : Changes i _ (s.fire pgSPC 1) _ := (changes_modSlot (s.fire pgSPC 1) i fun x => { x with written := true }).trans (counts_showWait ..).toChanges
  refine ⟨_, hrun.trans (done_next _), (congrArg SlotSt.written (slot_closed _ i)).trans hwr, ?_, fun hm => ?_⟩
  · exact (congrArg SpcSt.flashLife (settle_spc _)).trans (congrArg (fun u : State => u.spc.flashLife) hkeep :)
  · exact fltSet_of_changes (a := s.fire pgSPC 1) (src := pgSPC * 32 + 1) (List.mem_append_right _ List.mem_cons_self) hch hm (by decide)

theorem slotOnHourWrite_writes (hi : i < 40) (hen : s.slotEn i = true) (hst : s.slotSt i = 5) (ht : (s.slot i).hourAt + 3600000000000 ≤ s.ticks) : ∃ t,
    exec (.slotOnHourWrite i true) s = .next t ∧ (t.slot i).hourAt = s.ticks ∧ t.spc.flashMods = t.spc.mods ∧ (∃ b, (i, b) ∈ t.spc.flashLife) ∧
    t.slotSt i = 5 := by
  have hrun : exec (.slotOnHourWrite i true) s = (((s.onCount i).modSlot i fun x => { x with hourAt := s.ticks }).lifeWrite i true).done := by
    show execSlotOnHourWrite i true s = _
    rw [execSlotOnHourWrite, hen, hst, decide_eq_true ht]
    rfl
  obtain ⟨a, ha⟩ : ∃ a, a = (s.onCount i).modSlot i fun x => { x with hourAt := s.ticks } := ⟨_, rfl⟩
  have hslot : (a.slot i).hourAt = s.ticks := by rw [ha, slot_modSlot_self]
  have hstate : a.slotSt i = 5 := by
    rw [ha]
    exact ((counts_onCount s i).keep SPC_SSTS.STATE rfl (by decide)).trans hst
  rw [← ha] at hrun
  obtain ⟨hmods, hsame, b, hb⟩ := flash_lifeWrite a i
  have hspc := settle_spc (a.lifeWrite i true)
  refine ⟨_, hrun.trans (done_next _), ?_, ?_, ⟨b, ?_⟩, ?_⟩
  · exact (congrArg SlotSt.hourAt (slot_closed _ i)).trans hslot
  · exact (congrArg SpcSt.flashMods hspc).trans ((hmods.trans hsame.symm).trans (congrArg SpcSt.mods hspc).symm)
  · exact (congrArg SpcSt.flashLife hspc).symm ▸ hb
  · exact (slotSt_closed hi _).trans hstate

/-! ### The Limder link -/

theorem spcUp_closed (t : State) : t.settle.sweepTrace.spcUp = t.spcUp :=
  congrArg (· == 1) (getF_closed (apart_fkey (by decide) (by decide) (by decide) (by decide)) t)

theorem limderLinkFail_down (hup : s.spcUp = true) : ∃ t, exec .limderLinkFail s = .next t ∧ t.spcUp = false ∧
    (s.fltMasked (pgSPC * 32) = false → t.fltSet (pgSPC * 32) = true) := by
  have hrun : exec .limderLinkFail s = ((s.setFlag pgSPC SPC_STS.LINK_UP false).fire pgSPC 0).done := by
    show execLimderLinkFail s = _
    rw [execLimderLinkFail, if_pos hup]
  have hmask : (s.setFlag pgSPC SPC_STS.LINK_UP false).fltMasked (pgSPC * 32) = s.fltMasked (pgSPC * 32) :=
    fltMasked_of_reg ((reg_setF ..).trans (if_neg (fkey_mask_ne (by decide) (by decide))))
  have hdown : (s.setFlag pgSPC SPC_STS.LINK_UP false).spcUp = false := flag_setF_self (by decide) false pgSPC
  generalize s.setFlag pgSPC SPC_STS.LINK_UP false = a at hrun hmask hdown
  refine ⟨_, hrun.trans (done_next _), (spcUp_closed (a.fire pgSPC 0)).trans hdown, fun hm => ?_⟩
  exact fltSet_closed (f := ⟨pgSPC * 32, 31, 63, true, false⟩) (List.mem_append_right _ List.mem_cons_self) (hmask.trans hm) (by decide)

/-- The Limder link is up and nothing waits for it. -/
def Linked (s : State) : Prop := s.spcUp = true ∧ s.spc.held = []

theorem Linked.of_changes {fs : List FRef} (h : Linked s) (hch : Changes i fs s t) : Linked t := ⟨hch.spcUp.trans h.1, (hch.held h.1).trans h.2⟩

theorem Linked.onlyIf {b : Bool} {f : State → State} (h : Linked s) (hf : Linked (f s)) : Linked (s.onlyIf b f) := by
  cases b
  · exact h
  · exact hf

theorem Linked.modSlot (h : Linked s) (i : Nat) (f : SlotSt → SlotSt) : Linked (s.modSlot i f) := h

theorem Linked.portGone (h : Linked s) (i : Nat) : Linked (s.portGone i) := by
  have hk := portGone_kept s i
  refine ⟨(congrArg (· == 1) (getF_of_reg (hk.reg _ ?_))).trans h.1, (congrArg (fun x : Store SlotSt × SpcSt => x.2.held) hk.same).trans h.2⟩
  exact outside_fkey (by decide) (by decide) (by decide) (by decide)

theorem Linked.portArrival (h : Linked s) (i : Nat) : Linked (s.portArrival i) := by
  unfold State.portArrival
  dsimp only
  split <;> exact h

theorem Linked.powerOn (h : Linked s) (i : Nat) : Linked (s.powerOn i) := by
  unfold State.powerOn
  extract_lets s1
  have h1 : Linked s1 := h
  split
  · exact (h1.of_changes (counts_slotGo s1 i 2 true).toChanges).of_changes (counts_showWait ..).toChanges
  · exact h1

theorem Linked.powerOff (h : Linked s) (i : Nat) (ok : Bool) : Linked (s.powerOff i ok) := by
  unfold State.powerOff
  extract_lets st s1
  have h1 : Linked s1 := Linked.of_changes (s := s.modSlot i fun x => { x with req := false }) h (changes_setRetry _ i 0)
  repeat' split
  · exact ((h1.of_changes (counts_slotGo s1 i 1 ok).toChanges).of_changes (changes_modSlot _ i _)).of_changes (counts_showWait ..).toChanges
  · exact (h1.of_changes (counts_slotGo s1 i 1 ok).toChanges).of_changes (counts_showWait ..).toChanges
  · exact ((h1.of_changes (changes_modSlot s1 i _)).of_changes (counts_slotGo (s1.fetsOff i) i 1 ok).toChanges).of_changes (counts_showWait ..).toChanges
  · exact h1

/-- A slot's record once what waited for the link is done. -/
def noted (x y : SlotSt) : SlotSt :=
  { y with pcc := x.pccDue.getD y.pcc, pfd := y.pfd || x.dueFault, due := false, dueGone := false, dueFault := false, pccDue := none }

/-- What the return of the link does at a slot's port: the Slot Status that waited follows the slot. -/
def caughtUp (t : State) (i : Nat) : State :=
  ((t.onlyIf (t.slot i).dueGone fun u => u.portGone i).onlyIf ((t.slot i).due && t.flag (pgSLOT i) SPC_SSTS.PRESENT) fun u => u.portArrival i).modSlot i
    (noted (t.slot i))

theorem Linked.caughtUp (h : Linked s) (i : Nat) : Linked (caughtUp s i) := by
  have h1 : Linked (s.onlyIf (s.slot i).dueGone fun u => u.portGone i) := h.onlyIf (h.portGone i)
  exact (h1.onlyIf (f := fun u => u.portArrival i) (h1.portArrival i)).modSlot i (noted (s.slot i))

/-- A standing request of a slot is replayed. -/
def replayed (u : State) (i : Nat) : State :=
  if (u.slot i).pcc = (u.slot i).req then u else if (u.slot i).pcc then u.powerOn i else u.powerOff i true

theorem Linked.replayed (h : Linked s) (i : Nat) : Linked (replayed s i) := by
  unfold ModuleLife.replayed
  repeat' split
  · exact h
  · exact h.powerOn i
  · exact h.powerOff i true

/-- Nothing waits for the link any more. -/
def unheld (s : State) : State := { s with spc := { s.spc with held := [] } }

/-- The link is up again, and the reports that waited have gone out. -/
def reported (s : State) : State := unheld ((s.setFlag pgSPC SPC_STS.LINK_UP true).each s.spc.held fun t e => t.fire (pgSLOT e.1) e.2)

theorem spcUp_unheld (s : State) : (unheld s).spcUp = s.spcUp := rfl

theorem linked_reported (s : State) : Linked (reported s) := by
  refine ⟨?_, rfl⟩
  rw [reported, spcUp_unheld]
  refine (each_eq (f := fun t (e : Nat × Nat) => t.fire (pgSLOT e.1) e.2) State.spcUp (fun _ _ _ => rfl) _).trans ?_
  exact flag_setF_self (s := s) (by decide) true pgSPC

theorem limderBack_eq (s : State) : s.limderBack = (reported s).each ((List.range 40).filter (reported s).slotEn) fun t i => replayed (caughtUp t i) i := rfl

theorem limderLinkRestore_up (hup : s.spcUp = false) : ∃ t, exec .limderLinkRestore s = .next t ∧ t.spcUp = true ∧ t.spc.held = [] := by
  have hrun : exec .limderLinkRestore s = s.limderBack.done := by
    show execLimderLinkRestore s = _
    rw [execLimderLinkRestore, hup]
    rfl
  have hback : Linked s.limderBack :=
    limderBack_eq s ▸ each_reaches (P := Linked) (fun t i _ h => (h.caughtUp i).replayed i) (reported s) (.inl (linked_reported s))
  exact ⟨_, hrun.trans (done_next _), (spcUp_closed _).trans hback.1, (congrArg SpcSt.held (settle_spc _)).trans hback.2⟩

/-- Settles O50: FRU records, records in flash and the Limder link, each by its own lemma. -/
theorem moduleLifeAndLimderLink : Obligations.ModuleLifeAndLimderLink := by
  unfold Obligations.ModuleLifeAndLimderLink
  intro s i r hinv hi hen
  have hread (hdue : (s.slot i).fruDue = true) := fruReadDone_some hi hen hdue r
  rw [ins_fruEntry, fruKey] at hread
  exact ⟨fun hdue => ⟨hread hdue, fruReadDone_none hen hdue⟩,
    fun hp hdue hw => ⟨lifeCountWritten_ok hinv hen hp hdue hw, lifeCountWritten_failed hen hp hdue hw⟩,
    fun hst ht => slotOnHourWrite_writes hi hen hst ht, limderLinkFail_down, limderLinkRestore_up⟩

end Sys2Proof.ModuleLife
end

section
/-! ## Fields of a port that cutting its traffic off leaves -/

namespace Sys2Proof.PortFields

open Sys2Proof Sys2Proof.Machine Sys2Proof.Laws Sys2Proof.Support Sys2Proof.Traffic Sys2Proof.LinkDown

variable {s t : State} {p : Nat}

/-- A field has the value it had. -/
def SameField (pg : Nat) (f : FRef) (i : Nat) (s t : State) : Prop := t.getF pg f i = s.getF pg f i

/-- A field that no write of a port's cut reaches. -/
structure Spared (pg : Nat) (f : FRef) (i : Nat) : Prop where
  fade : ∀ pg' f' i', FadeField pg' f' i' → State.fkey pg f i ≠ State.fkey pg' f' i' ∨ f'.hi < f.lo ∨ f.hi < f'.lo
  cause : State.fkey pg f i % 4096 ≠ INT_CAUSE.BITS.off
  lost : ∀ q < 64, State.fkey pg f i ≠ State.fkey (pgLNK q) LNK_LDCNT1.CPL 0

theorem sameField_of_regs {pg i : Nat} {f : FRef} (h : t.regs = s.regs) : SameField pg f i s t :=
  congrArg (fun m : Store Dword => bitsOf (storeGet regReset m (State.fkey pg f i)) f.hi f.lo) h

theorem fades_sameField {pg i : Nat} {f : FRef} (h : Spared pg f i) : Fades (SameField pg f i) where
  refl _ := rfl
  trans h1 h2 := h2.trans h1
  data s t hs := sameField_of_regs (hs.same State.regs)
  unreserve _ _ := rfl
  add _ _ := rfl
  lostCpl s q v hq := getF_setF_other _ _ _ _ _ _ _ _ (.inl (h.lost q hq))
  interrupt s pg' v := getF_setF_other _ _ _ _ _ _ _ _ (.inl fun he => h.cause (by rw [he]; exact (fkey_page pg' INT_CAUSE.BITS 0 (by decide)).2))
  link s t hs := sameField_of_regs (hs.same State.regs)
  field s pg' f' v i' hf := getF_setF_other _ _ _ _ _ _ _ _ (h.fade pg' f' i' hf)
  ports _ _ _ := rfl

/-- Keys of two registers differ where the offsets in their pages do, or the pages. -/
theorem fkey_ne_of_off {pg pg' i i' : Nat} {f f' : FRef} (ho : f.off + f.stride * i < 4096) (ho' : f'.off + f'.stride * i' < 4096)
    (h : pg ≠ pg' ∨ f.off + f.stride * i ≠ f'.off + f'.stride * i') : State.fkey pg f i ≠ State.fkey pg' f' i' := by
  intro he
  have h1 := fkey_page pg f i ho
  have h2 := fkey_page pg' f' i' ho'
  rw [he] at h1
  omega

/-- A field whose register stands apart, by page or offset, from every one that a cut writes. -/
theorem spared_of_page {pg i : Nat} {f : FRef} (ho : f.off + f.stride * i < 4096) (hc : f.off + f.stride * i ≠ INT_CAUSE.BITS.off)
    (hfwd : pg ≠ pgFWD) (hcel : ∀ c, pg ≠ pgCEL c) (hqsh : ∀ c j, j < 16 → pg ≠ pgQSH c j)
    (hsch : ∀ q < 64, pg ≠ pgSCH (cellarOf q) ∨ 0x180 ≤ f.off + f.stride * i)
    (hlnk : ∀ q < 64, pg ≠ pgLNK q ∨ f.off + f.stride * i < 0xB0) : Spared pg f i where
  fade pg' f' i' h := .inl (by
    cases h with
    | score q _ hq hk =>
      refine fkey_ne_of_off ho (by simp only [LNK_LERR.SCORE]; omega) ((hlnk q hq).imp_right fun h => ?_)
      simp only [LNK_LERR.SCORE]
      omega
    | ide q _ hq h =>
      have hall : ∀ g ∈ [LNK_IDE.LINK_SEC, LNK_IDE.SEL_SEC], g.off = 0xC0 ∧ g.stride = 0 := by decide
      obtain ⟨h1, h2⟩ := hall _ h
      exact fkey_ne_of_off ho (by omega) ((hlnk q hq).imp_right fun h => by omega)
    | sch q _ _ hq h =>
      have hoff : f'.off + f'.stride * i' < 0x180 := by
        rcases h with ⟨rfl, rfl⟩ | ⟨rfl, rfl⟩
        · simp only [SCH_PORTSTS.SLIP, State.localPort]
          omega
        · decide
      exact fkey_ne_of_off ho (by omega) ((hsch q hq).imp_right fun h => by omega)
    | qsh c j _ _ _ hj h => exact fkey_ne_of_off ho h (.inl (hqsh c j hj))
    | cel c _ _ _ h => exact fkey_ne_of_off ho h (.inl (hcel c))
    | discards => exact fkey_ne_of_off ho (by decide) (.inl hfwd))
  cause := by rwa [(fkey_page pg f i ho).2]
  lost q hq := fkey_ne_of_off ho (by decide) ((hlnk q hq).imp_right fun h => by
    rw [show LNK_LDCNT1.CPL.off + LNK_LDCNT1.CPL.stride * 0 = 0xB8 from rfl]
    omega)

/-- State, rate, width and CAP of a port's link. -/
theorem spared_link (p : Nat) {f : FRef} (hf : f.stride = 0 ∧ 0x80 ≤ f.off ∧ f.off < 0xB0) : Spared (pgLNK p) f 0 := by
  refine spared_of_page (by omega) ?_ ?_ (fun c => ?_) (fun c j hj => ?_) (fun q _ => .inl ?_) fun q _ => .inr (by omega)
  · rw [show INT_CAUSE.BITS.off = 0x20 from rfl]
    omega
  all_goals simp only [pgLNK, pgFWD, pgCEL, pgQSH, pgSCH, celPage, pageIx]
  · omega
  · omega
  · omega
  · omega

/-- A field of the port's fabric link layer. -/
theorem spared_ffl (p : Nat) {f : FRef} (hf : f.stride = 0 ∧ 0x80 ≤ f.off ∧ f.off < 4096) : Spared (pgFFL p) f 0 := by
  refine spared_of_page (by omega) ?_ ?_ (fun c => ?_) (fun c j hj => ?_) (fun q _ => .inl ?_) fun q _ => .inl ?_
  · rw [show INT_CAUSE.BITS.off = 0x20 from rfl]
    omega
  all_goals simp only [pgFFL, pgLNK, pgFWD, pgCEL, pgQSH, pgSCH, celPage, pageIx]
  · omega
  · omega
  · omega
  · omega
  · omega

/-- The flit period of a port. -/
theorem spared_fper (p : Nat) : Spared (pgSCH (cellarOf p)) SCH_PORTSTS.FPER (State.localPort p) := by
  have ho : SCH_PORTSTS.FPER.off + SCH_PORTSTS.FPER.stride * State.localPort p < 4096 := by
    simp only [SCH_PORTSTS.FPER, State.localPort]
    omega
  refine ⟨fun pg' f' i' h => ?_, ?_, fun q hq => fkey_ne_of_off ho (by decide) (.inl ?_)⟩
  · cases h with
    | score q _ hq hk =>
      refine .inl (fkey_ne_of_off ho (by simp only [LNK_LERR.SCORE]; omega) (.inl ?_))
      simp only [pgLNK, pgSCH, celPage, pageIx]
      omega
    | ide q _ hq h =>
      have hall : ∀ g ∈ [LNK_IDE.LINK_SEC, LNK_IDE.SEL_SEC], g.off + g.stride * 0 < 4096 := by decide
      refine .inl (fkey_ne_of_off ho (hall _ h) (.inl ?_))
      simp only [pgLNK, pgSCH, celPage, pageIx]
      omega
    | sch q _ _ hq h =>
      rcases h with ⟨rfl, rfl⟩ | ⟨rfl, rfl⟩
      · exact .inr (.inr (by decide))
      · refine .inl (fkey_ne_of_off ho (by decide) (.inr ?_))
        simp only [SCH_PORTSTS.FPER, State.localPort, SCH_BEONLY.PORTS]
        omega
    | qsh c j _ _ _ hj h =>
      refine .inl (fkey_ne_of_off ho h (.inl ?_))
      simp only [pgQSH, pgSCH, celPage, pageIx]
      omega
    | cel c _ _ _ h =>
      refine .inl (fkey_ne_of_off ho h (.inl ?_))
      simp only [pgCEL, pgSCH, celPage, pageIx]
      omega
    | discards =>
      refine .inl (fkey_ne_of_off ho (by decide) (.inl ?_))
      simp only [pgFWD, pgSCH, celPage, pageIx]
      omega
  · rw [(fkey_page _ SCH_PORTSTS.FPER _ ho).2]
    simp only [SCH_PORTSTS.FPER, State.localPort, INT_CAUSE.BITS]
    omega
  · simp only [pgLNK, pgSCH, celPage, pageIx]
    omega

/-! ### A packet that is cut short -/

/-- The counts of the packets that left their contract. -/
def confFields : List FRef := [SCH_CONF.LATE, SCH_CONF.EXCESS, SCH_CONF.DISPLACED, SCH_CONF.BLOCKED]

/-- A relation between states that cutting a packet short keeps. -/
structure Cuts (R : State → State → Prop) : Prop extends Fades R where
  count : ∀ s c code port tc n, R s (s.count c code port tc n)
  conf : ∀ s c f v i, f ∈ confFields → i < 128 → R s (s.setF (pgSCH c) f v i)
  peak : ∀ s q v, R s (s.setF (qpg q) QSH_DPEAK.PEAK v (qix q))

namespace Cuts

variable {R : State → State → Prop} (hR : Cuts R) (s : State)
include hR

theorem modPacket (id : Nat) (f : Packet → Packet) : R s (s.modPacket id f) := hR.link s _ rfl

theorem markOut (q : Nat) (k : Packet) (m : Mark) : R s (s.markOut q k m) := by
  unfold State.markOut
  extract_lets c f s1
  have h1 : R s s1 := hR.trans (hR.modPacket s k.id _) (hR.count ..)
  have hf : ∀ g, f = some g → g ∈ confFields := by
    intro g hg
    simp only [f] at hg
    cases m <;> cases hg <;> simp [confFields]
  clear_value f
  cases f with
  | none => exact hR.refl s
  | some g => exact hR.trans h1 (hR.trans (hR.conf s1 c g _ _ (hf g rfl) (Nat.mod_lt _ (by decide))) (hR.onlyIf (hR.fire ..)))

theorem markCut (k : Packet) : R s (s.markCut k) := by
  unfold State.markCut
  split
  · exact hR.refl s
  · exact hR.markOut s k.queue k .late
  all_goals exact hR.modPacket s k.id _

theorem peakDepth (q : Nat) : R s (s.peakDepth q) := hR.peak s q _

theorem cutShort (p : Nat) : R s (s.cutShort p) := by
  unfold State.cutShort
  split
  · exact hR.refl s
  · split
    · exact hR.ports s p _
    · extract_lets s1
      have h1 : R s s1 := hR.trans (hR.ports s p _) (hR.modPacket ..)
      exact hR.trans h1 (hR.trans (hR.markCut ..) (hR.peakDepth ..))

end Cuts

theorem cuts_sameField {pg i : Nat} {f : FRef} (h : Spared pg f i) (ho : f.off + f.stride * i < 4096) (hpmu : ∀ c, pg ≠ pgPMUC c) (hq : ∀ q, pg ≠ qpg q)
    (hsch : ∀ c, pg ≠ pgSCH c ∨ f.off + f.stride * i < 0x200) : Cuts (SameField pg f i) where
  toFades := fades_sameField h
  count s c code port tc n := getF_of_reg (reg_count s c code port tc n (by rw [(fkey_page pg f i ho).1]; exact hpmu c))
  conf s c g v j hg hj := by
    have hall : ∀ g ∈ confFields, g.off = 0x200 ∧ g.stride = 4 := by decide
    obtain ⟨h1, h2⟩ := hall g hg
    exact getF_setF_other _ _ _ _ _ _ _ _ (.inl (fkey_ne_of_off ho (by rw [h1, h2]; omega) ((hsch c).imp_right fun h => by rw [h1, h2]; omega)))
  peak s q v := getF_setF_other _ _ _ _ _ _ _ _ (.inl (fkey_ne_of_off ho (by simp only [QSH_DPEAK.PEAK, qix]; omega) (.inl (hq q))))

theorem qpg_low (q : Nat) : qpg q % 256 = 3 ∨ qpg q % 256 = 4 := by
  simp only [qpg, pgQSH, celPage, pageIx]
  omega

theorem cuts_link (p : Nat) {f : FRef} (hf : f.stride = 0 ∧ 0x80 ≤ f.off ∧ f.off < 0xB0) : Cuts (SameField (pgLNK p) f 0) := by
  refine cuts_sameField (spared_link p hf) (by omega) (fun c => ?_) (fun q he => ?_) fun c => .inr (by omega)
  · simp only [pgLNK, pgPMUC, celPage, pageIx]
    omega
  · have := qpg_low q
    rw [← he] at this
    simp only [pgLNK, celPage, pageIx] at this
    omega

theorem cuts_ffl (p : Nat) {f : FRef} (hf : f.stride = 0 ∧ 0x80 ≤ f.off ∧ f.off < 0x200) : Cuts (SameField (pgFFL p) f 0) := by
  refine cuts_sameField (spared_ffl p (by omega)) (by omega) (fun c => ?_) (fun q he => ?_) fun c => .inr (by omega)
  · simp only [pgFFL, pgPMUC, celPage, pageIx]
    omega
  · have := qpg_low q
    rw [← he] at this
    simp only [pgFFL, celPage, pageIx] at this
    omega

theorem cuts_fper (p : Nat) : Cuts (SameField (pgSCH (cellarOf p)) SCH_PORTSTS.FPER (State.localPort p)) := by
  have ho : SCH_PORTSTS.FPER.off + SCH_PORTSTS.FPER.stride * State.localPort p < 0x200 := by
    simp only [SCH_PORTSTS.FPER, State.localPort]
    omega
  refine cuts_sameField (spared_fper p) (by omega) (fun c => ?_) (fun q he => ?_) fun c => .inr ho
  · simp only [pgSCH, pgPMUC, celPage, pageIx]
    omega
  · have := qpg_low q
    rw [← he] at this
    simp only [pgSCH, celPage, pageIx] at this
    omega

/-- A part of the state that no cut touches. -/
theorem cuts_part {β : Type} {g : State → β} (hg : ∀ s t : State, { t with
      regs := s.regs, out := s.out, heldOut := s.heldOut, free := s.free, firing := s.firing, flt := s.flt, frt := s.frt, nextId := s.nextId, npw := s.npw,
      openW := s.openW, parts := s.parts, pf := s.pf, resv := s.resv, sched := s.sched, splits := s.splits, ttu := s.ttu, ttuHits := s.ttuHits,
      walks := s.walks, wseq := s.wseq, edge := s.edge, lanes := s.lanes, queues := s.queues, trk := s.trk,
      tx := s.tx, packets := s.packets, ports := s.ports } = s → g t = g s) : Cuts (fun s t => g t = g s) where
  refl _ := rfl
  trans h1 h2 := h2.trans h1
  data s t h := hg s t (h.same fun u : State => { u with
    regs := s.regs, resv := s.resv, edge := s.edge, lanes := s.lanes, queues := s.queues, trk := s.trk,
    tx := s.tx, packets := s.packets, ports := s.ports })
  unreserve s _ := hg s _ rfl
  add s _ := hg s _ rfl
  lostCpl s _ _ _ := hg s _ rfl
  interrupt s _ _ := hg s _ rfl
  link s t h := hg s t (h.same fun u : State => { u with regs := s.regs, ports := s.ports })
  field s _ _ _ _ _ := hg s _ rfl
  ports s _ _ := hg s _ rfl
  count s c code port tc n := hg s _ ((quiet_count s c code port tc n).eq fun u : State => { u with
    free := s.free, firing := s.firing, flt := s.flt, frt := s.frt, nextId := s.nextId, npw := s.npw,
    openW := s.openW, pf := s.pf, resv := s.resv, sched := s.sched, splits := s.splits, ttu := s.ttu, ttuHits := s.ttuHits,
    walks := s.walks, wseq := s.wseq, edge := s.edge, lanes := s.lanes, queues := s.queues, trk := s.trk,
    tx := s.tx, packets := s.packets, ports := s.ports })
  conf s _ _ _ _ _ _ := hg s _ rfl
  peak s _ _ := hg s _ rfl

/-! ### Parts of a port's record -/

/-- Every port's record shows the same through `π`. -/
def PortKept {β : Type} (π : PortSt → β) (s t : State) : Prop := ∀ q, π (t.port q) = π (s.port q)

section
variable {β : Type} {π : PortSt → β}

theorem PortKept.refl (s : State) : PortKept π s s := fun _ => rfl

theorem PortKept.trans {a b c : State} (h : PortKept π a b) (h' : PortKept π b c) : PortKept π a c := fun q => (h' q).trans (h q)

theorem portKept_of_ports (h : t.ports = s.ports) : PortKept π s t := fun q => congrArg (fun m => π (storeGet (fun _ => PortSt.init) m q)) h

theorem portKept_modPort {r : Nat} {f : PortSt → PortSt} (hf : ∀ x, π (f x) = π x) : PortKept π s (s.modPort r f) := by
  intro q
  by_cases hq : q = r
  · rw [hq, port_modPort_self, hf]
  · rw [port_modPort_other s f hq]

theorem PortKept.onlyIf {b : Bool} {f : State → State} (h : PortKept π s (f s)) : PortKept π s (s.onlyIf b f) := by
  cases b
  · exact .refl s
  · exact h

theorem PortKept.each {α : Type} {l : List α} {f : State → α → State} (hf : ∀ t, ∀ x ∈ l, PortKept π t (f t x)) (s : State) : PortKept π s (s.each l f) := by
  induction l generalizing s with
  | nil => exact .refl s
  | cons x r ih => exact (hf s x List.mem_cons_self).trans (ih (fun t y hy => hf t y (List.mem_cons_of_mem _ hy)) (f s x))

theorem portKept_setLock (s : State) (l : Nat) (b : Bool) : PortKept π s (s.setLock l b) := by
  unfold State.setLock
  split <;> exact .refl s

theorem portKept_putSlip (hπ : ∀ x m v, π { x with mism := m, slip := v } = π x) (s : State) (q v : Nat) : PortKept π s (s.putSlip q v) := by
  unfold State.putSlip
  generalize hx : s.slipShown v = r
  obtain ⟨x, s1⟩ := r
  have h1 : PortKept π s s1 := by
    unfold State.slipShown at hx
    split at hx <;> cases hx <;> exact .refl s
  exact h1.trans (portKept_modPort (s := s1) (f := fun y => { y with slip := v }) fun y => hπ y y.mism v)

theorem portKept_portMode (hπ : ∀ x m v, π { x with mism := m, slip := v } = π x) (s : State) (q : Nat) (b : Bool) : PortKept π s (s.portMode q b) := by
  unfold State.portMode
  extract_lets mism be was s1 s2
  have h1 : PortKept π s s1 := .refl s
  have h2 : PortKept π s1 s2 := .onlyIf ((portKept_modPort (f := fun x => { x with mism := mism }) fun x => hπ x mism x.slip).trans (.onlyIf (.refl _)))
  exact h1.trans (h2.trans (.onlyIf ((portKept_putSlip hπ s2 q 0).trans (.each (f := fun u n => u.newlyActive n) (fun t n _ => .refl t) _))))

theorem portKept_markOut (s : State) (q : Nat) (k : Packet) (m : Mark) : PortKept π s (s.markOut q k m) := by
  unfold State.markOut
  extract_lets c f s1
  have h1 : PortKept π s s1 := portKept_of_ports ((quiet_count (s.modPacket k.id fun x => { x with mark := m }) ..).eq State.ports)
  clear_value f
  cases f with
  | none => exact .refl s
  | some g => exact h1.trans (.onlyIf (.refl _))

theorem portKept_cutShort (hπ : ∀ x a b c, π { x with sending := a, nullOwed := b, nullAbort := c } = π x) (s : State) (p : Nat) :
    PortKept π s (s.cutShort p) := by
  unfold State.cutShort
  split
  · exact .refl s
  · split
    · exact portKept_modPort (f := fun x => { x with sending := none, nullOwed := true }) fun x => hπ x none true x.nullAbort
    · extract_lets s1
      have h1 : PortKept π s s1 := portKept_modPort (f := fun x => { x with sending := none, nullOwed := true, nullAbort := _ }) fun x => hπ x none true _
      have h2 (k : Packet) : PortKept π s1 (s1.markCut k) := by
        unfold State.markCut
        split
        · exact .refl s1
        · exact portKept_markOut s1 k.queue k .late
        all_goals exact .refl s1
      exact h1.trans (h2 _)

end

/-- `t` is `s` but for registers, outputs, packets, ports and queues. -/
def Aloof (s t : State) : Prop :=
  { t with regs := s.regs, out := s.out, heldOut := s.heldOut, parts := s.parts, free := s.free, firing := s.firing, packets := s.packets,
           ports := s.ports, queues := s.queues } = s

theorem Aloof.refl (s : State) : Aloof s s := rfl

theorem Aloof.trans {a b c : State} (h : Aloof a b) (h' : Aloof b c) : Aloof a c := by
  have h1 := congrArg (fun u : State => ({ u with
    regs := a.regs, out := a.out, heldOut := a.heldOut, parts := a.parts, free := a.free, firing := a.firing, packets := a.packets,
    ports := a.ports, queues := a.queues } : State)) h'
  exact h1.trans h

theorem Aloof.onlyIf {b : Bool} {f : State → State} (h : Aloof s (f s)) : Aloof s (s.onlyIf b f) := by
  cases b
  · exact .refl s
  · exact h

theorem Aloof.each {α : Type} {l : List α} {f : State → α → State} (hf : ∀ t, ∀ x ∈ l, Aloof t (f t x)) (s : State) : Aloof s (s.each l f) := by
  induction l generalizing s with
  | nil => exact .refl s
  | cons x r ih => exact (hf s x List.mem_cons_self).trans (ih (fun t y hy => hf t y (List.mem_cons_of_mem _ hy)) (f s x))

theorem aloof_count (s : State) (c code port tc n : Nat) : Aloof s (s.count c code port tc n) :=
  (quiet_count s c code port tc n).eq (β := State) fun u => { u with
    free := s.free, firing := s.firing, packets := s.packets, ports := s.ports, queues := s.queues }

theorem aloof_putSlip (s : State) (q v : Nat) : Aloof s (s.putSlip q v) := by
  unfold State.putSlip
  generalize hx : s.slipShown v = r
  obtain ⟨x, s1⟩ := r
  have h1 : Aloof s s1 := by
    unfold State.slipShown at hx
    split at hx <;> cases hx <;> exact rfl
  exact h1.trans rfl

theorem aloof_newlyActive (s : State) (q : Nat) : Aloof s (s.newlyActive q) := rfl

theorem aloof_portMode (s : State) (q : Nat) (b : Bool) : Aloof s (s.portMode q b) := by
  unfold State.portMode
  extract_lets mism be was s1 s2
  have h1 : Aloof s s1 := rfl
  have h2 : Aloof s1 s2 := .onlyIf (.trans (b := s1.modPort q fun x => { x with mism := mism }) rfl (.onlyIf rfl))
  exact h1.trans (h2.trans (.onlyIf ((aloof_putSlip s2 q 0).trans (.each (fun t n _ => aloof_newlyActive t n) _))))

theorem aloof_markOut (s : State) (q : Nat) (k : Packet) (m : Mark) : Aloof s (s.markOut q k m) := by
  unfold State.markOut
  extract_lets c f s1
  have h1 : Aloof s s1 := .trans (b := s.modPacket k.id fun x => { x with mark := m }) rfl (aloof_count ..)
  clear_value f
  cases f with
  | none => exact .refl s
  | some g => exact h1.trans (.trans (b := s1.addF (pgSCH c) g 1 (q % 128)) rfl (.onlyIf rfl))

theorem aloof_peakDepth (s : State) (q : Nat) : Aloof s (s.peakDepth q) := rfl

theorem aloof_modPacket (s : State) (id : Nat) (f : Packet → Packet) : Aloof s (s.modPacket id f) := rfl

theorem aloof_modPort (s : State) (p : Nat) (f : PortSt → PortSt) : Aloof s (s.modPort p f) := rfl

theorem aloof_markCut (s : State) (k : Packet) : Aloof s (s.markCut k) := by
  unfold State.markCut
  split
  · exact .refl s
  · exact aloof_markOut s k.queue k .late
  all_goals exact aloof_modPacket ..

theorem aloof_cutShort (s : State) (p : Nat) : Aloof s (s.cutShort p) := by
  unfold State.cutShort
  split
  · exact .refl s
  · split
    · exact aloof_modPort ..
    · extract_lets s1
      have h1 : Aloof s s1 := (aloof_modPort ..).trans (aloof_modPacket ..)
      exact h1.trans ((aloof_markCut ..).trans (aloof_peakDepth ..))

end Sys2Proof.PortFields
end

section
/-! ## Link requests of an FFL port, and the loss of its link (O33) -/

namespace Sys2Proof.FabricLinks

open Sys2Proof Sys2Proof.Machine Sys2Proof.Laws Sys2Proof.Support Sys2Proof.Traffic Sys2Proof.LinkDown Sys2Proof.PortFields

variable {s t : State} {p : Nat}

/-! ### Reading a port after the end of a cycle -/

theorem pageKind_port : ∀ p < 64, pageKind (pgLNK p) = some .lnk ∧ pageKind (pgFFL p) = some .ffl ∧ pageKind (pgSCH (cellarOf p)) = some .sch := by decide +kernel

theorem page_ne_flt (p : Nat) : pgLNK p ≠ pgFLT ∧ pgFFL p ≠ pgFLT ∧ pgSCH (cellarOf p) ≠ pgFLT := by
  simp only [pgLNK, pgFFL, pgSCH, pgFLT, celPage, pageIx]
  omega

theorem getF_link_closed (hp : p < 64) {f : FRef} (hf : f.stride = 0 ∧ 0x80 ≤ f.off ∧ f.off < 4096) (t : State) :
    t.settle.sweepTrace.getF (pgLNK p) f = t.getF (pgLNK p) f := by
  have hc : FLT_CAUSE.BITS.off < 0x80 := by decide
  exact getF_closed (apart_fkey (by omega) (page_ne_flt p).1 (by omega) (by rw [(pageKind_port p hp).1]; nofun)) t

theorem getF_ffl_closed (hp : p < 64) {f : FRef} (hf : f.stride = 0 ∧ 0x80 ≤ f.off ∧ f.off < 4096) (t : State) :
    t.settle.sweepTrace.getF (pgFFL p) f = t.getF (pgFFL p) f := by
  have hc : FLT_CAUSE.BITS.off < 0x80 := by decide
  exact getF_closed (apart_fkey (by omega) (page_ne_flt p).2.1 (by omega) (by rw [(pageKind_port p hp).2.1]; nofun)) t

theorem fper_closed (hp : p < 64) (t : State) : t.settle.sweepTrace.fper p = t.fper p := by
  have ho : SCH_PORTSTS.FPER.off + SCH_PORTSTS.FPER.stride * State.localPort p < 4096 ∧
      SCH_PORTSTS.FPER.off + SCH_PORTSTS.FPER.stride * State.localPort p ≠ FLT_CAUSE.BITS.off := by
    simp only [SCH_PORTSTS.FPER, State.localPort, FLT_CAUSE.BITS]
    omega
  exact getF_closed (apart_fkey ho.1 (page_ne_flt p).2.2 ho.2 (by rw [(pageKind_port p hp).2.2]; nofun)) t

/-- The link layer's registers of a device port stand on its own page. -/
theorem getL_eq (hp : p < 64) (s : State) (f : FRef) : s.getL p f = s.getF (pgFFL p) f := by
  rw [State.getL, lkPage, lkRef, if_pos hp, if_pos hp]

theorem setL_eq (hp : p < 64) (s : State) (f : FRef) (v : Nat) : s.setL p f v = s.setF (pgFFL p) f v := by
  rw [State.setL, lkPage, lkRef, if_pos hp, if_pos hp]

theorem lkState_eq (hp : p < 64) (s : State) : s.lkState p = s.getF (pgFFL p) FFL_STS.STATE := getL_eq hp s _

theorem lkState_closed (hp : p < 64) (t : State) : t.settle.sweepTrace.lkState p = t.lkState p := by
  rw [lkState_eq hp, lkState_eq hp, getF_ffl_closed hp (by decide)]

theorem fflSt_closed (t : State) (p : Nat) : t.settle.sweepTrace.fflSt p = t.fflSt p :=
  congrArg (fun m => storeGet (fun _ => FflSt.init) m p) (settle_ffl t)

theorem port_closed (t : State) (p : Nat) : t.settle.sweepTrace.port p = t.port p :=
  congrArg (fun m => storeGet (fun _ => PortSt.init) m p) (settle_ports t)

/-- The role of a port is that of its configuration register. -/
theorem isFfl_of_reg (h : t.reg (State.fkey (pgLNK p) LNK_CFG.EN 0) = s.reg (State.fkey (pgLNK p) LNK_CFG.EN 0)) : t.isFfl p = s.isFfl p := by
  have hen : t.getF (pgLNK p) LNK_CFG.EN = s.getF (pgLNK p) LNK_CFG.EN := getF_of_reg h
  have hrole : t.getF (pgLNK p) LNK_CFG.ROLE = s.getF (pgLNK p) LNK_CFG.ROLE := getF_of_reg (f := LNK_CFG.ROLE) h
  simp only [State.isFfl, State.portEn, State.portRole, State.flag, hen, hrole]

/-! ### Leaving L0 -/

/-- The registers of a port that has left L0. -/
def left (s : State) (p : Nat) : State :=
  (((s.modPort p fun x => { x with per := s.fper p, recAt := some s.ticks, late := [] }).setF (pgLNK p) LNK_STS.STATE 5).setFlag (pgLNK p) LNK_STS.UP
    false).setFper p 0

theorem leaveL0_eq (hp : p < 64) (s : State) : s.leaveL0 p =
    (((left s p).onlyIf ((left s p).isFfl p) fun t => t.linkRetrain p true).portMode p false).cutShort p := by
  rw [State.leaveL0, if_neg (by omega)]
  rfl

theorem fper_setFper (s : State) (p v : Nat) : (s.setFper p v).fper p = v % 64 := getF_setF_self _ _ _ _ _ (by decide)

theorem fkey_fper_ne (p q : Nat) {f : FRef} (hf : f.stride = 0 ∧ f.off < 4096) :
    State.fkey (pgLNK q) f 0 ≠ State.fkey (pgSCH (cellarOf p)) SCH_PORTSTS.FPER (State.localPort p) := by
  refine fkey_ne_of_off (by omega) (by simp only [SCH_PORTSTS.FPER, State.localPort]; omega) (.inl ?_)
  simp only [pgLNK, pgSCH, celPage, pageIx]
  omega

theorem getF_setFper (s : State) (p q v : Nat) {f : FRef} (hf : f.stride = 0 ∧ f.off < 4096) : (s.setFper p v).getF (pgLNK q) f = s.getF (pgLNK q) f :=
  getF_setF_other _ _ _ _ _ _ _ _ (.inl (fkey_fper_ne p q hf))

theorem left_frame (s : State) (p : Nat) : (left s p).linkState p = 5 ∧ (left s p).flag (pgLNK p) LNK_STS.UP = false ∧ (left s p).fper p = 0 := by
  refine ⟨?_, ?_, fper_setFper _ _ _⟩
  · refine (getF_setFper _ _ _ _ (by decide)).trans ((getF_setF_other _ _ _ _ _ _ _ _ (.inr (.inr (by decide)))).trans ?_)
    exact getF_setF_self _ _ _ _ _ (by decide)
  · refine (congrArg (· == 1) ((getF_setFper _ _ _ _ (by decide)).trans (getF_setF_self _ _ _ _ _ (by decide)))).trans ?_
    rfl

/-- The registers that a link layer's RETRAIN writes. -/
def retrainRegs (s : State) (p : Nat) : State := (s.setF (pgFFL p) FFL_STS.STATE 4).setF (pgFFL p) FFL_STS.REQ_PEND 0

theorem linkRetrain_eq (hp : p < 64) (s : State) (kept : Bool) : s.linkRetrain p kept =
    (retrainRegs s p).modFfl p fun x => { x with naked := [], fromRetrain := kept, req := none } := by
  rw [State.linkRetrain, setL_eq hp, setL_eq hp]
  rfl

theorem getF_retrainRegs_other {pg i : Nat} {f : FRef} (hpg : pg ≠ pgFFL p) (ho : f.off + f.stride * i < 4096) (s : State) :
    (retrainRegs s p).getF pg f i = s.getF pg f i :=
  (getF_setF_other _ _ _ _ _ _ _ _ (.inl (fkey_ne_of_off ho (by decide) (.inl hpg)))).trans
    (getF_setF_other _ _ _ _ _ _ _ _ (.inl (fkey_ne_of_off ho (by decide) (.inl hpg))))

theorem linkRetrain_frame (hp : p < 64) (s : State) (kept : Bool) : (s.linkRetrain p kept).lkState p = 4 ∧
    ((s.linkRetrain p kept).fflSt p).req = none := by
  rw [linkRetrain_eq hp]
  refine ⟨?_, congrArg FflSt.req (fflSt_modFfl_self (s := retrainRegs s p) p fun x => { x with naked := [], fromRetrain := kept, req := none })⟩
  have hst : (retrainRegs s p).getF (pgFFL p) FFL_STS.STATE = 4 :=
    (getF_setF_other _ _ _ _ _ _ _ _ (.inr (.inl (by decide)))).trans (getF_setF_self _ _ _ _ _ (by decide))
  exact (lkState_eq hp _).trans hst

theorem page_ne_ffl (p q : Nat) : pgLNK q ≠ pgFFL p ∧ pgSCH (cellarOf q) ≠ pgFFL p := by
  simp only [pgLNK, pgFFL, pgSCH, celPage, pageIx]
  omega

/-- The port before its mode is chosen anew and its packet cut short. -/
def leaving (s : State) (p : Nat) : State := (left s p).onlyIf ((left s p).isFfl p) fun t => t.linkRetrain p true

theorem getF_leaving (hp : p < 64) (s : State) {pg i : Nat} {f : FRef} (hpg : pg ≠ pgFFL p) (ho : f.off + f.stride * i < 4096) :
    (leaving s p).getF pg f i = (left s p).getF pg f i := by
  unfold leaving
  generalize left s p = a
  cases a.isFfl p
  · rfl
  · exact (congrArg (fun u : State => u.getF pg f i) (linkRetrain_eq hp a true)).trans (getF_retrainRegs_other hpg ho a)

/-- What leaving L0 does after that. -/
theorem leaveL0_cuts {R : State → State → Prop} (hR : Cuts R) (hp : p < 64) (s : State) : R (leaving s p) (s.leaveL0 p) := by
  rw [leaveL0_eq hp]
  exact hR.trans (hR.portMode _ hp false) (hR.cutShort _ p)

theorem fper_off (p : Nat) : SCH_PORTSTS.FPER.off + SCH_PORTSTS.FPER.stride * State.localPort p < 4096 := by
  simp only [SCH_PORTSTS.FPER, State.localPort]
  omega

/-- What leaving L0 does to a port. -/
theorem leaveL0_frame (hp : p < 64) (s : State) : (s.leaveL0 p).linkState p = 5 ∧ (s.leaveL0 p).flag (pgLNK p) LNK_STS.UP = false ∧
    (s.leaveL0 p).fper p = 0 := by
  obtain ⟨hst, hup, hper⟩ := left_frame s p
  refine ⟨?_, ?_, ?_⟩
  · exact (leaveL0_cuts (cuts_link p (by decide)) hp s).trans ((getF_leaving hp s (page_ne_ffl p p).1 (by decide)).trans hst)
  · exact (congrArg (· == 1) ((leaveL0_cuts (cuts_link p (by decide)) hp s).trans (getF_leaving hp s (page_ne_ffl p p).1 (by decide)))).trans hup
  · exact (leaveL0_cuts (cuts_fper p) hp s).trans ((getF_leaving hp s (page_ne_ffl p p).2 (fper_off p)).trans hper)

theorem isFfl_left (s : State) (p : Nat) : (left s p).isFfl p = s.isFfl p := by
  have hne : ∀ f : FRef, f ∈ [LNK_STS.STATE, LNK_STS.UP] → State.fkey (pgLNK p) LNK_CFG.EN 0 ≠ State.fkey (pgLNK p) f 0 := by
    intro f hf
    fin_cases hf <;> simp [State.fkey, LNK_CFG.EN, LNK_STS.STATE, LNK_STS.UP]
  refine isFfl_of_reg ?_
  refine (reg_setF ..).trans ((if_neg (fkey_fper_ne p p (by decide))).trans ?_)
  refine (reg_setF ..).trans ((if_neg (hne LNK_STS.UP (by simp))).trans ?_)
  exact (reg_setF ..).trans (if_neg (hne LNK_STS.STATE (by simp)))

/-- An FFL port that leaves L0 is in RETRAIN, and asks for no width any more. -/
theorem leaveL0_ffl (hp : p < 64) (hf : s.isFfl p = true) : (s.leaveL0 p).lkState p = 4 ∧ ((s.leaveL0 p).fflSt p).req = none := by
  have hleft : leaving s p = (left s p).linkRetrain p true := by
    unfold leaving
    rw [(isFfl_left s p).trans hf]
    rfl
  obtain ⟨hst, hreq⟩ := linkRetrain_frame hp (left s p) true
  rw [← hleft] at hst hreq
  refine ⟨?_, ?_⟩
  · rw [lkState_eq hp] at hst ⊢
    exact (leaveL0_cuts (cuts_ffl p (by decide)) hp s).trans hst
  · have hffl : (s.leaveL0 p).ffl = (leaving s p).ffl := leaveL0_cuts (cuts_part (g := State.ffl) fun _ _ h => (congrArg State.ffl h :)) hp s
    exact (congrArg (fun m => (storeGet (fun _ => FflSt.init) m p).req) hffl).trans hreq

/-! ### Requests for a width -/

theorem linkActive_of (hp : p < 64) (hf : s.isFfl p = true) (hst : s.lkState p = 3) : s.linkActive p = true := by
  simp [State.linkActive, State.hasLink, hp, hf, hst]

/-- A message that waits for a CTRL flit. -/
theorem ctrlAdd_frame (s : State) (p : Nat) (m : CtrlMsg) : (s.ctrlAdd p m).fflSt p = { s.fflSt p with ctrl := (s.fflSt p).ctrl ++ [(m, 1)] } ∧
    ((s.ctrlAdd p m).port p).upkeep ≠ [] ∧ (s.ctrlAdd p m).regs = s.regs ∧ (s.ctrlAdd p m).packets = s.packets ∧ (s.ctrlAdd p m).firing = s.firing := by
  refine ⟨fflSt_modFfl_self s p fun x => { x with ctrl := x.ctrl ++ [(m, 1)] }, ?_, rfl, rfl, rfl⟩
  have hport : ∀ u : State, ((u.upkeepDue p).port p).upkeep ≠ [] := by
    intro u
    rw [State.upkeepDue, State.upkeepFrom, port_modPort_self]
    dsimp only
    repeat' split
    all_goals simp
  exact hport (s.modFfl p fun x => { x with ctrl := x.ctrl ++ [(m, 1)] })

theorem withAccess_fflReq {who : Requester} (hp : p < 64) (hg : s.grants who (pgFFL p) FFL_CTL.REQ = true) (g : State → State) :
    s.withAccess who (State.offOf (pgFFL p) FFL_CTL.REQ) 4 true g = g s := by
  have hreg : findReg (allRegs .ffl) 0xA0 = some (⟨0xA0, 0, 1, false, 0x0, [fd 31 31 .wo, fd 4 0 .wo]⟩, 0) := by decide +kernel
  refine withAccess_narrow g hg (latchKey_narrow (r := (⟨0xA0, 0, 1, false, 0x0, [fd 31 31 .wo, fd 4 0 .wo]⟩, 0)) (by decide) ?_ rfl
    (show (0xA0 : Nat) ≠ 0x100 by decide))
  rw [regAt, (pageKind_port p hp).2.1]
  exact hreg

/-- A port that asks for a width. -/
def asking (s : State) (p w : Nat) : State :=
  (s.modFfl p fun x => { x with req := some (w, 0, (s.fflSt p).reqTag % 65536), reqAt := s.ticks, reqTag := (s.fflSt p).reqTag % 65536 + 1 }).setF
    (pgFFL p) FFL_STS.REQ_PEND 1

theorem fflReqCmd_asks {who : Requester} {w : Nat} (hinv : s.Inv) (hp : p < 64) (hf : s.isFfl p = true) (hst : s.lkState p = 3)
    (hg : s.grants who (pgFFL p) FFL_CTL.REQ = true) (hw : w ∈ [4, 8, 16]) (hreq : (s.fflSt p).req = none) : ∃ t,
    exec (.fflReqCmd who p w) s = .next t ∧ (t.fflSt p).req = some (w, 0, (s.fflSt p).reqTag % 65536) ∧ t.flag (pgFFL p) FFL_STS.REQ_PEND = true ∧
    t.lkState p = 3 ∧ t.packets = s.packets := by
  have hreqs : s.fflRequest p w 0 = (asking s p w).ctrlAdd p (.linkReq w 0 ((s.fflSt p).reqTag % 65536)) := by
    simp only [State.fflRequest, hst, if_true, hreq, setL_eq hp]
    rfl
  have hrun : exec (.fflReqCmd who p w) s = ((asking s p w).ctrlAdd p (.linkReq w 0 ((s.fflSt p).reqTag % 65536))).done := by
    have hok : (if p < 64 then [4, 8, 16].contains w else [1, 2, 4].contains w) = true := by
      rw [if_pos hp]
      exact List.contains_iff_mem.2 hw
    show execFflReqCmd who p w s = _
    rw [execFflReqCmd, lkPage, lkRef, if_pos hp, if_pos hp, withAccess_fflReq hp hg]
    dsimp only
    rw [hok, linkActive_of hp hf hst, hreq, hreqs]
    rfl
  have hask : (asking s p w).fflSt p = { s.fflSt p with
      req := some (w, 0, (s.fflSt p).reqTag % 65536), reqAt := s.ticks, reqTag := (s.fflSt p).reqTag % 65536 + 1 } :=
    fflSt_modFfl_self s p fun x => { x with
      req := some (w, 0, (s.fflSt p).reqTag % 65536), reqAt := s.ticks, reqTag := (s.fflSt p).reqTag % 65536 + 1 }
  have hpend : (asking s p w).flag (pgFFL p) FFL_STS.REQ_PEND = true := congrArg (· == 1) (getF_setF_self _ _ _ _ _ (by decide))
  have hstate : (asking s p w).getF (pgFFL p) FFL_STS.STATE = 3 :=
    (getF_setF_other _ _ _ _ _ _ _ _ (.inr (.inl (by decide)))).trans ((lkState_eq hp s).symm.trans hst)
  have hpk : (asking s p w).packets = s.packets ∧ (asking s p w).firing = [] := ⟨rfl, hinv.quiet⟩
  generalize asking s p w = a at hrun hask hpend hstate hpk
  obtain ⟨hffl, -, hregs, hpackets, hfiring⟩ := ctrlAdd_frame a p (.linkReq w 0 ((s.fflSt p).reqTag % 65536))
  generalize a.ctrlAdd p (.linkReq w 0 ((s.fflSt p).reqTag % 65536)) = t at hrun hffl hregs hpackets hfiring
  have hreg (f : FRef) : t.getF (pgFFL p) f = a.getF (pgFFL p) f := getF_of_reg (congrArg (fun m => storeGet regReset m _) hregs)
  refine ⟨_, hrun.trans (Spine.done_quiet (hfiring.trans hpk.2)), ?_, (congrArg (· == 1) (hreg _)).trans hpend, ?_, hpackets.trans hpk.1⟩
  · exact (congrArg FflSt.req hffl).trans (by rw [hask])
  · exact (lkState_eq hp t).trans ((hreg _).trans hstate)

theorem retrainAt_frame (hp : p < 64) (hf : s.isFfl p = true) (hst : s.lkState p = 3) (w : Nat) : (s.retrainAt p w).lkState p = 4 ∧
    (s.retrainAt p w).fper p = 0 ∧ ((s.retrainAt p w).fflSt p).req = none := by
  have hgo : s.retrainAt p w = (s.modFfl p fun x => { x with granted := some w }).leaveL0 p := by
    have h3 : (s.modFfl p fun x => { x with granted := some w }).lkState p = 3 := hst
    simp only [State.retrainAt, State.enterRetrain, h3, if_true]
  have hf' : (s.modFfl p fun x => { x with granted := some w }).isFfl p = true := hf
  rw [hgo]
  exact ⟨(leaveL0_ffl hp hf').1, (leaveL0_frame hp _).2.2, (leaveL0_ffl hp hf').2⟩

theorem retrainAt_done (hp : p < 64) (hf : s.isFfl p = true) (hst : s.lkState p = 3) {e : Instr} {w : Nat} (hrun : exec e s = (s.retrainAt p w).done) : ∃ t,
    exec e s = .next t ∧ t.lkState p = 4 ∧ t.fper p = 0 ∧ (t.fflSt p).req = none := by
  obtain ⟨h1, h2, h3⟩ := retrainAt_frame hp hf hst w
  exact ⟨_, hrun.trans (done_next _), (lkState_closed hp _).trans h1, (fper_closed hp _).trans h2, (congrArg FflSt.req (fflSt_closed _ p)).trans h3⟩

theorem fflLinkgoReceive_retrains {w cause tag : Nat} (hp : p < 64) (hf : s.isFfl p = true) (hst : s.lkState p = 3)
    (hreq : (s.fflSt p).req = some (w, cause, tag)) : ∃ t, exec (.fflLinkgoReceive p w tag) s = .next t ∧ t.lkState p = 4 ∧ t.fper p = 0 ∧
    (t.fflSt p).req = none := by
  refine retrainAt_done (w := w) hp hf hst ?_
  show execFflLinkgoReceive p w tag s = _
  simp only [execFflLinkgoReceive, hreq, linkActive_of hp hf hst, beq_self_eq_true, Bool.and_self, if_true]

theorem fflLinkreqTimeout_retrains {w cause tag : Nat} (hp : p < 64) (hf : s.isFfl p = true) (hst : s.lkState p = 3)
    (hreq : (s.fflSt p).req = some (w, cause, tag)) (ht : (s.fflSt p).reqAt + 10000 ≤ s.ticks) : ∃ t,
    exec (.fflLinkreqTimeout p) s = .next t ∧ t.lkState p = 4 ∧ t.fper p = 0 ∧ (t.fflSt p).req = none := by
  refine retrainAt_done (w := w) hp hf hst ?_
  show execFflLinkreqTimeout p s = _
  simp only [execFflLinkreqTimeout, hreq, linkActive_of hp hf hst, ht, decide_true, Bool.and_self, if_true]

/-- A port that has granted a width. -/
def granting (s : State) (p w : Nat) : State := s.modFfl p fun x => { x with granted := some w, ctrl := x.ctrl.filter fun m => !isGo m.1 }

theorem fflLinkreqReceive_grants {w tag : Nat} (hinv : s.Inv) (hp : p < 64) (hf : s.isFfl p = true) (hst : s.lkState p = 3)
    (hreq : (s.fflSt p).req = none) (hw : s.widest p ≠ 0) : ∃ t, exec (.fflLinkreqReceive p w tag) s = .next t ∧ t.lkState p = 3 ∧
    (t.fflSt p).granted = some (min w (s.widest p)) ∧ (CtrlMsg.linkGo (min w (s.widest p)) tag, 1) ∈ (t.fflSt p).ctrl ∧
    (t.port p).upkeep ≠ [] ∧ t.packets = s.packets := by
  have hrun : exec (.fflLinkreqReceive p w tag) s = ((granting s p (min w (s.widest p))).ctrlAdd p (.linkGo (min w (s.widest p)) tag)).done := by
    show execFflLinkreqReceive p w tag s = _
    simp only [execFflLinkreqReceive, linkActive_of hp hf hst, if_true, State.linkReqArrives, hreq, State.grantLink, hw, if_false]
    rfl
  have hgr : (granting s p (min w (s.widest p))).fflSt p = { s.fflSt p with
      granted := some (min w (s.widest p)), ctrl := (s.fflSt p).ctrl.filter fun m => !isGo m.1 } := fflSt_modFfl_self ..
  have hwas : (granting s p (min w (s.widest p))).lkState p = 3 ∧ (granting s p (min w (s.widest p))).packets = s.packets ∧
      (granting s p (min w (s.widest p))).firing = [] := ⟨hst, rfl, hinv.quiet⟩
  generalize granting s p (min w (s.widest p)) = a at hrun hgr hwas
  obtain ⟨hffl, hup, hregs, hpk, hfiring⟩ := ctrlAdd_frame a p (.linkGo (min w (s.widest p)) tag)
  generalize a.ctrlAdd p (.linkGo (min w (s.widest p)) tag) = t at hrun hffl hup hregs hpk hfiring
  refine ⟨_, hrun.trans (Spine.done_quiet (hfiring.trans hwas.2.2)), ?_, ?_, ?_, hup, hpk.trans hwas.2.1⟩
  · exact (lkState_eq hp t).trans ((getF_of_reg (congrArg (fun m => storeGet regReset m _) hregs)).trans ((lkState_eq hp a).symm.trans hwas.1))
  · exact (congrArg FflSt.granted hffl).trans (by rw [hgr])
  · exact (congrArg FflSt.ctrl hffl).symm ▸ List.mem_append_right _ List.mem_cons_self

/-! ### The loss of the link -/

/-- The cleanup of a port's loss is due. -/
def Due (p : Nat) (s : State) : Prop := (s.port p).cleanup = true

theorem due_portDown (s : State) (p st : Nat) (r : Bool) : Due p (s.portDown p st r) := by
  unfold State.portDown
  extract_lets s2 s3 s4
  have h3 : Due p s3 := congrArg PortSt.cleanup (port_modPort_self ..)
  have h4 : Due p s4 := (PortKept.each (π := PortSt.cleanup) (fun t l _ => portKept_setLock t l false) s3 p).trans h3
  have h5 : Due p (s4.portMode p false) := (portKept_portMode (π := PortSt.cleanup) (fun _ _ _ => rfl) s4 p false p).trans h4
  unfold State.capacity
  split <;> exact h5

/-- What a link's loss does once its fields show it. -/
theorem portDown_fades {R : State → State → Prop} (hR : Fades R) (hp : p < 64) (s : State) (st : Nat) (r : Bool) :
    R (s.linkFields p st) (s.portDown p st r) := by
  unfold State.portDown
  extract_lets s2 s3 s4
  have h3 : R s2 s3 := hR.trans (hR.linkGone s2 hp) (hR.ports _ p _)
  have h4 : R s3 s4 := hR.each _ (fun t l _ => hR.setLock t l false) s3
  exact hR.trans (hR.trans h3 h4) (hR.trans (hR.portMode s4 hp false) (hR.capacity ..))

theorem linkFields_frame (s : State) (p st : Nat) : (s.linkFields p st).linkState p = st % 16 ∧ (s.linkFields p st).fper p = 0 := by
  refine ⟨?_, fper_setFper _ _ _⟩
  have hlater : ∀ f ∈ [LNK_STS.UP, LNK_STS.WIDTH, LNK_STS.RATE, LNK_STS.REVERSED, LNK_STS.FLIT, LNK_STS.CXL], ∀ (t : State) v,
      (t.setF (pgLNK p) f v).getF (pgLNK p) LNK_STS.STATE = t.getF (pgLNK p) LNK_STS.STATE := by
    intro f hf t v
    refine getF_setF_other _ _ _ _ _ _ _ _ (.inr ?_)
    fin_cases hf <;> decide
  refine (getF_setFper _ _ _ _ (by decide)).trans ?_
  unfold State.setFlag
  rw [hlater _ (by simp), hlater _ (by simp), hlater _ (by simp), hlater _ (by simp), hlater _ (by simp), hlater _ (by simp)]
  exact getF_setF_self _ _ _ _ _ (by decide)

theorem getF_linkFields_other (s : State) (p st : Nat) {pg i : Nat} {f : FRef} (hpg : pg ≠ pgLNK p) (hsch : pg ≠ pgSCH (cellarOf p))
    (ho : f.off + f.stride * i < 4096) : (s.linkFields p st).getF pg f i = s.getF pg f i := by
  have hset : ∀ g ∈ [LNK_STS.STATE, LNK_STS.UP, LNK_STS.WIDTH, LNK_STS.RATE, LNK_STS.REVERSED, LNK_STS.FLIT, LNK_STS.CXL], ∀ (t : State) v,
      (t.setF (pgLNK p) g v).getF pg f i = t.getF pg f i := by
    intro g hg t v
    have hall : ∀ g ∈ [LNK_STS.STATE, LNK_STS.UP, LNK_STS.WIDTH, LNK_STS.RATE, LNK_STS.REVERSED, LNK_STS.FLIT, LNK_STS.CXL],
      g.off + g.stride * 0 < 4096 := by decide
    exact getF_setF_other _ _ _ _ _ _ _ _ (.inl (fkey_ne_of_off ho (hall g hg) (.inl hpg)))
  refine (getF_setF_other _ _ _ _ _ _ _ _ (.inl (fkey_ne_of_off ho (fper_off p) (.inl hsch)))).trans ?_
  unfold State.setFlag
  rw [hset _ (by simp), hset _ (by simp), hset _ (by simp), hset _ (by simp), hset _ (by simp), hset _ (by simp), hset _ (by simp)]

theorem portDown_frame (hp : p < 64) (s : State) (st : Nat) (r : Bool) : (s.portDown p st r).linkState p = st % 16 ∧ (s.portDown p st r).fper p = 0 ∧
    (s.portDown p st r).hbm = s.hbm ∧
    ∀ f : FRef, f.stride = 0 ∧ 0x80 ≤ f.off ∧ f.off < 4096 → (s.portDown p st r).getF (pgFFL p) f = s.getF (pgFFL p) f := by
  obtain ⟨hst, hper⟩ := linkFields_frame s p st
  refine ⟨(portDown_fades (fades_sameField (spared_link p (by decide))) hp s st r).trans hst,
    (portDown_fades (fades_sameField (spared_fper p)) hp s st r).trans hper,
    portDown_fades (cuts_part (g := State.hbm) fun _ _ h => (congrArg State.hbm h :)).toFades hp s st r, fun f hf => ?_⟩
  refine (portDown_fades (fades_sameField (spared_ffl p hf)) hp s st r).trans (getF_linkFields_other s p st ?_ ?_ (by omega))
  · exact (page_ne_ffl p p).1.symm
  · exact (page_ne_ffl p p).2.symm

/-- The registers of a fabric port whose link is lost. -/
def downRegs (s : State) (p cause : Nat) : State :=
  ((((s.setFlag (pgFFL p) FFL_STS.LDOWN true).setF (pgFFL p) FFL_STS.LD_CAUSE cause).fireL p 2).setF (pgFFL p) FFL_STS.STATE 0).setFlag (pgFFL p)
    FFL_STS.REQ_PEND false

theorem fflDown_eq (hld : s.flag (pgFFL p) FFL_STS.LDOWN = false) (st cause : Nat) (r : Bool) :
    s.fflDown p st cause r = (downRegs s p cause).portDown p st r := by
  rw [State.fflDown, hld]
  rfl

theorem getF_fireL (s : State) (p b pg : Nat) (f : FRef) (i : Nat) : (s.fireL p b).getF pg f i = s.getF pg f i := by
  unfold State.fireL
  repeat' split
  all_goals rfl

theorem hbm_fireL (s : State) (p b : Nat) : (s.fireL p b).hbm = s.hbm := by
  unfold State.fireL
  repeat' split
  all_goals rfl

theorem downRegs_frame (s : State) (p cause : Nat) : (downRegs s p cause).getF (pgFFL p) FFL_STS.STATE = 0 ∧
    (downRegs s p cause).getF (pgFFL p) FFL_STS.LDOWN = 1 ∧ (downRegs s p cause).getF (pgFFL p) FFL_STS.LD_CAUSE = cause % 4 ∧
    (downRegs s p cause).hbm = s.hbm := by
  have hkeep : ∀ (u : State) (f g : FRef) (v : Nat), g.hi < f.lo ∨ f.hi < g.lo → (u.setF (pgFFL p) g v).getF (pgFFL p) f = u.getF (pgFFL p) f :=
    fun u f g v h => getF_setF_other _ _ _ _ _ _ _ _ (.inr h)
  have hlate : ∀ (u : State) (f : FRef), FFL_STS.REQ_PEND.hi < f.lo ∨ f.hi < FFL_STS.REQ_PEND.lo → FFL_STS.STATE.hi < f.lo ∨ f.hi < FFL_STS.STATE.lo →
      (((u.fireL p 2).setF (pgFFL p) FFL_STS.STATE 0).setFlag (pgFFL p) FFL_STS.REQ_PEND false).getF (pgFFL p) f = u.getF (pgFFL p) f := by
    intro u f h1 h2
    rw [State.setFlag, hkeep _ _ _ _ h1, hkeep _ _ _ _ h2, getF_fireL]
  unfold downRegs
  refine ⟨?_, ?_, ?_, ?_⟩
  · rw [State.setFlag, hkeep _ _ _ _ (by decide)]
    exact getF_setF_self _ _ _ _ _ (by decide)
  · rw [hlate _ _ (by decide) (by decide), hkeep _ _ _ _ (by decide)]
    exact getF_setF_self _ _ _ _ _ (by decide)
  · rw [hlate _ _ (by decide) (by decide)]
    exact getF_setF_self _ _ _ _ _ (by decide)
  · exact hbm_fireL ((s.setFlag (pgFFL p) FFL_STS.LDOWN true).setF (pgFFL p) FFL_STS.LD_CAUSE cause) p 2

/-- What the loss of a fabric link does, by the end of the command. -/
theorem linkDown_ffl_done (hp : p < 64) (hf : s.isFfl p = true) (hld : s.flag (pgFFL p) FFL_STS.LDOWN = false) (st : Nat) {cause : Nat} (hc : cause < 4)
    (r : Bool) : ∃ t, (s.linkDown p st cause r).done = .next t ∧ t.linkState p = st % 16 ∧ t.lkState p = 0 ∧ t.flag (pgFFL p) FFL_STS.LDOWN = true ∧
    t.fper p = 0 ∧ t.getF (pgFFL p) FFL_STS.LD_CAUSE = cause ∧ (t.port p).cleanup = true ∧ t.hbm = s.hbm := by
  have hrun : s.linkDown p st cause r = (downRegs s p cause).portDown p st r := by
    rw [State.linkDown, if_neg (by omega), if_pos hf, fflDown_eq hld]
  obtain ⟨hstate, hldown, hcause, hhbm⟩ := downRegs_frame s p cause
  rw [hrun]
  generalize downRegs s p cause = a at hstate hldown hcause hhbm
  obtain ⟨hst, hper, hmem, hregs⟩ := portDown_frame hp a st r
  have hdue := due_portDown a p st r
  generalize a.portDown p st r = t at hst hper hmem hregs hdue
  refine ⟨_, done_next t, (getF_link_closed hp (by decide) t).trans hst, ?_, ?_, (fper_closed hp t).trans hper, ?_, ?_, (settle_hbm t).trans (hmem.trans hhbm)⟩
  · exact (lkState_closed hp t).trans ((lkState_eq hp t).trans ((hregs _ (by decide)).trans hstate))
  · exact congrArg (· == 1) ((getF_ffl_closed hp (by decide) t).trans ((hregs _ (by decide)).trans hldown))
  · exact (getF_ffl_closed hp (by decide) t).trans ((hregs _ (by decide)).trans (hcause.trans (Nat.mod_eq_of_lt hc)))
  · exact (congrArg PortSt.cleanup (port_closed t p)).trans hdue

theorem withAccess_lnkCtl {who : Requester} {f : FRef} (hp : p < 64) (hf : f.off = 0x88 ∧ f.stride = 0) (hg : s.grants who (pgLNK p) f = true)
    (g : State → State) : s.withAccess who (State.offOf (pgLNK p) f) 4 true g = g s := by
  have hreg : findReg (allRegs .lnk) 0x88 = some (⟨0x88, 0, 1, false, 0x0, [fd 31 31 .wo, fd 30 30 .wo, fd 29 29 .rw]⟩, 0) := by decide +kernel
  refine withAccess_narrow g hg (latchKey_narrow (r := (⟨0x88, 0, 1, false, 0x0, [fd 31 31 .wo, fd 30 30 .wo, fd 29 29 .rw]⟩, 0)) (by omega) ?_ rfl
    (show (0x88 : Nat) ≠ 0x100 by decide))
  rw [hf.1, hf.2, regAt, (pageKind_port p hp).1]
  exact hreg

theorem portEn_of_isFfl (hf : s.isFfl p = true) : s.portEn p = true := (Bool.and_eq_true_iff.1 hf).1

theorem lnkDisableSet_down {who : Requester} (hp : p < 64) (hf : s.isFfl p = true) (hg : s.grants who (pgLNK p) LNK_CTL.DISABLE = true)
    (hdis : s.flag (pgLNK p) LNK_CTL.DISABLE = false) (hld : s.flag (pgFFL p) FFL_STS.LDOWN = false) : ∃ t,
    exec (.lnkDisableSet who p) s = .next t ∧ t.linkState p = 7 ∧ t.lkState p = 0 ∧ t.flag (pgFFL p) FFL_STS.LDOWN = true ∧ t.fper p = 0 ∧
    t.getF (pgFFL p) FFL_STS.LD_CAUSE = 3 ∧ (t.port p).cleanup = true ∧ t.hbm = s.hbm := by
  have hrun : exec (.lnkDisableSet who p) s = ((s.setFlag (pgLNK p) LNK_CTL.DISABLE true).linkDown p 7 3 false).done := by
    show execLnkDisableSet who p s = _
    rw [execLnkDisableSet, withAccess_lnkCtl hp ⟨rfl, rfl⟩ hg, State.setDisable, hdis, portEn_of_isFfl hf]
    rfl
  have hf' : (s.setFlag (pgLNK p) LNK_CTL.DISABLE true).isFfl p = true :=
    (isFfl_of_reg ((reg_setF ..).trans (if_neg (fkey_ne_of_off (by decide) (by decide) (.inr (by decide)))))).trans hf
  have hld' : (s.setFlag (pgLNK p) LNK_CTL.DISABLE true).flag (pgFFL p) FFL_STS.LDOWN = false :=
    (congrArg (· == 1) (getF_setF_other _ _ _ _ _ _ _ _ (.inl (fkey_ne_of_off (by decide) (by decide) (.inl (page_ne_ffl p p).1.symm))))).trans hld
  have hhbm : (s.setFlag (pgLNK p) LNK_CTL.DISABLE true).hbm = s.hbm := rfl
  generalize s.setFlag (pgLNK p) LNK_CTL.DISABLE true = a at hrun hf' hld' hhbm
  obtain ⟨t, ht, hst, hlk, hdown, hper, hcause, hdue, hmem⟩ := linkDown_ffl_done hp hf' hld' 7 (cause := 3) (by decide) false
  exact ⟨t, hrun.trans ht, hst, hlk, hdown, hper, hcause, hdue, hmem.trans hhbm⟩

theorem fflLockLossTimeout_down {t0 : Nat} (hp : p < 64) (hf : s.isFfl p = true) (hlost : (s.port p).lockLost = some t0)
    (ht0 : t0 + 1000 * s.getF (pgFFL p) FFL_DOWN_T.US ≤ s.ticks) (hld : s.flag (pgFFL p) FFL_STS.LDOWN = false) : ∃ t,
    exec (.fflLockLossTimeout p) s = .next t ∧ t.lkState p = 0 ∧ t.flag (pgFFL p) FFL_STS.LDOWN = true ∧ t.fper p = 0 ∧
    t.getF (pgFFL p) FFL_STS.LD_CAUSE = 0 ∧ (t.port p).cleanup = true ∧ t.hbm = s.hbm := by
  have hlink : s.hasLink p = true := by simp [State.hasLink, hp, hf]
  have hrun : exec (.fflLockLossTimeout p) s = (s.linkDown p (s.restState p) 0 false).done := by
    show execFflLockLossTimeout p s = _
    simp only [execFflLockLossTimeout, hlost, hlink, getL_eq hp, ht0, decide_true, Bool.and_self, if_true]
  obtain ⟨t, ht, -, hlk, hdown, hper, hcause, hdue, hmem⟩ := linkDown_ffl_done hp hf hld (s.restState p) (cause := 0) (by decide) false
  exact ⟨t, hrun.trans ht, hlk, hdown, hper, hcause, hdue, hmem⟩

/-! ### The actions of Table 8.9 -/

/-- Link layers and cleanups are as they were. -/
def Rests (s t : State) : Prop := t.ffl = s.ffl ∧ PortKept PortSt.cleanup s t

theorem rests_of_eq (hf : t.ffl = s.ffl) (hp : t.ports = s.ports) : Rests s t := ⟨hf, portKept_of_ports hp⟩

theorem rests_addF (s : State) (pg : Nat) (f : FRef) (n i : Nat) : Rests s (s.addF pg f n i) := rests_of_eq rfl rfl

/-- Answers to requests leave link layers and cleanups. -/
theorem carries_rests : Carries (fun _ => True) Rests where
  refl s := ⟨rfl, .refl s⟩
  trans h1 h2 := ⟨h2.1.trans h1.1, h1.2.trans h2.2⟩
  data s t h := rests_of_eq (h.same State.ffl) (h.same State.ports)
  unreserve _ _ := rests_of_eq rfl rfl
  add _ _ := rests_of_eq rfl rfl
  lostCpl _ _ _ _ := rests_of_eq rfl rfl
  interrupt _ _ _ := rests_of_eq rfl rfl
  setF _ _ _ _ _ _ := rests_of_eq rfl rfl
  aer s q f hf := ⟨rfl, portKept_modPort fun x => by
    obtain ⟨a, ha⟩ := hf x
    rw [ha]⟩
  xfer _ _ _ _ _ := rests_of_eq rfl rfl
  lists _ _ _ := rests_of_eq rfl rfl
  drop _ _ _ := rests_of_eq rfl rfl
  mod _ _ _ _ := rests_of_eq rfl rfl

theorem rests_queueLeft (s : State) (q : Nat) : Rests s (s.queueLeft q) := by
  unfold State.queueLeft
  split <;> exact rests_of_eq rfl rfl

theorem rests_writeLost (s : State) (k : Packet) (a b : Nat) : Rests s (s.writeLost k a b) := by
  unfold State.writeLost
  extract_lets already s1
  have h1 : Rests s s1 := rests_of_eq rfl rfl
  split
  · exact h1
  · exact carries_rests.trans h1 (carries_rests.failLater s1 k a b)

theorem rests_breakStream (s : State) (k c : Nat) : Rests s (s.breakStream k c) := by
  have hR := carries_rests
  unfold State.breakStream
  extract_lets n x pg gone waits s0 s1 lost s2 s3 r s4
  have h0 : Rests s s0 := hR.trans (b := { s with packets := s.packets.filter fun p => !(waits.any (·.id == p.id)) }) (rests_of_eq rfl rfl)
    (hR.each _ (fun t q _ => rests_queueLeft t _) _)
  have h1 : Rests s0 s1 := rests_of_eq rfl rfl
  have h2 : Rests s1 s2 := hR.each _ (fun t y _ => by
    repeat' split
    · exact rests_writeLost t ..
    · exact hR.reply t ..
    · exact hR.refl t) s1
  have h3 : Rests s2 s3 := rests_of_eq rfl rfl
  have h4 : Rests s3 s4 := by
    simp only [s4]
    split <;> exact rests_of_eq rfl rfl
  split
  · exact hR.refl s
  · exact hR.trans (hR.trans (hR.trans h0 h1) (hR.trans h2 h3)) (hR.trans h4 (hR.fire ..))

theorem rests_rxDiscarded (s : State) (k : Packet) : Rests s (s.rxDiscarded k) := by
  unfold State.rxDiscarded
  dsimp only
  repeat' split
  all_goals exact rests_of_eq rfl rfl

theorem rests_replayStream (s : State) (k : Nat) (e : Ecc) : Rests s (s.replayStream k e) := by
  have hR := carries_rests
  unfold State.replayStream
  extract_lets c x s1
  have h1 : Rests s s1 := hR.each _ (fun t y _ => hR.add t _) s
  split
  · exact rests_breakStream s k 3
  · exact hR.trans h1 (hR.trans (b := s1.modTx k fun y => { y with timer := s.ticks }) (rests_of_eq rfl rfl) (hR.count ..))

/-- The link layer that the actions of Table 8.9 start from anew. -/
theorem fflCleanup_frame (s : State) (p : Nat) (bad : List Nat) : (s.fflCleanup p bad).fflSt p = FflSt.init ∧
    ((s.fflCleanup p bad).port p).cleanup = (s.port p).cleanup := by
  have hR := carries_rests
  unfold State.fflCleanup
  extract_lets me q all own transit ing keys s1 s2 s3
  have h1 : s1.fflSt p = FflSt.init := fflSt_modFfl_self ..
  have h2 : Rests s1 s2 := hR.trans (hR.each _ (fun t n _ => rests_queueLeft t n) s1) (hR.trans (rests_addF _ _ _ _ _) (rests_addF _ _ _ _ _))
  have h3 : Rests s2 s3 := hR.trans (hR.each _ (fun t k _ => rests_rxDiscarded t k) s2) (hR.each _ (fun t k _ => rests_breakStream t k 1) _)
  have h4 := hR.trans h2 (hR.trans h3 (hR.each (keys.filter fun k => !(s3.tx? k).unacked.isEmpty)
    (fun t k _ => rests_replayStream t k (if bad.contains k then .uncorrectable else .ok)) s3))
  exact ⟨(congrArg (fun m => storeGet (fun _ => FflSt.init) m p) h4.1).trans h1, h4.2 p⟩

theorem fflLinkDownCleanupDone_clears (hp : p < 64) (hf : s.isFfl p = true) (hc : (s.port p).cleanup = true) : ∃ t,
    exec (.fflLinkDownCleanupDone ⟨p, []⟩) s = .next t ∧ (t.port p).cleanup = false ∧ t.fflSt p = FflSt.init := by
  have hlink : s.hasLink p = true := by simp [State.hasLink, hp, hf]
  have hrun : exec (.fflLinkDownCleanupDone ⟨p, []⟩) s = ((s.modPort p fun x => { x with cleanup := false }).fflCleanup p []).done := by
    have hdone : s.cleanupDone p [] = (s.modPort p fun x => { x with cleanup := false }).fflCleanup p [] := by
      rw [State.cleanupDone, if_neg (by omega), if_pos hf]
    show execFflLinkDownCleanupDone ⟨p, []⟩ s = _
    rw [execFflLinkDownCleanupDone, hlink, hc, hdone]
    rfl
  have hwas : ((s.modPort p fun x => { x with cleanup := false }).port p).cleanup = false := congrArg PortSt.cleanup (port_modPort_self ..)
  obtain ⟨hffl, hport⟩ := fflCleanup_frame (s.modPort p fun x => { x with cleanup := false }) p []
  generalize (s.modPort p fun x => { x with cleanup := false }).fflCleanup p [] = t at hrun hffl hport
  exact ⟨_, hrun.trans (done_next t), (congrArg PortSt.cleanup (port_closed t p)).trans (hport.trans hwas), (fflSt_closed t p).trans hffl⟩

/-- Settles O33: requests for a width, the loss of the link and its actions, each by its own lemma. -/
theorem fabricLinkRequestsAndDown : Obligations.FabricLinkRequestsAndDown := by
  unfold Obligations.FabricLinkRequestsAndDown
  refine ⟨fun s who p w tag cause hinv hp hf hst => ⟨fun hg hw hreq => fflReqCmd_asks hinv hp hf hst hg hw hreq,
    fflLinkgoReceive_retrains hp hf hst, fflLinkreqTimeout_retrains hp hf hst, fun hreq hw => fflLinkreqReceive_grants hinv hp hf hst hreq hw⟩,
    fun s who p t0 _ hp hf => ⟨fun hg hdis hld => lnkDisableSet_down hp hf hg hdis hld, fun hlost ht0 hld => fflLockLossTimeout_down hp hf hlost ht0 hld,
      fflLinkDownCleanupDone_clears hp hf⟩⟩

end Sys2Proof.FabricLinks
end

section
/-! ## Recovery, training, derating and low power of a port (O28) -/

namespace Sys2Proof.PortTraining

open Sys2Proof Sys2Proof.Machine Sys2Proof.Laws Sys2Proof.Support Sys2Proof.Traffic Sys2Proof.LinkDown Sys2Proof.PortFields Sys2Proof.FabricLinks

variable {s t : State} {p : Nat}

/-! ### What leaving L0 leaves -/

/-- Two fields share no bit of a register. -/
def bitsApart (f g : FRef) : Bool := decide (g.hi < f.lo) || decide (f.hi < g.lo)

theorem getF_setF_apart (s : State) (pg v : Nat) {f g : FRef} (hf : f.stride = 0 ∧ f.off < 4096) (hg : g.stride = 0 ∧ g.off < 4096)
    (h : f.off ≠ g.off ∨ bitsApart f g = true) : (s.setF pg g v).getF pg f = s.getF pg f := by
  refine getF_setF_other _ _ _ _ _ _ _ _ ?_
  rcases h with h | h
  · exact .inl (fkey_ne_of_off (by omega) (by omega) (.inr (by rw [hf.1, hg.1]; omega)))
  · exact .inr (by simpa [bitsApart] using h)

/-- A field of the port's page that leaving L0 keeps. -/
theorem getF_leaveL0 (hp : p < 64) (s : State) {f : FRef} (hf : f.stride = 0 ∧ 0x80 ≤ f.off ∧ f.off < 0xB0)
    (h : f.off ≠ 0x90 ∨ (bitsApart f LNK_STS.STATE && bitsApart f LNK_STS.UP) = true) : (s.leaveL0 p).getF (pgLNK p) f = s.getF (pgLNK p) f := by
  refine (leaveL0_cuts (cuts_link p hf) hp s).trans ((getF_leaving hp s (page_ne_ffl p p).1 (by omega)).trans ?_)
  refine (getF_setFper _ _ _ _ (by omega)).trans ?_
  have h' : (f.off ≠ 0x90 ∨ bitsApart f LNK_STS.STATE = true) ∧ (f.off ≠ 0x90 ∨ bitsApart f LNK_STS.UP = true) := by
    rcases h with h | h
    · exact ⟨.inl h, .inl h⟩
    · exact ⟨.inr (Bool.and_eq_true_iff.1 h).1, .inr (Bool.and_eq_true_iff.1 h).2⟩
  exact (getF_setF_apart _ _ _ (by omega) (by decide) h'.2).trans (getF_setF_apart _ _ _ (by omega) (by decide) h'.1)

theorem aloof_leaveL0 (hp : p < 64) (hf : s.isFfl p = false) : Aloof s (s.leaveL0 p) := by
  have hleft : leaving s p = left s p := by
    unfold leaving
    rw [(isFfl_left s p).trans hf]
    rfl
  have h : s.leaveL0 p = ((left s p).portMode p false).cutShort p := by rw [← hleft]; exact leaveL0_eq hp s
  rw [h]
  exact .trans (b := left s p) rfl ((aloof_portMode ..).trans (aloof_cutShort ..))

/-- What a port's record shows through `π` when the port leaves L0. -/
theorem portKept_leaveL0 {β : Type} {π : PortSt → β} (hmode : ∀ x m v, π { x with mism := m, slip := v } = π x)
    (hleft : ∀ x a b l, π { x with per := a, recAt := b, late := l } = π x)
    (hcut : ∀ x a b c, π { x with sending := a, nullOwed := b, nullAbort := c } = π x) (hp : p < 64) (s : State) : PortKept π s (s.leaveL0 p) := by
  have h1 : PortKept π s (left s p) := portKept_modPort (f := fun x => { x with per := s.fper p, recAt := some s.ticks, late := [] }) fun x => hleft x ..
  have h2 : PortKept π (left s p) ((left s p).onlyIf ((left s p).isFfl p) fun t => t.linkRetrain p true) :=
    .onlyIf (by rw [linkRetrain_eq hp]; exact .refl _)
  rw [leaveL0_eq hp]
  exact (h1.trans h2).trans ((portKept_portMode hmode _ p false).trans (portKept_cutShort hcut _ p))

theorem hbm_of_aloof (h : Aloof s t) : t.hbm = s.hbm := (congrArg State.hbm h :)

theorem trk_of_aloof (h : Aloof s t) : t.trk = s.trk := (congrArg State.trk h :)

/-- A port in L0 that retrains leaves it. -/
theorem retrainSame_eq (hp : p < 64) (hf : s.isFfl p = false) (h0 : s.inL0 p = true) : s.retrainSame p = s.leaveL0 p := by
  rw [State.retrainSame, State.retrain, hf, h0, if_neg (by simp; omega)]
  rfl

theorem linkState_closed (hp : p < 64) (t : State) : t.settle.sweepTrace.linkState p = t.linkState p := getF_link_closed hp (by decide) t

theorem flag_link_closed (hp : p < 64) {f : FRef} (hf : f.stride = 0 ∧ 0x80 ≤ f.off ∧ f.off < 4096) (t : State) :
    t.settle.sweepTrace.flag (pgLNK p) f = t.flag (pgLNK p) f := congrArg (· == 1) (getF_link_closed hp hf t)

theorem lnkRetrain_leaves {who : Requester} (hp : p < 64) (hf : s.isFfl p = false) (h0 : s.inL0 p = true) (hdis : s.portDisabled p = false)
    (hg : s.grants who (pgLNK p) LNK_CTL.RETRAIN = true) : ∃ t, exec (.lnkRetrain who p) s = .next t ∧ t.linkState p = 5 ∧ t.fper p = 0 ∧
    t.flag (pgLNK p) LNK_STS.UP = false ∧ t.hbm = s.hbm := by
  have hrun : exec (.lnkRetrain who p) s = (s.leaveL0 p).done := by
    show execLnkRetrain who p s = _
    rw [execLnkRetrain, withAccess_lnkCtl hp ⟨rfl, rfl⟩ hg, hdis, retrainSame_eq hp hf h0]
    rfl
  obtain ⟨hst, hup, hper⟩ := leaveL0_frame hp s
  have hkeep := aloof_leaveL0 hp hf
  generalize s.leaveL0 p = a at hrun hst hup hper hkeep
  exact ⟨_, hrun.trans (done_next a), (linkState_closed hp a).trans hst, (fper_closed hp a).trans hper,
    (flag_link_closed hp (by decide) a).trans hup, (settle_hbm a).trans (hbm_of_aloof hkeep)⟩

theorem portRecoveryEntry_leaves (hp : p < 64) (hen : s.portEn p = true) (hf : s.isFfl p = false) (h0 : s.inL0 p = true) : ∃ t,
    exec (.portRecoveryEntry p) s = .next t ∧ t.linkState p = 5 ∧ t.fper p = 0 ∧ t.trk = s.trk ∧ t.hbm = s.hbm := by
  have hrun : exec (.portRecoveryEntry p) s = (s.leaveL0 p).done := by
    show execPortRecoveryEntry p s = _
    rw [execPortRecoveryEntry, hf, hen, h0, if_neg (by simp; omega)]
    rfl
  obtain ⟨hst, -, hper⟩ := leaveL0_frame hp s
  have hkeep := aloof_leaveL0 hp hf
  generalize s.leaveL0 p = a at hrun hst hper hkeep
  exact ⟨_, hrun.trans (done_next a), (linkState_closed hp a).trans hst, (fper_closed hp a).trans hper, (settle_trk a).trans (trk_of_aloof hkeep),
    (settle_hbm a).trans (hbm_of_aloof hkeep)⟩

/-! ### CAP -/

theorem getF_lt (s : State) (pg : Nat) (f : FRef) (i : Nat) : s.getF pg f i < 2 ^ (f.hi + 1 - f.lo) := Nat.mod_lt _ (Nat.two_pow_pos _)

/-- The state of a port's link, its role, and its position in L0, as CAP changes. -/
theorem setCap_frame (s : State) (p v : Nat) : (s.setCap p v).getF (pgLNK p) LNK_DERATE.CAP = v % 8 ∧
    (s.setCap p v).flag (pgLNK p) LNK_STS.DERATED = decide (v < s.getF (pgLNK p) LNK_CFG.MAXRATE) ∧
    (s.setCap p v).linkState p = s.linkState p ∧ (s.setCap p v).isFfl p = s.isFfl p ∧ (s.setCap p v).inL0 p = s.inL0 p := by
  have hkeep (f : FRef) (hf : f.stride = 0 ∧ f.off < 4096) (h1 : f.off ≠ 0x90 ∨ bitsApart f LNK_STS.DERATED = true)
      (h2 : f.off ≠ 0x98 ∨ bitsApart f LNK_DERATE.CAP = true) : (s.setCap p v).getF (pgLNK p) f = s.getF (pgLNK p) f :=
    (getF_setF_apart _ _ _ hf (by decide) h1).trans (getF_setF_apart _ _ _ hf (by decide) h2)
  have hst : (s.setCap p v).linkState p = s.linkState p := hkeep _ (by decide) (.inr rfl) (.inl (by decide))
  have hffl : (s.setCap p v).isFfl p = s.isFfl p := by
    have hen := hkeep LNK_CFG.EN (by decide) (.inl (by decide)) (.inl (by decide))
    have hrole := hkeep LNK_CFG.ROLE (by decide) (.inl (by decide)) (.inl (by decide))
    simp only [State.isFfl, State.portEn, State.portRole, State.flag, hen, hrole]
  have hlk : (s.setCap p v).getF (pgFFL p) FFL_STS.STATE = s.getF (pgFFL p) FFL_STS.STATE :=
    (getF_setF_other _ _ _ _ _ _ _ _ (.inl (fkey_ne_of_off (by decide) (by decide) (.inl (page_ne_ffl p p).1.symm)))).trans
      (getF_setF_other _ _ _ _ _ _ _ _ (.inl (fkey_ne_of_off (by decide) (by decide) (.inl (page_ne_ffl p p).1.symm))))
  refine ⟨?_, ?_, hst, hffl, ?_⟩
  · exact (getF_setF_apart _ _ _ (by decide) (by decide) (.inl (by decide))).trans (getF_setF_self _ _ _ _ _ (by decide))
  · exact SlotCommands.flag_setF_self (by decide) _ _
  · rw [State.inL0, State.inL0, hffl, hlk, hst]

theorem lnkRestore_leaves {who : Requester} (hp : p < 64) (hf : s.isFfl p = false) (h0 : s.inL0 p = true) (hdis : s.portDisabled p = false)
    (hg : s.grants who (pgLNK p) LNK_CTL.RESTORE = true) : ∃ t, exec (.lnkRestore who p) s = .next t ∧ t.linkState p = 5 ∧ t.fper p = 0 ∧
    t.getF (pgLNK p) LNK_DERATE.CAP = s.getF (pgLNK p) LNK_CFG.MAXRATE ∧ t.flag (pgLNK p) LNK_STS.DERATED = false := by
  obtain ⟨hcap, hder, -, hffl, hl0⟩ := setCap_frame s p (s.getF (pgLNK p) LNK_CFG.MAXRATE)
  have hrun : exec (.lnkRestore who p) s = ((s.setCap p (s.getF (pgLNK p) LNK_CFG.MAXRATE)).leaveL0 p).done := by
    show execLnkRestore who p s = _
    rw [execLnkRestore, withAccess_lnkCtl hp ⟨rfl, rfl⟩ hg, hdis, if_neg nofun, retrainSame_eq hp (hffl.trans hf) (hl0.trans h0)]
  generalize s.setCap p (s.getF (pgLNK p) LNK_CFG.MAXRATE) = b at hrun hcap hder
  obtain ⟨hst, -, hper⟩ := leaveL0_frame hp b
  have hcap' := (getF_leaveL0 hp b (f := LNK_DERATE.CAP) (by decide) (.inl (by decide))).trans hcap
  have hder' := (congrArg (· == 1) (getF_leaveL0 hp b (f := LNK_STS.DERATED) (by decide) (.inr rfl))).trans hder
  generalize b.leaveL0 p = a at hrun hst hper hcap' hder'
  refine ⟨_, hrun.trans (done_next a), (linkState_closed hp a).trans hst, (fper_closed hp a).trans hper, ?_, ?_⟩
  · exact (getF_link_closed hp (by decide) a).trans (hcap'.trans (Nat.mod_eq_of_lt (getF_lt s _ _ _)))
  · exact (flag_link_closed hp (by decide) a).trans (hder'.trans (decide_eq_false (Nat.lt_irrefl _)))

/-! ### Windows of errors -/

/-- The windows that a port counts. -/
def counted (s : State) (p n : Nat) : State := s.modPort p fun x => { x with errs := 0, winOver := n, winAt := some s.fabric }

theorem exec_derateWindowEnd (hen : s.portEn p = true) (hauto : s.flag (pgLNK p) LNK_DERATE.AUTO = true) (hfab : s.fabric % 1000000 = 0)
    (hwin : (s.port p).winAt ≠ some s.fabric) {n : Nat}
    (hn : n = if s.getF (pgLNK p) LNK_DERATE.THR < (s.port p).errs then (s.port p).winOver + 1 else 0) : exec (.derateWindowEnd p) s =
      if s.getF (pgLNK p) LNK_DERATE.WINS ≤ n ∧ 0 < s.getF (pgLNK p) LNK_STS.RATE then
        (((counted s p n).modPort p fun x => { x with winOver := 0 }).derate p
          (min (s.getF (pgLNK p) LNK_DERATE.CAP - 1) (s.getF (pgLNK p) LNK_STS.RATE - 1)) false).done
      else (counted s p n).done := by
  have hgo : (!s.portEn p || !s.flag (pgLNK p) LNK_DERATE.AUTO || s.fabric % 1000000 != 0 || (s.port p).winAt == some s.fabric) = false := by
    simp [hen, hauto, hfab, hwin]
  show execDerateWindowEnd p s = _
  rw [execDerateWindowEnd, hgo, if_neg nofun]
  have hn' : (if decide (s.getF (pgLNK p) LNK_DERATE.THR < (s.port p).errs) = true then (s.port p).winOver + 1 else 0) = n := by
    rw [hn]
    simp only [decide_eq_true_eq]
  dsimp only
  rw [hn']
  rfl

theorem derateWindowEnd_few (hinv : s.Inv) (hen : s.portEn p = true) (hauto : s.flag (pgLNK p) LNK_DERATE.AUTO = true) (hfab : s.fabric % 1000000 = 0)
    (hwin : (s.port p).winAt ≠ some s.fabric) (hfew : (s.port p).errs ≤ s.getF (pgLNK p) LNK_DERATE.THR) (hw : s.getF (pgLNK p) LNK_DERATE.WINS ≠ 0) :
    exec (.derateWindowEnd p) s = .next (s.modPort p fun x => { x with errs := 0, winOver := 0, winAt := some s.fabric }) := by
  rw [exec_derateWindowEnd (n := 0) hen hauto hfab hwin (if_neg (by omega)).symm, if_neg (by omega)]
  exact done_eq hinv rfl rfl rfl rfl

/-- A port that derates of itself. -/
def derating (s : State) (p rate : Nat) : State :=
  ((s.setCap p rate).modPort p fun x => { x with derated := true }).fire (pgLNK p) 3 (s.portPart p) p

theorem derateWindowEnd_many (hp : p < 64) (hen : s.portEn p = true) (hf : s.isFfl p = false) (h0 : s.inL0 p = true)
    (hauto : s.flag (pgLNK p) LNK_DERATE.AUTO = true) (hfab : s.fabric % 1000000 = 0) (hwin : (s.port p).winAt ≠ some s.fabric)
    (hmany : s.getF (pgLNK p) LNK_DERATE.THR < (s.port p).errs) (hw : s.getF (pgLNK p) LNK_DERATE.WINS ≤ (s.port p).winOver + 1)
    (hrate : 0 < s.getF (pgLNK p) LNK_STS.RATE) : ∃ t, exec (.derateWindowEnd p) s = .next t ∧ t.linkState p = 5 ∧ (t.port p).winOver = 0 ∧
    t.getF (pgLNK p) LNK_DERATE.CAP = min (s.getF (pgLNK p) LNK_DERATE.CAP - 1) (s.getF (pgLNK p) LNK_STS.RATE - 1) := by
  have hrun := exec_derateWindowEnd (n := (s.port p).winOver + 1) hen hauto hfab hwin (if_pos hmany).symm
  rw [if_pos ⟨hw, hrate⟩] at hrun
  obtain ⟨v, hv⟩ : ∃ v, v = min (s.getF (pgLNK p) LNK_DERATE.CAP - 1) (s.getF (pgLNK p) LNK_STS.RATE - 1) := ⟨_, rfl⟩
  have hv8 : v < 8 := by
    have := getF_lt s (pgLNK p) LNK_STS.RATE 0
    rw [show 2 ^ (LNK_STS.RATE.hi + 1 - LNK_STS.RATE.lo) = 8 from rfl] at this
    omega
  rw [← hv] at hrun ⊢
  obtain ⟨b, hb⟩ : ∃ b, b = (counted s p ((s.port p).winOver + 1)).modPort p fun x => { x with winOver := 0 } := ⟨_, rfl⟩
  have hb0 : (b.port p).winOver = 0 ∧ b.isFfl p = false ∧ b.inL0 p = true := by
    rw [hb]
    exact ⟨congrArg PortSt.winOver (port_modPort_self ..), hf, h0⟩
  rw [← hb] at hrun
  obtain ⟨hcap, -, -, hffl, hl0⟩ := setCap_frame b p v
  have hwo : ((derating b p v).port p).winOver = 0 :=
    (congrArg PortSt.winOver (port_modPort_self (s := b.setCap p v) p fun x => { x with derated := true })).trans hb0.1
  have hcap' : (derating b p v).getF (pgLNK p) LNK_DERATE.CAP = v % 8 := hcap
  have hgo : b.derate p v false = (derating b p v).leaveL0 p :=
    retrainSame_eq (s := derating b p v) hp (hffl.trans hb0.2.1) (hl0.trans hb0.2.2)
  rw [hgo] at hrun
  generalize derating b p v = c at hrun hwo hcap'
  obtain ⟨hst, -, -⟩ := leaveL0_frame hp c
  have hcap2 := (getF_leaveL0 hp c (f := LNK_DERATE.CAP) (by decide) (.inl (by decide))).trans hcap'
  have hwo2 : ((c.leaveL0 p).port p).winOver = 0 := (portKept_leaveL0 (π := PortSt.winOver) (fun _ _ _ => rfl) (fun _ _ _ _ => rfl) (fun _ _ _ _ => rfl) hp c p).trans hwo
  generalize c.leaveL0 p = a at hrun hst hcap2 hwo2
  refine ⟨_, hrun.trans (done_next a), (linkState_closed hp a).trans hst, (congrArg PortSt.winOver (port_closed a p)).trans hwo2, ?_⟩
  exact (getF_link_closed hp (by decide) a).trans (hcap2.trans (Nat.mod_eq_of_lt hv8))

/-! ### Low power -/

theorem partnerL0pL1Request_answers (hinv : s.Inv) (hen : s.portEn p = true) (hf : s.isFfl p = false) (h0 : s.inL0 p = true) (low : Bool) :
    exec (.partnerL0pL1Request p low) s = .next (if (s.gatesOf p).any fun g => g.kind == 0 then s.emit (.declined p)
      else (s.emit (.accepted p)).setF (pgLNK p) LNK_STS.STATE (if low then 4 else 6)) := by
  show execPartnerL0pL1Request p low s = _
  rw [execPartnerL0pL1Request, hen, hf, h0, if_neg nofun]
  split
  · exact done_eq hinv rfl rfl rfl rfl
  · exact done_eq hinv rfl rfl rfl rfl

/-! ### Training -/

/-- The registers of a port that comes up. -/
def upRegs (s : State) (p width rate : Nat) : State :=
  (((s.setF (pgLNK p) LNK_STS.STATE 3).setFlag (pgLNK p) LNK_STS.UP true).setFlag (pgLNK p) LNK_STS.LDOWN false).setFper p
    (State.fperOf width rate (decide (5 ≤ rate)))

theorem cuts_emitAll {R : State → State → Prop} (hR : Cuts R) (s : State) (l : List Output) : R s (s.emitAll l) := hR.data s _ rfl

theorem cuts_sendHeld {R : State → State → Prop} (hR : Cuts R) (s : State) (p : Nat) : R s (s.sendHeld p) := hR.data s _ rfl

theorem cuts_restart {R : State → State → Prop} (hR : Cuts R) (hp : p < 64) (s : State) : R s (s.restart p) :=
  hR.trans (hR.clearScores s hp) (hR.ports _ p _)

theorem cuts_markPassed {R : State → State → Prop} (hR : Cuts R) (s : State) (p : Nat) : R s (s.markPassed p) :=
  hR.each _ (fun v k _ => hR.markOut v k.queue k .late) s

/-- What a port's coming up does after its registers show it, for a relation that ageing and attestation keep too. -/
theorem portUp_cuts {R : State → State → Prop} (hR : Cuts R) (hage : ∀ (s : State) a, R s { s with age := a }) (hatt : ∀ (s : State) q, R s (s.attStart q))
    (hp : p < 64) (s : State) (width rate : Nat) : R (upRegs s p width rate) (s.portUp p width rate) := by
  unfold State.portUp
  extract_lets x down f cls s1 s2 s3 s4 src s5 mode
  have h2 : R s1 s2 := hR.onlyIf (hR.trans (hR.trans (hR.each _ (fun u q hq => hR.newlyActive u (portQueues_lt hp hq)) _) (hR.resetPolicers _ hp))
    (hR.onlyIf (cuts_emitAll hR ..)))
  have h3 : R s2 s3 := hR.ports s2 p _
  have h4 : R s3 s4 := hR.trans (hR.trans (hR.trans (hR.onlyIf (hR.trans (cuts_restart hR hp s3) (cuts_sendHeld hR _ p))) (cuts_markPassed hR _ p))
    (hR.portMode _ hp true)) (hR.onlyIf (hR.capacity ..))
  have h5 : R s4 s5 := hage s4 _
  exact hR.trans (hR.trans h2 h3) (hR.trans h4 (hR.trans h5 (hR.onlyIf (hatt s5 p))))

theorem setP_tru_other {pg i : Nat} {f : FRef} (hpg : pg ≠ pgTRU) (ho : f.off + f.stride * i < 4096) (s : State) (q v : Nat) (hq : q < 64) :
    (s.setP pgTRU TRU_ATTSTS.STS 2 (q % 16) v (q / 16)).getF pg f i = s.getF pg f i := by
  refine getF_of_reg ((reg_setReg ..).trans (if_neg (fkey_ne_of_off ho ?_ (.inl hpg))))
  simp only [TRU_ATTSTS.STS]
  omega

theorem sameField_attStart {pg i : Nat} {f : FRef} (hpg : pg ≠ pgTRU) (ho : f.off + f.stride * i < 4096) (s : State) (q : Nat) :
    SameField pg f i s (s.attStart q) := by
  unfold State.attStart
  dsimp only
  split
  · next hq => exact setP_tru_other hpg ho _ q 1 hq
  · rfl

theorem page_ne_tru (p : Nat) : pgLNK p ≠ pgTRU ∧ pgSCH (cellarOf p) ≠ pgTRU := by
  simp only [pgLNK, pgSCH, pgTRU, celPage, pageIx]
  omega

theorem hbm_attStart (s : State) (q : Nat) : (s.attStart q).hbm = s.hbm := by
  unfold State.attStart
  dsimp only
  split <;> rfl

theorem upRegs_frame (s : State) (p : Nat) {width rate : Nat} (hr : State.fperOf width rate (decide (5 ≤ rate)) < 64) :
    (upRegs s p width rate).linkState p = 3 ∧ (upRegs s p width rate).flag (pgLNK p) LNK_STS.UP = true ∧
    (upRegs s p width rate).flag (pgLNK p) LNK_STS.LDOWN = false ∧ (upRegs s p width rate).fper p = State.fperOf width rate (decide (5 ≤ rate)) ∧
    (upRegs s p width rate).getF (pgLNK p) LNK_STS.RATE = s.getF (pgLNK p) LNK_STS.RATE ∧
    (upRegs s p width rate).getF (pgLNK p) LNK_STS.WIDTH = s.getF (pgLNK p) LNK_STS.WIDTH := by
  have hper (u : State) (f : FRef) (hf : f.stride = 0 ∧ f.off < 4096) (v : Nat) : (u.setFper p v).getF (pgLNK p) f = u.getF (pgLNK p) f :=
    getF_setFper _ _ _ _ hf
  have hset (u : State) (v : Nat) {f g : FRef} (hf : f.stride = 0 ∧ f.off < 4096) (hg : g.stride = 0 ∧ g.off < 4096) (h : bitsApart f g = true) :
      (u.setF (pgLNK p) g v).getF (pgLNK p) f = u.getF (pgLNK p) f := getF_setF_apart u _ _ hf hg (.inr h)
  refine ⟨?_, ?_, ?_, (fper_setFper _ _ _).trans (Nat.mod_eq_of_lt hr), ?_, ?_⟩
  · refine (hper _ _ (by decide) _).trans ((hset _ _ (by decide) (by decide) rfl).trans ((hset _ _ (by decide) (by decide) rfl).trans ?_))
    exact getF_setF_self _ _ _ _ _ (by decide)
  · have hup : (upRegs s p width rate).getF (pgLNK p) LNK_STS.UP = 1 :=
      (hper _ LNK_STS.UP (by decide) _).trans ((hset (f := LNK_STS.UP) (g := LNK_STS.LDOWN) _ _ (by decide) (by decide) rfl).trans
        (getF_setF_self (s.setF (pgLNK p) LNK_STS.STATE 3) _ _ _ _ (by decide)))
    exact congrArg (· == 1) hup
  · exact congrArg (· == 1) ((hper _ LNK_STS.LDOWN (by decide) _).trans (getF_setF_self _ _ _ _ _ (by decide)))
  all_goals
    refine (hper _ _ (by decide) _).trans ((hset _ _ (by decide) (by decide) rfl).trans ((hset _ _ (by decide) (by decide) rfl).trans ?_))
    exact hset s _ (by decide) (by decide) rfl

/-- What a port that has come up shows. -/
theorem portUp_frame (hp : p < 64) (s : State) {width rate : Nat} (hr : State.fperOf width rate (decide (5 ≤ rate)) < 64) :
    (s.portUp p width rate).linkState p = 3 ∧ (s.portUp p width rate).flag (pgLNK p) LNK_STS.UP = true ∧
    (s.portUp p width rate).flag (pgLNK p) LNK_STS.LDOWN = false ∧ (s.portUp p width rate).fper p = State.fperOf width rate (decide (5 ≤ rate)) ∧
    (s.portUp p width rate).getF (pgLNK p) LNK_STS.RATE = s.getF (pgLNK p) LNK_STS.RATE ∧
    (s.portUp p width rate).getF (pgLNK p) LNK_STS.WIDTH = s.getF (pgLNK p) LNK_STS.WIDTH ∧ (s.portUp p width rate).hbm = s.hbm := by
  have hlink (f : FRef) (hf : f.stride = 0 ∧ 0x80 ≤ f.off ∧ f.off < 0xB0) :
      (s.portUp p width rate).getF (pgLNK p) f = (upRegs s p width rate).getF (pgLNK p) f :=
    portUp_cuts (cuts_link p hf) (fun _ _ => rfl) (sameField_attStart (page_ne_tru p).1 (by omega)) hp s width rate
  have hper : (s.portUp p width rate).fper p = (upRegs s p width rate).fper p :=
    portUp_cuts (cuts_fper p) (fun _ _ => rfl) (sameField_attStart (page_ne_tru p).2 (fper_off p)) hp s width rate
  have hhbm : (s.portUp p width rate).hbm = (upRegs s p width rate).hbm :=
    portUp_cuts (cuts_part (g := State.hbm) fun _ _ h => (congrArg State.hbm h :)) (fun _ _ => rfl) hbm_attStart hp s width rate
  obtain ⟨h1, h2, h3, h4, h5, h6⟩ := upRegs_frame s p hr
  exact ⟨(hlink _ (by decide)).trans h1, (congrArg (· == 1) (hlink _ (by decide))).trans h2, (congrArg (· == 1) (hlink _ (by decide))).trans h3,
    hper.trans h4, (hlink _ (by decide)).trans h5, (hlink _ (by decide)).trans h6, hhbm⟩

/-- What the record of a port that has come up says of its past, and of a training asked for meanwhile. -/
def past (x : PortSt) : Bool × Bool := (x.everL0, x.again)

theorem past_restart (s : State) (p : Nat) : PortKept past s (s.restart p) := by
  have h (u : State) : PortKept past u (u.clearScores p) := .each (fun t k _ => portKept_of_ports (by unfold State.setScore; split; rfl; split <;> rfl)) u
  exact (h s).trans (portKept_modPort (f := fun x => { x with errs := 0, winOver := 0 }) fun _ => rfl)

theorem past_resetPolicers (s : State) (p : Nat) : PortKept past s (s.resetPolicers p) := by
  have h (u : State) : PortKept past u (u.modPort p fun x => { x with heldP := 0, heldNP := 0, heldFc := [] }) := portKept_modPort fun _ => rfl
  exact .trans (portKept_of_ports (by unfold State.setFlag; rfl)) (h _)

theorem ports_upRegs (s : State) (p width rate : Nat) : (upRegs s p width rate).ports = s.ports := rfl

theorem portUp_past (s : State) (p width rate : Nat) : past ((s.portUp p width rate).port p) = (true, (s.port p).again) := by
  unfold State.portUp
  extract_lets x down f cls s1 s2 s3 s4 src s5 mode
  have h2 : PortKept past s1 s2 := by
    refine .onlyIf (.trans ?_ (.onlyIf (portKept_of_ports rfl)))
    exact .trans (.each (f := fun u q => u.newlyActive q) (fun u q _ => portKept_of_ports rfl) _) (past_resetPolicers _ p)
  have h3 : past (s3.port p) = (true, (s2.port p).again) := congrArg past (port_modPort_self ..)
  have h4 : PortKept past s3 s4 :=
    .trans (.trans (.trans (.onlyIf ((past_restart s3 p).trans (portKept_of_ports rfl))) (.each (fun u k _ => portKept_markOut u k.queue k .late) _))
      (portKept_portMode (fun _ _ _ => rfl) _ p true)) (.onlyIf (portKept_of_ports (by unfold State.capacity; split <;> rfl)))
  have h5 : PortKept past s5 (s5.attStart p) := portKept_of_ports (by unfold State.attStart; dsimp only; split <;> rfl)
  have h1 : PortKept past s s1 := portKept_of_ports (ports_upRegs s p width rate)
  rw [show (s.port p).again = (past (s1.port p)).2 from (congrArg Prod.snd (h1 p)).symm]
  exact (PortKept.onlyIf (f := fun t => t.attStart p) h5 p).trans ((h4 p).trans (h3.trans (congrArg (fun y => (true, y.2)) (h2 p))))

/-- A port whose lanes have trained, before its registers show it. -/
def trained (s : State) (p width : Nat) (rev : Bool) : State := (s.trainCounts p []).trainLanes p width rev

theorem trained_fades {R : State → State → Prop} (hR : Fades R) (s : State) (p width : Nat) (rev : Bool) : R s (trained s p width rev) := by
  have hlanes (u : State) (on : Nat → Bool) (l : List Nat) : R u (u.each l fun t k =>
      if 160 ≤ t.laneOf p k then (t.setLock (t.laneOf p k) (on k)).modLane (t.laneOf p k) fun x => { x with link := on k }
      else (t.setLock (t.laneOf p k) (on k)).setFlag (pgCEL (t.laneOf p k / 40)) CEL_LANESTS.PARKED (!on k && !t.laneRetired (t.laneOf p k)) (t.laneOf p k % 40)) := by
    refine hR.each _ (fun t k _ => ?_) u
    split
    · exact hR.trans (hR.setLock t _ _) (hR.link _ _ rfl)
    · exact hR.trans (hR.setLock t _ _) (hR.field _ _ _ _ _ (.cel _ _ _ (by omega) (by simp only [CEL_LANESTS.PARKED]; omega)))
  have hcount : R s (s.trainCounts p []) := by
    refine hR.each _ (fun t k _ => ?_) s
    rw [if_neg (by simp)]
    exact hR.link t _ rfl
  refine hR.trans hcount ?_
  exact hR.trans (hR.ports _ p _) (hlanes _ (fun k => if rev then decide ((s.trainCounts p []).portWidth p - width ≤ k) else decide (k < width)) _)

theorem trained_past (s : State) (p width : Nat) (rev : Bool) : PortKept past s (trained s p width rev) := by
  have h (u : State) : PortKept past u (u.trainLanes p width rev) := by
    refine .trans (portKept_modPort (f := fun x => { x with lockLost := none }) fun _ => rfl) (.each (fun t k _ => ?_) _)
    dsimp only
    split
    · exact portKept_setLock t _ _
    · exact portKept_setLock t _ _
  have hcount : PortKept past s (s.trainCounts p []) := by
    refine .each (fun t k _ => ?_) s
    rw [if_neg (by simp)]
    exact .refl t
  exact hcount.trans (h _)

/-- The registers of a port that has trained to a rate and a width. -/
def trainedRegs (s : State) (p rate width : Nat) (rev : Bool) : State :=
  ((((s.setF (pgLNK p) LNK_STS.RATE rate).setF (pgLNK p) LNK_STS.WIDTH width).setFlag (pgLNK p) LNK_STS.FLIT (decide (5 ≤ rate))).setFlag
    (pgLNK p) LNK_STS.REVERSED rev)

theorem trainedRegs_shows (s : State) (p : Nat) {rate width : Nat} (rev : Bool) (hr : rate < 8) (hw : width < 32) :
    (trainedRegs s p rate width rev).getF (pgLNK p) LNK_STS.RATE = rate ∧ (trainedRegs s p rate width rev).getF (pgLNK p) LNK_STS.WIDTH = width := by
  have hset (f g : FRef) (hf : f.stride = 0 ∧ f.off < 4096) (hg : g.stride = 0 ∧ g.off < 4096) (h : bitsApart f g = true) (u : State) (v : Nat) :
      (u.setF (pgLNK p) g v).getF (pgLNK p) f = u.getF (pgLNK p) f := getF_setF_apart u _ _ hf hg (.inr h)
  unfold trainedRegs State.setFlag
  constructor
  · rw [hset LNK_STS.RATE LNK_STS.REVERSED (by decide) (by decide) rfl, hset LNK_STS.RATE LNK_STS.FLIT (by decide) (by decide) rfl,
      hset LNK_STS.RATE LNK_STS.WIDTH (by decide) (by decide) rfl, getF_setF_self _ _ _ _ _ (by decide)]
    exact Nat.mod_eq_of_lt hr
  · rw [hset LNK_STS.WIDTH LNK_STS.REVERSED (by decide) (by decide) rfl, hset LNK_STS.WIDTH LNK_STS.FLIT (by decide) (by decide) rfl,
      getF_setF_self _ _ _ _ _ (by decide)]
    exact Nat.mod_eq_of_lt hw

/-- The CXL flag of a port that has trained, and the alert of one that offers CXL and does not get it. -/
def cxlShown (s : State) (p : Nat) (offers cxl : Bool) : State :=
  (s.setFlag (pgLNK p) LNK_STS.CXL (offers && cxl)).onlyIf (offers && !cxl) fun u => u.fire (pgLNK p) 6 (u.portPart p) p

theorem l0Entry_eq (hp : p < 64) (hf : s.isFfl p = false) {rate width : Nat} (cxl rev : Bool) (ht : s.trainable p rate width rev = true) (hw : width ≠ 0) :
    ∃ (d o : Bool), ∀ a, a = ((trainedRegs (trained s p width rev) p rate width rev).onlyIf d fun t => cxlShown t p o cxl).portUp p width rate →
      s.l0Entry p rate width false cxl rev [] = (a.modPort p fun x => { x with again := false }).onlyIf (a.port p).again fun t => t.retrainSame p := by
  refine ⟨!(s.port p).everL0 || s.flag (pgLNK p) LNK_STS.LDOWN, s.flag (pgLNK p) LNK_CFG.CXL_EN, fun a ha => ?_⟩
  rw [State.l0Entry, if_neg hw, ht, if_neg nofun, if_neg (by omega), hf, if_neg nofun, if_neg nofun]
  exact ha ▸ rfl

theorem cxlShown_frame (s : State) (p : Nat) (d o cxl : Bool) {f : FRef} (hf : f.stride = 0 ∧ f.off < 4096) (h : bitsApart f LNK_STS.CXL = true) :
    (s.onlyIf d fun t => cxlShown t p o cxl).getF (pgLNK p) f = s.getF (pgLNK p) f ∧ (s.onlyIf d fun t => cxlShown t p o cxl).ports = s.ports ∧
    (s.onlyIf d fun t => cxlShown t p o cxl).hbm = s.hbm := by
  cases d with
  | false => exact ⟨rfl, rfl, rfl⟩
  | true =>
    have hreg : (cxlShown s p o cxl).getF (pgLNK p) f = (s.setFlag (pgLNK p) LNK_STS.CXL (o && cxl)).getF (pgLNK p) f := by
      unfold cxlShown
      cases (o && !cxl) <;> rfl
    have hrest : (cxlShown s p o cxl).ports = s.ports ∧ (cxlShown s p o cxl).hbm = s.hbm := by
      unfold cxlShown
      cases (o && !cxl) <;> exact ⟨rfl, rfl⟩
    exact ⟨hreg.trans (getF_setF_apart s _ _ hf (by decide) (.inr h)), hrest⟩

/-- The rate and the width that a port can train to. -/
theorem trainable_bounds (hp : p < 64) {rate width : Nat} {rev : Bool} (ht : s.trainable p rate width rev = true) :
    rate < 8 ∧ width ≠ 0 ∧ width < 32 := by
  simp only [State.trainable, Bool.and_eq_true, if_neg (show ¬ 64 ≤ p by omega), decide_eq_true_eq] at ht
  obtain ⟨⟨⟨⟨hw, -⟩, -⟩, -⟩, hr, -⟩ := ht
  have hcap : s.getF (pgLNK p) LNK_DERATE.CAP < 8 := getF_lt s _ _ 0
  have hw' : width ∈ linkWidths := by simpa using hw
  simp only [linkWidths, List.mem_cons, List.not_mem_nil, or_false] at hw'
  refine ⟨?_, by omega, by omega⟩
  split at hr <;> omega

theorem fperOf_lt (width rate : Nat) (b : Bool) : State.fperOf width rate b < 64 := by
  have h16 := Nat.div_le_self 16 width
  have h32 := Nat.div_le_self 32 width
  unfold State.fperOf
  split
  · decide
  · split
    · omega
    · split <;> omega

theorem portL0Entry_up (hp : p < 64) (hf : s.isFfl p = false) {rate width : Nat} (cxl rev : Bool) (ht : s.trainable p rate width rev = true)
    (hag : (s.port p).again = false) : ∃ t, exec (.portL0Entry p rate width false cxl rev []) s = .next t ∧
    t.linkState p = 3 ∧ t.flag (pgLNK p) LNK_STS.UP = true ∧ t.getF (pgLNK p) LNK_STS.RATE = rate ∧ t.getF (pgLNK p) LNK_STS.WIDTH = width ∧
    t.fper p = State.fperOf width rate (decide (5 ≤ rate)) ∧ t.flag (pgLNK p) LNK_STS.LDOWN = false ∧ (t.port p).everL0 = true ∧ t.hbm = s.hbm := by
  obtain ⟨hr, hw0, hw⟩ := trainable_bounds hp ht
  obtain ⟨d, o, heq⟩ := l0Entry_eq hp hf cxl rev ht hw0
  obtain ⟨c, hc⟩ : ∃ c, c = trained s p width rev := ⟨_, rfl⟩
  have hc1 : PortKept past s c ∧ c.hbm = s.hbm := hc ▸ ⟨trained_past s p width rev,
    trained_fades (cuts_part (g := State.hbm) fun _ _ h => (congrArg State.hbm h :)).toFades s p width rev⟩
  rw [← hc] at heq
  obtain ⟨hpast, hhbm⟩ := hc1
  obtain ⟨hrate, hwidth⟩ := trainedRegs_shows c p rev hr hw
  have hports : (trainedRegs c p rate width rev).ports = c.ports := rfl
  have hhbm1 : (trainedRegs c p rate width rev).hbm = c.hbm := rfl
  generalize trainedRegs c p rate width rev = c1 at heq hrate hwidth hports hhbm1
  obtain ⟨hrate2, hports2, hhbm2⟩ := cxlShown_frame c1 p d o cxl (f := LNK_STS.RATE) (by decide) rfl
  obtain ⟨hwidth2, -, -⟩ := cxlShown_frame c1 p d o cxl (f := LNK_STS.WIDTH) (by decide) rfl
  generalize (c1.onlyIf d fun t => cxlShown t p o cxl) = c2 at heq hrate2 hwidth2 hports2 hhbm2
  obtain ⟨hst, hup, hld, hper, hrate3, hwidth3, hhbm3⟩ := portUp_frame hp c2 (fperOf_lt width rate (decide (5 ≤ rate)))
  have hpast3 := portUp_past c2 p width rate
  generalize c2.portUp p width rate = a at heq hst hup hld hper hrate3 hwidth3 hhbm3 hpast3
  have hag2 : (c2.port p).again = false :=
    (congrArg Prod.snd (portKept_of_ports (π := past) (hports2.trans hports) p)).trans ((congrArg Prod.snd (hpast p)).trans hag)
  rw [hag2] at hpast3
  have hever : (a.port p).everL0 = true := congrArg Prod.fst hpast3
  have hagain : (a.port p).again = false := congrArg Prod.snd hpast3
  have hrun : exec (.portL0Entry p rate width false cxl rev []) s = (a.modPort p fun x => { x with again := false }).done := by
    show execPortL0Entry p rate width false cxl rev [] s = _
    rw [execPortL0Entry, if_pos (by omega), heq a rfl, hagain]
    rfl
  obtain ⟨b, hb⟩ : ∃ b, b = a.modPort p fun x => { x with again := false } := ⟨_, rfl⟩
  have hb1 : (b.port p).everL0 = true ∧ b.regs = a.regs ∧ b.hbm = a.hbm :=
    hb ▸ ⟨(congrArg PortSt.everL0 (port_modPort_self ..)).trans hever, rfl, rfl⟩
  rw [← hb] at hrun
  obtain ⟨hever2, hregs, hhbm4⟩ := hb1
  have hget (pg : Nat) (f : FRef) (i : Nat) : b.getF pg f i = a.getF pg f i := sameField_of_regs hregs
  refine ⟨_, hrun.trans (done_next b), (linkState_closed hp b).trans ((hget ..).trans hst), (flag_link_closed hp (by decide) b).trans ((congrArg (· == 1) (hget ..)).trans hup),
    ?_, ?_, (fper_closed hp b).trans ((hget ..).trans hper), (flag_link_closed hp (by decide) b).trans ((congrArg (· == 1) (hget ..)).trans hld),
    (congrArg PortSt.everL0 (port_closed b p)).trans hever2, ?_⟩
  · exact (getF_link_closed hp (by decide) b).trans ((hget ..).trans (hrate3.trans (hrate2.trans hrate)))
  · exact (getF_link_closed hp (by decide) b).trans ((hget ..).trans (hwidth3.trans (hwidth2.trans hwidth)))
  · exact (settle_hbm b).trans (hhbm4.trans (hhbm3.trans (hhbm2.trans (hhbm1.trans hhbm))))

/-- Settles O28: a port leaves L0 where it retrains, is restored, asked by its partner or derated, and comes up as its training gives. -/
theorem portTrainingAndLowPower : Obligations.PortTrainingAndLowPower := by
  unfold Obligations.PortTrainingAndLowPower
  refine ⟨fun s who p rate width cxl rev hinv hp hen hf => ⟨fun h0 hdis hg => ⟨?_, ?_⟩, fun h0 => ?_, fun ht hag => ?_, fun hauto h0 hfab hwin => ⟨fun hfew hw => ?_, fun hmany hw hrate => ?_⟩⟩,
    fun s p low hinv hen hf h0 => partnerL0pL1Request_answers hinv hen hf h0 low⟩
  · exact lnkRetrain_leaves hp hf h0 hdis hg
  · exact lnkRestore_leaves hp hf h0 hdis hg
  · exact portRecoveryEntry_leaves hp hen hf h0
  · exact portL0Entry_up hp hf cxl rev ht hag
  · exact derateWindowEnd_few hinv hen hauto hfab hwin hfew hw
  · exact derateWindowEnd_many hp hen hf h0 hauto hfab hwin hmany hw hrate

end Sys2Proof.PortTraining
end

section
/-! ## The hot reset of a partition (O30) -/

namespace Sys2Proof.PartReset

open Sys2Proof Sys2Proof.Machine Sys2Proof.Laws Sys2Proof.Support Sys2Proof.Traffic Sys2Proof.LinkDown Sys2Proof.PortFields Sys2Proof.FabricLinks

variable {s t : State} {p k : Nat}

/-! ### Registers that a reset of a partition leaves -/

/-- A register of a port's configuration, of the partitions' instances and resets, of a Cellar's channels, or of an instance's channels. -/
def Still (k : Nat) : Prop :=
  (256 ≤ k / 4096 ∧ 0x10 ≤ k / 4096 % 256 ∧ k / 4096 % 256 < 0x20 ∧ k % 4096 = 0x80) ∨
  ((k / 4096 = 0x17 ∨ k / 4096 = 2) ∧ 0x100 ≤ k % 4096 ∧ k % 4096 < 0x200) ∨
  (256 ≤ k / 4096 ∧ k / 4096 % 256 = 0x40 ∧ 0x400 ≤ k % 4096 ∧ k % 4096 < 0x800) ∨
  (0x80 ≤ k / 4096 ∧ k / 4096 < 256 ∧ k % 32 = 16)

/-- Those registers and the memory are as they were. -/
structure Calm (s t : State) : Prop where
  hbm : t.hbm = s.hbm
  reg : ∀ k, Still k → t.reg k = s.reg k

theorem Calm.trans {a b c : State} (h : Calm a b) (h' : Calm b c) : Calm a c := ⟨h'.hbm.trans h.hbm, fun k hk => (h'.reg k hk).trans (h.reg k hk)⟩

theorem calm_of_regs (h : t.regs = s.regs) (hm : t.hbm = s.hbm) : Calm s t := ⟨hm, fun _ _ => congrArg (fun m => storeGet regReset m _) h⟩

/-- A field of a page and offset that is none of those registers. -/
theorem calm_setF (s : State) {pg i : Nat} {f : FRef} (v : Nat) (ho : f.off + f.stride * i < 4096)
    (h : ∀ k, k / 4096 = pg → k % 4096 = f.off + f.stride * i → ¬ Still k) : Calm s (s.setF pg f v i) :=
  ⟨rfl, fun k hk => (reg_setF s pg f v i k).trans (if_neg fun he => by
    obtain ⟨h1, h2⟩ := fkey_page pg f i ho
    exact h k (he ▸ h1) (he ▸ h2) hk)⟩

/-- A field of one of the first pages of a Cellar, or of those of a port's link layer. -/
theorem calm_cellar (s : State) {pg i : Nat} {f : FRef} (v : Nat) (ho : f.off + f.stride * i < 4096)
    (hpg : 256 ≤ pg ∧ (pg % 256 < 0x10 ∨ 0x20 ≤ pg % 256 ∧ pg % 256 ≠ 0x40)) : Calm s (s.setF pg f v i) :=
  calm_setF s v ho fun k h1 _ hk => by
    unfold Still at hk
    omega

/-- A field of a port's page that is not its configuration. -/
theorem calm_link (s : State) (p : Nat) {i : Nat} {f : FRef} (v : Nat) (ho : f.off + f.stride * i < 4096) (hc : f.off + f.stride * i ≠ 0x80) :
    Calm s (s.setF (pgLNK p) f v i) :=
  calm_setF s v ho fun k h1 h2 hk => by
    unfold Still at hk
    simp only [pgLNK, celPage, pageIx] at h1
    omega

theorem calm_fade (s : State) {pg i : Nat} {f : FRef} (v : Nat) (h : FadeField pg f i) : Calm s (s.setF pg f v i) := by
  cases h with
  | score p _ hp hk => exact calm_link s p v (by simp only [LNK_LERR.SCORE]; omega) (by simp only [LNK_LERR.SCORE]; omega)
  | ide p f hp h =>
    have hall : ∀ g ∈ [LNK_IDE.LINK_SEC, LNK_IDE.SEL_SEC], g.off + g.stride * 0 < 4096 ∧ g.off + g.stride * 0 ≠ 0x80 := by decide
    exact calm_link s p v (hall f h).1 (hall f h).2
  | sch p f i hp h =>
    refine calm_cellar s v ?_ (by simp only [pgSCH, celPage, pageIx]; omega)
    rcases h with ⟨rfl, rfl⟩ | ⟨rfl, rfl⟩
    · simp only [SCH_PORTSTS.SLIP, State.localPort]
      omega
    · decide
  | qsh c j f i hc hj h => exact calm_cellar s v h (by simp only [pgQSH, celPage, pageIx]; omega)
  | cel c f i hc h => exact calm_cellar s v h (by simp only [pgCEL, celPage, pageIx]; omega)
  | discards =>
    refine calm_setF s v (by decide) fun k h1 h2 hk => ?_
    unfold Still at hk
    simp only [pgFWD] at h1
    omega

/-- Cutting a port's traffic off leaves them. -/
theorem fades_calm : Fades Calm where
  refl _ := calm_of_regs rfl rfl
  trans := .trans
  data s t h := calm_of_regs (h.same State.regs) (h.same State.hbm)
  unreserve s _ := calm_of_regs rfl rfl
  add s _ := calm_of_regs rfl rfl
  lostCpl s q v _ := calm_link s q v (by decide) (by decide)
  interrupt s pg v := calm_setF s v (by decide) fun k h1 h2 hk => by
    have h20 : k % 4096 = 0x20 := h2
    unfold Still at hk
    omega
  link s t h := calm_of_regs (h.same State.regs) (h.same State.hbm)
  field s pg f v i h := calm_fade s v h
  ports s _ _ := calm_of_regs rfl rfl

theorem calm_linkFields (s : State) (p st : Nat) : Calm s (s.linkFields p st) := by
  have h (u : State) (f : FRef) (v : Nat) (hf : f.off + f.stride * 0 < 4096 ∧ f.off + f.stride * 0 ≠ 0x80) : Calm u (u.setF (pgLNK p) f v) :=
    calm_link u p v hf.1 hf.2
  have hper (u : State) (v : Nat) : Calm u (u.setFper p v) :=
    calm_cellar u v (by simp only [SCH_PORTSTS.FPER, State.localPort]; omega) (by simp only [pgSCH, celPage, pageIx]; omega)
  unfold State.linkFields State.setFlag
  exact (h _ LNK_STS.STATE _ (by decide)).trans ((h _ LNK_STS.UP _ (by decide)).trans ((h _ LNK_STS.WIDTH _ (by decide)).trans
    ((h _ LNK_STS.RATE _ (by decide)).trans ((h _ LNK_STS.REVERSED _ (by decide)).trans ((h _ LNK_STS.FLIT _ (by decide)).trans
    ((h _ LNK_STS.CXL _ (by decide)).trans (hper _ 0)))))))

theorem calm_portDown (hp : p < 64) (s : State) (st : Nat) (r : Bool) : Calm s (s.portDown p st r) :=
  (calm_linkFields s p st).trans (portDown_fades fades_calm hp s st r)

theorem calm_endInitiators (s : State) (p : Nat) : Calm s (s.endInitiators p) := calm_of_regs rfl rfl

theorem calm_aerPort (s : State) (p k : Nat) : Calm s (s.aerPort p k) := by
  unfold State.aerPort
  dsimp only
  split
  · exact calm_of_regs rfl rfl
  · have h1 (f : PortSt → PortSt) : Calm s (s.modPort p f) := calm_of_regs rfl rfl
    split
    · exact h1 _
    · exact (h1 _).trans (fades_calm.emitHost ..)

/-- The registers of a port whose link goes, and its alert. -/
def lostRegs (s : State) (p : Nat) : State :=
  ((s.setFlag (pgLNK p) LNK_STS.LDOWN true).addF (pgLNK p) LNK_LDSTS.DOWNS).fire (pgLNK p) 4 (s.portPart p) p

theorem calm_lostRegs (s : State) (p : Nat) : Calm s (lostRegs s p) := by
  have h1 : Calm s (s.setFlag (pgLNK p) LNK_STS.LDOWN true) := calm_link s p _ (by decide) (by decide)
  have h2 (u : State) : Calm u (u.addF (pgLNK p) LNK_LDSTS.DOWNS) := calm_link u p _ (by decide) (by decide)
  have h3 (u : State) (q : Nat) : Calm u (u.fire (pgLNK p) 4 q p) := calm_of_regs rfl rfl
  exact h1.trans ((h2 _).trans (h3 _ _))

theorem ports_lostRegs (s : State) (p : Nat) : (lostRegs s p).ports = s.ports := rfl

theorem calm_pcieDown (hp : p < 64) (s : State) (st : Nat) (r : Bool) : Calm s (s.pcieDown p st r) := by
  unfold State.pcieDown
  split
  · exact calm_link s p st (by decide) (by decide)
  · extract_lets s1 s2
    have h1 : Calm s s1 := calm_lostRegs s p
    have h2 : Calm s1 s2 := fades_calm.onlyIf (calm_aerPort ..)
    exact (h1.trans h2).trans ((calm_portDown hp s2 st r).trans (calm_endInitiators _ p))

theorem calm_ffl (s : State) (p : Nat) {f : FRef} (v : Nat) (hf : f.off + f.stride * 0 < 4096) : Calm s (s.setF (pgFFL p) f v) :=
  calm_cellar s v hf (by simp only [pgFFL, celPage, pageIx]; omega)

theorem calm_fflDown (hp : p < 64) (s : State) (st c : Nat) (r : Bool) : Calm s (s.fflDown p st c r) := by
  unfold State.fflDown
  split
  · extract_lets s1
    have h1 : Calm s s1 := (calm_link s p _ (by decide) (by decide)).trans ((calm_link _ p _ (by decide) (by decide)).trans (calm_ffl _ p _ (by decide)))
    have h2 : Calm s1 (s1.modFfl p fun _ => FflSt.init) := calm_of_regs rfl rfl
    exact (h1.trans h2).trans (fades_calm.each _ (fun t l _ => fades_calm.setLock t l false) _)
  · extract_lets s1 s2
    have h1 : Calm s s1 := (calm_ffl s p _ (by decide)).trans ((calm_ffl _ p _ (by decide)).trans (fades_calm.fireL ..))
    have h2 : Calm s1 s2 := (calm_ffl s1 p _ (by decide)).trans (calm_ffl _ p _ (by decide))
    exact (h1.trans h2).trans (calm_portDown hp s2 st r)

theorem calm_linkDown (hp : p < 64) (s : State) (st c : Nat) (r : Bool) : Calm s (s.linkDown p st c r) := by
  unfold State.linkDown
  rw [if_neg (by omega)]
  repeat' split
  · exact calm_fflDown hp s st c r
  · exact calm_pcieDown hp s st r
  · exact calm_of_regs rfl rfl

theorem calm_dropFences (s : State) (f : FenceOp → Bool) (b : Bool) : Calm s (s.dropFences f b) :=
  fades_calm.dropFences s f b fun _ _ => calm_of_regs rfl rfl

theorem calm_vimi (s : State) (i : Nat) (b : Bool) : Calm s (s.setFlag (pgVIMI i) VIM_ICTL.RESET b (i % 64)) := by
  refine calm_setF s _ (by simp only [VIM_ICTL.RESET]; omega) fun k h1 h2 hk => ?_
  unfold Still at hk
  simp only [VIM_ICTL.RESET] at h2
  omega

theorem calm_instEffect (s : State) (i : Nat) (hot : Bool) : Calm s (s.instEffect i hot) := by
  unfold State.instEffect
  extract_lets s1 s2 s3 s4 s5
  have h1 : Calm s s4 := calm_of_regs rfl rfl
  have h2 : Calm s4 s5 := by
    simp only [s5]
    split
    · exact calm_of_regs rfl rfl
    · exact (calm_dropFences ..).trans (calm_of_regs rfl rfl)
  have h3 : Calm s5 (s5.setFlag (pgVIMI i) VIM_ICTL.RESET false (i % 64)) := calm_vimi s5 i _
  refine (h1.trans h2).trans (h3.trans (calm_setF _ _ (by decide) fun k hk1 hk2 hk => ?_))
  have hk2' : k % 4096 = 0x320 := hk2
  unfold Still at hk
  simp only [pgVIM] at hk1
  omega

theorem calm_instReset (s : State) (i : Nat) (a b : Bool) : Calm s (s.instReset i a b) := by
  unfold State.instReset
  extract_lets x s1
  have h1 : Calm s s1 := calm_of_regs rfl rfl
  repeat' split
  · exact calm_of_regs rfl rfl
  · exact h1
  · have h2 (f : InstSt → InstSt) : Calm s1 (s1.modInst i f) := calm_of_regs rfl rfl
    exact h1.trans ((h2 _).trans (calm_vimi _ i _))
  · exact h1.trans (calm_instEffect s1 i b)

theorem calm_stopChannel (s : State) (ch : Nat) : Calm s (s.stopChannel ch) := by
  have hset (u : State) (f : FRef) (hf : f.off = 0x120 ∧ f.stride = 96) (v : Nat) : Calm u (u.setF (pgDMAC (ch / 256) (ch % 256)) f v (ch % 32)) :=
    calm_cellar u v (by rw [hf.1, hf.2]; omega) (by simp only [pgDMAC, celPage, pageIx]; omega)
  unfold State.stopChannel
  dsimp only
  split
  · exact (hset s _ (by decide) _).trans (hset _ _ (by decide) _)
  · exact hset s _ (by decide) _

/-! ### Bridges -/

/-- Every virtual bridge but those of `K` is as it was. -/
def BridgesBut (K : Nat → Prop) (s t : State) : Prop := ∀ q, ¬ K q → (t.port q).br = (s.port q).br

theorem BridgesBut.trans {K : Nat → Prop} {a b c : State} (h : BridgesBut K a b) (h' : BridgesBut K b c) : BridgesBut K a c :=
  fun q hq => (h' q hq).trans (h q hq)

theorem bridgesBut_of_kept {K : Nat → Prop} (h : PortKept PortSt.br s t) : BridgesBut K s t := fun q _ => h q

theorem BridgesBut.each {K : Nat → Prop} {α : Type} {l : List α} {f : State → α → State} (hf : ∀ t, ∀ x ∈ l, BridgesBut K t (f t x)) (s : State) :
    BridgesBut K s (s.each l f) := by
  induction l generalizing s with
  | nil => exact fun _ _ => rfl
  | cons x r ih => exact (hf s x List.mem_cons_self).trans (ih (fun t y hy => hf t y (List.mem_cons_of_mem _ hy)) (f s x))

theorem bridgesBut_modPort {K : Nat → Prop} (s : State) {p : Nat} (hp : K p) (f : PortSt → PortSt) : BridgesBut K s (s.modPort p f) :=
  fun _ hq => congrArg PortSt.br (port_modPort_other s f fun he => hq (he ▸ hp))

/-- Answers leave the bridges. -/
theorem answers_bridges : Answers (PortKept PortSt.br) where
  refl := .refl
  trans := .trans
  data _ _ h := portKept_of_ports (h.same State.ports)
  unreserve _ _ := portKept_of_ports rfl
  add _ _ := portKept_of_ports rfl
  lostCpl _ _ _ _ := portKept_of_ports rfl
  interrupt _ _ _ := portKept_of_ports rfl

theorem bridge_clearScores (s : State) (p : Nat) : PortKept PortSt.br s (s.clearScores p) :=
  .each (fun t k _ => portKept_of_ports (by unfold State.setScore; split; rfl; split <;> rfl)) s

theorem bridge_resetPolicers (s : State) (p : Nat) : PortKept PortSt.br s (s.resetPolicers p) := by
  have h (u : State) : PortKept PortSt.br u (u.modPort p fun x => { x with heldP := 0, heldNP := 0, heldFc := [] }) := portKept_modPort fun _ => rfl
  exact .trans (portKept_of_ports (by unfold State.setFlag; rfl)) (h _)

theorem ports_queueLeft (s : State) (q : Nat) : (s.queueLeft q).ports = s.ports := by
  unfold State.queueLeft
  split <;> rfl

theorem bridge_cutOff (s : State) (p : Nat) (k : Packet) : PortKept PortSt.br s (s.cutOff p k) := by
  unfold State.cutOff
  extract_lets d begun s1 s2
  have hun (u : State) : PortKept PortSt.br u (u.unnumber k) := portKept_of_ports (by unfold State.unnumber; split; rfl; split <;> rfl)
  have h1 : PortKept PortSt.br s s1 := .trans (.onlyIf (portKept_modPort (f := fun x => { x with sending := none, nullOwed := true, nullAbort := some (k.part, p) }) fun _ => rfl)) (hun _)
  exact h1.trans (.trans (portKept_of_ports rfl) (portKept_of_ports (ports_queueLeft ..)))

theorem bridge_linkGone (s : State) (p : Nat) : PortKept PortSt.br s (s.linkGone p) := by
  unfold State.linkGone
  extract_lets s1 s0 e s2 s3
  have h1 : PortKept PortSt.br s s1 := (bridge_clearScores s p).trans ((bridge_resetPolicers _ p).trans (portKept_of_ports rfl))
  have h2 : PortKept PortSt.br s1 s2 := portKept_of_ports rfl
  have h3 : PortKept PortSt.br s2 s3 := portKept_modPort fun _ => rfl
  exact h1.trans (h2.trans (h3.trans (.each (fun t k _ => bridge_cutOff t p k) s3)))

theorem ports_capacity (s : State) (l : List (Nat × Nat)) : (s.capacity l).ports = s.ports := by
  unfold State.capacity
  split <;> rfl

theorem bridge_portDown (s : State) (p st : Nat) (r : Bool) : PortKept PortSt.br s (s.portDown p st r) := by
  unfold State.portDown
  extract_lets s2 s3 s4
  have h2 : PortKept PortSt.br s s2 := portKept_of_ports rfl
  have h3 : PortKept PortSt.br s2 s3 := (bridge_linkGone s2 p).trans (portKept_modPort fun _ => rfl)
  have h4 : PortKept PortSt.br s3 s4 := .each (fun t l _ => portKept_setLock t l false) s3
  exact h2.trans (h3.trans (h4.trans ((portKept_portMode (fun _ _ _ => rfl) s4 p false).trans (portKept_of_ports (ports_capacity ..)))))

theorem answers_fireL (s : State) (p : Nat) : PortKept PortSt.br s (s.fireL p 2) := portKept_of_ports (by
  unfold State.fireL
  split
  · rfl
  · simp only [if_pos, Nat.reduceEqDiff, if_false]
    rfl)

theorem bridges_aerPort {K : Nat → Prop} (hp : K p) (s : State) (k : Nat) : BridgesBut K s (s.aerPort p k) := by
  unfold State.aerPort
  dsimp only
  split
  · exact fun _ _ => rfl
  · have h1 (f : PortSt → PortSt) : BridgesBut K s (s.modPort p f) := bridgesBut_modPort s hp f
    split
    · exact h1 _
    · exact (h1 _).trans (bridgesBut_of_kept (answers_bridges.emitHost _ _ _))

theorem bridge_fflDown (s : State) (p st c : Nat) (r : Bool) : PortKept PortSt.br s (s.fflDown p st c r) := by
  unfold State.fflDown
  split
  · extract_lets s1
    have h1 : PortKept PortSt.br s (s1.modFfl p fun _ => FflSt.init) := portKept_of_ports rfl
    exact h1.trans (.each (fun t l _ => portKept_setLock t l false) _)
  · extract_lets s1 s2
    have h1 : PortKept PortSt.br s s2 := by
      refine .trans (b := (s.setFlag (pgFFL p) FFL_STS.LDOWN true).setF (pgFFL p) FFL_STS.LD_CAUSE c) (portKept_of_ports rfl) ?_
      exact .trans (answers_fireL _ p) (portKept_of_ports rfl)
    exact h1.trans (bridge_portDown s2 p st r)

theorem ports_endInitiators (s : State) (p : Nat) : (s.endInitiators p).ports = s.ports := rfl

theorem bridges_pcieDown {K : Nat → Prop} (hK : K p) (s : State) (st : Nat) (r : Bool) : BridgesBut K s (s.pcieDown p st r) := by
  unfold State.pcieDown
  split
  · exact fun _ _ => rfl
  · extract_lets s1 s2
    have h1 : BridgesBut K s s1 := bridgesBut_of_kept (portKept_of_ports (ports_lostRegs s p))
    have h2 : BridgesBut K s1 s2 := by
      simp only [s2]
      cases s.surprise p st with
      | false => exact fun _ _ => rfl
      | true => exact bridges_aerPort hK s1 4
    exact h1.trans (h2.trans (bridgesBut_of_kept ((bridge_portDown s2 p st r).trans (portKept_of_ports (ports_endInitiators ..)))))

theorem bridges_linkDown {K : Nat → Prop} (hp : p < 64) (hK : K p) (s : State) (st c : Nat) (r : Bool) : BridgesBut K s (s.linkDown p st c r) := by
  unfold State.linkDown
  rw [if_neg (by omega)]
  repeat' split
  · exact bridgesBut_of_kept (bridge_fflDown s p st c r)
  · exact bridges_pcieDown hK s st r
  · exact fun _ _ => rfl

theorem bridge_instReset (s : State) (i : Nat) (a b : Bool) : PortKept PortSt.br s (s.instReset i a b) := by
  have hdrop (u : State) : PortKept PortSt.br u (u.dropFences (fun f => f.inst == i) true) :=
    answers_bridges.dropFences u _ _ fun _ _ => portKept_of_ports rfl
  have heff (u : State) : PortKept PortSt.br u (u.instEffect i b) := by
    unfold State.instEffect
    extract_lets s1 s2 s3 s4 s5
    have h1 : PortKept PortSt.br u s4 := portKept_of_ports rfl
    have h2 : PortKept PortSt.br s4 s5 := by
      simp only [s5]
      split
      · exact .refl _
      · exact (hdrop s4).trans (portKept_of_ports rfl)
    exact (h1.trans h2).trans (portKept_of_ports rfl)
  unfold State.instReset
  extract_lets x s1
  have h1 : PortKept PortSt.br s s1 := portKept_of_ports rfl
  repeat' split
  · exact .refl s
  · exact h1
  · exact portKept_of_ports rfl
  · exact h1.trans (heff s1)

/-! ### Partitions of initiators -/

/-- The registers that say whose an initiator is. -/
def Owning (s t : State) : Prop := ∀ k, Still k → k / 4096 ≠ 2 → t.reg k = s.reg k

theorem getF_of_owning (h : Owning s t) {pg i : Nat} {f : FRef} (ho : f.off + f.stride * i < 4096)
    (hk : ∀ k, k / 4096 = pg → k % 4096 = f.off + f.stride * i → Still k ∧ k / 4096 ≠ 2) : t.getF pg f i = s.getF pg f i := by
  obtain ⟨h1, h2⟩ := fkey_page pg f i ho
  obtain ⟨h3, h4⟩ := hk _ h1 h2
  exact getF_of_reg (h _ h3 h4)

theorem portPart_of_owning (h : Owning s t) (p : Nat) : t.portPart p = s.portPart p := by
  have hget (f : FRef) (hf : f.stride = 0 ∧ f.off = 0x80) : t.getF (pgLNK p) f = s.getF (pgLNK p) f := by
    refine getF_of_owning h (by omega) fun k h1 h2 => ?_
    simp only [pgLNK, celPage, pageIx] at h1
    unfold Still
    rw [hf.1, hf.2] at h2
    omega
  have hen := hget LNK_CFG.EN (by decide)
  have hrole := hget LNK_CFG.ROLE (by decide)
  have hpart := hget LNK_CFG.PART (by decide)
  unfold State.portPart State.portEn State.portRole State.flag
  rw [hen, hrole, hpart]

theorem palloc_of_owning (h : Owning s t) {k : Nat} (hk : k < 24) :
    t.getF pgVIM VIM_PALLOC.BASE k = s.getF pgVIM VIM_PALLOC.BASE k ∧ t.getF pgVIM VIM_PALLOC.COUNT k = s.getF pgVIM VIM_PALLOC.COUNT k := by
  have hget (f : FRef) (hf : f.stride = 4 ∧ f.off = 0x100) : t.getF pgVIM f k = s.getF pgVIM f k := by
    refine getF_of_owning h (by rw [hf.1, hf.2]; omega) fun key h1 h2 => ?_
    rw [hf.1, hf.2] at h2
    simp only [pgVIM] at h1
    unfold Still
    omega
  exact ⟨hget _ (by decide), hget _ (by decide)⟩

theorem ichan_of_owning (h : Owning s t) {i : Nat} (hi : i < 4096) {f : FRef} (hf : f.stride = 32 ∧ f.off = 0x810) :
    t.getF (pgVIMI i) f (i % 64) = s.getF (pgVIMI i) f (i % 64) := by
  refine getF_of_owning h (by rw [hf.1, hf.2]; omega) fun key h1 h2 => ?_
  rw [hf.1, hf.2] at h2
  simp only [pgVIMI] at h1
  unfold Still
  omega

theorem partOfInst_of_owning (h : Owning s t) (i : Nat) : t.partOfInst i = s.partOfInst i := by
  refine congrArg (·.getD 31) (List.find?_congr fun k hk => ?_)
  obtain ⟨h1, h2⟩ := palloc_of_owning h (List.mem_range.1 hk)
  rw [h1, h2]

theorem instOfChan_of_owning (h : Owning s t) (ch : Nat) : t.instOfChan ch = s.instOfChan ch := by
  unfold State.instOfChan
  split
  · rfl
  · refine List.foldl_ext _ _ _ fun acc k hk => ?_
    obtain ⟨h1, h2⟩ := palloc_of_owning h (List.mem_range.1 hk)
    cases acc with
    | some i => rfl
    | none =>
      dsimp only
      rw [h1, h2]
      refine List.find?_congr fun i hi => ?_
      obtain ⟨j, hj, rfl⟩ := List.mem_map.1 hi
      have hb : s.getF pgVIM VIM_PALLOC.BASE k < 2048 := Nat.mod_lt _ (by decide)
      have hn : s.getF pgVIM VIM_PALLOC.COUNT k < 512 := Nat.mod_lt _ (by decide)
      have hj' := List.mem_range.1 hj
      have hlt : s.getF pgVIM VIM_PALLOC.BASE k + j < 4096 := by omega
      rw [ichan_of_owning h hlt (f := VIM_ICHAN.CELLAR) (by decide), ichan_of_owning h hlt (f := VIM_ICHAN.FIRST) (by decide),
        ichan_of_owning h hlt (f := VIM_ICHAN.COUNT) (by decide)]

theorem partOfChan_of_owning (h : Owning s t) (ch : Nat) : t.partOfChan ch = s.partOfChan ch := by
  have hpart : t.getF (pgDMA (ch / 256)) DMA_CHCFG.PART (ch % 256) = s.getF (pgDMA (ch / 256)) DMA_CHCFG.PART (ch % 256) := by
    refine getF_of_owning h (by simp only [DMA_CHCFG.PART]; omega) fun key h1 h2 => ?_
    simp only [DMA_CHCFG.PART] at h2
    simp only [pgDMA, celPage, pageIx] at h1
    unfold Still
    omega
  unfold State.partOfChan
  rw [hpart, instOfChan_of_owning h ch]
  split
  · rfl
  · split
    · exact partOfInst_of_owning h _
    · rfl

theorem iniPart_of_owning (h : Owning s t) (i : Initiator) : t.iniPart i = s.iniPart i := by
  cases i with
  | port p _ _ =>
    unfold State.iniPart
    dsimp only
    rw [portPart_of_owning h]
  | cxl p => exact portPart_of_owning h p
  | fabric _ _ _ _ => rfl
  | chan c => exact partOfChan_of_owning h c
  | block _ => rfl

/-! ### The reset -/

/-- Before a partition's reset shows: its posted writes of the ingress are gone and recorded. -/
def writesGone (s : State) (gone : List Packet) : State :=
  ({ s with packets := s.packets.filter fun x => !gone.contains x } : State).failSummary gone 0xA 0

theorem writesGone_frame (s : State) (gone : List Packet) : (writesGone s gone).regs = s.regs ∧ (writesGone s gone).ports = s.ports ∧ (writesGone s gone).hbm = s.hbm := by
  unfold writesGone State.failSummary
  cases gone <;> exact ⟨rfl, rfl, rfl⟩

/-- A partition that is being reset, with the count of its lost writes. -/
def busyPart (s : State) (v k : Nat) : State := (s.setF pgRST RST_PSTS.LOST_POSTED v k).setFlag pgRST RST_PSTS.BUSY true k

theorem busyPart_shows (s : State) {v : Nat} (hv : v < 2 ^ 24) (k : Nat) :
    (busyPart s v k).flag pgRST RST_PSTS.BUSY k = true ∧ (busyPart s v k).getF pgRST RST_PSTS.LOST_POSTED k = v := by
  refine ⟨congrArg (· == 1) (getF_setF_self (s.setF pgRST RST_PSTS.LOST_POSTED v k) pgRST RST_PSTS.BUSY 1 k (by decide)), ?_⟩
  refine (getF_setF_other _ _ _ _ _ _ _ _ (.inr (by decide))).trans ((getF_setF_self s pgRST RST_PSTS.LOST_POSTED v k (by decide)).trans ?_)
  exact Nat.mod_eq_of_lt hv

theorem busyPart_owning (s : State) (v : Nat) (hk : k < 32) : Owning s (busyPart s v k) := by
  have hset (u : State) (f : FRef) (hf : f.stride = 4 ∧ f.off = 0x100) (x : Nat) : Owning u (u.setF pgRST f x k) := fun j _ hj =>
    (reg_setF u pgRST f _ k j).trans (if_neg fun he => hj (by rw [he]; exact (fkey_page pgRST f k (by rw [hf.1, hf.2]; omega)).1))
  exact fun j h1 h2 => (hset _ RST_PSTS.BUSY (by decide) _ j h1 h2).trans (hset s RST_PSTS.LOST_POSTED (by decide) _ j h1 h2)

theorem mem_partPorts {q : Nat} : q ∈ s.partPorts k ↔ q < 64 ∧ s.portPart q = k := by
  simp [State.partPorts]

theorem calm_orphanIf (s : State) (f : TrkEntry → Bool) : Calm s (s.orphanIf f) := calm_of_regs rfl rfl

theorem ports_discard (s : State) (f : TrkEntry → Bool) (g : PfBlock → Bool) : ((s.orphanIf f).pfDiscard g).ports = s.ports := rfl

/-- What the reset does once it shows. -/
def resetRest (s2 : State) (ports : List Nat) (k : Nat) : State :=
  let s3 := s2.each (s2.partInsts k) fun t i => t.instReset i true true
  let s4 := s3.each (s3.serviceChans k) fun t ch => t.stopChannel ch
  let s5 := (s4.orphanIf fun e => e.pkt.part == k).pfDiscard fun b => b.part == k
  s5.each (ports.filter s5.isDown) fun t p =>
    if t.portDisabled p || (t.port p).noLanes then t.linkDown p (t.linkState p) 0 false else t.linkDown p 8 0 false

theorem resetRest_frame (s : State) {ports : List Nat} (hports : ∀ q ∈ ports, q < 64) (k : Nat) :
    Calm s (resetRest s ports k) ∧ BridgesBut (· ∈ ports) s (resetRest s ports k) := by
  unfold resetRest
  extract_lets s3 s4 s5
  have hdown (u : State) (q : Nat) (hq : q ∈ ports.filter s5.isDown) : q < 64 ∧ q ∈ ports :=
    ⟨hports q (List.mem_filter.1 hq).1, (List.mem_filter.1 hq).1⟩
  constructor
  · have h3 : Calm s s3 := fades_calm.each _ (fun t i _ => calm_instReset t i true true) s
    have h4 : Calm s3 s4 := fades_calm.each _ (fun t ch _ => calm_stopChannel t ch) s3
    have h5 : Calm s4 s5 := (calm_orphanIf s4 _).trans (fades_calm.pfDiscard ..)
    refine (h3.trans h4).trans (h5.trans (fades_calm.each _ (fun t q hq => ?_) s5))
    split <;> exact calm_linkDown (hdown t q hq).1 t _ 0 false
  · have h3 : PortKept PortSt.br s s3 := .each (fun t i _ => bridge_instReset t i true true) s
    have h4 : PortKept PortSt.br s3 s4 := .each (fun t ch _ => portKept_of_ports (by unfold State.stopChannel; dsimp only; split <;> rfl)) s3
    have h5 : PortKept PortSt.br s4 s5 := portKept_of_ports (ports_discard s4 _ _)
    refine (bridgesBut_of_kept ((h3.trans h4).trans h5)).trans (.each (fun t q hq => ?_) s5)
    split <;> exact bridges_linkDown (hdown t q hq).1 (hdown t q hq).2 t _ 0 false

/-- The bridges that are reset, and the others. -/
theorem bridges_reset (ports : List Nat) (s : State) :
    (∀ q ∈ ports, ((s.each ports fun t p => t.bridgeReset p).port q).br = BridgeCfg.init) ∧
    ∀ q ∉ ports, ((s.each ports fun t p => t.bridgeReset p).port q).br = (s.port q).br := by
  have hself (u : State) (q : Nat) : ((u.bridgeReset q).port q).br = BridgeCfg.init := congrArg PortSt.br (port_modPort_self ..)
  have hother (u : State) {q r : Nat} (h : q ≠ r) : ((u.bridgeReset r).port q).br = (u.port q).br := congrArg PortSt.br (port_modPort_other u _ h)
  induction ports generalizing s with
  | nil => exact ⟨nofun, fun _ _ => rfl⟩
  | cons r l ih =>
    obtain ⟨hin, hout⟩ := ih (s.bridgeReset r)
    refine ⟨fun q hq => ?_, fun q hq => ?_⟩
    · by_cases hl : q ∈ l
      · exact hin q hl
      · have hqr : q = r := (List.mem_cons.1 hq).resolve_right hl
        exact (hout q hl).trans (hqr ▸ hself s r)
    · exact (hout q fun h => hq (List.mem_cons_of_mem _ h)).trans (hother s fun h => hq (h ▸ List.mem_cons_self))

/-- The faults and the fences of a partition that is reset, and the losses of its writers. -/
def faultsGone (s : State) (k : Nat) : State :=
  let s8 := if s.devFatal then s else s.setF pgFLT FLT_STATE.PART_FATAL (bitClr (s.getF pgFLT FLT_STATE.PART_FATAL) k)
  (s8.dropFences (fun f => f.part == k) false).clearLost fun b => s8.partOfInst (State.bindVi b) == k

theorem faultsGone_frame (s : State) (k : Nat) : Calm s (faultsGone s k) ∧ (faultsGone s k).ports = s.ports := by
  have hset (v : Nat) : Calm s (s.setF pgFLT FLT_STATE.PART_FATAL v) := calm_setF s v (by decide) fun j h1 _ hj => by
    unfold Still at hj
    simp only [pgFLT] at h1
    omega
  unfold faultsGone
  dsimp only
  split
  · exact ⟨calm_of_regs rfl rfl, rfl⟩
  · exact ⟨(hset _).trans (calm_of_regs rfl rfl), rfl⟩

/-- The reservations of a partition's initiators are gone. -/
def unreserved (s : State) (k : Nat) : State := { s with resv := s.resv.filter fun r => s.iniPart r.ini != k }

theorem partHotReset_eq (hon : s.partOn k = true) (hbusy : s.flag pgRST RST_PSTS.BUSY k = false) {gone : List Packet}
    (hg : gone = s.packets.filter fun x => (x.place == .ingress || x.place == .walk) && (s.partPorts k).contains x.ing && isWrite x.tlp) :
    s.partHotReset k = unreserved (faultsGone (((resetRest (busyPart (writesGone s gone) (min 0xFFFFFF gone.length) k) (s.partPorts k) k).each
      (s.partPorts k) fun t p => t.bridgeReset p).modPart k fun _ => PartSt.init) k) k := by
  subst hg
  rw [State.partHotReset, hon, hbusy, if_neg nofun]
  rfl

theorem calm_bridgeReset (s : State) (p : Nat) : Calm s (s.bridgeReset p) := calm_of_regs rfl rfl

theorem calm_rst (h : Calm s t) (hk : k < 32) {f : FRef} (hf : f.stride = 4 ∧ f.off = 0x100) : t.getF pgRST f k = s.getF pgRST f k := by
  refine getF_of_reg (h.reg _ ?_)
  obtain ⟨h1, h2⟩ := fkey_page pgRST f k (by rw [hf.1, hf.2]; omega)
  rw [hf.1, hf.2] at h2
  unfold Still
  rw [h1, h2, pgRST]
  omega

theorem partReset_done (hk : k < 32) (hon : s.partOn k = true) (hbusy : s.flag pgRST RST_PSTS.BUSY k = false) :
    ∃ t, (s.partHotReset k).done = .next t ∧ s.PartReset t k := by
  obtain ⟨gone, hg⟩ : ∃ l, l = s.packets.filter fun x => (x.place == .ingress || x.place == .walk) && (s.partPorts k).contains x.ing && isWrite x.tlp := ⟨_, rfl⟩
  have hrun := congrArg State.done (partHotReset_eq hon hbusy hg)
  unfold State.PartReset
  rw [← hg]
  obtain ⟨v, hv⟩ : ∃ v, v = min 0xFFFFFF gone.length := ⟨_, rfl⟩
  have hv24 : v < 2 ^ 24 := by omega
  rw [← hv] at hrun ⊢
  obtain ⟨hregs1, hports1, hhbm1⟩ := writesGone_frame s gone
  have hown1 : Owning s (writesGone s gone) := fun j _ _ => congrArg (fun m => storeGet regReset m j) hregs1
  generalize writesGone s gone = s1 at hrun hports1 hhbm1 hown1
  obtain ⟨hb2, hl2⟩ := busyPart_shows s1 hv24 k
  have hown2 := busyPart_owning s1 v hk
  have hports2 : (busyPart s1 v k).ports = s1.ports := rfl
  have hhbm2 : (busyPart s1 v k).hbm = s1.hbm := rfl
  generalize busyPart s1 v k = s2 at hrun hb2 hl2 hown2 hports2 hhbm2
  obtain ⟨hcalm3, hbr3⟩ := resetRest_frame s2 (ports := s.partPorts k) (fun q hq => (mem_partPorts.1 hq).1) k
  generalize resetRest s2 (s.partPorts k) k = s3 at hrun hcalm3 hbr3
  obtain ⟨hin4, hout4⟩ := bridges_reset (s.partPorts k) s3
  have hcalm4 : Calm s3 (s3.each (s.partPorts k) fun t p => t.bridgeReset p) :=
    fades_calm.each _ (f := fun t p => t.bridgeReset p) (fun t p _ => calm_bridgeReset t p) s3
  generalize (s3.each (s.partPorts k) fun t p => t.bridgeReset p) = s4 at hrun hin4 hout4 hcalm4
  have hcalm5 : Calm s4 (s4.modPart k fun _ => PartSt.init) := calm_of_regs rfl rfl
  have hports5 : (s4.modPart k fun _ => PartSt.init).ports = s4.ports := rfl
  generalize (s4.modPart k fun _ => PartSt.init) = s5 at hrun hcalm5 hports5
  obtain ⟨hcalm6, hports6⟩ := faultsGone_frame s5 k
  generalize faultsGone s5 k = s6 at hrun hcalm6 hports6
  have hcalm : Calm s2 (unreserved s6 k) := ((hcalm3.trans hcalm4).trans (hcalm5.trans hcalm6)).trans (calm_of_regs rfl rfl)
  have hport (q : Nat) : (unreserved s6 k).port q = s4.port q :=
    congrArg (fun m => storeGet (fun _ => PortSt.init) m q) (hports6.trans hports5)
  have hresv : ∀ r ∈ (unreserved s6 k).resv, s6.iniPart r.ini ≠ k := fun r hr => by simpa using (List.mem_filter.1 hr).2
  have hini (i : Initiator) : s6.iniPart i = s.iniPart i :=
    iniPart_of_owning (fun j h1 h2 => (((hcalm3.trans hcalm4).trans (hcalm5.trans hcalm6)).reg j h1).trans ((hown2 j h1 h2).trans (hown1 j h1 h2))) i
  generalize unreserved s6 k = a at hrun hcalm hport hresv
  have hrst {f : FRef} (hf : f.stride = 4 ∧ f.off = 0x100) : a.settle.sweepTrace.getF pgRST f k = s2.getF pgRST f k := by
    refine (getF_closed (apart_fkey ?_ (by decide) ?_ (by decide)) a).trans (calm_rst hcalm hk hf)
    · rw [hf.1, hf.2]
      omega
    · rw [hf.1, hf.2, show FLT_CAUSE.BITS.off = 0x40 from rfl]
      omega
  refine ⟨_, hrun.trans (done_next a), (congrArg (· == 1) (hrst (by decide))).trans hb2, (hrst (by decide)).trans hl2, fun q hq => ?_, fun q hq hout => ?_,
    fun r hr => ?_, ?_⟩
  · exact (congrArg PortSt.br ((port_closed a q).trans (hport q))).trans (hin4 q hq)
  · refine (congrArg PortSt.br ((port_closed a q).trans (hport q))).trans ((hout4 q hout).trans ((hbr3 q hout).trans ?_))
    exact congrArg (fun m => (storeGet (fun _ => PortSt.init) m q).br) (hports2.trans hports1)
  · rw [← hini]
    exact hresv r (settle_resv a ▸ hr)
  · exact (settle_hbm a).trans (hcalm.hbm.trans (hhbm2.trans hhbm1))

/-- Settles O30: a hot reset of a partition, from its bridge or its port, and none while one goes on. -/
theorem partitionHotReset : Obligations.PartitionHotReset := by
  unfold Obligations.PartitionHotReset
  refine fun s p k hinv hk hon => ⟨fun hbusy => ⟨partReset_done hk hon hbusy, fun hup hpart => ?_⟩, fun hbusy => ?_⟩
  · obtain ⟨t, ht, h⟩ := partReset_done hk hon hbusy
    refine ⟨t, ?_, h⟩
    show execHotResetReceived p s = _
    rw [execHotResetReceived, hup, if_pos rfl, hpart, ht]
  · show (s.partHotReset k).done = _
    rw [State.partHotReset, hbusy, Bool.or_true, if_pos rfl]
    exact done_closed hinv.quiet hinv.closed

end Sys2Proof.PartReset
end

section
/-! ## A fence of a partition that is none (O38)

The statement speaks of every fence that the state holds; nothing bounds its partition. The register of a partition's first instance then stands, for a
number above 23, on another page: for a certain one, where the fence's own instance reports its fences (FENCE_LAST). -/

namespace Sys2Proof.Fences

open Sys2Proof Sys2Proof.Machine Sys2Proof.Runs Sys2Proof.Tests Sys2Proof.Tests.Memory

/-- A fence of instance 5 by DMWr, whose partition's VIM_PALLOC stands at FENCE_LAST of that instance. -/
def strayFence : FenceOp := { fen true with part := 4175873, inst := 5 }

/-- Its writer has lost three writes. -/
def strayState : State := { wV with fences := [strayFence], bind := [(0, ⟨0x80000077, 5, 3⟩)] }

/-- The fence's report, COUNT 3, is read as the base of its partition when its completion is formed. -/
theorem strayFence_completer : (nextOf (exec (.fenceComplete 0) strayState)).map (fun t => t.packets.map fun k => k.tlp.cid) = some [3] := by
  decide +kernel

/-- Refutes O38: its last clause has the completion carry the Completer ID that the instance's function had before the fence; the one that leaves
carries what the registers give after the report. -/
theorem not_fencesReportLostWrites : ¬ Obligations.FencesReportLostWrites := by
  intro h
  obtain ⟨-, -, hdone⟩ := h strayState 0 0 0 0 0 none ⟨none, 0, 0⟩ strayFence (invOf (by decide +kernel))
  obtain ⟨t, hnext, -, -, -, -, -, -, hcpl⟩ := hdone (by decide) (by decide +kernel) (by decide) (by decide)
  obtain ⟨k, hk, htlp, -⟩ := hcpl (by decide +kernel) (.inl rfl) _ (List.mem_singleton_self _)
  have hcids := seen_of_next (fun u => u.packets.map fun k => k.tlp.cid) hnext
  rw [strayFence_completer, Option.some.injEq] at hcids
  have hcid : k.tlp.cid ∈ [3] := hcids ▸ List.mem_map_of_mem hk
  rw [htlp] at hcid
  exact absurd hcid (by decide +kernel)

end Sys2Proof.Fences
end

section
/-! ## Buffered writes and the writes of BAR2 (O36) -/

namespace Sys2Proof.Commits

open Sys2Proof Sys2Proof.Machine Sys2Proof.Laws Sys2Proof.Support Sys2Proof.MachineLaws Sys2Proof.Traffic

variable {s t : State}

/-- A part of the state that neither HBM, nor the mirror's stream of it, nor a register shows in. -/
def OffHbm {β : Type} (g : State → β) : Prop := ∀ (u : State) h m r, g { u with hbm := h, mir := m, regs := r } = g u

theorem hbmCommit_keeps {β : Type} {g : State → β} (hg : OffHbm g) (s : State) (region a : Nat) (l : List (Option Byte)) :
    g (s.hbmCommit region a l) = g s := by
  have hw : g (s.hbmWrite a l) = g s := by
    rw [hbmWrite_eq]
    exact hg s _ s.mir s.regs
  unfold State.hbmCommit
  extract_lets s1 grans
  split
  · exact hw
  · refine (each_eq g (fun t x _ => ?_) s1).trans hw
    dsimp only
    cases s.mirroring with
    | false => exact hg t t.hbm t.mir _
    | true => exact hg t t.hbm _ _

theorem hbm_hbmCommit (s : State) (region a : Nat) (l : List (Option Byte)) : (s.hbmCommit region a l).hbm = (s.hbmWrite a l).hbm := by
  unfold State.hbmCommit
  extract_lets s1 grans
  split
  · rfl
  · refine each_eq State.hbm (fun t x _ => ?_) s1
    dsimp only
    cases s.mirroring <;> rfl

theorem hbm_clearGranules (l : List Nat) (s : State) (i : Initiator) : (s.each l fun t g => t.clearGranule i g).hbm = s.hbm :=
  each_eq (f := fun t g => t.clearGranule i g) State.hbm (fun _ _ _ => rfl) s

theorem noteDirty_keeps {β : Type} {g : State → β} (hg : ∀ (u : State) l, g { u with listDirty := l } = g u) (s : State) (a n : Nat) :
    g (s.noteDirty a n) = g s := by
  unfold State.noteDirty
  split <;> exact hg s _

theorem hbm_swWrite (s : State) (i : Initiator) (a : Nat) (l : List (Option Byte)) : (s.swWrite i a l).hbm = (s.hbmWrite a l).hbm :=
  (hbm_clearGranules ..).trans ((hbm_hbmCommit ..).trans (hbm_hbmWrite_congr (noteDirty_keeps (g := State.hbm) (fun _ _ => rfl) s a l.length) a l))

/-- A write of the shared window leaves a part that shows neither HBM, nor the mirror, nor registers, nor reservations, nor the lists' marks. -/
theorem swWrite_keeps {β : Type} {g : State → β} (hg : OffHbm g) (hr : ∀ (u : State) r, g { u with resv := r } = g u)
    (hd : ∀ (u : State) l, g { u with listDirty := l } = g u) (s : State) (i : Initiator) (a : Nat) (l : List (Option Byte)) :
    g (s.swWrite i a l) = g s :=
  (each_eq (f := fun t n => t.clearGranule i n) g (fun t _ _ => hr t _) _).trans ((hbmCommit_keeps hg ..).trans (noteDirty_keeps hd ..))

theorem granules_one (n : Nat) : State.granules (n * 64) 64 = [n] := by
  have h1 : granOf (n * 64 + max 1 64 - 1) = n := by
    unfold granOf
    omega
  have h2 : granOf (n * 64) = n := by
    unfold granOf
    omega
  rw [State.granules, h1, h2, Nat.add_sub_cancel_left]
  rfl

theorem swWrite_granule (s : State) (i : Initiator) (n : Nat) {l : List (Option Byte)} (hl : l.length = 64) :
    (s.swWrite i (n * 64) l).resv = s.resv.filter fun x => decide (x.gran ≠ n) || x.ini == i := by
  have hr : ((s.noteDirty (n * 64) l.length).hbmCommit 0 (n * 64) l).resv = s.resv :=
    (hbmCommit_keeps (g := State.resv) (fun _ _ _ _ => rfl) ..).trans (noteDirty_keeps (g := State.resv) (fun _ _ => rfl) ..)
  unfold State.swWrite
  rw [hl, granules_one]
  exact congrArg (List.filter _) (hl ▸ hr)

theorem hbmByte_swWrite (s : State) (i : Initiator) (n : Nat) {l : List (Option Byte)} (hl : l.length = 64) (a : Nat) :
    (s.swWrite i (n * 64) l).hbmByte a = if a / 64 = n then (l.getD (a % 64) none).getD (s.hbmByte a) else s.hbmByte a := by
  have h : (s.swWrite i (n * 64) l).hbmByte a = (s.hbmWrite (n * 64) l).hbmByte a :=
    congrArg (fun m => storeGet (fun _ => (0 : Byte)) m a) (hbm_swWrite s i (n * 64) l)
  rw [h, hbmByte_hbmWrite, hl]
  by_cases ha : a / 64 = n
  · rw [if_pos ha, if_pos (by omega), show a - n * 64 = a % 64 by omega]
  · rw [if_neg ha, if_neg (by omega)]

/-! ### The commands -/

theorem writeDone_keeps {β : Type} {g : State → β} (hg : ∀ (u : State) l, g { u with openW := l } = g u) (s : State) (n : Nat) :
    g (s.writeDone n) = g s := hg s _

theorem packetOut_keeps {β : Type} {g : State → β} (hg : ∀ (u : State) l, g { u with trace := l } = g u) (s : State) (p : Packet) (c : Nat) :
    g (s.packetOut p c) = g s := by
  unfold State.packetOut
  split
  · rfl
  · exact hg s _

theorem onlyIf_keeps {β : Type} {g : State → β} {f : State → State} (h : g (f s) = g s) (b : Bool) : g (s.onlyIf b f) = g s := by
  cases b
  · rfl
  · exact h

theorem swEntryCommit_writes {i : Nat} {e : SwEntry} (he : s.swb[i]? = some e) (hmay : s.swMayCommit e = true) (hy : s.mir.yieldDue = false)
    (hp : e.poisoned = false) (hl : e.bytes.length = 64) : ∃ t, exec (.swEntryCommit i .ok) s = .next t ∧ t.swb = s.swb.eraseIdx i ∧
    (∀ a, t.hbmByte a = if a / 64 = e.gran then (e.bytes.getD (a % 64) none).getD (s.hbmByte a) else s.hbmByte a) ∧
    t.resv = s.resv.filter (fun x => decide (x.gran ≠ e.gran) || x.ini == e.ini) := by
  obtain ⟨b, hb⟩ : ∃ b, b = { s with swb := s.swb.eraseIdx i } := ⟨_, rfl⟩
  obtain ⟨w, hw⟩ : ∃ w, w = b.swWrite e.ini (e.gran * 64) e.bytes := ⟨_, rfl⟩
  have hrun : exec (.swEntryCommit i .ok) s =
      ((w.writeDone e.pkt).onlyIf (!(w.writeDone e.pkt).swb.any fun x => x.src.id == e.src.id) fun t => t.packetOut e.src 1).done := by
    show execSwEntryCommit i .ok s = _
    rw [execSwEntryCommit, he]
    dsimp only
    rw [hmay, hy, hp, if_neg nofun, if_neg nofun, hw, hb]
    rfl
  have hend {β : Type} (g : State → β) (h1 : ∀ (u : State) l, g { u with openW := l } = g u) (h2 : ∀ (u : State) l, g { u with trace := l } = g u) :
      g ((w.writeDone e.pkt).onlyIf (!(w.writeDone e.pkt).swb.any fun x => x.src.id == e.src.id) fun t => t.packetOut e.src 1) = g w :=
    (onlyIf_keeps (packetOut_keeps h2 ..) _).trans (writeDone_keeps h1 ..)
  have hswb := hend State.swb (fun _ _ => rfl) fun _ _ => rfl
  have hbyte (a : Nat) := hend (fun u => u.hbmByte a) (fun _ _ => rfl) fun _ _ => rfl
  have hresv := hend State.resv (fun _ _ => rfl) fun _ _ => rfl
  generalize ((w.writeDone e.pkt).onlyIf (!(w.writeDone e.pkt).swb.any fun x => x.src.id == e.src.id) fun t => t.packetOut e.src 1) = a
    at hrun hswb hbyte hresv
  have hswb' : w.swb = s.swb.eraseIdx i := by
    rw [hw, swWrite_keeps (g := State.swb) (fun _ _ _ _ => rfl) (fun _ _ => rfl) (fun _ _ => rfl), hb]
  refine ⟨_, hrun.trans (done_next a), (settle_swb a).trans (hswb.trans hswb'), fun c => ?_, (settle_resv a).trans (hresv.trans ?_)⟩
  · refine (congrArg (fun m => storeGet (fun _ => (0 : Byte)) m c) (settle_hbm a)).trans ((hbyte c).trans ?_)
    rw [hw, hbmByte_swWrite b e.ini e.gran hl c, hb]
    rfl
  · rw [hw, swWrite_granule b e.ini e.gran hl, hb]

theorem hbm_writeLost (s : State) (p : Packet) (a b : Nat) : (s.writeLost p a b).hbm = s.hbm ∧ (s.writeLost p a b).swb = s.swb := by
  unfold State.writeLost State.failLater
  dsimp only
  split
  · exact ⟨rfl, rfl⟩
  · split <;> exact ⟨rfl, rfl⟩

theorem swEntryCommit_poisoned {i : Nat} {e : SwEntry} (he : s.swb[i]? = some e) (hmay : s.swMayCommit e = true) (hy : s.mir.yieldDue = false)
    (hp : e.poisoned = true) : ∃ t, exec (.swEntryCommit i .ok) s = .next t ∧ t.swb = s.swb.filter (·.pkt != e.pkt) ∧ t.hbm = s.hbm := by
  obtain ⟨b, hb⟩ : ∃ b, b = { s with swb := s.swb.filter (·.pkt != e.pkt) } := ⟨_, rfl⟩
  have hrun : exec (.swEntryCommit i .ok) s = (b.writeLost e.src 9 (e.src.poison.getD (pgBUF e.cellar * 32 + 1))).done := by
    show execSwEntryCommit i .ok s = _
    rw [execSwEntryCommit, he]
    dsimp only
    rw [hmay, hy, hp, if_neg nofun, Bool.true_or, if_pos rfl, hb]
    rfl
  obtain ⟨hhbm, hswb⟩ := hbm_writeLost b e.src 9 (e.src.poison.getD (pgBUF e.cellar * 32 + 1))
  generalize b.writeLost e.src 9 (e.src.poison.getD (pgBUF e.cellar * 32 + 1)) = a at hrun hhbm hswb
  subst hb
  exact ⟨_, hrun.trans (done_next a), (settle_swb a).trans hswb, (settle_hbm a).trans hhbm⟩

theorem bar2WriteCommit_writes (hinv : s.Inv) {w : Bar2Write} {r : List Bar2Write} (h : s.bar2 = w :: r) :
    ∃ t, exec .bar2WriteCommit s = .next t ∧ t.bar2 = r ∧ t.hbm = (s.hbmWrite w.hbm w.data).hbm ∧ t.swb = s.swb ∧ t.packets = s.packets := by
  obtain ⟨b, hb⟩ : ∃ b, b = { s with bar2 := r } := ⟨_, rfl⟩
  obtain ⟨c, hc⟩ : ∃ c, c = if bitAt (s.getF pgMIR MIR_PMIRROR.PARTS) w.part then b.hbmCommit 1 w.hbm w.data else b.hbmWrite w.hbm w.data := ⟨_, rfl⟩
  have hrun : exec .bar2WriteCommit s = (c.writeDone w.pkt).done := by
    show execBar2WriteCommit s = _
    rw [execBar2WriteCommit, h, hc, hb]
  have hkeep {β : Type} (g : State → β) (hg : OffHbm g) : g c = g b := by
    rw [hc]
    split
    · exact hbmCommit_keeps hg ..
    · rw [hbmWrite_eq]
      exact hg b _ b.mir b.regs
  have hhbm : c.hbm = (s.hbmWrite w.hbm w.data).hbm := by
    have hcong : (b.hbmWrite w.hbm w.data).hbm = (s.hbmWrite w.hbm w.data).hbm := hbm_hbmWrite_congr (by rw [hb]) w.hbm w.data
    rw [hc]
    split
    · exact (hbm_hbmCommit ..).trans hcong
    · exact hcong
  have hbar2 := hkeep State.bar2 fun _ _ _ _ => rfl
  have hswb := hkeep State.swb fun _ _ _ _ => rfl
  have hpk := hkeep State.packets fun _ _ _ _ => rfl
  have hfire := hkeep State.firing fun _ _ _ _ => rfl
  have htrace := hkeep State.trace fun _ _ _ _ => rfl
  subst hb
  exact ⟨c.writeDone w.pkt, hrun.trans (done_eq hinv hfire htrace hpk hswb), hbar2, hhbm, hswb, hpk⟩

/-- Settles O36: a buffered write commits or, poisoned, is discarded; a write through BAR2 commits. -/
theorem bufferedWritesCommit : Obligations.BufferedWritesCommit := by
  unfold Obligations.BufferedWritesCommit
  exact fun s i e w r hinv => ⟨fun he hmay hy => ⟨swEntryCommit_writes he hmay hy, swEntryCommit_poisoned he hmay hy⟩, bar2WriteCommit_writes hinv⟩

end Sys2Proof.Commits
end

section
/-! ## A request at the window's engine of a partition that is none (O37)

The statement speaks of every packet that stands at the window's engine, whatever its route and its partition. Its completion carries the Completer ID that
its route gives; on the route of an instance, that is read from the partition's VIM_PALLOC, which stands, for a number above 23, on another page: for a
certain one, where the engine counts the conditional stores that failed (HBM_SW_CNT1). -/

namespace Sys2Proof.Window

open Sys2Proof Sys2Proof.Machine Sys2Proof.Runs Sys2Proof.Tests Sys2Proof.Tests.Memory

/-- A conditional store at the window's engine, routed to instance 5, whose partition's VIM_PALLOC stands at HBM_SW_CNT1. -/
def strayStore : Packet := { swPk .dmwr 2 [1, 0, 0, 0] with route := .vfBar 5 0 0, part := 1289282 }

/-- It holds no reservation, and nothing else waits. -/
def strayState : State := { reg1 with packets := [strayStore] }

/-- The count of failed stores, 1, is read as the base of its partition when its completion is formed. -/
theorem strayStore_completer : (nextOf (exec (.swSerialize 0 .ok) strayState)).map (fun t => t.packets.map fun k => k.tlp.cid) = some [5] := by
  decide +kernel

/-- Refutes O37: the clause of conditional stores has the completion carry the Completer ID that the route gave before the store was counted; the one that
leaves carries what the registers give after. -/
theorem not_sharedWindowSerialisation : ¬ Obligations.SharedWindowSerialisation := by
  intro h
  obtain ⟨-, -, hstore⟩ := h strayState 0 0 0x77 none strayStore (invOf (by decide +kernel)) (by decide +kernel) (by decide +kernel) rfl rfl rfl
    (by decide +kernel) rfl (by decide +kernel) (by decide +kernel)
  obtain ⟨t, hnext, -, -, hend⟩ := hstore rfl rfl (by decide)
  rw [if_neg (by decide +kernel)] at hend
  obtain ⟨k, hk, htlp, -⟩ := hend.2 _ (List.mem_singleton_self _)
  have hcids := seen_of_next (fun u => u.packets.map fun k => k.tlp.cid) hnext
  rw [strayStore_completer, Option.some.injEq] at hcids
  have hcid : k.tlp.cid ∈ [5] := hcids ▸ List.mem_map_of_mem hk
  rw [htlp] at hcid
  exact absurd hcid (by decide +kernel)

end Sys2Proof.Window
end

section
/-! ## The end of a LOAD (O25) -/

namespace Sys2Proof.Loads

open Sys2Proof Sys2Proof.Machine Sys2Proof.Laws Sys2Proof.Support Sys2Proof.VintageSwap Sys2Proof.ImageCommands Sys2Proof.Book

variable {s t : State} {l : LoadOp} {b : List Byte}

/-! ### A run of bytes in HBM -/

section
variable {α : Type} {d : Nat → α} {m m' : Store α} {k : Nat}

theorem storeGet_append_right (h : ∀ e ∈ m, e.1 ≠ k) : storeGet d (m ++ m') k = storeGet d m' k := by
  induction m with
  | nil => rfl
  | cons e r ih =>
    rw [List.cons_append, storeGet, if_neg (h e List.mem_cons_self)]
    exact ih fun x hx => h x (List.mem_cons_of_mem _ hx)

theorem storeGet_none (h : ∀ e ∈ m, e.1 ≠ k) : storeGet d m k = d k := by
  have := storeGet_append_right (d := d) (m' := []) h
  rwa [List.append_nil] at this

theorem storeGet_append_left (h : ∀ e ∈ m', e.1 ≠ k) : storeGet d (m ++ m') k = storeGet d m k := by
  induction m with
  | nil => exact storeGet_none h
  | cons e r ih => rw [List.cons_append, storeGet, storeGet, ih]

theorem storeGet_filter {p : Nat × α → Bool} (h : ∀ e ∈ m, e.1 = k → p e = true) : storeGet d (m.filter p) k = storeGet d m k := by
  induction m with
  | nil => rfl
  | cons e r ih =>
    have hr := ih fun x hx => h x (List.mem_cons_of_mem _ hx)
    by_cases he : e.1 = k
    · rw [List.filter_cons_of_pos (h e List.mem_cons_self he), storeGet, storeGet, if_pos he, if_pos he]
    · rw [storeGet, if_neg he, ← hr]
      cases hp : p e with
      | true => rw [List.filter_cons_of_pos hp, storeGet, if_neg he]
      | false => rw [List.filter_cons_of_neg (by simp [hp])]

end

theorem hbmRun_mem (a : Nat) (l : List Byte) : ∀ e ∈ State.hbmRun a l, a ≤ e.1 ∧ e.1 < a + l.length := by
  induction l generalizing a with
  | nil => exact nofun
  | cons b r ih =>
    intro e he
    have hin : e = (a, b) ∨ e ∈ State.hbmRun (a + 1) r := by
      unfold State.hbmRun at he
      split at he
      · exact .inr he
      · exact List.mem_cons.1 he
    rw [List.length_cons]
    rcases hin with rfl | hr
    · exact ⟨Nat.le_refl a, by omega⟩
    · have := ih (a + 1) e hr
      omega

theorem storeGet_hbmRun (a : Nat) (l : List Byte) (c : Nat) (hc : a ≤ c) : storeGet (fun _ => (0 : Byte)) (State.hbmRun a l) c = l.getD (c - a) 0 := by
  induction l generalizing a with
  | nil => rfl
  | cons b r ih =>
    have hoff : ∀ e ∈ State.hbmRun (a + 1) r, e.1 ≠ a := fun e he h => by
      have := (hbmRun_mem (a + 1) r e he).1
      omega
    unfold State.hbmRun
    by_cases h : c = a
    · rw [h, Nat.sub_self, List.getD_cons_zero]
      split
      · next hb => rw [storeGet_none hoff, hb]
      · rw [storeGet, if_pos rfl]
    · have hix : c - a = c - (a + 1) + 1 := by omega
      rw [hix, List.getD_cons_succ, ← ih (a + 1) (by omega)]
      split
      · rfl
      · rw [storeGet, if_neg (by omega)]

/-- A byte of HBM after a run is written whole. -/
theorem hbmByte_hbmPut (s : State) (a : Nat) (l : List Byte) (c : Nat) :
    (s.hbmPut a l).hbmByte c = if a ≤ c ∧ c < a + l.length then l.getD (c - a) 0 else s.hbmByte c := by
  have hlow : ∀ e ∈ s.hbm.filter (fun e => decide (e.1 < a)), e.1 < a := fun e he => of_decide_eq_true (List.mem_filter.1 he).2
  have hhigh : ∀ e ∈ s.hbm.filter (fun e => decide (a + l.length ≤ e.1)), a + l.length ≤ e.1 := fun e he => of_decide_eq_true (List.mem_filter.1 he).2
  show storeGet _ (_ ++ _ ++ _) c = _
  split
  · next hc =>
    rw [storeGet_append_left fun e he => Nat.ne_of_gt (Nat.lt_of_lt_of_le hc.2 (hhigh e he)), storeGet_append_right fun e he => Nat.ne_of_lt (Nat.lt_of_lt_of_le (hlow e he) hc.1)]
    exact storeGet_hbmRun a l c hc.1
  · next hc =>
    have hrun : ∀ e ∈ State.hbmRun a l, e.1 ≠ c := fun e he h => hc (h ▸ hbmRun_mem a l e he)
    by_cases hca : c < a
    · rw [storeGet_append_left fun e he h => ?_, storeGet_append_left hrun, storeGet_filter fun e _ he => decide_eq_true (he ▸ hca)]
      · rfl
      · have := hhigh e he
        omega
    · rw [List.append_assoc, storeGet_append_right fun e he h => ?_, storeGet_append_right hrun, storeGet_filter fun e _ he => decide_eq_true (by omega)]
      · rfl
      · have := hlow e he
        omega

/-! ### The end of a LOAD -/

/-- The bytes of a LOAD lie in its slot's part of HBM, and no command goes on. -/
def loaded (s : State) (l : LoadOp) (b : List Byte) : State :=
  ({ s.hbmPut (State.slotBase l.slot) (b.take 0x2000000) with sched := { s.sched with load := none } } : State).setFlag pgDEVSCH SCH_IMG_RES.BUSY false

theorem loaded_slots (i : Nat) : (loaded s l b).slotState i = s.slotState i ∧ (loaded s l b).slotImg i = s.slotImg i :=
  ⟨slotState_setF _ _ _ i (by decide), rfl⟩

theorem loaded_frame : (loaded s l b).sched.load = none ∧ (loaded s l b).trust = s.trust ∧ (loaded s l b).packets = s.packets ∧
    (loaded s l b).firing = s.firing ∧ (loaded s l b).trace = s.trace ∧ (loaded s l b).swb = s.swb := ⟨rfl, rfl, rfl, rfl, rfl, rfl⟩

theorem hbmByte_loaded (c : Nat) : (loaded s l b).hbmByte c = (s.hbmPut (State.slotBase l.slot) (b.take 0x2000000)).hbmByte c := rfl

theorem exec_schLoadDone (hload : s.sched.load = some l) (hout : s.loadOutstanding = false) (hb : b = s.loadBytes l) : exec (.schLoadDone l.slot) s =
    (if s.loadCheck l b ≠ 0 then ((loaded s l b).emptySlot l.slot).imgRes 1 l.slot (s.loadCheck l b)
      else ((((loaded s l b).setImg l.slot (some (parseImage b))).setSlot l.slot 2).bookAdd 4 (leBytes 4 (parseImage b).number ++ leBytes 1 l.slot ++
        leBytes 1 (parseImage b).kind ++ leBytes 1 (imgSigned b).toNat ++ leBytes 1 0 ++ leBytes 48 (parseImage b).digest)).imgRes 1 l.slot 0).done := by
  show execSchLoadDone l.slot s = _
  rw [execSchLoadDone, hload]
  dsimp only
  rw [if_neg (by simp [hout]), State.loadDone, ← hb]
  rfl

theorem loadCheck_lt (s : State) (l : LoadOp) (b : List Byte) : s.loadCheck l b < 10 := by
  have hite {p : Prop} [Decidable p] {x y : Nat} (hx : x < 10) (hy : y < 10) : (if p then x else y) < 10 := by split <;> assumption
  unfold State.loadCheck
  extract_lets body total sb
  iterate 9 refine hite (by decide) ?_
  decide

theorem trust_schFire (s : State) (n : Nat) : (s.schFire n).trust = s.trust :=
  each_eq (f := fun t c => t.fire (pgSCH c) n) State.trust (fun _ _ _ => rfl) s

/-- A LOAD whose checks fail leaves its slot EMPTY. -/
theorem schLoadDone_fails (hi : l.slot < 8) (hload : s.sched.load = some l) (hout : s.loadOutstanding = false) (hb : b = s.loadBytes l)
    (hbad : s.loadCheck l b ≠ 0) : ∃ t, exec (.schLoadDone l.slot) s = .next t ∧ t.slotState l.slot = 0 ∧ t.slotImg l.slot = none ∧
    s.SlotsKept t l.slot ∧ t.ImgAnswer 1 l.slot (s.loadCheck l b) ∧ t.sched.load = none ∧ t.trust = s.trust := by
  have hrun := exec_schLoadDone hload hout hb
  have hc := loadCheck_lt s l b
  rw [if_pos hbad, imgRes_refused _ _ _ hbad] at hrun
  generalize s.loadCheck l b = code at hrun hc hbad ⊢
  have hslots := loaded_slots (s := s) (l := l) (b := b)
  obtain ⟨hnone, htrust, -⟩ := loaded_frame (s := s) (l := l) (b := b)
  generalize loaded s l b = u at hrun hslots hnone htrust
  have hst (j : Nat) : (answered (u.emptySlot l.slot) 1 l.slot code).slotState j = if j = l.slot then 0 else u.slotState j :=
    (slotState_answered ..).trans (slotState_emptySlot hi j)
  have himg (j : Nat) : (answered (u.emptySlot l.slot) 1 l.slot code).slotImg j = if j = l.slot then none else u.slotImg j :=
    (slotImg_answered ..).trans (slotImg_emptySlot j)
  have hans : (answered (u.emptySlot l.slot) 1 l.slot code).ImgAnswer 1 l.slot code := answered_answer (by decide) hi (by omega)
  have hload' : (answered (u.emptySlot l.slot) 1 l.slot code).sched.load = none := hnone
  have htrust' : (answered (u.emptySlot l.slot) 1 l.slot code).trust = s.trust := htrust
  generalize answered (u.emptySlot l.slot) 1 l.slot code = a at hrun hst himg hans hload' htrust'
  have hkeep := (keeps_schFire a 5).trans (keeps_close _)
  have hsame := hkeep.sameDevSch
  have himg' (j : Nat) : (a.schFire 5).settle.sweepTrace.slotImg j = a.slotImg j := congrArg (fun x : SchedSt => storeGet (fun _ => none) x.slots j) hkeep.sched
  obtain ⟨hdone, hcmd, hslot, hres⟩ := hans
  refine ⟨_, hrun.trans (done_next _), ?_, ?_, fun j hj hne => ⟨?_, ?_⟩, ⟨?_, ?_, ?_, ?_⟩, ?_, ?_⟩
  · rw [hsame.slotState, hst, if_pos rfl]
  · rw [himg', himg, if_pos rfl]
  · rw [hsame.slotState, hst, if_neg hne, (hslots j).1]
  · rw [himg', himg, if_neg hne, (hslots j).2]
  · exact (congrArg (· == 1) (hsame.getF SCH_IMG_RES.DONE (by decide))).trans hdone
  · exact (hsame.getF SCH_IMG_RES.CMD (by decide)).trans hcmd
  · exact (hsame.getF SCH_IMG_RES.SLOT (by decide)).trans hslot
  · exact (hsame.getF SCH_IMG_RES.RESULT (by decide)).trans hres
  · exact (congrArg SchedSt.load hkeep.sched).trans hload'
  · exact (settle_trust _).trans ((trust_schFire a 5).trans htrust')

/-- The slot of a LOAD that is good, before its record. -/
def readied (u : State) (i : Nat) (v : Vintage) : State := (u.setImg i (some v)).setSlot i 2

theorem readied_slots {u : State} {i : Nat} (hi : i < 8) (v : Vintage) (j : Nat) :
    (readied u i v).slotState j = (if j = i then 2 else u.slotState j) ∧ (readied u i v).slotImg j = if j = i then some v else u.slotImg j := by
  have himg : (readied u i v).sched.slots = storeSet (fun _ => none) u.sched.slots i (some v) := rfl
  refine ⟨(slotState_setSlot _ 2 j hi).trans ?_, ?_⟩
  · rw [slotState_setImg]
  · unfold State.slotImg
    rw [himg, storeGet_set]

theorem readied_frame (u : State) (i : Nat) (v : Vintage) : (readied u i v).sched.load = u.sched.load ∧ (readied u i v).trust = u.trust ∧
    (readied u i v).packets = u.packets ∧ (readied u i v).firing = u.firing ∧ (readied u i v).trace = u.trace ∧ (readied u i v).swb = u.swb ∧
    (readied u i v).hbm = u.hbm := ⟨rfl, rfl, rfl, rfl, rfl, rfl, rfl⟩

/-- What the record in the Book leaves. -/
theorem recorded_frame (u : State) (x : TrustSt) (n j : Nat) : (({ u with trust := x } : State).setF pgTRU TRU_BSEQ.NEXT n).slotState j = u.slotState j := by
  unfold State.slotState State.getP
  rw [reg_setF, if_neg (by decide)]
  rfl

theorem schLoadDone_ready (hinv : s.Inv) (hi : l.slot < 8) (hload : s.sched.load = some l) (hout : s.loadOutstanding = false) (hb : b = s.loadBytes l)
    (hgood : s.loadCheck l b = 0) (hroom : s.trust.held.length < 4096) : ∃ t, exec (.schLoadDone l.slot) s = .next t ∧
    (∀ a, t.hbmByte a = if State.slotBase l.slot ≤ a ∧ a < State.slotBase l.slot + min b.length 0x2000000
      then b.getD (a - State.slotBase l.slot) 0 else s.hbmByte a) ∧ t.slotState l.slot = 2 ∧
    t.slotImg l.slot = some (parseImage b) ∧ s.SlotsKept t l.slot ∧ t.ImgAnswer 1 l.slot 0 ∧ t.sched.load = none ∧
    t.trust.held.length = s.trust.held.length + 1 ∧ t.packets = s.packets := by
  have hrun := exec_schLoadDone hload hout hb
  rw [if_neg (by simp [hgood])] at hrun
  obtain ⟨body, hbody⟩ : ∃ y, y = leBytes 4 (parseImage b).number ++ leBytes 1 l.slot ++ leBytes 1 (parseImage b).kind ++
    leBytes 1 (imgSigned b).toNat ++ leBytes 1 0 ++ leBytes 48 (parseImage b).digest := ⟨_, rfl⟩
  rw [← hbody] at hrun
  have hslots := loaded_slots (s := s) (l := l) (b := b)
  have hbyte := hbmByte_loaded (s := s) (l := l) (b := b)
  obtain ⟨hnone, htrust, hpk, hfire, htrace, hswb⟩ := loaded_frame (s := s) (l := l) (b := b)
  generalize loaded s l b = u at hrun hslots hbyte hnone htrust hpk hfire htrace hswb
  generalize parseImage b = v at hrun ⊢
  have hslots' := readied_slots (u := u) hi v
  obtain ⟨hnone', htrust', hpk', hfire', htrace', hswb', hhbm'⟩ := readied_frame u l.slot v
  have hrun' : exec (.schLoadDone l.slot) s = (((readied u l.slot v).bookAdd 4 body).imgRes 1 l.slot 0).done := hrun
  generalize readied u l.slot v = w at hrun' hslots' hnone' htrust' hpk' hfire' htrace' hswb' hhbm'
  obtain ⟨x, hx, heq⟩ := bookAdd_of_room (s := w) 4 body (by rw [htrust', htrust]; exact hroom)
  have hstate := recorded_frame w x (w.getF pgTRU TRU_BSEQ.NEXT + 1)
  rw [heq, imgRes_zero] at hrun'
  have himg (j : Nat) : (({ w with trust := x } : State).setF pgTRU TRU_BSEQ.NEXT (w.getF pgTRU TRU_BSEQ.NEXT + 1)).slotImg j = w.slotImg j := rfl
  have hw : ({ w with trust := x } : State).setF pgTRU TRU_BSEQ.NEXT (w.getF pgTRU TRU_BSEQ.NEXT + 1) =
    { w with trust := x, regs := (({ w with trust := x } : State).setF pgTRU TRU_BSEQ.NEXT (w.getF pgTRU TRU_BSEQ.NEXT + 1)).regs } := rfl
  generalize ({ w with trust := x } : State).setF pgTRU TRU_BSEQ.NEXT (w.getF pgTRU TRU_BSEQ.NEXT + 1) = y at hrun' hstate himg hw
  have hkeep {β : Type} (g : State → β) (hg : ∀ (u : State) r z, g { u with trust := z, regs := r } = g u) : g (answered y 1 l.slot 0) = g w := by
    have h1 : g (answered y 1 l.slot 0) = g y := hg y _ y.trust
    rw [h1, hw]
    exact hg w y.regs x
  have htr : (answered y 1 l.slot 0).trust = x := by
    show y.trust = x
    rw [hw]
  have hd := done_eq (t := answered y 1 l.slot 0) hinv ((hkeep State.firing fun _ _ _ => rfl).trans (hfire'.trans hfire))
    ((hkeep State.trace fun _ _ _ => rfl).trans (htrace'.trans htrace)) ((hkeep State.packets fun _ _ _ => rfl).trans (hpk'.trans hpk))
    ((hkeep State.swb fun _ _ _ => rfl).trans (hswb'.trans hswb))
  refine ⟨_, hrun'.trans hd, fun c => ?_, ?_, ?_, fun j hj hne => ⟨?_, ?_⟩, answered_answer (by decide) hi (by decide), ?_, ?_, ?_⟩
  · refine (hkeep (fun z => z.hbmByte c) fun _ _ _ => rfl).trans ((congrArg (fun m => storeGet (fun _ => (0 : Byte)) m c) hhbm').trans ((hbyte c).trans ?_))
    rw [hbmByte_hbmPut, List.length_take, Nat.min_comm]
    generalize 0x2000000 = n
    split
    · next hc =>
      rw [List.getD_eq_getElem?_getD, List.getD_eq_getElem?_getD, List.getElem?_take_of_lt (by omega)]
    · rfl
  · rw [slotState_answered, hstate, (hslots' _).1, if_pos rfl]
  · rw [slotImg_answered, himg, (hslots' _).2, if_pos rfl]
  · rw [slotState_answered, hstate, (hslots' _).1, if_neg hne, (hslots j).1]
  · rw [slotImg_answered, himg, (hslots' _).2, if_neg hne, (hslots j).2]
  · exact (hkeep (fun z => z.sched.load) fun _ _ _ => rfl).trans (hnone'.trans hnone)
  · rw [htr, hx.held, htrust', htrust]
  · exact (hkeep State.packets fun _ _ _ => rfl).trans (hpk'.trans hpk)

/-! ### The Completion Timeout of a LOAD's reads -/

/-- `t` is `s` but for packets and tracker entries that are gone. -/
structure Sheds (s t : State) : Prop where
  regs : t.regs = s.regs
  firing : t.firing = s.firing
  packets : ∀ k ∈ t.packets, k ∈ s.packets
  trk : ∀ e ∈ t.trk, e ∈ s.trk

theorem Sheds.trans {a b c : State} (h : Sheds a b) (h' : Sheds b c) : Sheds a c :=
  ⟨h'.regs.trans h.regs, h'.firing.trans h.firing, fun k hk => h.packets k (h'.packets k hk), fun e he => h.trk e (h'.trk e he)⟩

theorem Sheds.each {α : Type} {l : List α} {f : State → α → State} (hf : ∀ t x, Sheds t (f t x)) (s : State) : Sheds s (s.each l f) := by
  induction l generalizing s with
  | nil => exact ⟨rfl, rfl, fun _ h => h, fun _ h => h⟩
  | cons x r ih => exact (hf s x).trans (ih (f s x))

theorem sheds_trkDrop (s : State) (e : TrkEntry) : Sheds s (s.trkDrop e) := ⟨rfl, rfl, fun _ h => h, fun _ h => List.mem_of_mem_filter h⟩

theorem sheds_drop (s : State) (p : Packet) : Sheds s { s.dropPacket p.id with trk := s.trk.filter (·.pkt.id != p.id) } :=
  ⟨rfl, rfl, fun _ h => List.mem_of_mem_filter h, fun _ h => List.mem_of_mem_filter h⟩

/-- Entries that are dropped one after another are gone. -/
theorem notMem_trkDrops {e : TrkEntry} {l : List TrkEntry} (he : e ∈ l) (s : State) : e ∉ (s.each l fun t e => t.trkDrop e).trk := by
  induction l generalizing s with
  | nil => exact absurd he List.not_mem_nil
  | cons x r ih =>
    rcases List.mem_cons.1 he with rfl | hr
    · intro hin
      have h := (Sheds.each (l := r) (f := fun t e => t.trkDrop e) (fun t e => sheds_trkDrop t e) (s.trkDrop e)).trk e hin
      simpa using (List.mem_filter.1 h).2
    · exact ih hr _

theorem loadCompletionTimeout_fails {e : TrkEntry} (hinv : s.Inv) (hload : s.sched.load = some l) (he : e ∈ s.trk)
    (hof : State.ofLoad e.pkt.owner = true) (hlate : e.born + (s.part l.part).cplTimeout ≤ s.ticks) : ∃ t,
    exec .loadCompletionTimeout s = .next t ∧ t.sched.load = some { l with failed := true } ∧ e ∉ t.trk ∧
    (∀ x ∈ t.trk, x ∈ s.trk) ∧ t.regs = s.regs ∧ (∀ k ∈ t.packets, k ∈ s.packets) := by
  obtain ⟨late, hl⟩ : ∃ x, x = s.trk.filter fun e => State.ofLoad e.pkt.owner && decide (e.born + (s.part l.part).cplTimeout ≤ s.ticks) := ⟨_, rfl⟩
  obtain ⟨waits, hw⟩ : ∃ x, x = s.packets.filter fun p => State.ofLoad p.owner && !(s.port (State.portOfQueue p.queue)).sending.any fun x => x.1 == p.id := ⟨_, rfl⟩
  have hin : e ∈ late := hl ▸ List.mem_filter.2 ⟨he, by simp [hof, hlate]⟩
  have hempty : late.isEmpty = false := by
    cases late with
    | nil => exact absurd hin List.not_mem_nil
    | cons x r => rfl
  obtain ⟨a, ha⟩ : ∃ a, a = (s.each late fun t e => t.trkDrop e).each waits fun t p => { t.dropPacket p.id with trk := t.trk.filter (·.pkt.id != p.id) } := ⟨_, rfl⟩
  have hrun : exec .loadCompletionTimeout s = ({ a with sched := { a.sched with load := some { l with failed := true } } } : State).done := by
    show execLoadCompletionTimeout s = _
    rw [execLoadCompletionTimeout, hload]
    dsimp only
    rw [← hl, ← hw, hempty, Bool.false_and, if_neg nofun, ← ha]
  have h1 : Sheds s (s.each late fun t e => t.trkDrop e) := Sheds.each (fun t e => sheds_trkDrop t e) s
  have h2 : Sheds (s.each late fun t e => t.trkDrop e) a := ha ▸ Sheds.each (f := fun t p => { t.dropPacket p.id with trk := t.trk.filter (·.pkt.id != p.id) })
    (fun t p => sheds_drop t p) _
  have hgone : e ∉ a.trk := fun h => notMem_trkDrops hin s (h2.trk e h)
  have hall := h1.trans h2
  have hquiet : ({ a with sched := { a.sched with load := some { l with failed := true } } } : State).firing = [] := hall.firing.trans hinv.quiet
  exact ⟨_, hrun.trans (Spine.done_quiet hquiet), rfl, hgone, hall.trk, hall.regs, hall.packets⟩

theorem shadowFillDone_fills (hinv : s.Inv) {a : ArmOp} (h : s.sched.arm = some a) :
    exec .shadowFillDone s = .next { s with sched := { s.sched with arm := some { a with filled := true } } } := by
  show execShadowFillDone s = _
  rw [execShadowFillDone, h]
  exact done_eq hinv rfl rfl rfl rfl

/-- Settles O25: the end of a LOAD by its checks, the Completion Timeout of its reads, and the fill of the shadow tables. -/
theorem loadsEndInAReadyOrEmptySlot : Obligations.LoadsEndInAReadyOrEmptySlot := by
  unfold Obligations.LoadsEndInAReadyOrEmptySlot
  intro s l a e b hinv hi
  refine ⟨fun hload hout hb => ⟨schLoadDone_fails hi hload hout hb, schLoadDone_ready hinv hi hload hout hb⟩,
    fun hload he hof hlate => loadCompletionTimeout_fails hinv hload he hof hlate, shadowFillDone_fills hinv⟩

end Sys2Proof.Loads
end

section
/-! ## A read of the shared window passes the ordering point (O17) -/

namespace Sys2Proof.OrderPoint

open Sys2Proof Sys2Proof.Machine Sys2Proof.Laws Sys2Proof.Support

variable {s t : State} {p : Packet}

/-! ### What accounting beside the packets leaves -/

/-- Packets, firings, the order, memory and the records of writes and requests are as they were. -/
structure Beside (s t : State) : Prop where
  packets : t.packets = s.packets
  firing : t.firing = s.firing
  order : t.order = s.order
  hbm : t.hbm = s.hbm
  swb : t.swb = s.swb
  trk : t.trk = s.trk

theorem Beside.refl (s : State) : Beside s s := ⟨rfl, rfl, rfl, rfl, rfl, rfl⟩

theorem Beside.trans {a b c : State} (h : Beside a b) (h' : Beside b c) : Beside a c :=
  ⟨h'.packets.trans h.packets, h'.firing.trans h.firing, h'.order.trans h.order, h'.hbm.trans h.hbm, h'.swb.trans h.swb, h'.trk.trans h.trk⟩

theorem Beside.onlyIf {b : Bool} {f : State → State} (h : Beside s (f s)) : Beside s (s.onlyIf b f) := by
  cases b
  · exact .refl s
  · exact h

theorem beside_count (s : State) (c code q tc n : Nat) : Beside s (s.count c code q tc n) :=
  have h := quiet_count s c code q tc n
  ⟨h.eq State.packets, h.eq State.firing, h.eq State.order, h.eq State.hbm, h.eq State.swb, h.eq State.trk⟩

theorem beside_setF (s : State) (pg : Nat) (f : FRef) (v i : Nat) : Beside s (s.setF pg f v i) := ⟨rfl, rfl, rfl, rfl, rfl, rfl⟩

theorem beside_grantCells (s : State) (q c n : Nat) : Beside s (s.grantCells q c n) := by
  have hup (u : State) : Beside u (u.upkeepDue q) := ⟨rfl, rfl, rfl, rfl, rfl, rfl⟩
  have hmod (f : FflSt → FflSt) : Beside s (s.modFfl q f) := ⟨rfl, rfl, rfl, rfl, rfl, rfl⟩
  unfold State.grantCells
  exact (hmod _).trans (.onlyIf (hup _))

theorem beside_freeIngress (s : State) (q : Nat) (x : Tlp) (n : Nat) : Beside s (s.freeIngress q x n) := by
  unfold State.freeIngress State.giveCredit
  dsimp only
  split
  · exact .refl s
  split
  · exact ⟨rfl, rfl, rfl, rfl, rfl, rfl⟩
  split
  · split
    · exact .refl s
    · exact beside_grantCells s q _ n
  · split
    · exact .refl s
    · exact ⟨rfl, rfl, rfl, rfl, rfl, rfl⟩

theorem beside_traceRec (s : State) (c n m : Nat) (p : Packet) (e : Option Nat) (b : Bool) : Beside s (s.traceRec c n m p e b).2 := by
  unfold State.traceRec
  dsimp only
  split <;> exact ⟨rfl, rfl, rfl, rfl, rfl, rfl⟩

theorem beside_sampleOne (s : State) (c n : Nat) (p : Packet) (e : Option Nat) (b : Bool) (x : Option Nat) : Beside s (s.sampleOne c n p e b x).1 := by
  unfold State.sampleOne
  extract_lets pg m s1
  have h1 : Beside s s1 := beside_setF ..
  split
  · exact .refl s
  split
  · exact h1
  split
  · exact h1.trans (beside_setF ..)
  split
  · exact h1.trans (beside_setF ..)
  · have h2 := beside_traceRec s1 c n m p e b
    generalize s1.traceRec c n m p e b = r at h2
    exact h1.trans ⟨h2.packets, h2.firing, h2.order, h2.hbm, h2.swb, h2.trk⟩

theorem beside_samplePass (s : State) (p : Packet) (e : Option Nat) (b : Bool) : Beside s (s.samplePass p e b).1 := by
  have h (l : List Nat) (x : State × Option Nat) : Beside x.1 (l.foldl (fun a n => a.1.sampleOne p.cell0 n p e b a.2) x).1 := by
    induction l generalizing x with
    | nil => exact .refl _
    | cons n r ih => exact (beside_sampleOne ..).trans (ih _)
  exact h (List.range 4) (s, none)

/-! ### The pass -/

/-- A packet that passes: it takes the next place in the order. -/
def entered (s : State) (p : Packet) : State :=
  ({ s.leaveIngress p with order := (s.leaveIngress p).order + 1 } : State).count p.cell0 4 (if p.ing < 64 then State.localPort p.ing else 16) (p.tlp.tc % 8) 1

theorem leaveIngress_frame (s : State) (p : Packet) : Beside (s.dropPacket p.id) (s.leaveIngress p) := .onlyIf (beside_freeIngress ..)

theorem entered_frame (s : State) (p : Packet) : (entered s p).packets = s.packets.filter (fun x => x.id != p.id) ∧ (entered s p).firing = s.firing ∧
    (entered s p).order = s.order + 1 ∧ (entered s p).hbm = s.hbm ∧ (entered s p).swb = s.swb ∧ (entered s p).trk = s.trk := by
  have h1 := leaveIngress_frame s p
  unfold entered
  generalize s.leaveIngress p = a at h1
  have h2 := beside_count ({ a with order := a.order + 1 } : State) p.cell0 4 (if p.ing < 64 then State.localPort p.ing else 16) (p.tlp.tc % 8) 1
  exact ⟨h2.packets.trans h1.packets, h2.firing.trans h1.firing, h2.order.trans (congrArg (· + 1) h1.order), h2.hbm.trans h1.hbm, h2.swb.trans h1.swb,
    h2.trk.trans h1.trk⟩

/-- A request that is no write and came over no fabric only enters. -/
theorem pass_read (hw : isWrite p.tlp = false) (hf : p.fab = none) : ∃ k, s.pass p 0 = (entered s p, k) ∧ k.id = p.id ∧ k.tlp = p.tlp ∧ k.order = s.order := by
  have hcov : s.coveredKey p = none := by
    unfold State.coveredKey State.mirroredKey
    rw [hw]
    simp
  have horder : (s.leaveIngress p).order = s.order := (leaveIngress_frame s p).order
  unfold State.pass
  rw [hcov]
  dsimp only
  unfold State.enter
  extract_lets s0 fresh b p1 s1 s2
  have h2 : s2 = s1 := by
    simp only [s2, hf]
  have hnew : isNewWrite p1 = false := by
    show (isWrite p.tlp && _) = false
    rw [hw, Bool.false_and]
  refine ⟨p1, ?_, rfl, rfl, horder⟩
  rw [State.takeNumber, hnew, Bool.not_false, if_pos rfl, h2]
  rfl

theorem sharedPass_read (hw : isWrite p.tlp = false) (hf : p.fab = none) (htag : s.engineTag p = some p) : ∃ q, q.id = p.id ∧ q.tlp = p.tlp ∧
    q.place = .window ∧ q.order = s.order ∧ ∃ a, Beside (entered s p) a ∧ s.sharedPass p = { a with packets := a.packets ++ [q] } := by
  obtain ⟨k, hpass, hid, htlp, hord⟩ := pass_read (s := s) hw hf
  refine ⟨{ k with place := .window, sample := ((entered s p).samplePass k none false).2 }, hid, htlp, rfl, hord, ((entered s p).samplePass k none false).1,
    beside_samplePass .., ?_⟩
  rw [State.sharedPass, hw, if_neg nofun, htag]
  dsimp only
  rw [hpass]

/-- A read of the shared window that may pass does. -/
theorem ingressPass_sharedRead {h : Nat} (hplace : p.place = .ingress) (hkind : p.tlp.kind = .mrd) (hroute : p.route = .shared h) (hfab : p.fab = none)
    (hbad : p.bad = false) (hacc : s.fabric ≥ p.acc.getLastD 0 + 30) (hposted : s.earlierPosted p.ini p.id = false)
    (hclean : (s.port p.ing).cleanup = false) (hfatal : s.devFatal = false) (hstandby : s.standby = false) (hhdm : s.hdmPast p = false)
    (hend : h + max 1 p.tlp.len ≤ s.regionBase 1 + s.regionSize 1) (hgone : (s.sharedPass p).stillWaits p = false) :
    s.ingressPass p = (s.sharedPass p, none) := by
  have hw : isWrite p.tlp = false := by
    unfold isWrite
    rw [hkind]
    rfl
  have hbar : s.barAhead p = false := by
    unfold State.barAhead
    rw [hroute]
    rfl
  have hbroken : s.brokenWrite p = false := by
    unfold State.brokenWrite
    rw [hw]
    simp
  have hmirror : s.mirrorWaits p = none := by
    unfold State.mirrorWaits State.mirroredKey
    rw [hw]
    simp
  have hroute' : s.passRoute p = (s.sharedPass p, none) := by
    unfold State.passRoute
    rw [hroute]
    dsimp only
    rw [hhdm, if_neg nofun, if_neg (by omega)]
  unfold State.ingressPass
  rw [hroute, hfab]
  dsimp only
  refine (if_neg ?_).trans ?_
  · rw [hplace, hposted, hbar]
    cases hp : p.acc with
    | nil => simp
    | cons a l =>
      rw [hp, List.getLastD_cons] at hacc
      simpa using hacc
  · have hfrt : s.frtTake p = some (s, p) := by
      unfold State.frtTake
      rw [hfab]
    rw [hbad, hclean, hfatal, hstandby, hbroken, hmirror, hfrt, Bool.and_false, Bool.false_and, Bool.false_and]
    dsimp only
    rw [if_neg nofun, if_neg nofun, hroute', hgone]
    rfl

theorem ingressOrderPass_sharedRead {ing h : Nat} (hinv : s.Inv) (hing : ing < 64) (hrun : s.cellarRun (cellarOf ing) = true)
    (hhead : s.ingressHead ing 1 = some p) (hplace : p.place = .ingress) (hkind : p.tlp.kind = .mrd) (hroute : p.route = .shared h) (hfab : p.fab = none)
    (hbad : p.bad = false) (hacc : s.fabric ≥ p.acc.getLastD 0 + 30) (hposted : s.earlierPosted p.ini p.id = false)
    (hclean : (s.port ing).cleanup = false) (hfatal : s.devFatal = false) (hstandby : s.standby = false) (htag : s.engineTag p = some p)
    (hhdm : s.hdmPast p = false) (hend : h + max 1 p.tlp.len ≤ s.regionBase 1 + s.regionSize 1) :
    ∃ t q, exec (.ingressOrderPass ing 1) s = .next t ∧ t.order = s.order + 1 ∧ q.id = p.id ∧ q.tlp = p.tlp ∧ q.place = .window ∧
      q.order = s.order ∧ t.packets = s.packets.filter (fun x => x.id != p.id) ++ [q] ∧ t.hbm = s.hbm ∧ t.swb = s.swb ∧ t.trk = s.trk := by
  have hpi : p.ing = ing := by
    have h1 := List.find?_some hhead
    simp only [Bool.and_eq_true, beq_iff_eq] at h1
    exact h1.1.2
  have hw : isWrite p.tlp = false := by
    unfold isWrite
    rw [hkind]
    rfl
  obtain ⟨q, hid, htlp, hq, hord, a, hbeside, hpass⟩ := sharedPass_read hw hfab htag
  obtain ⟨hpk, hfire, horder, hhbm, hswb, htrk⟩ := entered_frame s p
  have hpackets : a.packets ++ [q] = s.packets.filter (fun x => x.id != p.id) ++ [q] := by rw [hbeside.packets, hpk]
  have hgone : (s.sharedPass p).stillWaits p = false := by
    rw [hpass]
    refine List.any_eq_false.2 fun x hx => ?_
    rw [hpackets] at hx
    rcases List.mem_append.1 hx with h1 | h1
    · have h2 := (List.mem_filter.1 h1).2
      simp only [bne_iff_ne] at h2
      simp [h2]
    · rw [List.mem_singleton.1 h1, hq]
      simp
  have hrun' : exec (.ingressOrderPass ing 1) s = ({ a with packets := a.packets ++ [q] } : State).done := by
    show execIngressOrderPass ing 1 s = _
    rw [execIngressOrderPass, if_pos hing, hrun, if_neg nofun, hhead]
    dsimp only
    rw [ingressPass_sharedRead hplace hkind hroute hfab hbad hacc hposted (hpi ▸ hclean) hfatal hstandby hhdm hend hgone, hpass]
    rfl
  have hquiet : ({ a with packets := a.packets ++ [q] } : State).firing = [] := hbeside.firing.trans (hfire.trans hinv.quiet)
  exact ⟨_, q, hrun'.trans (Spine.done_quiet hquiet), hbeside.order.trans horder, hid, htlp, hq, hord, hpackets, hbeside.hbm.trans hhbm,
    hbeside.swb.trans hswb, hbeside.trk.trans htrk⟩

/-- Settles O17: the read takes its place in the order and waits at the window's engine. -/
theorem sharedReadPassesTheOrderingPoint : Obligations.SharedReadPassesTheOrderingPoint := by
  unfold Obligations.SharedReadPassesTheOrderingPoint
  exact fun s ing h p => ingressOrderPass_sharedRead

end Sys2Proof.OrderPoint
end

section
/-! ## A memory request is accepted (O14) -/

namespace Sys2Proof.Accepted

open Sys2Proof Sys2Proof.Machine Sys2Proof.Laws Sys2Proof.Support Sys2Proof.OrderPoint

variable {s a : State} {p d : Nat} {tlp : Tlp} {acc : List Nat} {k : Packet}

/-! ### The state with the packet in the ingress -/

/-- The cells of a TLP are accepted: what accounting leaves, and the number of the next packet and the schedule. -/
theorem acceptCells_frame (s : State) (p c tc : Nat) (acc : List Nat) : Beside s (s.acceptCells p c tc acc) ∧
    (s.acceptCells p c tc acc).nextId = s.nextId ∧ (s.acceptCells p c tc acc).sched = s.sched := by
  have hpol (n : Nat) : Quiet s (s.polDebit p c n) := by
    unfold State.polDebit
    split
    · exact .refl s
    · exact quiet_setF ..
  have hacc (n i j : Nat) (q : Nat) : Beside s ((s.polDebit p c n).count q 2 i j n) ∧ ((s.polDebit p c n).count q 2 i j n).nextId = s.nextId ∧
      ((s.polDebit p c n).count q 2 i j n).sched = s.sched := by
    have h := (hpol n).trans (quiet_count (s.polDebit p c n) q 2 i j n)
    exact ⟨⟨h.eq State.packets, h.eq State.firing, h.eq State.order, h.eq State.hbm, h.eq State.swb, h.eq State.trk⟩, h.eq State.nextId, h.eq State.sched⟩
  unfold State.acceptCells
  extract_lets n s1
  obtain ⟨h1, h2, h3⟩ := hacc n (State.localPort p) (tc % 8) (cellarOf p)
  split
  · exact ⟨h1, h2, h3⟩
  · exact ⟨⟨h1.packets, h1.firing, h1.order, h1.hbm, h1.swb, h1.trk⟩, h2, h3⟩

/-- A received TLP stands behind the packets that were there. -/
theorem receive_frame (h : s.receive p tlp acc = (a, k)) : a.packets = s.packets ++ [k] ∧ a.nextId = s.nextId + 1 ∧ a.hbm = s.hbm ∧ a.trk = s.trk ∧
    a.sched = s.sched ∧ k.id = s.nextId ∧ k.tlp = tlp ∧ k.ing = p ∧ k.ideBad = false ∧ k.ebase = tlp.addr ∧ k.elen = tlp.len ∧
    (tlp.kind = .mrd ∨ tlp.kind = .mwr → k.ini = .port p tlp.rid tlp.pasid) := by
  obtain ⟨hb, hid, hsched⟩ := acceptCells_frame s p (tlpCls tlp) tlp.tc (s.accTicks acc (cellsOf (tlpBytes tlp)))
  unfold State.receive at h
  dsimp only at h
  generalize s.acceptCells p (tlpCls tlp) tlp.tc (s.accTicks acc (cellsOf (tlpBytes tlp))) = s0 at h hb hid hsched
  generalize (if (tlp.kind == .cxlRd || tlp.kind == .cxlWr || tlp.kind == .cpl) = true then (none, false) else s0.bindLookup p tlp.rid tlp.pasid) = r at h
  obtain ⟨b, bad⟩ := r
  injection h with ha hk
  subst hk
  have hfire : ∀ u : State, u = s0.onlyIf bad (fun u => u.fire pgVIM 0 (s0.portPart p) p) → u.packets = s0.packets ∧ u.nextId = s0.nextId ∧ u.hbm = s0.hbm ∧
      u.trk = s0.trk ∧ u.sched = s0.sched := by
    intro u hu
    subst hu
    cases bad <;> exact ⟨rfl, rfl, rfl, rfl, rfl⟩
  obtain ⟨h1, h2, h3, h4, h5⟩ := hfire _ rfl
  subst ha
  refine ⟨?_, ?_, h3.trans hb.hbm, h4.trans hb.trk, h5.trans hsched, hid, rfl, rfl, rfl, rfl, rfl, fun hkind => ?_⟩
  · exact congrArg (· ++ _) (h1.trans hb.packets)
  · exact congrArg (· + 1) (h2.trans hid)
  · show (if _ then _ else _) = _
    rcases hkind with hkind | hkind <;> rw [hkind] <;> rfl

/-! ### Its route -/

/-- A port that every judged byte of a request may reach lets the request through. -/
theorem accessCheck_port {q : Packet} (hroute : q.route = .port d) (hini : engOf q = none) (hffl : s.isFfl d = false)
    (hjudge : s.judge 0 d q.part (needsRd q.tlp) (needsWr q.tlp) (judgedAddrs q.tlp) = none) : s.accessCheck q = (s, some q) := by
  have hcs : s.checksOf q = [(0, d, fun x => x)] := by
    unfold State.checksOf State.routeClass
    rw [hini, hroute]
    dsimp only
    rw [hffl]
    rfl
  have hfind : (judgedAddrs q.tlp).find? (fun b => !s.byteAllowed 0 d q.part (needsRd q.tlp) (needsWr q.tlp) b) = none := by
    unfold State.judge at hjudge
    dsimp only at hjudge
    split at hjudge
    · next h => exact h
    · cases hjudge
  have hall : s.judgeAll q = none := by
    unfold State.judgeAll
    dsimp only
    rw [hcs]
    have haddrs : s.checkedAddrs q [(0, d, fun x => x)] = judgedAddrs q.tlp := by
      unfold State.checkedAddrs
      rw [hini]
      rfl
    rw [haddrs]
    simp only [List.all_cons, List.all_nil, Bool.and_true, hfind]
  unfold State.accessCheck
  rw [hall]

theorem checkRouted_port {q : Packet} (hroute : q.route = .port d) (hini : engOf q = none) (hffl : s.isFfl d = false)
    (hjudge : s.judge 0 d q.part (needsRd q.tlp) (needsWr q.tlp) (judgedAddrs q.tlp) = none) (n : Nat) :
    s.checkRouted q n = (s, some { q with elen := n }) := by
  unfold State.checkRouted
  rw [accessCheck_port hroute hini hffl hjudge]
  dsimp only
  rw [hroute]

/-- A request to a port that takes it, whose bytes are not moved. -/
theorem afterRoute_port {q : Packet} {limit : Option Nat} (hroute : q.route = .port d) (hini : engOf q = none) (hswap : q.attr.swap = 0)
    (hfit : ∀ l, limit = some l → q.ebase + q.elen ≤ l + 1) (htraffic : s.noTraffic d = false) (hffl : s.isFfl d = false)
    (hfatal : s.partFatal (s.portPart d) = false) (hatt : s.attBlocked d = false)
    (hjudge : s.judge 0 d q.part (needsRd q.tlp) (needsWr q.tlp) (judgedAddrs q.tlp) = none) :
    s.afterRoute q limit = (s, some { q with route := .port d, reqAddr := q.tlp.addr, reqLen := q.tlp.len }) := by
  have hcheck := checkRouted_port (q := { q with route := .port d, reqAddr := q.tlp.addr, reqLen := q.tlp.len }) rfl hini hffl hjudge q.elen
  have hunit : swapUnit q.attr.swap = 1 := by
    rw [hswap]
    rfl
  unfold State.afterRoute
  dsimp only
  rw [hunit, hini, hroute]
  dsimp only
  have hdown : s.destDown q.ing (swapTlp 1 q.tlp).tc (.port d) = false := by
    unfold State.destDown
    dsimp only
    rw [htraffic]
    rfl
  refine (if_neg nofun).trans ((if_neg ?_).trans ((if_neg ?_).trans ?_))
  · rw [hdown, hfatal]
    nofun
  · rw [hatt]
    nofun
  cases limit with
  | none => exact hcheck
  | some l =>
    dsimp only
    rw [if_pos (hfit l rfl)]
    exact hcheck

/-- The checks of Table 3.1 that a memory request passes on its way to port `d`. -/
structure Passes (s : State) (k : Packet) (d : Nat) (attr : Attr) (limit : Option Nat) : Prop where
  served : s.notServed k.part = false
  attIng : s.attBlocked k.ing = false
  acs : s.acsBlocks k.ing k.tlp = false
  master : s.masterOff k = false
  fatal : s.devFatal = false
  part : s.partFatal k.part = false
  bar : s.isUp k.ing = true → s.barHit k.part k.tlp.addr = none
  route : s.routeWin 4 k.part k.ing false k.tlp = .ok (.port d) attr limit k.part
  fits : ∀ l, limit = some l → k.tlp.addr + k.tlp.len ≤ l + 1
  swap : attr.swap = 0
  traffic : s.noTraffic d = false
  pcie : s.isFfl d = false
  partOut : s.partFatal (s.portPart d) = false
  attOut : s.attBlocked d = false
  judged : s.judge 0 d k.part (needsRd k.tlp) (needsWr k.tlp) (judgedAddrs k.tlp) = none

/-- Such a request of a host's stands at the ordering point with its route. -/
theorem routeTlp_passes {attr : Attr} {limit : Option Nat} (h : Passes s k d attr limit) (hkind : k.tlp.kind = .mrd ∨ k.tlp.kind = .mwr)
    (hbound : k.bound = none) (hbad : k.ideBad = false) (hbase : k.ebase = k.tlp.addr) (hlen : k.elen = k.tlp.len) (hini : engOf k = none) :
    ∃ q, q.id = k.id ∧ q.tlp = k.tlp ∧ q.ing = k.ing ∧ q.route = .port d ∧ q.place = .ingress ∧ s.routeTlp k = s.modPacket k.id fun _ => q := by
  have hmem : s.routeTlp k = s.ingestMem k := by
    unfold State.routeTlp
    dsimp only
    rw [h.served, h.attIng, Bool.false_and, h.acs, h.master]
    rcases hkind with hkind | hkind <;> rw [hkind] <;> rfl
  have hclaim : (if k.ing < 64 ∧ s.isUp k.ing = true then s.barHit k.part k.tlp.addr else none) = none := by
    split
    · next hup => exact h.bar hup.2
    · rfl
  have hwin : s.routeWin 4 k.part k.ing false { k.tlp with addr := k.ebase } = .ok (.port d) attr limit k.part := hbase ▸ h.route
  have hafter := afterRoute_port (q := { k with route := .port d, attr := attr, part := k.part }) (limit := limit) rfl hini h.swap
    (fun l hl => by rw [hbase, hlen]; exact h.fits l hl) h.traffic h.pcie h.partOut h.attOut h.judged
  have hroute : s.routeMem k = (s, some { k with route := .port d, attr := attr, part := k.part, reqAddr := k.tlp.addr, reqLen := k.tlp.len }) := by
    unfold State.routeMem
    rw [hwin]
    dsimp only
    unfold State.ideThen
    refine (if_neg ?_).trans hafter
    show ¬(k.ideBad && _) = true
    rw [hbad]
    nofun
  have hsettle : s.ingestMem k = s.settlePacket k.id (s.routeMem k) := by
    unfold State.ingestMem
    dsimp only
    rw [hclaim, h.acs, h.fatal, h.part]
    dsimp only
    unfold State.translateMem State.heldOr State.translates
    rw [hbound]
    rfl
  refine ⟨_, ?_, ?_, ?_, ?_, ?_, hmem.trans (hsettle.trans (by rw [hroute]; exact rfl))⟩
  all_goals rfl

/-! ### The state beside its packets -/

variable {ps : List Packet}

theorem routeWin_packets (n part ing : Nat) (ffl : Bool) (t : Tlp) :
    ({ s with packets := ps } : State).routeWin n part ing ffl t = s.routeWin n part ing ffl t := by
  induction n generalizing part ing ffl with
  | zero => rfl
  | succ n ih =>
    unfold State.routeWin
    simp only [ih]
    rfl

theorem passes_packets {attr : Attr} {limit : Option Nat} (h : Passes s k d attr limit) : Passes { s with packets := ps } k d attr limit where
  served := h.served
  attIng := h.attIng
  acs := h.acs
  master := h.master
  fatal := h.fatal
  part := h.part
  bar := h.bar
  route := (routeWin_packets ..).trans h.route
  fits := h.fits
  swap := h.swap
  traffic := h.traffic
  pcie := h.pcie
  partOut := h.partOut
  attOut := h.attOut
  judged := h.judged

/-! ### Packets of one number -/

theorem modPacket_ids (s : State) (id : Nat) {f : Packet → Packet} (hf : ∀ x, x.id = id → (f x).id = id) : (s.modPacket id f).packets.map (·.id) = s.packets.map (·.id) := by
  show List.map _ (List.map _ _) = _
  rw [List.map_map]
  refine List.map_congr_left fun x _ => ?_
  show (if _ then _ else _ : Packet).id = x.id
  split
  · next h => exact (hf x (beq_iff_eq.mp h)).trans (beq_iff_eq.mp h).symm
  · rfl

/-- No ingress space is freed where every packet is still there. -/
theorem freeGone_eq {t : State} (h : t.packets.map (·.id) = s.packets.map (·.id)) : t.freeGone s = t := by
  have hnil : (s.packets.filter fun p => (p.place == Place.ingress || p.place == Place.walk) && decide (p.ing < 64) && (t.packet? p.id).isNone) = [] := by
    refine List.filter_eq_nil_iff.mpr fun p hp => ?_
    obtain ⟨x, hx, hid⟩ := List.mem_map.mp (h ▸ List.mem_map_of_mem hp : p.id ∈ t.packets.map (·.id))
    have hsome : (t.packet? p.id).isSome := List.find?_isSome.mpr ⟨x, hx, beq_iff_eq.mpr hid⟩
    rw [Option.isNone_eq_false_iff.mpr hsome, Bool.and_false]
    nofun
  unfold State.freeGone
  rw [hnil]
  rfl

theorem mem_modPacket (s : State) {id : Nat} {f : Packet → Packet} {x : Packet} (hx : x ∈ s.packets) (hid : x.id = id) : f x ∈ (s.modPacket id f).packets :=
  List.mem_map.mpr ⟨x, hx, if_pos (beq_iff_eq.mpr hid)⟩

theorem mem_modPacket_of_ne (s : State) {id : Nat} {f : Packet → Packet} {x : Packet} (hx : x ∈ s.packets) (hid : x.id ≠ id) : x ∈ (s.modPacket id f).packets :=
  List.mem_map.mpr ⟨x, hx, if_neg (by simp [hid])⟩

/-! ### The command -/

/-- A TLP without IDE that is received well goes to its route. -/
theorem exec_tlpReceive (htakes : s.takesTlp p = true) (hkind : tlp.kind = .mrd ∨ tlp.kind = .mwr) (hide : tlp.ide = none) (hrec : s.receive p tlp acc = (a, k))
    (hbad : k.ideBad = false) :
    exec (.tlpReceive p tlp acc false false) s = (((a.modPacket k.id fun _ => k).routeTlp k).freeGone (a.modPacket k.id fun _ => k)).done := by
  have hk : ({ k with ideBad := s.ideFails p tlp false && tlp.ide != some 0 } : Packet) = k := by
    unfold State.ideFails
    rw [hide]
    exact congrArg (fun b => ({ k with ideBad := b } : Packet)) hbad.symm
  have hcpl : (tlp.kind == TlpKind.cpl) = false := by rcases hkind with h | h <;> rw [h] <;> rfl
  have hno : (s.ideFails p tlp false && tlp.ide == some 0) = false := by
    unfold State.ideFails
    rw [hide]
    rfl
  show execTlpReceive p tlp acc false false s = _
  unfold execTlpReceive
  rw [htakes, hcpl, hrec]
  dsimp only
  rw [hk, hno]
  rfl

theorem engOf_port (h : k.ini = .port p tlp.rid tlp.pasid) : engOf k = none := by
  unfold engOf
  rw [h]

/-- Settles O14: the packet is put behind the others, and the checks of its route let it through. -/
theorem memoryRequestIsAccepted : Obligations.MemoryRequestIsAccepted := by
  intro s a p d tlp acc k attr limit hinv htakes hkind hide hrec hfire hbound hserved hatt hacs hmaster hfatal hpart hbar hroute hfits hswap htraffic hpcie
    hpartOut hattOut hjudge
  obtain ⟨hpk, hnext, hhbm, htrk, hsched, hid, rfl, rfl, hideBad, hbase, hlen, hini⟩ := receive_frame hrec
  have hpass : Passes a k d attr limit :=
    ⟨hserved, hatt, hacs, hmaster, hfatal, hpart, hbar, hroute, hfits, hswap, htraffic, hpcie, hpartOut, hattOut, hjudge⟩
  obtain ⟨q, hqid, hqtlp, hqing, hqroute, hqplace, heq⟩ := routeTlp_passes (s := a.modPacket k.id fun _ => k) (passes_packets hpass) hkind hbound hideBad hbase
    hlen (engOf_port (hini hkind))
  have hids := modPacket_ids (a.modPacket k.id fun _ => k) k.id (f := fun _ => q) fun _ _ => hqid
  have hrun := exec_tlpReceive htakes hkind hide hrec hideBad
  rw [heq, freeGone_eq hids] at hrun
  have hin : k ∈ a.packets := hpk ▸ List.mem_append_right _ (List.mem_singleton.mpr rfl)
  have hk : k ∈ (a.modPacket k.id fun _ => k).packets := mem_modPacket (f := fun _ => k) a hin rfl
  refine ⟨_, q, hrun.trans (Spine.done_quiet hfire), mem_modPacket _ (f := fun _ => q) hk rfl, hqid.trans hid, hqtlp, hqing, hqroute, hqplace, hnext,
    fun x hx hne => ?_, hhbm, htrk, hsched⟩
  have hne' : x.id ≠ k.id := hid ▸ hne
  exact mem_modPacket_of_ne _ (mem_modPacket_of_ne a (hpk ▸ List.mem_append_left _ hx) hne') hne'

end Sys2Proof.Accepted
end

section
/-! ## A completion returns to its requester (O15) -/

namespace Sys2Proof.Returned

open Sys2Proof Sys2Proof.Machine Sys2Proof.Laws Sys2Proof.Support Sys2Proof.Accepted

variable {s a : State} {p d g rid : Nat} {x : Option Nat} {tlp : Tlp} {acc : List Nat} {k : Packet} {e : TrkEntry}

/-- The tracker without entry `e` where its completion is over. -/
def restOf (e : TrkEntry) (last : Bool) (l : List TrkEntry) : List TrkEntry :=
  if last = true then l.filter (fun y => !(y.port == e.port && y.rid == e.rid && y.tag == e.tag)) else l

theorem taintCpl_frame (s : State) (q : Packet) (c : Tlp) : ∃ n, (s.taintCpl q c).1 = { s with free := n } := by
  unfold State.taintCpl
  split
  · exact ⟨_, rfl⟩
  · exact ⟨s.free, rfl⟩

theorem drop_frame (s : State) (e : TrkEntry) (last : Bool) : (s.onlyIf last fun t => t.trkDrop e) = { s with trk := restOf e last s.trk } := by
  cases last <;> rfl

/-- A completion of a host's request is put on its way to the requester's port. -/
theorem answer_requester (howner : e.pkt.owner = .requester) (hini : e.pkt.ini = .port g rid x) (hroute : s.routeId (s.portPart g) rid = some d)
    (hacs : s.acsOn k.ing 3 = false) (htraffic : s.noTraffic d = false) :
    ∃ q n, q.id = k.id ∧ q.route = .port d ∧ q.place = .ingress ∧ q.tlp.rid = rid ∧
      s.answer k e = ({ s with free := n, trk := restOf e (State.lastCpl e.pkt.tlp k.tlp) s.trk } : State).modPacket k.id fun _ => q := by
  obtain ⟨n, hn⟩ := taintCpl_frame s e.pkt k.tlp
  unfold State.answer
  rw [howner, hini]
  dsimp only
  rw [hn, drop_frame]
  generalize (s.taintCpl e.pkt k.tlp).2 = c
  generalize hu : ({ ({ s with free := n } : State) with trk := restOf e (State.lastCpl e.pkt.tlp k.tlp) ({ s with free := n } : State).trk } : State) = u
  have hto : (u.cplPort e).bind (u.cplTarget k) = some d := by
    have hport : u.cplPort e = some d := by
      unfold State.cplPort
      rw [hini, ← hu]
      exact hroute
    have htarget : u.cplTarget k d = some d := by
      unfold State.cplTarget
      have : u.acsOn k.ing 3 = false := hu ▸ hacs
      rw [this, Bool.false_and, Bool.false_and, if_neg nofun]
    rw [hport, Option.bind_some, htarget]
  have hopen : u.noTraffic d = false := hu ▸ htraffic
  rw [hto]
  dsimp only
  rw [hopen, if_neg nofun]
  refine ⟨_, n, ?_, ?_, ?_, ?_, congrArg (fun t : State => t.modPacket k.id fun _ => _) hu.symm⟩
  · rfl
  · rfl
  · rfl
  · show (State.cplFor e c).rid = rid
    unfold State.cplFor
    rw [hini]

/-- A completion without IDE that is received well is taken. -/
theorem exec_completionReceive (htakes : s.takesTlp p = true) (hkind : tlp.kind = .cpl) (hide : tlp.ide = none) (hrec : s.receive p tlp acc = (a, k)) :
    exec (.completionReceive p tlp acc .good) s = (a.takeCpl k).done := by
  have hno (b : Bool) : s.cplIdeFails p tlp b = false := by
    unfold State.cplIdeFails State.ideFails
    rw [hide]
    rfl
  show execCompletionReceive p tlp acc .good s = _
  unfold execCompletionReceive
  rw [htakes, hkind, hrec]
  dsimp only
  rw [hno]
  rfl

theorem takeCpl_tracked (hfind : s.trkFind k.ing k.tlp.rid k.tlp.tag = some e) (horphan : e.orphan = none) : s.takeCpl k = s.answer k e := by
  unfold State.takeCpl
  rw [hfind]
  dsimp only
  rw [horphan]
  rfl

/-- Settles O15: the completion finds its tracker entry, which names the requester. -/
theorem completionReturnsToItsRequester : Obligations.CompletionReturnsToItsRequester := by
  intro s a p d rid tlp acc k e g x hinv htakes hkind hide hfatal hrec hfire hfind horphan howner hini hroute hacs htraffic
  obtain ⟨hpk, hnext, hhbm, htrk, hsched, hid, rfl, rfl, hrest⟩ := receive_frame hrec
  obtain ⟨q, n, hqid, hqroute, hqplace, hqrid, heq⟩ := answer_requester howner hini hroute hacs htraffic
  have hrun := exec_completionReceive htakes hkind hide hrec
  rw [takeCpl_tracked hfind horphan, heq] at hrun
  have hin : k ∈ a.packets := hpk ▸ List.mem_append_right _ (List.mem_singleton.mpr rfl)
  refine ⟨_, q, hrun.trans (Spine.done_quiet hfire), ?_, hqid.trans hid, hqroute, hqplace, hqrid, congrArg (restOf e _) htrk, fun y hy hne => ?_, hhbm⟩
  · exact mem_modPacket { a with free := n, trk := restOf e (State.lastCpl e.pkt.tlp k.tlp) a.trk } (f := fun _ => q) hin rfl
  · exact mem_modPacket_of_ne { a with free := n, trk := restOf e (State.lastCpl e.pkt.tlp k.tlp) a.trk } (f := fun _ => q)
      (hpk ▸ List.mem_append_left _ hy) (hid ▸ hne)

end Sys2Proof.Returned
end

section
/-! ## DMA bursts, lists and completion (O42) -/

namespace Sys2Proof.Engines

open Sys2Proof Sys2Proof.Machine Sys2Proof.Laws Sys2Proof.Support Sys2Proof.Traffic

variable {s t : State} {c ch e l num b : Nat} {x y z : Xfer}

/-! ### What requests leave of engines and transfers -/

/-- The transfer has read and written as far, of the same elements. -/
structure SameMoves (y z : Xfer) : Prop where
  num : z.num = y.num
  rd : z.rd = y.rd
  wr : z.wr = y.wr
  src : z.src.elems = y.src.elems
  dst : z.dst.elems = y.dst.elems

theorem SameMoves.refl (y : Xfer) : SameMoves y y := ⟨rfl, rfl, rfl, rfl, rfl⟩

theorem SameMoves.trans {a b c : Xfer} (h : SameMoves a b) (g : SameMoves b c) : SameMoves a c :=
  ⟨g.num.trans h.num, g.rd.trans h.rd, g.wr.trans h.wr, g.src.trans h.src, g.dst.trans h.dst⟩

theorem SameMoves.side (h : SameMoves y z) (n : Nat) : (sideOf z n).elems = (sideOf y n).elems := by
  unfold sideOf
  split
  · exact h.src
  · exact h.dst

/-- Memory and the engines are as they were, and each transfer is there still, moved as far. -/
structure Moved (s t : State) : Prop where
  hbm : t.hbm = s.hbm
  engs : t.engs = s.engs
  xfers : ∀ ch, ∀ y ∈ (s.chan ch).xfers, ∃ z ∈ (t.chan ch).xfers, SameMoves y z

theorem moved_of_chans (hh : t.hbm = s.hbm) (he : t.engs = s.engs) (hc : t.chans = s.chans) : Moved s t := by
  refine ⟨hh, he, fun ch y hy => ⟨y, ?_, .refl y⟩⟩
  unfold State.chan
  rw [hc]
  exact hy

theorem Moved.trans {a b c : State} (h : Moved a b) (g : Moved b c) : Moved a c := by
  refine ⟨g.hbm.trans h.hbm, g.engs.trans h.engs, fun ch y hy => ?_⟩
  obtain ⟨z, hz, hyz⟩ := h.xfers ch y hy
  obtain ⟨w, hw, hzw⟩ := g.xfers ch z hz
  exact ⟨w, hw, hyz.trans hzw⟩

theorem chan_modChan (s : State) (ch : Nat) (f : ChanSt → ChanSt) : (s.modChan ch f).chan ch = f (s.chan ch) := storeGet_set_self ..

theorem moved_modChan (s : State) (ch : Nat) (f : ChanSt → ChanSt) (hf : ∀ y ∈ (s.chan ch).xfers, ∃ z ∈ (f (s.chan ch)).xfers, SameMoves y z) :
    Moved s (s.modChan ch f) := by
  refine ⟨rfl, rfl, fun j y hy => ?_⟩
  by_cases hj : j = ch
  · subst hj
    rw [chan_modChan]
    exact hf y hy
  · have : (s.modChan ch f).chan j = s.chan j := storeGet_set_other _ _ _ hj
    exact ⟨y, this ▸ hy, .refl y⟩

theorem moved_modXfer (s : State) (ch num : Nat) (f : Xfer → Xfer) (hf : ∀ y, SameMoves y (f y)) : Moved s (s.modXfer ch num f) := by
  refine moved_modChan s ch _ fun y hy => ⟨_, List.mem_map_of_mem hy, ?_⟩
  split
  · exact hf y
  · exact .refl y

theorem chan_modXfer (s : State) (ch num : Nat) (f : Xfer → Xfer) :
    (s.modXfer ch num f).chan ch = { s.chan ch with xfers := (s.chan ch).xfers.map fun x => if x.num == num then f x else x } := chan_modChan s ch _

theorem lists_modXfer (s : State) (ch num : Nat) (f : Xfer → Xfer) : ((s.modXfer ch num f).chan ch).lists = (s.chan ch).lists :=
  (congrArg ChanSt.lists (chan_modXfer s ch num f) :)

theorem xfers_modXfer (s : State) (ch num : Nat) (f : Xfer → Xfer) :
    ((s.modXfer ch num f).chan ch).xfers = (s.chan ch).xfers.map fun x => if x.num == num then f x else x := congrArg ChanSt.xfers (chan_modXfer s ch num f)

theorem mem_modXfer (f : Xfer → Xfer) (hx : x ∈ (s.chan ch).xfers) (hn : x.num = num) : f x ∈ ((s.modXfer ch num f).chan ch).xfers := by
  rw [xfers_modXfer]
  exact List.mem_map.mpr ⟨x, hx, if_pos (beq_iff_eq.mpr hn)⟩

theorem carries_moved : Carries (fun _ => True) Moved where
  refl _ := moved_of_chans rfl rfl rfl
  trans := .trans
  data s t h := moved_of_chans (h.same State.hbm) (h.same State.engs) (h.same State.chans)
  unreserve _ _ := moved_of_chans rfl rfl rfl
  add _ _ := moved_of_chans rfl rfl rfl
  lostCpl _ _ _ _ := moved_of_chans rfl rfl rfl
  interrupt _ _ _ := moved_of_chans rfl rfl rfl
  setF _ _ _ _ _ _ := moved_of_chans rfl rfl rfl
  aer _ _ _ _ := moved_of_chans rfl rfl rfl
  xfer s ch num f hf := moved_modXfer s ch num f fun y => by
    obtain ⟨i, j, k, h⟩ := hf y
    rw [h]
    exact ⟨rfl, rfl, rfl, rfl, rfl⟩
  lists s ch _ := moved_modChan s ch _ fun y hy => ⟨y, hy, .refl y⟩
  drop _ _ _ := moved_of_chans rfl rfl rfl
  mod _ _ _ _ := moved_of_chans rfl rfl rfl

/-- What the end of a command leaves. -/
theorem done_moved (t : State) : ∃ u, t.done = .next u ∧ Moved t u ∧ u.chans = t.chans :=
  ⟨_, rfl, moved_of_chans (settle_hbm t) (settle_engs t) (settle_chans t), settle_chans t⟩

theorem Moved.eng (h : Moved s t) (k : Nat) : t.eng k = s.eng k := congrArg (fun m => storeGet _ m k) h.engs

/-! ### Requests, lists and the hand-over to DRAIN -/

theorem burstReq_moved (s : State) (ch num off : Nat) (w : Bool) (addr lo n len : Nat) (d : List Byte) (m : List Bool) :
    Moved s (s.burstReq ch num off w addr lo n len d m) := by
  unfold State.burstReq
  exact (carries_moved.add s _).trans (carries_moved.ingestMem _ _ trivial)

theorem listFetch_moved (s : State) (ch : Nat) (x : Xfer) (side : Nat) : Moved s (s.listFetch ch x side) := by
  unfold State.listFetch
  extract_lets sd t c s1 p
  split
  · exact moved_modXfer s ch x.num _ fun y => ⟨rfl, rfl, rfl, rfl, rfl⟩
  · have h1 : Moved s s1 := moved_modXfer s ch x.num _ fun y => by
      split <;> exact ⟨rfl, rfl, rfl, rfl, rfl⟩
    exact h1.trans ((carries_moved.add s1 _).trans (carries_moved.ingestMem _ _ trivial))

theorem fetchNext_moved (s : State) (ch : Nat) : Moved s (s.fetchNext ch) := by
  unfold State.fetchNext
  split
  · exact carries_moved.refl s
  · refine carries_moved.foldl _ (fun t side => ?_) s
    split
    · exact carries_moved.refl t
    · split
      · exact listFetch_moved ..
      · exact carries_moved.refl t

/-- A transfer that begins behind another. -/
theorem xferBegin_moved (s : State) (ch : Nat) (fresh : Bool) (h : (s.chan ch).xfers ≠ []) : Moved s (s.xferBegin ch fresh) := by
  unfold State.xferBegin
  extract_lets pg i n sg side num full x s1 s2
  have h1 : Moved s s1 := moved_modChan s ch _ fun y hy => ⟨y, List.mem_append_left _ hy, .refl y⟩
  have h2 : Moved s s2 := h1.trans (moved_of_chans rfl rfl rfl)
  have hlen : (s2.chan ch).xfers.length ≠ 1 := by
    have hx : (s2.chan ch).xfers = (s.chan ch).xfers ++ [x] := by
      show (s1.chan ch).xfers = _
      rw [chan_modChan]
    rw [hx, List.length_append]
    have := List.length_pos_iff.mpr h
    simp only [List.length_singleton]
    omega
  split
  · exact h2.trans (moved_of_chans rfl rfl rfl)
  · exact h2.trans (fetchNext_moved s2 ch)

theorem mem_of_running (h : s.running ch = some x) : x ∈ (s.chan ch).xfers ∧ x.drain = false := by
  unfold State.running at h
  split at h
  · cases h
  · next w hw =>
    split at h
    · cases h
    · next hd =>
      cases h
      exact ⟨List.mem_of_getLast? hw, Bool.eq_false_iff.mpr hd⟩

theorem running_of_xfers (h : (t.chan ch).xfers = (s.chan ch).xfers) : t.running ch = s.running ch := by
  unfold State.running
  rw [h]

theorem drain_moved (s : State) (ch num : Nat) : Moved s (s.modXfer ch num fun y => { y with drain := true }) :=
  moved_modXfer s ch num _ fun _ => ⟨rfl, rfl, rfl, rfl, rfl⟩

theorem drainCheck_moved (s : State) (ch : Nat) : Moved s (s.drainCheck ch) := by
  unfold State.drainCheck
  split
  · exact carries_moved.refl s
  · next x hx =>
    extract_lets writes cut s1
    have h1 : Moved s s1 := drain_moved s ch x.num
    split
    · exact carries_moved.refl s
    split
    · exact h1
    split
    · obtain ⟨z, hz, -⟩ := h1.xfers ch x (mem_of_running hx).1
      exact h1.trans ((moved_of_chans rfl rfl rfl : Moved s1 (s1.setFlag (chPage ch) DMA_STS.PENDING false (chIx ch))).trans
        (xferBegin_moved _ ch false (List.ne_nil_of_mem hz)))
    · exact h1.trans (moved_of_chans rfl rfl rfl)

/-- A failed transfer hands over to none. -/
theorem drainCheck_failed (h : s.running ch = some x) (hfail : x.fail.isSome = true) : (s.drainCheck ch).hbm = s.hbm ∧
    ((s.drainCheck ch).chan ch).lists = (s.chan ch).lists ∧ ∃ y ∈ ((s.drainCheck ch).chan ch).xfers, y.num = x.num ∧ y.fail = x.fail := by
  have hx := (mem_of_running h).1
  unfold State.drainCheck
  rw [h]
  dsimp only
  generalize hs1 : (s.modXfer ch x.num fun y => { y with drain := true }) = s1
  have hh : s1.hbm = s.hbm := hs1 ▸ rfl
  have hd : (s1.chan ch).lists = (s.chan ch).lists ∧ ∃ y ∈ (s1.chan ch).xfers, y.num = x.num ∧ y.fail = x.fail := by
    rw [← hs1]
    exact ⟨lists_modXfer .., { x with drain := true }, mem_modXfer _ hx rfl, rfl, rfl⟩
  have hnone : ¬(x.fail.isNone = true ∧ s1.flag (chPage ch) DMA_STS.PENDING (chIx ch) = true) := by
    rintro ⟨hn, -⟩
    rw [Option.isNone_iff_eq_none.mp hn] at hfail
    cases hfail
  split
  · exact ⟨rfl, rfl, x, hx, rfl, rfl⟩
  split
  · exact ⟨hh, hd⟩
  · exact ⟨hh, hd⟩

/-! ### A burst -/

theorem eng_modEng (s : State) (k : Nat) (f : EngSt → EngSt) : (s.modEng k f).eng k = f (s.eng k) := storeGet_set_self ..

/-- What a burst of `b` bytes of the channel's transfer `x` does. -/
structure Started (s t : State) (ch e b : Nat) (x : Xfer) : Prop where
  hbm : t.hbm = s.hbm
  run : (t.eng (2 * (ch / 256) + e)).run = some (ch, s.ticks + 2 * ceilDiv b 256)
  xfer : ∃ y ∈ (t.chan ch).xfers, y.num = x.num ∧ if e = 0 then y.rd = x.rd + b ∧ y.wr = x.wr else y.wr = x.wr + b ∧ y.rd = x.rd

theorem Started.moved {u : State} (h : Started s t ch e b x) (g : Moved t u) : Started s u ch e b x := by
  obtain ⟨y, hy, hnum, hto⟩ := h.xfer
  obtain ⟨z, hz, hyz⟩ := g.xfers ch y hy
  refine ⟨g.hbm.trans h.hbm, (g.eng _).symm ▸ h.run, z, hz, hyz.num.trans hnum, ?_⟩
  rw [hyz.rd, hyz.wr]
  exact hto

theorem burstPiece_isSome (s t : State) (ch : Nat) (x : Xfer) (e : Nat) : (s.burstPiece ch x e).isSome = (t.burstPiece ch x e).isSome := by
  have h (u : State) : (u.burstPiece ch x e).isSome = (elemAt (sideOf x e).elems 0 (if e = 0 then x.rd else x.wr)).isSome := by
    unfold State.burstPiece
    dsimp only
    split
    · next h => rw [h]
    · next h =>
      rw [h]
      exact (apply_ite Option.isSome _ _ _).trans (ite_self _)
  rw [h s, h t]

theorem piece_of_burstLen {cap : Nat} (hx : s.running ch = some x) (h : 0 < s.burstLen ch e cap) : (s.burstPiece ch x e).isSome = true := by
  unfold State.burstLen at h
  rw [hx] at h
  dsimp only at h
  split at h
  · cases h
  · split at h
    · cases h
    · next hp => rw [hp]; rfl

theorem started_modXfer {u : State} {f : Xfer → Xfer} (hx : x ∈ (u.chan ch).xfers) (hh : u.hbm = s.hbm)
    (hr : (u.eng (2 * (ch / 256) + e)).run = some (ch, s.ticks + 2 * ceilDiv b 256))
    (hf : (f x).num = x.num ∧ if e = 0 then (f x).rd = x.rd + b ∧ (f x).wr = x.wr else (f x).wr = x.wr + b ∧ (f x).rd = x.rd) :
    Started s (u.modXfer ch x.num f) ch e b x := ⟨hh, hr, f x, mem_modXfer f hx rfl, hf⟩

theorem burstStart_started (ecc : Ecc) (words : Nat) (hx : s.running ch = some x) (hpiece : (s.burstPiece ch x e).isSome = true) : Started s (s.burstStart ch e b ecc words) ch e b x := by
  obtain ⟨⟨addr, lo, n⟩, hp⟩ := Option.isSome_iff_exists.mp hpiece
  have hin := (mem_of_running hx).1
  unfold State.burstStart
  rw [hx]
  dsimp only
  rw [hp]
  dsimp only
  generalize hs1 : (s.modEng (2 * (ch / 256) + e) fun y =>
    { y with run := some (ch, s.ticks + 2 * ceilDiv b 256), gen := ((s.chanBound ch).map (·.gen)).getD 0 }) = s1
  have hrun : (s1.eng (2 * (ch / 256) + e)).run = some (ch, s.ticks + 2 * ceilDiv b 256) := by rw [← hs1, eng_modEng]
  have hhbm : s1.hbm = s.hbm := hs1 ▸ rfl
  have hin1 : x ∈ (s1.chan ch).xfers := hs1 ▸ hin
  split
  · next he =>
    refine Started.moved (started_modXfer hin1 hhbm hrun ?_) (carries_moved.each _ (fun t z _ => burstReq_moved ..) _)
    rw [if_pos he]
    exact ⟨rfl, rfl, rfl⟩
  · next he =>
    generalize hd : (if selfOverlap x = true then (freeBytesN s1.free b, ({ s1 with free := s1.free + 1 } : State))
      else ((stagedFrom x.staged x.wr).take b, s1)) = r
    have hr2 : r.2.hbm = s1.hbm ∧ r.2.engs = s1.engs ∧ r.2.chans = s1.chans := by
      rw [← hd]
      split <;> exact ⟨rfl, rfl, rfl⟩
    obtain ⟨data, s2⟩ := r
    obtain ⟨h1, h2, h3⟩ := hr2
    dsimp only at h1 h2 h3 ⊢
    generalize (List.range (ceilDiv b 8)).filter (fun w => ecc == .uncorrectable && words.testBit w) = bads
    have hin2 : x ∈ (s2.chan ch).xfers := by
      unfold State.chan
      rw [h3]
      exact hin1
    have hrun2 : (s2.eng (2 * (ch / 256) + e)).run = some (ch, s.ticks + 2 * ceilDiv b 256) := by
      unfold State.eng
      rw [h2]
      exact hrun
    refine (((started_modXfer hin2 (h1.trans hhbm) hrun2 ?_).moved (carries_moved.onlyIf (carries_moved.fire ..))).moved
      (carries_moved.onlyIf (carries_moved.fire ..))).moved (carries_moved.each _ (fun t z _ => ?_) _)
    · rw [if_neg he]
      cases bads <;> exact ⟨rfl, rfl, rfl⟩
    · split
      · exact burstReq_moved ..
      · exact carries_moved.refl t

/-- A burst that starts in a state of the same transfers, clock and memory. -/
theorem burstStart_of {u : State} {cap : Nat} (hx : s.running ch = some x) (hlen : 0 < s.burstLen ch e cap) (hh : u.hbm = s.hbm) (ht : u.ticks = s.ticks)
    (hc : (u.chan ch).xfers = (s.chan ch).xfers) (ecc : Ecc) (words : Nat) : Started s (u.burstStart ch e b ecc words) ch e b x := by
  obtain ⟨h1, h2, h3⟩ := burstStart_started (b := b) ecc words ((running_of_xfers hc).trans hx)
    ((burstPiece_isSome u s ch x e).trans (piece_of_burstLen hx hlen))
  exact ⟨h1.trans hh, ht ▸ h2, h3⟩

/-! ### The commands of the engines -/

theorem count_frame (s : State) (c code q tc n : Nat) : (s.count c code q tc n).hbm = s.hbm ∧ (s.count c code q tc n).ticks = s.ticks ∧
    ∀ ch, (s.count c code q tc n).chan ch = s.chan ch := by
  have h := quiet_count s c code q tc n
  have hc : (s.count c code q tc n).chans = s.chans := h.eq State.chans
  refine ⟨h.eq State.hbm, h.eq State.ticks, fun ch => ?_⟩
  unfold State.chan
  rw [hc]

theorem storeInsert_twice {α : Type} (m : Store α) (k : Nat) (a b : α) : storeInsert (storeInsert m k a) k b = storeInsert m k b := by
  induction m with
  | nil => simp [storeInsert]
  | cons p r ih =>
    obtain ⟨j, v⟩ := p
    by_cases h1 : j = k
    · simp [storeInsert, h1]
    · by_cases h2 : k < j
      · simp [storeInsert, h1, h2]
      · simp [storeInsert, h1, h2, ih]

theorem modEng_twice (s : State) (k : Nat) {f g : EngSt → EngSt} (hf : f (s.eng k) ≠ EngSt.init) (hg : g (f (s.eng k)) ≠ EngSt.init) :
    (s.modEng k f).modEng k g = s.modEng k fun y => g (f y) := by
  have hset : storeSet (fun _ => EngSt.init) (storeSet (fun _ => EngSt.init) s.engs k (f (s.eng k))) k (g (f (s.eng k))) =
      storeSet (fun _ => EngSt.init) s.engs k (g (f (s.eng k))) := by
    unfold storeSet
    rw [if_neg hf, if_neg hg, if_neg hg, storeInsert_twice]
  have heng := eng_modEng s k f
  show ({ s.modEng k f with engs := storeSet _ _ _ (g ((s.modEng k f).eng k)) } : State) = _
  rw [heng]
  exact congrArg (fun m => ({ s with engs := m } : State)) hset

/-- A placed burst whose turn it is. -/
theorem exec_placedBurst {i : Nat} {v : Vintage} {d : DmaSlot} (hc : c < 4) (hf : s.devFatal = false) (hr : s.cellarRun c = true)
    (hv : s.sched.active = some v) (hd : (storeGet (fun _ => ([] : List DmaSlot)) v.dma c)[i]? = some d) (hcyc : s.cycPos s.fabric = d.start)
    (hpl : (s.eng (2 * c + d.eng % 2)).placed ≠ some s.fabric) : exec (.dmaPlacedBurst c i .ok 0) s =
      if (s.eng (2 * c + d.eng % 2)).run.isSome = true then
        ((s.modEng (2 * c + d.eng % 2) fun y => { y with placed := some s.fabric }).modEng (2 * c + d.eng % 2) fun y => { y with late := y.late ++ [d] }).done
      else ((s.modEng (2 * c + d.eng % 2) fun y => { y with placed := some s.fabric }).placedStart c d .ok 0).done := by
  have hgo : ¬(4 ≤ c ∨ s.devFatal = true ∨ s.cellarRun c = false ∨ s.cycPos s.fabric ≠ d.start) := by
    rw [hf, hr, hcyc]
    simp only [Bool.false_eq_true, Bool.true_eq_false, ne_eq, not_true_eq_false, or_false]
    omega
  show execDmaPlacedBurst c i .ok 0 s = _
  unfold execDmaPlacedBurst
  rw [hv]
  dsimp only
  rw [hd]
  exact (if_neg hgo).trans (if_neg hpl)

theorem placedLate {k : Nat} {d : DmaSlot} (hinv : s.Inv) : ((s.modEng k fun y => { y with placed := some s.fabric }).modEng k fun y =>
    { y with late := y.late ++ [d] }).done = .next (s.modEng k fun y => { y with placed := some s.fabric, late := y.late ++ [d] }) := by
  rw [modEng_twice s k (fun h => by cases congrArg EngSt.placed h) (fun h => by cases congrArg EngSt.placed h)]
  exact done_eq hinv rfl rfl rfl rfl

theorem placedStart_zero {d : DmaSlot} (hlen : s.burstLen (256 * c + d.chan % 256) (d.eng % 2) (256 * d.len) = 0) (ecc : Ecc) (words : Nat) :
    s.placedStart c d ecc words = s.addF (pgDMA c) DMA_CNT0.UNUSED := by
  unfold State.placedStart
  exact if_pos hlen

theorem placedStart_unused {k : Nat} {d : DmaSlot} (hinv : s.Inv) (hlen : s.burstLen (256 * c + d.chan % 256) (d.eng % 2) (256 * d.len) = 0) :
    ((s.modEng k fun y => { y with placed := some s.fabric }).placedStart c d .ok 0).done =
      .next ((s.modEng k fun y => { y with placed := some s.fabric }).addF (pgDMA c) DMA_CNT0.UNUSED) := by
  rw [placedStart_zero (s := s.modEng k fun y => { y with placed := some s.fabric }) hlen]
  exact done_eq hinv rfl rfl rfl rfl

theorem placedStart_started {d : DmaSlot} (hx : s.running (256 * c + d.chan % 256) = some x)
    (hlen : 0 < s.burstLen (256 * c + d.chan % 256) (d.eng % 2) (256 * d.len)) (k : Nat) : Started s
      ((s.modEng k fun y => { y with placed := some s.fabric }).placedStart c d .ok 0) (256 * c + d.chan % 256) (d.eng % 2)
      (s.burstLen (256 * c + d.chan % 256) (d.eng % 2) (256 * d.len)) x := by
  have hb : (s.modEng k fun y => { y with placed := some s.fabric }).burstLen (256 * c + d.chan % 256) (d.eng % 2) (256 * d.len) =
      s.burstLen (256 * c + d.chan % 256) (d.eng % 2) (256 * d.len) := rfl
  unfold State.placedStart
  dsimp only
  rw [hb, if_neg (by omega)]
  obtain ⟨h1, h2, h3⟩ := count_frame ((s.modEng k fun y => { y with placed := some s.fabric }).addF (pgDMA c) DMA_CNT0.PLACED) c 0xA 0 0 1
  exact burstStart_of hx hlen h1 h2 (congrArg ChanSt.xfers (h3 _)) ..

theorem bePick_mem (h : s.bePick c e = some (ch, l)) : ch / 256 = c ∧ 0 < s.beLen c e ch := by
  unfold State.bePick at h
  dsimp only at h
  obtain ⟨n, -, hn⟩ := List.exists_of_findSome?_eq_some h
  obtain ⟨a, ha, heq⟩ := Option.map_eq_some_iff.mp hn
  cases heq
  have hmem (mine : List Nat) (f : Nat → Bool) (h : ((mine.find? f).orElse fun _ => mine.head?) = some ch) : ch ∈ mine := by
    cases hfind : mine.find? f with
    | some w =>
      rw [hfind] at h
      cases h
      exact List.mem_of_find?_eq_some hfind
    | none =>
      rw [hfind] at h
      exact List.mem_of_head? h
  have hel := (List.mem_filter.mp (List.mem_filter.mp (hmem _ _ ha)).1).2
  rw [Bool.and_eq_true_iff, decide_eq_true_iff, decide_eq_true_iff] at hel
  exact hel

theorem burstLen_of_beLen (h : 0 < s.beLen c e ch) : ∃ cap, 0 < s.burstLen ch e cap := by
  unfold State.beLen at h
  dsimp only at h
  split at h
  · exact ⟨_, h⟩
  · cases h

theorem beBurst_started (hpick : s.bePick c e = some (ch, l)) (hx : s.running ch = some x) : Started s (s.beBurst c e .ok 0) ch e (s.beLen c e ch) x := by
  obtain ⟨cap, hcap⟩ := burstLen_of_beLen (bePick_mem hpick).2
  unfold State.beBurst
  rw [hpick]
  dsimp only
  generalize hu : (s.modEng (2 * c + e) fun y => if l = 0 then { y with ptr0 := (ch % 256 + 1) % 256 } else { y with ptr1 := (ch % 256 + 1) % 256 }) = u
  have h0 : u.hbm = s.hbm ∧ u.ticks = s.ticks ∧ (u.chan ch).xfers = (s.chan ch).xfers := hu ▸ ⟨rfl, rfl, rfl⟩
  generalize hw : (u.onlyIf (e == 0 && s.flag (pgDMA c) DMA_RATE.EN (ch % 256)) fun t =>
    t.modChan ch fun y => { y with bucket := y.bucket - 65536 * (ceilDiv (s.beLen c e ch) 256 : Int) }) = w
  have h1 : w.hbm = s.hbm ∧ w.ticks = s.ticks ∧ (w.chan ch).xfers = (s.chan ch).xfers := by
    rw [← hw]
    cases e == 0 && s.flag (pgDMA c) DMA_RATE.EN (ch % 256)
    · exact h0
    · refine ⟨h0.1, h0.2.1, ?_⟩
      rw [State.onlyIf, if_pos rfl, chan_modChan]
      exact h0.2.2
  obtain ⟨hh, ht, hc⟩ := count_frame w c 0xB 0 0 1
  exact burstStart_of hx hcap (hh.trans h1.1) (ht.trans h1.2.1) ((congrArg ChanSt.xfers (hc ch)).trans h1.2.2) ..

theorem exec_beBurst (hc : c < 4) (he : e < 2) (hf : s.devFatal = false) (hr : s.cellarRun c = true) (hrun : (s.eng (2 * c + e)).run = none)
    (hlate : (s.eng (2 * c + e)).late = []) (hdue : s.placedDue c e = false) : exec (.dmaBeBurst c e .ok 0) s = (s.beBurst c e .ok 0).done := by
  show execDmaBeBurst c e .ok 0 s = _
  unfold execDmaBeBurst
  refine if_neg ?_
  rw [hf, hr, hrun, hlate, hdue]
  simp only [Option.isSome_none, List.isEmpty_nil, Bool.false_eq_true, Bool.true_eq_false, or_false]
  omega

/-- A burst that is over where none was held back. -/
theorem burstOver_done (hlate : (s.eng (2 * c + e)).late = []) : (((s.burstOver c e ch).eng (2 * c + e)).run = none) ∧ (s.burstOver c e ch).hbm = s.hbm := by
  have hm := drainCheck_moved (s.modEng (2 * c + e) fun y => { y with run := none }) ch
  have heng := (hm.eng (2 * c + e)).trans (eng_modEng s (2 * c + e) fun y => { y with run := none })
  have hbm := hm.hbm
  unfold State.burstOver
  dsimp only
  generalize (s.modEng (2 * c + e) fun y => { y with run := none }).drainCheck ch = u at heng hbm
  rw [heng]
  dsimp only
  rw [hlate]
  exact ⟨congrArg EngSt.run heng, hbm⟩

theorem exec_burstEnd {t0 : Nat} (hc : c < 4) (he : e < 2) (hrun : (s.eng (2 * c + e)).run = some (ch, t0)) (ht : t0 ≤ s.ticks)
    (hpass : e = 1 → ∀ y ∈ (s.chan ch).xfers, s.unpassed ch y.num (fun p => isWrite p.tlp) = []) :
    exec (.dmaBurstEnd c e) s = (s.burstOver c e ch).done := by
  show execDmaBurstEnd c e s = _
  unfold execDmaBurstEnd
  rw [hrun]
  refine if_neg ?_
  rintro (h | h | h | ⟨h, hany⟩)
  · omega
  · omega
  · omega
  · obtain ⟨y, hy, hne⟩ := List.any_eq_true.mp hany
    rw [hpass h y hy] at hne
    cases hne

/-! ### A list read that has returned -/

/-- The transfer with this side. -/
def putSide (side : Nat) (y : Xfer) (w : SgSide) : Xfer := if side = 0 then { y with src := w } else { y with dst := w }

theorem putSide_num (side : Nat) (y : Xfer) (w : SgSide) : (putSide side y w).num = y.num ∧ (putSide side y w).drain = y.drain := by
  unfold putSide
  split <;> exact ⟨rfl, rfl⟩

theorem sideOf_putSide (side : Nat) (y : Xfer) (w : SgSide) : sideOf (putSide side y w) side = w := by
  unfold putSide sideOf
  split
  · rfl
  · rfl

/-- The transfer that runs, when each of its number has changed. -/
theorem running_modXfer {f : Xfer → Xfer} (h : s.running ch = some x) (hf : (f x).drain = x.drain) : (s.modXfer ch x.num f).running ch = some (f x) := by
  have hd := (mem_of_running h).2
  have hlast : (s.chan ch).xfers.getLast? = some x := by
    unfold State.running at h
    split at h
    · cases h
    · next w hw =>
      split at h
      · cases h
      · cases h
        exact hw
  unfold State.running
  rw [xfers_modXfer, List.getLast?_map, hlast, Option.map_some, if_pos (beq_self_eq_true _)]
  dsimp only
  rw [hf, hd]
  rfl

section
variable {side : Nat} {st : CplStatus} {data : List Byte} {bad : Bool} {r : List (Nat × Nat × CplStatus × List Byte × Bool)} {sd : SgSide}

/-- The state without the oldest list read that has returned. -/
def listed (s : State) (ch : Nat) (r : List (Nat × Nat × CplStatus × List Byte × Bool)) : State := s.modChan ch fun y => { y with lists := r }

theorem listed_frame (s : State) (ch : Nat) (r : List (Nat × Nat × CplStatus × List Byte × Bool)) : (listed s ch r).hbm = s.hbm ∧
    ((listed s ch r).chan ch).lists = r ∧ ((listed s ch r).chan ch).xfers = (s.chan ch).xfers := by
  unfold listed
  rw [chan_modChan]
  exact ⟨rfl, rfl, rfl⟩

theorem exec_listFetchDone (hl : (s.chan ch).lists = (num, side, st, data, bad) :: r) (hx : s.running ch = some x) (hn : x.num = num) :
    exec (.dmaListFetchDone ch) s = if st ≠ .sc ∨ bad = true then
      (((listed s ch r).modXfer ch num fun y => (putSide side y { sideOf x side with busy := false }).failAt (sideBytes (sideOf x side)) 9 0 (sideOf x side).next).drainCheck ch).done
    else ((((listed s ch r).modXfer ch num fun y => match (State.listParse x.count 17 { sideOf x side with busy := false } data).2 with
      | some a => (putSide side y (State.listParse x.count 17 { sideOf x side with busy := false } data).1).failAt
          (sideBytes (State.listParse x.count 17 { sideOf x side with busy := false } data).1) 9 0 a
      | none => putSide side y (State.listParse x.count 17 { sideOf x side with busy := false } data).1).fetchNext ch).drainCheck ch).done := by
  have hrun : ((listed s ch r).running ch).filter (fun x => x.num == num) = some x := by
    rw [running_of_xfers (listed_frame s ch r).2.2, hx, Option.filter_some, hn, if_pos (beq_self_eq_true _)]
  show execDmaListFetchDone ch s = _
  unfold execDmaListFetchDone
  rw [hl]
  dsimp only
  rw [show (s.modChan ch fun y => { y with lists := r }) = listed s ch r from rfl, hrun]
  rfl

theorem listFetchDone_good (hl : (s.chan ch).lists = (num, side, st, data, bad) :: r) (hx : s.running ch = some x) (hn : x.num = num) (hst : st = .sc)
    (hbad : bad = false) (hparse : State.listParse x.count 17 { sideOf x side with busy := false } data = (sd, none)) :
    ∃ t y, exec (.dmaListFetchDone ch) s = .next t ∧ y ∈ (t.chan ch).xfers ∧ y.num = num ∧ (sideOf y side).elems = sd.elems ∧ t.hbm = s.hbm := by
  obtain ⟨hh, -, hxf⟩ := listed_frame s ch r
  have hin : x ∈ ((listed s ch r).chan ch).xfers := hxf ▸ (mem_of_running hx).1
  have hrun := exec_listFetchDone hl hx hn
  rw [if_neg (by simp [hst, hbad]), hparse] at hrun
  dsimp only at hrun
  have hput := mem_modXfer (fun y => putSide side y sd) hin hn
  have hhp : ((listed s ch r).modXfer ch num fun y => putSide side y sd).hbm = s.hbm := hh
  generalize ((listed s ch r).modXfer ch num fun y => putSide side y sd) = a at hrun hput hhp
  obtain ⟨t, hdone, hdm, -⟩ := done_moved ((a.fetchNext ch).drainCheck ch)
  have hm : Moved a t := ((fetchNext_moved a ch).trans (drainCheck_moved _ ch)).trans hdm
  obtain ⟨y, hy, hsame⟩ := hm.xfers ch _ hput
  exact ⟨t, y, hrun.trans hdone, hy, hsame.num.trans ((putSide_num side x sd).1.trans hn),
    (hsame.side side).trans (congrArg SgSide.elems (sideOf_putSide side x sd)), hm.hbm.trans hhp⟩

theorem listFetchDone_bad (hl : (s.chan ch).lists = (num, side, st, data, bad) :: r) (hx : s.running ch = some x) (hn : x.num = num)
    (hfails : st ≠ .sc ∨ bad = true) : ∃ t y, exec (.dmaListFetchDone ch) s = .next t ∧ (t.chan ch).lists = r ∧ y ∈ (t.chan ch).xfers ∧ y.num = num ∧
      y.fail.isSome = true ∧ t.hbm = s.hbm := by
  subst hn
  obtain ⟨hh, hlist, hxf⟩ := listed_frame s ch r
  have hrun := exec_listFetchDone hl hx rfl
  rw [if_pos hfails] at hrun
  have hr := running_modXfer (f := fun y => (putSide side y { sideOf x side with busy := false }).failAt (sideBytes (sideOf x side)) 9 0 (sideOf x side).next)
    ((running_of_xfers hxf).trans hx) (putSide_num side x { sideOf x side with busy := false }).2
  have hlp := (lists_modXfer (listed s ch r) ch x.num fun y => (putSide side y { sideOf x side with busy := false }).failAt (sideBytes (sideOf x side)) 9 0
    (sideOf x side).next).trans hlist
  have hhp : ((listed s ch r).modXfer ch x.num fun y => (putSide side y { sideOf x side with busy := false }).failAt (sideBytes (sideOf x side)) 9 0
    (sideOf x side).next).hbm = s.hbm := hh
  generalize ((listed s ch r).modXfer ch x.num fun y => (putSide side y { sideOf x side with busy := false }).failAt (sideBytes (sideOf x side)) 9 0
    (sideOf x side).next) = a at hrun hr hlp hhp
  obtain ⟨hdh, hdl, y, hy, hynum, hyfail⟩ := drainCheck_failed hr rfl
  obtain ⟨t, hdone, hdm, hdc⟩ := done_moved (a.drainCheck ch)
  have hchan : t.chan ch = (a.drainCheck ch).chan ch := by
    unfold State.chan
    rw [hdc]
  refine ⟨t, y, hrun.trans hdone, ?_, ?_, hynum.trans (putSide_num side x _).1, ?_, hdm.hbm.trans (hdh.trans hhp)⟩
  · rw [hchan]
    exact hdl.trans hlp
  · rw [hchan]
    exact hy
  · rw [hyfail]
    rfl

end

/-! ### A transfer that completes -/

theorem apart_chPage (f : FRef) (ch : Nat) (hf : f.off + f.stride * 31 < 4096) (c : Nat) (g : FRef) (hg : g.off + g.stride * 0 < 4096) :
    State.fkey (chPage ch) f (chIx ch) ≠ State.fkey (pgDMA c) g 0 := by
  have hix : chIx ch ≤ 31 := by unfold chIx; omega
  have hmul := Nat.mul_le_mul_left f.stride hix
  unfold State.fkey chPage pgDMAC pgDMA celPage pageIx
  have : ch % 256 / 32 < 8 := by omega
  omega

/-- A message of completion leaves registers, packets, memory and channels. -/
theorem chanInt_frame (s : State) (ch : Nat) : (s.chanInt ch).regs = s.regs ∧ (s.chanInt ch).packets = s.packets ∧ (s.chanInt ch).hbm = s.hbm ∧
    (s.chanInt ch).firing = s.firing ∧ (s.chanInt ch).chans = s.chans := by
  have hhost (k : Nat) (l : List Output) : (s.emitHost k l).regs = s.regs ∧ (s.emitHost k l).packets = s.packets ∧ (s.emitHost k l).hbm = s.hbm ∧
      (s.emitHost k l).firing = s.firing ∧ (s.emitHost k l).chans = s.chans := by
    unfold State.emitHost
    repeat' split
    all_goals exact ⟨rfl, rfl, rfl, rfl, rfl⟩
  unfold State.chanInt
  split
  · unfold State.sendVfMsix
    repeat' split
    · exact ⟨rfl, rfl, rfl, rfl, rfl⟩
    · exact ⟨rfl, rfl, rfl, rfl, rfl⟩
    · exact hhost ..
  · unfold State.sendMsix
    repeat' split
    · exact ⟨rfl, rfl, rfl, rfl, rfl⟩
    · exact ⟨rfl, rfl, rfl, rfl, rfl⟩
    · exact hhost ..

/-- The registers of a channel whose transfer of `n` bytes has completed. -/
def completed (s : State) (ch n lost : Nat) : State :=
  ((((((s.setF (chPage ch) DMA_STS.STATUS 0 (chIx ch)).setFlag (chPage ch) DMA_STS.DONE true (chIx ch)).setF (chPage ch) DMA_DONEB.BYTES n (chIx ch)).setF
    (chPage ch) DMA_LOSTC.COUNT lost (chIx ch)).addF (pgDMA (ch / 256)) DMA_CNT1.XFERS))

theorem completed_getF (s : State) (ch n lost : Nat) (hn : n < 2 ^ 32) :
    (completed s ch n lost).getF (chPage ch) DMA_STS.STATUS (chIx ch) = 0 ∧ (completed s ch n lost).getF (chPage ch) DMA_STS.DONE (chIx ch) = 1 ∧
    (completed s ch n lost).getF (chPage ch) DMA_DONEB.BYTES (chIx ch) = n ∧
    (completed s ch n lost).getF (chPage ch) DMA_STS.PENDING (chIx ch) = s.getF (chPage ch) DMA_STS.PENDING (chIx ch) := by
  have hx (u : State) (f : FRef) (hf : f.off + f.stride * 31 < 4096) : (u.addF (pgDMA (ch / 256)) DMA_CNT1.XFERS).getF (chPage ch) f (chIx ch) =
      u.getF (chPage ch) f (chIx ch) := getF_setF_other _ _ _ _ _ _ _ _ (.inl (apart_chPage f ch hf _ _ (by decide)))
  have hl (u : State) (f : FRef) (v : Nat) (hf : f ∈ [DMA_STS.STATUS, DMA_STS.DONE, DMA_STS.PENDING, DMA_DONEB.BYTES]) :
      (u.setF (chPage ch) DMA_LOSTC.COUNT v (chIx ch)).getF (chPage ch) f (chIx ch) = u.getF (chPage ch) f (chIx ch) := by
    refine getF_setF_other _ _ _ _ _ _ _ _ (.inl ?_)
    have : f.off ≠ DMA_LOSTC.COUNT.off ∧ f.stride = DMA_LOSTC.COUNT.stride := by
      revert f
      decide
    unfold State.fkey
    rw [this.2]
    omega
  have hd (u : State) (f : FRef) (v : Nat) (hf : f ∈ [DMA_STS.STATUS, DMA_STS.DONE, DMA_STS.PENDING]) :
      (u.setF (chPage ch) DMA_DONEB.BYTES v (chIx ch)).getF (chPage ch) f (chIx ch) = u.getF (chPage ch) f (chIx ch) := by
    refine getF_setF_other _ _ _ _ _ _ _ _ (.inl ?_)
    have : f.off ≠ DMA_DONEB.BYTES.off ∧ f.stride = DMA_DONEB.BYTES.stride := by
      revert f
      decide
    unfold State.fkey
    rw [this.2]
    omega
  unfold completed
  refine ⟨?_, ?_, ?_, ?_⟩
  · rw [hx _ _ (by decide), hl _ _ _ (by simp), hd _ _ _ (by simp)]
    exact (getF_setF_other _ _ _ _ _ _ _ _ (.inr (.inr (by decide)))).trans (getF_setF_self _ _ _ _ _ (by decide))
  · rw [hx _ _ (by decide), hl _ _ _ (by simp), hd _ _ _ (by simp)]
    exact getF_setF_self _ _ _ _ _ (by decide)
  · rw [hx _ _ (by decide), hl _ _ _ (by simp), getF_setF_self _ _ _ _ _ (by decide)]
    exact Nat.mod_eq_of_lt hn
  · rw [hx _ _ (by decide), hl _ _ _ (by simp), hd _ _ _ (by simp)]
    exact (getF_setF_other _ _ _ _ _ _ _ _ (.inr (.inl (by decide)))).trans (getF_setF_other _ _ _ _ _ _ _ _ (.inr (.inl (by decide))))

theorem xferResult_whole (hfail : x.fail = none) (hlost : x.lost = 0) (hat : x.lostAt = none) (hwr : x.wr = x.count) : s.xferResult ch x = (x.count, 0) := by
  unfold State.xferResult State.lowest
  rw [hfail, hlost, hat, hwr]
  simp

/-- The end of a transfer of which nothing failed or was lost. -/
theorem xferFinish_whole (hfail : x.fail = none) (hlost : x.lost = 0) (hat : x.lostAt = none) (hwr : x.wr = x.count) :
    s.xferFinish ch x = (((completed s ch x.count (min 0xFFFFFF x.lost)).onlyIf x.intEn fun t => t.chanInt ch).modChan ch fun y =>
      { y with xfers := y.xfers.filter fun z => decide (z.num ≠ x.num) }) := by
  unfold State.xferFinish
  rw [xferResult_whole hfail hlost hat hwr]
  rfl

/-- The channel when its only transfer has completed. -/
structure Finished (s t : State) (ch n : Nat) : Prop where
  xfers : (t.chan ch).xfers = []
  done : t.getF (chPage ch) DMA_STS.DONE (chIx ch) = 1
  status : t.getF (chPage ch) DMA_STS.STATUS (chIx ch) = 0
  bytes : t.getF (chPage ch) DMA_DONEB.BYTES (chIx ch) = n
  pending : t.getF (chPage ch) DMA_STS.PENDING (chIx ch) = s.getF (chPage ch) DMA_STS.PENDING (chIx ch)
  packets : t.packets = s.packets
  hbm : t.hbm = s.hbm
  firing : t.firing = s.firing

theorem xferFinish_finished (hx : (s.chan ch).xfers = [x]) (hfail : x.fail = none) (hlost : x.lost = 0) (hat : x.lostAt = none) (hwr : x.wr = x.count)
    (hn : x.count < 2 ^ 32) : Finished s (s.xferFinish ch x) ch x.count := by
  obtain ⟨hst, hdone, hbytes, hpend⟩ := completed_getF s ch x.count (min 0xFFFFFF x.lost) hn
  have hc : ((completed s ch x.count (min 0xFFFFFF x.lost)).onlyIf x.intEn fun t => t.chanInt ch).regs = (completed s ch x.count (min 0xFFFFFF x.lost)).regs ∧
      ((completed s ch x.count (min 0xFFFFFF x.lost)).onlyIf x.intEn fun t => t.chanInt ch).packets = s.packets ∧
      ((completed s ch x.count (min 0xFFFFFF x.lost)).onlyIf x.intEn fun t => t.chanInt ch).hbm = s.hbm ∧
      ((completed s ch x.count (min 0xFFFFFF x.lost)).onlyIf x.intEn fun t => t.chanInt ch).firing = s.firing ∧
      ((completed s ch x.count (min 0xFFFFFF x.lost)).onlyIf x.intEn fun t => t.chanInt ch).chans = s.chans := by
    cases x.intEn
    · exact ⟨rfl, rfl, rfl, rfl, rfl⟩
    · exact chanInt_frame (completed s ch x.count (min 0xFFFFFF x.lost)) ch
  rw [xferFinish_whole hfail hlost hat hwr]
  generalize completed s ch x.count (min 0xFFFFFF x.lost) = u at hc hst hdone hbytes hpend
  generalize (u.onlyIf x.intEn fun t => t.chanInt ch) = w at hc
  obtain ⟨hregs, hpk, hhbm, hfiring, hchans⟩ := hc
  have hget (f : FRef) (i : Nat) (g : ChanSt → ChanSt) : (w.modChan ch g).getF (chPage ch) f i = u.getF (chPage ch) f i :=
    getF_of_reg (congrArg (fun m => storeGet regReset m _) hregs)
  refine ⟨?_, (hget ..).trans hdone, (hget ..).trans hst, (hget ..).trans hbytes, (hget ..).trans hpend, hpk, hhbm, hfiring⟩
  have hw : (w.chan ch).xfers = [x] := by
    unfold State.chan
    rw [hchans]
    exact hx
  rw [chan_modChan]
  dsimp only
  rw [hw]
  simp

theorem xferComplete_finished {n : Nat} (h : Finished s (s.xferFinish ch x) ch n) (hp : s.flag (chPage ch) DMA_STS.PENDING (chIx ch) = false) :
    s.xferComplete ch x = (s.xferFinish ch x).setChState ch 0 := by
  have hflag : (s.xferFinish ch x).flag (chPage ch) DMA_STS.PENDING (chIx ch) = false := (congrArg (· == 1) h.pending).trans hp
  unfold State.xferComplete
  dsimp only
  rw [h.xfers, hflag]
  rfl

theorem exec_xferComplete (hx : (s.chan ch).xfers = [x]) (hreset : s.chanResetting ch = false) (hres : s.xferResolved ch x = true) :
    exec (.dmaXferComplete ch) s = (s.xferComplete ch x).done := by
  have hdrain : x.drain = true := by
    unfold State.xferResolved at hres
    simp only [Bool.and_eq_true] at hres
    exact hres.1.1.1.1
  have hrun : s.running ch = none := by
    unfold State.running
    rw [hx]
    exact if_pos hdrain
  have hsame : s.drainCheck ch = s := by
    unfold State.drainCheck
    rw [hrun]
  show execDmaXferComplete ch s = _
  unfold execDmaXferComplete
  rw [hsame]
  dsimp only
  rw [hx]
  dsimp only
  rw [hreset, hres]
  rfl

theorem setChState_getF (s : State) (ch v : Nat) {f : FRef} (hf : f ∈ [DMA_STS.DONE, DMA_STS.STATUS, DMA_DONEB.BYTES]) :
    (s.setChState ch v).getF (chPage ch) f (chIx ch) = s.getF (chPage ch) f (chIx ch) := by
  have : f.hi < DMA_STS.STATE.lo ∨ (f.off ≠ DMA_STS.STATE.off ∧ f.stride = DMA_STS.STATE.stride) := by
    revert f
    decide
  refine getF_setF_other _ _ _ _ _ _ _ _ ?_
  rcases this with h | ⟨h, hs⟩
  · exact .inr (.inr h)
  · refine .inl ?_
    unfold State.fkey
    rw [hs]
    omega

theorem xferComplete_whole (hinv : s.Inv) (hx : (s.chan ch).xfers = [x]) (hreset : s.chanResetting ch = false) (hres : s.xferResolved ch x = true)
    (hfail : x.fail = none) (hlost : x.lost = 0) (hat : x.lostAt = none) (hwr : x.wr = x.count) (hn : x.count < 2 ^ 32)
    (hp : s.flag (chPage ch) DMA_STS.PENDING (chIx ch) = false) : ∃ t, exec (.dmaXferComplete ch) s = .next t ∧ t.chState ch = 0 ∧
      (t.chan ch).xfers = [] ∧ t.flag (chPage ch) DMA_STS.DONE (chIx ch) = true ∧ t.getF (chPage ch) DMA_STS.STATUS (chIx ch) = 0 ∧
      t.getF (chPage ch) DMA_DONEB.BYTES (chIx ch) = x.count ∧ t.packets = s.packets ∧ t.hbm = s.hbm := by
  have hfin := xferFinish_finished hx hfail hlost hat hwr hn
  have hrun := exec_xferComplete hx hreset hres
  rw [xferComplete_finished hfin hp] at hrun
  generalize s.xferFinish ch x = u at hfin hrun
  have hstate : (u.setChState ch 0).chState ch = 0 := getF_setF_self _ _ _ _ _ (by decide)
  have hdone := (setChState_getF u ch 0 (f := DMA_STS.DONE) (by simp)).trans hfin.done
  have hstatus := (setChState_getF u ch 0 (f := DMA_STS.STATUS) (by simp)).trans hfin.status
  have hbytes := (setChState_getF u ch 0 (f := DMA_DONEB.BYTES) (by simp)).trans hfin.bytes
  exact ⟨_, hrun.trans (Spine.done_quiet (hfin.firing.trans hinv.quiet)), hstate, hfin.xfers, beq_iff_eq.mpr hdone, hstatus, hbytes, hfin.packets, hfin.hbm⟩

/-! ### The obligation -/

theorem placedBurst_started {i : Nat} {v : Vintage} {d : DmaSlot} (hc : c < 4) (hf : s.devFatal = false) (hr : s.cellarRun c = true)
    (hv : s.sched.active = some v) (hd : (storeGet (fun _ => ([] : List DmaSlot)) v.dma c)[i]? = some d) (hcyc : s.cycPos s.fabric = d.start)
    (hpl : (s.eng (2 * c + d.eng % 2)).placed ≠ some s.fabric) (hrun : (s.eng (2 * c + d.eng % 2)).run = none)
    (hlen : 0 < s.burstLen (256 * c + d.chan % 256) (d.eng % 2) (256 * d.len)) (hx : s.running (256 * c + d.chan % 256) = some x) :
    ∃ t, exec (.dmaPlacedBurst c i .ok 0) s = .next t ∧
      Started s t (256 * c + d.chan % 256) (d.eng % 2) (s.burstLen (256 * c + d.chan % 256) (d.eng % 2) (256 * d.len)) x := by
  have hexec := exec_placedBurst hc hf hr hv hd hcyc hpl
  rw [hrun, if_neg nofun] at hexec
  have hst := placedStart_started hx hlen (2 * c + d.eng % 2)
  generalize ((s.modEng (2 * c + d.eng % 2) fun y => { y with placed := some s.fabric }).placedStart c d .ok 0) = u at hexec hst
  obtain ⟨t, ht, hm, -⟩ := done_moved u
  exact ⟨t, hexec.trans ht, hst.moved hm⟩

theorem beBurst_command (hc : c < 4) (he : e < 2) (hf : s.devFatal = false) (hr : s.cellarRun c = true) (hrun : (s.eng (2 * c + e)).run = none)
    (hlate : (s.eng (2 * c + e)).late = []) (hdue : s.placedDue c e = false) (hpick : s.bePick c e = some (ch, l)) (hx : s.running ch = some x) :
    ∃ t, exec (.dmaBeBurst c e .ok 0) s = .next t ∧ Started s t ch e (s.beLen c e ch) x := by
  obtain ⟨t, ht, hm, -⟩ := done_moved (s.beBurst c e .ok 0)
  exact ⟨t, (exec_beBurst hc he hf hr hrun hlate hdue).trans ht, (beBurst_started hpick hx).moved hm⟩

/-- Settles O42: a burst occupies its engine and moves its transfer on, requests keep what transfers have moved, and a whole transfer completes. -/
theorem dmaEnginesAndLists : Obligations.DmaEnginesAndLists := by
  refine ⟨fun s c i e ch l t0 v d x hinv hc hf hr => ⟨fun hv hd hcyc hpl => ⟨fun hrun => ?_, fun hrun hlen => ?_, fun hrun hlen hx => ?_⟩, ?_, ?_⟩, ?_⟩
  · rw [exec_placedBurst hc hf hr hv hd hcyc hpl, if_pos hrun]
    exact placedLate hinv
  · rw [exec_placedBurst hc hf hr hv hd hcyc hpl, hrun, if_neg nofun]
    exact placedStart_unused hinv hlen
  · obtain ⟨t, hexec, ⟨hh, hrun', y, hy, hnum, hto⟩⟩ := placedBurst_started hc hf hr hv hd hcyc hpl hrun hlen hx
    have hdiv : (256 * c + d.chan % 256) / 256 = c := by omega
    rw [hdiv] at hrun'
    refine ⟨t, y, hexec, hrun', hy, hnum, ?_, hh⟩
    by_cases h : d.eng % 2 = 0
    · rw [if_pos h] at hto ⊢
      rwa [h] at hto
    · have h1 : d.eng % 2 = 1 := by omega
      rw [if_neg h] at hto ⊢
      rwa [h1] at hto
  · intro he hrun hlate hdue hpick hx
    obtain ⟨t, hexec, ⟨hh, hrun', y, hy, hnum, hto⟩⟩ := beBurst_command hc he hf hr hrun hlate hdue hpick hx
    rw [(bePick_mem hpick).1] at hrun'
    refine ⟨t, y, hexec, hrun', hy, hnum, ?_, hh⟩
    by_cases h : e = 0
    · rw [if_pos h] at hto ⊢
      exact hto.1
    · rw [if_neg h] at hto ⊢
      exact hto.1
  · intro he hrun ht hlate hpass
    obtain ⟨hnone, hh⟩ := burstOver_done (ch := ch) hlate
    obtain ⟨t, hdone, hm, -⟩ := done_moved (s.burstOver c e ch)
    exact ⟨t, (exec_burstEnd hc he hrun ht hpass).trans hdone, (congrArg EngSt.run (hm.eng _)).trans hnone, hm.hbm.trans hh⟩
  · intro s ch num side st data bad r x sd hinv _ _
    exact ⟨fun hl hx hn => ⟨listFetchDone_good hl hx hn, listFetchDone_bad hl hx hn⟩,
      fun hx hreset hres hfail hlost hat hwr hn hp => xferComplete_whole hinv hx hreset hres hfail hlost hat hwr hn hp⟩

end Sys2Proof.Engines
end

section
/-! ## Functions that leave HBM and the boot flash, part 1 (O6)

One lemma per function of the model: the two memories of bytes stay as they are. In the order of the calls, so that each proof splits the
function's own branches and cites the functions it calls. `-implicitDefEqProofs` has `simp` cite these lemmas, so that the kernel does not
unfold the functions again. -/

namespace Sys2Proof.Memories

open Sys2Proof Sys2Proof.Machine Sys2Proof.Laws

/-- HBM and the boot flash hold what they held. -/
abbrev Same (s t : State) : Prop := t.hbm = s.hbm ∧ t.flash = s.flash

theorem same_each {α : Type} (l : List α) {f : State → α → State} (h : ∀ t x, Same t (f t x)) (s : State) : Same s (s.each l f) := by
  induction l generalizing s with
  | nil => exact ⟨rfl, rfl⟩
  | cons x r ih => exact ⟨(ih (f s x)).1.trans (h s x).1, (ih (f s x)).2.trans (h s x).2⟩

@[simp] theorem each_hbm {α : Type} (l : List α) {f : State → α → State} (h : ∀ t x, (f t x).hbm = t.hbm) (s : State) : (s.each l f).hbm = s.hbm := by
  induction l generalizing s with
  | nil => rfl
  | cons x r ih => exact (ih (f s x)).trans (h s x)

@[simp] theorem each_flash {α : Type} (l : List α) {f : State → α → State} (h : ∀ t x, (f t x).flash = t.flash) (s : State) : (s.each l f).flash = s.flash := by
  induction l generalizing s with
  | nil => rfl
  | cons x r ih => exact (ih (f s x)).trans (h s x)

@[simp] theorem onlyIf_hbm (s : State) (b : Bool) {f : State → State} (h : (f s).hbm = s.hbm) : (s.onlyIf b f).hbm = s.hbm := by
  cases b
  · rfl
  · exact h

@[simp] theorem onlyIf_flash (s : State) (b : Bool) {f : State → State} (h : (f s).flash = s.flash) : (s.onlyIf b f).flash = s.flash := by
  cases b
  · rfl
  · exact h

@[simp] theorem same_addLoss (s : State) a b : Same s (s.addLoss a b) := ⟨rfl, rfl⟩

@[simp] theorem same_addPacket (s : State) a : Same s (s.addPacket a) := ⟨rfl, rfl⟩

@[simp] theorem same_bindD0 (s : State) a : Same s (s.bindD0 a) := ⟨rfl, rfl⟩

@[simp] theorem same_clearGranule (s : State) a b : Same s (s.clearGranule a b) := ⟨rfl, rfl⟩

@[simp] theorem same_clearLost (s : State) a : Same s (s.clearLost a) := ⟨rfl, rfl⟩

@[simp] theorem same_clearResv (s : State) a : Same s (s.clearResv a) := ⟨rfl, rfl⟩

@[simp] theorem same_draw (s : State) : Same s (s.draw).2 := ⟨rfl, rfl⟩

@[simp] theorem same_drawBytes (s : State) : Same s (s.drawBytes).2 := ⟨rfl, rfl⟩

@[simp] theorem same_dropPacket (s : State) a : Same s (s.dropPacket a) := ⟨rfl, rfl⟩

@[simp] theorem same_emit (s : State) a : Same s (s.emit a) := ⟨rfl, rfl⟩

@[simp] theorem same_emitAll (s : State) a : Same s (s.emitAll a) := ⟨rfl, rfl⟩

@[simp] theorem same_fire (s : State) a b c d : Same s (s.fire a b c d) := ⟨rfl, rfl⟩

@[simp] theorem same_fireForced (s : State) a b c d : Same s (s.fireForced a b c d) := ⟨rfl, rfl⟩

@[simp] theorem same_flashTaint (s : State) a b : Same s (s.flashTaint a b) := ⟨rfl, rfl⟩

@[simp] theorem same_freeEcc (s : State) : Same s (s.freeEcc).2.2 := ⟨rfl, rfl⟩

@[simp] theorem same_heardFrom (s : State) : Same s s.heardFrom := ⟨rfl, rfl⟩

@[simp] theorem same_invEffect (s : State) a : Same s (s.invEffect a) := ⟨rfl, rfl⟩

@[simp] theorem same_latch (s : State) a b c : Same s (s.latch a b c) := ⟨rfl, rfl⟩

@[simp] theorem same_mirAcked (s : State) a : Same s (s.mirAcked a) := ⟨rfl, rfl⟩

@[simp] theorem same_mirSend (s : State) a : Same s (s.mirSend a) := ⟨rfl, rfl⟩

@[simp] theorem same_modAge (s : State) a : Same s (s.modAge a) := ⟨rfl, rfl⟩

@[simp] theorem same_modBoot (s : State) a : Same s (s.modBoot a) := ⟨rfl, rfl⟩

@[simp] theorem same_modChan (s : State) a b : Same s (s.modChan a b) := ⟨rfl, rfl⟩

@[simp] theorem same_modEng (s : State) a b : Same s (s.modEng a b) := ⟨rfl, rfl⟩

@[simp] theorem same_modFfl (s : State) a b : Same s (s.modFfl a b) := ⟨rfl, rfl⟩

@[simp] theorem same_modInst (s : State) a b : Same s (s.modInst a b) := ⟨rfl, rfl⟩

@[simp] theorem same_modLane (s : State) a b : Same s (s.modLane a b) := ⟨rfl, rfl⟩

@[simp] theorem same_modPacket (s : State) a b : Same s (s.modPacket a b) := ⟨rfl, rfl⟩

@[simp] theorem same_modPart (s : State) a b : Same s (s.modPart a b) := ⟨rfl, rfl⟩

@[simp] theorem same_modPwr (s : State) a : Same s (s.modPwr a) := ⟨rfl, rfl⟩

@[simp] theorem same_modQueue (s : State) a b : Same s (s.modQueue a b) := ⟨rfl, rfl⟩

@[simp] theorem same_modRx (s : State) a b : Same s (s.modRx a b) := ⟨rfl, rfl⟩

@[simp] theorem same_modSlot (s : State) a b : Same s (s.modSlot a b) := ⟨rfl, rfl⟩

@[simp] theorem same_modStream (s : State) a b : Same s (s.modStream a b) := ⟨rfl, rfl⟩

@[simp] theorem same_modTrust (s : State) a : Same s (s.modTrust a) := ⟨rfl, rfl⟩

@[simp] theorem same_modTx (s : State) a b : Same s (s.modTx a b) := ⟨rfl, rfl⟩

@[simp] theorem same_moreCopies (s : State) a b : Same s (s.moreCopies a b) := ⟨rfl, rfl⟩

@[simp] theorem same_orphanIf (s : State) a : Same s (s.orphanIf a) := ⟨rfl, rfl⟩

@[simp] theorem same_saClear (s : State) a b c : Same s (s.saClear a b c) := ⟨rfl, rfl⟩

@[simp] theorem same_setPort (s : State) a b : Same s (s.setPort a b) := ⟨rfl, rfl⟩

@[simp] theorem same_setReg (s : State) a b : Same s (s.setReg a b) := ⟨rfl, rfl⟩

@[simp] theorem same_setWseq (s : State) a b : Same s (s.setWseq a b) := ⟨rfl, rfl⟩

@[simp] theorem same_streamLoss (s : State) a b c d : Same s (s.streamLoss a b c d) := ⟨rfl, rfl⟩

@[simp] theorem same_sweepTrace (s : State) : Same s s.sweepTrace := ⟨rfl, rfl⟩

@[simp] theorem same_touch (s : State) a b : Same s (s.touch a b) := ⟨rfl, rfl⟩

@[simp] theorem same_traceOut (s : State) a b c d : Same s (s.traceOut a b c d) := ⟨rfl, rfl⟩

@[simp] theorem same_trkAdd (s : State) a b : Same s (s.trkAdd a b) := ⟨rfl, rfl⟩

@[simp] theorem same_trkDrop (s : State) a : Same s (s.trkDrop a) := ⟨rfl, rfl⟩

@[simp] theorem same_ttuCache (s : State) a b : Same s (s.ttuCache a b) := ⟨rfl, rfl⟩

@[simp] theorem same_unsync (s : State) : Same s s.unsync := ⟨rfl, rfl⟩

@[simp] theorem same_walkAgain (s : State) a b : Same s (s.walkAgain a b) := ⟨rfl, rfl⟩

@[simp] theorem same_winTaint (s : State) a : Same s (s.winTaint a) := ⟨rfl, rfl⟩

@[simp] theorem same_writeDone (s : State) a : Same s (s.writeDone a) := ⟨rfl, rfl⟩

@[simp] theorem same_yieldWrites (s : State) : Same s s.yieldWrites := ⟨rfl, rfl⟩

@[simp] theorem same_addStream (s : State) a b : Same s (s.addStream a b) := by
  unfold State.addStream
  repeat' split
  all_goals simp -implicitDefEqProofs [Same]

@[simp] theorem same_capacity (s : State) a : Same s (s.capacity a) := by
  unfold State.capacity
  repeat' split
  all_goals simp -implicitDefEqProofs [Same]

@[simp] theorem same_failSummary (s : State) a b c : Same s (s.failSummary a b c) := by
  unfold State.failSummary
  repeat' split
  all_goals simp -implicitDefEqProofs [Same]

@[simp] theorem same_noteBurst (s : State) a : Same s (s.noteBurst a) := by
  unfold State.noteBurst
  repeat' split
  all_goals simp -implicitDefEqProofs [Same]

@[simp] theorem same_noteDirty (s : State) a b : Same s (s.noteDirty a b) := by
  unfold State.noteDirty
  repeat' split
  all_goals simp -implicitDefEqProofs [Same]

@[simp] theorem same_taintCpl (s : State) a b : Same s (s.taintCpl a b).1 := by
  unfold State.taintCpl
  repeat' split
  all_goals simp -implicitDefEqProofs [Same]

@[simp] theorem same_walkEntryAt (s : State) a : Same s (s.walkEntryAt a).2 := by
  unfold State.walkEntryAt
  repeat' split
  all_goals simp -implicitDefEqProofs [Same]

@[simp] theorem same_listBytes (s : State) a b c d : Same s (s.listBytes a b c d).1 := by
  unfold State.listBytes
  dsimp only
  repeat' split
  all_goals simp -implicitDefEqProofs [Same]

@[simp] theorem same_logRepeat (s : State) a : Same s (s.logRepeat a) := by
  unfold State.logRepeat
  dsimp only
  repeat' split
  all_goals simp -implicitDefEqProofs [Same]

@[simp] theorem same_noteEvt (s : State) a b : Same s (s.noteEvt a b) := by
  unfold State.noteEvt
  dsimp only
  repeat' split
  all_goals simp -implicitDefEqProofs [Same]

@[simp] theorem same_noteWindow (s : State) a b : Same s (s.noteWindow a b) := by
  unfold State.noteWindow
  dsimp only
  repeat' split
  all_goals simp -implicitDefEqProofs [Same]

@[simp] theorem same_advertise (s : State) a : Same s (s.advertise a) := ⟨rfl, rfl⟩

@[simp] theorem same_bootAt (s : State) a : Same s (s.bootAt a) := ⟨rfl, rfl⟩

@[simp] theorem same_burn (s : State) a : Same s (s.burn a) := ⟨rfl, rfl⟩

@[simp] theorem same_cfgWord (s : State) a b : Same s (s.cfgWord a b).1 := ⟨rfl, rfl⟩

@[simp] theorem same_checkpointDue (s : State) : Same s s.checkpointDue := ⟨rfl, rfl⟩

@[simp] theorem same_dmaDrop (s : State) a : Same s (s.dmaDrop a) := ⟨rfl, rfl⟩

@[simp] theorem same_emitFlit (s : State) a b c d e f g : Same s (s.emitFlit a b c d e f g) := ⟨rfl, rfl⟩

@[simp] theorem same_exception (s : State) a : Same s (s.exception a) := ⟨rfl, rfl⟩

@[simp] theorem same_fabCpl (s : State) a b c d e f : Same s (s.fabCpl a b c d e f) := ⟨rfl, rfl⟩

@[simp] theorem same_fetsOff (s : State) a : Same s (s.fetsOff a) := ⟨rfl, rfl⟩

@[simp] theorem same_leaveCell (s : State) a : Same s (s.leaveCell a).1 := ⟨rfl, rfl⟩

@[simp] theorem same_modPort (s : State) a b : Same s (s.modPort a b) := ⟨rfl, rfl⟩

@[simp] theorem same_modXfer (s : State) a b c : Same s (s.modXfer a b c) := ⟨rfl, rfl⟩

@[simp] theorem same_newNonce (s : State) : Same s s.newNonce := ⟨rfl, rfl⟩

@[simp] theorem same_numberPacket (s : State) a b c d : Same s (s.numberPacket a b c d).1 := ⟨rfl, rfl⟩

@[simp] theorem same_pageAccess (s : State) a : Same s (s.pageAccess a) := ⟨rfl, rfl⟩

@[simp] theorem same_resetChan (s : State) a : Same s (s.resetChan a) := ⟨rfl, rfl⟩

@[simp] theorem same_sendHeld (s : State) a : Same s (s.sendHeld a) := ⟨rfl, rfl⟩

@[simp] theorem same_setCellarMode (s : State) a b : Same s (s.setCellarMode a b) := ⟨rfl, rfl⟩

@[simp] theorem same_setCellarState (s : State) a b : Same s (s.setCellarState a b) := ⟨rfl, rfl⟩

@[simp] theorem same_setF (s : State) a b c d : Same s (s.setF a b c d) := ⟨rfl, rfl⟩

@[simp] theorem same_setP (s : State) a b c d e f : Same s (s.setP a b c d e f) := ⟨rfl, rfl⟩

@[simp] theorem same_signed (s : State) a : Same s (s.signed a).2 := ⟨rfl, rfl⟩

@[simp] theorem same_tackPacket (s : State) a b c d : Same s (s.tackPacket a b c d) := ⟨rfl, rfl⟩

@[simp] theorem same_journalAdd (s : State) a : Same s (s.journalAdd a) := by
  unfold State.journalAdd
  simp -implicitDefEqProofs [Same]

@[simp] theorem same_loadReads (s : State) a b c d : Same s (s.loadReads a b c d) := by
  unfold State.loadReads
  simp -implicitDefEqProofs [Same]

@[simp] theorem same_applyHeld (s : State) a : Same s (s.applyHeld a) := by
  unfold State.applyHeld
  repeat' split
  all_goals simp -implicitDefEqProofs [Same]

@[simp] theorem same_emitHost (s : State) a b : Same s (s.emitHost a b) := by
  unfold State.emitHost
  repeat' split
  all_goals simp -implicitDefEqProofs [Same]

@[simp] theorem same_failLater (s : State) a b c : Same s (s.failLater a b c) := by
  unfold State.failLater
  repeat' split
  all_goals simp -implicitDefEqProofs [Same]

@[simp] theorem same_fireL (s : State) a b : Same s (s.fireL a b) := by
  unfold State.fireL
  repeat' split
  all_goals simp -implicitDefEqProofs [Same]

@[simp] theorem same_fireLane (s : State) a b : Same s (s.fireLane a b) := by
  unfold State.fireLane
  repeat' split
  all_goals simp -implicitDefEqProofs [Same]

@[simp] theorem same_forceFaults (s : State) a b : Same s (s.forceFaults a b) := by
  unfold State.forceFaults
  repeat' split
  all_goals simp -implicitDefEqProofs [Same]

@[simp] theorem same_lifeWrite (s : State) a b : Same s (s.lifeWrite a b) := by
  unfold State.lifeWrite
  repeat' split
  all_goals simp -implicitDefEqProofs [Same]

@[simp] theorem same_loadReg (s : State) a b : Same s (s.loadReg a b) := by
  unfold State.loadReg
  repeat' split
  all_goals simp -implicitDefEqProofs [Same]

@[simp] theorem same_modModule (s : State) a b : Same s (s.modModule a b) := by
  unfold State.modModule
  repeat' split
  all_goals simp -implicitDefEqProofs [Same]

@[simp] theorem same_packetOut (s : State) a b : Same s (s.packetOut a b) := by
  unfold State.packetOut
  repeat' split
  all_goals simp -implicitDefEqProofs [Same]

@[simp] theorem same_queueLeft (s : State) a : Same s (s.queueLeft a) := by
  unfold State.queueLeft
  repeat' split
  all_goals simp -implicitDefEqProofs [Same]

@[simp] theorem same_readEcc (s : State) a b c : Same s (s.readEcc a b c) := by
  unfold State.readEcc
  repeat' split
  all_goals simp -implicitDefEqProofs [Same]

@[simp] theorem same_slipShown (s : State) a : Same s (s.slipShown a).2 := by
  unfold State.slipShown
  repeat' split
  all_goals simp -implicitDefEqProofs [Same]

@[simp] theorem same_slotFire (s : State) a b : Same s (s.slotFire a b) := by
  unfold State.slotFire
  repeat' split
  all_goals simp -implicitDefEqProofs [Same]

@[simp] theorem same_spillEcc (s : State) a : Same s (s.spillEcc a) := by
  unfold State.spillEcc
  repeat' split
  all_goals simp -implicitDefEqProofs [Same]

@[simp] theorem same_takeNumber (s : State) a b c : Same s (s.takeNumber a b c).1 := by
  unfold State.takeNumber
  repeat' split
  all_goals simp -implicitDefEqProofs [Same]

@[simp] theorem same_takeWhole (s : State) a : Same s (s.takeWhole a).1 := by
  unfold State.takeWhole
  repeat' split
  all_goals simp -implicitDefEqProofs [Same]

@[simp] theorem same_touchAt (s : State) a b : Same s (s.touchAt a b) := by
  unfold State.touchAt
  repeat' split
  all_goals simp -implicitDefEqProofs [Same]

@[simp] theorem same_unnumber (s : State) a : Same s (s.unnumber a) := by
  unfold State.unnumber
  repeat' split
  all_goals simp -implicitDefEqProofs [Same]

@[simp] theorem same_cover (s : State) a b : Same s (s.cover a b) := by
  unfold State.cover
  dsimp only
  repeat' split
  all_goals simp -implicitDefEqProofs [Same]

@[simp] theorem same_rxDiscarded (s : State) a : Same s (s.rxDiscarded a) := by
  unfold State.rxDiscarded
  dsimp only
  repeat' split
  all_goals simp -implicitDefEqProofs [Same]

@[simp] theorem same_traceRec (s : State) a b c d e f : Same s (s.traceRec a b c d e f).2 := by
  unfold State.traceRec
  dsimp only
  repeat' split
  all_goals simp -implicitDefEqProofs [Same]

@[simp] theorem same_unpend (s : State) a b : Same s (s.unpend a b) := by
  unfold State.unpend
  dsimp only
  repeat' split
  all_goals simp -implicitDefEqProofs [Same]

@[simp] theorem same_addF (s : State) a b c d : Same s (s.addF a b c d) := ⟨rfl, rfl⟩

@[simp] theorem same_bridgeReset (s : State) a : Same s (s.bridgeReset a) := ⟨rfl, rfl⟩

@[simp] theorem same_celOffline (s : State) a : Same s (s.celOffline a) := ⟨rfl, rfl⟩

@[simp] theorem same_emitData (s : State) a b c : Same s (s.emitData a b c) := ⟨rfl, rfl⟩

@[simp] theorem same_measureReply (s : State) a b : Same s (s.measureReply a b).2 := ⟨rfl, rfl⟩

@[simp] theorem same_newlyActive (s : State) a : Same s (s.newlyActive a) := ⟨rfl, rfl⟩

@[simp] theorem same_pcieTake (s : State) a b : Same s (s.pcieTake a b) := ⟨rfl, rfl⟩

@[simp] theorem same_peakDepth (s : State) a : Same s (s.peakDepth a) := ⟨rfl, rfl⟩

@[simp] theorem same_replayAt (s : State) a b : Same s (s.replayAt a b) := ⟨rfl, rfl⟩

@[simp] theorem same_setBeOnly (s : State) a b : Same s (s.setBeOnly a b) := ⟨rfl, rfl⟩

@[simp] theorem same_setChState (s : State) a b : Same s (s.setChState a b) := ⟨rfl, rfl⟩

@[simp] theorem same_setFlag (s : State) a b c d : Same s (s.setFlag a b c d) := ⟨rfl, rfl⟩

@[simp] theorem same_setFper (s : State) a b : Same s (s.setFper a b) := ⟨rfl, rfl⟩

@[simp] theorem same_setGate (s : State) a b : Same s (s.setGate a b) := ⟨rfl, rfl⟩

@[simp] theorem same_setGated (s : State) a b : Same s (s.setGated a b) := ⟨rfl, rfl⟩

@[simp] theorem same_setImg (s : State) a b : Same s (s.setImg a b) := ⟨rfl, rfl⟩

@[simp] theorem same_setL (s : State) a b c : Same s (s.setL a b c) := ⟨rfl, rfl⟩

@[simp] theorem same_setRetry (s : State) a b : Same s (s.setRetry a b) := ⟨rfl, rfl⟩

@[simp] theorem same_setSlot (s : State) a b : Same s (s.setSlot a b) := ⟨rfl, rfl⟩

@[simp] theorem same_upkeepFrom (s : State) a b : Same s (s.upkeepFrom a b) := ⟨rfl, rfl⟩

@[simp] theorem same_bar4Write (s : State) a b c : Same s (s.bar4Write a b c) := by
  unfold State.bar4Write
  simp -implicitDefEqProofs [Same]

@[simp] theorem same_feedSwitch (s : State) a b : Same s (s.feedSwitch a b) := by
  unfold State.feedSwitch
  simp -implicitDefEqProofs [Same]

@[simp] theorem same_lifeCheck (s : State) a : Same s (s.lifeCheck a) := by
  unfold State.lifeCheck
  simp -implicitDefEqProofs [Same]

@[simp] theorem same_msixControl (s : State) a b : Same s (s.msixControl a b) := by
  unfold State.msixControl
  simp -implicitDefEqProofs [Same]

@[simp] theorem same_putSlip (s : State) a b : Same s (s.putSlip a b) := by
  unfold State.putSlip
  simp -implicitDefEqProofs [Same]

@[simp] theorem same_sweepBad (s : State) a : Same s (s.sweepBad a) := by
  unfold State.sweepBad
  simp -implicitDefEqProofs [Same]

@[simp] theorem same_vfMsixControl (s : State) a b : Same s (s.vfMsixControl a b) := by
  unfold State.vfMsixControl
  simp -implicitDefEqProofs [Same]

@[simp] theorem same_vfMsixWrite (s : State) a b c : Same s (s.vfMsixWrite a b c) := by
  unfold State.vfMsixWrite
  simp -implicitDefEqProofs [Same]

@[simp] theorem same_attStart (s : State) a : Same s (s.attStart a) := by
  unfold State.attStart
  repeat' split
  all_goals simp -implicitDefEqProofs [Same]

@[simp] theorem same_bookAdd (s : State) a b : Same s (s.bookAdd a b) := by
  unfold State.bookAdd
  repeat' split
  all_goals simp -implicitDefEqProofs [Same]

@[simp] theorem same_frtReply (s : State) a b c : Same s (s.frtReply a b c) := by
  unfold State.frtReply
  repeat' split
  all_goals simp -implicitDefEqProofs [Same]

@[simp] theorem same_ldataStep (s : State) : Same s s.ldataStep := by
  unfold State.ldataStep
  repeat' split
  all_goals simp -implicitDefEqProofs [Same]

@[simp] theorem same_packetLeft (s : State) a b : Same s (s.packetLeft a b) := by
  unfold State.packetLeft
  repeat' split
  all_goals simp -implicitDefEqProofs [Same]

@[simp] theorem same_pmuWrite (s : State) a b c d : Same s (s.pmuWrite a b c d) := by
  unfold State.pmuWrite
  repeat' split
  all_goals simp -implicitDefEqProofs [Same]

@[simp] theorem same_polDebit (s : State) a b c : Same s (s.polDebit a b c) := by
  unfold State.polDebit
  repeat' split
  all_goals simp -implicitDefEqProofs [Same]

@[simp] theorem same_sendMsix (s : State) a b : Same s (s.sendMsix a b) := by
  unfold State.sendMsix
  repeat' split
  all_goals simp -implicitDefEqProofs [Same]

@[simp] theorem same_sendVfMsix (s : State) a b : Same s (s.sendVfMsix a b) := by
  unfold State.sendVfMsix
  repeat' split
  all_goals simp -implicitDefEqProofs [Same]

@[simp] theorem same_setScore (s : State) a b c : Same s (s.setScore a b c) := by
  unfold State.setScore
  repeat' split
  all_goals simp -implicitDefEqProofs [Same]

@[simp] theorem same_slipLimit (s : State) a : Same s (s.slipLimit a) := by
  unfold State.slipLimit
  repeat' split
  all_goals simp -implicitDefEqProofs [Same]

@[simp] theorem same_aerPort (s : State) a b : Same s (s.aerPort a b) := by
  unfold State.aerPort
  dsimp only
  repeat' split
  all_goals simp -implicitDefEqProofs [Same]

@[simp] theorem same_ledger (s : State) : Same s s.ledger := by
  unfold State.ledger
  dsimp only
  repeat' split
  all_goals simp -implicitDefEqProofs [Same]

@[simp] theorem same_moveRd (s : State) a b c d : Same s (s.moveRd a b c d) := by
  unfold State.moveRd
  dsimp only
  repeat' split
  all_goals simp -implicitDefEqProofs [Same]

@[simp] theorem same_npwDone (s : State) a b : Same s (s.npwDone a b) := by
  unfold State.npwDone
  dsimp only
  repeat' split
  all_goals simp -implicitDefEqProofs [Same]

@[simp] theorem same_portArrival (s : State) a : Same s (s.portArrival a) := by
  unfold State.portArrival
  dsimp only
  repeat' split
  all_goals simp -implicitDefEqProofs [Same]

@[simp] theorem same_sendAer (s : State) a b : Same s (s.sendAer a b) := by
  unfold State.sendAer
  dsimp only
  repeat' split
  all_goals simp -implicitDefEqProofs [Same]

@[simp] theorem same_writeLost (s : State) a b c : Same s (s.writeLost a b c) := by
  unfold State.writeLost
  dsimp only
  repeat' split
  all_goals simp -implicitDefEqProofs [Same]

@[simp] theorem same_writeRingRd (s : State) a b : Same s (s.writeRingRd a b) := by
  unfold State.writeRingRd
  dsimp only
  repeat' split
  all_goals simp -implicitDefEqProofs [Same]

@[simp] theorem same_addL (s : State) a b c : Same s (s.addL a b c) := ⟨rfl, rfl⟩

@[simp] theorem same_capFirst (s : State) a b c : Same s (s.capFirst a b c) := ⟨rfl, rfl⟩

@[simp] theorem same_emptySlot (s : State) a : Same s (s.emptySlot a) := ⟨rfl, rfl⟩

@[simp] theorem same_feedSample (s : State) a b : Same s (s.feedSample a b) := ⟨rfl, rfl⟩

@[simp] theorem same_fenceReport (s : State) a : Same s (s.fenceReport a) := ⟨rfl, rfl⟩

@[simp] theorem same_helloBegin (s : State) a : Same s (s.helloBegin a) := ⟨rfl, rfl⟩

@[simp] theorem same_invDone (s : State) a : Same s (s.invDone a) := ⟨rfl, rfl⟩

@[simp] theorem same_linkFields (s : State) a b : Same s (s.linkFields a b) := ⟨rfl, rfl⟩

@[simp] theorem same_linkRetrain (s : State) a b : Same s (s.linkRetrain a b) := ⟨rfl, rfl⟩

@[simp] theorem same_lockPage (s : State) a : Same s (s.lockPage a) := ⟨rfl, rfl⟩

@[simp] theorem same_mirRes (s : State) a : Same s (s.mirRes a) := ⟨rfl, rfl⟩

@[simp] theorem same_pfDiscard (s : State) a : Same s (s.pfDiscard a) := ⟨rfl, rfl⟩

@[simp] theorem same_propose (s : State) a b c d : Same s (s.propose a b c d) := ⟨rfl, rfl⟩

@[simp] theorem same_replayDue (s : State) a : Same s (s.replayDue a) := ⟨rfl, rfl⟩

@[simp] theorem same_resetPolicers (s : State) a : Same s (s.resetPolicers a) := ⟨rfl, rfl⟩

@[simp] theorem same_sendData (s : State) a b c d e f g : Same s (s.sendData a b c d e f g) := ⟨rfl, rfl⟩

@[simp] theorem same_setCap (s : State) a b : Same s (s.setCap a b) := ⟨rfl, rfl⟩

@[simp] theorem same_setHold (s : State) a b c : Same s (s.setHold a b c) := ⟨rfl, rfl⟩

@[simp] theorem same_setPin (s : State) a : Same s (s.setPin a) := ⟨rfl, rfl⟩

@[simp] theorem same_upkeepDue (s : State) a : Same s (s.upkeepDue a) := ⟨rfl, rfl⟩

@[simp] theorem same_bookDebug (s : State) a b : Same s (s.bookDebug a b) := by
  unfold State.bookDebug
  simp -implicitDefEqProofs [Same]

@[simp] theorem same_bookSwap (s : State) a b c d e : Same s (s.bookSwap a b c d e) := by
  unfold State.bookSwap
  simp -implicitDefEqProofs [Same]

@[simp] theorem same_cellarDomains (s : State) : Same s s.cellarDomains := by
  unfold State.cellarDomains
  simp -implicitDefEqProofs [Same]

@[simp] theorem same_checkpoint (s : State) : Same s s.checkpoint := by
  unfold State.checkpoint
  simp -implicitDefEqProofs [Same]

@[simp] theorem same_clearScores (s : State) a : Same s (s.clearScores a) := by
  unfold State.clearScores
  simp -implicitDefEqProofs [Same]

@[simp] theorem same_connReset (s : State) a : Same s (s.connReset a) := by
  unfold State.connReset
  simp -implicitDefEqProofs [Same]

@[simp] theorem same_portMode (s : State) a b : Same s (s.portMode a b) := by
  unfold State.portMode
  simp -implicitDefEqProofs [Same]

@[simp] theorem same_sendTack (s : State) a b : Same s (s.sendTack a b) := by
  unfold State.sendTack
  simp -implicitDefEqProofs [Same]

@[simp] theorem same_setSlip (s : State) a b : Same s (s.setSlip a b) := by
  unfold State.setSlip
  simp -implicitDefEqProofs [Same]

@[simp] theorem same_accCapture (s : State) a b c d e f g h : Same s (s.accCapture a b c d e f g h) := by
  unfold State.accCapture
  repeat' split
  all_goals simp -implicitDefEqProofs [Same]

@[simp] theorem same_acceptCell (s : State) a b c : Same s (s.acceptCell a b c) := by
  unfold State.acceptCell
  repeat' split
  all_goals simp -implicitDefEqProofs [Same]

@[simp] theorem same_attEnd (s : State) a b c : Same s (s.attEnd a b c) := by
  unfold State.attEnd
  repeat' split
  all_goals simp -implicitDefEqProofs [Same]

@[simp] theorem same_attRedo (s : State) a : Same s (s.attRedo a) := by
  unfold State.attRedo
  repeat' split
  all_goals simp -implicitDefEqProofs [Same]

@[simp] theorem same_chanInt (s : State) a : Same s (s.chanInt a) := by
  unfold State.chanInt
  repeat' split
  all_goals simp -implicitDefEqProofs [Same]

@[simp] theorem same_fwdCapture (s : State) a b c d e : Same s (s.fwdCapture a b c d e) := by
  unfold State.fwdCapture
  repeat' split
  all_goals simp -implicitDefEqProofs [Same]

@[simp] theorem same_gateReq (s : State) a : Same s (s.gateReq a) := by
  unfold State.gateReq
  repeat' split
  all_goals simp -implicitDefEqProofs [Same]

@[simp] theorem same_helloFail (s : State) a : Same s (s.helloFail a) := by
  unfold State.helloFail
  repeat' split
  all_goals simp -implicitDefEqProofs [Same]

@[simp] theorem same_invGo (s : State) a b : Same s (s.invGo a b) := by
  unfold State.invGo
  repeat' split
  all_goals simp -implicitDefEqProofs [Same]

@[simp] theorem same_laneEvent (s : State) a b : Same s (s.laneEvent a b) := by
  unfold State.laneEvent
  repeat' split
  all_goals simp -implicitDefEqProofs [Same]

@[simp] theorem same_laneReeq (s : State) a b : Same s (s.laneReeq a b) := by
  unfold State.laneReeq
  repeat' split
  all_goals simp -implicitDefEqProofs [Same]

@[simp] theorem same_mgmtReset (s : State) : Same s s.mgmtReset := by
  unfold State.mgmtReset
  repeat' split
  all_goals simp -implicitDefEqProofs [Same]

@[simp] theorem same_scanStatus (s : State) : Same s s.scanStatus := by
  unfold State.scanStatus
  repeat' split
  all_goals simp -implicitDefEqProofs [Same]

@[simp] theorem same_sealAll (s : State) : Same s s.sealAll := by
  unfold State.sealAll
  repeat' split
  all_goals simp -implicitDefEqProofs [Same]

@[simp] theorem same_setLock (s : State) a b : Same s (s.setLock a b) := by
  unfold State.setLock
  repeat' split
  all_goals simp -implicitDefEqProofs [Same]

@[simp] theorem same_swFault (s : State) a b c : Same s (s.swFault a b c) := by
  unfold State.swFault
  repeat' split
  all_goals simp -implicitDefEqProofs [Same]

@[simp] theorem same_ttuCapture (s : State) a b c d e : Same s (s.ttuCapture a b c d e) := by
  unfold State.ttuCapture
  repeat' split
  all_goals simp -implicitDefEqProofs [Same]

@[simp] theorem same_wakeReq (s : State) a : Same s (s.wakeReq a) := by
  unfold State.wakeReq
  repeat' split
  all_goals simp -implicitDefEqProofs [Same]

@[simp] theorem same_absorbSlip (s : State) a : Same s (s.absorbSlip a) := by
  unfold State.absorbSlip
  dsimp only
  repeat' split
  all_goals simp -implicitDefEqProofs [Same]

@[simp] theorem same_dmaData (s : State) a b c d e f g h i : Same s (s.dmaData a b c d e f g h i) := by
  unfold State.dmaData
  dsimp only
  repeat' split
  all_goals simp -implicitDefEqProofs [Same]

@[simp] theorem same_linkTake (s : State) a b : Same s (s.linkTake a b) := by
  unfold State.linkTake
  dsimp only
  repeat' split
  all_goals simp -implicitDefEqProofs [Same]

@[simp] theorem same_onCount (s : State) a : Same s (s.onCount a) := by
  unfold State.onCount
  dsimp only
  repeat' split
  all_goals simp -implicitDefEqProofs [Same]

@[simp] theorem same_readEffects (s : State) a b c d : Same s (s.readEffects a b c d) := by
  unfold State.readEffects
  dsimp only
  repeat' split
  all_goals simp -implicitDefEqProofs [Same]

@[simp] theorem same_sampleOne (s : State) a b c d e f : Same s (s.sampleOne a b c d e f).1 := by
  unfold State.sampleOne
  dsimp only
  repeat' split
  all_goals simp -implicitDefEqProofs [Same]

@[simp] theorem same_slipCapture (s : State) a b c d : Same s (s.slipCapture a b c d) := by
  unfold State.slipCapture
  dsimp only
  repeat' split
  all_goals simp -implicitDefEqProofs [Same]

@[simp] theorem same_stopChannel (s : State) a : Same s (s.stopChannel a) := by
  unfold State.stopChannel
  dsimp only
  repeat' split
  all_goals simp -implicitDefEqProofs [Same]

@[simp] theorem same_nakGaps (s : State) a b : Same s (s.nakGaps a b) := by
  unfold State.nakGaps
  simp -implicitDefEqProofs [Same, apply_ite State.hbm, apply_ite State.flash]

@[simp] theorem same_ctrlAdd (s : State) a b c : Same s (s.ctrlAdd a b c) := ⟨rfl, rfl⟩

@[simp] theorem same_pulseOver (s : State) : Same s s.pulseOver := ⟨rfl, rfl⟩

@[simp] theorem same_enterPartFatal (s : State) a : Same s (s.enterPartFatal a) := by
  unfold State.enterPartFatal
  simp -implicitDefEqProofs [Same]

@[simp] theorem same_linkLoses (s : State) a : Same s (s.linkLoses a) := by
  unfold State.linkLoses
  simp -implicitDefEqProofs [Same]

@[simp] theorem same_restart (s : State) a : Same s (s.restart a) := by
  unfold State.restart
  simp -implicitDefEqProofs [Same]

@[simp] theorem same_rxPassed (s : State) a : Same s (s.rxPassed a) := by
  unfold State.rxPassed
  simp -implicitDefEqProofs [Same]

@[simp] theorem same_steal (s : State) a b c d : Same s (s.steal a b c d) := by
  unfold State.steal
  simp -implicitDefEqProofs [Same]

@[simp] theorem same_advise (s : State) a b c d : Same s (s.advise a b c d) := by
  unfold State.advise
  repeat' split
  all_goals simp -implicitDefEqProofs [Same]

@[simp] theorem same_ageScanNow (s : State) a : Same s (s.ageScanNow a) := by
  unfold State.ageScanNow
  repeat' split
  all_goals simp -implicitDefEqProofs [Same]

@[simp] theorem same_evalPin (s : State) : Same s s.evalPin := by
  unfold State.evalPin
  repeat' split
  all_goals simp -implicitDefEqProofs [Same]

@[simp] theorem same_guardBytes (s : State) a b c d : Same s (s.guardBytes a b c d).1 := by
  unfold State.guardBytes
  repeat' split
  all_goals simp -implicitDefEqProofs [Same]

@[simp] theorem same_onEnd (s : State) a b : Same s (s.onEnd a b) := by
  unfold State.onEnd
  repeat' split
  all_goals simp -implicitDefEqProofs [Same]

@[simp] theorem same_pfWrite (s : State) a b : Same s (s.pfWrite a b) := by
  unfold State.pfWrite
  repeat' split
  all_goals simp -implicitDefEqProofs [Same]

@[simp] theorem same_pinMode (s : State) a : Same s (s.pinMode a) := by
  unfold State.pinMode
  repeat' split
  all_goals simp -implicitDefEqProofs [Same]

@[simp] theorem same_pulse (s : State) a : Same s (s.pulse a) := by
  unfold State.pulse
  repeat' split
  all_goals simp -implicitDefEqProofs [Same]

@[simp] theorem same_rearm (s : State) : Same s s.rearm := by
  unfold State.rearm
  repeat' split
  all_goals simp -implicitDefEqProofs [Same]

@[simp] theorem same_sendNull (s : State) a : Same s (s.sendNull a) := by
  unfold State.sendNull
  repeat' split
  all_goals simp -implicitDefEqProofs [Same]

@[simp] theorem same_swAccept (s : State) a : Same s (s.swAccept a) := by
  unfold State.swAccept
  repeat' split
  all_goals simp -implicitDefEqProofs [Same]

@[simp] theorem same_switchover (s : State) : Same s s.switchover := by
  unfold State.switchover
  repeat' split
  all_goals simp -implicitDefEqProofs [Same]

@[simp] theorem same_bootFirmware (s : State) a b : Same s (s.bootFirmware a b).1 := by
  unfold State.bootFirmware
  dsimp only
  repeat' split
  all_goals simp -implicitDefEqProofs [Same]

@[simp] theorem same_cellarReq (s : State) a b : Same s (s.cellarReq a b) := by
  unfold State.cellarReq
  dsimp only
  repeat' split
  all_goals simp -implicitDefEqProofs [Same]

@[simp] theorem same_guardPage (s : State) a b c d : Same s (s.guardPage a b c d).1 := by
  unfold State.guardPage
  dsimp only
  repeat' split
  all_goals simp -implicitDefEqProofs [Same]

@[simp] theorem same_read4 (s : State) a b : Same s (s.read4 a b).1 := by
  unfold State.read4
  dsimp only
  repeat' split
  all_goals simp -implicitDefEqProofs [Same]

@[simp] theorem same_trainLanes (s : State) a b c : Same s (s.trainLanes a b c) := by
  unfold State.trainLanes
  dsimp only
  repeat' split
  all_goals simp -implicitDefEqProofs [Same, apply_ite State.hbm, apply_ite State.flash]

@[simp] theorem same_writeGate (s : State) a b : Same s (s.writeGate a b) := by
  unfold State.writeGate
  simp -implicitDefEqProofs [Same, apply_ite State.hbm, apply_ite State.flash]

@[simp] theorem same_ackFaults (s : State) a b : Same s (s.ackFaults a b) := by
  unfold State.ackFaults
  simp -implicitDefEqProofs [Same]

@[simp] theorem same_guardSlots (s : State) a b c d : Same s (s.guardSlots a b c d).1 := by
  unfold State.guardSlots
  simp -implicitDefEqProofs [Same]

@[simp] theorem same_mirMsg (s : State) a b : Same s (s.mirMsg a b) := by
  unfold State.mirMsg
  simp -implicitDefEqProofs [Same]

@[simp] theorem same_slotGo (s : State) a b c : Same s (s.slotGo a b c) := by
  unfold State.slotGo
  simp -implicitDefEqProofs [Same]

@[simp] theorem same_owedNull (s : State) a : Same s (s.owedNull a) := by
  unfold State.owedNull
  repeat' split
  all_goals simp -implicitDefEqProofs [Same]

@[simp] theorem same_read8 (s : State) a b : Same s (s.read8 a b).1 := by
  unfold State.read8
  dsimp only
  repeat' split
  all_goals simp -implicitDefEqProofs [Same]

@[simp] theorem same_writeModes (s : State) a : Same s (s.writeModes a) := by
  unfold State.writeModes
  simp -implicitDefEqProofs [Same, apply_ite State.hbm, apply_ite State.flash]

@[simp] theorem same_resyncBegin (s : State) : Same s s.resyncBegin := by
  unfold State.resyncBegin
  simp -implicitDefEqProofs [Same]

@[simp] theorem same_slotRetire (s : State) a b : Same s (s.slotRetire a b) := by
  unfold State.slotRetire
  simp -implicitDefEqProofs [Same]

@[simp] theorem same_clrLatch (s : State) a : Same s (s.clrLatch a) := by
  unfold State.clrLatch
  repeat' split
  all_goals simp -implicitDefEqProofs [Same]

@[simp] theorem same_slotService (s : State) a : Same s (s.slotService a) := by
  unfold State.slotService
  repeat' split
  all_goals simp -implicitDefEqProofs [Same]

@[simp] theorem same_slotTrip (s : State) a b c : Same s (s.slotTrip a b c) := by
  unfold State.slotTrip
  dsimp only
  repeat' split
  all_goals simp -implicitDefEqProofs [Same]

@[simp] theorem same_resyncCmd (s : State) : Same s s.resyncCmd := by
  unfold State.resyncCmd
  repeat' split
  all_goals simp -implicitDefEqProofs [Same]

@[simp] theorem same_bindD1 (s : State) a : Same s (s.bindD1 a) := by
  unfold State.bindD1
  simp -implicitDefEqProofs [Same]

@[simp] theorem same_cutOff (s : State) a b : Same s (s.cutOff a b) := by
  unfold State.cutOff
  simp -implicitDefEqProofs [Same]

@[simp] theorem same_grantCells (s : State) a b c : Same s (s.grantCells a b c) := by
  unfold State.grantCells
  simp -implicitDefEqProofs [Same]

@[simp] theorem same_laneStatus (s : State) a : Same s (s.laneStatus a) := by
  unfold State.laneStatus
  simp -implicitDefEqProofs [Same]

@[simp] theorem same_mgmtRelease (s : State) : Same s s.mgmtRelease := by
  unfold State.mgmtRelease
  simp -implicitDefEqProofs [Same]

@[simp] theorem same_mirFatal (s : State) : Same s s.mirFatal := by
  unfold State.mirFatal
  simp -implicitDefEqProofs [Same]

@[simp] theorem same_pinDrive (s : State) a : Same s (s.pinDrive a) := by
  unfold State.pinDrive
  simp -implicitDefEqProofs [Same]

@[simp] theorem same_plainWrite (s : State) a b c : Same s (s.plainWrite a b c) := by
  unfold State.plainWrite
  simp -implicitDefEqProofs [Same]

@[simp] theorem same_scanStore (s : State) a b c : Same s (s.scanStore a b c) := by
  unfold State.scanStore
  simp -implicitDefEqProofs [Same]

@[simp] theorem same_schFire (s : State) a : Same s (s.schFire a) := by
  unfold State.schFire
  simp -implicitDefEqProofs [Same]

@[simp] theorem same_setResv (s : State) a b c d e : Same s (s.setResv a b c d e) := by
  unfold State.setResv
  simp -implicitDefEqProofs [Same]

@[simp] theorem same_setRole (s : State) a : Same s (s.setRole a) := by
  unfold State.setRole
  simp -implicitDefEqProofs [Same]

@[simp] theorem same_snapCellar (s : State) a : Same s (s.snapCellar a) := by
  unfold State.snapCellar
  simp -implicitDefEqProofs [Same]

@[simp] theorem same_swapRegs (s : State) a b : Same s (s.swapRegs a b) := by
  unfold State.swapRegs
  simp -implicitDefEqProofs [Same]

@[simp] theorem same_writeShared (s : State) a b c d : Same s (s.writeShared a b c d) := by
  unfold State.writeShared
  simp -implicitDefEqProofs [Same]

@[simp] theorem same_account (s : State) a b c d : Same s (s.account a b c d) := by
  unfold State.account
  repeat' split
  all_goals simp -implicitDefEqProofs [Same]

@[simp] theorem same_cellArrive (s : State) a b : Same s (s.cellArrive a b) := by
  unfold State.cellArrive
  repeat' split
  all_goals simp -implicitDefEqProofs [Same]

@[simp] theorem same_cfgPut (s : State) a b c : Same s (s.cfgPut a b c) := by
  unfold State.cfgPut
  repeat' split
  all_goals simp -implicitDefEqProofs [Same]

@[simp] theorem same_cfgWrite (s : State) a b c : Same s (s.cfgWrite a b c) := by
  unfold State.cfgWrite
  repeat' split
  all_goals simp -implicitDefEqProofs [Same]

@[simp] theorem same_fflRequest (s : State) a b c : Same s (s.fflRequest a b c) := by
  unfold State.fflRequest
  repeat' split
  all_goals simp -implicitDefEqProofs [Same]

@[simp] theorem same_ideSet (s : State) a b c d : Same s (s.ideSet a b c d) := by
  unfold State.ideSet
  repeat' split
  all_goals simp -implicitDefEqProofs [Same]

@[simp] theorem same_mirLinkLost (s : State) : Same s s.mirLinkLost := by
  unfold State.mirLinkLost
  repeat' split
  all_goals simp -implicitDefEqProofs [Same]

@[simp] theorem same_showWait (s : State) a : Same s (s.showWait a) := by
  unfold State.showWait
  repeat' split
  all_goals simp -implicitDefEqProofs [Same]

@[simp] theorem same_spillDone (s : State) a b : Same s (s.spillDone a b) := by
  unfold State.spillDone
  repeat' split
  all_goals simp -implicitDefEqProofs [Same]

@[simp] theorem same_ageRestore (s : State) : Same s s.ageRestore := by
  unfold State.ageRestore
  dsimp only
  repeat' split
  all_goals simp -implicitDefEqProofs [Same]

@[simp] theorem same_lifeRead (s : State) a : Same s (s.lifeRead a) := by
  unfold State.lifeRead
  dsimp only
  repeat' split
  all_goals simp -implicitDefEqProofs [Same]

@[simp] theorem same_swapSteal (s : State) a : Same s (s.swapSteal a) := by
  unfold State.swapSteal
  dsimp only
  repeat' split
  all_goals simp -implicitDefEqProofs [Same]

@[simp] theorem same_timeApply (s : State) a : Same s (s.timeApply a) := by
  unfold State.timeApply
  dsimp only
  repeat' split
  all_goals simp -implicitDefEqProofs [Same]

@[simp] theorem same_xferFinish (s : State) a b : Same s (s.xferFinish a b) := by
  unfold State.xferFinish
  dsimp only
  simp -implicitDefEqProofs [Same, apply_ite State.hbm, apply_ite State.flash]

@[simp] theorem same_trainCounts (s : State) a b : Same s (s.trainCounts a b) := by
  unfold State.trainCounts
  simp -implicitDefEqProofs [Same, apply_ite State.hbm, apply_ite State.flash]

@[simp] theorem same_admitSlot (s : State) a b : Same s (s.admitSlot a b) := by
  unfold State.admitSlot
  simp -implicitDefEqProofs [Same]

@[simp] theorem same_armAbort (s : State) a b c : Same s (s.armAbort a b c) := by
  unfold State.armAbort
  simp -implicitDefEqProofs [Same]

@[simp] theorem same_becomeActive (s : State) : Same s s.becomeActive := by
  unfold State.becomeActive
  simp -implicitDefEqProofs [Same]

@[simp] theorem same_enterDevFatal (s : State) : Same s s.enterDevFatal := by
  unfold State.enterDevFatal
  simp -implicitDefEqProofs [Same]

@[simp] theorem same_feedLost (s : State) a b : Same s (s.feedLost a b) := by
  unfold State.feedLost
  simp -implicitDefEqProofs [Same]

@[simp] theorem same_lifeRestore (s : State) : Same s s.lifeRestore := by
  unfold State.lifeRestore
  simp -implicitDefEqProofs [Same]

@[simp] theorem same_linkGone (s : State) a : Same s (s.linkGone a) := by
  unfold State.linkGone
  simp -implicitDefEqProofs [Same]

@[simp] theorem same_writeSampler (s : State) a b c d : Same s (s.writeSampler a b c d) := by
  unfold State.writeSampler
  simp -implicitDefEqProofs [Same]

@[simp] theorem same_freeNull (s : State) a b c : Same s (s.freeNull a b c) := by
  unfold State.freeNull
  repeat' split
  all_goals simp -implicitDefEqProofs [Same]

@[simp] theorem same_fruDone (s : State) a b : Same s (s.fruDone a b) := by
  unfold State.fruDone
  repeat' split
  all_goals simp -implicitDefEqProofs [Same]

@[simp] theorem same_giveCredit (s : State) a b c d e : Same s (s.giveCredit a b c d e) := by
  unfold State.giveCredit
  repeat' split
  all_goals simp -implicitDefEqProofs [Same]

@[simp] theorem same_mirDown (s : State) a b : Same s (s.mirDown a b) := by
  unfold State.mirDown
  repeat' split
  all_goals simp -implicitDefEqProofs [Same]

@[simp] theorem same_nextRequest (s : State) a : Same s (s.nextRequest a) := by
  unfold State.nextRequest
  repeat' split
  all_goals simp -implicitDefEqProofs [Same]

@[simp] theorem same_payCredit (s : State) : Same s s.payCredit := by
  unfold State.payCredit
  repeat' split
  all_goals simp -implicitDefEqProofs [Same]

@[simp] theorem same_plainWriteF (s : State) a b c d : Same s (s.plainWriteF a b c d) := by
  unfold State.plainWriteF
  repeat' split
  all_goals simp -implicitDefEqProofs [Same]

@[simp] theorem same_powerOn (s : State) a : Same s (s.powerOn a) := by
  unfold State.powerOn
  repeat' split
  all_goals simp -implicitDefEqProofs [Same]

@[simp] theorem same_shaperWrite (s : State) a b : Same s (s.shaperWrite a b) := by
  unfold State.shaperWrite
  repeat' split
  all_goals simp -implicitDefEqProofs [Same]

@[simp] theorem same_ideKm (s : State) a b c : Same s (s.ideKm a b c).2 := by
  unfold State.ideKm
  dsimp only
  repeat' split
  all_goals simp -implicitDefEqProofs [Same]

@[simp] theorem same_powerOff (s : State) a b : Same s (s.powerOff a b) := by
  unfold State.powerOff
  dsimp only
  repeat' split
  all_goals simp -implicitDefEqProofs [Same]

@[simp] theorem same_writeLinkReq (s : State) a b : Same s (s.writeLinkReq a b) := by
  unfold State.writeLinkReq
  dsimp only
  repeat' split
  all_goals simp -implicitDefEqProofs [Same]

@[simp] theorem same_imgRes (s : State) a b c : Same s (s.imgRes a b c) := by
  unfold State.imgRes
  simp -implicitDefEqProofs [Same]

@[simp] theorem same_evtWrite (s : State) a b c : Same s (s.evtWrite a b c) := by
  unfold State.evtWrite
  simp -implicitDefEqProofs [Same]

@[simp] theorem same_oweCredit (s : State) a b : Same s (s.oweCredit a b) := by
  unfold State.oweCredit
  simp -implicitDefEqProofs [Same]

@[simp] theorem same_portDown (s : State) a b c : Same s (s.portDown a b c) := by
  unfold State.portDown
  simp -implicitDefEqProofs [Same]

@[simp] theorem same_releaseHeld (s : State) a b : Same s (s.releaseHeld a b) := by
  unfold State.releaseHeld
  simp -implicitDefEqProofs [Same]

@[simp] theorem same_takeCell (s : State) a b : Same s (s.takeCell a b) := by
  unfold State.takeCell
  simp -implicitDefEqProofs [Same]

@[simp] theorem same_schDisarm (s : State) a : Same s (s.schDisarm a) := by
  unfold State.schDisarm
  repeat' split
  all_goals simp -implicitDefEqProofs [Same]

@[simp] theorem same_schHold (s : State) a : Same s (s.schHold a) := by
  unfold State.schHold
  repeat' split
  all_goals simp -implicitDefEqProofs [Same]

@[simp] theorem same_spdmReply (s : State) a : Same s (s.spdmReply a).2 := by
  unfold State.spdmReply
  repeat' split
  all_goals simp -implicitDefEqProofs [Same]

@[simp] theorem same_takeForce (s : State) : Same s s.takeForce := by
  unfold State.takeForce
  repeat' split
  all_goals simp -implicitDefEqProofs [Same]

@[simp] theorem same_arrival (s : State) a : Same s (s.arrival a) := by
  unfold State.arrival
  dsimp only
  repeat' split
  all_goals simp -implicitDefEqProofs [Same]

@[simp] theorem same_freeIngress (s : State) a b c : Same s (s.freeIngress a b c) := by
  unfold State.freeIngress
  dsimp only
  repeat' split
  all_goals simp -implicitDefEqProofs [Same]

@[simp] theorem same_ledgerArrives (s : State) a : Same s (s.ledgerArrives a) := by
  unfold State.ledgerArrives
  dsimp only
  repeat' split
  all_goals simp -implicitDefEqProofs [Same]

@[simp] theorem same_schArm (s : State) a : Same s (s.schArm a) := by
  unfold State.schArm
  dsimp only
  repeat' split
  all_goals simp -implicitDefEqProofs [Same]

@[simp] theorem same_schLoad (s : State) a : Same s (s.schLoad a) := by
  unfold State.schLoad
  dsimp only
  repeat' split
  all_goals simp -implicitDefEqProofs [Same]

@[simp] theorem same_shadowWrite (s : State) a b c : Same s (s.shadowWrite a b c) := by
  unfold State.shadowWrite
  dsimp only
  repeat' split
  all_goals simp -implicitDefEqProofs [Same]

@[simp] theorem same_slotSample (s : State) a b c : Same s (s.slotSample a b c) := by
  unfold State.slotSample
  dsimp only
  repeat' split
  all_goals simp -implicitDefEqProofs [Same]

@[simp] theorem same_schRelease (s : State) a : Same s (s.schRelease a) := by
  unfold State.schRelease
  dsimp only
  repeat' split
  all_goals simp -implicitDefEqProofs [Same]

@[simp] theorem same_fflDown (s : State) a b c d : Same s (s.fflDown a b c d) := by
  unfold State.fflDown
  repeat' split
  all_goals simp -implicitDefEqProofs [Same]

@[simp] theorem same_writeImgCmd (s : State) a : Same s (s.writeImgCmd a) := by
  unfold State.writeImgCmd
  dsimp only
  repeat' split
  all_goals simp -implicitDefEqProofs [Same]

@[simp] theorem same_leaveIngress (s : State) a : Same s (s.leaveIngress a) := by
  unfold State.leaveIngress
  simp -implicitDefEqProofs [Same]

@[simp] theorem same_unexpectedCpl (s : State) a : Same s (s.unexpectedCpl a) := by
  unfold State.unexpectedCpl
  simp -implicitDefEqProofs [Same]

theorem Same.trans {a b c : State} (h : Same a b) (g : Same b c) : Same a c := ⟨g.1.trans h.1, g.2.trans h.2⟩

@[simp] theorem same_admitAll (s : State) (a : Nat) (b : List Nat) : Same s (s.admitAll a b) := by
  induction b generalizing s with
  | nil => exact ⟨rfl, rfl⟩
  | cons i r ih =>
    unfold State.admitAll
    split
    · exact (same_admitSlot s i a).trans (ih _)
    · exact ⟨rfl, rfl⟩

@[simp] theorem same_drr (s : State) (el : List (Nat × Packet)) (n ptr : Nat) : Same s (s.drr el n ptr).1 := by
  induction n generalizing s ptr with
  | zero => exact ⟨rfl, rfl⟩
  | succ n ih =>
    unfold State.drr
    repeat' split
    · exact ⟨rfl, rfl⟩
    · exact ⟨rfl, rfl⟩
    · exact ih _ _

theorem same_foldl {α : Type} (l : List α) {f : State → α → State} (h : ∀ t x, Same t (f t x)) (s : State) : Same s (l.foldl f s) := by
  induction l generalizing s with
  | nil => exact ⟨rfl, rfl⟩
  | cons x r ih => exact (h s x).trans (ih (f s x))

@[simp] theorem same_readWords (s : State) (who : Requester) (a n : Nat) : Same s (s.readWords who a n).1 := by
  induction n generalizing s a with
  | zero => exact ⟨rfl, rfl⟩
  | succ n ih =>
    unfold State.readWords
    exact (same_read4 s who a).trans (ih _ _)

@[simp] theorem same_samplePass (s : State) (p : Packet) (e : Option Nat) (m : Bool) : Same s (s.samplePass p e m).1 := by
  have h (l : List Nat) (x : State × Option Nat) : Same x.1 (l.foldl (fun a n => a.1.sampleOne p.cell0 n p e m a.2) x).1 := by
    induction l generalizing x with
    | nil => exact ⟨rfl, rfl⟩
    | cons n r ih => exact (same_sampleOne ..).trans (ih _)
  exact h (List.range 4) (s, none)

theorem same_settlePacket {s u : State} (id : Nat) {r : State × Option Packet} (h : Same s r.1) : Same s (u.settlePacket id r) := by
  unfold State.settlePacket
  split
  · exact h
  · exact h

@[simp] theorem same_takeHeld (s : State) (p n : Nat) : Same s (s.takeHeld p n) := by
  induction n generalizing s with
  | zero => exact ⟨rfl, rfl⟩
  | succ n ih =>
    unfold State.takeHeld
    split
    · exact ⟨rfl, rfl⟩
    · refine Same.trans ?_ (ih _)
      simp -implicitDefEqProofs [Same]

@[simp] theorem same_cplOut (s : State) (q c a : Nat) (t : Tlp) : Same s (s.cplOut q c a t) := by
  unfold State.cplOut
  dsimp only
  split
  · simp -implicitDefEqProofs [Same]
  · exact same_foldl _ (fun u x => by simp -implicitDefEqProofs [Same]) s

@[simp] theorem same_fenceAnswer (s : State) a b c : Same s (s.fenceAnswer a b c) := by
  unfold State.fenceAnswer
  simp -implicitDefEqProofs [Same]

@[simp] theorem same_spcSample (s : State) a b c d : Same s (s.spcSample a b c d) := by
  unfold State.spcSample
  simp -implicitDefEqProofs [Same]

@[simp] theorem same_busRead (s : State) a b c : Same s (s.busRead a b c).1 := by
  unfold State.busRead
  dsimp only
  repeat' split
  all_goals simp -implicitDefEqProofs [Same]

@[simp] theorem same_reply (s : State) a b c d e : Same s (s.reply a b c d e) := by
  unfold State.reply
  dsimp only
  repeat' split
  all_goals simp -implicitDefEqProofs [Same]

@[simp] theorem same_pfServe (s : State) a b c : Same s (s.pfServe a b c) := by
  unfold State.pfServe
  simp -implicitDefEqProofs [Same]

@[simp] theorem same_barRead (s : State) a b : Same s (s.barRead a b).1 := by
  unfold State.barRead
  repeat' split
  all_goals simp -implicitDefEqProofs [Same]

@[simp] theorem same_cfgOwn (s : State) a b : Same s (s.cfgOwn a b) := by
  unfold State.cfgOwn
  repeat' split
  all_goals simp -implicitDefEqProofs [Same]

@[simp] theorem same_dropFences (s : State) a b : Same s (s.dropFences a b) := by
  unfold State.dropFences
  repeat' split
  all_goals simp -implicitDefEqProofs [Same]

@[simp] theorem same_ideDrop (s : State) a : Same s (s.ideDrop a) := by
  unfold State.ideDrop
  repeat' split
  all_goals simp -implicitDefEqProofs [Same]

@[simp] theorem same_refuse (s : State) a b c : Same s (s.refuse a b c) := by
  unfold State.refuse
  repeat' split
  all_goals simp -implicitDefEqProofs [Same]

@[simp] theorem same_trkAbort (s : State) a : Same s (s.trkAbort a) := by
  unfold State.trkAbort
  repeat' split
  all_goals simp -implicitDefEqProofs [Same]

@[simp] theorem same_blockCpl (s : State) a b : Same s (s.blockCpl a b) := by
  unfold State.blockCpl
  dsimp only
  repeat' split
  all_goals simp -implicitDefEqProofs [Same]

@[simp] theorem same_breakStream (s : State) a b : Same s (s.breakStream a b) := by
  unfold State.breakStream
  dsimp only
  repeat' split
  all_goals simp -implicitDefEqProofs [Same, apply_ite State.hbm, apply_ite State.flash]

@[simp] theorem same_swRead (s : State) a b : Same s (s.swRead a b) := by
  unfold State.swRead
  dsimp only
  repeat' split
  all_goals simp -implicitDefEqProofs [Same]

@[simp] theorem same_endInitiators (s : State) a : Same s (s.endInitiators a) := ⟨rfl, rfl⟩

@[simp] theorem same_breakUnreachable (s : State) : Same s s.breakUnreachable := by
  unfold State.breakUnreachable
  simp -implicitDefEqProofs [Same]

@[simp] theorem same_missTlp (s : State) a b : Same s (s.missTlp a b) := by
  unfold State.missTlp
  simp -implicitDefEqProofs [Same]

@[simp] theorem same_withdraw (s : State) : Same s s.withdraw := by
  unfold State.withdraw
  simp -implicitDefEqProofs [Same]

@[simp] theorem same_fenceStart (s : State) a b c : Same s (s.fenceStart a b c) := by
  unfold State.fenceStart
  repeat' split
  all_goals simp -implicitDefEqProofs [Same]

@[simp] theorem same_stopReq (s : State) a b c : Same s (s.stopReq a b c) := by
  unfold State.stopReq
  repeat' split
  all_goals simp -implicitDefEqProofs [Same]

@[simp] theorem same_contain (s : State) a b : Same s (s.contain a b) := by
  unfold State.contain
  dsimp only
  repeat' split
  all_goals simp -implicitDefEqProofs [Same]

@[simp] theorem same_fenceFinish (s : State) a : Same s (s.fenceFinish a) := by
  unfold State.fenceFinish
  dsimp only
  repeat' split
  all_goals simp -implicitDefEqProofs [Same]

@[simp] theorem same_pfRead (s : State) a b : Same s (s.pfRead a b) := by
  unfold State.pfRead
  dsimp only
  repeat' split
  all_goals simp -implicitDefEqProofs [Same]

@[simp] theorem same_tackEntry (s : State) a b : Same s (s.tackEntry a b) := by
  unfold State.tackEntry
  dsimp only
  repeat' split
  all_goals simp -implicitDefEqProofs [Same, apply_ite State.hbm, apply_ite State.flash]

@[simp] theorem same_pfFill (s : State) a b c d : Same s (s.pfFill a b c d) := by
  unfold State.pfFill
  repeat' split
  all_goals simp -implicitDefEqProofs [Same]

@[simp] theorem same_missOther (s : State) a b c : Same s (s.missOther a b c) := by
  unfold State.missOther
  simp -implicitDefEqProofs [Same]

@[simp] theorem same_pcieCleanup (s : State) a b : Same s (s.pcieCleanup a b) := by
  unfold State.pcieCleanup
  simp -implicitDefEqProofs [Same]

@[simp] theorem same_ttuRefuse (s : State) a b : Same s (s.ttuRefuse a b) := by
  unfold State.ttuRefuse
  simp -implicitDefEqProofs [Same]

@[simp] theorem same_yieldDrop (s : State) : Same s s.yieldDrop := by
  unfold State.yieldDrop
  simp -implicitDefEqProofs [Same]

@[simp] theorem same_cfgRequest (s : State) a : Same s (s.cfgRequest a) := by
  unfold State.cfgRequest
  repeat' split
  all_goals simp -implicitDefEqProofs [Same]

@[simp] theorem same_fenceRequest (s : State) a b c d e f : Same s (s.fenceRequest a b c d e f) := by
  unfold State.fenceRequest
  repeat' split
  all_goals simp -implicitDefEqProofs [Same]

@[simp] theorem same_missReq (s : State) a b : Same s (s.missReq a b) := by
  unfold State.missReq
  repeat' split
  all_goals simp -implicitDefEqProofs [Same]

@[simp] theorem same_passDown (s : State) a : Same s (s.passDown a) := by
  unfold State.passDown
  repeat' split
  all_goals simp -implicitDefEqProofs [Same]

@[simp] theorem same_turnAway (s : State) a b : Same s (s.turnAway a b) := by
  unfold State.turnAway
  repeat' split
  all_goals simp -implicitDefEqProofs [Same]

@[simp] theorem same_accessCheck (s : State) a : Same s (s.accessCheck a).1 := by
  unfold State.accessCheck
  dsimp only
  repeat' split
  all_goals simp -implicitDefEqProofs [Same]

@[simp] theorem same_pcieDown (s : State) a b c : Same s (s.pcieDown a b c) := by
  unfold State.pcieDown
  repeat' split
  all_goals simp -implicitDefEqProofs [Same]

@[simp] theorem same_linkDown (s : State) a b c d : Same s (s.linkDown a b c d) := by
  unfold State.linkDown
  repeat' split
  all_goals simp -implicitDefEqProofs [Same]

@[simp] theorem same_sendMsg (s : State) a b : Same s (s.sendMsg a b) := by
  unfold State.sendMsg
  repeat' split
  all_goals simp -implicitDefEqProofs [Same]

@[simp] theorem same_noLanes (s : State) a : Same s (s.noLanes a) := by
  unfold State.noLanes
  simp -implicitDefEqProofs [Same]

@[simp] theorem same_routeMsg (s : State) a : Same s (s.routeMsg a) := by
  unfold State.routeMsg
  repeat' split
  all_goals simp -implicitDefEqProofs [Same]

@[simp] theorem same_setDisable (s : State) a b : Same s (s.setDisable a b) := by
  unfold State.setDisable
  repeat' split
  all_goals simp -implicitDefEqProofs [Same]

@[simp] theorem same_becomeStandby (s : State) : Same s s.becomeStandby := by
  unfold State.becomeStandby
  simp -implicitDefEqProofs [Same]

@[simp] theorem same_portGone (s : State) a : Same s (s.portGone a) := by
  unfold State.portGone
  dsimp only
  repeat' split
  all_goals simp -implicitDefEqProofs [Same]

@[simp] theorem same_yieldNow (s : State) a : Same s (s.yieldNow a) := by
  unfold State.yieldNow
  simp -implicitDefEqProofs [Same]

@[simp] theorem same_grantLink (s : State) a b c : Same s (s.grantLink a b c) := by
  unfold State.grantLink
  repeat' split
  all_goals simp -implicitDefEqProofs [Same]

@[simp] theorem same_removal (s : State) a b : Same s (s.removal a b) := by
  unfold State.removal
  dsimp only
  repeat' split
  all_goals simp -implicitDefEqProofs [Same]

@[simp] theorem same_roleArrives (s : State) a : Same s (s.roleArrives a) := by
  unfold State.roleArrives
  dsimp only
  repeat' split
  all_goals simp -implicitDefEqProofs [Same]

@[simp] theorem same_limderBack (s : State) : Same s s.limderBack := by
  unfold State.limderBack
  dsimp only
  simp -implicitDefEqProofs [Same, apply_ite State.hbm, apply_ite State.flash]

@[simp] theorem same_linkReqArrives (s : State) a b c : Same s (s.linkReqArrives a b c) := by
  unfold State.linkReqArrives
  repeat' split
  all_goals simp -implicitDefEqProofs [Same]

@[simp] theorem same_gatedEnable (s : State) (page dom : Nat) (b : Bool) (f : State → State) (h : ∀ t, Same t (f t)) : Same s (s.gatedEnable page dom b f) := by
  unfold State.gatedEnable
  split
  · simp -implicitDefEqProofs [Same]
  · exact h s

theorem same_heldOr {s : State} (p : Packet) {k : State} (h : Same s k) : Same s (s.heldOr p k) := by
  unfold State.heldOr
  split
  · simp -implicitDefEqProofs [Same]
  · exact h

@[simp] theorem same_ideThen (s : State) (p : Packet) (k : State → State × Option Packet) (h : ∀ t, Same t (k t).1) : Same s (s.ideThen p k).1 := by
  unfold State.ideThen
  split
  · simp -implicitDefEqProofs [Same]
  · exact h s

@[simp] theorem same_mcastJudge (s : State) (p : Packet) (d : Nat) : Same s (s.mcastJudge p d).1 := by
  unfold State.mcastJudge
  dsimp only
  split
  · next heq => exact (congrArg Prod.fst heq) ▸ same_accessCheck ..
  · next heq => exact (congrArg Prod.fst heq) ▸ same_accessCheck ..

@[simp] theorem same_pagesChanged (s t : State) : Same t (s.pagesChanged t) := by
  unfold State.pagesChanged
  exact (same_foldl _ (fun u e => same_unpend ..) t).trans (same_evalPin ..)

@[simp] theorem same_sealedWrite (s : State) (page : Nat) (b : Bool) (f : State → State) (h : ∀ t, Same t (f t)) : Same s (s.sealedWrite page b f) := by
  unfold State.sealedWrite
  split
  · simp -implicitDefEqProofs [Same]
  · exact h s

@[simp] theorem same_waitOnce (s : State) (p : Packet) (b : Nat) (f : State → State) (h : ∀ t, Same t (f t)) : Same s (s.waitOnce p b f) := by
  unfold State.waitOnce
  split
  · exact ⟨rfl, rfl⟩
  · exact (same_modPacket ..).trans (h _)

@[simp] theorem same_withIntPend (s : State) (page : Nat) (f : State → State) (h : ∀ t, Same t (f t)) : Same s (s.withIntPend page f) := by
  unfold State.withIntPend
  dsimp only
  refine (h s).trans ?_
  repeat' split
  all_goals simp -implicitDefEqProofs [Same]

@[simp] theorem same_fillIdle (s : State) a b : Same s (s.fillIdle a b) := by
  unfold State.fillIdle
  simp -implicitDefEqProofs [Same]

@[simp] theorem same_freeGone (s : State) a : Same s (s.freeGone a) := by
  unfold State.freeGone
  simp -implicitDefEqProofs [Same]

@[simp] theorem same_raiseInt (s : State) a b : Same s (s.raiseInt a b) := by
  unfold State.raiseInt
  simp -implicitDefEqProofs [Same]

@[simp] theorem same_resetPages (s : State) a : Same s (s.resetPages a) := by
  unfold State.resetPages
  simp -implicitDefEqProofs [Same]

@[simp] theorem same_accRd (s : State) a b : Same s (s.accRd a b) := by
  unfold State.accRd
  repeat' split
  all_goals simp -implicitDefEqProofs [Same]

@[simp] theorem same_heldWrite (s : State) a b : Same s (s.heldWrite a b) := by
  unfold State.heldWrite
  repeat' split
  all_goals simp -implicitDefEqProofs [Same]

@[simp] theorem same_waitRoom (s : State) a b : Same s (s.waitRoom a b) := by
  unfold State.waitRoom
  repeat' split
  all_goals simp -implicitDefEqProofs [Same]

@[simp] theorem same_winRoute (s : State) a b : Same s (s.winRoute a b) := by
  unfold State.winRoute
  repeat' split
  all_goals simp -implicitDefEqProofs [Same]

@[simp] theorem same_ownerCmd (s : State) a b : Same s (s.ownerCmd a b) := by
  unfold State.ownerCmd
  dsimp only
  repeat' split
  all_goals simp -implicitDefEqProofs [Same]

@[simp] theorem same_cellarRestore (s : State) a : Same s (s.cellarRestore a) := by
  unfold State.cellarRestore
  dsimp only
  repeat' split
  all_goals simp -implicitDefEqProofs [Same, apply_ite State.hbm, apply_ite State.flash]

@[simp] theorem same_eptAccess (s : State) a : Same s (s.eptAccess a) := by
  unfold State.eptAccess
  repeat' split
  all_goals simp -implicitDefEqProofs [Same]

@[simp] theorem same_pmuOverflow (s : State) a b : Same s (s.pmuOverflow a b) := by
  unfold State.pmuOverflow
  simp -implicitDefEqProofs [Same]

@[simp] theorem same_accField (s : State) a b c : Same s (s.accField a b c) := by
  unfold State.accField
  repeat' split
  all_goals simp -implicitDefEqProofs [Same]

@[simp] theorem same_domainReset (s : State) a : Same s (s.domainReset a) := by
  unfold State.domainReset
  repeat' split
  all_goals simp -implicitDefEqProofs [Same]

@[simp] theorem same_forceInts (s : State) a b : Same s (s.forceInts a b) := by
  unfold State.forceInts
  repeat' split
  all_goals simp -implicitDefEqProofs [Same]

@[simp] theorem same_winField (s : State) a b c : Same s (s.winField a b c) := by
  unfold State.winField
  repeat' split
  all_goals simp -implicitDefEqProofs [Same]

@[simp] theorem same_cellarReached (s : State) a : Same s (s.cellarReached a) := by
  unfold State.cellarReached
  dsimp only
  repeat' split
  all_goals simp -implicitDefEqProofs [Same]

@[simp] theorem same_classAct (s : State) a b c : Same s (s.classAct a b c) := by
  unfold State.classAct
  dsimp only
  repeat' split
  all_goals simp -implicitDefEqProofs [Same]

@[simp] theorem same_snapshot (s : State) a b : Same s (s.snapshot a b) := by
  unfold State.snapshot
  simp -implicitDefEqProofs [Same]

@[simp] theorem same_leesStore (s : State) a : Same s (s.leesStore a) := by
  unfold State.leesStore
  repeat' split
  all_goals simp -implicitDefEqProofs [Same]

@[simp] theorem same_monSample (s : State) a : Same s (s.monSample a) := by
  unfold State.monSample
  dsimp only
  repeat' split
  all_goals simp -implicitDefEqProofs [Same, apply_ite State.hbm, apply_ite State.flash]

@[simp] theorem same_writeHdr (s : State) a b c d : Same s (s.writeHdr a b c d) := by
  unfold State.writeHdr
  repeat' split
  all_goals simp -implicitDefEqProofs [Same]

@[simp] theorem same_logDropFault (s : State) : Same s s.logDropFault := by
  unfold State.logDropFault
  dsimp only
  repeat' split
  all_goals simp -implicitDefEqProofs [Same]

@[simp] theorem same_pmuAdd (s : State) a b c : Same s (s.pmuAdd a b c) := by
  unfold State.pmuAdd
  dsimp only
  repeat' split
  all_goals simp -implicitDefEqProofs [Same]

@[simp] theorem same_logFault (s : State) a b c d e : Same s (s.logFault a b c d e).1 := by
  unfold State.logFault
  dsimp only
  repeat' split
  all_goals simp -implicitDefEqProofs [Same]

@[simp] theorem same_logAll (s : State) (l : List (Nat × Firing × Bool)) (a b : Bool) : Same s (s.logAll l a b).1 := by
  induction l generalizing s a b with
  | nil => exact ⟨rfl, rfl⟩
  | cons e r ih =>
    obtain ⟨eff, f, esc⟩ := e
    unfold State.logAll
    dsimp only
    refine Same.trans ?_ (ih _ _ _)
    simp -implicitDefEqProofs [Same]

@[simp] theorem same_count (s : State) a b c d e : Same s (s.count a b c d e) := by
  unfold State.count
  dsimp only
  repeat' split
  all_goals simp -implicitDefEqProofs [Same, apply_ite State.hbm, apply_ite State.flash]

@[simp] theorem same_acceptCells (s : State) a b c d : Same s (s.acceptCells a b c d) := by
  unfold State.acceptCells
  repeat' split
  all_goals simp -implicitDefEqProofs [Same]

@[simp] theorem same_enter (s : State) a b c : Same s (s.enter a b c).1 := by
  unfold State.enter
  repeat' split
  all_goals simp -implicitDefEqProofs [Same]

@[simp] theorem same_enterPath (s : State) a b c d e : Same s (s.enterPath a b c d e) := by
  unfold State.enterPath
  repeat' split
  all_goals simp -implicitDefEqProofs [Same]

@[simp] theorem same_joinWalk (s : State) a b c d : Same s (s.joinWalk a b c d).1 := by
  unfold State.joinWalk
  repeat' split
  all_goals simp -implicitDefEqProofs [Same]

@[simp] theorem same_markOut (s : State) a b c : Same s (s.markOut a b c) := by
  unfold State.markOut
  repeat' split
  all_goals simp -implicitDefEqProofs [Same]

@[simp] theorem same_replayStream (s : State) a b : Same s (s.replayStream a b) := by
  unfold State.replayStream
  repeat' split
  all_goals simp -implicitDefEqProofs [Same]

@[simp] theorem same_spillStart (s : State) a b c d : Same s (s.spillStart a b c d) := by
  unfold State.spillStart
  repeat' split
  all_goals simp -implicitDefEqProofs [Same]

@[simp] theorem same_sendCell (s : State) a b c : Same s (s.sendCell a b c) := by
  unfold State.sendCell
  dsimp only
  repeat' split
  all_goals simp -implicitDefEqProofs [Same]

@[simp] theorem same_ttuHit (s : State) a b c : Same s (s.ttuHit a b c) := by
  unfold State.ttuHit
  simp -implicitDefEqProofs [Same]

@[simp] theorem same_displace (s : State) a b c : Same s (s.displace a b c) := by
  unfold State.displace
  simp -implicitDefEqProofs [Same]

@[simp] theorem same_fflCleanup (s : State) a b : Same s (s.fflCleanup a b) := by
  unfold State.fflCleanup
  simp -implicitDefEqProofs [Same]

@[simp] theorem same_markPassed (s : State) a : Same s (s.markPassed a) := by
  unfold State.markPassed
  simp -implicitDefEqProofs [Same]

@[simp] theorem same_swapTo (s : State) a b : Same s (s.swapTo a b) := by
  unfold State.swapTo
  simp -implicitDefEqProofs [Same]

@[simp] theorem same_badTlp (s : State) a b c : Same s (s.badTlp a b c) := by
  unfold State.badTlp
  repeat' split
  all_goals simp -implicitDefEqProofs [Same]

@[simp] theorem same_markCut (s : State) a : Same s (s.markCut a) := by
  unfold State.markCut
  repeat' split
  all_goals simp -implicitDefEqProofs [Same]

@[simp] theorem same_answer (s : State) a b : Same s (s.answer a b) := by
  unfold State.answer
  dsimp only
  repeat' split
  all_goals simp -implicitDefEqProofs [Same]

@[simp] theorem same_commit (s : State) a b c d e : Same s (s.commit a b c d e) := by
  unfold State.commit
  dsimp only
  repeat' split
  all_goals simp -implicitDefEqProofs [Same]

@[simp] theorem same_e2eExpire (s : State) a b : Same s (s.e2eExpire a b) := by
  unfold State.e2eExpire
  dsimp only
  repeat' split
  all_goals simp -implicitDefEqProofs [Same]

@[simp] theorem same_pass (s : State) a b : Same s (s.pass a b).1 := by
  unfold State.pass
  dsimp only
  repeat' split
  all_goals simp -implicitDefEqProofs [Same]

@[simp] theorem same_spineSlot (s : State) a b c d : Same s (s.spineSlot a b c d) := by
  unfold State.spineSlot
  dsimp only
  repeat' split
  all_goals simp -implicitDefEqProofs [Same]

@[simp] theorem same_startPacket (s : State) a b c : Same s (s.startPacket a b c).1 := by
  unfold State.startPacket
  dsimp only
  repeat' split
  all_goals simp -implicitDefEqProofs [Same]

@[simp] theorem same_commitParts (s : State) (p : Packet) (d : Nat) (x y : Bool) (l : List (Tlp × Option (Nat × Nat))) : Same s (s.commitParts p d x y l) := by
  induction l generalizing s y with
  | nil => exact ⟨rfl, rfl⟩
  | cons e r ih =>
    unfold State.commitParts
    dsimp only
    refine Same.trans ?_ (ih _ _)
    repeat' split
    all_goals simp -implicitDefEqProofs [Same]

@[simp] theorem same_r144 (s : State) (p q u t : Nat) : Same s (s.r144 p q u t).1 := by
  unfold State.r144
  dsimp only
  repeat' split
  all_goals simp -implicitDefEqProofs [Same]

@[simp] theorem same_armedSwap (s : State) a b : Same s (s.armedSwap a b) := by
  unfold State.armedSwap
  simp -implicitDefEqProofs [Same]

@[simp] theorem same_nullify (s : State) a b : Same s (s.nullify a b) := by
  unfold State.nullify
  simp -implicitDefEqProofs [Same]

@[simp] theorem same_cutShort (s : State) a : Same s (s.cutShort a) := by
  unfold State.cutShort
  repeat' split
  all_goals simp -implicitDefEqProofs [Same]

@[simp] theorem same_fallbackSwap (s : State) a b : Same s (s.fallbackSwap a b) := by
  unfold State.fallbackSwap
  repeat' split
  all_goals simp -implicitDefEqProofs [Same]

@[simp] theorem same_takeCpl (s : State) a : Same s (s.takeCpl a) := by
  unfold State.takeCpl
  repeat' split
  all_goals simp -implicitDefEqProofs [Same]

@[simp] theorem same_badPass (s : State) a : Same s (s.badPass a) := by
  unfold State.badPass
  dsimp only
  repeat' split
  all_goals simp -implicitDefEqProofs [Same]

@[simp] theorem same_portUp (s : State) a b c : Same s (s.portUp a b c) := by
  unfold State.portUp
  simp -implicitDefEqProofs [Same]

@[simp] theorem same_fflActive (s : State) a : Same s (s.fflActive a) := by
  unfold State.fflActive
  repeat' split
  all_goals simp -implicitDefEqProofs [Same]

@[simp] theorem same_leaveL0 (s : State) a : Same s (s.leaveL0 a) := by
  unfold State.leaveL0
  repeat' split
  all_goals simp -implicitDefEqProofs [Same]

@[simp] theorem same_continuePacket (s : State) a b c d : Same s (s.continuePacket a b c d).1 := by
  unfold State.continuePacket
  dsimp only
  repeat' split
  all_goals simp -implicitDefEqProofs [Same]

end Sys2Proof.Memories
end

section
/-! ## Functions that leave HBM and the boot flash, part 2 (O6) -/

namespace Sys2Proof.Memories

open Sys2Proof Sys2Proof.Machine Sys2Proof.Laws

@[simp] theorem same_retrain (s : State) a b c : Same s (s.retrain a b c) := by
  unfold State.retrain
  repeat' split
  all_goals simp -implicitDefEqProofs [Same]

@[simp] theorem same_enterRetrain (s : State) a : Same s (s.enterRetrain a) := by
  unfold State.enterRetrain
  dsimp only
  repeat' split
  all_goals simp -implicitDefEqProofs [Same]

@[simp] theorem same_dpcEnter (s : State) a : Same s (s.dpcEnter a) := by
  unfold State.dpcEnter
  simp -implicitDefEqProofs [Same]

@[simp] theorem same_protoErr (s : State) a : Same s (s.protoErr a) := by
  unfold State.protoErr
  simp -implicitDefEqProofs [Same]

@[simp] theorem same_retrainAt (s : State) a b : Same s (s.retrainAt a b) := by
  unfold State.retrainAt
  simp -implicitDefEqProofs [Same]

@[simp] theorem same_retrainSame (s : State) a : Same s (s.retrainSame a) := by
  unfold State.retrainSame
  simp -implicitDefEqProofs [Same]

@[simp] theorem same_sendCtrl (s : State) a : Same s (s.sendCtrl a) := by
  unfold State.sendCtrl
  simp -implicitDefEqProofs [Same]

@[simp] theorem same_replayExpire (s : State) a : Same s (s.replayExpire a) := by
  unfold State.replayExpire
  dsimp only
  repeat' split
  all_goals simp -implicitDefEqProofs [Same]

@[simp] theorem same_derate (s : State) a b c : Same s (s.derate a b c) := by
  unfold State.derate
  repeat' split
  all_goals simp -implicitDefEqProofs [Same]

@[simp] theorem same_ackRule (s : State) a b : Same s (s.ackRule a b) := by
  unfold State.ackRule
  dsimp only
  repeat' split
  all_goals simp -implicitDefEqProofs [Same]

@[simp] theorem same_fflInit (s : State) a : Same s (s.fflInit a) := by
  unfold State.fflInit
  dsimp only
  repeat' split
  all_goals simp -implicitDefEqProofs [Same]

@[simp] theorem same_sendRepair (s : State) a : Same s (s.sendRepair a) := by
  unfold State.sendRepair
  dsimp only
  repeat' split
  all_goals simp -implicitDefEqProofs [Same]

@[simp] theorem same_writeLnkCtl (s : State) a b : Same s (s.writeLnkCtl a b) := by
  unfold State.writeLnkCtl
  dsimp only
  repeat' split
  all_goals simp -implicitDefEqProofs [Same]

@[simp] theorem same_stealNow (s : State) a b : Same s (s.stealNow a b) := by
  unfold State.stealNow
  simp -implicitDefEqProofs [Same]

@[simp] theorem same_helloExit (s : State) a : Same s (s.helloExit a) := by
  unfold State.helloExit
  dsimp only
  repeat' split
  all_goals simp -implicitDefEqProofs [Same]

@[simp] theorem same_mirPeriod (s : State) a : Same s (s.mirPeriod a) := by
  unfold State.mirPeriod
  dsimp only
  repeat' split
  all_goals simp -implicitDefEqProofs [Same]

@[simp] theorem same_sendHello (s : State) a : Same s (s.sendHello a) := by
  unfold State.sendHello
  simp -implicitDefEqProofs [Same]

@[simp] theorem same_helloArrives (s : State) a b c d e : Same s (s.helloArrives a b c d e) := by
  unfold State.helloArrives
  dsimp only
  repeat' split
  all_goals simp -implicitDefEqProofs [Same]

theorem Same.each {α : Type} {s t : State} {l : List α} {f : State → α → State} (h : Same s t) (hf : ∀ t x, Same t (f t x)) : Same s (t.each l f) :=
  h.trans (same_each l hf t)

theorem Same.onlyIf {s t : State} {b : Bool} {f : State → State} (h : Same s t) (hf : ∀ t, Same t (f t)) : Same s (t.onlyIf b f) := by
  cases b
  · exact h
  · exact h.trans (hf t)

@[simp] theorem same_barReadRuns (s : State) (p : Packet) : Same s (s.barReadRuns p).1 := by
  unfold State.barReadRuns
  split
  · exact same_barRead ..
  split
  · dsimp only
    split
    · split
      · exact same_guardPage ..
      · exact ⟨rfl, rfl⟩
    all_goals exact ⟨rfl, rfl⟩
  · exact same_foldl _ (fun t r => same_barRead ..) s

@[simp] theorem same_beSelect (s : State) (p r t : Nat) : Same s (s.beSelect p r t).1 := by
  unfold State.beSelect
  extract_lets el
  split
  · exact ⟨rfl, rfl⟩
  · next l _ =>
    extract_lets mine ptr
    have h := same_drr s mine 600 (State.queueOf p 0 + ptr)
    split
    · next heq =>
      rw [heq] at h
      exact h
    · next heq =>
      rw [heq] at h
      exact Same.onlyIf h fun u => same_setF ..

@[simp] theorem same_cxlRequest (s : State) (p : Packet) : Same s (s.cxlRequest p) := by
  unfold State.cxlRequest
  dsimp only
  split
  · exact (same_refuse ..).trans ⟨rfl, rfl⟩
  split
  · exact same_settlePacket _ (same_ideThen _ _ _ fun t => same_accessCheck ..)
  · exact (same_refuse ..).trans ⟨rfl, rfl⟩

theorem same_foldlFst {α β : Type} (l : List α) {f : State × β → α → State × β} (h : ∀ x a, Same x.1 (f x a).1) (x : State × β) :
    Same x.1 (l.foldl f x).1 := by
  induction l generalizing x with
  | nil => exact ⟨rfl, rfl⟩
  | cons a r ih => exact (h x a).trans (ih (f x a))

theorem same_frtTake {s t : State} {p q : Packet} (h : s.frtTake p = some (t, q)) : Same s t := by
  unfold State.frtTake at h
  dsimp only at h
  repeat' split at h
  all_goals cases h
  all_goals exact ⟨rfl, rfl⟩

@[simp] theorem same_leesMake (s : State) (l : LateWrite) : Same s (s.leesMake l) := by
  unfold State.leesMake
  extract_lets ws sum0 es gen src rec0 s1 s2 s3 s4 s5
  have h1 : Same s s1 := same_leesStore ..
  have h2 : Same s s2 := (h1.trans (same_sendAer ..)).each fun t w => same_exception ..
  have h3 : Same s s3 := h2.each fun t e => same_addLoss ..
  have h4 : Same s s4 := h3.each fun t w => by
    split
    · exact same_streamLoss ..
    all_goals exact ⟨rfl, rfl⟩
  have h5 : Same s s5 := by
    unfold s5
    split
    · exact h4
    · exact h4
  exact h5.onlyIf fun t => same_clearLost ..

@[simp] theorem same_mcastJudged (s : State) (p : Packet) (g : Nat) : Same s (s.mcastJudged p g).1 := by
  unfold State.mcastJudged
  split
  · exact ⟨rfl, rfl⟩
  · exact same_foldlFst (β := Packet) _ (fun x d => same_mcastJudge x.1 p d) (s, p)

@[simp] theorem same_withAccess (s : State) (who : Requester) (off len : Nat) (wr : Bool) (f : State → State) (h : ∀ t, Same t (f t)) :
    Same s (s.withAccess who off len wr f) := by
  unfold State.withAccess
  dsimp only
  generalize (if wr = true then 1 else 0) = m
  split
  · exact ⟨rfl, rfl⟩
  have h1 := same_guardSlots s who off len wr
  split
  · exact h1
  have h2 (n : Nat) := h1.trans (same_guardPage (s.guardSlots who off len wr).1 who off wr n)
  split
  · exact h2 _
  split
  · exact h2 _
  · exact (h2 _).trans ((same_touchAt ..).trans (h _))

@[simp] theorem same_chanAccess (s : State) (who : Requester) (ch : Nat) (r : FRef) (len : Nat) (f : State → State) (h : ∀ t, Same t (f t)) :
    Same s (s.chanAccess who ch r len f) := by
  unfold State.chanAccess
  extract_lets mine
  split
  · exact ⟨rfl, rfl⟩
  · exact same_withAccess _ _ _ _ _ _ fun t => Same.onlyIf ⟨rfl, rfl⟩ h

@[simp] theorem same_imgCmd (s : State) (who : Requester) (f : State → State) (h : ∀ t, Same t (f t)) : Same s (s.imgCmd who f) := by
  unfold State.imgCmd
  refine same_withAccess _ _ _ _ _ _ fun t => ?_
  split
  · exact same_schFire ..
  · exact h t

@[simp] theorem same_mirCmd (s : State) (who : Requester) (f : State → State) (h : ∀ t, Same t (f t)) : Same s (s.mirCmd who f) :=
  same_withAccess _ _ _ _ _ _ h

theorem Same.fst {β : Type} {s t : State} {r : State × β} {b : β} (h : Same s r.1) (heq : r = (t, b)) : Same s t := by
  subst heq
  exact h

@[simp] theorem same_bootConfig (s : State) (i : BootInfo) : Same s (s.bootConfig i) := by
  unfold State.bootConfig
  extract_lets h s1 s2 s3 s4 s5 s6 s7
  have h1 : Same s s1 := (same_bookAdd s _ _).trans (same_modTrust _ _)
  clear_value s1
  have h2 : Same s s2 := h1.each fun t e => same_loadReg ..
  clear_value s2
  have h3 : Same s s3 := h2
  clear_value s3
  have h4 : Same s s4 := (h3.trans (same_ageRestore s3)).onlyIf fun t => same_lifeRestore t
  clear_value s4
  have h5 : Same s s5 := h4.each fun t p => same_setF ..
  clear_value s5
  have h6 : Same s s6 := (h5.each fun t c => same_laneStatus t c).each fun t q => same_newlyActive t q
  clear_value s6
  have h7 : Same s s7 := (h6.each fun t p => same_resetPolicers t p).each fun t p => same_noLanes t p
  clear_value s7
  exact h7.onlyIf fun t => same_setRole t 1

@[simp] theorem same_checkRouted (s : State) (q : Packet) (n : Nat) : Same s (s.checkRouted q n).1 := by
  unfold State.checkRouted
  have h := same_accessCheck s q
  split
  · next heq => exact h.fst heq
  · next heq =>
    dsimp only
    split
    · exact (h.fst heq).trans (same_mcastJudged ..)
    all_goals exact h.fst heq

theorem same_mcastSend {s t : State} (h : Same s t) (p q : Packet) (g d : Nat) (look : Bool) (l : List Tlp) :
    Same s (l.foldl (fun (a : State × Bool) x => (({ a.1 with nextId := a.1.nextId + 1 } : State).commit
      { p with id := a.1.nextId, tlp := a.1.mcOverlay p d x, ncell := cellsOf (tlpBytes x), route := .mcast g } d true false a.2, false))
      ((t.moreCopies p.group (l.length - 1)).pfWrite d q.tlp, look)).1 := by
  have h2 : Same s ((t.moreCopies p.group (l.length - 1)).pfWrite d q.tlp) := (h.trans (same_moreCopies ..)).trans (same_pfWrite ..)
  refine h2.trans (same_foldlFst l (fun x t => ?_) (_, look))
  exact same_commit ({ x.1 with nextId := x.1.nextId + 1 } : State) _ _ _ _ _

theorem same_mirrorWaits {s t : State} {p : Packet} (h : s.mirrorWaits p = some t) : Same s t := by
  have hw : Same s (s.waitOnce p 3 fun t => t.fire pgMIR 7 p.part (faultPort p)) := same_waitOnce _ _ _ _ fun t => same_fire ..
  unfold State.mirrorWaits at h
  repeat' split at h
  · cases h
  · cases h
    exact ⟨rfl, rfl⟩
  · cases h
  · cases h
    exact hw
  · cases h
    exact hw
  · cases h

@[simp] theorem same_nonflitStart (s : State) (p : Nat) (ecc : Ecc) : Same s (s.nonflitStart p ecc) := by
  unfold State.nonflitStart
  have h := (same_sweepBad s p).trans (same_beSelect (s.sweepBad p) p 4096 s.fabric)
  split
  · next heq => exact h.fst heq
  · next heq =>
    refine (h.fst heq).trans ?_
    dsimp only
    repeat' split
    all_goals simp -implicitDefEqProofs [Same]

@[simp] theorem same_openPeriod (s : State) (p room : Nat) (a b c : Bool) (ecc : Ecc) : Same s (s.openPeriod p room a b c ecc) := by
  unfold State.openPeriod
  split
  · simp -implicitDefEqProofs [Same]
  extract_lets t stalled s0
  have h0 : Same s s0 := Same.onlyIf ⟨rfl, rfl⟩ fun x => same_addL ..
  have h1 := h0.trans (same_beSelect s0 p room t)
  split
  · next s1 k heq =>
    have h2 := (h1.fst heq).trans (same_startPacket s1 p k ecc)
    split
    · next heq => exact (h2.fst heq).trans (same_account ..)
    · next heq => exact (h2.fst heq).trans (same_account ..)
  · next heq => exact (h1.fst heq).trans (same_account ..)

@[simp] theorem same_mcastCopy (s : State) (p : Packet) (g d : Nat) (look : Bool) : Same s (s.mcastCopy p g d look) := by
  unfold State.mcastCopy
  split
  · exact (same_missOther ..).onlyIf fun t => same_writeDone ..
  split
  · exact same_commit ({ s with nextId := s.nextId + 1 } : State) _ _ _ _ _
  split
  next s1 lost heq =>
  have h1 : Same s s1 := by
    split at heq
    · cases heq
      exact ⟨rfl, rfl⟩
    · exact (same_mcastJudge s p d).fst heq
  extract_lets q parts s2
  split
  · exact h1.trans (same_writeDone ..)
  · exact same_mcastSend h1 p q g d look _

theorem carries_same : Traffic.Carries (fun _ => True) Same where
  refl _ := ⟨rfl, rfl⟩
  trans := .trans
  data _ _ h := ⟨h.same State.hbm, h.same State.flash⟩
  unreserve _ _ := ⟨rfl, rfl⟩
  add _ _ := ⟨rfl, rfl⟩
  lostCpl _ _ _ _ := ⟨rfl, rfl⟩
  interrupt _ _ _ := ⟨rfl, rfl⟩
  setF _ _ _ _ _ _ := ⟨rfl, rfl⟩
  aer _ _ _ _ := ⟨rfl, rfl⟩
  xfer _ _ _ _ _ := ⟨rfl, rfl⟩
  lists _ _ _ := ⟨rfl, rfl⟩
  drop _ _ _ := ⟨rfl, rfl⟩
  mod _ _ _ _ := ⟨rfl, rfl⟩

@[simp] theorem same_afterRoute (s : State) (p : Packet) (l : Option Nat) : Same s (s.afterRoute p l).1 := carries_same.afterRoute s p l

@[simp] theorem same_ingestMem (s : State) (p : Packet) : Same s (s.ingestMem p) := carries_same.ingestMem s p trivial

theorem same_ownedStart {s t : State} (h : Same s t) (p q u x : Nat) (blocked stall : Bool) (ecc : Ecc) : Same s (match t.r144 p q u x with
    | (s3, some h) =>
      (match s3.startPacket p h ecc with
       | (s4, true) => s4.account p .deliv true true
       | (s4, false) => s4.account p (s4.idleClass p false x) true false)
    | (s3, none) => s3.openPeriod p 1 true blocked stall ecc) := by
  have h1 := h.trans (same_r144 t p q u x)
  split
  · next s3 k heq =>
    have h2 := (h1.fst heq).trans (same_startPacket s3 p k ecc)
    split
    · next heq => exact (h2.fst heq).trans (same_account ..)
    · next heq => exact (h2.fst heq).trans (same_account ..)
  · next heq => exact (h1.fst heq).trans (same_openPeriod ..)

@[simp] theorem same_routeMem (s : State) (p : Packet) : Same s (s.routeMem p).1 := carries_same.routeMem s p trivial

@[simp] theorem same_translateMem (s : State) (p : Packet) : Same s (s.translateMem p) := carries_same.translateMem s p trivial

@[simp] theorem same_translated (s : State) (p : Packet) (e : TtuEntry) : Same s (s.translated p e) := carries_same.translated s p trivial e

@[simp] theorem same_burstReq (s : State) a b c d e f g h i j : Same s (s.burstReq a b c d e f g h i j) := by
  unfold State.burstReq
  simp -implicitDefEqProofs [Same]

@[simp] theorem same_listFetch (s : State) a b c : Same s (s.listFetch a b c) := by
  unfold State.listFetch
  dsimp only
  repeat' split
  all_goals simp -implicitDefEqProofs [Same]

@[simp] theorem same_routeTlp (s : State) a : Same s (s.routeTlp a) := by
  unfold State.routeTlp
  dsimp only
  repeat' split
  all_goals simp -implicitDefEqProofs [Same]

@[simp] theorem same_burstStart (s : State) (ch e b : Nat) (ecc : Ecc) (words : Nat) : Same s (s.burstStart ch e b ecc words) := by
  unfold State.burstStart
  cases hx : s.running ch with
  | none => exact ⟨rfl, rfl⟩
  | some x =>
  dsimp only
  cases hp : s.burstPiece ch x e with
  | none => exact ⟨rfl, rfl⟩
  | some y =>
  obtain ⟨addr, lo, n⟩ := y
  dsimp only
  generalize hs1 : (s.modEng (2 * (ch / 256) + e) fun y =>
    { y with run := some (ch, s.ticks + 2 * ceilDiv b 256), gen := ((s.chanBound ch).map (·.gen)).getD 0 }) = s1
  have h1 : Same s s1 := hs1 ▸ ⟨rfl, rfl⟩
  split
  · exact (h1.trans (same_modXfer _ _ _ _)).each fun t z => same_burstReq ..
  · generalize hr : (if selfOverlap x = true then (freeBytesN s1.free b, ({ s1 with free := s1.free + 1 } : State))
      else ((stagedFrom x.staged x.wr).take b, s1)) = r
    have hr2 : Same s1 r.2 := by
      rw [← hr]
      split <;> exact ⟨rfl, rfl⟩
    have h3 := h1.trans hr2
    refine ((((h3.trans (same_modXfer _ _ _ _)).onlyIf fun t => same_fire ..).onlyIf fun t => same_fire ..).each fun t z => ?_)
    split
    · exact same_burstReq ..
    · exact ⟨rfl, rfl⟩

theorem same_eachWaiting (s : State) (f : Packet → Bool) {g : State → Packet → State} (h : ∀ t p, Same t (g t p)) : Same s (s.eachWaiting f g) := by
  unfold State.eachWaiting
  refine same_each _ (fun t p => ?_) s
  split
  · split
    · exact h t _
    · exact ⟨rfl, rfl⟩
  · exact ⟨rfl, rfl⟩

@[simp] theorem same_fabricArrive (s : State) (i : Nat) (h : FabHdr) (t : Tlp) (l : List Nat) : Same s (s.fabricArrive i h t l) := by
  unfold State.fabricArrive
  extract_lets c src p0 s0 s1
  have h1 : Same s s1 := Same.onlyIf (same_addPacket s p0) fun u => same_addF ..
  clear_value s1 p0
  split
  · exact h1
  split
  · split
    · split
      next s2 k heq => exact ((h1.trans (same_mcastJudged _ _ _)).fst heq).trans (same_modPacket _ _ _)
    · exact h1.trans ((same_missTlp _ _ _).trans (same_dropPacket _ _))
  split
  · exact h1.trans ((same_missTlp _ _ _).trans (same_dropPacket _ _))
  · exact h1.trans ((same_refuse _ _ _ _).trans (same_dropPacket _ _))
  · exact h1.trans (same_settlePacket _ (same_afterRoute _ _ _))

@[simp] theorem same_fetchNext (s : State) (ch : Nat) : Same s (s.fetchNext ch) := by
  unfold State.fetchNext
  split
  · exact ⟨rfl, rfl⟩
  refine same_foldl _ (fun t side => ?_) s
  split
  · exact ⟨rfl, rfl⟩
  split
  · exact same_listFetch ..
  · exact ⟨rfl, rfl⟩

@[simp] theorem same_flitPeriod (s : State) (p : Nat) (ecc : Ecc) : Same s (s.flitPeriod p ecc) := by
  unfold State.flitPeriod
  extract_lets s0 t u owner x
  have h0 : Same s s0 := ((same_sweepBad s p).trans (same_modPort _ _ _)).trans (same_absorbSlip _ _)
  clear_value owner x u t s0
  split
  · next id i _ =>
    split
    next s1 c q heq =>
    have h1 : Same s s1 := (h0.trans (same_continuePacket s0 p id i ecc)).fst heq
    extract_lets s2
    have h2 : Same s s2 := h1.onlyIf fun y => by
      split
      · exact same_steal ..
      · exact ⟨rfl, rfl⟩
    exact h2.trans (same_account ..)
  · split
    · split
      · exact h0.trans ((same_owedNull ..).trans (same_account ..))
      · exact h0.trans ((same_addL ..).trans (same_account ..))
    split
    · exact h0.trans ((same_sendRepair ..).trans (same_account ..))
    cases owner with
    | none => exact h0.trans (same_openPeriod ..)
    | some q =>
      dsimp only
      split
      · exact h0.trans (same_stealNow ..)
      · exact same_ownedStart ((h0.onlyIf fun y => same_slipLimit ..).onlyIf fun y => same_addL ..) p q u t _ _ ecc

@[simp] theorem same_replayCopy (s : State) (k : StreamKey) (r : MirRec) : Same s (s.replayCopy k r) := by
  unfold State.replayCopy
  extract_lets c t src p s1
  have h1 : Same s s1 := ⟨rfl, rfl⟩
  clear_value s1 p
  split
  · exact h1.trans (same_missReq ..)
  · exact h1
  · exact h1.trans (same_settlePacket _ (same_afterRoute ..))

@[simp] theorem same_reprobe (s : State) (c : Nat) : Same s (s.reprobe c) := same_eachWaiting s _ fun t p => same_translateMem t p

@[simp] theorem same_beBurst (s : State) a b c d : Same s (s.beBurst a b c d) := by
  unfold State.beBurst
  repeat' split
  all_goals simp -implicitDefEqProofs [Same]

@[simp] theorem same_fabricPacket (s : State) a b c d : Same s (s.fabricPacket a b c d) := by
  unfold State.fabricPacket
  dsimp only
  repeat' split
  all_goals simp -implicitDefEqProofs [Same]

@[simp] theorem same_placedStart (s : State) a b c d : Same s (s.placedStart a b c d) := by
  unfold State.placedStart
  dsimp only
  repeat' split
  all_goals simp -implicitDefEqProofs [Same]

@[simp] theorem same_xferBegin (s : State) a b : Same s (s.xferBegin a b) := by
  unfold State.xferBegin
  dsimp only
  repeat' split
  all_goals simp -implicitDefEqProofs [Same]

@[simp] theorem same_lateStart (s : State) (c k : Nat) (l : List DmaSlot) : Same s (s.lateStart c k l) := by
  induction l generalizing s with
  | nil => exact ⟨rfl, rfl⟩
  | cons d r ih =>
    unfold State.lateStart
    have h1 : Same s (((s.modEng k fun y => { y with late := r }).freeEcc.2.2).placedStart c d (s.modEng k fun y => { y with late := r }).freeEcc.1
        (s.modEng k fun y => { y with late := r }).freeEcc.2.1) := by simp -implicitDefEqProofs [Same]
    dsimp only
    split
    · exact h1.trans (same_addF ..)
    · exact h1.trans (ih _)

@[simp] theorem same_pendBegin (s : State) a : Same s (s.pendBegin a) := by
  unfold State.pendBegin
  simp -implicitDefEqProofs [Same]

@[simp] theorem same_drainCheck (s : State) a : Same s (s.drainCheck a) := by
  unfold State.drainCheck
  dsimp only
  repeat' split
  all_goals simp -implicitDefEqProofs [Same]

@[simp] theorem same_xferComplete (s : State) a b : Same s (s.xferComplete a b) := by
  unfold State.xferComplete
  dsimp only
  repeat' split
  all_goals simp -implicitDefEqProofs [Same]

@[simp] theorem same_burstOver (s : State) a b c : Same s (s.burstOver a b c) := by
  unfold State.burstOver
  simp -implicitDefEqProofs [Same]

@[simp] theorem same_dmaStop (s : State) a b : Same s (s.dmaStop a b) := by
  unfold State.dmaStop
  repeat' split
  all_goals simp -implicitDefEqProofs [Same]

@[simp] theorem same_dmaGo (s : State) a : Same s (s.dmaGo a) := by
  unfold State.dmaGo
  dsimp only
  repeat' split
  all_goals simp -implicitDefEqProofs [Same]

@[simp] theorem same_dmaPassed (s : State) a : Same s (s.dmaPassed a) := by
  unfold State.dmaPassed
  dsimp only
  repeat' split
  all_goals simp -implicitDefEqProofs [Same]

@[simp] theorem same_fabricPass (s : State) a b : Same s (s.fabricPass a b) := by
  unfold State.fabricPass
  dsimp only
  repeat' split
  all_goals simp -implicitDefEqProofs [Same]

@[simp] theorem same_portPass (s : State) a b : Same s (s.portPass a b) := by
  unfold State.portPass
  dsimp only
  repeat' split
  all_goals simp -implicitDefEqProofs [Same]

@[simp] theorem same_sharedPass (s : State) a : Same s (s.sharedPass a) := by
  unfold State.sharedPass
  dsimp only
  repeat' split
  all_goals simp -implicitDefEqProofs [Same]

@[simp] theorem same_writeChan (s : State) a b c : Same s (s.writeChan a b c) := by
  unfold State.writeChan
  dsimp only
  repeat' split
  all_goals simp -implicitDefEqProofs [Same]

@[simp] theorem same_fabricCpl (s : State) a : Same s (s.fabricCpl a) := by
  unfold State.fabricCpl
  dsimp only
  repeat' split
  all_goals simp -implicitDefEqProofs [Same]

@[simp] theorem same_mcastPass (s : State) (p : Packet) (g : Nat) : Same s (s.mcastPass p g) := by
  unfold State.mcastPass
  extract_lets ports devs closed live far dead fits ok
  split
  · exact ⟨rfl, rfl⟩
  split
  · exact same_waitOnce _ _ _ _ fun t => same_fire ..
  split
  next s1 p1 heq =>
  have h1 : Same s s1 := (same_pass s p _).fst heq
  extract_lets s2 s3 s4
  have h2 : Same s s2 := h1.onlyIf fun t => Same.each ((same_fwdCapture ..).trans (same_fire ..)) fun u x => same_writeLost ..
  clear_value s2
  have h3 : Same s s3 := h2.trans (same_foldlFst live (fun x d => same_mcastCopy x.1 p1 g d x.2) (s2, true))
  clear_value s3
  have h4 : Same s s4 := h3.each fun t x => by
    dsimp only
    refine Same.trans ?_ (same_commit ..)
    exact same_numberPacket ({ t with nextId := t.nextId + 1 } : State) _ _ _ _
  exact h4.trans (same_dmaPassed ..)

@[simp] theorem same_walkFault (s : State) (w : Walk) (b : Nat) : Same s (s.walkFault w b) := by
  unfold State.walkFault
  refine Same.trans (same_eachWaiting { s with walks := s.walks.filter (·.id != w.id) } _ fun t p => ?_) (same_reprobe ..)
  exact same_heldOr p ((same_ttuRefuse t p b).trans (same_dropPacket _ _))

@[simp] theorem same_walkLeaf (s : State) (w : Walk) (e : TtuEntry) : Same s (s.walkLeaf w e) := by
  unfold State.walkLeaf
  refine Same.trans (same_eachWaiting (({ s with walks := s.walks.filter (·.id != w.id) } : State).ttuCache w.cellar e) _ fun t p => ?_) (same_reprobe ..)
  exact same_heldOr p (same_translated t p e)

@[simp] theorem same_recordMark (s : State) a b : Same s (s.recordMark a b) := ⟨rfl, rfl⟩

@[simp] theorem same_instResetEnd (s : State) a : Same s (s.instResetEnd a) := by
  unfold State.instResetEnd
  simp -implicitDefEqProofs [Same]

@[simp] theorem same_receive (s : State) a b c : Same s (s.receive a b c).1 := by
  unfold State.receive
  simp -implicitDefEqProofs [Same]

@[simp] theorem same_instEffect (s : State) a b : Same s (s.instEffect a b) := by
  unfold State.instEffect
  repeat' split
  all_goals simp -implicitDefEqProofs [Same]

@[simp] theorem same_walkRead (s : State) a b : Same s (s.walkRead a b) := by
  unfold State.walkRead
  dsimp only
  repeat' split
  all_goals simp -implicitDefEqProofs [Same]

@[simp] theorem same_rackStream (s : State) (x : MirStream) : Same s (s.rackStream x) := by
  unfold State.rackStream
  extract_lets recs s1 marks s2 s3 s4
  have h1 : Same s s1 := same_each _ (fun t r => by
    split
    · exact (same_replayCopy ..).trans (same_addF ..)
    · exact same_recordMark ..) s
  have h3 : Same s s3 := ((h1.onlyIf fun t => same_addF ..).trans (same_modStream s2 _ _)).trans (same_addF ..)
  have h4 : Same s s4 := by
    unfold s4
    split
    · exact h3.trans (same_addLoss ..)
    · exact h3
  exact h4

@[simp] theorem same_rack (s : State) a b : Same s (s.rack a b) := by
  unfold State.rack
  simp -implicitDefEqProofs [Same]

@[simp] theorem same_instReset (s : State) a b c : Same s (s.instReset a b c) := by
  unfold State.instReset
  dsimp only
  repeat' split
  all_goals simp -implicitDefEqProofs [Same]

@[simp] theorem same_vfChange (s : State) (k : Nat) (x : Bool) (n : Nat) : Same s (s.vfChange k x n) := by
  unfold State.vfChange
  extract_lets m live base s1
  have h1 : Same s s1 := ⟨rfl, rfl⟩
  refine h1.each fun t i => ?_
  split
  · exact ⟨rfl, rfl⟩
  split
  · exact ⟨rfl, rfl⟩
  · exact same_instReset ..

@[simp] theorem same_take (s : State) : Same s s.take := by
  unfold State.take
  repeat' split
  all_goals simp -implicitDefEqProofs [Same]

@[simp] theorem same_takeover (s : State) a b : Same s (s.takeover a b) := by
  unfold State.takeover
  repeat' split
  all_goals simp -implicitDefEqProofs [Same]

@[simp] theorem same_onSilence (s : State) : Same s s.onSilence := by
  unfold State.onSilence
  simp -implicitDefEqProofs [Same]

@[simp] theorem same_writeMirCmd (s : State) a : Same s (s.writeMirCmd a) := by
  unfold State.writeMirCmd
  repeat' split
  all_goals simp -implicitDefEqProofs [Same]

@[simp] theorem same_partHotReset (s : State) (k : Nat) : Same s (s.partHotReset k) := by
  unfold State.partHotReset
  split
  · exact ⟨rfl, rfl⟩
  extract_lets ports gone s1 s2 s3 s4 s5 s6 s7 s8 s9
  have h1 : Same s s1 := same_failSummary { s with packets := s.packets.filter fun x => !gone.contains x } gone 0xA 0
  have h4 : Same s s4 := (h1.each (t := s2) fun t i => same_instReset ..).each fun t ch => same_stopChannel ..
  have h5 : Same s s5 := (h4.trans (same_orphanIf ..)).trans (same_pfDiscard ..)
  have h6 : Same s s6 := h5.each fun t p => by
    split
    · exact same_linkDown ..
    · exact same_linkDown ..
  have h7 : Same s s7 := h6.each fun t p => same_bridgeReset ..
  have h8 : Same s s8 := by
    unfold s8
    split
    · exact h7
    · exact h7
  have h9 : Same s s9 := (h8.trans (same_dropFences ..)).trans (same_clearLost _ _)
  exact h9

@[simp] theorem same_cleanupDone (s : State) a b : Same s (s.cleanupDone a b) := by
  unfold State.cleanupDone
  repeat' split
  all_goals simp -implicitDefEqProofs [Same]

end Sys2Proof.Memories
end

section
/-! ## Functions that write HBM or the boot flash keep them canonical (O6) -/

namespace Sys2Proof.Memories

open Sys2Proof Sys2Proof.Machine Sys2Proof.Laws

/-! ### Stores in canonical form -/

section
variable {α : Type} [DecidableEq α] {d : Nat → α}

/-- A store is canonical when its keys rise and none of its entries is a default. -/
theorem storeWf_iff {m : Store α} : storeWf d m = true ↔ m.Pairwise (fun a b => a.1 < b.1) ∧ ∀ e ∈ m, e.2 ≠ d e.1 := by
  induction m with
  | nil => simp [storeWf]
  | cons e r ih =>
    obtain ⟨j, v⟩ := e
    rw [storeWf_cons, List.pairwise_cons, ih]
    constructor
    · rintro ⟨hv, hlt, hr, hd⟩
      exact ⟨⟨hlt, hr⟩, fun e he => by
        rcases List.mem_cons.mp he with rfl | he
        · exact hv
        · exact hd e he⟩
    · rintro ⟨⟨hlt, hr⟩, hd⟩
      exact ⟨hd _ List.mem_cons_self, hlt, hr, fun e he => hd e (List.mem_cons_of_mem _ he)⟩

theorem storeWf_filter {m : Store α} (f : Nat × α → Bool) (h : storeWf d m = true) : storeWf d (m.filter f) = true := by
  obtain ⟨hp, hd⟩ := storeWf_iff.mp h
  exact storeWf_iff.mpr ⟨hp.filter f, fun e he => hd e (List.mem_filter.mp he).1⟩

end

theorem mem_hbmRun {a : Nat} {bs : List Byte} {e : Nat × Byte} (h : e ∈ State.hbmRun a bs) : a ≤ e.1 ∧ e.1 < a + bs.length ∧ e.2 ≠ 0 := by
  induction bs generalizing a with
  | nil => cases h
  | cons b r ih =>
    have hrest (h : e ∈ State.hbmRun (a + 1) r) : a ≤ e.1 ∧ e.1 < a + (b :: r).length ∧ e.2 ≠ 0 := by
      obtain ⟨h1, h2, h3⟩ := ih h
      rw [List.length_cons]
      exact ⟨by omega, by omega, h3⟩
    unfold State.hbmRun at h
    split at h
    · exact hrest h
    · next hb =>
      rcases List.mem_cons.mp h with rfl | h
      · exact ⟨le_refl a, by rw [List.length_cons]; omega, hb⟩
      · exact hrest h

theorem pairwise_hbmRun (a : Nat) (bs : List Byte) : (State.hbmRun a bs).Pairwise fun x y => x.1 < y.1 := by
  induction bs generalizing a with
  | nil => exact .nil
  | cons b r ih =>
    unfold State.hbmRun
    split
    · exact ih _
    · exact List.pairwise_cons.mpr ⟨fun e he => (mem_hbmRun he).1, ih _⟩

/-! ### What keeps HBM and the boot flash canonical -/

/-- HBM and the boot flash stay canonical. -/
structure Canon (s t : State) : Prop where
  hbm : Memory.wf 0 s.hbm = true → Memory.wf 0 t.hbm = true
  flash : Memory.wf 0xFF s.flash = true → Memory.wf 0xFF t.flash = true

theorem Same.canon {s t : State} (h : Same s t) : Canon s t := ⟨fun hw => h.1 ▸ hw, fun hw => h.2 ▸ hw⟩

theorem Canon.refl (s : State) : Canon s s := ⟨id, id⟩

theorem Canon.trans {a b c : State} (h : Canon a b) (g : Canon b c) : Canon a c := ⟨fun hw => g.hbm (h.hbm hw), fun hw => g.flash (h.flash hw)⟩

/-- What leaves both memories leaves them canonical. -/
theorem Canon.same {s t u : State} (h : Canon s t) (g : Same t u) : Canon s u := h.trans g.canon

theorem Canon.onlyIf {s t : State} {b : Bool} {f : State → State} (h : Canon s t) (hf : ∀ t, Canon t (f t)) : Canon s (t.onlyIf b f) := by
  cases b
  · exact h
  · exact h.trans (hf t)

theorem canon_each {α : Type} (l : List α) {f : State → α → State} (h : ∀ t x, Canon t (f t x)) (s : State) : Canon s (s.each l f) := by
  induction l generalizing s with
  | nil => exact .refl s
  | cons x r ih => exact (h s x).trans (ih (f s x))

theorem Canon.each {α : Type} {s t : State} {l : List α} {f : State → α → State} (h : Canon s t) (hf : ∀ t x, Canon t (f t x)) : Canon s (t.each l f) :=
  h.trans (canon_each l hf t)

theorem Canon.fst {β : Type} {s t : State} {r : State × β} {b : β} (h : Canon s r.1) (heq : r = (t, b)) : Canon s t := by
  subst heq
  exact h

/-! ### The writers of HBM -/

theorem canon_setHbm (s : State) (a : Nat) (b : Byte) : Canon s (s.setHbm a b) := ⟨hbm_wf_setHbm s a b, id⟩

theorem canon_hbmWrite (s : State) (a : Nat) (l : List (Option Byte)) : Canon s (s.hbmWrite a l) := by
  induction l generalizing s a with
  | nil => exact .refl s
  | cons x r ih =>
    cases x with
    | none => exact ih s (a + 1)
    | some b => exact (canon_setHbm s a b).trans (ih _ _)

theorem canon_hbmPut (s : State) (a : Nat) (bs : List Byte) : Canon s (s.hbmPut a bs) := by
  refine ⟨fun h => ?_, id⟩
  obtain ⟨hp, hd⟩ := storeWf_iff.mp h
  refine storeWf_iff.mpr ⟨?_, fun e he => ?_⟩
  · refine List.pairwise_append.mpr ⟨List.pairwise_append.mpr ⟨hp.filter _, pairwise_hbmRun a bs, fun x hx y hy => ?_⟩, hp.filter _, fun x hx y hy => ?_⟩
    · have hlt := of_decide_eq_true (List.mem_filter.mp hx).2
      exact lt_of_lt_of_le hlt (mem_hbmRun hy).1
    · have hge := of_decide_eq_true (List.mem_filter.mp hy).2
      rcases List.mem_append.mp hx with hx | hx
      · have hlt := of_decide_eq_true (List.mem_filter.mp hx).2
        omega
      · obtain ⟨-, hlt, -⟩ := mem_hbmRun hx
        omega
  · rcases List.mem_append.mp he with he | he
    · rcases List.mem_append.mp he with he | he
      · exact hd e (List.mem_filter.mp he).1
      · exact (mem_hbmRun he).2.2
    · exact hd e (List.mem_filter.mp he).1

theorem canon_hbmCommit (s : State) (r a : Nat) (l : List (Option Byte)) : Canon s (s.hbmCommit r a l) := by
  unfold State.hbmCommit
  extract_lets s1 grans
  have h1 : Canon s s1 := canon_hbmWrite s a l
  split
  · exact h1
  · refine h1.each fun t g => Same.canon ?_
    exact Same.trans (Same.onlyIf ⟨rfl, rfl⟩ fun u => same_mirSend ..) (same_setF ..)

theorem canon_swWrite (s : State) (i : Initiator) (a : Nat) (l : List (Option Byte)) : Canon s (s.swWrite i a l) :=
  ((same_noteDirty s a l.length).canon.trans (canon_hbmCommit _ 0 a l)).each fun _ _ => (same_clearGranule ..).canon

theorem canon_swAtomic (s : State) (p : Packet) : Canon s (s.swAtomic p) := by
  unfold State.swAtomic
  extract_lets a n old s1
  split
  · exact (same_aerPort ..).canon
  · exact (canon_swWrite ..).same (same_reply ..)

theorem canon_swCondStore (s : State) (p : Packet) : Canon s (s.swCondStore p) := by
  unfold State.swCondStore
  extract_lets a span held s1
  have h1 : Canon s s1 := (same_clearResv ..).canon
  split
  · exact h1.same (((same_addF ..).trans (same_swFault ..)).trans (same_reply ..))
  split
  · exact ((h1.same (same_addF ..)).trans (canon_swWrite ..)).same (same_reply ..)
  · exact h1.same ((same_addF ..).trans (same_reply ..))

theorem canon_swSerialize (s : State) (p : Packet) (ecc : Ecc) : Canon s (s.swSerialize p ecc) := by
  unfold State.swSerialize
  extract_lets s0 s1 s2
  have h1 : Canon s s1 := Canon.onlyIf (same_dropPacket s p.id).canon fun t => (same_fire ..).canon
  have h2 : Canon s s2 := h1.same (same_swFault ..)
  split
  · exact h1.same ((same_clearResv ..).trans (same_reply ..))
  split
  · split
    · exact h2.same (same_swRead ..)
    · exact h2.same ((same_clearResv ..).trans (same_reply ..))
  split
  · exact h1.same (same_swRead ..)
  split
  · exact h1.trans (canon_swAtomic ..)
  split
  · exact h1.trans (canon_swCondStore ..)
  · exact (h1.trans (canon_swWrite ..)).same (same_reply ..)

theorem canon_ringWrite (s : State) (c : Nat) (r : TraceRec) : Canon s (s.ringWrite c r) := by
  unfold State.ringWrite
  extract_lets pg n wr full s1 s2
  have h1 : Canon s s1 := (canon_hbmWrite ..).same (same_setF ..)
  have h2 : Canon s s2 := h1.onlyIf fun t => ((same_setF ..).trans (same_addF ..)).canon
  split
  · exact ((same_addF ..).trans (same_fire ..)).canon
  · exact h2.onlyIf fun t => (same_raiseInt ..).canon

theorem canon_loadDone (s : State) (l : LoadOp) : Canon s (s.loadDone l) := by
  unfold State.loadDone
  extract_lets b code s0 src s1 v s2 s3
  have h1 : Canon s s1 := (canon_hbmPut s (State.slotBase l.slot) (b.take 0x2000000)).same ⟨rfl, rfl⟩
  have h3 : Canon s s3 := h1.same ((same_setImg s1 _ _).trans ((same_setSlot ..).trans (same_bookAdd ..)))
  split
  · exact h1.same ((same_emptySlot ..).trans (same_imgRes ..))
  · exact h3.same (same_imgRes ..)

/-! ### The journal of a mirrored pair -/

theorem canon_applyCommit (s : State) (r : MirRec) : Canon s (s.applyCommit r) := by
  unfold State.applyCommit
  extract_lets bytes s1
  have h1 : Canon s s1 := (same_setF ..).canon
  split
  · exact h1.trans (canon_hbmWrite ..)
  split
  · exact h1
  split
  · exact h1.trans (canon_hbmWrite ..)
  · exact h1

theorem canon_applyCommits (s : State) (n : Nat) : Canon s (s.applyCommits n) := by
  induction n generalizing s with
  | zero => exact .refl s
  | succ n ih =>
    unfold State.applyCommits
    split
    · exact .refl s
    split
    · exact .refl s
    · extract_lets s1 src
      refine Canon.trans ?_ (ih _)
      exact (canon_applyCommit ..).same ⟨rfl, rfl⟩

theorem canon_commitArrives (s : State) (r : MirRec) : Canon s (s.commitArrives r) := by
  unfold State.commitArrives
  refine iteInduction (motive := Canon s) (fun _ => .refl s) fun _ => ?_
  exact Canon.trans (b := { s with mir := { s.mir with commits := s.mir.commits ++ [r] } }) ⟨id, id⟩ (canon_applyCommits ..)

theorem canon_blockArrives (s : State) (r : MirRec) : Canon s (s.blockArrives r) := by
  unfold State.blockArrives
  extract_lets s1 start src s2 s3
  have h1 : Canon s s1 := canon_hbmWrite ..
  have h3 : Canon s s3 := (h1.same (u := s2) ⟨rfl, rfl⟩).same (same_setF ..)
  exact h3.trans (canon_applyCommits ..)

/-! ### The writers of the boot flash -/

theorem canon_flashWrite (s : State) (a : Nat) (l : List Byte) : Canon s (s.flashWrite a l) := by
  induction l generalizing s a with
  | nil => exact .refl s
  | cons b r ih =>
    refine Canon.trans (b := { s with flash := storeSet (fun _ => (0xFF : Byte)) s.flash a b }) ⟨id, fun h => ?_⟩ (ih _ _)
    exact storeWf_set (fun _ => (0xFF : Byte)) a b h

theorem canon_flashErase (s : State) (a n : Nat) : Canon s (s.flashErase a n) := ⟨id, storeWf_filter _⟩

theorem canon_ageBlock (s : State) : Canon s s.ageBlock := by
  unfold State.ageBlock
  extract_lets n a body s1 age
  have h1 : Canon s s1 := (canon_flashErase ..).trans (canon_flashWrite ..)
  clear_value s1
  exact h1.same ⟨rfl, rfl⟩

theorem canon_ageLog (s : State) (a b c d e f : Nat) : Canon s (s.ageLog a b c d e f) := by
  unfold State.ageLog
  extract_lets i x s1 body s2 age
  have h1 : Canon s s1 := by
    unfold s1
    split
    · exact canon_flashErase ..
    · exact .refl s
  have h2 : Canon s s2 := h1.trans (canon_flashWrite ..)
  clear_value s2
  exact h2.same ⟨rfl, rfl⟩

theorem canon_ageRetired (s : State) (l : Nat) (b : Bool) (p : Nat) : Canon s (s.ageRetired l b p) := by
  unfold State.ageRetired
  extract_lets src s1
  have h1 : Canon s s1 := Canon.trans (b := { s with age := { s.age with retired := bitSet s.age.retired l } }) ⟨id, id⟩ (canon_ageBlock _)
  split
  · exact h1
  · exact h1.trans (canon_ageLog ..)

theorem canon_ageUnretire (s : State) (l : Nat) : Canon s (s.ageUnretire l) := by
  unfold State.ageUnretire
  split
  · exact .refl s
  · exact (((same_modAge ..).canon).trans (canon_ageBlock _)).trans (canon_ageLog ..)

theorem canon_setTarget (s : State) (n : Nat) : Canon s (s.setTarget n) := by
  unfold State.setTarget
  split
  · exact .refl s
  · exact (((same_setF ..).trans (same_setF ..)).trans (same_setF ..)).canon.trans (canon_ageBlock _)

theorem canon_avsRaise (s : State) : Canon s s.avsRaise := by
  unfold State.avsRaise
  extract_lets a b
  split
  · exact .refl s
  · exact ((canon_setTarget ..).same (same_addF ..)).trans (canon_ageLog ..)

theorem canon_avsWrite (s : State) (n : Nat) : Canon s (s.avsWrite n) := by
  unfold State.avsWrite State.sealedWrite
  split
  · exact Canon.onlyIf (.refl s) fun t => (same_pageAccess ..).canon
  dsimp only
  split
  · exact .refl s
  · exact canon_setTarget ..

theorem canon_bookStore (s : State) : Canon s s.bookStore := by
  unfold State.bookStore
  split
  · exact .refl s
  extract_lets a s1 s2
  have h1 : Canon s s1 := by
    unfold s1
    split
    · exact canon_flashErase ..
    · exact .refl s
  have h2 : Canon s s2 := (h1.trans (canon_flashWrite ..)).same (same_modTrust _ _)
  split
  · exact h2
  · exact h2.same ((same_modTrust _ _).trans (same_bookAdd ..))

theorem canon_tokenPresent (s : State) (l : List Byte) : Canon s (s.tokenPresent l).1 := by
  unfold State.tokenPresent
  split
  · exact ((canon_flashErase ..).trans (canon_flashWrite ..)).same ((same_bookDebug ..).trans (same_newNonce ..))
  · exact (same_fire ..).canon

/-! ### Lanes -/

theorem canon_retireLane (s : State) (l : Nat) (b : Bool) : Canon s (s.retireLane l b) := by
  unfold State.retireLane
  split
  · exact .refl s
  extract_lets used s1
  have h1 : Canon s s1 := by
    unfold s1
    split
    · exact (same_setF ..).canon
    · exact ((same_setF ..).trans (same_setFlag ..)).canon
  clear_value s1
  split
  · exact h1.trans (canon_ageRetired ..)
  extract_lets s2 hold s3
  have h2 : Canon s s2 := ((h1.same (same_setScore ..)).trans (canon_ageRetired ..)).same (same_fireLane ..)
  have h3 : Canon s s3 := h2.same (same_modPort ..)
  split
  · exact h3.same (same_noLanes ..)
  split
  · exact h3.same (same_retrain ..)
  · exact h3

theorem canon_laneTrip (s : State) (p k : Nat) : Canon s (s.laneTrip p k) := by
  unfold State.laneTrip
  extract_lets l x soon s0 s1
  have h0 : Canon s s0 := (same_modPort ..).canon
  split
  · split
    · exact h0.trans (canon_retireLane ..)
    · exact h0.same ((same_setScore ..).trans (same_fireLane ..))
  · have h1 : Same s0 s1 := ((same_fireLane ..).trans (same_laneReeq ..)).trans (same_clearScores ..)
    exact (h0.same h1).same ((same_modLane ..).trans (same_retrainSame ..))

theorem canon_laneCharge (s : State) (p k w : Nat) : Canon s (s.laneCharge p k w) := by
  unfold State.laneCharge
  extract_lets l v tripped s1 s2
  have h1 : Same s s1 := same_laneEvent ..
  have h2 : Canon s s2 := by
    unfold s2
    split
    · exact h1.canon.same (same_modPort ..)
    · exact h1.canon.same (same_setScore ..)
  split
  · exact h2.trans (canon_laneTrip ..)
  · exact h2

theorem canon_laneLoses (s : State) (p k : Nat) : Canon s (s.laneLoses p k) := by
  unfold State.laneLoses
  extract_lets l s1
  have h1 : Canon s s1 := (same_setLock ..).canon
  split
  · exact h1.trans (canon_laneCharge ..)
  · exact h1.same (same_modPort ..)

theorem canon_crcLanes (s : State) (p : Nat) (l : List Nat) : Canon s (s.crcLanes p l) := by
  unfold State.crcLanes
  extract_lets ok
  split
  · split
    · exact (same_modPort ..).canon
    · exact .refl s
  · refine canon_each _ (fun t k => ?_) s
    split
    · exact .refl t
    · exact canon_laneCharge ..

theorem canon_flitDecide (s : State) (p : Nat) (l : List Byte) : Canon s (s.flitDecide p l) := by
  unfold State.flitDecide
  split
  · exact ((same_fireL ..).trans (same_addL ..)).canon.trans (canon_crcLanes ..)
  split
  · exact (same_protoErr ..).canon
  extract_lets unlisted s1 x d h s2
  have h1 : Same s s1 := (Same.onlyIf ⟨rfl, rfl⟩ fun t => same_fireL ..).trans (same_ackRule ..)
  have h2 : Same s s2 := by
    unfold s2
    split
    · exact h1
    · exact h1.trans (same_modFfl ..)
  refine Same.canon ?_
  split
  · split
    · exact h1.trans ((same_takeCell ..).trans (same_takeHeld ..))
    split
    · exact h2.trans (same_nakGaps ..)
    split
    · exact h1.trans (same_addL ..)
    · exact h1.trans (same_protoErr ..)
  split
  · exact h1.trans (same_nakGaps ..)
  · exact h1.trans (same_protoErr ..)

/-! ### The maintenance plan of the lanes -/

theorem canon_planReeq (s : State) (p k : Nat) : Canon s (s.planReeq p k) :=
  ((same_addF ..).canon.trans (canon_ageLog ..)).same ((same_retrainSame ..).trans (same_modAge ..))

theorem canon_planTake (s : State) (a : AgeAct) : Canon s (s.planTake a) := by
  unfold State.planTake
  extract_lets k l mr s0 before s1 rate
  have h0 : Canon s s0 := (same_modAge ..).canon
  split
  · have h1 : Canon s s1 := h0.each fun t j => canon_retireLane ..
    exact (h1.same (same_addF ..)).trans (canon_ageLog ..)
  · exact (h0.same ((same_derate ..).trans (same_addF ..))).trans (canon_ageLog ..)

theorem canon_planAct (s : State) (a : AgeAct) (b : Bool) : Canon s (s.planAct a b) := by
  unfold State.planAct
  extract_lets worst nofit code gate l
  split
  · exact (same_advise ..).canon
  split
  · exact (((same_propose ..).trans (same_modAge ..)).trans (same_fire ..)).canon.trans (canon_ageLog ..)
  · exact canon_planTake ..

theorem canon_decidePort (s : State) (p : Nat) : Canon s (s.decidePort p) := by
  unfold State.decidePort
  extract_lets ks mr rate low weak
  split
  · split
    · exact (same_advise ..).canon
    · exact canon_planReeq ..
  split
  · exact .refl s
  rcases s.usableWithout p weak with ⟨vn, vr⟩
  dsimp -zeta only
  extract_lets left
  split
  · exact (same_modAge ..).canon
  split
  · exact (same_modAge ..).canon
  · exact (same_fire ..).canon

theorem canon_redecide (s : State) (p : Nat) : Canon s (s.redecide p) := by
  unfold State.redecide
  split
  · exact .refl s
  extract_lets t
  have h1 : Canon s t := canon_decidePort ..
  split
  · exact h1.same (same_modAge ..)
  · exact h1

theorem canon_passEnd (s : State) : Canon s s.passEnd := by
  unfold State.passEnd
  split
  · exact .refl s
  extract_lets s1
  have h1 : Canon s s1 := ((same_setFlag ..).trans (same_modAge ..)).canon
  split
  · exact h1
  · extract_lets rest
    exact (h1.same (same_modAge ..)).trans (canon_planAct ..)

theorem canon_supplyRule (s : State) : Canon s s.supplyRule := by
  unfold State.supplyRule
  extract_lets third low below crit s1 s2
  have h1 : Canon s s1 := Canon.onlyIf (.refl s) fun t => (same_modAge ..).canon
  have h2 : Canon s s2 := by
    refine h1.onlyIf fun t => ?_
    split
    · exact (same_advise ..).canon
    split
    · exact (same_modAge ..).canon
    · exact canon_avsRaise t
  exact h2.onlyIf fun t => (same_fire ..).canon.trans (canon_ageLog ..)

theorem canon_passStart (s : State) : Canon s s.passStart := by
  unfold State.passStart
  extract_lets s1 s2
  have h1 : Canon s s1 := ((same_setFlag ..).trans (same_modAge ..)).canon
  have h2 : Canon s s2 := h1.onlyIf fun t => (same_setFlag ..).canon
  exact (((h2.trans (canon_supplyRule s2)).each canon_redecide).same (same_scanStatus _)).trans (canon_passEnd _)

theorem canon_scanDone (s : State) (p : Nat) (l : Option (List LaneEye)) : Canon s (s.scanDone p l) := by
  unfold State.scanDone
  extract_lets again s1 retry s2
  have h1 : Canon s s1 := (same_modAge ..).canon
  have hr : Canon s retry := h1.same (same_modAge ..)
  have h2 : Canon s s2 := by
    unfold s2
    split
    · exact hr
    split
    · exact hr
    extract_lets t u
    have ht : Canon s t := h1.same ((same_scanStore ..).trans (same_modAge ..))
    split
    · have hu : Canon s u := ht.trans (canon_decidePort ..)
      split
      · exact hu.same (same_modAge ..)
      · exact hu
    · exact ht
  exact (h2.same (same_scanStatus s2)).trans (canon_passEnd _)

theorem canon_ageApply (s : State) : Canon s s.ageApply := by
  unfold State.ageApply
  split
  · exact .refl s
  extract_lets s1 p act ks
  have h1 : Canon s s1 := (same_setFlag ..).canon
  split
  · split
    · exact h1.same (same_modAge ..)
    · exact h1.trans (canon_avsRaise s1)
  split
  · exact h1
  split
  · exact (h1.trans (canon_planReeq ..)).same (same_modAge ..)
  · exact h1.trans (canon_planAct ..)

theorem canon_writeAgeCmd (s : State) (w : Nat) : Canon s (s.writeAgeCmd w) := by
  unfold State.writeAgeCmd
  extract_lets s1 s2 s3
  have h1 : Canon s s1 := Canon.onlyIf (.refl s) canon_ageApply
  have h2 : Canon s s2 := h1.onlyIf fun t => (same_setFlag ..).canon
  have h3 : Canon s s3 := h2.onlyIf fun t => (same_ageScanNow ..).canon
  exact h3.onlyIf fun t => canon_ageUnretire ..

/-! ### Resets and the supply -/

theorem canon_powerUp (s : State) (n : Nat) (b : Bool) : Canon s (s.powerUp n b) := by
  unfold State.powerUp
  dsimp only
  refine Canon.same ?_ ((((same_setF ..).trans (same_setFlag ..)).trans (same_setF ..)).trans (same_setF ..))
  exact ⟨fun _ => rfl, fun h => h⟩

theorem canon_warmReset (s : State) (n : Nat) : Canon s (s.warmReset n) := by
  unfold State.warmReset
  dsimp only
  refine Canon.same ?_ ((((same_setF ..).trans (same_setFlag ..)).trans (same_setF ..)).trans (same_addF ..))
  exact ⟨fun h => h, fun h => h⟩

theorem canon_warmRequest (s : State) (n : Nat) : Canon s (s.warmRequest n) := by
  unfold State.warmRequest
  split
  · exact .refl s
  split
  · extract_lets s1 m
    have h1 : Canon s s1 := ((same_mirMsg ..).trans (same_yieldDrop _)).canon
    clear_value s1
    exact (h1.same ⟨rfl, rfl⟩).same (same_modBoot ..)
  · exact canon_warmReset ..

theorem canon_warnBegin (s : State) (r n : Nat) : Canon s (s.warnBegin r n) := by
  unfold State.warnBegin
  extract_lets s1 s2 l
  have h1 : Canon s s1 := ((same_modPwr ..).trans (same_setFlag ..)).canon
  have h2 : Canon s s2 := h1.same (((same_setF ..).trans (same_addF ..)).trans (same_fire ..))
  exact (h2.same (same_modAge ..)).trans (canon_ageLog ..)

theorem canon_railSample (s : State) (n : Nat) (x : Nat × Nat) : Canon s (s.railSample n x) := by
  obtain ⟨r, v⟩ := x
  unfold State.railSample
  dsimp -zeta only
  rcases s.railCounts r v with ⟨a, b⟩
  dsimp -zeta only
  extract_lets s1
  have h1 : Canon s s1 := (same_modPwr ..).canon
  split
  · exact h1.same (same_modPwr ..)
  split
  · exact h1.trans (canon_warnBegin ..)
  · exact h1

theorem canon_supplySample (s : State) (n : Nat) (l : List (Nat × Nat)) : Canon s (s.supplySample n l) := by
  unfold State.supplySample
  extract_lets xs s1
  split
  · exact canon_powerUp ..
  · have h1 : Canon s s1 := (same_modPwr s _).canon.each fun t x => canon_railSample ..
    exact h1.onlyIf fun t => (same_setF ..).canon

theorem canon_supplyOver (s : State) : Canon s s.supplyOver := by
  unfold State.supplyOver
  extract_lets left s1 s2
  have h1 : Canon s s1 := (same_modPwr ..).canon
  split
  · exact h1
  have h2 : Canon s s2 := h1.same (same_setFlag ..)
  split
  · exact (h2.same (same_modAge ..)).trans (canon_avsRaise _)
  · exact h2

/-! ### The boot -/

theorem canon_bootRom (s : State) (b : Bool) (i : BootInfo) : Canon s (s.bootRom b i) := by
  unfold State.bootRom
  extract_lets stored newest recs prev boot
  rcases e1 : s.draw with ⟨lostCert, r1⟩
  dsimp -zeta only
  rcases e2 : r1.draw with ⟨anyChain, r2⟩
  dsimp -zeta only
  rcases e3 : r2.draw with ⟨anyTail, r3⟩
  dsimp -zeta only
  have hr1 : Same s r1 := by simpa only [e1] using same_draw s
  have hr2 : Same s r2 := hr1.trans (by simpa only [e2] using same_draw r1)
  have hr3 : Same s r3 := hr2.trans (by simpa only [e3] using same_draw r2)
  extract_lets prevCert prevChain tail s1 inDebug secure replaced flags s2 s3 s4 s5 s6 s8
  have h1 : Same s s1 := hr3.trans (same_modTrust ..)
  have h2 : Canon s s2 := (h1.canon.trans (canon_flashErase ..)).same (same_modTrust ..)
  clear_value s2
  have h3 : Same s2 s3 := (((same_setF ..).trans (same_setF ..)).trans (same_setFlag ..)).trans (same_setFlag ..)
  clear_value s3
  have h4 : Same s2 s4 := h3.trans (((same_setFlag ..).trans (same_setFlag ..)).trans (same_setF ..))
  have h5 : Same s2 s5 := h4.trans ((same_setFlag ..).trans (same_setFlag ..))
  clear_value s5
  have h6 : Same s2 s6 := h5.trans (same_bookAdd ..)
  clear_value s6
  have h8 : Same s2 s8 := (h6.trans ((same_newNonce _).trans (same_bootFirmware ..))).onlyIf fun t => same_bookDebug ..
  split
  · exact h2.same (h8.trans (same_mgmtRelease s8))
  · exact h2.same h8

theorem Canon.ite {c : Prop} [Decidable c] {s t u : State} (h : Canon s t) (g : Canon s u) : Canon s (if c then t else u) :=
  iteInduction (motive := Canon s) (fun _ => h) fun _ => g

theorem canon_bootStep (s : State) (i : BootInfo) : Canon s (s.bootStep i) := by
  unfold State.bootStep
  extract_lets n s1 s2 a z
  have h1 : Canon s s1 := canon_bootRom ..
  have h2 : Canon s s2 := h1.onlyIf fun t => (((same_enterDevFatal _).trans (same_setPin ..)).trans (same_modBoot ..)).canon
  have h5 : Canon s { s with hbm := s.hbm.filter fun e => !(decide (a ≤ e.1) && decide (e.1 < a + z)) } :=
    ⟨storeWf_filter _, fun h => h⟩
  have hat (k : Nat) : Canon s (s.bootAt k) := (same_bootAt s k).canon
  have h8 : Canon s ((s.fire pgCLK 1).bootAt 9) := ((same_fire ..).trans (same_bootAt ..)).canon
  have h10 : Canon s ((((s.setFlag pgGLB GLB_SEAL.SEAL true).bookAdd 0xA []).checkpointDue).bootAt 11) :=
    ((((same_setFlag ..).trans (same_bookAdd ..)).trans (same_checkpointDue _)).trans (same_bootAt ..)).canon
  refine .ite (hat 2) (.ite ((same_setFlag ..).trans (same_bootAt ..)).canon (.ite ?_ (.ite (hat 5) (.ite (h5.same (same_bootAt ..)) ?_))))
  · exact .ite (h1.same (same_bootAt ..)) (h2.same (same_bootAt ..))
  refine .ite ((same_bootConfig ..).trans (same_bootAt ..)).canon (.ite (hat 8) (.ite ?_ (.ite (hat 10) (.ite h10 (.ite (hat 12) (.refl s))))))
  exact .ite (hat 9) (.ite h8 (.refl s))

/-! ### Training of a port -/

theorem canon_l0Entry (s : State) (p r w : Nat) (a b c : Bool) (l : List Nat) : Canon s (s.l0Entry p r w a b c l) := by
  unfold State.l0Entry
  split
  · refine iteInduction (motive := Canon s) (fun _ => ?_) fun _ => ?_
    · exact ((same_trainCounts ..).trans (same_noLanes ..)).canon
    · exact .refl s
  split
  · exact .refl s
  split
  · extract_lets s1
    have h1 : Canon s s1 := (((same_trainCounts ..).trans (same_trainLanes ..)).trans ((same_modFfl ..).trans (same_restart ..))).canon
    exact (h1.same (same_helloBegin s1 p)).each fun t k => canon_laneTrip ..
  · extract_lets down offers s1 s2 s3 s4 s5
    have h1 : Canon s s1 := ((same_trainCounts ..).trans (same_trainLanes ..)).canon
    have h2 : Canon s s2 := by
      refine (h1.same (((same_setF ..).trans (same_setF ..)).trans ((same_setFlag ..).trans (same_setFlag ..)))).onlyIf fun t => ?_
      exact ((same_setFlag ..).onlyIf fun u => same_fire ..).canon
    have h3 : Canon s s3 := h2.onlyIf fun t => (((same_setCap ..).trans (same_modPort ..)).trans (same_fire ..)).canon
    have h4 : Canon s s4 := by
      unfold s4
      split
      · exact h3.same (((same_setF ..).trans (same_setFlag ..)).trans ((same_restart ..).trans (same_helloBegin ..)))
      · exact h3.same (same_portUp ..)
    have h5 : Canon s s5 := h4.each fun t k => canon_laneTrip ..
    split
    · exact h5
    · exact (h5.same (same_modPort s5 p _)).onlyIf fun t => (same_retrainSame ..).canon

/-! ### Writes of registers -/

theorem canon_writeGlobal (s : State) (w : Requester) (n : Nat) (k : PageKind) (r : RegDef) (i : Nat) (v : Dword) :
    Canon s (s.writeGlobal w n k r i v) := by
  unfold State.writeGlobal
  extract_lets key plain x o m t1 t2 t3 j
  have hp : Canon s plain := (same_plainWrite ..).canon
  cases k <;> dsimp -zeta only
  case glb =>
    split
    · exact (same_writeModes ..).canon
    split
    · exact Canon.onlyIf (.refl s) fun t => (same_sealAll t).canon
    · exact hp
  case rst =>
    split
    · exact (Canon.onlyIf (.refl s) fun t => (same_mgmtReset t).canon).onlyIf fun t => canon_warmRequest ..
    split
    · exact Canon.onlyIf (.refl s) fun t => (same_partHotReset ..).canon
    · exact hp
  case pwr =>
    split
    · exact (same_writeGate ..).canon
    · exact hp
  case fwd =>
    split
    · exact (same_eptAccess ..).canon
    split
    · exact hp.same (same_breakUnreachable plain)
    · exact hp
  case spl =>
    split
    · exact (same_gatedEnable _ _ _ _ _ fun t => same_plainWrite ..).canon
    · exact hp
  case acc =>
    split
    · exact (same_accField ..).canon
    split
    · exact (same_accField ..).canon
    split
    · exact (same_accField ..).canon
    split
    · exact (same_accRd ..).canon
    · exact hp
  case flt =>
    split
    · exact (((same_plainWrite ..).trans (same_sealedWrite _ _ _ _ fun u => same_pinMode ..)).trans (same_evalPin _)).canon
    split
    · exact (Same.onlyIf ((same_plainWrite ..).trans (same_pinDrive t2 _)) same_rearm).canon
    split
    · exact (same_moveRd ..).canon
    split
    · exact (same_moveRd ..).canon
    · exact hp
  case tru =>
    split
    · exact Canon.onlyIf (.refl s) fun t => (same_attRedo ..).canon
    · exact hp
  case age =>
    split
    · exact (same_plainWrite ..).canon.trans (canon_avsWrite t3 _)
    split
    · exact canon_writeAgeCmd ..
    · exact hp
  case mir =>
    split
    · exact (same_writeMirCmd ..).canon
    split
    · exact canon_each _ (fun t l => canon_retireLane ..) s
    split
    · exact (same_writeLinkReq ..).canon
    · exact hp
  case vim =>
    split
    · exact (same_bindD0 ..).canon
    split
    · exact (same_bindD1 ..).canon
    split
    · exact (same_invGo ..).canon
    · exact hp
  case win =>
    split
    · exact (same_winField ..).canon
    split
    · exact (same_winField ..).canon
    split
    · exact (same_winField ..).canon
    · exact (same_winRoute ..).canon
  all_goals exact hp

theorem canon_writeBlock (s : State) (w : Requester) (n : Nat) (k : PageKind) (r : RegDef) (i : Nat) (v : Dword) :
    Canon s (s.writeBlock w n k r i v) := by
  unfold State.writeBlock
  extract_lets key plain x o c b n1 p1 ch n2 s1 s2
  have hp : Canon s plain := (same_plainWrite ..).canon
  cases k <;> dsimp -zeta only
  case vimi =>
    split
    · exact (Same.onlyIf (same_plainWrite ..) fun t => same_instReset ..).canon
    · exact hp
  case cel =>
    split
    · exact canon_each _ (fun t l => canon_retireLane ..) s
    · exact hp
  case sch =>
    split
    · exact (same_writeImgCmd ..).canon
    split
    · exact (same_writeShared ..).canon
    · exact hp
  case qsh =>
    split
    · exact (same_shaperWrite ..).canon
    · exact hp
  case lnk =>
    split
    · exact (same_writeLnkCtl ..).canon
    split
    · exact (hp.same ((same_laneStatus ..).trans (same_setCap ..))).onlyIf fun t => (same_setF ..).canon
    · exact hp
  case ffl =>
    split
    · exact (same_writeLinkReq ..).canon
    · exact hp
  case dma =>
    split
    · exact (Canon.onlyIf (.refl s) fun t => (same_noteBurst ..).canon).same (same_plainWrite ..)
    · exact hp
  case dmac => exact Canon.onlyIf (.refl s) fun t => (same_writeChan ..).canon
  case pmuc =>
    split
    · exact (same_pmuWrite ..).canon
    split
    · exact (same_evtWrite ..).canon
    split
    · split
      · exact ⟨fun h => h, fun h => h⟩
      · exact .refl s
    · exact hp
  case pmut =>
    split
    · exact (same_gatedEnable _ _ _ _ _ fun t => same_plainWrite ..).canon
    split
    · exact (same_writeRingRd ..).canon
    split
    · exact (same_writeSampler ..).canon
    · exact hp
  case pmua =>
    split
    · exact (same_saClear ..).canon
    · exact hp
  case spcs =>
    split
    · have h1 : Canon s s1 := Canon.onlyIf (.refl s) fun t => (same_clrLatch ..).canon
      have h2 : Canon s s2 := h1.onlyIf fun t => (same_slotService ..).canon
      exact h2.onlyIf fun t => (same_connReset ..).canon
    · exact hp
  case glb | clk | rst | pwr | spn | fwd | spl | acc | flt | tru | age | mir | vim | win => exact canon_writeGlobal ..
  all_goals exact hp

theorem canon_writeReg (s : State) (w : Requester) (n : Nat) (k : PageKind) (r : RegDef) (i : Nat) (v : Dword) :
    Canon s (s.writeReg w n k r i v) :=
  .ite (same_writeHdr ..).canon (canon_writeBlock ..)

theorem canon_putReg (s : State) (w : Requester) (n : Nat) (k : PageKind) (r : RegDef) (i : Nat) (v : Dword) :
    Canon s (s.putReg w n k r i v).1 := by
  unfold State.putReg
  split
  · exact .refl s
  · exact canon_writeReg ..

theorem canon_write4 (s : State) (w : Requester) (a v : Nat) : Canon s (s.write4 w a v).1 := by
  unfold State.write4
  split
  · exact .refl s
  next page k r i _ =>
    extract_lets base key old x
    split
    · exact (same_touch ..).canon.trans (canon_putReg ..)
    · refine Canon.trans ?_ (canon_putReg ..)
      cases s.wordOf a with
      | none => exact .refl s
      | some y => exact (same_touch ..).canon

theorem canon_write8 (s : State) (w : Requester) (a v : Nat) : Canon s (s.write8 w a v).1 := by
  unfold State.write8
  extract_lets two
  have h2 : Canon s two.1 := by
    have h1 := canon_write4 s w a (v % 2 ^ 32)
    unfold two
    split
    · next t heq => exact (h1.fst heq).trans (canon_write4 ..)
    · next t n heq => exact h1.fst heq
  clear_value two
  split
  · exact h2
  split
  · exact (same_touch ..).canon.trans (canon_putReg ..)
  · exact h2

theorem canon_writeWords (s : State) (w : Requester) (a : Nat) (l : List (List (Option Byte))) : Canon s (s.writeWords w a l).1 := by
  induction l generalizing s a with
  | nil => exact .refl s
  | cons x r ih =>
    unfold State.writeWords
    extract_lets one
    have h1 : Canon s one.1 := by
      unfold one
      split
      · exact canon_write4 ..
      · exact Canon.onlyIf (.refl s) fun t => (same_pageAccess ..).canon
    clear_value one
    split
    · exact h1
    · exact h1.trans (ih ..)

theorem canon_busWrite (s : State) (w : Requester) (a : Nat) (l : List (Option Byte)) (q : Nat) : Canon s (s.busWrite w a l q).1 := by
  unfold State.busWrite
  split
  · exact .refl s
  rcases hg : s.guardPage w a true q with ⟨s1, ok⟩
  have h1 : Canon s s1 := (same_guardPage ..).canon.fst hg
  dsimp -zeta only
  split
  · exact h1
  split
  · exact h1.same (same_pageAccess ..)
  extract_lets pre full ws x
  split
  · exact h1.trans (canon_writeWords ..)
  split
  · exact h1.trans (canon_write8 ..)
  split
  · split
    · exact h1.trans (canon_write4 ..)
    · exact h1.same (same_pageAccess ..)
  · exact h1.same (same_pageAccess ..)

theorem canon_barWrite (s : State) (r : Route) (l : List (Option Byte)) (g q : Nat) : Canon s (s.barWrite r l g q).1 := by
  unfold State.barWrite
  split
  · split
    · exact canon_busWrite ..
    split
    · exact ⟨fun h => h, fun h => h⟩
    · exact (same_bar4Write ..).canon
  · split
    · exact canon_busWrite ..
    split
    · exact (same_vfMsixWrite ..).canon
    · exact .refl s
  all_goals exact .refl s

/-! ### The ordering point -/

theorem canon_barPass (s : State) (p : Packet) : Canon s (s.barPass p).1 := by
  unfold State.barPass
  extract_lets slice
  rcases e1 : s.pass p (if slice = true then 1 else 0) with ⟨s1, p1⟩
  dsimp -zeta only
  rcases e2 : s1.samplePass p1 none false with ⟨s2, smp⟩
  dsimp -zeta only
  extract_lets s3
  have h1 : Canon s s1 := (same_pass ..).canon.fst e1
  have h2 : Canon s s2 := h1.trans ((same_samplePass ..).canon.fst e2)
  have h3 : Canon s s3 := h2.same (same_packetOut ..)
  clear_value s3
  split
  · split
    · exact h3.same (same_fenceStart ..)
    all_goals exact h3
  split
  · exact h3.trans (canon_barWrite ..)
  split
  · have h4 := h3.trans (canon_barWrite s3 p.route (writeBytes p.tlp) p.group 3)
    split
    · next s4 heq => exact (h4.fst heq).same (same_reply ..)
    · next s4 n heq => exact h4.fst heq
  split
  · exact h3.same ((same_barReadRuns s3 p).trans (same_reply ..))
  · exact h3.same (same_refuse ..)

theorem canon_passRoute (s : State) (p : Packet) : Canon s (s.passRoute p).1 := by
  unfold State.passRoute
  split
  · split
    · exact .refl s
    · exact (same_portPass ..).canon
  · exact (same_fabricPass ..).canon
  · split
    · exact .refl s
    · exact (same_mcastPass ..).canon
  · split
    · exact .refl s
    split
    · exact .refl s
    · exact (same_sharedPass ..).canon
  · exact canon_barPass ..
  · exact canon_barPass ..
  · split
    · exact (same_fabricCpl ..).canon
    · exact (same_leaveIngress ..).canon

theorem canon_ingressPass (s : State) (p : Packet) : Canon s (s.ingressPass p).1 := by
  unfold State.ingressPass
  extract_lets through early window ahead held
  split
  · exact .refl s
  split
  · exact (same_badPass ..).canon
  split
  · exact .refl s
  split
  · exact Same.canon (by split; exacts [⟨rfl, rfl⟩, same_turnAway ..])
  split
  · exact (((same_turnAway ..).onlyIf fun t => same_aerPort ..).trans (same_fire ..)).canon
  split
  · exact (((same_leaveIngress ..).trans (same_aerPort ..)).trans (same_fire ..)).canon
  split
  · next t heq => exact (same_mirrorWaits heq).canon
  split
  · exact .refl s
  · next s1 p1 heq =>
    rcases e2 : s1.passRoute p1 with ⟨s2, u⟩
    have h2 : Canon s s2 := (same_frtTake heq).canon.trans ((canon_passRoute ..).fst e2)
    dsimp -zeta only
    split
    · exact h2.same (u := { s2 with frt := s.frt }) ⟨rfl, rfl⟩
    · exact h2

end Sys2Proof.Memories
end

section
/-! ## Commands keep HBM and the boot flash canonical (O6) -/

namespace Sys2Proof.Memories

open Sys2Proof Sys2Proof.Machine Sys2Proof.Laws

/-! ### Commands -/

/-- HBM and the boot flash stay canonical where the command ends in a next state. -/
def Ends (s : State) : Res → Prop
  | .next t => Canon s t
  | .fault _ => True
  | .refused _ => True

theorem Ends.of {s t : State} (h : Canon s t) : Ends s t.done := h.same ⟨settle_hbm t, settle_flash t⟩

theorem Ends.same {s t : State} (h : Same s t) : Ends s t.done := .of h.canon

theorem Ends.fault {s : State} {f : Fault} : Ends s (.fault f) := trivial

theorem Ends.ite {c : Prop} [Decidable c] {s : State} {q r : Res} (h : Ends s q) (g : Ends s r) : Ends s (if c then q else r) :=
  iteInduction (motive := Ends s) (fun _ => h) fun _ => g

theorem Ends.access {s : State} {r : State × Option Nat} (h : Canon s r.1) : Ends s (accessEnd r) := by
  obtain ⟨t, _ | n⟩ := r
  · exact .of h
  · exact .fault

theorem canon_guardSlots (s : State) (w : Requester) (a n : Nat) (b : Bool) : Canon s (s.guardSlots w a n b).1 := (same_guardSlots ..).canon

/-- What `f` keeps canonical, an access that does `f` does. -/
theorem canon_withAccess (s : State) (w : Requester) (a n : Nat) (b : Bool) {f : State → State} (h : ∀ t, Canon t (f t)) :
    Canon s (s.withAccess w a n b f) := by
  unfold State.withAccess
  split
  · exact .refl s
  rcases e1 : s.guardSlots w a n b with ⟨s1, ok1⟩
  have h1 : Canon s s1 := (canon_guardSlots ..).fst e1
  dsimp -zeta only
  split
  · exact h1
  generalize (if b = true then 1 else 0) = m
  rcases e2 : s1.guardPage w a b m with ⟨s2, ok2⟩
  have h2 : Canon s s2 := h1.trans ((same_guardPage ..).canon.fst e2)
  dsimp -zeta only
  split
  · exact h2
  split
  · exact h2
  · exact (h2.same (same_touchAt ..)).trans (h _)

theorem ends_fenceRead (port rid tag : Nat) (pasid : Option Nat) (inst : Nat) (s : State) : Ends s (execFenceRead port rid tag pasid inst s) := by
  unfold execFenceRead
  exact .same (by simp [Same])

theorem ends_fenceDmwr (port rid tag : Nat) (pasid : Option Nat) (inst : Nat) (s : State) : Ends s (execFenceDmwr port rid tag pasid inst s) := by
  unfold execFenceDmwr
  exact .same (by simp [Same])

theorem ends_vimBindD0Write (who : Requester) (value : Word) (s : State) : Ends s (execVimBindD0Write who value s) := by
  unfold execVimBindD0Write
  exact .same (by simp [Same])

theorem ends_vimBindD1Write (who : Requester) (value : Word) (s : State) : Ends s (execVimBindD1Write who value s) := by
  unfold execVimBindD1Write
  exact .same (by simp [Same])

theorem ends_ttuInvGo (who : Requester) (value : Word) (s : State) : Ends s (execTtuInvGo who value s) := by
  unfold execTtuInvGo
  exact .same (by simp [Same])

theorem ends_ttuInvEffect (s : State) : Ends s (execTtuInvEffect s) := by
  unfold execTtuInvEffect
  repeat' split
  all_goals exact .same (by simp [Same])

theorem ends_ttuInvDone (s : State) : Ends s (execTtuInvDone s) := by
  unfold execTtuInvDone
  repeat' split
  all_goals exact .same (by simp [Same])

theorem ends_vfFlr (inst : Nat) (s : State) : Ends s (execVfFlr inst s) := by
  unfold execVfFlr
  exact .same (by simp [Same])

theorem ends_vimResetWrite (who : Requester) (inst : Nat) (s : State) : Ends s (execVimResetWrite who inst s) := by
  unfold execVimResetWrite
  exact .same (by simp [Same])

theorem ends_pfFlr (part : Nat) (s : State) : Ends s (execPfFlr part s) := by
  unfold execPfFlr
  repeat' split
  all_goals exact .same (by simp [Same])

theorem ends_heldResetEffect (inst : Nat) (s : State) : Ends s (execHeldResetEffect inst s) := by
  unfold execHeldResetEffect
  repeat' split
  all_goals exact .same (by simp [Same])

theorem ends_instanceResetEnd (inst : Nat) (s : State) : Ends s (execInstanceResetEnd inst s) := by
  unfold execInstanceResetEnd
  repeat' split
  all_goals exact .same (by simp [Same])

theorem ends_winFieldWrite (who : Requester) (w : Nat) (field : HeldField) (value : Dword) (s : State) : Ends s (execWinFieldWrite who w field value s) := by
  unfold execWinFieldWrite
  exact .same (by simp [Same])

theorem ends_fwdEptDataAccess (who : Requester) (value : Option Word) (s : State) : Ends s (execFwdEptDataAccess who value s) := by
  unfold execFwdEptDataAccess
  exact .same (by simp [Same])

theorem ends_accHeldWrite (who : Requester) (slot : Nat) (field : HeldField) (value : Dword) (s : State) : Ends s (execAccHeldWrite who slot field value s) := by
  unfold execAccHeldWrite
  exact .same (by simp [Same])

theorem ends_accRdWrite (who : Requester) (slot : Nat) (value : Word) (s : State) : Ends s (execAccRdWrite who slot value s) := by
  unfold execAccRdWrite
  exact .same (by simp [Same])

theorem ends_prefetchFillDone (block : Nat) (s : State) : Ends s (execPrefetchFillDone block s) := by
  unfold execPrefetchFillDone
  repeat' split
  all_goals exact .same (by simp [Same])

theorem ends_prefetchHoldExpire (block : Nat) (s : State) : Ends s (execPrefetchHoldExpire block s) := by
  unfold execPrefetchHoldExpire
  repeat' split
  all_goals exact .same (by simp [Same])

theorem ends_orphanReap (port rid tag : Nat) (s : State) : Ends s (execOrphanReap port rid tag s) := by
  unfold execOrphanReap
  repeat' split
  all_goals exact .same (by simp [Same])

theorem ends_liveReap (port rid tag : Nat) (s : State) : Ends s (execLiveReap port rid tag s) := by
  unfold execLiveReap
  dsimp only
  repeat' split
  all_goals exact .same (by simp [Same])

theorem ends_schLoad (who : Requester) (slot : Nat) (s : State) : Ends s (execSchLoad who slot s) := by
  unfold execSchLoad
  exact .same (by simp [Same])

theorem ends_loadCompletionTimeout (s : State) : Ends s (execLoadCompletionTimeout s) := by
  unfold execLoadCompletionTimeout
  dsimp only
  repeat' split
  all_goals exact .same (by simp [Same])

theorem ends_schHold (who : Requester) (slot : Nat) (s : State) : Ends s (execSchHold who slot s) := by
  unfold execSchHold
  exact .same (by simp [Same])

theorem ends_schRelease (who : Requester) (slot : Nat) (s : State) : Ends s (execSchRelease who slot s) := by
  unfold execSchRelease
  exact .same (by simp [Same])

theorem ends_schArm (who : Requester) (slot : Nat) (s : State) : Ends s (execSchArm who slot s) := by
  unfold execSchArm
  exact .same (by simp [Same])

theorem ends_shadowFillDone (s : State) : Ends s (execShadowFillDone s) := by
  unfold execShadowFillDone
  exact .same (by simp [Same])

theorem ends_schDisarm (who : Requester) (slot : Nat) (s : State) : Ends s (execSchDisarm who slot s) := by
  unfold execSchDisarm
  exact .same (by simp [Same])

theorem ends_schBadCmd (who : Requester) (code slot : Nat) (s : State) : Ends s (execSchBadCmd who code slot s) := by
  unfold execSchBadCmd
  repeat' split
  all_goals exact .same (by simp [Same])

theorem ends_armPairCheck (s : State) : Ends s (execArmPairCheck s) := by
  unfold execArmPairCheck
  repeat' split
  all_goals exact .same (by simp [Same])

theorem ends_tackDelayExpire (key : Nat) (s : State) : Ends s (execTackDelayExpire key s) := by
  unfold execTackDelayExpire
  repeat' split
  all_goals exact .same (by simp [Same])

theorem ends_e2eTimeout (key : Nat) (ecc : Ecc) (s : State) : Ends s (execE2eTimeout key ecc s) := by
  unfold execE2eTimeout
  dsimp only
  repeat' split
  all_goals exact .same (by simp [Same])

theorem ends_replayStoreWritten (key : Nat) (s : State) : Ends s (execReplayStoreWritten key s) := by
  unfold execReplayStoreWritten
  repeat' split
  all_goals exact .same (by simp [Same])

theorem ends_frtCompletionTimeout (entry : Nat) (s : State) : Ends s (execFrtCompletionTimeout entry s) := by
  unfold execFrtCompletionTimeout
  repeat' split
  all_goals exact .same (by simp [Same])

theorem ends_laneScoreDecay (s : State) : Ends s (execLaneScoreDecay s) := by
  unfold execLaneScoreDecay
  repeat' split
  all_goals exact .same (by simp [Same])

theorem ends_lnkDisableSet (who : Requester) (port : Nat) (s : State) : Ends s (execLnkDisableSet who port s) := by
  unfold execLnkDisableSet
  exact .same (by simp [Same])

theorem ends_lnkDisableClear (who : Requester) (port : Nat) (s : State) : Ends s (execLnkDisableClear who port s) := by
  unfold execLnkDisableClear
  exact .same (by simp [Same])

theorem ends_portRecoveryEntry (port : Nat) (s : State) : Ends s (execPortRecoveryEntry port s) := by
  unfold execPortRecoveryEntry
  repeat' split
  all_goals exact .same (by simp [Same])

theorem ends_derateWindowEnd (port : Nat) (s : State) : Ends s (execDerateWindowEnd port s) := by
  unfold execDerateWindowEnd
  dsimp only
  repeat' split
  all_goals exact .same (by simp [Same])

theorem ends_dlDown (port : Nat) (s : State) : Ends s (execDlDown port s) := by
  unfold execDlDown
  repeat' split
  all_goals exact .same (by simp [Same])

theorem ends_lockLossTimeout (port : Nat) (s : State) : Ends s (execLockLossTimeout port s) := by
  unfold execLockLossTimeout
  repeat' split
  all_goals exact .same (by simp [Same])

theorem ends_linkDownCleanupDone (port : Nat) (s : State) : Ends s (execLinkDownCleanupDone port s) := by
  unfold execLinkDownCleanupDone
  repeat' split
  all_goals exact .same (by simp [Same])

theorem ends_dpcTrigger (port : Nat) (s : State) : Ends s (execDpcTrigger port s) := by
  unfold execDpcTrigger
  repeat' split
  all_goals exact .same (by simp [Same])

theorem ends_dpcExit (port : Nat) (s : State) : Ends s (execDpcExit port s) := by
  unfold execDpcExit
  repeat' split
  all_goals exact .same (by simp [Same])

theorem ends_hotResetReceived (port : Nat) (s : State) : Ends s (execHotResetReceived port s) := by
  unfold execHotResetReceived
  repeat' split
  all_goals exact .same (by simp [Same])

theorem ends_secondaryBusReset (part : Nat) (s : State) : Ends s (execSecondaryBusReset part s) := by
  unfold execSecondaryBusReset
  exact .same (by simp [Same])

theorem ends_fflCreditReceive (port p np cpl : Nat) (s : State) : Ends s (execFflCreditReceive port p np cpl s) := by
  unfold execFflCreditReceive
  repeat' split
  all_goals exact .same (by simp [Same])

theorem ends_fflNakReceive (port seq : Nat) (s : State) : Ends s (execFflNakReceive port seq s) := by
  unfold execFflNakReceive
  dsimp only
  repeat' split
  all_goals exact .same (by simp [Same])

theorem ends_fflHelloReceive (port fdid peerPort : Nat) (echo : Bool) (width ident : Nat) (s : State) : Ends s (execFflHelloReceive port fdid peerPort echo width ident s) := by
  unfold execFflHelloReceive
  repeat' split
  all_goals exact .same (by simp [Same])

theorem ends_fflLinkreqReceive (port width tag : Nat) (s : State) : Ends s (execFflLinkreqReceive port width tag s) := by
  unfold execFflLinkreqReceive
  repeat' split
  all_goals exact .same (by simp [Same])

theorem ends_fflLinkgoReceive (port width tag : Nat) (s : State) : Ends s (execFflLinkgoReceive port width tag s) := by
  unfold execFflLinkgoReceive
  repeat' split
  all_goals exact .same (by simp [Same])

theorem ends_fflTimeReqReceive (port t1 acc : Nat) (s : State) : Ends s (execFflTimeReqReceive port t1 acc s) := by
  unfold execFflTimeReqReceive
  repeat' split
  all_goals exact .same (by simp [Same])

theorem ends_fflTimeRspReceive (port t1 t2 t3 acc : Nat) (s : State) : Ends s (execFflTimeRspReceive port t1 t2 t3 acc s) := by
  unfold execFflTimeRspReceive
  dsimp only
  repeat' split
  all_goals exact .same (by simp [Same])

theorem ends_fflSwaptickReceive (port tick vintage cls peerPort : Nat) (s : State) : Ends s (execFflSwaptickReceive port tick vintage cls peerPort s) := by
  unfold execFflSwaptickReceive
  repeat' split
  all_goals exact .same (by simp [Same])

theorem ends_fflMctpReceive (port : Nat) (body : List Byte) (s : State) : Ends s (execFflMctpReceive port body s) := by
  unfold execFflMctpReceive
  repeat' split
  all_goals exact .same (by simp [Same])

theorem ends_fflReplayTimeout (port : Nat) (s : State) : Ends s (execFflReplayTimeout port s) := by
  unfold execFflReplayTimeout
  repeat' split
  all_goals exact .same (by simp [Same])

theorem ends_fflHelloInterval (port : Nat) (s : State) : Ends s (execFflHelloInterval port s) := by
  unfold execFflHelloInterval
  repeat' split
  all_goals exact .same (by simp [Same])

theorem ends_fflHelloTimeout (port : Nat) (s : State) : Ends s (execFflHelloTimeout port s) := by
  unfold execFflHelloTimeout
  repeat' split
  all_goals exact .same (by simp [Same])

theorem ends_fflUpkeepTimer (port : Nat) (s : State) : Ends s (execFflUpkeepTimer port s) := by
  unfold execFflUpkeepTimer
  repeat' split
  all_goals exact .same (by simp [Same])

theorem ends_fflTimeIntTimer (port : Nat) (s : State) : Ends s (execFflTimeIntTimer port s) := by
  unfold execFflTimeIntTimer
  repeat' split
  all_goals exact .same (by simp [Same])

theorem ends_fflLinkreqTimeout (port : Nat) (s : State) : Ends s (execFflLinkreqTimeout port s) := by
  unfold execFflLinkreqTimeout
  repeat' split
  all_goals exact .same (by simp [Same])

theorem ends_fflReqCmd (who : Requester) (port : Nat) (width : Nat) (s : State) : Ends s (execFflReqCmd who port width s) := by
  unfold execFflReqCmd
  dsimp only
  repeat' split
  all_goals exact .same (by simp -implicitDefEqProofs [Same, apply_ite State.hbm, apply_ite State.flash])

theorem ends_fflLockLossTimeout (port : Nat) (s : State) : Ends s (execFflLockLossTimeout port s) := by
  unfold execFflLockLossTimeout
  repeat' split
  all_goals exact .same (by simp [Same])

theorem ends_fflLinkDownCleanupDone (d : LinkCleanup) (s : State) : Ends s (execFflLinkDownCleanupDone d s) := by
  unfold execFflLinkDownCleanupDone
  repeat' split
  all_goals exact .same (by simp [Same])

theorem ends_flitPeriodStart (port : Nat) (ecc : Ecc) (s : State) : Ends s (execFlitPeriodStart port ecc s) := by
  unfold execFlitPeriodStart
  repeat' split
  all_goals exact .same (by simp [Same])

theorem ends_repairWaitExpire (port : Nat) (s : State) : Ends s (execRepairWaitExpire port s) := by
  unfold execRepairWaitExpire
  repeat' split
  all_goals exact .same (by simp [Same])

theorem ends_repairItemDue (port item : Nat) (s : State) : Ends s (execRepairItemDue port item s) := by
  unfold execRepairItemDue
  repeat' split
  all_goals exact .same (by simp [Same])

theorem ends_nonflitStartOpportunity (port : Nat) (ecc : Ecc) (s : State) : Ends s (execNonflitStartOpportunity port ecc s) := by
  unfold execNonflitStartOpportunity
  repeat' split
  all_goals exact .same (by simp [Same])

theorem ends_tlpDllAck (port count : Nat) (s : State) : Ends s (execTlpDllAck port count s) := by
  unfold execTlpDllAck
  exact .same (by simp -implicitDefEqProofs [Same, apply_ite State.hbm, apply_ite State.flash])

theorem ends_fcUpdateReceive (port cls headers units : Nat) (s : State) : Ends s (execFcUpdateReceive port cls headers units s) := by
  unfold execFcUpdateReceive
  repeat' split
  all_goals exact .same (by simp [Same])

theorem ends_spineSlot (src dst half : Nat) (ecc : Ecc) (s : State) : Ends s (execSpineSlot src dst half ecc s) := by
  unfold execSpineSlot
  repeat' split
  all_goals exact .same (by simp [Same])

theorem ends_cellEgressArrive (queue : Nat) (ecc : Ecc) (s : State) : Ends s (execCellEgressArrive queue ecc s) := by
  unfold execCellEgressArrive
  repeat' split
  all_goals exact .same (by simp [Same])

theorem ends_spillPlacedBurst (index : Nat) (s : State) : Ends s (execSpillPlacedBurst index s) := by
  unfold execSpillPlacedBurst
  repeat' split
  all_goals exact .same (by simp [Same])

theorem ends_spillBeBurst (back : Bool) (s : State) : Ends s (execSpillBeBurst back s) := by
  unfold execSpillBeBurst
  repeat' split
  all_goals exact .same (by simp [Same])

theorem ends_spillBurstDone (ecc : List Ecc) (s : State) : Ends s (execSpillBurstDone ecc s) := by
  unfold execSpillBurstDone
  repeat' split
  all_goals exact .same (by simp [Same])

theorem ends_policerRelease (port cls : Nat) (s : State) : Ends s (execPolicerRelease port cls s) := by
  unfold execPolicerRelease
  repeat' split
  all_goals exact .same (by simp [Same])

theorem ends_shaperParamWrite (who : Requester) (off : Nat) (value : Word) (s : State) : Ends s (execShaperParamWrite who off value s) := by
  unfold execShaperParamWrite
  dsimp only
  repeat' split
  all_goals exact .same (by simp [Same])

theorem ends_queueSnapshot (page : Nat) (s : State) : Ends s (execQueueSnapshot page s) := by
  unfold execQueueSnapshot
  repeat' split
  all_goals exact .same (by simp [Same])

theorem ends_queueStallDetect (queue : Nat) (s : State) : Ends s (execQueueStallDetect queue s) := by
  unfold execQueueStallDetect
  dsimp only
  repeat' split
  all_goals exact .same (by simp [Same])

theorem ends_samplePendingTimeout (s : State) : Ends s (execSamplePendingTimeout s) := by
  unfold execSamplePendingTimeout
  repeat' split
  all_goals exact .same (by simp [Same])

theorem ends_ringRdWrite (who : Requester) (c rd : Nat) (s : State) : Ends s (execRingRdWrite who c rd s) := by
  unfold execRingRdWrite
  exact .same (by simp -implicitDefEqProofs [Same, apply_ite State.hbm, apply_ite State.flash])

theorem ends_pmuCounterWrite (who : Requester) (c j : Nat) (wide : Bool) (value : Dword) (s : State) : Ends s (execPmuCounterWrite who c j wide value s) := by
  unfold execPmuCounterWrite
  repeat' split
  all_goals exact .same (by simp [Same])

theorem ends_pmuEvtWrite (who : Requester) (c j : Nat) (value : Word) (s : State) : Ends s (execPmuEvtWrite who c j value s) := by
  unfold execPmuEvtWrite
  repeat' split
  all_goals exact .same (by simp [Same])

theorem ends_pmuSnapshotTick (s : State) : Ends s (execPmuSnapshotTick s) := by
  unfold execPmuSnapshotTick
  repeat' split
  all_goals exact .same (by simp [Same])

theorem ends_pmuSaClr (who : Requester) (c half ports : Nat) (s : State) : Ends s (execPmuSaClr who c half ports s) := by
  unfold execPmuSaClr
  repeat' split
  all_goals exact .same (by simp [Same])

theorem ends_dmaGo (who : Requester) (chan : Nat) (s : State) : Ends s (execDmaGo who chan s) := by
  unfold execDmaGo
  exact .same (by simp [Same])

theorem ends_dmaStop (who : Requester) (chan : Nat) (go : Bool) (s : State) : Ends s (execDmaStop who chan go s) := by
  unfold execDmaStop
  exact .same (by simp [Same])

theorem ends_dmaPaceWrite (who : Requester) (chan : Nat) (req : Bool) (s : State) : Ends s (execDmaPaceWrite who chan req s) := by
  unfold execDmaPaceWrite
  exact .same (by simp [Same])

theorem ends_dmaShadowWrite (who : Requester) (chan : Nat) (reg : DmaReg) (value : Dword) (s : State) : Ends s (execDmaShadowWrite who chan reg value s) := by
  unfold execDmaShadowWrite
  exact .same (by simp [Same])

theorem ends_dmaPlacedBurst (c index : Nat) (ecc : Ecc) (word : Nat) (s : State) : Ends s (execDmaPlacedBurst c index ecc word s) := by
  unfold execDmaPlacedBurst
  dsimp only
  repeat' split
  all_goals exact .same (by simp [Same])

theorem ends_dmaBeBurst (c eng : Nat) (ecc : Ecc) (word : Nat) (s : State) : Ends s (execDmaBeBurst c eng ecc word s) := by
  unfold execDmaBeBurst
  repeat' split
  all_goals exact .same (by simp [Same])

theorem ends_dmaBurstEnd (c eng : Nat) (s : State) : Ends s (execDmaBurstEnd c eng s) := by
  unfold execDmaBurstEnd
  repeat' split
  all_goals exact .same (by simp [Same])

theorem ends_dmaListFetchDone (chan : Nat) (s : State) : Ends s (execDmaListFetchDone chan s) := by
  unfold execDmaListFetchDone
  dsimp only
  repeat' split
  all_goals exact .same (by simp [Same])

theorem ends_dmaXferComplete (chan : Nat) (s : State) : Ends s (execDmaXferComplete chan s) := by
  unfold execDmaXferComplete
  dsimp only
  repeat' split
  all_goals exact .same (by simp [Same])

theorem ends_leesRecordMake (s : State) : Ends s (execLeesRecordMake s) := by
  unfold execLeesRecordMake
  repeat' split
  all_goals exact .same (by simp [Same])

theorem ends_pinPulseEnd (s : State) : Ends s (execPinPulseEnd s) := by
  unfold execPinPulseEnd
  repeat' split
  all_goals exact .same (by simp [Same])

theorem ends_pinRearm (who : Requester) (s : State) : Ends s (execPinRearm who s) := by
  unfold execPinRearm
  exact .same (by simp [Same])

theorem ends_pinDriveWrite (who : Requester) (level : Bool) (s : State) : Ends s (execPinDriveWrite who level s) := by
  unfold execPinDriveWrite
  exact .same (by simp [Same])

theorem ends_pinModeWrite (who : Requester) (mode : Bool) (s : State) : Ends s (execPinModeWrite who mode s) := by
  unfold execPinModeWrite
  exact .same (by simp [Same])

theorem ends_logRdWrite (who : Requester) (lees : Bool) (rd : Nat) (s : State) : Ends s (execLogRdWrite who lees rd s) := by
  unfold execLogRdWrite
  repeat' split
  all_goals exact .same (by simp [Same])

theorem ends_intForceWrite (who : Requester) (page bits : Nat) (s : State) : Ends s (execIntForceWrite who page bits s) := by
  unfold execIntForceWrite
  repeat' split
  all_goals exact .same (by simp [Same])

theorem ends_fltForceWrite (who : Requester) (page bits : Nat) (s : State) : Ends s (execFltForceWrite who page bits s) := by
  unfold execFltForceWrite
  repeat' split
  all_goals exact .same (by simp [Same])

theorem ends_fltAckWrite (who : Requester) (page bits : Nat) (s : State) : Ends s (execFltAckWrite who page bits s) := by
  unfold execFltAckWrite
  repeat' split
  all_goals exact .same (by simp [Same])

theorem ends_mirRoleReceive (m role : Nat) (takeOk resyncReq : Bool) (vintage epoch : Nat) (s : State) : Ends s (execMirRoleReceive m role takeOk resyncReq vintage epoch s) := by
  unfold execMirRoleReceive
  repeat' split
  all_goals exact .same (by simp [Same])

theorem ends_mirArmreportReceive (m tick vintage : Nat) (s : State) : Ends s (execMirArmreportReceive m tick vintage s) := by
  unfold execMirArmreportReceive
  repeat' split
  all_goals exact .same (by simp [Same])

theorem ends_mirYieldReceive (m cause : Nat) (s : State) : Ends s (execMirYieldReceive m cause s) := by
  unfold execMirYieldReceive
  repeat' split
  all_goals exact .same (by simp [Same])

theorem ends_mirResyncMsgReceive (m : Nat) (ended : Bool) (s : State) : Ends s (execMirResyncMsgReceive m ended s) := by
  unfold execMirResyncMsgReceive
  repeat' split
  all_goals exact .same (by simp [Same])

theorem ends_mirCopyReceive (m : Nat) (body : MirRec) (s : State) : Ends s (execMirCopyReceive m body s) := by
  unfold execMirCopyReceive
  repeat' split
  all_goals exact .same (by simp [Same])

theorem ends_mirLedgerReceive (m : Nat) (body : MirRec) (s : State) : Ends s (execMirLedgerReceive m body s) := by
  unfold execMirLedgerReceive
  repeat' split
  all_goals exact .same (by simp [Same])

theorem ends_roleInterval (s : State) : Ends s (execRoleInterval s) := by
  unfold execRoleInterval
  repeat' split
  all_goals exact .same (by simp [Same])

theorem ends_seekTimeout (s : State) : Ends s (execSeekTimeout s) := by
  unfold execSeekTimeout
  repeat' split
  all_goals exact .same (by simp [Same])

theorem ends_ledgerEpochEnd (s : State) : Ends s (execLedgerEpochEnd s) := by
  unfold execLedgerEpochEnd
  repeat' split
  all_goals exact .same (by simp [Same])

theorem ends_heartbeatLoss (s : State) : Ends s (execHeartbeatLoss s) := by
  unfold execHeartbeatLoss
  repeat' split
  all_goals exact .same (by simp [Same])

theorem ends_hbOutToggle (s : State) : Ends s (execHbOutToggle s) := by
  unfold execHbOutToggle
  repeat' split
  all_goals exact .same (by simp [Same])

theorem ends_pairHbInEdge (level : Bool) (s : State) : Ends s (execPairHbInEdge level s) := by
  unfold execPairHbInEdge
  dsimp only
  repeat' split
  all_goals exact .same (by simp -implicitDefEqProofs [Same])

theorem ends_mirSwitchover (who : Requester) (s : State) : Ends s (execMirSwitchover who s) := by
  unfold execMirSwitchover
  exact .same (by simp [Same])

theorem ends_switchoverDrained (s : State) : Ends s (execSwitchoverDrained s) := by
  unfold execSwitchoverDrained
  repeat' split
  all_goals exact .same (by simp [Same])

theorem ends_mirTake (who : Requester) (s : State) : Ends s (execMirTake who s) := by
  unfold execMirTake
  exact .same (by simp [Same])

theorem ends_mirTakeForce (who : Requester) (s : State) : Ends s (execMirTakeForce who s) := by
  unfold execMirTakeForce
  exact .same (by simp [Same])

theorem ends_mirResyncCmd (who : Requester) (s : State) : Ends s (execMirResyncCmd who s) := by
  unfold execMirResyncCmd
  exact .same (by simp [Same])

theorem ends_mirBadCmd (who : Requester) (code : Nat) (s : State) : Ends s (execMirBadCmd who code s) := by
  unfold execMirBadCmd
  repeat' split
  all_goals exact .same (by simp [Same])

theorem ends_resyncBlockSend (s : State) : Ends s (execResyncBlockSend s) := by
  unfold execResyncBlockSend
  dsimp only
  repeat' split
  all_goals exact .same (by simp [Same])

theorem ends_resyncTimeout (s : State) : Ends s (execResyncTimeout s) := by
  unfold execResyncTimeout
  repeat' split
  all_goals exact .same (by simp [Same])

theorem ends_presenceConfirm (slot : Nat) (level ok : Bool) (s : State) : Ends s (execPresenceConfirm slot level ok s) := by
  unfold execPresenceConfirm
  repeat' split
  all_goals exact .same (by simp [Same])

theorem ends_rearmWindowEnd (slot : Nat) (s : State) : Ends s (execRearmWindowEnd slot s) := by
  unfold execRearmWindowEnd
  repeat' split
  all_goals exact .same (by simp [Same])

theorem ends_slotPowerControlWrite (port : Nat) (on ok : Bool) (s : State) : Ends s (execSlotPowerControlWrite port on ok s) := by
  unfold execSlotPowerControlWrite
  dsimp only
  repeat' split
  all_goals exact .same (by simp [Same])

theorem ends_prechgTimeout (slot : Nat) (s : State) : Ends s (execPrechgTimeout slot s) := by
  unfold execPrechgTimeout
  repeat' split
  all_goals exact .same (by simp [Same])

theorem ends_gateTimeout (slot : Nat) (ok : Bool) (s : State) : Ends s (execGateTimeout slot ok s) := by
  unfold execGateTimeout
  repeat' split
  all_goals exact .same (by simp [Same])

theorem ends_holdoffEnd (slot : Nat) (s : State) : Ends s (execHoldoffEnd slot s) := by
  unfold execHoldoffEnd
  repeat' split
  all_goals exact .same (by simp [Same])

theorem ends_perstReleaseTimer (slot : Nat) (s : State) : Ends s (execPerstReleaseTimer slot s) := by
  unfold execPerstReleaseTimer
  repeat' split
  all_goals exact .same (by simp [Same])

theorem ends_mainFetOpenDelay (slot : Nat) (s : State) : Ends s (execMainFetOpenDelay slot s) := by
  unfold execMainFetOpenDelay
  repeat' split
  all_goals exact .same (by simp [Same])

theorem ends_retryClearTimer (slot : Nat) (s : State) : Ends s (execRetryClearTimer slot s) := by
  unfold execRetryClearTimer
  repeat' split
  all_goals exact .same (by simp [Same])

theorem ends_feedSwitchBbmEnd (slot : Nat) (ok : Bool) (s : State) : Ends s (execFeedSwitchBbmEnd slot ok s) := by
  unfold execFeedSwitchBbmEnd
  repeat' split
  all_goals exact .same (by simp [Same])

theorem ends_feedReturnTimer (slot : Nat) (s : State) : Ends s (execFeedReturnTimer slot s) := by
  unfold execFeedReturnTimer
  dsimp only
  repeat' split
  all_goals exact .same (by simp [Same])

theorem ends_fruReadDone (slot : Nat) (fru : Option FruRead) (s : State) : Ends s (execFruReadDone slot fru s) := by
  unfold execFruReadDone
  repeat' split
  all_goals exact .same (by simp [Same])

theorem ends_lifeCountWritten (slot : Nat) (ok : Bool) (s : State) : Ends s (execLifeCountWritten slot ok s) := by
  unfold execLifeCountWritten
  repeat' split
  all_goals exact .same (by simp [Same])

theorem ends_slotOnHourWrite (slot : Nat) (ok : Bool) (s : State) : Ends s (execSlotOnHourWrite slot ok s) := by
  unfold execSlotOnHourWrite
  repeat' split
  all_goals exact .same (by simp [Same])

theorem ends_spcClrLatch (who : Requester) (slot : Nat) (s : State) : Ends s (execSpcClrLatch who slot s) := by
  unfold execSpcClrLatch
  repeat' split
  all_goals exact .same (by simp [Same])

theorem ends_spcService (who : Requester) (slot : Nat) (s : State) : Ends s (execSpcService who slot s) := by
  unfold execSpcService
  repeat' split
  all_goals exact .same (by simp [Same])

theorem ends_spcConnReset (who : Requester) (slot : Nat) (s : State) : Ends s (execSpcConnReset who slot s) := by
  unfold execSpcConnReset
  repeat' split
  all_goals exact .same (by simp [Same])

theorem ends_limderLinkFail (s : State) : Ends s (execLimderLinkFail s) := by
  unfold execLimderLinkFail
  repeat' split
  all_goals exact .same (by simp [Same])

theorem ends_limderLinkRestore (s : State) : Ends s (execLimderLinkRestore s) := by
  unfold execLimderLinkRestore
  repeat' split
  all_goals exact .same (by simp [Same])

theorem ends_getBook (bootNo start room : Nat) (s : State) : Ends s (execGetBook bootNo start room s) := by
  unfold execGetBook
  repeat' split
  all_goals exact .same (by simp [Same])

theorem ends_getNonce (s : State) : Ends s (execGetNonce s) := by
  unfold execGetNonce
  repeat' split
  all_goals exact .same (by simp [Same])

theorem ends_provisionOwner (blk : List Byte) (s : State) : Ends s (execProvisionOwner blk s) := by
  unfold execProvisionOwner
  exact .same (by simp [Same])

theorem ends_revokeOwner (blk : List Byte) (s : State) : Ends s (execRevokeOwner blk s) := by
  unfold execRevokeOwner
  exact .same (by simp [Same])

theorem ends_provisionDbgauth (blk : List Byte) (s : State) : Ends s (execProvisionDbgauth blk s) := by
  unfold execProvisionDbgauth
  exact .same (by simp [Same])

theorem ends_revokeDbgauth (blk : List Byte) (s : State) : Ends s (execRevokeDbgauth blk s) := by
  unfold execRevokeDbgauth
  exact .same (by simp [Same])

theorem ends_commitSvn (blk : List Byte) (s : State) : Ends s (execCommitSvn blk s) := by
  unfold execCommitSvn
  exact .same (by simp [Same])

theorem ends_bootsts (s : State) : Ends s (execBootsts s) := by
  unfold execBootsts
  exact .same (by simp [Same])

theorem ends_spdmRequest (req : SpdmReq) (s : State) : Ends s (execSpdmRequest req s) := by
  unfold execSpdmRequest
  dsimp only
  repeat' split
  all_goals exact .same (by simp [Same])

theorem ends_checkpointTimer (s : State) : Ends s (execCheckpointTimer s) := by
  unfold execCheckpointTimer
  repeat' split
  all_goals exact .same (by simp [Same])

theorem ends_checkpointMade (s : State) : Ends s (execCheckpointMade s) := by
  unfold execCheckpointMade
  repeat' split
  all_goals exact .same (by simp [Same])

theorem ends_attestOutcome (port : Nat) (reply : Option AttReply) (s : State) : Ends s (execAttestOutcome port reply s) := by
  unfold execAttestOutcome
  repeat' split
  all_goals exact .same (by simp [Same])

theorem ends_attestTimeout (port : Nat) (s : State) : Ends s (execAttestTimeout port s) := by
  unfold execAttestTimeout
  repeat' split
  all_goals exact .same (by simp [Same])

theorem ends_truAttRedo (who : Requester) (port : Nat) (s : State) : Ends s (execTruAttRedo who port s) := by
  unfold execTruAttRedo
  exact .same (by simp [Same])

theorem ends_ageDiscard (who : Requester) (s : State) : Ends s (execAgeDiscard who s) := by
  unfold execAgeDiscard
  exact .same (by simp [Same])

theorem ends_ageScanNow (who : Requester) (port : Nat) (s : State) : Ends s (execAgeScanNow who port s) := by
  unfold execAgeScanNow
  exact .same (by simp [Same])

theorem ends_ageLdataRead (who : Requester) (s : State) : Ends s (execAgeLdataRead who s) := by
  unfold execAgeLdataRead
  exact .same (by simp [Same])

theorem ends_cellarHoldReq (who : Requester) (c : Nat) (s : State) : Ends s (execCellarHoldReq who c s) := by
  unfold execCellarHoldReq
  repeat' split
  all_goals exact .same (by simp [Same])

theorem ends_cellarGateReq (who : Requester) (c : Nat) (s : State) : Ends s (execCellarGateReq who c s) := by
  unfold execCellarGateReq
  repeat' split
  all_goals exact .same (by simp [Same])

theorem ends_cellarRunReq (who : Requester) (c : Nat) (s : State) : Ends s (execCellarRunReq who c s) := by
  unfold execCellarRunReq
  repeat' split
  all_goals exact .same (by simp [Same])

theorem ends_cellarModeReached (c : Nat) (s : State) : Ends s (execCellarModeReached c s) := by
  unfold execCellarModeReached
  repeat' split
  all_goals exact .same (by simp [Same])

theorem ends_partnerL0pL1Request (port : Nat) (low : Bool) (s : State) : Ends s (execPartnerL0pL1Request port low s) := by
  unfold execPartnerL0pL1Request
  repeat' split
  all_goals exact .same (by simp [Same])

theorem ends_powerUpResetEnd (s : State) : Ends s (execPowerUpResetEnd s) := by
  unfold execPowerUpResetEnd
  repeat' split
  all_goals exact .same (by simp [Same])

theorem ends_rstCmdMgmt (who : Requester) (s : State) : Ends s (execRstCmdMgmt who s) := by
  unfold execRstCmdMgmt
  exact .same (by simp [Same])

theorem ends_mgmtWatchdogExpire (s : State) : Ends s (execMgmtWatchdogExpire s) := by
  unfold execMgmtWatchdogExpire
  exact .same (by simp [Same])

theorem ends_firmwareActivate (s : State) : Ends s (execFirmwareActivate s) := by
  unfold execFirmwareActivate
  repeat' split
  all_goals exact .same (by simp [Same])

theorem ends_managementComplexRelease (copyA copyB : Option FwCopy) (s : State) : Ends s (execManagementComplexRelease copyA copyB s) := by
  unfold execManagementComplexRelease
  dsimp only
  repeat' split
  all_goals exact .same (by simp [Same])

theorem ends_rstPartGo (who : Requester) (part : Nat) (s : State) : Ends s (execRstPartGo who part s) := by
  unfold execRstPartGo
  repeat' split
  all_goals exact .same (by simp [Same])

theorem ends_partResetBusyEnd (part : Nat) (s : State) : Ends s (execPartResetBusyEnd part s) := by
  unfold execPartResetBusyEnd
  dsimp only
  repeat' split
  all_goals exact .same (by simp -implicitDefEqProofs [Same])

theorem ends_pllUnlock (s : State) : Ends s (execPllUnlock s) := by
  unfold execPllUnlock
  repeat' split
  all_goals exact .same (by simp [Same])

theorem ends_pllRelock (s : State) : Ends s (execPllRelock s) := by
  unfold execPllRelock
  repeat' split
  all_goals exact .same (by simp [Same])

theorem ends_tsrcLostTimeout (s : State) : Ends s (execTsrcLostTimeout s) := by
  unfold execTsrcLostTimeout
  repeat' split
  all_goals exact .same (by simp [Same])

theorem ends_powerGateReq (who : Requester) (d : Nat) (s : State) : Ends s (execPowerGateReq who d s) := by
  unfold execPowerGateReq
  repeat' split
  all_goals exact .same (by simp [Same])

theorem ends_powerWakeReq (who : Requester) (d : Nat) (s : State) : Ends s (execPowerWakeReq who d s) := by
  unfold execPowerWakeReq
  repeat' split
  all_goals exact .same (by simp [Same])

theorem ends_powerDomainGated (d : Nat) (s : State) : Ends s (execPowerDomainGated d s) := by
  unfold execPowerDomainGated
  repeat' split
  all_goals exact .same (by simp [Same])

theorem ends_powerDomainWoken (d : Nat) (s : State) : Ends s (execPowerDomainWoken d s) := by
  unfold execPowerDomainWoken
  repeat' split
  all_goals exact .same (by simp [Same])

theorem ends_monitorSample (mons : List (Nat × Nat)) (s : State) : Ends s (execMonitorSample mons s) := by
  unfold execMonitorSample
  exact .same (by simp [Same])

theorem ends_rcRead (who : Requester) (off : Nat) (wide : Bool) (s : State) : Ends s (execRcRead who off wide s) := by
  unfold execRcRead
  dsimp only
  repeat' split
  all_goals exact .same (by simp [Same])

theorem ends_lowWordRead (who : Requester) (off : Nat) (s : State) : Ends s (execLowWordRead who off s) := by
  unfold execLowWordRead
  dsimp only
  repeat' split
  all_goals exact .same (by simp [Same])

theorem ends_pageLockWrite (who : Requester) (page : Nat) (s : State) : Ends s (execPageLockWrite who page s) := by
  unfold execPageLockWrite
  repeat' split
  all_goals exact .same (by simp [Same])

theorem ends_glbSealWrite (who : Requester) (s : State) : Ends s (execGlbSealWrite who s) := by
  unfold execGlbSealWrite
  exact .same (by simp [Same])

theorem ends_fenceComplete (index : Nat) (s : State) : Ends s (execFenceComplete index s) := by
  unfold execFenceComplete
  repeat' split
  all_goals exact .same (by simp [Same])

theorem ends_tlpReceive (port : Nat) (tlp : Tlp) (acc : List Nat) (ideFail bad : Bool) (s : State) : Ends s (execTlpReceive port tlp acc ideFail bad s) := by
  unfold execTlpReceive
  dsimp only
  repeat' split
  all_goals exact .same (by simp [Same])

theorem ends_completionReceive (port : Nat) (tlp : Tlp) (acc : List Nat) (ended : TlpEnd) (s : State) : Ends s (execCompletionReceive port tlp acc ended s) := by
  unfold execCompletionReceive
  dsimp only
  repeat' split
  all_goals exact .same (by simp [Same])

theorem ends_mctpReceive (body : List Byte) (s : State) : Ends s (execMctpReceive body s) := by
  unfold execMctpReceive
  repeat' split
  all_goals exact .same (by simp [Same])

theorem ends_bridgeConfigWrite (port : Nat) (reg : CfgReg) (value : Nat) (s : State) : Ends s (execBridgeConfigWrite port reg value s) := by
  unfold execBridgeConfigWrite
  repeat' split
  all_goals exact .same (by simp [Same])

theorem ends_tackReceive (port : Nat) (hdr : FabHdr) (entries : List TackEntry) (s : State) : Ends s (execTackReceive port hdr entries s) := by
  unfold execTackReceive
  dsimp only
  repeat' split
  all_goals exact .same (by simp [Same])

theorem ends_ttuWalkReadDone (walk : Nat) (ecc : Ecc) (s : State) : Ends s (execTtuWalkReadDone walk ecc s) := by
  unfold execTtuWalkReadDone
  repeat' split
  all_goals exact .same (by simp [Same])

theorem ends_winRouteWrite (who : Requester) (w : Nat) (value : Word) (s : State) : Ends s (execWinRouteWrite who w value s) := by
  unfold execWinRouteWrite
  extract_lets off
  have h : Ends s (s.withAccess who off 4 true fun t => t.winRoute w value).done := .same (same_withAccess _ _ _ _ _ _ fun t => same_winRoute ..)
  split
  · exact .fault
  · exact h
  · exact h

theorem ends_armedSwap (s : State) : Ends s (execArmedSwap s) := by
  unfold execArmedSwap
  split
  · exact .of (.refl s)
  refine .ite (.of (.refl s)) ?_
  split
  · exact .of (.refl s)
  refine .ite (.same (same_armAbort ..)) (.ite (.same (same_armAbort ..)) ?_)
  split
  · exact .fault
  · exact .same (same_armedSwap ..)

theorem ends_fallbackSwap (s : State) : Ends s (execFallbackSwap s) := by
  unfold execFallbackSwap
  split
  · exact .of (.refl s)
  refine .ite (.of (.refl s)) ?_
  split
  · exact .of (.refl s)
  split
  · exact .fault
  · exact .same (same_fallbackSwap ..)

theorem ends_lnkRetrain (who : Requester) (port : Nat) (s : State) : Ends s (execLnkRetrain who port s) := by
  refine .same (same_withAccess _ _ _ _ _ _ fun t => ?_)
  split
  · exact ⟨rfl, rfl⟩
  · exact same_retrainSame ..

theorem ends_lnkRestore (who : Requester) (port : Nat) (s : State) : Ends s (execLnkRestore who port s) := by
  refine .same (same_withAccess _ _ _ _ _ _ fun t => ?_)
  split
  · exact ⟨rfl, rfl⟩
  · exact (same_setCap ..).trans (same_retrainSame ..)

theorem ends_pmuGsnapGo (who : Requester) (c : Nat) (s : State) : Ends s (execPmuGsnapGo who c s) := by
  refine .ite (.of (.refl s)) (.same (same_withAccess _ _ _ _ _ _ fun t => ?_))
  split <;> exact ⟨rfl, rfl⟩

theorem ends_vfEnableChange (part : Nat) (enable : Bool) (num : Nat) (s : State) : Ends s (execVfEnableChange part enable num s) := by
  unfold execVfEnableChange
  extract_lets fresh
  refine .ite (.ite .fault (.same ?_)) (.of (.refl s))
  exact (same_vfChange ..).each fun t i => same_each _ same_fetchNext t

theorem ends_slotSample (va vb : Nat) (meas : List SlotMeas) (ok : Bool) (s : State) : Ends s (execSlotSample va vb meas ok s) :=
  .ite (.of (.refl s)) (.ite .fault (.same (same_spcSample ..)))

theorem ends_timeSample (ptm : Option (Nat × Nat)) (s : State) : Ends s (execTimeSample ptm s) := by
  unfold execTimeSample
  refine .ite .fault ?_
  split
  · exact .of (.refl s)
  · exact .same (same_timeApply ..)

theorem ends_ptmInterval (s : State) : Ends s (execPtmInterval s) := by
  unfold execPtmInterval
  split
  · exact .ite .fault (.ite (.same ⟨rfl, rfl⟩) (.of (.refl s)))
  all_goals exact .of (.refl s)

theorem ends_fabricPacketReceive (port : Nat) (hdr : FabHdr) (tlp : Tlp) (s : State) : Ends s (execFabricPacketReceive port hdr tlp s) := by
  unfold execFabricPacketReceive
  extract_lets n
  refine .ite (.of (.refl s)) (.ite .fault ?_)
  rcases e : s.takeWhole port with ⟨s0, acc⟩
  have h0 : Same s s0 := by simpa only [e] using same_takeWhole s port
  dsimp -zeta only
  extract_lets s1 s2
  have h1 : Same s s1 := h0.trans (same_acceptCells ..)
  have h2 : Same s s2 := h1.trans (same_fabricPacket ..)
  refine .same ?_
  split
  · exact h2
  · exact h2.trans (same_freeIngress ..)

/-! ### Commands that write HBM or the boot flash -/

theorem ends_ageApply (who : Requester) (s : State) : Ends s (execAgeApply who s) := .of (canon_withAccess _ _ _ _ _ canon_ageApply)

theorem ends_ageMonthlyRecord (ok : Bool) (s : State) : Ends s (execAgeMonthlyRecord ok s) := by
  unfold execAgeMonthlyRecord
  extract_lets s1
  have h1 : Canon s s1 := (same_modAge ..).canon
  refine .ite (.of (.refl s)) (.ite (.of (h1.same (same_fire ..))) (.of (h1.each fun t c => ?_)))
  split <;> exact canon_ageLog ..

theorem ends_ageStateHourly (ok : Bool) (s : State) : Ends s (execAgeStateHourly ok s) := by
  unfold execAgeStateHourly
  extract_lets s1
  have h1 : Canon s s1 := (same_modAge ..).canon
  exact .ite (.of (.refl s)) (.ite (.of (h1.trans (canon_ageBlock s1))) (.of (h1.same (same_fire ..))))

theorem ends_ageUnretire (who : Requester) (lane : Nat) (s : State) : Ends s (execAgeUnretire who lane s) :=
  .of (canon_withAccess _ _ _ _ _ fun t => canon_ageUnretire t lane)

theorem ends_avsTargetWrite (who : Requester) (mv : Nat) (s : State) : Ends s (execAvsTargetWrite who mv s) :=
  .of (canon_withAccess _ _ _ _ _ fun _ => canon_avsWrite ..)

theorem ends_bar2WriteCommit (s : State) : Ends s (execBar2WriteCommit s) := by
  unfold execBar2WriteCommit
  split
  · exact .of (.refl s)
  · extract_lets s1 s2
    have h1 : Canon s s1 := ⟨fun h => h, fun h => h⟩
    have h2 : Canon s s2 := .ite (h1.trans (canon_hbmCommit ..)) (h1.trans (canon_hbmWrite ..))
    exact .of (h2.same (same_writeDone ..))

theorem ends_bookFlashWritten (ok : Bool) (s : State) : Ends s (execBookFlashWritten ok s) :=
  .ite (.of (.refl s)) (.ite (.of (canon_bookStore s)) (.same (same_fire ..)))

theorem ends_bootStepDone (info : BootInfo) (s : State) : Ends s (execBootStepDone info s) := by
  unfold execBootStepDone
  refine .ite ?_ (.of (canon_bootStep ..))
  split
  · exact .fault
  · exact .of (canon_bootStep ..)

theorem ends_dbgtoken (token : List Byte) (s : State) : Ends s (execDbgtoken token s) := .of (canon_tokenPresent ..)

theorem ends_debugPortAccess (off : Nat) (wide : Bool) (data : Option Dword) (s : State) : Ends s (execDebugPortAccess off wide data s) := by
  unfold execDebugPortAccess
  extract_lets n
  split
  · exact .access (canon_busWrite ..)
  · exact .same ((same_busRead ..).trans (same_emit ..))

theorem ends_debugToken (token : List Byte) (s : State) : Ends s (execDebugToken token s) :=
  .ite (.of ((canon_tokenPresent ..).same (same_emit ..))) (.of (.refl s))

theorem ends_fflFlitDecide (port : Nat) (flit : List Byte) (s : State) : Ends s (execFflFlitDecide port flit s) := by
  unfold execFflFlitDecide
  extract_lets src s1
  have h1 : Canon s s1 := .ite ⟨fun h => h, fun h => h⟩ (.refl s)
  exact .ite (.of (h1.trans (canon_flitDecide ..))) (.of h1)

theorem ends_flashprog (addr : Nat) (op : FlashOp) (s : State) : Ends s (execFlashprog addr op s) := by
  unfold execFlashprog
  refine .ite (.of (.refl s)) ?_
  split
  · exact .same (same_emit ..)
  · exact .ite (.of ((canon_flashWrite ..).same (same_flashTaint ..))) (.of (.refl s))
  · exact .of ((canon_flashErase ..).same (same_flashTaint ..))

theorem ends_ingressOrderPass (ing cls : Nat) (s : State) : Ends s (execIngressOrderPass ing cls s) := by
  unfold execIngressOrderPass
  refine .ite (.of (.refl s)) ?_
  split
  · exact .of (.refl s)
  · exact .access (canon_ingressPass ..)

theorem ends_laneErrorEvent (lane : Nat) (ev : LaneEvent) (s : State) : Ends s (execLaneErrorEvent lane ev s) := by
  unfold execLaneErrorEvent
  split
  · exact .of (.refl s)
  refine .ite (.of (.refl s)) ?_
  cases ev
  case symbols | flit | framing => exact .of (canon_laneCharge ..)
  case lockLost => exact .ite (.of (canon_laneLoses ..)) (.of (.refl s))
  case linkLost => exact .same (same_linkLoses ..)
  case lockBack => exact .ite (.same ((same_setLock ..).trans (same_modPort ..))) (.of (.refl s))
  case uncharged => exact .ite (.same (same_modPort ..)) (.of (.refl s))

theorem ends_laneRetireWrite (who : Requester) (c lanes : Nat) (s : State) : Ends s (execLaneRetireWrite who c lanes s) :=
  .ite (.of (canon_withAccess _ _ _ _ _ (canon_each _ fun _ _ => canon_retireLane ..)))
    (.of (canon_withAccess _ _ _ _ _ (canon_each _ fun _ _ => canon_retireLane ..)))

theorem ends_marginScanDone (port : Nat) (lanes : Option (List LaneEye)) (s : State) : Ends s (execMarginScanDone port lanes s) :=
  .ite (.of (canon_scanDone ..)) (.of (.refl s))

theorem ends_mirBlockReceive (m : Nat) (body : MirRec) (s : State) : Ends s (execMirBlockReceive m body s) :=
  .ite (.of (.refl s)) (.of (((same_heardFrom s).canon.trans (canon_blockArrives ..)).same (same_oweCredit ..)))

theorem ends_mirCommitReceive (m : Nat) (body : MirRec) (s : State) : Ends s (execMirCommitReceive m body s) :=
  .ite (.of (.refl s)) (.of (((same_heardFrom s).canon.trans (canon_commitArrives ..)).same (same_oweCredit ..)))

theorem ends_plannerPass (s : State) : Ends s (execPlannerPass s) :=
  .ite (.of (.refl s)) (.ite .fault (.of (canon_passStart s)))

theorem ends_portL0Entry (port rate width : Nat) (low cxl rev : Bool) (failed : List Nat) (s : State) :
    Ends s (execPortL0Entry port rate width low cxl rev failed s) :=
  .ite (.of (canon_l0Entry ..)) (.of (.refl s))

theorem ends_registerWrite (who : Requester) (off : Nat) (wide : Bool) (be : Nat) (data : Dword) (s : State) :
    Ends s (execRegisterWrite who off wide be data s) := by
  unfold execRegisterWrite
  extract_lets n bs named
  refine .ite (.of (.refl s)) ?_
  rcases e : s.guardBytes who off (if named.isEmpty then [off] else named) true with ⟨s1, ok⟩
  have h1 : Canon s s1 := (same_guardBytes ..).canon.fst e
  exact .ite (.of h1) (.access (h1.trans (canon_busWrite ..)))

theorem ends_schLoadDone (slot : Nat) (s : State) : Ends s (execSchLoadDone slot s) := by
  unfold execSchLoadDone
  split
  · exact .of (.refl s)
  · exact .ite (.of (.refl s)) (.of (canon_loadDone ..))

theorem ends_swEntryCommit (index : Nat) (ecc : Ecc) (s : State) : Ends s (execSwEntryCommit index ecc s) := by
  unfold execSwEntryCommit
  split
  · exact .of (.refl s)
  extract_lets a1 a2 s1 s2 s3
  have ha1 : Canon s a1 := ⟨fun h => h, fun h => h⟩
  have ha2 : Canon s a2 := ha1.onlyIf fun t => (same_fire ..).canon
  have h1 : Canon s s1 := Canon.onlyIf (.refl s) fun t => (same_fire ..).canon
  have h2 : Canon s s2 := h1.same ⟨rfl, rfl⟩
  have h3 : Canon s s3 := (h2.trans (canon_swWrite ..)).same (same_writeDone ..)
  exact .ite (.of (.refl s)) (.ite (.of (ha2.same (same_writeLost ..))) (.of (h3.onlyIf fun t => (same_packetOut ..).canon)))

theorem ends_swSerialize (index : Nat) (ecc : Ecc) (s : State) : Ends s (execSwSerialize index ecc s) := by
  unfold execSwSerialize
  split
  · exact .of (.refl s)
  · exact .ite (.of ((canon_swSerialize ..).same (same_packetOut ..))) (.ite (.same ((same_addF ..).trans (same_modPacket ..))) (.of (.refl s)))

theorem ends_traceRecordWrite (c : Nat) (s : State) : Ends s (execTraceRecordWrite c s) := by
  unfold execTraceRecordWrite
  split
  · exact .of (.refl s)
  extract_lets s1
  have h1 : Canon s s1 := ⟨fun h => h, fun h => h⟩
  exact .ite (.of (.refl s)) (.ite (.of h1) (.ite .fault (.of (h1.trans (canon_ringWrite ..)))))

/-! ### Resets and supply -/

theorem ends_pllLockTimeout (s : State) : Ends s (execPllLockTimeout s) := .ite (.of (canon_powerUp ..)) (.of (.refl s))

theorem ends_qporNAssert (s : State) : Ends s (execQporNAssert s) := .of (canon_powerUp ..)

theorem ends_vddAonRise (s : State) : Ends s (execVddAonRise s) := .of (canon_powerUp ..)

theorem ends_qwarmNAssert (s : State) : Ends s (execQwarmNAssert s) := .of (canon_warmRequest ..)

theorem ends_rstCmdWarm (who : Requester) (s : State) : Ends s (execRstCmdWarm who s) :=
  .of (canon_withAccess _ _ _ _ _ fun _ => canon_warmRequest ..)

theorem ends_warmResetStart (s : State) : Ends s (execWarmResetStart s) := by
  unfold execWarmResetStart
  split
  · exact .of (.refl s)
  · exact .ite (.of (canon_warmReset ..)) (.of (.refl s))

theorem ends_supplySample (core : Nat) (rails : List (Nat × Nat)) (s : State) : Ends s (execSupplySample core rails s) :=
  .ite (.of (.refl s)) (.of (canon_supplySample ..))

theorem ends_supplyWarnEnd (s : State) : Ends s (execSupplyWarnEnd s) := .of (canon_supplyOver s)

end Sys2Proof.Memories
end

section
/-! ## Every step keeps HBM and the boot flash canonical (O6) -/

namespace Sys2Proof.Memories

open Sys2Proof Sys2Proof.Machine Sys2Proof.Laws

/-! ### The tick -/

theorem same_yieldEnd (s : State) : Same s s.yieldEnd := by
  unfold State.yieldEnd
  split
  · extract_lets s1 m
    have h1 : Same s s1 := same_yieldDrop s
    clear_value s1
    exact h1
  · exact ⟨rfl, rfl⟩

theorem same_evtCapture (s : State) (l : List (Nat × Nat)) (a b : Nat) : Same s (s.evtCapture l a b) := by
  unfold State.evtCapture
  split
  · exact ⟨rfl, rfl⟩
  · extract_lets e s1
    have h1 : Same s s1 := (same_setFlag ..).trans (same_setF ..)
    exact h1.trans (((same_setF ..).trans (same_setF ..)).trans (same_setF ..))

theorem same_sendSwapTick (s : State) (l : List (Nat × Nat)) (a b : Nat) : Same s (s.sendSwapTick l a b) :=
  same_each _ (fun _ _ => same_ctrlAdd ..) s

theorem same_select (s : State) (l : List (Nat × Nat)) : Same s (s.select l) := by
  unfold State.select
  split
  · exact ⟨rfl, rfl⟩
  · extract_lets cur cls replan tick s1 d
    have h1 : Same s s1 := (same_setF ..).trans (same_schFire ..)
    clear_value s1
    have hr : Same s (replan s) := same_each _ (fun t b => same_schFire ..) s
    split
    · exact same_evtCapture ..
    split
    · exact hr.trans (same_evtCapture ..)
    split
    · exact hr.trans (same_evtCapture ..)
    next rank i _ =>
      extract_lets home s2 s3
      have h2 : Same s s2 := h1.trans ⟨rfl, rfl⟩
      have h3 : Same s s3 := h2.trans (same_evtCapture ..)
      exact h3.trans (same_sendSwapTick ..)

theorem same_holdCredit (s : State) (p c n h u : Nat) : Same s (s.holdCredit p c n h u) :=
  (Same.onlyIf ⟨rfl, rfl⟩ fun _ => (same_addF ..).trans (same_setHold ..)).trans (same_modPort ..)

theorem same_cutBucket (s : State) (p : Nat) (f g : FRef) (i : Nat) : Same s (s.cutBucket p f g i) := by
  unfold State.cutBucket
  extract_lets b
  split
  · exact ⟨rfl, rfl⟩
  · exact same_setF ..

theorem same_cutNow (s : State) (x : Nat × Nat) : Same s (s.cutNow x) := by
  unfold State.cutNow
  extract_lets pg o c i p
  split
  · exact same_modChan ..
  split
  · exact same_cutBucket ..
  split
  · exact same_setF ..
  · exact same_cutBucket ..

theorem same_selectEnd (s : State) : Same s s.selectEnd := by
  unfold State.selectEnd
  split
  · exact ⟨rfl, rfl⟩
  · extract_lets evs d s1 s2 d2
    have h1 : Same s s1 := ⟨rfl, rfl⟩
    split
    · exact h1
    split
    · exact h1.trans (same_select ..)
    split
    · exact h1
    split
    · exact h1.trans (same_select ..)
    split
    · have h2 : Same s s2 := h1.trans (same_setF ..)
      clear_value s2
      exact (h2.trans ⟨rfl, rfl⟩).trans (same_select ..)
    · exact ⟨rfl, rfl⟩

theorem same_endFreed (s : State) : Same s s.endFreed := by
  unfold State.endFreed
  split
  · exact ⟨rfl, rfl⟩
  · refine Same.trans ⟨rfl, rfl⟩ (same_each _ (fun t x => ?_) _)
    split
    · exact same_holdCredit ..
    · exact same_giveCredit ..

theorem same_relMark (s : State) : Same s s.relMark := ⟨rfl, rfl⟩

theorem same_settle (s : State) : Same s s.settle := ⟨settle_hbm s, settle_flash s⟩

theorem same_cutsNow (s : State) : Same s s.cutsNow := by
  unfold State.cutsNow
  split
  · exact ⟨rfl, rfl⟩
  · exact Same.trans ⟨rfl, rfl⟩ (same_each _ same_cutNow _)

theorem same_pmuTick (s : State) : Same s s.pmuTick :=
  Same.trans ⟨rfl, rfl⟩ (same_each _ (fun t _ => same_each _ (fun _ _ => same_setF ..) t) _)

theorem same_refillShaper (s : State) (x : Nat × Nat) : Same s (s.refillShaper x) := by
  unfold State.refillShaper
  split
  · exact same_setF ..
  · exact ⟨rfl, rfl⟩

theorem same_refillPolicer (s : State) (x : Nat × Nat) : Same s (s.refillPolicer x) := by
  unfold State.refillPolicer
  split
  · exact same_setF ..
  · exact ⟨rfl, rfl⟩

theorem same_refillChannel (s : State) (x : Nat × Nat) : Same s (s.refillChannel x) := by
  unfold State.refillChannel
  split
  · exact same_modChan ..
  · exact ⟨rfl, rfl⟩

theorem same_refillAll (s : State) : Same s s.refillAll :=
  ((same_each _ same_refillShaper s).each same_refillPolicer).each same_refillChannel

theorem same_dueDebits (s : State) : Same s s.dueDebits := by
  unfold State.dueDebits
  split
  · exact ⟨rfl, rfl⟩
  · exact Same.trans ⟨rfl, rfl⟩ (same_each _ (fun t x => Same.onlyIf (same_polDebit ..) fun u => same_count ..) _)

theorem same_tickCounts (s : State) (c : Nat) : Same s (s.tickCounts c) := by
  unfold State.tickCounts
  split
  · exact ⟨rfl, rfl⟩
  · exact ((same_count ..).trans (same_count ..)).each fun t p => same_count ..

theorem same_tickOffline (s : State) (p : Nat) : Same s (s.tickOffline p) := by
  unfold State.tickOffline
  split
  · exact same_addF ..
  · exact ⟨rfl, rfl⟩

theorem same_tickCellar (s : State) (c : Nat) : Same s (s.tickCellar c) := by
  unfold State.tickCellar
  split
  · exact (same_tickCounts ..).each same_tickOffline
  · exact ⟨rfl, rfl⟩

theorem same_snapStart (s : State) : Same s s.snapStart := ⟨rfl, rfl⟩

theorem same_schedTick (s : State) : Same s s.schedTick := by
  unfold State.schedTick
  extract_lets s1 s0
  have h1 : Same s s1 :=
    ((((same_yieldEnd s).trans (same_selectEnd _)).trans (same_endFreed _)).trans (same_relMark _)).trans (same_settle _)
  clear_value s1
  have h0 : Same s s0 := h1.trans ⟨rfl, rfl⟩
  exact ((((h0.trans (same_cutsNow s0)).trans (same_pmuTick _)).trans (same_refillAll _)).trans (same_dueDebits _)).each same_tickCellar
    |>.trans (same_snapStart _)

theorem same_tick (s : State) : Same s s.tick := by
  unfold State.tick
  extract_lets s0
  split
  · exact Same.trans (b := s0) ⟨rfl, rfl⟩ (same_schedTick s0)
  · exact ⟨rfl, rfl⟩

/-! ### Every step -/

/-- Every command keeps HBM and the boot flash canonical. -/
theorem ends_exec (c : Instr) (s : State) : Ends s (exec c s) :=
  match c with
  | .cellarHoldReq .. => ends_cellarHoldReq ..
  | .cellarGateReq .. => ends_cellarGateReq ..
  | .cellarRunReq .. => ends_cellarRunReq ..
  | .cellarModeReached .. => ends_cellarModeReached ..
  | .registerWrite .. => ends_registerWrite ..
  | .rcRead .. => ends_rcRead ..
  | .lowWordRead .. => ends_lowWordRead ..
  | .pageLockWrite .. => ends_pageLockWrite ..
  | .glbSealWrite .. => ends_glbSealWrite ..
  | .intForceWrite .. => ends_intForceWrite ..
  | .fltForceWrite .. => ends_fltForceWrite ..
  | .fltAckWrite .. => ends_fltAckWrite ..
  | .tlpReceive .. => ends_tlpReceive ..
  | .completionReceive .. => ends_completionReceive ..
  | .mctpReceive .. => ends_mctpReceive ..
  | .bridgeConfigWrite .. => ends_bridgeConfigWrite ..
  | .secondaryBusReset .. => ends_secondaryBusReset ..
  | .winFieldWrite .. => ends_winFieldWrite ..
  | .winRouteWrite .. => ends_winRouteWrite ..
  | .fwdEptDataAccess .. => ends_fwdEptDataAccess ..
  | .ingressOrderPass .. => ends_ingressOrderPass ..
  | .spineSlot .. => ends_spineSlot ..
  | .cellEgressArrive .. => ends_cellEgressArrive ..
  | .flitPeriodStart .. => ends_flitPeriodStart ..
  | .nonflitStartOpportunity .. => ends_nonflitStartOpportunity ..
  | .repairItemDue .. => ends_repairItemDue ..
  | .repairWaitExpire .. => ends_repairWaitExpire ..
  | .tlpDllAck .. => ends_tlpDllAck ..
  | .fcUpdateReceive .. => ends_fcUpdateReceive ..
  | .policerRelease .. => ends_policerRelease ..
  | .shaperParamWrite .. => ends_shaperParamWrite ..
  | .queueSnapshot .. => ends_queueSnapshot ..
  | .queueStallDetect .. => ends_queueStallDetect ..
  | .spillPlacedBurst .. => ends_spillPlacedBurst ..
  | .spillBeBurst .. => ends_spillBeBurst ..
  | .spillBurstDone .. => ends_spillBurstDone ..
  | .schLoad .. => ends_schLoad ..
  | .schLoadDone .. => ends_schLoadDone ..
  | .loadCompletionTimeout => ends_loadCompletionTimeout ..
  | .schHold .. => ends_schHold ..
  | .schRelease .. => ends_schRelease ..
  | .schArm .. => ends_schArm ..
  | .shadowFillDone => ends_shadowFillDone ..
  | .schDisarm .. => ends_schDisarm ..
  | .schBadCmd .. => ends_schBadCmd ..
  | .armPairCheck => ends_armPairCheck ..
  | .armedSwap => ends_armedSwap ..
  | .fallbackSwap => ends_fallbackSwap ..
  | .laneErrorEvent .. => ends_laneErrorEvent ..
  | .laneScoreDecay => ends_laneScoreDecay ..
  | .laneRetireWrite .. => ends_laneRetireWrite ..
  | .lnkRetrain .. => ends_lnkRetrain ..
  | .lnkRestore .. => ends_lnkRestore ..
  | .lnkDisableSet .. => ends_lnkDisableSet ..
  | .lnkDisableClear .. => ends_lnkDisableClear ..
  | .portRecoveryEntry .. => ends_portRecoveryEntry ..
  | .portL0Entry .. => ends_portL0Entry ..
  | .derateWindowEnd .. => ends_derateWindowEnd ..
  | .dlDown .. => ends_dlDown ..
  | .lockLossTimeout .. => ends_lockLossTimeout ..
  | .linkDownCleanupDone .. => ends_linkDownCleanupDone ..
  | .dpcTrigger .. => ends_dpcTrigger ..
  | .dpcExit .. => ends_dpcExit ..
  | .hotResetReceived .. => ends_hotResetReceived ..
  | .fflFlitDecide .. => ends_fflFlitDecide ..
  | .fflCreditReceive .. => ends_fflCreditReceive ..
  | .fflNakReceive .. => ends_fflNakReceive ..
  | .fflHelloReceive _ _ _ _ w _ => ends_fflHelloReceive (width := w) ..
  | .fflLinkreqReceive .. => ends_fflLinkreqReceive ..
  | .fflLinkgoReceive .. => ends_fflLinkgoReceive ..
  | .fflTimeReqReceive .. => ends_fflTimeReqReceive ..
  | .fflTimeRspReceive .. => ends_fflTimeRspReceive ..
  | .fflSwaptickReceive _ _ _ c _ => ends_fflSwaptickReceive (cls := c) ..
  | .fflMctpReceive .. => ends_fflMctpReceive ..
  | .fflReplayTimeout .. => ends_fflReplayTimeout ..
  | .fflHelloInterval .. => ends_fflHelloInterval ..
  | .fflHelloTimeout .. => ends_fflHelloTimeout ..
  | .fflUpkeepTimer .. => ends_fflUpkeepTimer ..
  | .fflTimeIntTimer .. => ends_fflTimeIntTimer ..
  | .fflLinkreqTimeout .. => ends_fflLinkreqTimeout ..
  | .fflReqCmd .. => ends_fflReqCmd ..
  | .fflLockLossTimeout .. => ends_fflLockLossTimeout ..
  | .fflLinkDownCleanupDone .. => ends_fflLinkDownCleanupDone ..
  | .fabricPacketReceive .. => ends_fabricPacketReceive ..
  | .tackReceive .. => ends_tackReceive ..
  | .tackDelayExpire .. => ends_tackDelayExpire ..
  | .e2eTimeout .. => ends_e2eTimeout ..
  | .replayStoreWritten .. => ends_replayStoreWritten ..
  | .frtCompletionTimeout .. => ends_frtCompletionTimeout ..
  | .swEntryCommit .. => ends_swEntryCommit ..
  | .swSerialize .. => ends_swSerialize ..
  | .fenceRead .. => ends_fenceRead ..
  | .fenceDmwr .. => ends_fenceDmwr ..
  | .fenceComplete .. => ends_fenceComplete ..
  | .prefetchFillDone .. => ends_prefetchFillDone ..
  | .prefetchHoldExpire .. => ends_prefetchHoldExpire ..
  | .orphanReap .. => ends_orphanReap ..
  | .liveReap .. => ends_liveReap ..
  | .accHeldWrite .. => ends_accHeldWrite ..
  | .accRdWrite .. => ends_accRdWrite ..
  | .debugPortAccess .. => ends_debugPortAccess ..
  | .vimBindD0Write .. => ends_vimBindD0Write ..
  | .vimBindD1Write .. => ends_vimBindD1Write ..
  | .ttuWalkReadDone .. => ends_ttuWalkReadDone ..
  | .ttuInvGo .. => ends_ttuInvGo ..
  | .ttuInvEffect => ends_ttuInvEffect ..
  | .ttuInvDone => ends_ttuInvDone ..
  | .vfFlr .. => ends_vfFlr ..
  | .vimResetWrite .. => ends_vimResetWrite ..
  | .vfEnableChange .. => ends_vfEnableChange ..
  | .pfFlr .. => ends_pfFlr ..
  | .heldResetEffect .. => ends_heldResetEffect ..
  | .instanceResetEnd .. => ends_instanceResetEnd ..
  | .dmaGo .. => ends_dmaGo ..
  | .dmaStop .. => ends_dmaStop ..
  | .dmaPaceWrite .. => ends_dmaPaceWrite ..
  | .dmaShadowWrite .. => ends_dmaShadowWrite ..
  | .dmaPlacedBurst .. => ends_dmaPlacedBurst ..
  | .dmaBeBurst .. => ends_dmaBeBurst ..
  | .dmaBurstEnd .. => ends_dmaBurstEnd ..
  | .dmaListFetchDone .. => ends_dmaListFetchDone ..
  | .dmaXferComplete .. => ends_dmaXferComplete ..
  | .leesRecordMake => ends_leesRecordMake ..
  | .pinPulseEnd => ends_pinPulseEnd ..
  | .pinRearm .. => ends_pinRearm ..
  | .pinDriveWrite .. => ends_pinDriveWrite ..
  | .pinModeWrite .. => ends_pinModeWrite ..
  | .logRdWrite .. => ends_logRdWrite ..
  | .mirRoleReceive .. => ends_mirRoleReceive ..
  | .mirArmreportReceive .. => ends_mirArmreportReceive ..
  | .mirYieldReceive .. => ends_mirYieldReceive ..
  | .mirResyncMsgReceive .. => ends_mirResyncMsgReceive ..
  | .mirCopyReceive .. => ends_mirCopyReceive ..
  | .mirCommitReceive .. => ends_mirCommitReceive ..
  | .mirLedgerReceive .. => ends_mirLedgerReceive ..
  | .mirBlockReceive .. => ends_mirBlockReceive ..
  | .roleInterval => ends_roleInterval ..
  | .seekTimeout => ends_seekTimeout ..
  | .ledgerEpochEnd => ends_ledgerEpochEnd ..
  | .heartbeatLoss => ends_heartbeatLoss ..
  | .hbOutToggle => ends_hbOutToggle ..
  | .mirSwitchover .. => ends_mirSwitchover ..
  | .switchoverDrained => ends_switchoverDrained ..
  | .mirTake .. => ends_mirTake ..
  | .mirTakeForce .. => ends_mirTakeForce ..
  | .mirResyncCmd .. => ends_mirResyncCmd ..
  | .mirBadCmd .. => ends_mirBadCmd ..
  | .resyncBlockSend => ends_resyncBlockSend ..
  | .resyncTimeout => ends_resyncTimeout ..
  | .presenceConfirm .. => ends_presenceConfirm ..
  | .rearmWindowEnd .. => ends_rearmWindowEnd ..
  | .slotPowerControlWrite .. => ends_slotPowerControlWrite ..
  | .slotSample .. => ends_slotSample ..
  | .prechgTimeout .. => ends_prechgTimeout ..
  | .gateTimeout .. => ends_gateTimeout ..
  | .holdoffEnd .. => ends_holdoffEnd ..
  | .perstReleaseTimer .. => ends_perstReleaseTimer ..
  | .mainFetOpenDelay .. => ends_mainFetOpenDelay ..
  | .retryClearTimer .. => ends_retryClearTimer ..
  | .feedSwitchBbmEnd .. => ends_feedSwitchBbmEnd ..
  | .feedReturnTimer .. => ends_feedReturnTimer ..
  | .fruReadDone .. => ends_fruReadDone ..
  | .lifeCountWritten .. => ends_lifeCountWritten ..
  | .slotOnHourWrite .. => ends_slotOnHourWrite ..
  | .spcClrLatch .. => ends_spcClrLatch ..
  | .spcService .. => ends_spcService ..
  | .spcConnReset .. => ends_spcConnReset ..
  | .limderLinkFail => ends_limderLinkFail ..
  | .limderLinkRestore => ends_limderLinkRestore ..
  | .getBook .. => ends_getBook ..
  | .getNonce => ends_getNonce ..
  | .provisionOwner .. => ends_provisionOwner ..
  | .revokeOwner .. => ends_revokeOwner ..
  | .provisionDbgauth .. => ends_provisionDbgauth ..
  | .revokeDbgauth .. => ends_revokeDbgauth ..
  | .commitSvn .. => ends_commitSvn ..
  | .debugToken .. => ends_debugToken ..
  | .dbgtoken .. => ends_dbgtoken ..
  | .flashprog .. => ends_flashprog ..
  | .bootsts => ends_bootsts ..
  | .spdmRequest .. => ends_spdmRequest ..
  | .checkpointTimer => ends_checkpointTimer ..
  | .checkpointMade => ends_checkpointMade ..
  | .bookFlashWritten .. => ends_bookFlashWritten ..
  | .attestOutcome .. => ends_attestOutcome ..
  | .attestTimeout .. => ends_attestTimeout ..
  | .truAttRedo .. => ends_truAttRedo ..
  | .plannerPass => ends_plannerPass ..
  | .marginScanDone .. => ends_marginScanDone ..
  | .monitorSample .. => ends_monitorSample ..
  | .ageApply .. => ends_ageApply ..
  | .ageDiscard .. => ends_ageDiscard ..
  | .ageScanNow .. => ends_ageScanNow ..
  | .ageUnretire .. => ends_ageUnretire ..
  | .ageStateHourly .. => ends_ageStateHourly ..
  | .ageMonthlyRecord .. => ends_ageMonthlyRecord ..
  | .avsTargetWrite .. => ends_avsTargetWrite ..
  | .pmuCounterWrite .. => ends_pmuCounterWrite ..
  | .pmuEvtWrite .. => ends_pmuEvtWrite ..
  | .pmuGsnapGo .. => ends_pmuGsnapGo ..
  | .pmuSnapshotTick => ends_pmuSnapshotTick ..
  | .pmuSaClr .. => ends_pmuSaClr ..
  | .traceRecordWrite .. => ends_traceRecordWrite ..
  | .samplePendingTimeout => ends_samplePendingTimeout ..
  | .ringRdWrite .. => ends_ringRdWrite ..
  | .pllUnlock => ends_pllUnlock ..
  | .pllRelock => ends_pllRelock ..
  | .pllLockTimeout => ends_pllLockTimeout ..
  | .timeSample .. => ends_timeSample ..
  | .ptmInterval => ends_ptmInterval ..
  | .tsrcLostTimeout => ends_tsrcLostTimeout ..
  | .powerGateReq .. => ends_powerGateReq ..
  | .powerWakeReq .. => ends_powerWakeReq ..
  | .powerDomainGated .. => ends_powerDomainGated ..
  | .powerDomainWoken .. => ends_powerDomainWoken ..
  | .supplySample .. => ends_supplySample ..
  | .supplyWarnEnd => ends_supplyWarnEnd ..
  | .vddAonRise => ends_vddAonRise ..
  | .qporNAssert => ends_qporNAssert ..
  | .powerUpResetEnd => ends_powerUpResetEnd ..
  | .qwarmNAssert => ends_qwarmNAssert ..
  | .rstCmdWarm .. => ends_rstCmdWarm ..
  | .warmResetStart => ends_warmResetStart ..
  | .rstCmdMgmt .. => ends_rstCmdMgmt ..
  | .mgmtWatchdogExpire => ends_mgmtWatchdogExpire ..
  | .firmwareActivate => ends_firmwareActivate ..
  | .rstPartGo .. => ends_rstPartGo ..
  | .partResetBusyEnd .. => ends_partResetBusyEnd ..
  | .bootStepDone .. => ends_bootStepDone ..
  | .managementComplexRelease .. => ends_managementComplexRelease ..
  | .pairHbInEdge .. => ends_pairHbInEdge ..
  | .ageLdataRead .. => ends_ageLdataRead ..
  | .bar2WriteCommit => ends_bar2WriteCommit ..
  | .partnerL0pL1Request .. => ends_partnerL0pL1Request ..

theorem canon_step {s t : State} (h : step s = .next t) : Canon s t := by
  cases hp : s.pending with
  | nil =>
    rw [step, hp] at h
    obtain rfl := Host.Outcome.next.inj h
    exact (same_tick s).canon
  | cons c r =>
    have hs : step s = exec c { s with pending := r } := by rw [step, hp]
    have he : Ends { s with pending := r } (exec c { s with pending := r }) := ends_exec ..
    rw [← hs, h] at he
    exact ⟨he.hbm, he.flash⟩

/-- Settles O6: only the writers of HBM and of the boot flash touch the two memories, and each of them keeps the canonical form. -/
theorem everyStepKeepsMemoriesCanonical : Obligations.EveryStepKeepsMemoriesCanonical := by
  unfold Obligations.EveryStepKeepsMemoriesCanonical
  intro s t h
  obtain ⟨hhbm, hflash⟩ := canon_step h
  exact ⟨hhbm, hflash⟩

end Sys2Proof.Memories
end
